-- ==== Sys2Proof/Word.lean ====
section
/-! DEFINITION. The plain types every other file uses: octets, octet strings and keyed collections. -/

namespace Sys2Proof

/-- One octet of a structure shared with the host, of a frame or of a key. -/
abbrev Byte := BitVec 8

/-- An octet string, the octet at the lowest offset first. -/
abbrev Bytes := List Byte

/-- A sparse collection keyed by number, held with strictly rising keys (see `Machine/FMap.lean`). -/
abbrev FMap (α : Type) := List (Nat × α)

/-- A time or duration in nanoseconds on the local timeline of R38 (the timeline that ticks count on). -/
abbrev Ns := Nat

end Sys2Proof
end

