-- ==== Sys2Proof/Objects.lean ====
section
/-! DEFINITION. The records that operands and the state are made of: operands of commands, operations of a VPE, what the
environment presents, and the objects that the state holds, block by block. -/

namespace Sys2Proof

/-! ### Operands of commands taken from a CMD ring (R401) -/

/-- What the device finds in a command descriptor besides its opcode and inline arguments (R401).
`clean` says that every reserved field and every unused argument byte is zero; `blockLen` is block_len;
`block` holds the octets of the parameter block, `none` when the block cannot be read (or, for a block the
device writes, cannot be written). -/
structure CmdHdr where
  ring     : Nat
  tag      : BitVec 32
  clean    : Bool
  blockLen : Nat
  block    : Option Bytes
  deriving DecidableEq, Repr

/-! ### VPE operations (R219, R239) -/

/-- Fields of the M format (R219). -/
structure MF where
  acd  : BitVec 3
  va   : BitVec 5
  vb   : BitVec 5
  bsel : BitVec 3
  sat  : Bool
  deriving DecidableEq, Repr

/-- Fields of CMAC and CMACJ: the M format with the pair p in bit 6 (R219, R234). -/
structure CF where
  acd  : BitVec 3
  va   : BitVec 5
  vb   : BitVec 5
  pair : Bool
  sat  : Bool
  deriving DecidableEq, Repr

/-- Fields of the MV format (R219). -/
structure VF where
  vd  : BitVec 5
  va  : BitVec 5
  vb  : BitVec 5
  imm : BitVec 5
  sat : Bool
  rnd : Bool
  deriving DecidableEq, Repr

/-- Fields of the L format (R219). -/
structure LF where
  ra : BitVec 5
  pa : BitVec 3
  ma : BitVec 3
  rb : BitVec 5
  pb : BitVec 3
  mb : BitVec 3
  deriving DecidableEq, Repr

/-- Fields of the XR format used by the ALU (R219): register codes d, a, b. -/
structure XF where
  d : BitVec 6
  a : BitVec 6
  b : BitVec 6
  deriving DecidableEq, Repr

/-- Fields of LOOP, format XL (R219). -/
structure LoopF where
  endB      : BitVec 12
  ctr       : Bool
  stages    : BitVec 2
  pipelined : Bool
  cnt       : BitVec 4
  deriving DecidableEq, Repr

/-- A slot operation of a bundle with its decoded fields: the instruction set of R239 and nothing else. -/
inductive VOp where
  | nop
  | mul (f : MF) | mac (f : MF) | msu (f : MF)
  | cmac (f : CF) | cmacj (f : CF)
  | acclr (acd : BitVec 3)
  | acadd (acd acs : BitVec 3) (sat : Bool) | acsub (acd acs : BitVec 3) (sat : Bool)
  | acsh (acd acs : BitVec 3) (cnt : BitVec 7) (sat : Bool)
  | acins (acd : BitVec 3) (va : BitVec 5) (q : BitVec 2)
  | spl (vd : BitVec 5) (acs : BitVec 3) (q : BitVec 2)
  | nrw (acs : BitVec 3) (vd : BitVec 5) (sh : BitVec 6) (sat : Bool)
  | expa (acs : BitVec 3) (vd : BitVec 5)
  | norma (acs acd : BitVec 3)
  | vadd (f : VF) | vsub (f : VF) | vmax (f : VF) | vmin (f : VF) | vabs (f : VF) | vneg (f : VF)
  | vshl (f : VF) | vshr (f : VF) | vand (f : VF) | vor (f : VF) | vxor (f : VF)
  | exp (f : VF) | norm (f : VF) | bexp (f : VF) | vshlv (f : VF)
  | vcmpgt (f : VF) | vcmpeq (f : VF) | vsel (f : VF) | vmov (f : VF)
  | ld (f : LF) | st (f : LF) | ld2 (f : LF) | ldst (f : LF) | lds (f : LF) | sts (f : LF)
  | movi (d : BitVec 6) (imm : BitVec 16)
  | aluAdd (f : XF) | aluSub (f : XF) | aluAnd (f : XF) | aluOr (f : XF) | aluXor (f : XF)
  | aluShl (f : XF) | aluShr (f : XF) | aluShru (f : XF) | aluMul (f : XF) | aluMin (f : XF) | aluMax (f : XF)
  | aluMov (d a : BitVec 6)
  | addi (d a : BitVec 6) (imm : BitVec 10)
  | br (target : BitVec 12)
  | loop (f : LoopF)
  | vbc (vd : BitVec 5) (a : BitVec 4)
  | vext (d : BitVec 4) (va : BitVec 5) (lane : BitVec 2)
  | valn (vd va vb : BitVec 5) (j : BitVec 4)
  | cmv (a : BitVec 4) | waitm | stop
  | fail (code : BitVec 16)
  | pset (d : BitVec 6) (imm : BitVec 16)
  deriving DecidableEq, Repr

/-- The kinds of VPE fault, in the order of the table of R240. -/
inductive FaultKind where
  | memUe | bounds | overrun | illegal | kernelFail
  deriving DecidableEq, Repr

/-! ### What the environment or an analogue measurement presents

The spec gives no arithmetic for the detectors, codecs and demodulators of the Media Image and of the CRE;
it gives what they report. These records carry the measured quantities its rules speak of. Levels are in
0.01 dB relative to 0 dBm0, frequencies in 0.01 Hz. -/

/-- One 5 ms block of the DTMF detector (R72): the nearest digit, the deviation of each tone from its Q.23
frequency, both levels, how far the energy outside the pair lies below it, and the total power of the pair. -/
structure DtmfMeas where
  digit  : Nat
  devLow : Int
  devHigh : Int
  lvlLow : Int
  lvlHigh : Int
  other  : Int
  pair   : Int
  deriving DecidableEq, Repr

/-- One 5 ms block of the answer-tone detector (R74); `phase` is a phase jump seen in the block, in 0.1 degree. -/
structure AnsMeas where
  freq  : Int
  lvl   : Int
  phase : Option Int
  deriving DecidableEq, Repr

/-- One 5 ms block of the fax calling-tone detector (R75). -/
structure FaxMeas where
  freq : Int
  lvl  : Int
  deriving DecidableEq, Repr

/-- One 5 ms block of the V.21 detector (R75): the larger deviation of its two tones from 1 650 and 1 850 Hz, the level, and
the bits demodulated in the block, oldest first. -/
structure V21Meas where
  dev  : Int
  lvl  : Int
  bits : List Bool
  deriving DecidableEq, Repr

/-- One 5 ms block of one direction of a voice channel: its level, its samples at 8 kHz, and what the detectors find in them. -/
structure BlockObs where
  level : Int
  block : List Int
  dtmf  : Option DtmfMeas
  ans   : Option AnsMeas
  fax   : Option FaxMeas
  v21   : Option V21Meas
  deriving DecidableEq, Repr

/-- The result of an op as the VPE leaves it (R246, R253): `fault`, the output item, the state lines, and bit 0 of S15 at
STOP. What the ops of a voice channel give follows from its samples and packets instead (R79). -/
structure OpRes where
  fault : Option FaultKind
  out   : Bytes
  state : List (BitVec 72)
  pred  : Bool
  deriving DecidableEq, Repr

/-- A tone at the TTU input in one detector window (R118): its distance from a set frequency is judged by the
model; `hz` in 0.01 Hz, `lvl` in 0.01 dBm0. -/
structure ToneMeas where
  hz  : Int
  lvl : Int
  deriving DecidableEq, Repr

/-- What the TTU measures over the window of one decision: the tones found and the energy outside the set tones,
in 0.01 dB below the strongest. -/
structure TtuObs where
  tones : List ToneMeas
  other : Int
  deriving DecidableEq, Repr

/-- A received Ethernet frame: its octets from destination address to payload, its FCS as the number of R185, whether the PCS found
a code error in it, and the time its first bit passed the balls with its fraction of a ns (R378). -/
structure EthFrame where
  data  : Bytes
  fcs   : BitVec 32
  codeErr : Bool
  time  : Ns
  frac  : BitVec 16
  deriving DecidableEq, Repr

/-- One doorbell slot as the device finds it (R396). -/
structure DbSlot where
  ring  : Nat
  index : BitVec 32
  gen   : BitVec 16
  deriving DecidableEq, Repr

/-- One PTX descriptor as read from host memory with the data of its buffer, `none` when the read fails (R412). -/
structure PtxDesc where
  len    : Nat
  eop    : Bool
  tsReq  : Bool
  toPair : Bool
  target : Nat
  tc     : Nat
  clean  : Bool
  data   : Option Bytes
  deriving DecidableEq, Repr

/-- How start-up finds the world outside the chip (R455, R457, R490, R539, R541). `density` is the capacity in GiB
that MR8 gives for each channel; `headerOk` says that the directory header passes its check (R475). -/
structure BootEnv where
  factoryLow  : Bool
  density     : List Nat
  identOk     : Bool
  writeReadOk : Bool
  trainOk     : Bool
  pprCapable  : Bool
  headerOk    : Bool
  deriving DecidableEq, Repr

/-- The places of R465 in which an uncorrectable memory error can lie. -/
inductive UeWhere where
  | vpeData (vpe : Nat)
  | vpeProg (vpe : Nat)
  | clusterEcho (channel : Nat)
  | cellWord (queue : Nat)
  | fscEntry (flow : Nat)
  | dramEcho (chan addr channel : Nat)
  | dramEntry (chan addr : Nat) (slot : Nat)
  | dramIndex (chan addr : Nat)
  | dramBacklog (chan addr : Nat)
  | dramEvent (chan addr ring : Nat)
  | dramResume (chan addr handle : Nat)
  | endpaper (area : Nat) (both : Bool)
  deriving DecidableEq, Repr

/-- The pointer of R311 whose two copies disagree. -/
inductive IntegWhere where
  | head | tail | linked | staged (flow inst node : Nat) | taken | freeList
  deriving DecidableEq, Repr

/-- The alarms of R354. -/
inductive TdmAlarm where
  | los | ais | lof | lomf | rai
  deriving DecidableEq, Repr

/-- One frame of a TDM port's line, in line timing (R345, R351): the octets of all its timeslots, the frame bit of a T1 frame,
and the instant at which it began. -/
structure TdmFrame where
  slots : Bytes
  fbit  : Bool
  start : Ns
  deriving DecidableEq, Repr

/-- A twin peer's credentials as the link presents them (R510). -/
structure TwinPeer where
  sameKey   : Bool
  sameLock  : Bool
  mimOk     : Bool
  identity  : Nat
  prefMirror : Bool
  deriving DecidableEq, Repr

/-- A received PTP message after parsing by the Control Image (R379): 0 Sync/Follow_Up, 1 Pdelay_Resp, 2 Announce,
3 Pdelay_Req; `offset` is the offset of device time it yields, in ns. An Announce gives its clock's rank in the order of the
best master clock algorithm: priority1, clock class, accuracy, variance, priority2, identity; the lower comes first. -/
structure PtpMsg where
  kind    : Nat
  offset  : Int
  rank    : List Nat
  domain  : Nat
  deriving DecidableEq, Repr

end Sys2Proof

namespace Sys2Proof.Machine

open Sys2Proof

/-! ### Counters (R111, R137, R178, R213, R277, R315, R344, R360, R386, R425, R454, R489) -/

/-- The 64-bit counters the spec names. -/
inductive Ctr where
  | deadlineMiss | conceal | portUnderrun | xingOverrun | rxNocell | avsFault
  | dtmfReject | ecDisable | udpCsum | rtpSrc | srtpAuth | srtpReplay | rtpHdr | rtpSsrc | rtpBadPt | rtpBadLen
  | rtpNochan | jbGrow | jbShrink | rtpStale | rtpJump | rtpRepaired | rtpLate | rtpDup | rtpLost | fecRecover
  | rtcpOther | specDiscard | specDiscardClass
  | tpCmdTx | tpCmdRx | tpTestRx | tpDwellAbort | tpAmbiguous | tpBadFrame | tpAuthFail | tpSeqOld | tpLost
  | tpLinkFail | tpTtOver | tpLate
  | rlCodeErr | rlDown | rlSysrefSlip | rlClip | rlGainWr | rlOvlStep
  | detQual | detPreLost | detSyncMismatch | detETrig | detENoconfirm | detAbandonLink
  | detHdrCrc | detHdrBad | detFalse | rxFrame | rxCrcFail
  | ovlIgnored | ovlSwitch | ovlRecover | ovlNoinst | ovlThird
  | secFormat | secUnknown | secReplay | secMic | txFrame | txLate | txAborted | txClip
  | pttBlocked | pttNogroup | pttTxDrop
  | vpeMemCe | vpeFault
  | fscDispatch | fscSpecDispatch | affVpeMiss | affClusterMiss | fscSteal | fscAged | opCancel | voidDrop
  | windowStall | slotStall | readyFull | delayLate | inflightStall | tetherGuard
  | severed | qFlushed | dropRest | qLimit | qIntegrity
  | recSeg | recDrop | bceJobOk | bceJobShort | bceJobFail
  | slipRxRep | slipRxDel | slipTxRep | slipTxDel | tdmFasErr | tdmCrc | tdmEbit | tdmLof | tdmLos
  | rxRunt | rxOversize | rxFcs | rxCtrl | rxFilter | rxUnclaimed | txLinkDown | txNoWindow
  | prpDup | prpNonPrp | prpWrongLan | prpOutOfWindow | prpUnique | prpSvRx
  | dbStale | ringFault | evtDrop | evtDropDevice | rxNobuf | rxRingToobig | rxRingGone | barBad | hifDmaErr
  | setupLockedWr | dramCe | dramUe | cmemCe | cmemUe | poolCe | endpCe | ecStateLost | epdLookup | epdMiss
  deriving DecidableEq, Repr

/-- A counter of one object; `sub` is the class, SF, command, kind or direction it is kept per, 0 where none. -/
structure CtrKey where
  ctr : Ctr
  obj : Nat
  sub : Nat
  deriving DecidableEq, Repr

/-- The figures the statistics blocks hold beside the counters (R420), each with its extreme since the last block
where the spec gives one. -/
inductive Fig where
  | paceCount | paceRate | minSlack | tempLow | tempHigh | backlogHigh | overlapHigh | tdmAlarmS | tdmCrcS | lpiNs | ethTxFrames | ethTxOctets | ethRxFrames
  | ethRxOctets | fscFlight | fscReady | fscSlots
  deriving DecidableEq, Repr

/-- A figure of one object; `sub` as for a counter. -/
structure FigKey where
  fig : Fig
  obj : Nat
  sub : Nat
  deriving DecidableEq, Repr

/-! ### Clock and timebase (R35 to R38, R378 to R382) -/

/-- The TBU: `localNs` is the timeline of R38 that ticks count on; device time is `localNs + offset`. -/
structure Clock where
  localNs   : Nat
  offset    : Int
  tick      : Nat
  /-- The local instant at which the last tick began (R35). -/
  tickAt    : Ns
  /-- Offset still to be slewed in (R38, R380). -/
  slewLeft  : Int
  /-- 0 FREERUN, 1 LOCKED, 2 HOLDOVER (R385). -/
  tbuState  : Nat
  phaseRef  : Nat
  freqRef   : Nat
  /-- Codes of R381 now available. -/
  avail     : List Nat
  everLocked : Bool
  /-- Last frequency correction, 0.001 ppb (R382, R409). -/
  freqCorr  : Int
  /-- TDM references held unavailable until this instant after an alarm cleared (R357), by port. -/
  tdmHold   : FMap Ns
  /-- Since when each reference has been available without a break, by code (R381). -/
  refSince  : FMap Ns
  /-- When the last available reference failed, until its round is over (R382). -/
  refGone   : Option Ns
  /-- The PTP port in SLAVE state and the rank of the master it follows (R379, R381). -/
  ptpMaster : Option (Nat × List Nat)
  ptpSent   : FMap Nat
  deriving DecidableEq, Repr

/-! ### Host interface (R387 to R425) -/

/-- Ring types of R391. -/
inductive RingType where
  | cmd | cpl | evt | ptx | prx | recording
  deriving DecidableEq, Repr

/-- The ring context of R393. -/
structure RingCtx where
  ty       : RingType
  target   : Nat
  level    : Nat
  gen      : BitVec 16
  log2     : Nat
  vector   : Nat
  irqEn    : Bool
  ringAddr : BitVec 64
  bufAddr  : BitVec 64
  bufSize  : Nat
  holdUs   : Nat
  cplRing  : Nat
  evtRing  : Nat
  queue    : Nat
  deriving DecidableEq, Repr

/-- An event entry before its phase bit is added (R407). -/
structure Event where
  code   : Nat
  notice : Bool
  lost   : Bool
  seq    : BitVec 32
  time   : BitVec 64
  body   : Bytes
  deriving DecidableEq, Repr

/-- An item that waits for buffers of a PRX or REC ring (R414): kind 0 ETH, 1 RADIO, 2 QUEUE, 3 REC. -/
structure PrxItem where
  kind   : Nat
  source : Nat
  data   : Bytes
  tsValid : Bool
  time   : BitVec 64
  frac   : BitVec 16
  /-- Whether the cells that it holds while it waits lie in the DRAM extension (R20, R309). -/
  ext    : Bool
  deriving DecidableEq, Repr

/-- A command that was taken and has not completed (R403): it holds its ring. -/
structure Held where
  opcode : Nat
  tag    : BitVec 32
  index  : BitVec 32
  /-- The CPL ring its completion goes to (R395). -/
  cpl    : Nat
  deriving DecidableEq, Repr

/-- A ring (R391 to R400). -/
structure Ring where
  ctx      : RingCtx
  /-- Host's index as last read from the doorbell page. -/
  hostIdx  : BitVec 32
  /-- Device's index: consumer of CMD and PTX, producer of CPL, EVT, PRX and REC. -/
  devIdx   : BitVec 32
  /-- Value last written to the ring's index-page slot. -/
  slotIdx  : BitVec 32
  slotTime : Ns
  stopped  : Bool
  /-- What the device has written into the ring, by position (R392, R400): CPL and EVT entries, receive
  descriptors, and the octets 0x10 to 0x1F of PTX descriptors (R412). -/
  written  : FMap Bytes
  /-- What the device has written into the posted buffers of a PRX or REC ring, by position. -/
  bufs     : FMap Bytes
  /-- Entries that wait because a write of this ring fails (R399), oldest first. -/
  pendW    : List Bytes
  /-- Items taken from a PTX ring and not passed by the index slot: last descriptor and whether ended (R413). -/
  items    : List (BitVec 32 × Bool)
  /-- Descriptors of PTX items that have ended, in ring order (R413). -/
  endIdx   : BitVec 32
  /-- Events waiting for room, oldest first (R407). -/
  backlog  : List Event
  seq      : BitVec 32
  lostFlag : Bool
  /-- Items waiting for buffers, oldest first (R415), and since when the oldest is the oldest. -/
  waiting  : List PrxItem
  waitSince : Ns
  /-- Highest number of items waiting since the last statistics block (R425). -/
  waitHigh : Nat
  /-- The oldest waiting item has already raised RING_STARVED (R415), or, on a PTX ring, counted in CNT_Q_LIMIT (R413). -/
  starved  : Bool
  itemSeq  : BitVec 32
  held     : Option Held
  /-- The last read of an entry of the ring failed, and a write for the ring fails (R399). -/
  readFail : Bool
  dmaFail  : Bool
  deriving DecidableEq, Repr

/-- An outstanding threshold notice (R409). -/
structure Notice where
  code    : Nat
  object  : Nat
  mark    : Bool
  count   : Nat
  value   : Int
  extreme : Int
  live    : Bool
  /-- The reason of the last crossing (R146), or the limit bit of a pace warning (R26). -/
  reason  : Nat
  deriving DecidableEq, Repr

/-- A long operation accepted and not ended (R406). -/
structure LongOp where
  opId     : Nat
  opcode   : Nat
  tag      : BitVec 32
  ring     : Nat
  position : Nat
  total    : Nat
  lastMille : Nat
  lastTime : Ns
  deriving DecidableEq, Repr

/-- One MSI-X vector: entries and time since its last message (R418). -/
structure MsixVec where
  count  : Nat
  since  : Ns
  sent   : Nat
  pending : Bool
  deriving DecidableEq, Repr

/-- The host interface. -/
structure Hif where
  rings     : FMap Ring
  busy      : Bool
  result    : Nat
  /-- Poll interval in ns and the instant of the next doorbell read (R398). -/
  pollNs    : Nat
  pollAt    : Ns
  /-- The gen and value found in each slot of the doorbell page at its last read (R397). -/
  slots     : FMap (BitVec 16 × BitVec 32)
  notices   : List Notice
  /-- Events raised while the global event ring is not named that wait as notices do (R491). -/
  waitGlobal : List Event
  longOps   : List LongOp
  nextOpId  : Nat
  msix      : FMap MsixVec
  /-- The MSI-X table by word (R390); a vector control word not listed is 1, every other 0. -/
  msixTable : FMap (BitVec 32)
  /-- Number of the last block, the buffer and instant of the next one, and whether the last one fitted (R419, R411). -/
  statsSeq  : Nat
  statsBuf  : Bool
  statsAt   : Ns
  statsFit  : Bool
  mbxBusy   : Bool
  mbxStatus : Nat
  mbxAnswer : Bytes
  /-- Octets the device wrote to the block of the last command whose block it writes (R428, R471). -/
  wrote     : Bytes
  /-- The ring served last in the turns of R403. -/
  lastTurn  : Nat
  /-- The function answers configuration requests normally, no longer with Retry Status (R388), and the most recent
  answer, `none` for Retry Status. -/
  cfgOpen   : Bool
  cfgAnswer : Option (BitVec 32)
  /-- What the most recent read of BAR0 returned (R390, R519). -/
  barAnswer : BitVec 64
  /-- HIF_SUBSYS in use: as it stood at the last POR or PIN reset (R424, R520). -/
  subsys    : BitVec 32
  /-- LO halves written and not yet applied, and HI halves captured by a LO read, by the offset of LO (R519). -/
  loHeld    : FMap (BitVec 32)
  hiCapture : FMap (BitVec 32)
  /-- The last statistics block written and its buffer (R419). -/
  stats     : Option (Nat × Bytes)
  deriving DecidableEq, Repr

/-! ### Security (R426 to R454) -/

/-- A session bound to a CMD ring (R432). -/
structure Session where
  privilege : Nat
  key       : Bytes
  lastCmd   : Ns
  commands  : Nat
  ivHigh    : Nat
  ivUsed    : Bool
  deriving DecidableEq, Repr

/-- A nonce drawn by SESSION_OPEN (R430). -/
structure Nonce where
  privilege : Nat
  value     : Bytes
  drawn     : Ns
  deriving DecidableEq, Repr

/-- The Security Unit: keys, proofs, sessions and fuses. -/
structure Sec where
  enrolled  : Bool
  viewKey   : Bytes
  operKey   : Bytes
  ownerKey  : Bytes
  signHash  : Bytes
  /-- Consecutive failed proofs of VIEW, OPERATE and OWNER (R433). -/
  fails     : FMap Nat
  /-- The instant a running back-off ends, by privilege. -/
  backoff   : FMap Ns
  sessions  : FMap Session
  nonces    : FMap Nonce
  /-- Ring of the session that holds SETUP_UNLOCK and the instant the unlock ends (R437). -/
  unlock    : Option (Nat × Ns)
  revoked   : BitVec 2
  identity  : BitVec 64
  deriving DecidableEq, Repr

/-! ### Images and start-up (R441 to R448, R490 to R509) -/

/-- What the device knows of a stored image after its checks: version, colophon lists and digest (R441, R493). -/
structure Image where
  version   : BitVec 32
  blMask    : Nat
  hifLevels : Nat
  steppings : List Nat
  tested    : List (BitVec 32)
  coexists  : List (BitVec 32)
  revoke    : BitVec 2
  keyPair   : Nat
  digest    : Bytes
  raw       : Bytes
  deriving DecidableEq, Repr

/-- A rolling update in progress (R506): its operation, the slot of the new image, the clusters that hold the new image,
the one changed last first, and whether they are being taken back. -/
structure Rolling where
  opId    : Nat
  slot    : Nat
  changed : List Nat
  back    : Bool
  deriving DecidableEq, Repr

/-- Boot, images, clusters and service (R490 to R517). -/
structure Avail where
  /-- Stage code of BOOT_STATUS (R517). -/
  stage     : Nat
  porHeld   : Bool
  /-- 0 in service, 1 STANDBY, 2 shut down (R484). -/
  power     : Nat
  /-- Straps as sampled, and FACTORY_N low at the release of a POR (R525, R541). -/
  straps    : BitVec 4
  factoryReq : Bool
  thermTrip : Bool
  tempDeciC : Int
  cimA : Option Image
  cimB : Option Image
  mimA : Option Image
  mimB : Option Image
  /-- Stored and loaded user-kernel sets (R448). -/
  userStored : Option Image
  userLoaded : Option Image
  cimSlot : Nat
  mimSlot : Nat
  bootCim : Nat
  bootMim : Nat
  knownGood : Option (Nat × Nat)
  fallbackFlag : Bool
  fallback  : Bool
  comboUntested : Bool
  acceptUntested : Option (BitVec 32 × BitVec 32)
  behaviourLock : Bool
  factoryRestored : Bool
  recovBusy : Bool
  recovResult : Nat
  runSince  : Ns
  spare     : Option Nat
  retired   : List Nat
  standbyReady : Bool
  rolling   : Option Rolling
  migrating : Option (Nat × Nat)
  migrateOp : Option Nat
  selfTesting : Option (Option Nat)
  lastTested : Nat
  nextTest  : List Nat
  rotateAt  : Ns
  handover  : Option Nat
  /-- Images being written (operation, kind, octets) and user kernels being loaded, oldest first. -/
  imgWriting : List (Nat × Nat × Bytes)
  ukLoading : List (Nat × Bytes)
  /-- MIM slot that each cluster holds. -/
  clusterMim : FMap Nat
  /-- The octets of the WAKE event to come (R383). -/
  wakeInfo  : Option Bytes
  /-- The directory header is marked clean (R475). -/
  dirClean  : Bool
  /-- Events that start-up raises at READY: code and body. -/
  atReady   : List (Nat × Bytes)
  /-- The start-up to come follows a POR (R439). -/
  afterPor  : Bool
  deriving DecidableEq, Repr

/-- The twin link (R510 to R514). -/
structure Twin where
  link    : Nat
  role    : Nat
  alive   : Bool
  reason  : Nat
  lostAt  : Option Ns
  applied : Option Ns
  sent    : Option Ns
  deriving DecidableEq, Repr

/-- Voltage loop (R26). -/
structure Avs where
  voutMv   : Nat
  run      : Bool
  /-- Requested voltage of a transaction that failed once, and the instant of its retry. -/
  request  : Option Nat
  retryAt  : Option Ns
  /-- Since when the minimum slack of every cluster has been at or above the release threshold. -/
  calmSince : Option Ns
  /-- The last upward request while the upward condition holds, and the last downward one. -/
  lastUp   : Option Ns
  lastDown : Option Ns
  deriving DecidableEq, Repr

/-! ### Voice (R43 to R80) -/

/-- The channel parameter block of R48. -/
structure ChanParams where
  channel : Nat
  lineMode : Nat
  port : Nat
  slot : Nat
  pktMode : Nat
  pktRef : Nat
  codec : Nat
  g726Rate : Nat
  g726Pack : Bool
  vad : Bool
  ptime : Nat
  opusKbps : Nat
  opusCbr : Bool
  opusFec : Bool
  opusBw : Nat
  opusFrame : Bool
  opusLoss : Nat
  preset : Nat
  record : Bool
  tail : Nat
  nlp : Nat
  erlMin : Nat
  ansNlpOff : Bool
  gainSend : Int
  gainRecv : Int
  alcSend : Bool
  alcRecv : Bool
  muteSend : Bool
  muteRecv : Bool
  alcTarget : Nat
  dtmfDet : Bool
  ansDet : Bool
  v21Det : Bool
  cngDet : Bool
  dtmfRelay : Bool
  dtmfRegen : Bool
  vbdAuto : Bool
  toneEvents : Bool
  dtmfMinOn : Nat
  dtmfMinOff : Nat
  tePt : Nat
  vbdPt : Nat
  deriving DecidableEq, Repr

/-- A tone in progress or forming (R71 to R76): start of its first block on the local timeline, blocks from there to
the last one that showed it, blocks since, whether it has qualified, whether its beginning has been reported and its end has
not, level and twist last measured in 0.01 dB. -/
structure ToneRun where
  tone  : Nat
  recv  : Bool
  start : Ns
  run   : Nat
  gap   : Nat
  on    : Bool
  told  : Bool
  level : Int
  twist : Int
  deriving DecidableEq, Repr

/-- RFC 4733 sending of one digit (R77): timestamp of the segment, volume, duration up to the digit's last candidate
block, units of it in earlier segments, whether the first packet has gone, frames since the last one, end packets still
to send once the digit has ended. -/
structure Relay where
  digit    : Nat
  ts       : BitVec 32
  volume   : Nat
  total    : Nat
  base     : Nat
  sent     : Bool
  since    : Nat
  ended    : Bool
  ends     : Nat
  deriving DecidableEq, Repr

/-- A received RFC 4733 event (R78, R91): timestamp, event, volume, start, duration last seen, when regeneration stops
without an end packet, and whether the end packet has come. -/
structure Regen where
  ts       : BitVec 32
  digit    : Nat
  volume   : Nat
  start    : Ns
  duration : Nat
  until_   : Ns
  ended    : Bool
  deriving DecidableEq, Repr

/-- What a frame of playout plays (R56, R92, R93, R98): nothing yet, the `j`-th 10 ms of a payload (`noise` where that is
comfort noise), comfort noise between frames, the redundancy of the next payload, concealment, or the concealment frame of
a growth move. -/
inductive Playout where
  | idle | frame (d : Bytes) (j : Nat) (noise : Bool) | silence | redundancy (d : Bytes) | conceal | growth
  deriving DecidableEq, Repr

/-- A decoder (R53, R56, R93): the codec options that its state was made under, its kernel's state, the comfort-noise or SID
parameters played last, and the state of the noise generator. -/
structure Decoder where
  opts  : List Nat
  st    : List Int
  cn    : Option Bytes
  noise : List Int
  deriving DecidableEq, Repr

/-- An encoder: the codec options that its state was made under, and its kernel's state. -/
structure Encoder where
  opts : List Nat
  st   : List Int
  deriving DecidableEq, Repr

/-- A missing packet whose repair window is open (R100, R101): its extended sequence number, the frame first concealed,
the frames in the packet and the frame whose decision closes the window. `stage` is 0 while the packet is missing, 1 while
its rebuild waits or runs, 2 once the rebuild's completion is recorded in the present round and 3 from the next round on.
`w` is the W that it opened with, `snap` is the decoder state from before the first frame, `plays` what has been played since, without growth frames,
`data` the late packet's payload, and `rebuilt` the tethered state that the rebuild has left. -/
structure Repair where
  seq    : Nat
  frame  : Nat
  frames : Nat
  closeFrame : Nat
  w      : Nat
  stage  : Nat
  snap   : Decoder
  plays  : List Playout
  data   : Bytes
  rebuilt : Option Decoder
  deriving DecidableEq, Repr

/-- One frame of a recording segment (R110, R337): flags and line-rate samples of both directions. -/
structure RecFrame where
  sendFlags : Nat
  recvFlags : Nat
  send      : List Int
  recv      : List Int
  deriving DecidableEq, Repr

/-- A filter of the FDC on audio: which one (0 to 2 a preset of R69, 3 the resampler's ROM of R159), its span in input
samples, and the rates in kHz. -/
structure FdcFilter where
  kind    : Nat
  span    : Nat
  fromKhz : Nat
  toKhz   : Nat
  deriving DecidableEq, Repr

/-- An audio conversion in progress (R69, R104, R159): its filter, r of R159, the inputs that it has gone past, newest first,
those still to come, and the correction in use in 0.01 ppm. -/
structure Fdc where
  filter : FdcFilter
  r      : Nat
  hist   : List Int
  queue  : List Int
  e      : Int
  deriving DecidableEq, Repr

/-- The echo canceller of a channel (R59 to R64): the tail that its state was made for, the taps of the echo path, the
reference samples that they look back on, newest first, the state of the adaptation kernel, whether the NLP was active in
the frame before, and the ERLE, the combined loss and the returned echo level last measured, in 0.01 dB and dBm0. -/
structure Echo where
  tail : Nat
  taps : List Int
  ref  : List Int
  st   : List Int
  nlp  : Bool
  erle : Int
  loss : Int
  returned : Int
  deriving DecidableEq, Repr

/-- The near-end background (R63): powers of the last 25 frames of it, newest first, the ten coefficients of its envelope,
and the state of the noise generator. -/
structure Background where
  powers : List Nat
  env    : List Int
  gen    : List Int
  deriving DecidableEq, Repr

/-- The HDLC flags of one direction (R75): the last eight bits, half bit times since the last flag ended, and consecutive
flags so far. -/
structure V21Run where
  last  : Nat
  since : Nat
  flags : Nat
  deriving DecidableEq, Repr

/-- What the detectors find in one 10 ms frame of a channel (R71): the two blocks of each direction. -/
structure VoiceObs where
  send : List BlockObs
  recv : List BlockObs
  deriving DecidableEq, Repr

/-- A frame of a voice channel from the dispatch of its DECODE to its last release (R45, R50): its parameters, whether it is
voiceband data, the instant of that dispatch and whether the playout's decision for it has been taken (R97), what it plays,
the record flags known so far (R110), the send and receive samples at the line rate as the ops leave them, how many receive
samples at its beginning are unsettled, the decoder and the conversion from before its DECODE, kept in case that op is void,
whether ECHO found single talk from the far end (R62), what DETECT finds, whether a candidate block or a digit in progress was
in it (R73), whether its receive direction has left LEVEL, what ENCODE gives, and the events that reach the host with it. -/
structure VFrame where
  num       : Nat
  p         : ChanParams
  vbd       : Bool
  at_       : Ns
  decided   : Bool
  plays     : List Playout
  sendFlags : Nat
  recvFlags : Nat
  send      : List Int
  recv      : List Int
  unset     : Nat
  before    : Option (Decoder × Fdc)
  echoed    : Bool
  single    : Bool
  obs       : Option VoiceObs
  digit     : Bool
  recvDone  : Bool
  coded     : Bytes
  events    : List (Nat × Bytes)
  deriving DecidableEq, Repr

/-- A voice channel. -/
structure Chan where
  p        : ChanParams
  /-- Parameters of a CHAN_MODIFY that wait for the next undispatched frame (R50). -/
  next     : Option ChanParams
  releasing : Option (Nat × Held)
  ring     : Nat
  /-- The next frame whose DECODE has not been dispatched, and the due tick of frame 0. -/
  frame    : Nat
  due0     : Nat
  /-- Channel units in use for admission (R3, R66). -/
  units    : Nat
  /-- Voiceband-data mode (R66), and a switch to it that waits for the next frame boundary. -/
  vbd      : Bool
  vbdPending : Bool
  /-- Echo canceller: off by the tone disabler, frozen, frames left before adaptation resumes, its state. -/
  ecOff    : Bool
  ecFrozen : Bool
  ecResume : Nat
  nlpOn    : Bool
  echo     : Echo
  bg       : Background
  /-- An answer tone has qualified and the release condition of R65 has not been met since. -/
  ansSeen  : Bool
  suspended : Bool
  /-- Blocks for which both directions have been below −36 dBm0 (R65). -/
  quiet    : Nat
  /-- ALC gains in 0.01 dB, and the powers of the last 100 frames that each direction adapted on, newest first (R68). -/
  alcSend  : Int
  alcRecv  : Int
  powSend  : List Nat
  powRecv  : List Nat
  /-- Codecs, conversions to the codec and to the line, and the decimation of the detectors' blocks (R53, R69, R71). -/
  enc      : Encoder
  dec      : Decoder
  fdcSend  : Fdc
  fdcRecv  : Fdc
  detSend  : Fdc
  detRecv  : Fdc
  /-- States of the other kernels of the Media Image, by kernel and direction. -/
  kst      : FMap (List Int)
  v21Send  : V21Run
  v21Recv  : V21Run
  /-- Line octets that wait for a DECODE, and how many of the frame taken last have not come. -/
  line     : Bytes
  lineOwed : Nat
  tones    : List ToneRun
  /-- Digits being sent as events, oldest first (R77). -/
  relay    : List Relay
  regen    : Option Regen
  /-- Received events before it, newest first and at most sixteen (R91). -/
  heard    : List Regen
  /-- The send signal is classed as silence, and the comfort-noise level last sent in 0.01 dB (R55). -/
  silence  : Bool
  noiseSent : Int
  /-- Coded frames of the packet being built, whether the next audio packet carries the marker (R89), and frames since the
  last packet of an Opus silence (R55). -/
  acc      : List Bytes
  mark     : Bool
  dtx      : Nat
  /-- Frames begun and not yet released whole, oldest first, and events that reach the host with the next frame. -/
  begun    : List VFrame
  events   : List (Nat × Bytes)
  /-- The recording segment being built (R335, R336): its number, tick and device time of its first frame, its frames,
  whether it is the first, frames missing before it, and the flushes that close it. -/
  segNo    : Nat
  segTick  : Nat
  segStart : Nat
  segData  : List RecFrame
  segFirst : Bool
  segRatio : Nat
  gap      : Nat
  segClose : List Nat
  deriving DecidableEq, Repr

/-- Capacity that a command has given up while its completion waits to be written (R5): the CPL ring and the entry that waits,
channel units, places of a long tail and of Opus. -/
structure Freed where
  cpl   : Nat
  entry : Bytes
  units : Nat
  long  : Nat
  opus  : Nat
  deriving DecidableEq, Repr

/-! ### Packet voice (R81 to R111) -/

/-- The context parameter block of R82, defaults not yet applied. -/
structure RtpParams where
  context : Nat
  ethPort : Nat
  ipv6 : Bool
  rtcpMux : Bool
  srtp : Bool
  ssrcFixed : Bool
  ssrcFollow : Bool
  srcCheck : Bool
  vlanEn : Bool
  vlanId : Nat
  pcp : Nat
  dscp : Nat
  hopLimit : Nat
  tc : Nat
  localPort : Nat
  remotePort : Nat
  remoteRtcp : Nat
  txSsrc : BitVec 32
  rxSsrc : BitVec 32
  txSeqInit : BitVec 16
  audioPt : Nat
  cnPt : Nat
  cnOff : Bool
  txTsInit : BitVec 32
  jbMin : Nat
  jbNom : Nat
  jbMax : Nat
  repairFrames : Nat
  rtcpInterval : Nat
  rxTimeout : Nat
  localAddr : Bytes
  remoteAddr : Bytes
  cnameLen : Nat
  cname : Bytes
  nextHop : Bytes
  deriving DecidableEq, Repr

/-- One loaded SRTP key (R106): packets under it, the replay window of a receive key, and the index and replay window
of SRTCP. -/
structure SrtpKey where
  key   : Bytes
  salt  : Bytes
  roc   : Nat
  atSeq : Option (BitVec 16)
  used  : Nat
  high  : Nat
  seen  : List Nat
  cIndex : Nat
  cHigh : Nat
  cSeen : List Nat
  deriving DecidableEq, Repr

/-- A packet held in the jitter buffer (R90, R92): extended sequence number, timestamp, the frame that plays its first
10 ms, frames of 10 ms, how many of them are audio (the rest is comfort noise), arrival instant, payload. -/
structure JbPacket where
  seq    : Nat
  ts     : BitVec 32
  frame  : Nat
  frames : Nat
  audio  : Nat
  at_    : Ns
  data   : Bytes
  deriving DecidableEq, Repr

/-- The RTCP session of a context (R108, R109). Packets and octets sent, packets received, the reference points of
RFC 3550 Appendix A, jitter in 1/16 timestamp unit, round-trip time in 1/65536 s. -/
structure Rtcp where
  nextAt   : Ns
  sent     : Nat
  octets   : Nat
  received : Nat
  baseSeq  : Nat
  expectedPrior : Nat
  receivedPrior : Nat
  jitter   : Nat
  lastTransit : Option Int
  rtt      : Nat
  lsr      : BitVec 32
  lsrAt    : Ns
  deriving DecidableEq, Repr

/-- An RTP context. -/
structure Rtp where
  p        : RtpParams
  ring     : Nat
  txSeq    : BitVec 16
  /-- The audio clock and the 8 kHz event clock at the next frame (R89). -/
  txTs     : BitVec 32
  evTs     : BitVec 32
  sentAny  : Bool
  remote   : Option (BitVec 32)
  /-- A new SSRC that may be followed: SSRC, last sequence number, packets (R88). -/
  cand     : Option (BitVec 32 × BitVec 16 × Nat)
  highSeq  : Option Nat
  /-- A restart candidate not yet judged, and whether it lay behind (R96). -/
  restart  : Option (BitVec 16 × Bool)
  /-- Extended sequence numbers near the highest that are held, played or counted late (R97). -/
  recent   : List Nat
  /-- The numbers among them that telephone events had. -/
  evSeqs   : List Nat
  jb       : List JbPacket
  /-- The talkspurt anchor: timestamp, and the frame that plays it (R92). -/
  anchor   : Option (BitVec 32 × Nat)
  /-- The packet with the highest number ended in comfort noise, and the frame played last was comfort noise. -/
  noiseEnd : Bool
  noisePlayed : Bool
  /-- The packet played last: extended sequence number, frames, and the frame after it. -/
  played   : Option (Nat × Nat × Nat)
  /-- Relative delays of the last 256 audio packets in ticks, newest first (R94), and how many were measured. -/
  delays   : List Int
  measured : Nat
  /-- The buffer delay in ms and the tick of its last move (R95). -/
  delay    : Nat
  lastMove : Nat
  repairs  : List Repair
  lastRx   : Ns
  timedOut : Bool
  /-- Drift (R103): next estimate, sum and number of the buffer delays since the last one, in ns, the mean delay of the 10 s
  before it, smoothed drift and correction in 0.01 ppm, and estimates beyond the limit in a row. -/
  driftAt  : Ns
  delaySum : Nat
  delayNum : Nat
  prevMean : Option Int
  raw      : Int
  eps      : Int
  excess   : Nat
  txKey    : Option SrtpKey
  txNext   : Option SrtpKey
  rxKey    : Option SrtpKey
  rxNext   : Option SrtpKey
  rtcp     : Rtcp
  deriving DecidableEq, Repr

/-! ### Teleprotection (R112 to R137, R552) -/

/-- The teleprotection parameter block of R114. -/
structure TpParams where
  tp : Nat
  src : Nat
  srcPort : Nat
  srcSlot : Nat
  srcLaw : Nat
  sink : Nat
  sinkPort : Nat
  sinkSlot : Nat
  sinkLaw : Nat
  guardHz : Nat
  cmdHz : List Nat
  guardLvl : Int
  cmdLvl : Int
  dwell : Nat
  prearm : Bool
  wDet : Nat
  parallel : Bool
  auth : Bool
  guardAlarm : Nat
  outMin : Nat
  fail : List Nat
  hbTimeout : Nat
  ttLimit : Nat
  inBall : List Nat
  outBall : List Nat
  transport : Nat
  prpPair : Nat
  ethPort : Nat
  vlanEn : Bool
  vlanId : Nat
  pcp : Nat
  etherType : Nat
  txLink : Nat
  rxLink : Nat
  localPort : Nat
  remotePort : Nat
  dscp : Nat
  hopLimit : Nat
  destMac : Bytes
  localAddr : Bytes
  remoteAddr : Bytes
  deriving DecidableEq, Repr

/-- The states of the send side (R120). -/
inductive TpState where
  | quiet | dwell | command | alarm
  deriving DecidableEq, Repr

/-- A frame held tethered by pre-arm (R123): what it says, and its cells. -/
structure TpHeld where
  cmd    : BitVec 4
  seq    : BitVec 32
  txTime : BitVec 64
  cells  : Nat
  deriving DecidableEq, Repr

/-- A series of test frames (R132). -/
structure TpTest where
  cmd   : BitVec 4
  durNs : Nat
  left  : Nat
  on    : Bool
  endsAt : Ns
  deriving DecidableEq, Repr

/-- What a received frame says beside its commands (R126): sequence number, tx_time, guard_fail and changes. -/
structure TpInfo where
  seq       : BitVec 32
  txTime    : BitVec 64
  guardFail : Bool
  changes   : BitVec 8
  deriving DecidableEq, Repr

/-- A teleprotection channel. -/
structure Tp where
  p        : TpParams
  next     : Option TpParams
  ring     : Nat
  txKey    : Option Bytes
  rxKey    : Option Bytes
  st       : TpState
  /-- Command set sent, and the set and start of a dwell run. -/
  cmd      : BitVec 4
  dwellSet : BitVec 4
  dwellAt  : Ns
  /-- Since when the guard is absent without a candidate, the guard is present, and the active set's tones are absent. -/
  absentSince : Option Ns
  presentSince : Option Ns
  toneGone : Option Ns
  hostCmd  : Option (BitVec 4)
  held     : Option TpHeld
  /-- The sequence number of the next frame. -/
  seq      : BitVec 32
  changes  : BitVec 8
  /-- The decision that confirmed the last dwell, and the command set of the frame sent last. -/
  confirmedAt : Option Ns
  sentCmd  : BitVec 4
  test     : Option TpTest
  /-- Receive side. -/
  rxSeq    : Option (BitVec 32)
  sinkCmd  : BitVec 4
  riseAt   : FMap Ns
  /-- Commands whose release waits for out_min, and the frame that released them last (R131). -/
  pendFall : BitVec 4
  fallInfo : Option TpInfo
  lastRx   : Ns
  linkFail : Bool
  closed   : Bool
  failNs   : Nat
  failSince : Ns
  ttLast   : FMap Int
  ttMax    : FMap Int
  /-- The source's samples on their way to 32 kHz, the unsettled ones still to leave out, and those at the TTU input, newest
  first (R117, R118). -/
  ttu      : Fdc
  ttuSkip  : Nat
  ttuIn    : List Int
  /-- Where the tones of a TDM sink stand in their turn (R131). -/
  sinkPhase : List Nat
  deriving DecidableEq, Repr

/-! ### Radio (R138 to R213) -/

/-- A gain table of an antenna (R168): gains in 0.25 dB and SPI words. -/
structure GainTable where
  start   : Nat
  entries : List (Int × BitVec 32)
  deriving DecidableEq, Repr

/-- A gain write on its way (R170, R171): entry, change in 0.25 dB, and, once it has completed, the instant from which the
link samples that reach the deframer's release are at the new gain. -/
structure GainWrite where
  entry   : Nat
  delta   : Int
  reaches : Option Ns
  deriving DecidableEq, Repr

/-- One antenna of a link: gain loop (R169 to R175). -/
structure Antenna where
  table    : Option GainTable
  entry    : Nat
  frozen   : Bool
  frozenNs : Nat
  frozenAt : Ns
  lowRun   : Nat
  lastClip : Bool
  /-- A gain write whose new gain has not reached the FDC. -/
  writing  : Option GainWrite
  /-- The entry that RL_GAIN_SET named, written at the next decision instant. -/
  manual   : Option Nat
  deriving DecidableEq, Repr

/-- A transaction of RL_SPI that waits for the slot after a gain decision (R150): its command, the bits and the value it
sends, the bits it takes in all, and the octets that the transceiver answers. -/
structure SpiWait where
  ring   : Nat
  held   : Held
  bitsN  : Nat
  value  : Nat
  allN   : Nat
  answer : Bytes
  deriving DecidableEq, Repr

/-- A radio link (R138 to R151). `state` as RL_STATUS: 0 DISABLED, 1 SYNC, 2 LOCK, 3 DATA. -/
structure Link where
  state    : Nat
  periodic : Bool
  /-- The device time of the last SYSREF edge, which dates the boundary T_L (R142). -/
  sysrefAt : Option Ns
  /-- Fs as measured between two periodic edges: the nanoseconds between them and the samples in them (R144). -/
  rate     : Option (Nat × Nat)
  ants     : List Antenna
  /-- What the SPI master has sent, oldest first: bits and value of each transaction. -/
  spiOut   : List (Nat × Nat)
  /-- RL_SPI transactions that wait for a slot, oldest first. -/
  spiWait  : List SpiWait
  /-- The physical receive and transmit pairs that are powered (R140). -/
  rxPairs  : List Nat
  txPairs  : List Nat
  /-- The instant up to which the samples of its transmit chain have been summed (R207). -/
  txAt     : Ns
  deriving DecidableEq, Repr

/-- The receive channel parameter block of R152, defaults applied. -/
structure RxcParams where
  rx : Nat
  link : Nat
  antenna : Nat
  bw : Nat
  preset : Nat
  modeE : Bool
  centreHz : Int
  sfMask : Nat
  pkThr : Nat
  pq : Nat
  swErrs : Nat
  sync : BitVec 32
  eThr : Nat
  eq_ : Nat
  capture : Nat
  margin : Nat
  errored : Bool
  ring : Nat
  deriving DecidableEq, Repr

/-- A complex sample, its real and its imaginary part, each a Q1.17 value (R15, R16). -/
abbrev Cx : Type := Int × Int

/-- A sample of a channel's output after the gain stage (R158, R172): its value, whether it is unsettled, and whether it
saturated there. -/
structure OutSample where
  iq        : Cx
  unsettled : Bool
  sat       : Bool
  deriving DecidableEq, Repr

/-- A block of 256 output samples (R161): the time-stamp of the first one in 2^-16 ns, the count of unsettled ones, the samples. -/
structure RadioBlock where
  stamp     : Int
  unsettled : Nat
  samples   : List OutSample
  deriving DecidableEq, Repr

/-- A half-band stage: whether the next input gives an output, and its inputs, newest first (R155, R156). -/
structure HalfBand where
  due  : Bool
  hist : List Cx
  deriving DecidableEq, Repr

/-- The chain of a receive channel in the FDC (R155 to R160): the NCO's phase and step, the half-band stages, the ratio of the
resampler, its inputs so far and the position n + r / den of its last output, its inputs, newest first, the preset's filter
with whether the next of its inputs gives an output, and the link samples that the chain has taken. -/
structure Chain where
  phase   : BitVec 32
  step    : BitVec 32
  halves  : List HalfBand
  ratio   : Nat × Nat
  got     : Nat
  n       : Nat
  r       : Nat
  rsHist  : List Cx
  preset  : Nat
  preDue  : Bool
  preHist : List Cx
  fed     : Nat
  deriving DecidableEq, Repr

/-- The chip-rate equaliser of a reception (R193): its feed-forward and feedback taps, the samples and the chips of the last
decided symbol, the residual phase, and the line of the preamble's peak that its centre tap came from. -/
structure Equaliser where
  ff    : List Cx
  fb    : List Cx
  prev  : List Cx
  chips : List Cx
  turn  : BitVec 32
  peak  : Cx
  deriving DecidableEq, Repr

/-- One symbol on the air (R179): an up-chirp with a shift, or the down-chirp. -/
inductive Chirp where
  | up (shift : Nat) | down
  deriving DecidableEq, Repr

/-- How far a reception has come (R164, R194); `over` waits for the ordering point to record its end. -/
inductive RxPhase where
  | delimiter (seen misses : Nat) | sync (nibbles : List Nat) | header | payload | over
  deriving DecidableEq, Repr

/-- The reasons for which a reception is abandoned (R195). -/
inductive Abandon where
  | preambleLost | syncMismatch | link | modify | release | headerCrc | headerBad | falsePreamble | switch
  deriving DecidableEq, Repr

/-- A reception in progress (R164, R191, R199). Places count the channel's output samples from its set-up. -/
structure Reception where
  id       : Nat
  sf       : Nat
  phase    : RxPhase
  /-- The place where its next window begins. -/
  next     : Nat
  /-- Windows since detection, and the place after the last one that was a hit of the preamble. -/
  windows  : Nat
  preEnd   : Nat
  /-- The detection instant, the time-stamp of the last sample of the last qualifying window, in 2^-16 ns. -/
  detectAt : Int
  /-- The preamble's windows: the sum of their powers and how many, the SNR, and what gains were in front of them. -/
  preSum   : Nat
  preN     : Nat
  preGain  : Int
  snr      : Int
  /-- The frozen offset in 1/64 half bins, with the timing that it gives in 1/64 samples (R176). -/
  kd       : Int
  freqHz   : Int
  eq_      : Equaliser
  /-- Symbols decided, with the places where they began, oldest first. -/
  sent     : List (Nat × Chirp)
  /-- For each header and payload symbol the soft decisions of v[0] to v[SF − 1] (R192). -/
  soft     : List (List Int)
  syncWord : BitVec 32
  len      : Nat
  cr       : Nat
  sec      : Bool
  ptt      : Bool
  stream   : Nat
  header   : Bytes
  overlap  : Bool
  weak     : Bool
  onPool   : Bool
  /-- The place from which the stronger reception is subtracted (R199). -/
  subFrom  : Nat
  gainStep : Bool
  sat      : Bool
  /-- The first sample after the delimiter: its time-stamp in 2^-16 ns and its place. -/
  rxTime   : Int
  dataAt   : Nat
  old      : RxcParams
  deriving DecidableEq, Repr

/-- A window that was a hit: peak bin, peak ratio λ as a fraction, power as the sum of the squares of its samples, place of its
first sample. -/
structure HitWin where
  bin   : Nat
  ratio : Nat × Nat
  power : Nat
  start : Nat
  deriving DecidableEq, Repr

/-- The search at one SF: the place where its next window begins, the consecutive hits, newest first and at most eight, and
whether the preamble they show has already qualified (R162). -/
structure HitRun where
  sf   : Nat
  next : Nat
  wins : List HitWin
  done : Bool
  deriving DecidableEq, Repr

/-- A qualified preamble: SF, place of its first qualifying window and the place after its last one, the sum of λ over its
windows, the sum of their powers and how many samples they hold, its peak bin. -/
structure Qualified where
  sf    : Nat
  start : Nat
  stop  : Nat
  ratio : Nat × Nat
  power : Nat
  len   : Nat
  bin   : Nat
  deriving DecidableEq, Repr

/-- A receive channel. -/
structure Rxc where
  p        : RxcParams
  ringCmd  : Nat
  /-- Channel gain in 0.25 dB (R172); frozen while a reception is in progress. -/
  gain     : Int
  /-- Gain changes of the antenna still to be compensated: antenna time in 2^-16 ns and change in 0.25 dB (R171). -/
  comp     : List (Int × Int)
  /-- The FDC's chain, the output samples still to be unsettled (R158), and the block being formed with its time-stamp. -/
  chain    : Chain
  unsettled : Nat
  forming  : List OutSample
  formStamp : Int
  /-- The newest blocks, newest first, and how many have left the chain. -/
  blocks   : List RadioBlock
  blockN   : Nat
  /-- The squares of the newest settled samples since the last gain update, newest first and at most 64 (R172). -/
  recent   : List Nat
  runs     : List HitRun
  recs     : List Reception
  nextId   : Nat
  /-- The place where the next energy window begins, and the span that energy has triggered: the places where its trigger windows
  began, oldest first, and whether a preamble has qualified in it (R166). -/
  eNext    : Nat
  trig     : Option (List Nat × Bool)
  /-- Window powers referred to the antenna for the noise floor, newest first, in 0.01 dB. -/
  powers   : List Int
  deriving DecidableEq, Repr

/-- What radio commands present at the ordering point, to be taken in an arbitration round (R162, R175, R194, R197, R200). -/
inductive RadioEvt where
  | header (rx inst : Nat) (d : Bytes)
  | lost (rx inst : Nat) (why : Abandon)
  | frameEnd (rx inst : Nat) (d : Bytes) (quality corr : Nat) (late : Bool) (t : Ns)
  | qualified (rx : Nat) (q : Qualified)
  | window (link antenna : Nat) (peak : Nat) (clipped unsettled : Bool)
  deriving DecidableEq, Repr

/-- A radio capture in progress (R343): operation, REC ring, ratio, samples still to come, next segment number, segments missing
before it, whether it is the first, whether the segment in progress ends it, and that segment: the time-stamp of its first
sample in 2^-16 ns and its samples. -/
structure Capture where
  opId   : Nat
  ring   : Nat
  ratio  : Nat
  left   : Nat
  done   : Nat
  segNo  : Nat
  gap    : Nat
  first  : Bool
  ending : Bool
  stamp  : Int
  buf    : List OutSample
  deriving DecidableEq, Repr

/-- A radio transmit request or push-to-talk frame waiting on a channel (R205, R210). -/
structure TxReq where
  ring    : Option (Nat × BitVec 32)
  sf      : Nat
  cr      : Nat
  sec     : Bool
  ptt     : Bool
  group   : Nat
  /-- Launch time in device time, for a timed request. -/
  launch  : Option Nat
  preamble : Nat
  stream  : Nat
  /-- The endpoint or group address whose key secures it (R203, R209). -/
  addr    : BitVec 64
  /-- The payload: plaintext until the build op has released, then as it goes on the air (R203, R207). -/
  payload : Bytes
  /-- Whether the build op has released its symbol item, and the cells that the item holds (R207). -/
  built   : Bool
  cells   : Nat
  deriving DecidableEq, Repr

/-- A transmission in progress (R207): its request, the instants at which its first sample goes to the link and its last one has
gone, its symbols from preamble to payload, and what it was started under: how much later than on its way to the link a sample is
at the antenna, carrier offset and level (R206, R208). -/
structure OnAir where
  req      : TxReq
  start    : Ns
  stop     : Ns
  syms     : List Chirp
  lead     : Nat
  centreHz : Int
  level    : Nat
  deriving DecidableEq, Repr

/-- A transmit channel with its block of R204. -/
structure Txc where
  tx : Nat
  link : Nat
  bw : Nat
  centreHz : Int
  sync : BitVec 32
  preamble : Nat
  level : Nat
  latency : Nat
  ptxRing : Nat
  ringCmd : Nat
  waiting : List TxReq
  active  : Option OnAir
  /-- The release that ends the transmission at its next symbol boundary (R208). -/
  releasing : Bool
  deriving DecidableEq, Repr

/-- A talk group (R209, R211). -/
structure Group where
  group : Nat
  tx : Nat
  sec : Bool
  rxs : List Nat
  hangMs : Nat
  addr : BitVec 64
  ring : Nat
  /-- The talker: its endpoint address on a secured group, else its receive channel; and its last frame (R211). -/
  talker : Option (Nat × Ns)
  /-- The channel frame that the next received frame of the talkspurt plays from, and what plays from which frame. -/
  turn   : Option Nat
  frames : List (Nat × Bytes)
  deriving DecidableEq, Repr

/-! ### Voice processing elements (R214 to R247) -/

/-- Four lanes of a vector or accumulator. -/
structure V4 (α : Type) where
  l0 : α
  l1 : α
  l2 : α
  l3 : α
  deriving DecidableEq, Repr

/-- An active hardware loop (R236, R237): first and end bundle, iterations begun, the count c, and whether it is
pipelined. The iterations that remain stand in the loop's counter. -/
structure Loop where
  first : Nat
  last  : Nat
  begun : Nat
  c     : Nat
  pipelined : Bool
  deriving DecidableEq, Repr

/-- How an op on a VPE stands: running, ended by STOP, or ended by a fault. -/
inductive VpeRun where
  | idle | running | stopped | faulted (k : FaultKind) (code : Nat)
  deriving DecidableEq, Repr

/-- A VPE (R214, R215): register files, data memory (lines not listed hold 0), and the op in progress. -/
structure Vpe where
  v     : Vector (V4 (BitVec 18)) 32
  ac    : Vector (V4 (BitVec 48)) 8
  s     : Vector (BitVec 36) 16
  p     : Vector (BitVec 15) 8
  b     : Vector (BitVec 15) 8
  n     : Vector (BitVec 16) 8
  amode : BitVec 8
  /-- K1 to K3; K0 is hard-wired. -/
  k     : Vector (BitVec 4) 3
  /-- K4 to K7. -/
  stage : Vector Bool 4
  rot   : BitVec 4
  vst   : BitVec 16
  /-- The 17-bit counts of iterations that remain; LC0 and LC1 read their low 16 bits (R236). -/
  lc0   : BitVec 17
  lc1   : BitVec 17
  loop0 : Option Loop
  loop1 : Option Loop
  pc    : Nat
  wLo   : Nat
  wHi   : Nat
  /-- Kernel in progress: first bundle, number of bundles, and the bounds of R243. -/
  kBase : Nat
  kLen  : Nat
  maxBundles : Nat
  maxOut : Nat
  kernelId : Nat
  issued : Nat
  run   : VpeRun
  /-- CMV requests not yet completed (R224). -/
  moves : Nat
  mem   : FMap (BitVec 72)
  /-- The op the VPE holds: flow, instance, node. -/
  op    : Option (Nat × Nat × Nat)
  /-- A check of the program memory has failed under this op, so that its ILLEGAL describes the VPE (R289). -/
  progBad : Bool
  deriving DecidableEq, Repr

/-- A kernel present in the program memory of every VPE (R243, R245), with its relocated base. -/
structure Kernel where
  id       : Nat
  user     : Bool
  base     : Nat
  bundles  : Nat
  constBase : Nat
  stateLines : Nat
  scratch  : Nat
  maxBundles : Nat
  maxIn    : Nat
  maxOut   : Nat
  entry    : Nat
  classes  : BitVec 4
  cost     : Nat
  deriving DecidableEq, Repr

/-- What the VPEs that run one Media Image hold: kernels, program memory by bundle address and constant lines
(R245). Bundles and lines not listed hold 0. -/
structure Code where
  kernels : List Kernel
  prog    : FMap (BitVec 128)
  consts  : FMap (BitVec 72)
  deriving DecidableEq, Repr

/-! ### Flow scheduler and tether (R248 to R292) -/

/-- A node of a flow graph (R249). -/
structure Node where
  kernel : Nat
  param  : Nat
  inQ    : Nat
  outQ   : Nat
  dataDeps  : BitVec 12
  orderDeps : BitVec 12
  statePrev : Bool
  fwdNode : Nat
  predKind : Nat
  predSense : Bool
  spec     : Bool
  predNode : Nat
  predTicks : Nat
  deriving DecidableEq, Repr

/-- States of an op (R253, R258, R260). -/
inductive OpSt where
  | pending | ready | dispatched | completed | void | skipped | released
  deriving DecidableEq, Repr

/-- Where a ready op holds its list entry (R255). -/
inductive OpLoc where
  | none | vpe (n : Nat) | cluster (c : Nat) | global
  deriving DecidableEq, Repr

/-- A tether root: the op whose premise is open (R278). -/
structure Root where
  inst : Nat
  node : Nat
  deriving DecidableEq, Repr

/-- One op of an issued instance (R251 to R275). `pred` is the op's own predicate once resolved, `predOut` bit 0 of S15
at its STOP, `item` its in_q item once taken; `wait` holds a result whose output item waits for cells (R20) and `limited`
that CNT_Q_LIMIT has counted it; `stale` marks a running op whose tethered result is to be discarded (R291). -/
structure Op where
  node   : Nat
  st     : OpSt
  status : Nat
  ran    : Bool
  /-- Roots this op carries; a root carries itself. -/
  roots  : List Root
  isRoot : Bool
  pred   : Option Bool
  predOut : Bool
  vpe    : Nat
  loc    : OpLoc
  readyAt : Ns
  aged   : Bool
  out    : Option Bytes
  /-- A fault held under roots (R289): its kind and bundle address. -/
  heldFault : Option (FaultKind × Nat)
  item   : Option Bytes
  wait   : Option OpRes
  limited : Bool
  stale  : Bool
  deriving DecidableEq, Repr

/-- An issued instance. -/
structure Inst where
  num    : Nat
  due    : Nat
  deadline : Option Nat
  ops    : List Op
  missed : Bool
  fresh  : Bool
  deriving DecidableEq, Repr

/-- A version of a node's state area (R280). -/
structure Version where
  roots : List Root
  lines : List (BitVec 72)
  deriving DecidableEq, Repr

/-- A flow with its graph (R249). -/
structure Flow where
  cls    : Nat
  lateRelease : Bool
  nodes  : List Node
  miss   : Option Nat
  period : Nat
  deadline : Nat
  opRate : Nat
  window : Nat
  report : Bool
  host   : Bool
  ring   : Nat
  homeVpe : Nat
  insts  : List Inst
  nextNum : Nat
  /-- Instances due and not yet issued for want of room: number and due tick. -/
  stalled : List (Nat × Nat)
  releasing : Option (Nat × Held)
  committed : FMap (List (BitVec 72))
  versions : FMap (List Version)
  lastPred : FMap Bool
  fresh  : Bool
  /-- Items of a queue still owed to void or skipped ops (R263). -/
  owed   : FMap Nat
  cluster : Nat
  /-- Slack in ns as taken at the last tick, for a flow with a frame deadline (R23). -/
  slack  : Option Int
  deriving DecidableEq, Repr

/-- Events presented to the ordering point (R272). -/
inductive Presented where
  | confirm (flow : Nat) (r : Root)
  | refute (flow : Nat) (r : Root)
  | complete (vpe flow inst node : Nat) (res : OpRes)
  | cancel (ring : Nat) (h : Held) (flow inst : Nat) (mask : BitVec 12)
  | cancelFlow (flow : Nat)
  | arrival (queue : Nat)
  deriving DecidableEq, Repr

/-- The flow scheduler. -/
structure Fsc where
  flows   : FMap Flow
  /-- Delay-list entries: due tick, flow, instance (R264), in order of insertion. -/
  delay   : List (Nat × Nat × Nat)
  presented : List Presented
  /-- Bundles that each cluster has completed in the tick in progress (R23). -/
  pace    : FMap Nat
  slack   : FMap Int
  /-- The levels of R269 are at or above those that raise FSC_PRESSURE. -/
  pressed : Bool
  deriving DecidableEq, Repr

/-! ### Queue manager (R293 to R315) -/

/-- An item held by a queue; `ext` tells its pool, `tether` its tether bit (R293, R295). -/
structure Item where
  data   : Bytes
  ext    : Bool
  tether : Bool
  deriving DecidableEq, Repr

/-- One mark of a queue (R313) and the level at the first crossing and the extreme level of its last notice (R314);
the outstanding notice itself stands among the notices of the host interface. -/
structure Mark where
  value  : Nat
  enable : Bool
  armed  : Bool
  first  : Nat
  extreme : Nat
  deriving DecidableEq, Repr

/-- An item staged for its op's release (R299). -/
structure Staged where
  flow  : Nat
  inst  : Nat
  node  : Nat
  queue : Nat
  item  : Item
  deriving DecidableEq, Repr

/-- A queue. -/
structure Queue where
  cls       : Nat
  placement : Nat
  maxCells  : Nat
  hyst      : Nat
  high      : Mark
  low       : Mark
  items     : List Item
  /-- The taken item and how many of its words have been read. -/
  taken     : Option (Item × Nat)
  /-- The item in progress at the tail: cells reserved and pool. -/
  inProg    : Option (Nat × Bool)
  discarding : Bool
  ring      : Nat
  releasing : Option (Nat × Held)
  deriving DecidableEq, Repr

/-- The cell pool and the sweep (R295, R308 to R312). -/
structure Qmg where
  queues   : FMap Queue
  /-- On-chip cells held by each class in untethered items, in-progress items, reservations and taken items; orphans
  count here until they are reclaimed (R308, R312). -/
  occ      : FMap Nat
  tethered : Nat
  extUsed  : Nat
  extSize  : Nat
  /-- Orphaned on-chip cells by class, 9 for those of a discarded free list, and orphaned extension cells; those that
  arose during the sweep in progress wait for the next one. -/
  orphans  : FMap Nat
  orphansExt : Nat
  late     : FMap Nat
  lateExt  : Nat
  freeRebuild : Bool
  freeLate : Bool
  sweep    : Bool
  sweepQueued : Bool
  sweepDue : Bool
  sweepOp  : Option Nat
  /-- Output items staged for ops not yet released (R299): flow, instance, node, queue, class, item. -/
  staged   : List Staged
  deriving DecidableEq, Repr

/-! ### Block compression and recording (R316 to R344) -/

/-- A Mode L block that a decoder has begun (R319, R324): original length, body octets not yet read, check value,
whether it is raw, its output so far, the last distance, and what is left of the token in hand: literals, or a
match. -/
structure LBlock where
  orig  : Nat
  left  : Nat
  check : BitVec 32
  raw   : Bool
  out   : Bytes
  last  : Option Nat
  lits  : Nat
  copy  : Nat
  deriving DecidableEq, Repr

/-- The job block of R330 with what the job has to work on, and the block that a resumed decoder continues. -/
structure BceJob where
  opId   : Nat
  op     : Nat
  effort : Nat
  ratio  : Nat
  fmt    : Bool
  blockSize : Nat
  nSamples : Nat
  outLen : Nat
  input  : Bytes
  cont   : Option LBlock
  abort  : Bool
  deriving DecidableEq, Repr

/-- A resume state (R333). -/
structure Resume where
  handle : Nat
  op     : Nat
  effort : Nat
  ratio  : Nat
  fmt    : Bool
  blockSize : Nat
  cont   : Option LBlock
  issued : Ns
  deriving DecidableEq, Repr

/-- A segment in the backlog (R338): its REC ring, 512 for the ring of the recorder's settings, its source, its octets,
and the flushes that wait for it. -/
structure BacklogSeg where
  ring   : Nat
  source : Nat
  data   : Bytes
  need   : List Nat
  deriving DecidableEq, Repr

/-- A REC_FLUSH that waits (R341): its number, CMD ring, and segments dropped meanwhile. -/
structure RecFlush where
  id      : Nat
  ring    : Nat
  held    : Held
  dropped : Nat
  deriving DecidableEq, Repr

/-- The engine, the recorder and its backlog (R335 to R343). -/
structure Bce where
  jobs    : List BceJob
  resumes : List Resume
  nextHandle : Nat
  /-- Segments waiting, oldest first (R338). -/
  backlog : List BacklogSeg
  sizeMib : Nat
  flushes : List RecFlush
  nextFlush : Nat
  /-- Radio captures by receive channel (R343). -/
  captures : FMap Capture
  deriving DecidableEq, Repr

/-! ### TDM (R345 to R360) -/

/-- Where the framer of a port stands in the frames it receives (R352, R353, R356). -/
structure RxFramer where
  /-- E1: whether the next frame is one with FAS; unknown until the first frame after alignment. -/
  fas    : Option Bool
  /-- Which of the last framing words or framing bits were in error, newest first. -/
  errs   : List Bool
  /-- The bits in which a multiframe is sought, newest first, and the frames since a first CRC-4 alignment signal. -/
  seen   : List Bool
  first  : Option Nat
  /-- Place of the next frame in the CRC-4 multiframe of E1 or the multiframe of T1, and in the CAS multiframe of E1. -/
  place  : Option Nat
  cas    : Option Nat
  /-- Check bits of the block in progress if it has been seen from its start, of the block before it, and as received. -/
  acc    : Option Nat
  want   : Option Nat
  got    : Nat
  /-- CRC-4 blocks, and errored ones, of the present thousand. -/
  blocks : Nat
  bad    : Nat
  /-- ABCD values received in the signalling multiframe in progress, and when it began. -/
  abcd   : FMap Nat
  start  : Ns
  deriving DecidableEq, Repr

/-- Where the framer of a port stands in the frames it sends. -/
structure TxFramer where
  /-- Place of the next frame in the multiframe. -/
  place : Nat
  /-- Check bits of the block in progress, and those being sent, of the block before it. -/
  acc   : Nat
  check : Nat
  /-- Place in the remote alarm of the ESF data link. -/
  fdl   : Nat
  /-- Errored submultiframes I and II that E bits have yet to report. -/
  err1  : Bool
  err2  : Bool
  deriving DecidableEq, Repr

/-- The live state of a TDM port. -/
structure TdmPort where
  los : Bool
  ais : Bool
  lof : Bool
  lomf : Bool
  rai : Bool
  crc4Off : Bool
  saRx : Nat
  rx  : RxFramer
  tx  : TxFramer
  /-- Delays of the two slip buffers in ns, and the device time at which the last received frame began (R350). -/
  rxDelay : Int
  txDelay : Int
  rxStart : Option Int
  slipAt : Option Ns
  txAbcd : FMap Nat
  txAbcdNext : FMap Nat
  rxAbcd : FMap Nat
  candAbcd : FMap Nat
  rxSlots : Bytes
  /-- Frames in the receive crossing FIFO that the fabric has not taken yet, oldest first (R32, R33). -/
  rxFifo : List Bytes
  /-- Transmit octets present in the crossing FIFO, by timeslot. -/
  txFifo : FMap (List Byte)
  /-- Timeslots of the last frame that came from the fabric, before framing. -/
  txPay  : List (Option Byte)
  /-- The last frame sent: its timeslots, where `none` is high impedance (R347), and its frame bit in T1. -/
  txOut  : List (Option Byte)
  txBit  : Option Bool
  /-- The alarm last declared, since when an alarm holds, and the last second that held a CRC error (R355, R360). -/
  lastAlarm : Nat
  alarmSince : Option Ns
  crcSecond : Option Nat
  deriving DecidableEq, Repr

/-! ### Ethernet (R361 to R386) -/

/-- A gate control list (R369). -/
structure GateList where
  cycle   : Nat
  base    : Nat
  entries : List (BitVec 8 × Nat)
  deriving DecidableEq, Repr

/-- A frame in a transmit FIFO (R367), from destination address to payload, padded and with any PRP trailer;
`ptx` names the PTX ring and descriptor index that wait for it. -/
structure TxFrame where
  data : Bytes
  ptx  : Option (Nat × BitVec 32)
  ts   : Bool
  deriving DecidableEq, Repr

/-- A source entry of a PRP pair (R376). -/
structure PrpEntry where
  high : BitVec 16
  seen : List (BitVec 16)
  /-- Accepted frames whose copy has not arrived: sequence number, port, instant. -/
  lone : List (BitVec 16 × Nat × Ns)
  last : Ns
  deriving DecidableEq, Repr

/-- A wake pattern (R383): the octets compared, their mask and how many of them count. -/
structure WakePattern where
  value : Bytes
  mask  : Bytes
  len   : Nat
  deriving DecidableEq, Repr

/-- A frame in transmission: class, time of one octet in ps, first bit on the wire, end of its inter-frame gap in ns. -/
structure OnWire where
  frame : TxFrame
  tc    : Nat
  octet : Nat
  start : Ns
  stop  : Ns
  deriving DecidableEq, Repr

/-- The live state of an Ethernet port. -/
structure EthPort where
  linkUp  : Bool
  lpiTx   : Bool
  gates   : Option GateList
  /-- A cycle start of the active list on the local timeline (R371). -/
  gateBase : Ns
  /-- The pending list (`none`: removal) and its switch instant on the local timeline (R372). -/
  pending : Option (Option GateList × Ns)
  fifos   : FMap (List TxFrame)
  onWire  : Option OnWire
  lastTx  : Ns
  /-- Wake time taken at the last entry into low-power idle, the instant of that entry, and the end of a wake that
  has begun (R373, R374). -/
  lpiTw   : Nat
  lpiAt   : Ns
  wakeAt  : Option Ns
  wake    : FMap WakePattern
  /-- Frames that have left the port, most recent first: time of the first bit, class, octets before the FCS. -/
  sent    : List (Ns × Nat × Bytes)
  deriving DecidableEq, Repr

/-- The live state of a PRP pair. -/
structure PrpPair where
  seq   : BitVec 16
  table : FMap PrpEntry
  svAt  : Ns
  deriving DecidableEq, Repr

/-! ### Memories, directory and Endpaper (R455 to R489) -/

/-- A directory entry (R467). -/
structure EpdEntry where
  addr : BitVec 64
  damaged : Bool
  hasKey : Bool
  group : Bool
  hostTag : BitVec 32
  key : Bytes
  ulFcnt : BitVec 32
  dlFcnt : BitVec 32
  rxOk : BitVec 32
  rxSecFail : BitVec 32
  hostA : Bytes
  lastTime : BitVec 64
  lastRx : Nat
  lastSf : Nat
  lastQuality : Nat
  lastSnr : Nat
  lastLevel : Nat
  lastFreq : BitVec 32
  heard : BitVec 32
  regGroup : Nat
  regTime : BitVec 64
  hostB : Bytes
  deriving DecidableEq, Repr

/-- Where the index holds the reference of a slot: a bucket, or the stash (R466, R469). -/
structure EpdRef where
  slot   : Nat
  bucket : Option Nat
  deriving DecidableEq, Repr

/-- The endpoint directory. -/
structure Epd where
  entries : FMap EpdEntry
  refs    : List EpdRef
  kIdx    : Bytes
  rebuild : Option (Option Nat × Bytes)
  /-- Loads (operation and block) and exports (operation and count) accepted and not ended, oldest first. -/
  load    : List (Nat × Bytes)
  export_ : List (Nat × Nat)
  /-- Buckets of the index that an uncorrectable error has damaged (R474). -/
  badBuckets : List Nat
  deriving DecidableEq, Repr

/-- DRAM controller and scrub (R455 to R464). -/
structure Dmc where
  capacity : Nat
  chOk     : BitVec 4
  trainedCache : Bool
  pprCapable : Bool
  /-- Rows remapped, by channel, and rows recorded for repair. -/
  remaps   : FMap (List Nat)
  /-- Corrected errors seen per (channel, row) in different passes. -/
  ceRows   : List (Nat × Nat × Nat)
  mapRefused : Bool
  scrubbing : List (Nat × Option Nat)
  dqs      : FMap Int
  cached   : FMap Int
  lastUe   : Option Ns
  deriving DecidableEq, Repr

/-- The lifetime counters of R482, in its order. -/
structure Lifetime where
  powerOnS : Nat
  por : Nat
  pin : Nat
  soft : Nat
  factory : Nat
  authFail : Nat
  imageActivate : Nat
  endpaperWrite : Nat
  dramUe : Nat
  ppr : Nat
  clusterRetire : Nat
  deriving DecidableEq, Repr

/-- The committed configuration of R479: one epoch. -/
structure Config479 where
  regs   : FMap (BitVec 32)
  gates  : FMap GateList
  wake   : FMap (FMap WakePattern)
  gains  : FMap GainTable
  deriving DecidableEq, Repr

/-- Endpaper (R477 to R483). -/
structure Endp where
  epoch   : Nat
  committed : Config479
  life    : Lifetime
  lifeStored : Lifetime
  /-- Device time up to which LT_POWER_ON_S has been counted. -/
  lifeAt  : Ns
  degraded : Bool
  wear    : Bool
  deriving DecidableEq, Repr

/-- The TP_IO balls (R121, R529). -/
structure TpIo where
  /-- Debounced active bits and the run of samples at the other level, by ball. -/
  active : BitVec 32
  runs   : FMap Nat
  /-- Levels driven on sink balls and which balls are driven. -/
  driven : BitVec 32
  level  : BitVec 32
  deriving DecidableEq, Repr

/-! ### Checkpoints of a twin (R512) -/

/-- A checkpoint: the objects it holds, each as of its last release, and the directory entries that changed since the
last one, `none` where one was removed. -/
structure Checkpoint where
  chans  : FMap Chan
  rtps   : FMap Rtp
  tps    : FMap Tp
  rxcs   : FMap Rxc
  txcs   : FMap Txc
  groups : FMap Group
  fsc    : Fsc
  qmg    : Qmg
  notices : List Notice
  entries : List (Nat × Option EpdEntry)
  deriving DecidableEq, Repr

end Sys2Proof.Machine
end

