-- ==== Sys2Proof/Syntax.lean ====
section
/-! DEFINITION. The commands of the block: one constructor of `Instr` for each row of spec/opcode_table.json. -/

namespace Sys2Proof

/-! ### The commands of the block, in the order of spec/opcode_table.json -/

/-- The commands of the TL9640, one constructor for each row of spec/opcode_table.json. The first group are
commands the Control Image takes from a CMD ring; the others are register accesses, bus and protocol operations,
slot operations of a VPE, and the device's own steps. An operand `t` is the instant of the step on the local
timeline. -/
inductive Instr where
  /-- CHAN_SETUP (R49). -/
  | chanSetup (h : CmdHdr)
  /-- CHAN_MODIFY (R50). -/
  | chanModify (h : CmdHdr)
  /-- CHAN_RELEASE (R51). -/
  | chanRelease (h : CmdHdr) (channel : Nat)
  /-- RTP_SETUP (R83). -/
  | rtpSetup (h : CmdHdr)
  /-- RTP_MODIFY (R84). -/
  | rtpModify (h : CmdHdr)
  /-- RTP_RELEASE (R83). -/
  | rtpRelease (h : CmdHdr) (context : Nat)
  /-- SRTP_KEY (R106). -/
  | srtpKey (h : CmdHdr)
  /-- TP_SETUP (R115). -/
  | tpSetup (h : CmdHdr)
  /-- TP_MODIFY (R116). -/
  | tpModify (h : CmdHdr)
  /-- TP_RELEASE (R116). -/
  | tpRelease (h : CmdHdr) (tp : Nat)
  /-- TP_KEY (R122). -/
  | tpKey (h : CmdHdr) (tp : Nat) (rx : Bool) (key : Bytes)
  /-- TP_COMMAND (R121). -/
  | tpCommand (h : CmdHdr) (tp : Nat) (cmd : BitVec 4)
  /-- TP_TEST (R132). -/
  | tpTest (h : CmdHdr) (tp : Nat) (cmd : BitVec 4) (durationMs : Nat) (count : Nat)
  /-- RXC_SETUP (R153). -/
  | rxcSetup (h : CmdHdr)
  /-- RXC_MODIFY (R154). -/
  | rxcModify (h : CmdHdr)
  /-- RXC_RELEASE (R154). -/
  | rxcRelease (h : CmdHdr) (rx : Nat)
  /-- RL_SPI (R150). -/
  | rlSpi (h : CmdHdr) (link : Nat) (wlen : Nat) (rlen : Nat) (wbytes : Bytes) (answer : Bytes)
  /-- RL_GAIN_TABLE (R168). -/
  | rlGainTable (h : CmdHdr)
  /-- RL_GAIN_SET (R170). -/
  | rlGainSet (h : CmdHdr) (link : Nat) (antenna : Nat) (entry : Nat)
  /-- RL_REALIGN (R143). -/
  | rlRealign (h : CmdHdr) (link : Nat)
  /-- RL_CAPTURE (R343). -/
  | rlCapture (h : CmdHdr) (rx : Nat) (ring : Nat) (ratio : Nat) (samples : Nat)
  /-- TXC_SETUP (R204). -/
  | txcSetup (h : CmdHdr)
  /-- TXC_MODIFY (R204). -/
  | txcModify (h : CmdHdr)
  /-- TXC_RELEASE (R208). -/
  | txcRelease (h : CmdHdr) (tx : Nat)
  /-- PTT_GROUP_SETUP (R209). -/
  | pttGroupSetup (h : CmdHdr)
  /-- PTT_GROUP_RELEASE (R209). -/
  | pttGroupRelease (h : CmdHdr) (group : Nat)
  /-- FLOW_SETUP (R250). -/
  | flowSetup (h : CmdHdr)
  /-- FLOW_RELEASE (R271). -/
  | flowRelease (h : CmdHdr) (flow : Nat)
  /-- OP_SUBMIT (R264). -/
  | opSubmit (h : CmdHdr) (flow : Nat) (startTick : BitVec 32)
  /-- OP_CANCEL (R270). -/
  | opCancel (h : CmdHdr) (flow : Nat) (mask : BitVec 12) (inst : BitVec 32)
  /-- QUEUE_SETUP (R298). -/
  | queueSetup (h : CmdHdr)
  /-- QUEUE_MODIFY (R298). -/
  | queueModify (h : CmdHdr)
  /-- QUEUE_RELEASE (R298). -/
  | queueRelease (h : CmdHdr) (queue : Nat)
  /-- QUEUE_FLUSH (R305). -/
  | queueFlush (h : CmdHdr) (queue : Nat)
  /-- QUEUE_QUERY (R314). -/
  | queueQuery (h : CmdHdr) (queue : Nat)
  /-- QMG_SWEEP (R312). -/
  | qmgSweep (h : CmdHdr)
  /-- BCE_JOB (R331). -/
  | bceJob (h : CmdHdr) (input : Bytes)
  /-- BCE_ABORT (R334). -/
  | bceAbort (h : CmdHdr) (opId : Nat)
  /-- REC_FLUSH (R341). -/
  | recFlush (h : CmdHdr)
  /-- TDM_CAS_SET (R356). -/
  | tdmCasSet (h : CmdHdr) (port : Nat) (slot : Nat) (abcd : BitVec 4)
  /-- GATE_LIST_SET (R372). -/
  | gateListSet (h : CmdHdr)
  /-- WAKE_PATTERN_SET (R383). -/
  | wakePatternSet (h : CmdHdr)
  /-- TBU_TIME_SET (R381). -/
  | tbuTimeSet (h : CmdHdr) (time : Nat)
  /-- NOTICE_ACK (R410). -/
  | noticeAck (h : CmdHdr) (code : Nat) (mark : Bool) (object : Nat)
  /-- SESSION_OPEN (R430). -/
  | sessionOpen (h : CmdHdr) (privilege : Nat)
  /-- SESSION_PROVE (R432). -/
  | sessionProve (h : CmdHdr)
  /-- SESSION_CLOSE (R434). -/
  | sessionClose (h : CmdHdr)
  /-- ID_KEYS (R453). -/
  | idKeys (h : CmdHdr)
  /-- ATTEST (R451). -/
  | attest (h : CmdHdr) (challenge : Bytes)
  /-- OWNER_ENROL (R436). -/
  | ownerEnrol (h : CmdHdr)
  /-- KEY_SET (R438). -/
  | keySet (h : CmdHdr)
  /-- SETUP_UNLOCK (R437). -/
  | setupUnlock (h : CmdHdr)
  /-- SETUP_LOCK (R437). -/
  | setupLock (h : CmdHdr)
  /-- USER_KERNELS_LOAD (R448). -/
  | userKernelsLoad (h : CmdHdr)
  /-- USER_KERNELS_CLEAR (R448). -/
  | userKernelsClear (h : CmdHdr)
  /-- EPD_PUT (R472). -/
  | epdPut (h : CmdHdr)
  /-- EPD_DELETE (R472). -/
  | epdDelete (h : CmdHdr) (addr : BitVec 64)
  /-- EPD_GET (R472). -/
  | epdGet (h : CmdHdr) (addr : BitVec 64)
  /-- EPD_LOAD (R473). -/
  | epdLoad (h : CmdHdr) (count : Nat)
  /-- EPD_EXPORT (R473). -/
  | epdExport (h : CmdHdr) (count : Nat)
  /-- EPD_REBUILD (R474). -/
  | epdRebuild (h : CmdHdr)
  /-- EPD_CLEAR (R474). -/
  | epdClear (h : CmdHdr)
  /-- MEM_SCRUB (R463). -/
  | memScrub (h : CmdHdr) (region : Nat)
  /-- COMMIT (R480). -/
  | commit (h : CmdHdr)
  /-- REVERT (R480). -/
  | revert (h : CmdHdr)
  /-- STANDBY_ENTER (R484). -/
  | standbyEnter (h : CmdHdr)
  /-- SHUTDOWN (R484). -/
  | shutdown (h : CmdHdr)
  /-- IMG_WRITE (R500). -/
  | imgWrite (h : CmdHdr) (kind : Nat)
  /-- IMG_ACTIVATE_MIM (R506). -/
  | imgActivateMim (h : CmdHdr)
  /-- IMG_ACTIVATE_CIM (R508). -/
  | imgActivateCim (h : CmdHdr)
  /-- IMG_ACCEPT_UNTESTED (R497). -/
  | imgAcceptUntested (h : CmdHdr) (cim : BitVec 32) (mim : BitVec 32)
  /-- IMG_STATUS (R498). -/
  | imgStatus (h : CmdHdr)
  /-- BEHAVIOUR_LOCK_SET (R515). -/
  | behaviourLockSet (h : CmdHdr)
  /-- BEHAVIOUR_LOCK_CLEAR (R515). -/
  | behaviourLockClear (h : CmdHdr)
  /-- RESET_SOFT (R498). -/
  | resetSoft (h : CmdHdr)
  /-- RESET_DOMAIN (R486). -/
  | resetDomain (h : CmdHdr) (domain : Nat) (object : Nat)
  /-- RESET_IMAGE (R509). -/
  | resetImage (h : CmdHdr)
  /-- CLUSTER_MIGRATE (R501). -/
  | clusterMigrate (h : CmdHdr) (cluster : Nat)
  /-- SELF_TEST (R503). -/
  | selfTest (h : CmdHdr)
  /-- TWIN_PAIR (R510). -/
  | twinPair (h : CmdHdr)
  /-- TWIN_UNPAIR (R510). -/
  | twinUnpair (h : CmdHdr)
  /-- TWIN_TAKEOVER (R513). -/
  | twinTakeover (h : CmdHdr)
  /-- TWIN_COPY_CONFIG (R510). -/
  | twinCopyConfig (h : CmdHdr) (config : Machine.Config479)
  /-- MBX_ID_KEYS (R530). -/
  | mbxIdKeys (writable : Bool)
  /-- MBX_OWNER_ENROL (R530). -/
  | mbxOwnerEnrol (block : Option Bytes)
  /-- RING_CREATE (R394). -/
  | ringCreate (ring : Nat) (ctx : Option Bytes)
  /-- RING_RESET (R394). -/
  | ringReset (ring : Nat) (ctx : Option Bytes)
  /-- RING_DESTROY (R395). -/
  | ringDestroy (ring : Nat)
  /-- HIF_KICK (R398). -/
  | hifKick (value : BitVec 32)
  /-- RECOVERY_LOAD (R492). -/
  | recoveryLoad (image : Bytes)
  /-- RL_ENABLE (R528). -/
  | rlEnable (link : Nat)
  /-- RL_DISABLE (R147). -/
  | rlDisable (link : Nat)
  /-- ETH_PORT_DISABLE (R385). -/
  | ethPortDisable (port : Nat) (value : BitVec 32)
  /-- REGISTER_WRITE (R521). -/
  | registerWrite (offset : Nat) (wide : Bool) (value : BitVec 64)
  /-- BAR_BAD_ACCESS (R390). -/
  | barBadAccess (write : Bool) (offset : Nat)
  /-- POWER_ON_RESET (R538). -/
  | powerOnReset (asserted : Bool) (factoryLow : Bool) (straps : BitVec 4)
  /-- PIN_RESET (R539). -/
  | pinReset (lowNs : Ns) (straps : BitVec 4)
  /-- START_UP (R490). -/
  | startUp (env : BootEnv)
  /-- STARTUP_READY (R490). -/
  | startupReady (t : Ns)
  /-- HIF_DOMAIN_RESET (R389). -/
  | hifDomainReset
  /-- THERMAL_SAMPLE (R543). -/
  | thermalSample (tempDeciC : Int)
  /-- WAKE_MATCH (R383). -/
  | wakeMatch (port : Nat) (frame : EthFrame)
  /-- TICK (R264). -/
  | tick
  /-- INSTANCE_ISSUE (R251). -/
  | instanceIssue (flow : Nat)
  /-- DEADLINE_EXPIRY (R265). -/
  | deadlineExpiry (flow : Nat) (inst : Nat)
  /-- PRED_TICKS_EXPIRY (R253). -/
  | predTicksExpiry (flow : Nat) (inst : Nat) (node : Nat)
  /-- ARBITRATION_ROUND (R272). -/
  | arbitrationRound
  /-- OP_DISPATCH (R258). -/
  | opDispatch (vpe : Nat) (flow : Nat) (inst : Nat) (node : Nat)
  /-- OP_COMPLETE (R258). -/
  | opComplete (vpe : Nat) (res : OpRes)
  /-- PATIENCE_EXPIRY (R256). -/
  | patienceExpiry (flow : Nat) (inst : Nat) (node : Nat) (t : Ns)
  /-- OP_AGED (R257). -/
  | opAged (flow : Nat) (inst : Nat) (node : Nat) (t : Ns)
  /-- BUNDLE_ISSUE (R220). -/
  | bundleIssue (vpe : Nat)
  /-- NOP (R239). -/
  | nop (vpe : Nat) (p : BitVec 4)
  /-- MUL (R229). -/
  | mul (vpe : Nat) (p : BitVec 4) (f : MF)
  /-- MAC (R229). -/
  | mac (vpe : Nat) (p : BitVec 4) (f : MF)
  /-- MSU (R229). -/
  | msu (vpe : Nat) (p : BitVec 4) (f : MF)
  /-- CMAC (R234). -/
  | cmac (vpe : Nat) (p : BitVec 4) (f : CF)
  /-- CMACJ (R234). -/
  | cmacj (vpe : Nat) (p : BitVec 4) (f : CF)
  /-- ACCLR (R239). -/
  | acclr (vpe : Nat) (p : BitVec 4) (acd : BitVec 3)
  /-- ACADD (R239). -/
  | acadd (vpe : Nat) (p : BitVec 4) (acd : BitVec 3) (acs : BitVec 3) (sat : Bool)
  /-- ACSUB (R239). -/
  | acsub (vpe : Nat) (p : BitVec 4) (acd : BitVec 3) (acs : BitVec 3) (sat : Bool)
  /-- ACSH (R229). -/
  | acsh (vpe : Nat) (p : BitVec 4) (acd : BitVec 3) (acs : BitVec 3) (cnt : BitVec 7) (sat : Bool)
  /-- ACINS (R239). -/
  | acins (vpe : Nat) (p : BitVec 4) (acd : BitVec 3) (va : BitVec 5) (q : BitVec 2)
  /-- SPL (R239). -/
  | spl (vpe : Nat) (p : BitVec 4) (vd : BitVec 5) (acs : BitVec 3) (q : BitVec 2)
  /-- NRW (R230). -/
  | nrw (vpe : Nat) (p : BitVec 4) (acs : BitVec 3) (vd : BitVec 5) (sh : BitVec 6) (sat : Bool)
  /-- EXPA (R233). -/
  | expa (vpe : Nat) (p : BitVec 4) (acs : BitVec 3) (vd : BitVec 5)
  /-- NORMA (R233). -/
  | norma (vpe : Nat) (p : BitVec 4) (acs : BitVec 3) (acd : BitVec 3)
  /-- VADD (R231). -/
  | vadd (vpe : Nat) (p : BitVec 4) (f : VF)
  /-- VSUB (R231). -/
  | vsub (vpe : Nat) (p : BitVec 4) (f : VF)
  /-- VMAX (R239). -/
  | vmax (vpe : Nat) (p : BitVec 4) (f : VF)
  /-- VMIN (R239). -/
  | vmin (vpe : Nat) (p : BitVec 4) (f : VF)
  /-- VABS (R231). -/
  | vabs (vpe : Nat) (p : BitVec 4) (f : VF)
  /-- VNEG (R231). -/
  | vneg (vpe : Nat) (p : BitVec 4) (f : VF)
  /-- VSHL (R231). -/
  | vshl (vpe : Nat) (p : BitVec 4) (f : VF)
  /-- VSHR (R230). -/
  | vshr (vpe : Nat) (p : BitVec 4) (f : VF)
  /-- VAND (R239). -/
  | vand (vpe : Nat) (p : BitVec 4) (f : VF)
  /-- VOR (R239). -/
  | vor (vpe : Nat) (p : BitVec 4) (f : VF)
  /-- VXOR (R239). -/
  | vxor (vpe : Nat) (p : BitVec 4) (f : VF)
  /-- EXP (R233). -/
  | exp (vpe : Nat) (p : BitVec 4) (f : VF)
  /-- NORM (R233). -/
  | norm (vpe : Nat) (p : BitVec 4) (f : VF)
  /-- BEXP (R233). -/
  | bexp (vpe : Nat) (p : BitVec 4) (f : VF)
  /-- VSHLV (R233). -/
  | vshlv (vpe : Nat) (p : BitVec 4) (f : VF)
  /-- VCMPGT (R239). -/
  | vcmpgt (vpe : Nat) (p : BitVec 4) (f : VF)
  /-- VCMPEQ (R239). -/
  | vcmpeq (vpe : Nat) (p : BitVec 4) (f : VF)
  /-- VSEL (R239). -/
  | vsel (vpe : Nat) (p : BitVec 4) (f : VF)
  /-- VMOV (R239). -/
  | vmov (vpe : Nat) (p : BitVec 4) (f : VF)
  /-- LD (R223). -/
  | ld (vpe : Nat) (p : BitVec 4) (f : LF)
  /-- ST (R223). -/
  | st (vpe : Nat) (p : BitVec 4) (f : LF)
  /-- LD2 (R223). -/
  | ld2 (vpe : Nat) (p : BitVec 4) (f : LF)
  /-- LDST (R223). -/
  | ldst (vpe : Nat) (p : BitVec 4) (f : LF)
  /-- LDS (R239). -/
  | lds (vpe : Nat) (p : BitVec 4) (f : LF)
  /-- STS (R239). -/
  | sts (vpe : Nat) (p : BitVec 4) (f : LF)
  /-- MOVI (R239). -/
  | movi (vpe : Nat) (p : BitVec 4) (d : BitVec 6) (imm : BitVec 16)
  /-- ALU_ADD (R235). -/
  | aluAdd (vpe : Nat) (p : BitVec 4) (f : XF)
  /-- ALU_SUB (R235). -/
  | aluSub (vpe : Nat) (p : BitVec 4) (f : XF)
  /-- ALU_AND (R239). -/
  | aluAnd (vpe : Nat) (p : BitVec 4) (f : XF)
  /-- ALU_OR (R239). -/
  | aluOr (vpe : Nat) (p : BitVec 4) (f : XF)
  /-- ALU_XOR (R239). -/
  | aluXor (vpe : Nat) (p : BitVec 4) (f : XF)
  /-- ALU_SHL (R235). -/
  | aluShl (vpe : Nat) (p : BitVec 4) (f : XF)
  /-- ALU_SHR (R235). -/
  | aluShr (vpe : Nat) (p : BitVec 4) (f : XF)
  /-- ALU_SHRU (R235). -/
  | aluShru (vpe : Nat) (p : BitVec 4) (f : XF)
  /-- ALU_MUL (R235). -/
  | aluMul (vpe : Nat) (p : BitVec 4) (f : XF)
  /-- ALU_MIN (R239). -/
  | aluMin (vpe : Nat) (p : BitVec 4) (f : XF)
  /-- ALU_MAX (R239). -/
  | aluMax (vpe : Nat) (p : BitVec 4) (f : XF)
  /-- ALU_MOV (R239). -/
  | aluMov (vpe : Nat) (p : BitVec 4) (d : BitVec 6) (a : BitVec 6)
  /-- ADDI (R239). -/
  | addi (vpe : Nat) (p : BitVec 4) (d : BitVec 6) (a : BitVec 6) (imm : BitVec 10)
  /-- BR (R238). -/
  | br (vpe : Nat) (p : BitVec 4) (target : BitVec 12)
  /-- LOOP (R236). -/
  | loop (vpe : Nat) (p : BitVec 4) (f : LoopF)
  /-- VBC (R239). -/
  | vbc (vpe : Nat) (p : BitVec 4) (vd : BitVec 5) (a : BitVec 4)
  /-- VEXT (R239). -/
  | vext (vpe : Nat) (p : BitVec 4) (d : BitVec 4) (va : BitVec 5) (lane : BitVec 2)
  /-- VALN (R239). -/
  | valn (vpe : Nat) (p : BitVec 4) (vd : BitVec 5) (va : BitVec 5) (vb : BitVec 5) (j : BitVec 4)
  /-- CMV (R224). -/
  | cmv (vpe : Nat) (p : BitVec 4) (a : BitVec 4)
  /-- WAITM (R239). -/
  | waitm (vpe : Nat) (p : BitVec 4)
  /-- STOP (R239). -/
  | stop (vpe : Nat) (p : BitVec 4)
  /-- FAIL (R239). -/
  | fail (vpe : Nat) (p : BitVec 4) (code : BitVec 16)
  /-- PSET (R239). -/
  | pset (vpe : Nat) (p : BitVec 4) (d : BitVec 6) (imm : BitVec 16)
  /-- ITEM_END_MARK (R301). -/
  | itemEndMark (queue : Nat) (data : Bytes)
  /-- CELL_RESERVE (R301). -/
  | cellReserve (queue : Nat) (cells : Nat) (streaming : Bool)
  /-- TAKE (R302). -/
  | take (queue : Nat)
  /-- READ (R302). -/
  | read (queue : Nat) (words : Nat)
  /-- FINISH (R302). -/
  | finish (queue : Nat)
  /-- DROP_REST (R302). -/
  | dropRest (queue : Nat)
  /-- QUEUE_INTEGRITY (R311). -/
  | queueIntegrity (queue : Nat) (place : IntegWhere) (cell : Nat)
  /-- SWEEP_START (R312). -/
  | sweepStart
  /-- SWEEP_DONE (R312). -/
  | sweepDone
  /-- TDM_RX_FRAME (R348). -/
  | tdmRxFrame (port : Nat) (frame : TdmFrame)
  /-- TDM_TX_FRAME (R348). -/
  | tdmTxFrame (port : Nat) (delay : Int)
  /-- TDM_ALARM (R354). -/
  | tdmAlarm (port : Nat) (alarm : TdmAlarm) (declared : Bool) (t : Ns)
  /-- CRC4_AUTO_TIMEOUT (R352). -/
  | crc4AutoTimeout (port : Nat)
  /-- ETH_RX_FRAME (R364). -/
  | ethRxFrame (port : Nat) (frame : EthFrame)
  /-- ETH_TX_START (R368). -/
  | ethTxStart (port : Nat) (t : Ns)
  /-- ETH_LINK_CHANGE (R362). -/
  | ethLinkChange (port : Nat) (up : Bool)
  /-- GATE_LIST_SWITCH (R372). -/
  | gateListSwitch (port : Nat) (t : Ns)
  /-- LPI_ENTER (R374). -/
  | lpiEnter (port : Nat) (t : Ns)
  /-- LPI_WAKE (R374). -/
  | lpiWake (port : Nat) (t : Ns)
  /-- PRP_SV_SEND (R377). -/
  | prpSvSend (pair : Nat) (t : Ns)
  /-- PRP_ENTRY_TIMEOUT (R376). -/
  | prpEntryTimeout (pair : Nat) (mac : Nat) (t : Ns)
  /-- PTP_MESSAGE_RX (R379). -/
  | ptpMessageRx (port : Nat) (msg : PtpMsg) (t : Ns)
  /-- PTP_INTERVAL (R379). -/
  | ptpInterval (port : Nat) (kind : Nat) (t : Ns)
  /-- PPS_EDGE (R381). -/
  | ppsEdge (t : Ns) (offset : Int)
  /-- TBU_REF_UPDATE (R382). -/
  | tbuRefUpdate (code : Nat) (available : Bool)
  /-- SYSREF_EDGE (R145). -/
  | sysrefEdge (link : Nat) (t : Ns) (offsetPs : Int) (periodic : Bool)
  /-- RL_LINK_STATE (R146). -/
  | rlLinkState (link : Nat) (state : Nat) (reason : Nat) (value : Int)
  /-- GAIN_WINDOW_DECISION (R170). -/
  | gainWindowDecision (link : Nat) (antenna : Nat) (t : Ns) (iq : List (BitVec 16 × BitVec 16)) (first : Nat) (unsettled : Bool)
  /-- GAIN_WRITE_DONE (R171). -/
  | gainWriteDone (link : Nat) (antenna : Nat) (t : Ns)
  /-- CHANNEL_GAIN_UPDATE (R172). -/
  | channelGainUpdate (rx : Nat) (t : Ns)
  /-- DETECT_WINDOW (R162). -/
  | detectWindow (rx : Nat) (sfs : List Nat) (t : Ns)
  /-- ENERGY_WINDOW (R166). -/
  | energyWindow (rx : Nat) (place : Nat) (len : Nat) (t : Ns)
  /-- ENERGY_SPAN_EXPIRY (R166). -/
  | energySpanExpiry (rx : Nat) (t : Ns)
  /-- HEADER_RESULT (R194). -/
  | headerResult (rx : Nat) (inst : Nat) (scale : Nat) (t : Ns)
  /-- RX_FRAME_END (R195). -/
  | rxFrameEnd (rx : Nat) (inst : Nat) (scale : Nat) (sf : Nat) (quality : Nat) (len : Nat) (lag : Nat) (t : Ns)
  /-- RADIO_TX_REQUEST (R205). -/
  | radioTxRequest (ring : Nat) (index : BitVec 32) (item : Bytes) (t : Ns)
  /-- TX_LAUNCH (R207). -/
  | txLaunch (tx : Nat) (t : Ns) (ready : Bool) (standing : Nat)
  /-- TX_COMPLETE (R207). -/
  | txComplete (tx : Nat) (t : Ns) (underrun : Bool)
  /-- PTT_HANG_EXPIRY (R211). -/
  | pttHangExpiry (group : Nat) (t : Ns)
  /-- TTU_DECISION (R118). -/
  | ttuDecision (tp : Nat) (k : Nat) (t : Ns)
  /-- GUARD_ALARM_EXPIRY (R120). -/
  | guardAlarmExpiry (tp : Nat) (t : Ns)
  /-- TPIO_SAMPLE (R121). -/
  | tpioSample (levels : BitVec 32) (t : Ns)
  /-- TP_HEARTBEAT (R127). -/
  | tpHeartbeat (tp : Nat) (t : Ns)
  /-- TP_RX_FRAME (R130). -/
  | tpRxFrame (tp : Nat) (payload : Bytes) (t : Ns)
  /-- TP_OUT_MIN_EXPIRY (R131). -/
  | tpOutMinExpiry (tp : Nat) (cmd : Nat) (t : Ns)
  /-- TP_LINK_TIMEOUT (R133). -/
  | tpLinkTimeout (tp : Nat) (t : Ns)
  /-- TP_TEST_PHASE (R132). -/
  | tpTestPhase (tp : Nat) (t : Ns)
  /-- RTP_RX_PACKET (R87). -/
  | rtpRxPacket (context : Nat) (src : Bytes) (srcPort : Nat) (udp : Bytes) (t : Ns)
  /-- RTCP_RX (R109). -/
  | rtcpRx (context : Nat) (src : Bytes) (srcPort : Nat) (udp : Bytes) (t : Ns)
  /-- RTCP_REPORT_TIMER (R108). -/
  | rtcpReportTimer (context : Nat) (t : Ns)
  /-- RX_TIMEOUT_EXPIRY (R99). -/
  | rxTimeoutExpiry (context : Nat) (t : Ns)
  /-- DRIFT_ESTIMATE (R103). -/
  | driftEstimate (context : Nat) (channel : Nat) (t : Ns)
  /-- DTMF_REGEN_TIMEOUT (R78). -/
  | dtmfRegenTimeout (channel : Nat) (t : Ns)
  /-- TONE_DISABLER_RELEASE (R65). -/
  | toneDisablerRelease (channel : Nat) (t : Ns)
  /-- AVS_STEP (R26). -/
  | avsStep (t : Ns) (tempDeciC : Int) (acked : Bool)
  /-- AVS_RETRY (R26). -/
  | avsRetry (t : Ns) (acked : Bool)
  /-- DOORBELL_POLL (R397). -/
  | doorbellPoll (slots : List DbSlot) (ok : Bool) (t : Ns)
  /-- PTX_ITEM (R413). -/
  | ptxItem (ring : Nat) (descs : List PtxDesc) (t : Ns)
  /-- PRX_ITEM_WRITE (R415). -/
  | prxItemWrite (ring : Nat) (ok : Bool) (t : Ns)
  /-- RX_HOLD_EXPIRY (R415). -/
  | rxHoldExpiry (ring : Nat) (t : Ns)
  /-- EVENT_WRITE (R407). -/
  | eventWrite (ring : Nat) (ok : Bool)
  /-- INDEX_SLOT_WRITE (R399). -/
  | indexSlotWrite (ring : Nat) (ok : Bool) (t : Ns)
  /-- DMA_RETRY (R399). -/
  | dmaRetry (ring : Nat) (ok : Bool)
  /-- MSIX_SEND (R418). -/
  | msixSend (vector : Nat) (t : Ns)
  /-- STATS_BLOCK (R419). -/
  | statsBlock (t : Ns) (ok : Bool)
  /-- PROGRESS_TIMER (R406). -/
  | progressTimer (opId : Nat) (position : Nat) (t : Ns)
  /-- BCE_JOB_DONE (R332). -/
  | bceJobDone (opId : Nat)
  /-- RESUME_HANDLE_EXPIRY (R333). -/
  | resumeHandleExpiry (handle : Nat) (t : Ns)
  /-- REC_SEGMENT_WRITE (R338). -/
  | recSegmentWrite (ok : Bool) (t : Ns)
  /-- SESSION_IDLE_TIMEOUT (R434). -/
  | sessionIdleTimeout (ring : Nat) (t : Ns)
  /-- NONCE_EXPIRY (R430). -/
  | nonceExpiry (ring : Nat) (t : Ns)
  /-- UNLOCK_EXPIRY (R437). -/
  | unlockExpiry (t : Ns)
  /-- BACKOFF_EXPIRY (R433). -/
  | backoffExpiry (privilege : Nat) (t : Ns)
  /-- SCRUB_PASS (R463). -/
  | scrubPass (region : Nat) (corrected : List (Nat × Nat))
  /-- DRAM_TIMING_CORRECT (R457). -/
  | dramTimingCorrect (channel : Nat) (correction : Int)
  /-- MEMORY_UE (R465). -/
  | memoryUe (place : UeWhere)
  /-- EPD_REBUILD_SWITCH (R474). -/
  | epdRebuildSwitch
  /-- LIFETIME_WRITE (R482). -/
  | lifetimeWrite (t : Ns)
  /-- ROTATION_TIMER (R502). -/
  | rotationTimer (t : Ns)
  /-- FLOW_MIGRATE (R501). -/
  | flowMigrate (flow : Nat)
  /-- SELF_TEST_DONE (R503). -/
  | selfTestDone (failure : Option Nat)
  /-- KNOWN_GOOD_TIMER (R496). -/
  | knownGoodTimer (t : Ns)
  /-- CIM_HANDOVER (R508). -/
  | cimHandover
  /-- WATCHDOG_RESTART (R509). -/
  | watchdogRestart
  /-- TWIN_LINK_STATE (R510). -/
  | twinLinkState (lanesOk : Bool) (heartbeat : Bool) (peer : TwinPeer) (synced : Bool) (t : Ns)
  /-- TWIN_CHECKPOINT (R512). -/
  | twinCheckpoint (t : Ns)
  /-- TWIN_CHECKPOINT_APPLY (R512). -/
  | twinCheckpointApply (boundary : Ns) (whole : Bool) (data : Machine.Checkpoint) (t : Ns)
  /-- TWIN_AUTO_TAKEOVER (R513). -/
  | twinAutoTakeover (t : Ns)
  /-- STEAL_AGE_EXPIRY (R257). -/
  | stealAgeExpiry (vpe : Nat) (t : Ns)
  /-- CONFIGURATION_REQUEST (R388). -/
  | configurationRequest (offset : Nat)
  /-- LO_READ_CAPTURE (R519). -/
  | loReadCapture (offset : Nat)
  /-- IMG_WRITE_DONE (R500). -/
  | imgWriteDone (readBackOk : Bool)
  /-- USER_KERNELS_LOAD_DONE (R448). -/
  | userKernelsLoadDone
  /-- EPD_LOAD_DONE (R473). -/
  | epdLoadDone
  /-- EPD_EXPORT_DONE (R473). -/
  | epdExportDone
  /-- CAPTURE_SEGMENT (R343). -/
  | captureSegment (rx : Nat) (segNo : Nat) (count : Nat) (t : Ns)
  /-- CLUSTER_MIM_LOADED (R506). -/
  | clusterMimLoaded (cluster : Nat) (ok : Bool)
  /-- STANDBY_READY (R508). -/
  | standbyReady
  deriving DecidableEq, Repr

end Sys2Proof
end

