-- ==== Sys2Proof/Decode.lean ====
section
/-! DEFINITION. Table words. No row of spec/opcode_table.json gives bits, so no word spells a command; the slot words
of VPE bundles are decoded in `Machine/VpeDecode.lean`. -/

namespace Sys2Proof

/-- The command that a word of the table's bits spells: none, since no row gives bits (log entry 9). -/
def decodeTableWord (_nbits _w : Nat) : Option Instr := none

end Sys2Proof
end

