-- ==== Sys2Proof/Machine/Bits.lean ====
section
/-! DEFINITION. Bit fields, byte orders and saturation, said once (R12: little-endian in structures shared with the
host, network order in frames). -/

namespace Sys2Proof

/-- The octet at an offset, 0 past the end. -/
def byteAt (b : Bytes) (i : Nat) : Nat := (b.getD i 0).toNat

/-- `n` octets from an offset, as they stand; short where the string ends. -/
def sub (b : Bytes) (off n : Nat) : Bytes := (b.drop off).take n

/-- The number that octets give, least significant first. -/
def leNat (b : Bytes) : Nat := b.foldr (fun x acc => x.toNat + 256 * acc) 0

/-- The number that octets give, most significant first. -/
def beNat (b : Bytes) : Nat := b.foldl (fun acc x => acc * 256 + x.toNat) 0

/-- Numbers in rising order, sorted by insertion. -/
def insertNum (x : Int) (l : List Int) : List Int :=
  match l with
  | [] => [x]
  | y :: r => if x ≤ y then x :: y :: r else y :: insertNum x r
def sortNums (l : List Int) : List Int := l.foldr insertNum []

/-- `n` octets of a number, least significant first. -/
def toLE (n v : Nat) : Bytes :=
  match n with
  | 0 => []
  | k + 1 => BitVec.ofNat 8 v :: toLE k (v / 256)

/-- `n` octets of a number, most significant first. -/
def toBE (n v : Nat) : Bytes := (toLE n v).reverse

/-- `n` zero octets. -/
def zeros (n : Nat) : Bytes := List.replicate n 0

/-- Cut or pad with zero octets to exactly `n`. -/
def padTo (n : Nat) (b : Bytes) : Bytes := (b ++ zeros (n - b.length)).take n

/-- Little-endian field of `n` octets at an offset. -/
def leAt (b : Bytes) (off n : Nat) : Nat := leNat (sub b off n)

/-- Big-endian field of `n` octets at an offset. -/
def beAt (b : Bytes) (off n : Nat) : Nat := beNat (sub b off n)

/-- Bits [hi:lo] of a number. -/
def bits (v hi lo : Nat) : Nat := (v / 2 ^ lo) % 2 ^ (hi + 1 - lo)

/-- Bit i of a number. -/
def bit (v i : Nat) : Bool := v.testBit i

/-- 1 or 0. -/
def b2n (b : Bool) : Nat := if b then 1 else 0

/-- The signed value of the low `w` bits of a number. -/
def sint (w v : Nat) : Int := (BitVec.ofNat w v).toInt

/-- The low `w` bits of a signed number, as a natural number. -/
def enc (w : Nat) (v : Int) : Nat := (BitVec.ofInt w v).toNat

/-- Whether all the octets of a range are zero. -/
def zeroIn (b : Bytes) (off n : Nat) : Bool := (sub b off n).all (· == 0)

/-- Limit a value to a range. -/
def clampI (lo hi v : Int) : Int := if v < lo then lo else if hi < v then hi else v

/-- Limit a value to a range. -/
def clampN (lo hi v : Nat) : Nat := if v < lo then lo else if hi < v then hi else v

/-- ⌈a / b⌉ for b > 0. -/
def cdiv (a b : Nat) : Nat := (a + b - 1) / b

/-- x − y modulo 2^32 as a number (R397). -/
def dist32 (x y : BitVec 32) : Nat := (x - y).toNat

/-- Bit `i` of `w` octets seen as one number with octet 0 lowest. -/
def bitOf (b : Bytes) (i : Nat) : Bool := (byteAt b (i / 8)).testBit (i % 8)

/-- Octet-wise exclusive or, as long as the first. -/
def xorB (a b : Bytes) : Bytes := (List.range a.length).map (fun i => a.getD i 0 ^^^ b.getD i 0)

/-- Rotate a 32-bit word right. -/
def ror32 (x : BitVec 32) (n : Nat) : BitVec 32 := x.rotateRight n

/-- Rotate a 64-bit word right. -/
def ror64 (x : BitVec 64) (n : Nat) : BitVec 64 := x.rotateRight n

/-- Insertion of a number into a rising list without repeats. -/
def insNat (k : Nat) (l : List Nat) : List Nat :=
  match l with
  | [] => [k]
  | j :: r => if k < j then k :: j :: r else if k = j then j :: r else j :: insNat k r

/-- The number of octets of the longest common beginning. -/
def commonLen (a b : Bytes) : Nat :=
  match a, b with
  | x :: xs, y :: ys => if x = y then commonLen xs ys + 1 else 0
  | _, _ => 0

end Sys2Proof
end

