-- ==== Sys2Proof/Machine/Crypto.lean ====
section
/-! DEFINITION. The published algorithms the spec names: CRCs, FIPS 180-4 hashes, RFC 2104 HMAC, FIPS 197 AES with
its counter, CCM and GCM modes. Only what the spec uses is here. -/

namespace Sys2Proof

/-! ### CRCs -/

/-- One bit step of a most-significant-first CRC register of `w` bits. -/
def crcStepMsb (w : Nat) (poly : BitVec w) (r : BitVec w) (b : Bool) : BitVec w :=
  let top := r.msb != b
  if top then (r <<< 1) ^^^ poly else r <<< 1

/-- A most-significant-first CRC over octets, no reflection, no final exclusive or. -/
def crcMsb (w : Nat) (poly init : BitVec w) (d : Bytes) : BitVec w :=
  d.foldl (fun r x => (List.range 8).foldl (fun q i => crcStepMsb w poly q (x.getLsbD (7 - i))) r) init

/-- CRC-16 with polynomial 0x1021 and initial value 0xFFFF (R184). -/
def crc16 (d : Bytes) : BitVec 16 := crcMsb 16 0x1021 0xFFFF d

/-- One bit step of a reflected 32-bit CRC register. -/
def crcStepLsb (poly r : BitVec 32) : BitVec 32 := if r.getLsbD 0 then (r >>> 1) ^^^ poly else r >>> 1

/-- A reflected 32-bit CRC with all-ones start and final complement. -/
def crcLsb (poly : BitVec 32) (d : Bytes) : BitVec 32 :=
  ~~~ (d.foldl (fun r x => (List.range 8).foldl (fun q _ => crcStepLsb poly q) (r ^^^ x.zeroExtend 32)) (~~~ 0))

/-- CRC-32 of IEEE 802.3. -/
def crc32 (d : Bytes) : BitVec 32 := crcLsb 0xEDB88320 d

/-- CRC-32C (Castagnoli). -/
def crc32c (d : Bytes) : BitVec 32 := crcLsb 0x82F63B78 d

/-! ### SHA-1, SHA-256, SHA-512 -/

/-- Groups of `n` octets. -/
def chunksOf (n : Nat) (d : Bytes) : List Bytes :=
  (List.range (cdiv d.length n)).map (fun i => sub d (i * n) n)

/-- Message padding for a block of `blk` octets with a length field of `lf` octets. -/
def shaPad (blk lf : Nat) (d : Bytes) : Bytes :=
  let used := d.length + 1 + lf
  d ++ [0x80] ++ zeros ((blk - used % blk) % blk) ++ toBE lf (8 * d.length)

/-- 32-bit words, most significant octet first. -/
def words32 (d : Bytes) : List (BitVec 32) := (chunksOf 4 d).map (fun c => BitVec.ofNat 32 (beNat c))

/-- 64-bit words, most significant octet first. -/
def words64 (d : Bytes) : List (BitVec 64) := (chunksOf 8 d).map (fun c => BitVec.ofNat 64 (beNat c))

/-- First `bits` bits of the fractional part of the k-th root (2 or 3) of a number, by integer search. -/
def fracRoot (k bitsN : Nat) (n : Nat) : Nat :=
  let target := n * 2 ^ (k * bitsN)
  let r := (List.range (bitsN + 6)).foldl
    (fun acc i => let t := acc + 2 ^ (bitsN + 5 - i); if t ^ k ≤ target then t else acc) 0
  r % 2 ^ bitsN

/-- Primes below 410, which number 80. -/
def primes80 : List Nat :=
  (List.range 410).filter (fun n => 2 ≤ n && (List.range n).all (fun d => d < 2 || n % d != 0))

/-- Constants of SHA-256: initial values and round constants (FIPS 180-4, sections 4.2.2 and 5.3.3). -/
def sha256H0 : List (BitVec 32) := (primes80.take 8).map (fun p => BitVec.ofNat 32 (fracRoot 2 32 p))
def sha256K : List (BitVec 32) := (primes80.take 64).map (fun p => BitVec.ofNat 32 (fracRoot 3 32 p))

/-- Constants of SHA-512. -/
def sha512H0 : List (BitVec 64) := (primes80.take 8).map (fun p => BitVec.ofNat 64 (fracRoot 2 64 p))
def sha512K : List (BitVec 64) := primes80.map (fun p => BitVec.ofNat 64 (fracRoot 3 64 p))

/-- Message schedule of SHA-256, newest word first. -/
def sha256Sched (n : Nat) (w : List (BitVec 32)) : List (BitVec 32) :=
  match n with
  | 0 => w
  | k + 1 =>
    let a := w.getD 1 0
    let b := w.getD 14 0
    let s1 := ror32 a 17 ^^^ ror32 a 19 ^^^ (a >>> 10)
    let s0 := ror32 b 7 ^^^ ror32 b 18 ^^^ (b >>> 3)
    sha256Sched k ((s1 + w.getD 6 0 + s0 + w.getD 15 0) :: w)

/-- One round of SHA-256 on the eight working variables. -/
def sha256Round (h : List (BitVec 32)) (kw : BitVec 32) : List (BitVec 32) :=
  match h with
  | [a, b, c, d, e, f, g, hh] =>
    let s1 := ror32 e 6 ^^^ ror32 e 11 ^^^ ror32 e 25
    let ch := (e &&& f) ^^^ (~~~ e &&& g)
    let t1 := hh + s1 + ch + kw
    let s0 := ror32 a 2 ^^^ ror32 a 13 ^^^ ror32 a 22
    let maj := (a &&& b) ^^^ (a &&& c) ^^^ (b &&& c)
    [t1 + (s0 + maj), a, b, c, d + t1, e, f, g]
  | o => o

/-- One block of SHA-256. -/
def sha256Block (h : List (BitVec 32)) (blk : Bytes) : List (BitVec 32) :=
  let w := (sha256Sched 48 (words32 blk).reverse).reverse
  let o := (List.zipWith (· + ·) sha256K w).foldl sha256Round h
  List.zipWith (· + ·) h o

/-- SHA-256 of FIPS 180-4. -/
def sha256 (d : Bytes) : Bytes :=
  ((chunksOf 64 (shaPad 64 8 d)).foldl sha256Block sha256H0).flatMap (fun w => toBE 4 w.toNat)

/-- Message schedule of SHA-512, newest word first. -/
def sha512Sched (n : Nat) (w : List (BitVec 64)) : List (BitVec 64) :=
  match n with
  | 0 => w
  | k + 1 =>
    let a := w.getD 1 0
    let b := w.getD 14 0
    let s1 := ror64 a 19 ^^^ ror64 a 61 ^^^ (a >>> 6)
    let s0 := ror64 b 1 ^^^ ror64 b 8 ^^^ (b >>> 7)
    sha512Sched k ((s1 + w.getD 6 0 + s0 + w.getD 15 0) :: w)

/-- One round of SHA-512. -/
def sha512Round (h : List (BitVec 64)) (kw : BitVec 64) : List (BitVec 64) :=
  match h with
  | [a, b, c, d, e, f, g, hh] =>
    let s1 := ror64 e 14 ^^^ ror64 e 18 ^^^ ror64 e 41
    let ch := (e &&& f) ^^^ (~~~ e &&& g)
    let t1 := hh + s1 + ch + kw
    let s0 := ror64 a 28 ^^^ ror64 a 34 ^^^ ror64 a 39
    let maj := (a &&& b) ^^^ (a &&& c) ^^^ (b &&& c)
    [t1 + (s0 + maj), a, b, c, d + t1, e, f, g]
  | o => o

/-- One block of SHA-512. -/
def sha512Block (h : List (BitVec 64)) (blk : Bytes) : List (BitVec 64) :=
  let w := (sha512Sched 64 (words64 blk).reverse).reverse
  let o := (List.zipWith (· + ·) sha512K w).foldl sha512Round h
  List.zipWith (· + ·) h o

/-- SHA-512 of FIPS 180-4. -/
def sha512 (d : Bytes) : Bytes :=
  ((chunksOf 128 (shaPad 128 16 d)).foldl sha512Block sha512H0).flatMap (fun w => toBE 8 w.toNat)

/-- Message schedule of SHA-1, newest word first. -/
def sha1Sched (n : Nat) (w : List (BitVec 32)) : List (BitVec 32) :=
  match n with
  | 0 => w
  | k + 1 =>
    sha1Sched k (((w.getD 2 0 ^^^ w.getD 7 0 ^^^ w.getD 13 0 ^^^ w.getD 15 0).rotateLeft 1) :: w)

/-- One round of SHA-1, with its number. -/
def sha1Round (h : List (BitVec 32)) (tw : Nat × BitVec 32) : List (BitVec 32) :=
  match h with
  | [a, b, c, d, e] =>
    let (f, k) : BitVec 32 × BitVec 32 :=
      if tw.1 < 20 then ((b &&& c) ^^^ (~~~ b &&& d), 0x5A827999)
      else if tw.1 < 40 then (b ^^^ c ^^^ d, 0x6ED9EBA1)
      else if tw.1 < 60 then ((b &&& c) ^^^ (b &&& d) ^^^ (c &&& d), 0x8F1BBCDC)
      else (b ^^^ c ^^^ d, 0xCA62C1D6)
    [a.rotateLeft 5 + f + e + k + tw.2, a, b.rotateLeft 30, c, d]
  | o => o

/-- SHA-1 of FIPS 180-4, which RFC 3711 authentication uses (R105). -/
def sha1 (d : Bytes) : Bytes :=
  let h0 : List (BitVec 32) := [0x67452301, 0xEFCDAB89, 0x98BADCFE, 0x10325476, 0xC3D2E1F0]
  let blk := fun (h : List (BitVec 32)) (b : Bytes) =>
    let w := (sha1Sched 64 (words32 b).reverse).reverse
    List.zipWith (· + ·) h ((List.zip (List.range 80) w).foldl sha1Round h)
  ((chunksOf 64 (shaPad 64 8 d)).foldl blk h0).flatMap (fun w => toBE 4 w.toNat)

/-- HMAC of RFC 2104 over a hash with 64-octet blocks. -/
def hmac (hash : Bytes → Bytes) (key msg : Bytes) : Bytes :=
  let k := padTo 64 (if 64 < key.length then hash key else key)
  hash (k.map (· ^^^ 0x5C) ++ hash (k.map (· ^^^ 0x36) ++ msg))

/-- HMAC-SHA-256 (R432). -/
def hmacSha256 (key msg : Bytes) : Bytes := hmac sha256 key msg

/-- HMAC-SHA1 (R105). -/
def hmacSha1 (key msg : Bytes) : Bytes := hmac sha1 key msg

/-! ### AES -/

/-- Multiplication by x in the field of FIPS 197. -/
def xtime (a : Byte) : Byte := if a.msb then (a <<< 1) ^^^ 0x1B else a <<< 1

/-- Multiplication in the field of FIPS 197. -/
def gfMul (a b : Byte) : Byte :=
  ((List.range 8).foldl
    (fun (st : Byte × Byte) i => (if b.getLsbD i then st.1 ^^^ st.2 else st.1, xtime st.2)) (0, a)).1

/-- The multiplicative inverse, 0 for 0, as the 254th power. -/
def gfInv (a : Byte) : Byte :=
  let a2 := gfMul a a; let a4 := gfMul a2 a2; let a8 := gfMul a4 a4; let a16 := gfMul a8 a8
  let a32 := gfMul a16 a16; let a64 := gfMul a32 a32; let a128 := gfMul a64 a64
  gfMul a2 (gfMul a4 (gfMul a8 (gfMul a16 (gfMul a32 (gfMul a64 a128)))))

/-- The substitution box of FIPS 197. -/
def sboxAt (a : Byte) : Byte :=
  let v := gfInv a
  v ^^^ v.rotateLeft 1 ^^^ v.rotateLeft 2 ^^^ v.rotateLeft 3 ^^^ v.rotateLeft 4 ^^^ 0x63

/-- The box as a table. -/
def sboxTable : List Byte := (List.range 256).map (fun i => sboxAt (BitVec.ofNat 8 i))

/-- Substitution of one octet. -/
def subByte (a : Byte) : Byte := sboxTable.getD a.toNat 0

/-- Key expansion: words newest first, from `nk` words of key to `n` more words. -/
def aesExpand (nk n i : Nat) (rcon : Byte) (w : List Bytes) : List Bytes :=
  match n with
  | 0 => w
  | k + 1 =>
    let t := w.getD 0 []
    let (t2, rc) : Bytes × Byte :=
      if i % nk = 0 then
        let r := (t.drop 1 ++ t.take 1).map subByte
        ((r.getD 0 0 ^^^ rcon) :: r.drop 1, xtime rcon)
      else if 6 < nk && i % nk == 4 then (t.map subByte, rcon) else (t, rcon)
    aesExpand nk k (i + 1) rc (xorB (w.getD (nk - 1) []) t2 :: w)

/-- ShiftRows on 16 octets in column order. -/
def shiftRows (s : Bytes) : Bytes :=
  (List.range 16).map (fun i => s.getD ((i + 4 * (i % 4)) % 16) 0)

/-- MixColumns of one column. -/
def mixCol (c : Bytes) : Bytes :=
  (List.range 4).map (fun i =>
    let a := fun j => c.getD ((i + j) % 4) 0
    xtime (a 0) ^^^ (xtime (a 1) ^^^ a 1) ^^^ a 2 ^^^ a 3)

/-- AES encryption of one block with a key of 16 or 32 octets (FIPS 197). -/
def aesEnc (key blk : Bytes) : Bytes :=
  let nk := key.length / 4
  let nr := nk + 6
  let w := (aesExpand nk (4 * (nr + 1) - nk) nk 1 (chunksOf 4 key).reverse).reverse
  let rk := fun r => (sub2 w (4 * r) 4).flatten
  let s0 := xorB (padTo 16 blk) (rk 0)
  let s := (List.range (nr - 1)).foldl
    (fun st r => xorB ((chunksOf 4 (shiftRows (st.map subByte))).flatMap mixCol) (rk (r + 1))) s0
  xorB (shiftRows (s.map subByte)) (rk nr)
where
  sub2 (l : List Bytes) (off n : Nat) : List Bytes := (l.drop off).take n

/-- Counter mode: block `i` is made by `ctr i`. -/
def aesCtr (key : Bytes) (ctr : Nat → Bytes) (d : Bytes) : Bytes :=
  (List.range (cdiv d.length 16)).flatMap (fun i => xorB (sub d (16 * i) 16) (aesEnc key (ctr i)))

/-- CBC-MAC over whole blocks. -/
def cbcMac (key : Bytes) (d : Bytes) : Bytes :=
  (chunksOf 16 d).foldl (fun x b => aesEnc key (xorB x (padTo 16 b))) (zeros 16)

/-- Zero padding to whole blocks of 16 octets. -/
def pad16 (d : Bytes) : Bytes := d ++ zeros ((16 - d.length % 16) % 16)

/-- The CCM message code of SP 800-38C with a 4-octet tag, a 13-octet nonce and a 2-octet length field (R201). -/
def ccmTag (key nonce aad plain : Bytes) : Bytes :=
  let b0 := (0x49 : Byte) :: nonce ++ toBE 2 plain.length
  let mac := cbcMac key (b0 ++ pad16 (toBE 2 aad.length ++ aad) ++ pad16 plain)
  (xorB mac (aesEnc key ((0x01 : Byte) :: nonce ++ toBE 2 0))).take 4

/-- CCM encryption or decryption of the payload. -/
def ccmCrypt (key nonce d : Bytes) : Bytes := aesCtr key (fun i => (0x01 : Byte) :: nonce ++ toBE 2 (i + 1)) d

/-- Multiplication in the field of GHASH (SP 800-38D), bit 0 leftmost. -/
def gmul (x y : BitVec 128) : BitVec 128 :=
  ((List.range 128).foldl
    (fun (st : BitVec 128 × BitVec 128) i =>
      (if x.getLsbD (127 - i) then st.1 ^^^ st.2 else st.1,
       if st.2.getLsbD 0 then (st.2 >>> 1) ^^^ (0xE1 <<< 120) else st.2 >>> 1)) (0, y)).1

/-- GHASH over whole blocks. -/
def ghash (h : BitVec 128) (d : Bytes) : BitVec 128 :=
  (chunksOf 16 d).foldl (fun x b => gmul (x ^^^ BitVec.ofNat 128 (beNat b)) h) 0

/-- The GCM tag over a ciphertext, for a 12-octet IV. -/
def gcmTag (key iv aad cipher : Bytes) : Bytes :=
  let h := BitVec.ofNat 128 (beNat (aesEnc key (zeros 16)))
  let g := ghash h (pad16 aad ++ pad16 cipher ++ toBE 8 (8 * aad.length) ++ toBE 8 (8 * cipher.length))
  xorB (toBE 16 g.toNat) (aesEnc key (iv ++ toBE 4 1))

/-- GCM decryption (the same as encryption) of the payload. -/
def gcmCrypt (key iv d : Bytes) : Bytes := aesCtr key (fun i => iv ++ toBE 4 (i + 2)) d

/-! ### The SRTP transform of R105 (RFC 3711) -/

/-- Key derivation at rate 0: the session value of a label, `n` octets (RFC 3711 section 4.3). -/
def srtpDerive (key salt : Bytes) (label : Nat) (n : Nat) : Bytes :=
  let x := xorB (padTo 14 salt) (zeros 7 ++ [BitVec.ofNat 8 label] ++ zeros 6)
  aesCtr key (fun i => x ++ toBE 2 i) (zeros n)

/-- The counter-mode key stream of a packet: SSRC and 48-bit index (RFC 3711 section 4.1.1). -/
def srtpCrypt (k salt : Bytes) (ssrc index : Nat) (d : Bytes) : Bytes :=
  let iv := beNat (padTo 14 salt) * 2 ^ 16
  let v := BitVec.ofNat 128 iv ^^^ BitVec.ofNat 128 (ssrc * 2 ^ 64) ^^^ BitVec.ofNat 128 (index * 2 ^ 16)
  aesCtr k (fun i => toBE 16 (v.toNat + i)) d

end Sys2Proof
end

