-- ==== Sys2Proof/Config.lean ====
section
/-! DEFINITION. What one device fixes at manufacture and the free values: constants without a body, of which nothing
can be proved but that they are some value. -/

namespace Sys2Proof.Config

/-- A free natural number (log entry 1): whatever the spec leaves open, drawn at the model's counter. -/
opaque freeNat : Nat → Nat

/-- A free choice between two outcomes that the spec leaves open (log entry 1). -/
opaque freeBool : Nat → Bool

/-- Octets of the true random number generator (R430, R468): the draw at a value of the model's counter and the
number of octets (log entry 1). -/
opaque random : Nat → Nat → Bytes

/-- The 64-bit device identity of R449, fused at manufacture (log entry 2). -/
opaque identity : BitVec 64

/-- The identity as the device has it: never 0 and never all ones (R449). -/
def deviceIdentity : BitVec 64 := BitVec.ofNat 64 (identity.toNat % (2 ^ 64 - 2) + 1)

/-- The fused key hashes of vendor pairs 0 and 1 (R444; log entry 2). -/
opaque vendorHash : Nat → Bytes

/-- Ed25519 verification of R443: public key, message, signature (log entry 3). -/
opaque ed25519Verify : Bytes → Bytes → Bytes → Bool

/-- ML-DSA-65 verification of R443: public key, message, signature (log entry 3). -/
opaque mlDsaVerify : Bytes → Bytes → Bytes → Bool

/-- The device's own signatures of R451 (Ed25519, then ML-DSA-65) over a message (log entry 3). -/
opaque ed25519Sign : Bytes → Bytes
opaque mlDsaSign : Bytes → Bytes

/-- The block of R453 after its identity field: identity public keys and endorsements (log entry 2). -/
opaque identityKeys : Bytes

/-- A kernel of the Media Image whose arithmetic the spec does not define (log entry 4): kernel, parameters, its state and its
inputs; what it gives and its next state. It depends on nothing else (R79). -/
opaque media : Nat → List Int → List Int → List Int → List Int × List Int

/-- A choice between two outcomes that the spec leaves open for a detector, by what is judged and the values it is judged on
(log entry 1). It depends on nothing else (R79). -/
opaque judge : Nat → List Int → Bool

/-- The coefficient of a gain in 0.01 dB with 17 fraction bits (R67; log entry 97). -/
opaque gainCoef : Int → Nat

/-- A sample of a sine: level in 0.01 dBm0, place in its turn, and the places a turn has (R78, R131; log entry 97). -/
opaque sine : Int → Nat → Nat → Int

/-- The weight with 17 fraction bits that a cross-fade of some samples gives the new signal at a sample (R63; log entry 101). -/
opaque fade : Nat → Nat → Nat

/-- A tap of an audio filter of the FDC with 17 fraction bits (R69, R159; log entry 98): filter, rates in kHz, and the distance
from the nearer end of its span in 1/256 input samples. -/
opaque fdcTap : Nat → Nat → Nat → Nat → Int

/-- The complex value of a phase in 2^-32 turns, cosine and sine with 17 fraction bits (R155, R177, R179; log entry 111). -/
opaque phasor : BitVec 32 → Int × Int

/-- The power of a bin of a search window from the two lines of the transform that fold onto it, by SF (R162; log entry 111). -/
opaque foldLines : Nat → Int × Int → Int × Int → Nat

/-- The interpolation between the three largest bins around a peak, in 1/64 bin (R176; log entry 111). -/
opaque binFraction : Nat → Nat → Nat → Int

/-- The centre tap of an equaliser from the line of a preamble's peak and the samples of its window (R193; log entry 111). -/
opaque centreTap : Int × Int → Nat → Int × Int

/-- The amplitude and phase of a re-modulated chirp from the line of the preamble's peak and the feed-forward and feedback taps
(R199; log entry 111). -/
opaque remodulated : Int × Int → List (Int × Int) → List (Int × Int) → Int × Int

/-- The angle of a complex value in 2^-32 turns (R193; log entry 111). -/
opaque angle : Int × Int → BitVec 32

/-- What a line of the window holds after a request to the cluster move unit, whose descriptor the spec does not
lay out: by draw, line and old value (R224; log entry 10). -/
opaque movedLine : Nat → Nat → BitVec 72 → BitVec 72

/-- Results of operations whose value the spec does not state for some operands (log entry 5). -/
opaque unstated : Nat → Nat → Nat

/-- The octets of an event body whose fields the spec names without a layout (log entry 18): event code and the figures
it carries. -/
opaque eventBody : Nat → List Int → Bytes

/-- The kernel of the Media Image that runs an op type of the device's own flows (log entry 4). -/
opaque mediaKernel : Nat → Nat

end Sys2Proof.Config
end

