-- ==== Sys2Proof/Machine/State.lean ====
section
/-! DEFINITION. The state of the TL9640 as plain data, block by block, and the state after reset. -/

namespace Sys2Proof.Machine

/-- Faults of the model. No command of the block stops it: the spec gives every command an effect, so this type has
a single reason, raised by nothing. -/
inductive Fault where
  /-- Raised by no meaning; safe. -/
  | none
  deriving DecidableEq, Repr

/-- Refusals of the model. -/
inductive Refusal where
  /-- A command whose meaning is not written yet, by its mnemonic; raised by the dispatch alone; safe. -/
  | notModelled (mnemonic : String)
  deriving DecidableEq, Repr

/-! ### The whole machine -/

/-- The state of the TL9640. `pending` is the queue of commands that wait, first in, first out; `free` is the model's
own counter that the free values of `Config` are applied to. -/
structure State where
  pending  : List Instr
  free     : Nat
  clk      : Clock
  regs     : FMap (BitVec 32)
  hif      : Hif
  sec      : Sec
  avl      : Avail
  twin     : Twin
  avs      : Avs
  chans    : FMap Chan
  /-- What commands have given up that does not count as free yet (R5). -/
  freed    : List Freed
  rtps     : FMap Rtp
  tps      : FMap Tp
  tpio     : TpIo
  links    : FMap Link
  rxcs     : FMap Rxc
  txcs     : FMap Txc
  /-- What radio commands have presented at the ordering point (R194). -/
  radio    : List RadioEvt
  groups   : FMap Group
  vpes     : FMap Vpe
  /-- The loaded Media Images by slot (R507): a VPE runs the image its cluster holds. -/
  code     : FMap Code
  fsc      : Fsc
  qmg      : Qmg
  bce      : Bce
  tdm      : FMap TdmPort
  eth      : FMap EthPort
  prp      : FMap PrpPair
  epd      : Epd
  dmc      : Dmc
  endp     : Endp
  counters : List (CtrKey × BitVec 64)
  figs     : List (FigKey × Int)
  deriving DecidableEq, Repr

/-! ### After reset

The state right after a power-on reset is released and before start-up runs: nothing is set up, no image has been
read and Endpaper is as it left manufacture (log entry 6). A cluster, VPE, port, link or pair that a map does not
list is in its initial state. -/

/-- The timebase from 0 (R485), FREERUN. -/
def Clock.reset : Clock :=
  { localNs := 0, offset := 0, tick := 0, tickAt := 0, slewLeft := 0, tbuState := 0, phaseRef := 0, freqRef := 0, avail := [],
    everLocked := false, freqCorr := 0, tdmHold := [], refSince := [], refGone := none, ptpMaster := none, ptpSent := [] }

/-- No ring, no notice, no operation. -/
def Hif.reset : Hif :=
  { rings := [], busy := false, result := 0, pollNs := 500, pollAt := 0, slots := [], notices := [], waitGlobal := [],
    longOps := [], nextOpId := 1, msix := [], msixTable := [], statsSeq := 0, statsBuf := false, statsAt := 0, statsFit := true, mbxBusy := false,
    mbxStatus := 0, mbxAnswer := [], wrote := [], lastTurn := 512, cfgOpen := false, cfgAnswer := none, barAnswer := 0, subsys := 0x96401F4C, loHeld := [], hiCapture := [],
    stats := none }

/-- The bring-up window: no keys, no session (R427). -/
def Sec.reset : Sec :=
  { enrolled := false, viewKey := [], operKey := [], ownerKey := [], signHash := [], fails := [], backoff := [],
    sessions := [], nonces := [], unlock := none, revoked := 0, identity := Config.deviceIdentity }

/-- Empty image slots, stage BOOT_ROM, spare cluster 16 (R17). -/
def Avail.reset : Avail :=
  { stage := 0, porHeld := false, power := 0, straps := 0, factoryReq := false, thermTrip := false, tempDeciC := 0,
    cimA := none, cimB := none, mimA := none, mimB := none, userStored := none, userLoaded := none, cimSlot := 0,
    mimSlot := 0, bootCim := 0, bootMim := 0, knownGood := none, fallbackFlag := false, fallback := false,
    comboUntested := false, acceptUntested := none, behaviourLock := false, factoryRestored := false,
    recovBusy := false, recovResult := 0, runSince := 0, spare := some 16, retired := [], standbyReady := false,
    rolling := none, migrating := none, migrateOp := none, selfTesting := none, lastTested := 16, nextTest := [],
    rotateAt := 0, handover := none, imgWriting := [], ukLoading := [], clusterMim := [], wakeInfo := none,
    dirClean := false, atReady := [], afterPor := true }

/-- The twin link down. -/
def Twin.reset : Twin :=
  { link := 0, role := 0, alive := false, reason := 0, lostAt := none, applied := none, sent := none }

/-- The loop not yet started (R26). -/
def Avs.reset : Avs :=
  { voutMv := 0, run := false, request := none, retryAt := none, calmSince := none, lastUp := none,
    lastDown := none }

/-- All balls inputs (R529). -/
def TpIo.reset : TpIo := { active := 0, runs := [], driven := 0, level := 0 }

/-- An empty scheduler. -/
def Fsc.reset : Fsc :=
  { flows := [], delay := [], presented := [], pace := [], slack := [], pressed := false }

/-- An empty pool; the extension is placed at start-up. -/
def Qmg.reset : Qmg :=
  { queues := [], occ := [], tethered := 0, extUsed := 0, extSize := 0, orphans := [], orphansExt := 0, late := [],
    lateExt := 0, freeRebuild := false, freeLate := false, sweep := false, sweepQueued := false, sweepDue := false,
    sweepOp := none, staged := [] }

/-- An idle engine. -/
def Bce.reset : Bce :=
  { jobs := [], resumes := [], nextHandle := 1, backlog := [], sizeMib := 0, flushes := [], nextFlush := 0,
    captures := [] }

/-- An empty directory. -/
def Epd.reset : Epd :=
  { entries := [], refs := [], kIdx := [], rebuild := none, load := [], export_ := [], badBuckets := [] }

/-- The DRAM before step 5. -/
def Dmc.reset : Dmc :=
  { capacity := 0, chOk := 0, trainedCache := false, pprCapable := false, remaps := [], ceRows := [],
    mapRefused := false, scrubbing := [], dqs := [], cached := [], lastUe := none }

/-- All lifetime counters 0. -/
def Lifetime.reset : Lifetime :=
  { powerOnS := 0, por := 0, pin := 0, soft := 0, factory := 0, authFail := 0, imageActivate := 0,
    endpaperWrite := 0, dramUe := 0, ppr := 0, clusterRetire := 0 }

/-- No COMMIT ever made: the defaults apply (R479). -/
def Endp.reset : Endp :=
  { epoch := 0, committed := { regs := [], gates := [], wake := [], gains := [] }, life := Lifetime.reset,
    lifeStored := Lifetime.reset, lifeAt := 0, degraded := false, wear := false }

/-- The machine right after reset. -/
def State.reset : State :=
  { pending := [], free := 0, clk := Clock.reset, regs := [], hif := Hif.reset, sec := Sec.reset, avl := Avail.reset,
    twin := Twin.reset, avs := Avs.reset, chans := [], freed := [], rtps := [], tps := [], tpio := TpIo.reset, links := [],
    rxcs := [], txcs := [], radio := [], groups := [], vpes := [], code := [], fsc := Fsc.reset, qmg := Qmg.reset,
    bce := Bce.reset, tdm := [], eth := [], prp := [], epd := Epd.reset, dmc := Dmc.reset, endp := Endp.reset,
    counters := [], figs := [] }

end Sys2Proof.Machine
end

