-- ==== Sys2Proof/Machine/BceOps.lean ====
section
/-! DEFINITION. The two coders of the Block Compression Engine: Mode L, lossless, and Mode F, of fixed ratio (R317 to
R329). -/

namespace Sys2Proof.Machine

open Sys2Proof

/-! ### Results (R320, R329, R332) -/

abbrev Br.ok : Nat := 0
abbrev Br.outShort : Nat := 1
abbrev Br.badCode : Nat := 2
abbrev Br.distBeyond : Nat := 3
abbrev Br.lenOverrun : Nat := 4
abbrev Br.truncated : Nat := 5
abbrev Br.checkFail : Nat := 6
abbrev Br.aborted : Nat := 7

/-- How a job stands or ends: result, input octets consumed, output, output octets of good units, units completed,
offset of the failing unit's header, and the block that a resumed decoder continues. -/
structure BceRun where
  result   : Nat
  consumed : Nat
  out      : Bytes
  good     : Nat
  units    : Nat
  errAt    : Nat
  cont     : Option LBlock
  deriving DecidableEq, Repr

/-- The start of a job. -/
def BceRun.start : BceRun := { result := Br.ok, consumed := 0, out := [], good := 0, units := 0, errAt := 0, cont := none }

/-! ### Mode L encoder (R321 to R323) -/

/-- The chain head of the three octets at a position (R321). -/
def lHash (b : Bytes) (p : Nat) : Nat := (leAt b p 3 * 0x0005C2B7 % 2 ^ 24) / 2 ^ 9

/-- The longest of the first `depth` candidates before `lim` on the chain of position p, the nearest on equal length:
length and distance (R321). -/
def lBest (b : Bytes) (lim p depth : Nat) : Nat × Nat :=
  let cands := ((List.range lim).reverse.filter (fun q => q + 3 ≤ b.length && p - q ≤ 65535 && lHash b q == lHash b p)).take depth
  let best := cands.foldl (fun (m : Nat × Nat) q =>
    let n := commonLen (b.drop p) (b.drop q)
    if m.1 < n then (n, p - q) else m) (0, 0)
  if best.1 < 3 || (best.1 = 3 && 2048 < best.2) then (0, 0) else best

/-- A token before it is coded: a run of literals, or a match of a length and distance. -/
inductive LTok where
  | lit (d : Bytes) | mat (len dist : Nat)
  deriving DecidableEq, Repr

/-- Octets that a token covers. -/
def LTok.covers : LTok → Nat
  | .lit d => d.length
  | .mat n _ => n

/-- Put the literals that stand before a match, or at the end, as one token. -/
def lFlush (lits : Bytes) (toks : List LTok) : List LTok := if lits.isEmpty then toks else .lit lits :: toks

/-- The parse of a block (R321), newest token first. -/
def lParse (b : Bytes) (depth : Nat) (lazyOn : Bool) (fuel p : Nat) (lits : Bytes) (toks : List LTok) : List LTok :=
  match fuel with
  | 0 => lFlush lits toks
  | k + 1 =>
    if b.length < p + 3 then lFlush (lits ++ b.drop p) toks
    else
      let m := lBest b p p depth
      let lit := lParse b depth lazyOn k (p + 1) (lits ++ sub b p 1) toks
      if lazyOn && 3 ≤ m.1 && p + 4 ≤ b.length && m.1 < (lBest b p (p + 1) depth).1 then lit
      else if 3 ≤ m.1 then lParse b depth lazyOn k (p + m.1) [] (.mat m.1 m.2 :: lFlush lits toks)
      else lit

/-- The tokens of a block in order. -/
def lTokens (b : Bytes) (depth : Nat) (lazyOn : Bool) : List LTok := (lParse b depth lazyOn (b.length + 1) 0 [] []).reverse

/-- Depth of the search at an effort (R321); efforts from 5 up are lazy. -/
def lDepth (effort : Nat) : Nat := [1, 1, 2, 4, 8, 8, 16, 64, 256, 4096].getD effort 4096

/-- The shortest extension of a value: seven bits an octet, least significant group first. -/
def lExt (fuel v : Nat) : Bytes :=
  match fuel with
  | 0 => []
  | k + 1 => if v < 128 then [BitVec.ofNat 8 v] else BitVec.ofNat 8 (128 + v % 128) :: lExt k (v / 128)

/-- A six-bit length field with its extension, where the field holds v up to 62. -/
def lField (v : Nat) : Nat × Bytes := if v < 63 then (v, []) else (63, lExt 4 (v - 63))

/-- The octets of a token, given the distance of the block's previous match (R319, R321). -/
def lCode (last : Option Nat) : LTok → Bytes
  | .lit d =>
    let f := lField (d.length - 1)
    BitVec.ofNat 8 f.1 :: f.2 ++ d
  | .mat n dist =>
    let f := lField (n - 3)
    if last = some dist then BitVec.ofNat 8 (192 + f.1) :: f.2
    else if n ≤ 10 && dist ≤ 2048 then
      [BitVec.ofNat 8 (64 + 8 * (n - 3) + (dist - 1) / 256), BitVec.ofNat 8 ((dist - 1) % 256)]
    else BitVec.ofNat 8 (128 + f.1) :: f.2 ++ toLE 2 dist

/-- Code tokens while they fit a space: the body, the octets covered, and whether a token was left over (R323). -/
def lCodeAll (space : Nat) (last : Option Nat) (toks : List LTok) (body : Bytes) (covered : Nat) : Bytes × Nat × Bool :=
  match toks with
  | [] => (body, covered, false)
  | t :: r =>
    let c := lCode last t
    if space < body.length + c.length then (body, covered, true)
    else
      lCodeAll space (match t with | .mat _ d => some d | .lit _ => last) r (body ++ c) (covered + t.covers)

/-- A block with its header; stored raw where the tokens take as much as the original (R318, R322). -/
def lBlock (orig body : Bytes) : Bytes :=
  let raw := orig.length ≤ body.length
  let b := if raw then orig else body
  toLE 1 0x4C ++ toLE 1 (b2n raw) ++ zeros 2 ++ toLE 4 orig.length ++ toLE 4 b.length ++ toLE 4 (crc32c orig).toNat ++ b

/-- Encode an input into an output of `outLen` octets, at most `limit` blocks where a limit is given (R321 to R323). -/
def lEncode (effort blockSize outLen : Nat) (limit : Option Nat) (fuel : Nat) (input : Bytes) (r : BceRun) : BceRun :=
  match fuel with
  | 0 => r
  | k + 1 =>
    if input.isEmpty then r
    else if limit = some r.units then { r with result := Br.aborted }
    else if outLen < r.out.length + 18 then { r with result := Br.outShort }
    else
      let b := input.take blockSize
      let (body, n, cut) := lCodeAll (outLen - r.out.length - 16) none (lTokens b (lDepth effort) (5 ≤ effort)) [] 0
      let out := if n = 0 then [] else lBlock (b.take n) body
      let r1 := { r with consumed := r.consumed + n, out := r.out ++ out, good := r.out.length + out.length
                         units := r.units + (if n = 0 then 0 else 1) }
      if cut then { r1 with result := Br.outShort }
      else lEncode effort blockSize outLen limit k (input.drop n) r1

/-! ### Mode L decoder (R319, R320, R324) -/

/-- An extension at the front of the body: value and octets, or the error. -/
def lReadExt (d : Bytes) : Except Nat (Nat × Nat) :=
  match d with
  | [] => .error Br.truncated
  | a :: r =>
    if a.toNat < 128 then .ok (a.toNat, 1)
    else match r with
      | [] => .error Br.truncated
      | b :: q =>
        if b.toNat < 128 then (if b.toNat = 0 then .error Br.badCode else .ok (a.toNat % 128 + 128 * b.toNat, 2))
        else match q with
          | [] => .error Br.truncated
          | c :: _ =>
            if 128 ≤ c.toNat || c.toNat = 0 then .error Br.badCode
            else .ok (a.toNat % 128 + 128 * (b.toNat % 128) + 16384 * c.toNat, 3)

/-- A six-bit length field with its extension. -/
def lReadLen (v : Nat) (d : Bytes) : Except Nat (Nat × Nat) :=
  if v = 63 then (lReadExt d).map (fun e => (63 + e.1, e.2)) else .ok (v, 0)

/-- Read the next token of a body: the block with the token in hand, and the octets read. -/
def lReadTok (b : LBlock) (d : Bytes) : Except Nat (LBlock × Nat) :=
  match d with
  | [] => .error Br.truncated
  | c :: r =>
    let v := c.toNat % 64
    let start := fun (n dist used : Nat) =>
      if b.out.length < dist then Except.error Br.distBeyond
      else if b.orig < b.out.length + n then .error Br.lenOverrun
      else .ok ({ b with copy := n, last := some dist, left := b.left - used }, used)
    match c.toNat / 64 with
    | 0 =>
      match lReadLen v r with
      | .error e => .error e
      | .ok (n, u) =>
        if b.orig < b.out.length + n + 1 then .error Br.lenOverrun
        else .ok ({ b with lits := n + 1, left := b.left - (1 + u) }, 1 + u)
    | 1 =>
      match r with
      | [] => .error Br.truncated
      | x :: _ => start (v / 8 + 3) (v % 8 * 256 + x.toNat + 1) 2
    | 2 =>
      match lReadLen v r with
      | .error e => .error e
      | .ok (n, u) =>
        if r.length < u + 2 then .error Br.truncated
        else if leAt r u 2 = 0 then .error Br.badCode
        else start (n + 3) (leAt r u 2) (3 + u)
    | _ =>
      match b.last, lReadLen v r with
      | none, _ => .error Br.badCode
      | _, .error e => .error e
      | some dist, .ok (n, u) => start (n + 3) dist (1 + u)

/-- A block header (R318), or its error. -/
def lHeader (d : Bytes) : Except Nat LBlock :=
  if d.length < 16 then .error Br.truncated
  else
    let orig := leAt d 4 4
    let comp := leAt d 8 4
    let raw := bit (byteAt d 1) 0
    if byteAt d 0 ≠ 0x4C || byteAt d 1 / 2 ≠ 0 || leAt d 2 2 ≠ 0 || orig = 0 || 65536 < orig ||
        (if raw then comp ≠ orig else comp = 0 || orig ≤ comp) then .error Br.badCode
    else
      .ok { orig, left := comp, check := BitVec.ofNat 32 (leAt d 12 4), raw, out := [], last := none, lits := 0, copy := 0 }

/-- Decode an input (R320, R324): `blkAt` is the offset of the header of the block in hand. Each turn reads a header or
a token, moves one octet, or ends a block. -/
def lDecode (outLen : Nat) (limit : Option Nat) (fuel : Nat) (input : Bytes) (blk : Option LBlock) (blkAt : Nat)
    (r : BceRun) : BceRun :=
  match fuel with
  | 0 => r
  | k + 1 =>
    let fail := fun (e : Nat) => { r with result := e, errAt := blkAt }
    let emit := fun (b : LBlock) (x : Byte) (used : Nat) =>
      lDecode outLen limit k (input.drop used) (some b) blkAt
        { r with out := r.out ++ [x], consumed := r.consumed + used }
    match blk with
    | none =>
      if input.isEmpty then r
      else if limit = some r.units then { r with result := Br.aborted }
      else if outLen ≤ r.out.length then { r with result := Br.outShort }
      else
        match lHeader input with
        | .error e => { r with result := e, errAt := r.consumed }
        | .ok b => lDecode outLen limit k (input.drop 16) (some b) r.consumed { r with consumed := r.consumed + 16 }
    | some b =>
      if b.out.length = b.orig then
        if b.left ≠ 0 then fail Br.lenOverrun
        else if crc32c b.out ≠ b.check then fail Br.checkFail
        else lDecode outLen limit k input none r.consumed { r with good := r.out.length, units := r.units + 1 }
      else if outLen ≤ r.out.length then { r with result := Br.outShort, cont := some b }
      else if b.lits ≠ 0 || b.raw then
        if b.left = 0 then fail Br.truncated
        else
          match input with
          | [] => fail Br.truncated
          | x :: _ => emit { b with lits := b.lits - 1, left := b.left - 1, out := b.out ++ [x] } x 1
      else if b.copy ≠ 0 then
        let x := b.out.getD (b.out.length - b.last.getD 1) 0
        emit { b with copy := b.copy - 1, out := b.out ++ [x] } x 0
      else
        match lReadTok b (input.take b.left) with
        | .error e => fail e
        | .ok (b1, u) => lDecode outLen limit k (input.drop u) (some b1) blkAt { r with consumed := r.consumed + u }

/-! ### Mode F (R325 to R329) -/

/-- Octets of a block and bits of a mantissa at a ratio code (R326). -/
def fBlockLen (ratio : Nat) : Nat := match ratio with | 1 => 72 | 2 => 48 | _ => 36
def fWidth (ratio : Nat) : Nat := match ratio with | 1 => 8 | 2 => 5 | _ => 4

/-- G(n): the size of a stream of n samples (R328). -/
def fSize (ratio n : Nat) : Nat := 8 * cdiv n 4096 + fBlockLen ratio * cdiv n 64

/-- EXP of one 18-bit sample: redundant sign bits, 17 for 0 (R233). -/
def exp18 (x : Int) : Nat :=
  let m : Nat := if x < 0 then (-x - 1).toNat else x.toNat
  17 - (if m = 0 then 0 else m.log2 + 1)

/-- BEXP over a block. -/
def bexp64 (l : List Int) : Nat := l.foldl (fun e x => min e (exp18 x)) 17

/-- The shift of a block's mantissas (R327). -/
def fShift (e w : Nat) : Nat := 18 - e - w

/-- The mantissa of a sample and the sample it decodes to (R327). -/
def fMant (sh w : Nat) (x : Int) : Int :=
  let m := if sh = 0 then x else Int.fdiv (x + 2 ^ (sh - 1)) (2 ^ sh)
  clampI (-(2 ^ (w - 1))) (2 ^ (w - 1) - 1) m
def fBack (sh : Nat) (m : Int) : Int := m * 2 ^ sh

/-- Pack fields of w bits from bit 0 upwards. -/
def packBits (w : Nat) (l : List Nat) : Nat := l.foldr (fun v acc => v + 2 ^ w * acc) 0

/-- One block of at most 64 samples: its octets and its reconstructed samples without padding. -/
def fBlock (ratio : Nat) (l : List Int) : Bytes × List Int :=
  let w := fWidth ratio
  let padded := l ++ List.replicate (64 - l.length) 0
  let e := bexp64 padded
  let sh := fShift e w
  let ms := padded.map (fMant sh w)
  let back := (ms.map (fBack sh)).take l.length
  (toLE 1 (e + 32 * b2n (back == l)) ++ toLE (fBlockLen ratio - 1) (packBits w (ms.map (enc w))), back)

/-- The octets that the check of a superblock covers (R328). -/
def fCheckOctets (l : List Int) : Bytes := l.flatMap (fun x => toLE 3 (enc 24 x))

/-- Groups of at most n. -/
def groups {α : Type} (n fuel : Nat) (l : List α) : List (List α) :=
  match fuel with
  | 0 => []
  | k + 1 => if l.isEmpty then [] else l.take n :: groups n k (l.drop n)

/-- One superblock of at most 4 096 samples (R325). -/
def fSuper (ratio : Nat) (l : List Int) : Bytes :=
  let bs := (groups 64 64 l).map (fBlock ratio)
  let back := bs.flatMap (·.2)
  toLE 1 ratio ++ toLE 1 bs.length ++ toLE 1 (if l.length % 64 = 0 then 64 else l.length % 64) ++ zeros 1 ++
    toLE 4 (crc32c (fCheckOctets back)).toNat ++ bs.flatMap (·.1)

/-- A Mode F stream (R325). -/
def fEncode (ratio : Nat) (l : List Int) : Bytes := (groups 4096 (l.length + 1) l).flatMap (fSuper ratio)

/-- Samples of a buffer: one 32-bit word each with the value in bits [17:0], or one 16-bit word each placed at [17:2]
(R16, R330). -/
def fSamples (fmt : Bool) (d : Bytes) : List Int :=
  if fmt then (chunksOf 2 d).map (fun c => 4 * sint 16 (leNat c)) else (chunksOf 4 d).map (fun c => sint 18 (leNat c))

/-- A decoded sample as it is written: sign-extended to 32 bits, or narrowed by two with rounding and saturation (R230,
R330). -/
def fPut (fmt : Bool) (x : Int) : Bytes :=
  if fmt then toLE 2 (enc 16 (clampI (-32768) 32767 (Int.fdiv (x + 2) 4))) else toLE 4 (enc 32 x)

/-- Decode one block: its samples, or none where a reserved or unused bit is set or the exponent is above 17 (R329). -/
def fUnblock (ratio : Nat) (b : Bytes) : Option (List Int) :=
  let w := fWidth ratio
  let e := fieldAt8 b
  let v := leNat (b.drop 1)
  if 17 < e || 64 ≤ byteAt b 0 || v / 2 ^ (64 * w) ≠ 0 then none
  else some ((List.range 64).map (fun i => fBack (fShift e w) (sint w (v / 2 ^ (i * w)))))
where
  /-- The exponent of a block. -/
  fieldAt8 (b : Bytes) : Nat := byteAt b 0 % 32

/-- Decode a Mode F stream of at most `want` samples (R329); `seen` samples have been produced. -/
def fDecode (fmt : Bool) (want : Nat) (limit : Option Nat) (fuel seen : Nat) (input : Bytes) (r : BceRun) : BceRun :=
  match fuel with
  | 0 => r
  | k + 1 =>
    let fail := fun (e : Nat) => { r with result := e, errAt := r.consumed }
    if input.isEmpty then r
    else if limit = some r.units then { r with result := Br.aborted }
    else if input.length < 8 then fail Br.truncated
    else
      let ratio := byteAt input 0
      let n := byteAt input 1
      let lc := byteAt input 2
      let size := 8 + n * fBlockLen ratio
      let more := size < input.length
      if ratio = 0 || 3 < ratio || n = 0 || 64 < n || lc = 0 || 64 < lc || byteAt input 3 ≠ 0 || (more && (n ≠ 64 || lc ≠ 64)) then
        fail Br.badCode
      else if input.length < size then fail Br.truncated
      else
        let blocks := (List.range n).map (fun i => fUnblock ratio (sub input (8 + i * fBlockLen ratio) (fBlockLen ratio)))
        if blocks.any (·.isNone) then fail Br.badCode
        else
          let all := (blocks.flatMap (fun o => o.getD [])).take (64 * (n - 1) + lc)
          if want < seen + all.length then fail Br.lenOverrun
          else
            let out := r.out ++ all.flatMap (fPut fmt)
            if (crc32c (fCheckOctets all)).toNat ≠ leAt input 4 4 then { fail Br.checkFail with out }
            else
              fDecode fmt want limit k (seen + all.length) (input.drop size)
                { r with consumed := r.consumed + size, out, good := out.length, units := r.units + 1 }

/-- Encode a Mode F job superblock by superblock, at most `limit` of them. -/
def fEncodeJob (ratio : Nat) (fmt : Bool) (limit : Option Nat) (input : Bytes) : BceRun :=
  let l := groups 4096 (input.length + 1) (fSamples fmt input)
  let unit := if fmt then 2 else 4
  let n := match limit with | some k => min k l.length | none => l.length
  let out := (l.take n).flatMap (fSuper ratio)
  { result := if n < l.length then Br.aborted else Br.ok, consumed := unit * ((l.take n).map List.length).sum, out
    good := out.length, units := n, errAt := 0, cont := none }

/-- Run a job to its end, or to its abort at a unit boundary (R332 to R334). A decoder that meets the end of the input
inside a block is truncated; one whose output is full there can be resumed. -/
def bceRun (j : BceJob) (limit : Option Nat) : BceRun :=
  match j.op with
  | 0 => lEncode j.effort j.blockSize j.outLen limit (j.input.length + 1) j.input BceRun.start
  | 1 => lDecode j.outLen limit (4 * (j.input.length + j.outLen) + 8) j.input j.cont 0 BceRun.start
  | 2 => fEncodeJob j.ratio j.fmt limit j.input
  | _ => fDecode j.fmt j.nSamples limit (j.input.length + 1) 0 j.input BceRun.start

end Sys2Proof.Machine
end

