-- ==== Sys2Proof/Machine/Flags.lean ====
section
/-! DEFINITION. The codes and flag computations that commands share: statuses, event codes, privileges, and the
overflow flags of VPE arithmetic. -/

namespace Sys2Proof

/-! ### Status codes (R405, R429, R488, R499) -/

abbrev St.ok : Nat := 0
abbrev St.accepted : Nat := 1
abbrev St.badParam : Nat := 2
abbrev St.badDesc : Nat := 3
abbrev St.badLength : Nat := 4
abbrev St.noCapacity : Nat := 5
abbrev St.busy : Nat := 6
abbrev St.notPending : Nat := 7
abbrev St.unknownOp : Nat := 8
abbrev St.noSession : Nat := 9
abbrev St.denied : Nat := 10
abbrev St.secNokey : Nat := 11
abbrev St.linkDown : Nat := 12
abbrev St.noWindow : Nat := 13
abbrev St.txLate : Nat := 14
abbrev St.txAborted : Nat := 15
abbrev St.severed : Nat := 16
abbrev St.integrity : Nat := 17
abbrev St.aborted : Nat := 18
abbrev St.failed : Nat := 19
abbrev St.badProof : Nat := 0x0101
abbrev St.backoff : Nat := 0x0102
abbrev St.noNonce : Nat := 0x0103
abbrev St.notEnrolled : Nat := 0x0104
abbrev St.enrolled : Nat := 0x0105
abbrev St.imgFormat : Nat := 0x0106
abbrev St.imgKey : Nat := 0x0107
abbrev St.imgRevoked : Nat := 0x0108
abbrev St.imgSig : Nat := 0x0109
abbrev St.imgDigest : Nat := 0x010A
abbrev St.epdNoroom : Nat := 0x0110
abbrev St.epdAbsent : Nat := 0x0111
abbrev St.endpaperFail : Nat := 0x0112
abbrev St.comboUntested : Nat := 0x0120
abbrev St.stepping : Nat := 0x0121
abbrev St.blLocked : Nat := 0x0122
abbrev St.notCoexist : Nat := 0x0123
abbrev St.levelInUse : Nat := 0x0124
abbrev St.noSpare : Nat := 0x0125
abbrev St.slotActive : Nat := 0x0126
abbrev St.restarted : Nat := 0x0127
abbrev St.twinState : Nat := 0x0128

/-! ### Event codes (R408, R454, R488, R499) -/

abbrev Ev.progress : Nat := 0x0101
abbrev Ev.done : Nat := 0x0102
abbrev Ev.failed : Nat := 0x0103
abbrev Ev.ringStarved : Nat := 0x0104
abbrev Ev.ringFault : Nat := 0x0105
abbrev Ev.statsTruncated : Nat := 0x0106
abbrev Ev.toneOn : Nat := 0x0201
abbrev Ev.toneOff : Nat := 0x0202
abbrev Ev.ecDisabled : Nat := 0x0203
abbrev Ev.ecEnabled : Nat := 0x0204
abbrev Ev.vbdSwitch : Nat := 0x0205
abbrev Ev.rxTimeout : Nat := 0x0301
abbrev Ev.rxResync : Nat := 0x0302
abbrev Ev.ssrcChange : Nat := 0x0303
abbrev Ev.rtcpBye : Nat := 0x0304
abbrev Ev.srtpKeySwitch : Nat := 0x0305
abbrev Ev.srtpKeyAge : Nat := 0x0306
abbrev Ev.driftLimit : Nat := 0x0307
abbrev Ev.guardFail : Nat := 0x0401
abbrev Ev.tpCmd : Nat := 0x0402
abbrev Ev.linkFail : Nat := 0x0403
abbrev Ev.linkClosed : Nat := 0x0404
abbrev Ev.rlLinkDown : Nat := 0x0501
abbrev Ev.linkSkew : Nat := 0x0502
abbrev Ev.sysrefSlip : Nat := 0x0503
abbrev Ev.paceWarning : Nat := 0x0601
abbrev Ev.avsFault : Nat := 0x0602
abbrev Ev.vpeFault : Nat := 0x0603
abbrev Ev.instanceDone : Nat := 0x0604
abbrev Ev.fscPressure : Nat := 0x0605
abbrev Ev.queueIntegrity : Nat := 0x0701
abbrev Ev.queueMark : Nat := 0x0702
abbrev Ev.recBacklogHigh : Nat := 0x0801
abbrev Ev.tdmSlip : Nat := 0x0901
abbrev Ev.tdmAlarm : Nat := 0x0902
abbrev Ev.casChange : Nat := 0x0903
abbrev Ev.ethLinkDown : Nat := 0x0A01
abbrev Ev.gateListActive : Nat := 0x0A02
abbrev Ev.timeStep : Nat := 0x0A03
abbrev Ev.timeHoldover : Nat := 0x0A04
abbrev Ev.timeRefChange : Nat := 0x0A05
abbrev Ev.wake : Nat := 0x0A06
abbrev Ev.sessionEnd : Nat := 0x0B01
abbrev Ev.authFail : Nat := 0x0B02
abbrev Ev.setupLockChange : Nat := 0x0B03
abbrev Ev.factoryRestored : Nat := 0x0B04
abbrev Ev.keyRevoked : Nat := 0x0B05
abbrev Ev.userKernelsRefused : Nat := 0x0B06
abbrev Ev.dramUe : Nat := 0x0C01
abbrev Ev.dramMapRefused : Nat := 0x0C02
abbrev Ev.epdDamaged : Nat := 0x0C03
abbrev Ev.dirLost : Nat := 0x0C04
abbrev Ev.endpaperWear : Nat := 0x0C05
abbrev Ev.endpaperLost : Nat := 0x0C06
abbrev Ev.slotFallback : Nat := 0x0D01
abbrev Ev.comboUntested : Nat := 0x0D02
abbrev Ev.imageActive : Nat := 0x0D03
abbrev Ev.clusterRetired : Nat := 0x0D04
abbrev Ev.capacityReduced : Nat := 0x0D05
abbrev Ev.cimHandover : Nat := 0x0D06
abbrev Ev.imageRestart : Nat := 0x0D07
abbrev Ev.twinLink : Nat := 0x0D08
abbrev Ev.twinTakeover : Nat := 0x0D09

/-- Body of a notice that no chapter defines (R409): object, reason and signed value. -/
def noticeBody (object reason : Nat) (value : Int) : Bytes :=
  padTo 48 (toLE 4 object ++ toLE 2 reason ++ zeros 2 ++ toLE 8 (enc 64 value))

/-- The extreme of a notice (R409): the lowest value where its crossings are falls, the value of largest magnitude
where values lie on either side of zero, the highest otherwise. -/
def noticeExtreme (code : Nat) (mark : Bool) (old v : Int) : Int :=
  if code = Ev.paceWarning || (code = Ev.queueMark && mark) then (if v < old then v else old)
  else if code = Ev.driftLimit || code = Ev.sysrefSlip || code = Ev.timeHoldover then
    (if old.natAbs < v.natAbs then v else old)
  else (if old < v then v else old)

/-- Phase bit of the entry of an index in a ring of 2^s entries (R400). -/
def phaseBit (log2 : Nat) (i : BitVec 32) : Nat := (i.toNat / 2 ^ log2 + 1) % 2

/-- A completion entry (R402) but for its phase bit. -/
def completionEntry (opcode status : Nat) (tag index : BitVec 32) (result : Bytes) : Bytes :=
  toLE 2 opcode ++ zeros 2 ++ toLE 2 status ++ zeros 2 ++ toLE 4 tag.toNat ++ toLE 4 index.toNat ++ padTo 48 result

/-- Body of PROGRESS, DONE and FAILED (R406). -/
def longBody (opId : Nat) (tag : BitVec 32) (opcode status permille position total : Nat) (result : Bytes) : Bytes :=
  toLE 4 opId ++ toLE 4 tag.toNat ++ toLE 2 opcode ++ toLE 2 status ++ toLE 2 permille ++ zeros 2 ++
    toLE 8 position ++ toLE 8 total ++ padTo 16 result

/-- Body of RING_FAULT (R554). -/
def ringFaultBody (ring reason : Nat) (host dev : BitVec 32) (gen : BitVec 16) : Bytes :=
  padTo 48 (toLE 2 ring ++ toLE 1 reason ++ zeros 1 ++ toLE 4 host.toNat ++ toLE 4 dev.toNat ++ toLE 2 gen.toNat)

/-- Body of SESSION_END (R556). -/
def sessionEndBody (ring privilege reason : Nat) : Bytes :=
  padTo 48 (toLE 2 ring ++ toLE 1 privilege ++ toLE 1 reason)

/-- Body of SETUP_LOCK_CHANGE (R557). -/
def setupLockBody (locked : Bool) (cause ring expiry : Nat) : Bytes :=
  padTo 48 (toLE 1 (b2n locked) ++ toLE 1 cause ++ toLE 2 ring ++ zeros 4 ++ toLE 8 expiry)

/-! ### Properties with two limits (R72 to R75, R118) -/

/-- How a property stands against its two columns: always accepted, never accepted, or open between them. -/
inductive Verdict where
  | always | never | open_
  deriving DecidableEq, Repr

/-- A property from the two columns of a table. -/
def verdict (a n : Bool) : Verdict := if a then .always else if n then .never else .open_

/-- Two properties that must both hold. -/
def Verdict.and (a b : Verdict) : Verdict :=
  match a, b with
  | .never, _ => .never
  | _, .never => .never
  | .always, .always => .always
  | _, _ => .open_

/-- One of two suffices. -/
def Verdict.or (a b : Verdict) : Verdict :=
  match a, b with
  | .always, _ => .always
  | _, .always => .always
  | .never, .never => .never
  | _, _ => .open_

/-- Settle a property: what the spec leaves open is the free choice given. -/
def Verdict.settle (v : Verdict) (free : Bool) : Bool :=
  match v with
  | .always => true
  | .never => false
  | .open_ => free

end Sys2Proof
end

