-- ==== Sys2Proof/Machine/FMap.lean ====
section
/-! DEFINITION. Keyed collections: reading, writing and removing a key, with keys kept strictly rising. -/

namespace Sys2Proof

/-- The value held at a key, if any. -/
def FMap.get? {α : Type} (m : FMap α) (k : Nat) : Option α :=
  match m with
  | [] => none
  | (j, v) :: r => if j = k then some v else FMap.get? r k

/-- Put a value at a key; the keys stay strictly rising. -/
def FMap.set {α : Type} (m : FMap α) (k : Nat) (v : α) : FMap α :=
  match m with
  | [] => [(k, v)]
  | (j, w) :: r =>
    if k < j then (k, v) :: (j, w) :: r
    else if k = j then (k, v) :: r
    else (j, w) :: FMap.set r k v

/-- Remove a key. -/
def FMap.del {α : Type} (m : FMap α) (k : Nat) : FMap α := List.filter (fun e => !(e.1 == k)) m

/-- Whether a key is held. -/
def FMap.has {α : Type} (m : FMap α) (k : Nat) : Bool := (FMap.get? m k).isSome

/-- Change the value at a key, where there is one. -/
def FMap.adj {α : Type} (m : FMap α) (k : Nat) (f : α → α) : FMap α :=
  match FMap.get? m k with
  | none => m
  | some v => FMap.set m k (f v)

/-- The value at a key, or a default. -/
def FMap.getD {α : Type} (m : FMap α) (k : Nat) (d : α) : α := (FMap.get? m k).getD d

/-- The keys, rising. -/
def FMap.keys {α : Type} (m : FMap α) : List Nat := List.map Prod.fst m

/-- The values, by rising key. -/
def FMap.vals {α : Type} (m : FMap α) : List α := List.map Prod.snd m

/-- Apply a function to every value. -/
def FMap.mapV {α β : Type} (m : FMap α) (f : Nat → α → β) : FMap β := List.map (fun e => (e.1, f e.1 e.2)) m

/-- Keep the entries that satisfy a test. -/
def FMap.keep {α : Type} (m : FMap α) (f : Nat → α → Bool) : FMap α := List.filter (fun e => f e.1 e.2) m

/-- The smallest number below `n` that is not a key, by trying 0, 1, … -/
def FMap.firstFree {α : Type} (m : FMap α) (n : Nat) : Option Nat :=
  (List.range (min n (List.length m + 1))).find? (fun k => !FMap.has m k)

/-- Keys strictly rising: the canonical form. -/
def FMap.wf {α : Type} (m : FMap α) : Bool :=
  match m with
  | [] => true
  | (j, _) :: r => (match r with | [] => true | (k, _) :: _ => j < k) && FMap.wf r

end Sys2Proof
end

