-- ==== Sys2Proof/Machine/RegTable.lean ====
section
/-! DEFINITION. The setup registers of R518 with their field maps: where each register lies, the access, the
default and the range of every field, and the register that holds its refused flag (R13, R517 to R530). -/

namespace Sys2Proof.Machine

open Sys2Proof

/-- The registers of R518. A LO and HI pair is two names. -/
inductive RegName where
  | idDevice | idIdentityLo | idIdentityHi | strapStatus | bootStatus | recovAddrLo | recovAddrHi | recovCtrl
  | secCfg | secStatus | mbxAddrLo | mbxAddrHi | mbxCmd | mbxStatus
  | ringCmd | ringStatus | hifKick | ringCtxLo | ringCtxHi | dbBaseLo | dbBaseHi | idxBaseLo | idxBaseHi
  | statsAddrLo | statsAddrHi | hifPoll | evtGlobal | hifLevels | hifSubsys | statsCfg | statsCtrl | msixMod
  | tbuCfg | tbuStatus | tbuRefCfg | ptpCfg | tbuTimeLo | tbuTimeHi | avsCfg | avsStatus
  | fscPace | fscVpe01 | fscVpe23 | fscCl01 | fscCl23 | fscAge | fscStatus
  | dmcCfg | dmcStatus | poolBase | poolSize | ballast01 | ballast23 | qmgSpill | qmgStatus
  | epdCfg | epdStatus | recCtrl | recBacklog | recStatus | avlCfg | avlStatus | twinCfg | twinStatus
  | endpStatus | epochLo | epochHi | firstDiff
  | ethPortCfg | ethRxCfg | ethEee | ethTsAdj | ethMacLo | ethMacHi | ethPortStatus | ethHash | prpPairCfg
  | tdmPortCfg | tdmFramerCfg | tdmPortStatus | tdmRef
  | rlCtrl | rlCfg | rlFs | rlLane | rlExtLat | rlSpi | rlAgc | rlGainLat | rlStatus
  | tpioPolarity | tpioState | tpioUse | tpioStatus
  deriving DecidableEq, Repr

/-- Access of a field (R13). Fields not listed are reserved or live and read-only. -/
inductive Acc where
  | rw | rwl | wo | w1c
  deriving DecidableEq, Repr

/-- A field: its bits, access, default and permitted range. -/
structure RegField where
  hi   : Nat
  lo   : Nat
  acc  : Acc
  dflt : Nat
  min  : Nat
  max  : Nat
  deriving DecidableEq, Repr

/-- A retained field with a range. -/
def fL (hi lo dflt min max : Nat) : RegField := ⟨hi, lo, .rwl, dflt, min, max⟩

/-- A retained field that takes every value. -/
def fA (hi lo dflt : Nat) : RegField := ⟨hi, lo, .rwl, dflt, 0, 2 ^ (hi + 1 - lo) - 1⟩

/-- A live writable field (RW) with a range. -/
def fW (hi lo dflt min max : Nat) : RegField := ⟨hi, lo, .rw, dflt, min, max⟩

/-- A write-only field. -/
def fO (hi lo max : Nat) : RegField := ⟨hi, lo, .wo, 0, 0, max⟩

/-- A flag cleared by writing 1. -/
def fC (b : Nat) : RegField := ⟨b, b, .w1c, 0, 0, 1⟩

/-- Where a register lies, how many there are, and its fields. Instance i·n2 + j lies at
base + i·stride + j·4. `ref` names the register and bit of its refused flag. -/
structure RegRow where
  base   : Nat
  n      : Nat
  stride : Nat
  n2     : Nat
  fields : List RegField
  ref    : Option (RegName × Nat)
  deriving DecidableEq, Repr

/-- A register with one instance. -/
def r1 (base : Nat) (fields : List RegField) (ref : Option (RegName × Nat)) : RegRow := ⟨base, 1, 4, 1, fields, ref⟩

/-- The row of a register. -/
def regRow : RegName → RegRow
  | .idDevice => r1 0x00000 [] none
  | .idIdentityLo => r1 0x00008 [] none
  | .idIdentityHi => r1 0x0000C [] none
  | .strapStatus => r1 0x00010 [] none
  | .bootStatus => r1 0x00100 [] none
  | .recovAddrLo => r1 0x00108 [fW 31 0 0 0 (2 ^ 32 - 1)] none
  | .recovAddrHi => r1 0x0010C [fW 31 0 0 0 (2 ^ 32 - 1)] none
  | .recovCtrl => r1 0x00110 [fW 12 0 0 1 4096, fO 31 31 1] none
  | .secCfg => r1 0x00200 [fL 15 0 900 10 65535, fL 31 16 600 10 65535] (some (.secStatus, 16))
  | .secStatus => r1 0x00204 [fC 16] none
  | .mbxAddrLo => r1 0x00300 [fW 31 0 0 0 (2 ^ 32 - 1)] (some (.mbxStatus, 1))
  | .mbxAddrHi => r1 0x00304 [fW 31 0 0 0 (2 ^ 32 - 1)] (some (.mbxStatus, 1))
  | .mbxCmd => r1 0x00308 [fO 15 0 65535] (some (.mbxStatus, 1))
  | .mbxStatus => r1 0x0030C [fC 1] none
  | .ringCmd => r1 0x01000 [fO 8 0 511, fO 10 9 2] (some (.ringStatus, 4))
  | .ringStatus => r1 0x01004 [fC 4] none
  | .hifKick => r1 0x01008 [fO 31 0 (2 ^ 32 - 1)] none
  | .ringCtxLo => r1 0x01010 [fW 31 0 0 0 (2 ^ 32 - 1)] (some (.ringStatus, 4))
  | .ringCtxHi => r1 0x01014 [fW 31 0 0 0 (2 ^ 32 - 1)] (some (.ringStatus, 4))
  | .dbBaseLo => r1 0x01018 [fW 31 0 0 0 (2 ^ 32 - 1)] (some (.ringStatus, 4))
  | .dbBaseHi => r1 0x0101C [fW 31 0 0 0 (2 ^ 32 - 1)] (some (.ringStatus, 4))
  | .idxBaseLo => r1 0x01020 [fW 31 0 0 0 (2 ^ 32 - 1)] (some (.ringStatus, 4))
  | .idxBaseHi => r1 0x01024 [fW 31 0 0 0 (2 ^ 32 - 1)] (some (.ringStatus, 4))
  | .statsAddrLo => r1 0x01028 [fW 31 0 0 0 (2 ^ 32 - 1)] (some (.ringStatus, 4))
  | .statsAddrHi => r1 0x0102C [fW 31 0 0 0 (2 ^ 32 - 1)] (some (.ringStatus, 4))
  | .hifPoll => r1 0x01030 [fL 7 0 16 1 128] (some (.ringStatus, 4))
  | .evtGlobal => r1 0x01034 [fW 8 0 0 0 511, fW 9 9 0 0 1] (some (.ringStatus, 4))
  | .hifLevels => r1 0x01038 [] none
  | .hifSubsys => r1 0x0103C [fA 15 0 0x1F4C, fA 31 16 0x9640] none
  | .statsCfg => r1 0x01040 [fW 13 0 0 0 16383, fW 25 16 0 0 1000] (some (.statsCtrl, 15))
  | .statsCtrl => r1 0x01044 [fW 7 0 0 0 255, fW 8 8 0 0 1, fW 14 9 0 0 63, fC 15] (some (.statsCtrl, 15))
  | .msixMod => ⟨0x01100, 64, 4, 1, [fW 7 0 1 0 255, fW 17 8 0 0 1000], some (.ringStatus, 4)⟩
  | .tbuCfg => r1 0x02000 [fA 1 0 1] (some (.tbuStatus, 10))
  | .tbuStatus => r1 0x02004 [fC 10] none
  | .tbuRefCfg => r1 0x02008 [fA 23 0 0x21, fA 26 24 0, fA 27 27 1] (some (.tbuStatus, 10))
  | .ptpCfg => r1 0x0200C [fA 7 0 0, fA 8 8 1, fA 9 9 0, fA 23 16 128, fA 31 24 128] (some (.tbuStatus, 10))
  | .tbuTimeLo => r1 0x02010 [] none
  | .tbuTimeHi => r1 0x02014 [] none
  | .avsCfg => r1 0x02020 [fL 5 0 14 0 40, fL 13 8 40 14 40, fA 22 16 0x40] (some (.avsStatus, 11))
  | .avsStatus => r1 0x02024 [fC 11] none
  | .fscPace => r1 0x03000 [fL 7 0 16 1 255, fL 15 8 32 0 255] (some (.fscStatus, 0))
  | .fscVpe01 => r1 0x03004 [fL 9 0 1 0 1000, fL 25 16 40 0 1000] (some (.fscStatus, 0))
  | .fscVpe23 => r1 0x03008 [fL 9 0 100 0 1000, fL 25 16 1000 0 1000] (some (.fscStatus, 0))
  | .fscCl01 => r1 0x0300C [fL 13 0 2 0 10000, fL 29 16 150 0 10000] (some (.fscStatus, 0))
  | .fscCl23 => r1 0x03010 [fL 13 0 400 0 10000, fL 29 16 5000 0 10000] (some (.fscStatus, 0))
  | .fscAge => r1 0x03014 [fL 6 0 5 1 100, fL 14 8 2 1 100, fL 25 16 20 1 1000] (some (.fscStatus, 0))
  | .fscStatus => r1 0x03018 [fC 0] none
  | .dmcCfg => r1 0x04000 [fL 7 0 24 1 168, fA 8 8 1] none
  | .dmcStatus => r1 0x04004 [] none
  | .poolBase => r1 0x04010 [fA 23 0 0] (some (.qmgStatus, 3))
  | .poolSize => r1 0x04014 [fL 8 0 64 0 256] (some (.qmgStatus, 3))
  | .ballast01 => r1 0x04018 [fL 15 0 4096 1024 65535, fA 31 16 16384] (some (.qmgStatus, 3))
  | .ballast23 => r1 0x0401C [fA 15 0 8192, fA 31 16 0] (some (.qmgStatus, 3))
  | .qmgSpill => r1 0x04020 [fL 17 0 16384 0 131072] (some (.qmgStatus, 3))
  | .qmgStatus => r1 0x04024 [fC 3] none
  | .epdCfg => r1 0x04030 [fA 31 0 0x10000] none
  | .epdStatus => r1 0x04034 [] none
  | .recCtrl => r1 0x04040 [fA 0 0 1, fL 2 1 1 1 3, fL 12 8 0 0 16, fL 24 16 0 0 511] (some (.recStatus, 0))
  | .recBacklog => r1 0x04044 [fL 12 0 256 16 4096, fL 19 13 75 50 95] (some (.recStatus, 0))
  | .recStatus => r1 0x04048 [fC 0] none
  | .avlCfg => r1 0x05000 [fL 10 0 60 0 1440, fL 22 12 10 1 1440] (some (.avlStatus, 25))
  | .avlStatus => r1 0x05004 [fC 25] none
  | .twinCfg => r1 0x05008 [fA 0 0 0, fA 1 1 0, fA 2 2 1, fL 12 3 30 10 1000] (some (.twinStatus, 8))
  | .twinStatus => r1 0x0500C [fC 8] none
  | .endpStatus => r1 0x06000 [] none
  | .epochLo => r1 0x06008 [] none
  | .epochHi => r1 0x0600C [] none
  | .firstDiff => r1 0x06010 [] none
  | .ethPortCfg => ⟨0x10000, 32, 0x100, 1, [fL 2 0 0 0 4, fL 4 3 2 0 2, fA 5 5 1, fL 19 6 1522 1518 9216, fA 20 20 0,
      fA 21 21 1, fA 22 22 0, fA 23 23 0, fA 24 24 0, fA 25 25 1], some (.ethPortStatus, 4)⟩
  | .ethRxCfg => ⟨0x10004, 32, 0x100, 1, [fA 8 0 0, fA 9 9 0], some (.ethPortStatus, 4)⟩
  | .ethEee => ⟨0x10008, 32, 0x100, 1, [fA 15 0 0, fL 31 16 20 1 65535], some (.ethPortStatus, 4)⟩
  | .ethTsAdj => ⟨0x1000C, 32, 0x100, 1, [fA 15 0 0, fA 31 16 0], some (.ethPortStatus, 4)⟩
  | .ethMacLo => ⟨0x10010, 32, 0x100, 1, [fA 31 0 0], some (.ethPortStatus, 4)⟩
  | .ethMacHi => ⟨0x10014, 32, 0x100, 1, [fA 15 0 0], some (.ethPortStatus, 4)⟩
  | .ethPortStatus => ⟨0x10018, 32, 0x100, 1, [fC 4], none⟩
  | .ethHash => ⟨0x10040, 32, 0x100, 16, [fA 31 0 0], some (.ethPortStatus, 4)⟩
  | .prpPairCfg => ⟨0x12000, 16, 4, 1, [fA 4 0 0, fA 12 8 0, fA 16 16 0, fA 17 17 1], some (.tbuStatus, 10)⟩
  | .tdmPortCfg => ⟨0x20000, 192, 0x10, 1, [fA 1 0 0, fL 3 2 0 0 2, fA 4 4 0, fA 5 5 0, fA 6 6 0, fA 7 7 0, fA 8 8 0,
      fA 9 9 0, fA 19 10 0, fA 20 20 0], some (.tdmPortStatus, 12)⟩
  | .tdmFramerCfg => ⟨0x20004, 64, 0x10, 1, [fA 0 0 0, fL 2 1 2 0 2, fA 3 3 0, fA 4 4 1, fA 5 5 0, fA 6 6 1,
      fA 11 7 31, fW 12 12 0 0 1], some (.tdmPortStatus, 12)⟩
  | .tdmPortStatus => ⟨0x20008, 192, 0x10, 1, [fC 12], none⟩
  | .tdmRef => r1 0x21000 [fL 7 0 0 0 191, fL 15 8 0 0 191, fA 16 16 0, fA 17 17 0, fC 18] (some (.tdmRef, 18))
  | .rlCtrl => ⟨0x30000, 8, 0x100, 1, [fA 0 0 0], some (.rlStatus, 3)⟩
  | .rlCfg => ⟨0x30004, 8, 0x100, 1, [fA 0 0 0, fL 2 1 2 0 2, fA 3 3 1, fL 5 4 1 0 2, fL 7 6 0 0 2, fA 8 8 0,
      fL 11 9 0 0 4, fA 12 12 1, fA 20 13 0, fA 22 21 0], some (.rlStatus, 3)⟩
  | .rlFs => ⟨0x30008, 8, 0x100, 1, [fL 25 0 61440000 3840000 61440000], some (.rlStatus, 3)⟩
  | .rlLane => ⟨0x3000C, 8, 0x100, 1, [fA 7 0 0xE4, fA 15 8 0xE4, fA 19 16 0, fA 23 20 0], some (.rlStatus, 3)⟩
  | .rlExtLat => ⟨0x30010, 8, 0x100, 1, [fL 16 0 0 0 100000], some (.rlStatus, 3)⟩
  | .rlSpi => ⟨0x30014, 8, 0x100, 1, [fA 0 0 0, fA 1 1 0, fL 6 2 8 0 16, fL 11 7 25 5 25], some (.rlStatus, 3)⟩
  | .rlAgc => ⟨0x30018, 8, 0x100, 2, [fA 0 0 0, fL 4 1 2 0 12, fL 10 5 18 6 40, fL 15 11 6 1 20, fL 19 16 3 1 12,
      fL 27 20 16 1 255], some (.rlStatus, 3)⟩
  | .rlGainLat => ⟨0x30020, 8, 0x100, 1, [fL 13 0 0 0 10000, fL 29 16 0 0 10000], some (.rlStatus, 3)⟩
  | .rlStatus => ⟨0x30024, 8, 0x100, 1, [fC 3], none⟩
  | .tpioPolarity => r1 0x31000 [fA 31 0 0] (some (.tpioStatus, 0))
  | .tpioState => r1 0x31004 [] none
  | .tpioUse => r1 0x31008 [] none
  | .tpioStatus => r1 0x3100C [fC 0] none

/-- Every register. -/
def allRegs : List RegName :=
  [.idDevice, .idIdentityLo, .idIdentityHi, .strapStatus, .bootStatus, .recovAddrLo, .recovAddrHi, .recovCtrl,
   .secCfg, .secStatus, .mbxAddrLo, .mbxAddrHi, .mbxCmd, .mbxStatus, .ringCmd, .ringStatus, .hifKick] ++
  [.ringCtxLo, .ringCtxHi, .dbBaseLo, .dbBaseHi, .idxBaseLo, .idxBaseHi, .statsAddrLo, .statsAddrHi, .hifPoll,
   .evtGlobal, .hifLevels, .hifSubsys, .statsCfg, .statsCtrl, .msixMod, .tbuCfg, .tbuStatus, .tbuRefCfg] ++
  [.ptpCfg, .tbuTimeLo, .tbuTimeHi, .avsCfg, .avsStatus, .fscPace, .fscVpe01, .fscVpe23, .fscCl01, .fscCl23,
   .fscAge, .fscStatus, .dmcCfg, .dmcStatus, .poolBase, .poolSize, .ballast01, .ballast23, .qmgSpill, .qmgStatus] ++
  [.epdCfg, .epdStatus, .recCtrl, .recBacklog, .recStatus, .avlCfg, .avlStatus, .twinCfg, .twinStatus, .endpStatus,
   .epochLo, .epochHi, .firstDiff, .ethPortCfg, .ethRxCfg, .ethEee, .ethTsAdj, .ethMacLo, .ethMacHi] ++
  [.ethPortStatus, .ethHash, .prpPairCfg, .tdmPortCfg, .tdmFramerCfg, .tdmPortStatus, .tdmRef, .rlCtrl, .rlCfg,
   .rlFs, .rlLane, .rlExtLat, .rlSpi, .rlAgc, .rlGainLat, .rlStatus, .tpioPolarity, .tpioState, .tpioUse,
   .tpioStatus]

/-- BAR0 offset of an instance. -/
def regOff (r : RegName) (i : Nat) : Nat :=
  let w := regRow r
  w.base + (i / w.n2) * w.stride + (i % w.n2) * 4

/-- The instance of a register at an offset, if it lies there. -/
def instAt (r : RegName) (off : Nat) : Option Nat :=
  let w := regRow r
  if off < w.base then none
  else
    let i := (off - w.base) / w.stride
    let rest := (off - w.base) % w.stride
    if i < w.n && rest % 4 == 0 && rest / 4 < w.n2 then some (i * w.n2 + rest / 4) else none

/-- The register at an offset (R518). -/
def regAt (off : Nat) : Option (RegName × Nat) :=
  allRegs.findSome? (fun r => (instAt r off).map (fun i => (r, i)))

/-- Mask of the fields of one access. -/
def accMask (r : RegName) (a : Acc) : BitVec 32 :=
  (regRow r).fields.foldl
    (fun m f => if f.acc = a then m ||| BitVec.ofNat 32 ((2 ^ (f.hi + 1 - f.lo) - 1) * 2 ^ f.lo) else m) 0

/-- The value of a register with every field at its default. -/
def regDflt (r : RegName) : BitVec 32 :=
  (regRow r).fields.foldl (fun m f => m ||| BitVec.ofNat 32 (f.dflt * 2 ^ f.lo)) 0

/-- Whether every writable field of a value lies in its range (R521). -/
def inRange (r : RegName) (v : BitVec 32) : Bool :=
  (regRow r).fields.all (fun f =>
    let x := bits v.toNat f.hi f.lo
    f.acc = .w1c || (f.min ≤ x && x ≤ f.max))

/-- The HI half of a pair whose LO half a register is (R519). -/
def pairHi : RegName → Option RegName
  | .idIdentityLo => some .idIdentityHi
  | .recovAddrLo => some .recovAddrHi
  | .mbxAddrLo => some .mbxAddrHi
  | .ringCtxLo => some .ringCtxHi
  | .dbBaseLo => some .dbBaseHi
  | .idxBaseLo => some .idxBaseHi
  | .statsAddrLo => some .statsAddrHi
  | .tbuTimeLo => some .tbuTimeHi
  | .epochLo => some .epochHi
  | _ => none

/-- The LO half of a pair whose HI half a register is (R519). -/
def pairLo : RegName → Option RegName
  | .idIdentityHi => some .idIdentityLo
  | .recovAddrHi => some .recovAddrLo
  | .mbxAddrHi => some .mbxAddrLo
  | .ringCtxHi => some .ringCtxLo
  | .dbBaseHi => some .dbBaseLo
  | .idxBaseHi => some .idxBaseLo
  | .statsAddrHi => some .statsAddrLo
  | .tbuTimeHi => some .tbuTimeLo
  | .epochHi => some .epochLo
  | _ => none

/-- The alignment the value of a pair must have: its low bits are zero (R424, R517, R530). -/
def pairAlign : RegName → Nat
  | .recovAddrLo => 4096
  | .mbxAddrLo => 64
  | .ringCtxLo => 64
  | .dbBaseLo => 4096
  | .idxBaseLo => 4096
  | .statsAddrLo => 4096
  | _ => 1

/-- Registers never locked (R522): HIF with RW fields, mailbox, BOOT_RECOV. RWL fields are locked by their access. -/
def hifRw : List RegName :=
  [.ringCtxLo, .ringCtxHi, .dbBaseLo, .dbBaseHi, .idxBaseLo, .idxBaseHi, .statsAddrLo, .statsAddrHi, .evtGlobal,
   .statsCfg, .statsCtrl, .msixMod, .ringStatus, .mbxAddrLo, .mbxAddrHi, .mbxStatus]

end Sys2Proof.Machine
end

