-- ==== Sys2Proof/Machine/Regs.lean ====
section
/-! DEFINITION. The setup registers as the machine holds them: stored fields by offset, settings read from them, and
the comparison with the committed configuration (R479, R481, R531). -/

namespace Sys2Proof.Machine

open Sys2Proof

/-- The stored fields of a register instance in a register file; an offset not listed holds the default. -/
def regIn (m : FMap (BitVec 32)) (r : RegName) (i : Nat) : BitVec 32 := FMap.getD m (regOff r i) (regDflt r)

/-- Store a register instance; a value equal to the default is not listed. -/
def regPut (m : FMap (BitVec 32)) (r : RegName) (i : Nat) (v : BitVec 32) : FMap (BitVec 32) :=
  if v = regDflt r then FMap.del m (regOff r i) else FMap.set m (regOff r i) v

/-- The stored fields of a register instance. -/
def regVal (s : State) (r : RegName) (i : Nat := 0) : BitVec 32 := regIn s.regs r i

/-- Store a register instance. -/
def setReg (s : State) (r : RegName) (i : Nat) (v : BitVec 32) : State := { s with regs := regPut s.regs r i v }

/-- Bits [hi:lo] of a stored register. -/
def fld (s : State) (r : RegName) (i hi lo : Nat) : Nat := bits (regVal s r i).toNat hi lo

/-- One bit of a stored register. -/
def flag (s : State) (r : RegName) (i b : Nat) : Bool := (regVal s r i).getLsbD b

/-- Set one bit of a stored register (a refused flag, R521, R523). -/
def setFlag (s : State) (r : RegName) (i b : Nat) : State :=
  setReg s r i (regVal s r i ||| BitVec.ofNat 32 (2 ^ b))

/-- Put a field into a stored register. -/
def putFld (s : State) (r : RegName) (i hi lo v : Nat) : State :=
  let m := BitVec.ofNat 32 ((2 ^ (hi + 1 - lo) - 1) * 2 ^ lo)
  setReg s r i ((regVal s r i &&& ~~~ m) ||| (BitVec.ofNat 32 (v * 2 ^ lo) &&& m))

/-- Set the refused flag that a register's chapter names (R521). -/
def refuse (s : State) (r : RegName) (i : Nat) : State :=
  match (regRow r).ref with
  | none => s
  | some (f, b) => setFlag s f (if 1 < (regRow f).n then i / (regRow r).n2 else 0) b

/-- A stored 64-bit pair. -/
def pairVal (s : State) (lo hi : RegName) : Nat := (regVal s lo).toNat + 2 ^ 32 * (regVal s hi).toNat

/-! ### Settings -/

/-- The tick period in ns (R35). -/
def tickNs (s : State) : Nat := 15625 * 2 ^ (fld s .tbuCfg 0 1 0)

/-- The local instant at which a tick begins, or began, at the present alignment; and the first tick that begins at or after an
instant (R35, R38). -/
def tickStart (s : State) (n : Nat) : Ns := s.clk.tickAt + n * tickNs s - s.clk.tick * tickNs s
def tickFrom (s : State) (t : Ns) : Nat := cdiv (t + s.clk.tick * tickNs s - s.clk.tickAt) (tickNs s)

/-- Whether an unlock is held whose time has not run out. -/
def unlockHeld (s : State) : Bool := s.sec.unlock.any (fun u => decide (s.clk.localNs < u.2))

/-- Whether setup is locked now (R427, R437): an unlock whose time has run out locks at once. -/
def setupLocked (s : State) : Bool := s.sec.enrolled && !unlockHeld s

/-- Idle time and longest unlock in ns (R454). -/
def idleNs (s : State) : Nat := fld s .secCfg 0 15 0 * 1000000000
def unlockMaxNs (s : State) : Nat := fld s .secCfg 0 31 16 * 1000000000

/-- The ring that HIF_EVT_GLOBAL names, if it exists. -/
def globalRing (s : State) : Option Nat :=
  let r := fld s .evtGlobal 0 8 0
  if flag s .evtGlobal 0 9 && FMap.has s.hif.rings r then some r else none

/-- Longest poll interval in ns (R398). -/
def pollMaxNs (s : State) : Nat := fld s .hifPoll 0 7 0 * 500

/-- Pace and release thresholds in ns (R24). -/
def paceThrNs (s : State) : Nat := fld s .fscPace 0 7 0 * 15625
def releaseThrNs (s : State) : Nat := fld s .fscPace 0 15 8 * 15625

/-- AVS limits in mV (R26, R27). -/
def avsMinMv (s : State) : Nat := 650 + 5 * fld s .avsCfg 0 5 0
def avsMaxMv (s : State) : Nat := 650 + 5 * fld s .avsCfg 0 13 8

/-- Patience of a class in ns (R259). -/
def vpePatNs (s : State) (c : Nat) : Nat :=
  1000 * (match c with
    | 0 => fld s .fscVpe01 0 9 0 | 1 => fld s .fscVpe01 0 25 16
    | 2 => fld s .fscVpe23 0 9 0 | _ => fld s .fscVpe23 0 25 16)
def clPatNs (s : State) (c : Nat) : Nat :=
  1000 * (match c with
    | 0 => fld s .fscCl01 0 13 0 | 1 => fld s .fscCl01 0 29 16
    | 2 => fld s .fscCl23 0 13 0 | _ => fld s .fscCl23 0 29 16)
def stealNs (s : State) : Nat := 1000 * fld s .fscAge 0 6 0

/-- Age at which a C2 or C3 op ranks as C1, in ns; none for the others (R257). -/
def ageNs (s : State) (c : Nat) : Option Nat :=
  match c with
  | 2 => some (1000000 * fld s .fscAge 0 14 8)
  | 3 => some (1000000 * fld s .fscAge 0 25 16)
  | _ => none

/-- Ballast of a class in cells (R310). -/
def ballast (s : State) (c : Nat) : Nat :=
  match c with
  | 0 => fld s .ballast01 0 15 0 | 1 => fld s .ballast01 0 31 16
  | 2 => fld s .ballast23 0 15 0 | _ => fld s .ballast23 0 31 16

/-- Mode of an Ethernet port (R385). -/
def ethMode (s : State) (p : Nat) : Nat := fld s .ethPortCfg p 2 0

/-- The MAC address of a port, as a 48-bit number (R385). -/
def ethMac (s : State) (p : Nat) : Nat := fld s .ethMacHi p 15 0 * 2 ^ 32 + (regVal s .ethMacLo p).toNat

/-- Mode of a TDM port (R359): 0 DISABLED, 1 PCM, 2 E1, 3 T1. -/
def tdmMode (s : State) (t : Nat) : Nat := fld s .tdmPortCfg t 1 0

/-- Whether a PRP pair is enabled, and its two ports (R385). -/
def prpEnabled (s : State) (n : Nat) : Bool := n < 16 && flag s .prpPairCfg n 16
def prpPortA (s : State) (n : Nat) : Nat := fld s .prpPairCfg n 4 0
def prpPortB (s : State) (n : Nat) : Nat := fld s .prpPairCfg n 12 8

/-- The running Control Image and Media Image (R496): no Media Image runs before step 6 of start-up has ended, nor in a
stop. -/
def runCim (s : State) : Option Image := if s.avl.cimSlot = 0 then s.avl.cimA else s.avl.cimB
def runMim (s : State) : Option Image :=
  if s.avl.stage = 6 || s.avl.stage = 7 then (if s.avl.mimSlot = 0 then s.avl.mimA else s.avl.mimB) else none

/-- The levels the running Control Image offers (R422). -/
def hifLevels (s : State) : Nat := match runCim s with | some i => i.hifLevels | none => 0

/-- Whether a level is offered. -/
def levelOffered (s : State) (l : Nat) : Bool := l < 16 && (hifLevels s).testBit l

/-! ### The committed configuration -/

/-- The retained part of a register value. -/
def retained (r : RegName) (v : BitVec 32) : BitVec 32 := v &&& accMask r .rwl

/-- The retained fields of every register that is not at its default, for a snapshot (R480). -/
def snapRegs (m : FMap (BitVec 32)) : FMap (BitVec 32) :=
  m.filterMap (fun e =>
    match regAt e.1 with
    | none => none
    | some (r, _) =>
      let v := retained r e.2
      if v = retained r (regDflt r) then none else some (e.1, v))

/-- The committed value of a register as the window of R531 shows it. -/
def committedAt (s : State) (off : Nat) : BitVec 32 :=
  match regAt off with
  | none => 0
  | some (r, _) => FMap.getD s.endp.committed.regs off (retained r (regDflt r))

/-- Offsets at which a register's retained fields differ from the window. -/
def diffOffsets (s : State) : List Nat :=
  ((FMap.keys s.regs ++ FMap.keys s.endp.committed.regs).foldl (fun l k => insNat k l) []).filter (fun off =>
    match regAt off with
    | none => false
    | some (r, _) => retained r (FMap.getD s.regs off (regDflt r)) != committedAt s off)

/-- ENDP_FIRST_DIFF.offset (R531). -/
def firstDiff (s : State) : Nat := (diffOffsets s).headD 0xFFFFFF

/-- Gate lists, wake patterns and gain tables as they stand now (R479). -/
def curGates (s : State) : FMap GateList :=
  s.eth.filterMap (fun e => e.2.gates.map (fun g => (e.1, g)))
def curWake (s : State) : FMap (FMap WakePattern) :=
  s.eth.filterMap (fun e => if e.2.wake = [] then none else some (e.1, e.2.wake))
def curGains (s : State) : FMap GainTable :=
  s.links.flatMap (fun e => (List.zip (List.range e.2.ants.length) e.2.ants).filterMap (fun a =>
    a.2.table.map (fun t => (2 * e.1 + a.1, t))))

/-- ENDP_FIRST_DIFF.other (R531). -/
def otherDiff (s : State) : Bool :=
  curGates s != s.endp.committed.gates || curWake s != s.endp.committed.wake ||
    curGains s != s.endp.committed.gains

/-- The uncommitted bit of ENDP_STATUS (R531). -/
def uncommitted (s : State) : Bool := firstDiff s != 0xFFFFFF || otherDiff s

end Sys2Proof.Machine
end

