-- ==== Sys2Proof/Machine/Ops.lean ====
section
/-! DEFINITION. The operations that every family shares: time, counters, free values, the entries and events of
rings, threshold notices, sessions, long operations, and the taking and completing of commands. -/

namespace Sys2Proof.Machine

open Sys2Proof

/-! ### Time, free values and counters -/

/-- Device time in ns (R38): the local timeline plus the offset. -/
def devTime (s : State) : Nat := (Int.ofNat s.clk.localNs + s.clk.offset).toNat

/-- Bring the local timeline up to an instant; it never goes back. -/
def advance (t : Ns) (s : State) : State := { s with clk := { s.clk with localNs := max s.clk.localNs t } }

/-- Device time of an instant of the local timeline. -/
def devOf (s : State) (t : Ns) : Nat := ((t : Int) + s.clk.offset).toNat

/-- Now on the local timeline. -/
def now (s : State) : Ns := s.clk.localNs

/-- Draw a free number (log entry 1). -/
def drawNat (s : State) : Nat × State := (Config.freeNat s.free, { s with free := s.free + 1 })

/-- Draw a free choice (log entry 1). -/
def drawBool (s : State) : Bool × State := (Config.freeBool s.free, { s with free := s.free + 1 })

/-- Draw octets of the true random number generator. -/
def drawBytes (n : Nat) (s : State) : Bytes × State :=
  (padTo n (Config.random s.free n), { s with free := s.free + 1 })

/-- Add to a counter in a list of counters. -/
def addCounter (l : List (CtrKey × BitVec 64)) (k : CtrKey) (n : Nat) : List (CtrKey × BitVec 64) :=
  match l with
  | [] => [(k, BitVec.ofNat 64 n)]
  | (j, v) :: r => if j = k then (j, v + BitVec.ofNat 64 n) :: r else (j, v) :: addCounter r k n

/-- Raise a counter by `n`; an amount of 0 leaves the counters as they are. -/
def bumpN (c : Ctr) (obj sub n : Nat) (s : State) : State :=
  if n = 0 then s else { s with counters := addCounter s.counters ⟨c, obj, sub⟩ n }

/-- Raise a counter by one. -/
def bump (c : Ctr) (obj : Nat) (s : State) : State := bumpN c obj 0 1 s

/-- Raise a counter kept per class, command, kind or direction. -/
def bumpSub (c : Ctr) (obj sub : Nat) (s : State) : State := bumpN c obj sub 1 s

/-- The value of a counter. -/
def counter (s : State) (c : Ctr) (obj : Nat) (sub : Nat := 0) : BitVec 64 :=
  match s.counters.find? (fun e => e.1 = ⟨c, obj, sub⟩) with
  | some e => e.2
  | none => 0

/-- The counters of an object end at its release (R420). -/
def dropCounters (cs : List Ctr) (obj : Nat) (s : State) : State :=
  { s with counters := s.counters.filter (fun e => !(cs.contains e.1.ctr && e.1.obj == obj)) }

/-- The missed deadlines of a flow end with it. -/
def dropMisses (f : Nat) (s : State) : State :=
  { s with counters := s.counters.filter (fun e => !(e.1.ctr == .deadlineMiss && e.1.obj == f && e.1.sub == 1)) }

/-- Put a figure. -/
def putFig (f : Fig) (obj sub : Nat) (v : Int) (s : State) : State :=
  { s with figs := (⟨f, obj, sub⟩, v) :: s.figs.filter (fun e => e.1 != ⟨f, obj, sub⟩) }

/-- Read a figure, 0 where none was put. -/
def fig (s : State) (f : Fig) (obj : Nat) (sub : Nat := 0) : Int :=
  match s.figs.find? (fun e => e.1 = ⟨f, obj, sub⟩) with
  | some e => e.2
  | none => 0

/-- Add to a figure. -/
def addFig (f : Fig) (obj sub : Nat) (v : Int) (s : State) : State := putFig f obj sub (fig s f obj sub + v) s

/-- The highest value of a figure since the last statistics block (R277). -/
def keepHigh (f : Fig) (v : Nat) (s : State) : State := if fig s f 0 < (v : Int) then putFig f 0 0 v s else s

/-! ### Endpaper (R477, R482) -/

/-- Change the lifetime counters. -/
def withLife (f : Lifetime → Lifetime) (s : State) : State := { s with endp := { s.endp with life := f s.endp.life } }

/-- A record is written to Endpaper: LT_ENDPAPER_WRITE rises by the lines it takes, one or more; how many the spec
leaves open (log entry 13). -/
def endpWrite (s : State) : State :=
  let d := drawNat s
  withLife (fun l => { l with endpaperWrite := l.endpaperWrite + 1 + d.1 }) d.2

/-- The lifetime counters at this instant: LT_POWER_ON_S runs on with time (R451, R482). -/
def lifeNow (s : State) : Lifetime :=
  { s.endp.life with powerOnS := s.endp.life.powerOnS + (now s - s.endp.lifeAt) / 1000000000 }

/-! ### Access to the device -/

/-- Whether the device runs: no reset is held and it has power. -/
def alive (s : State) : Bool := !s.avl.porHeld && s.avl.power ≠ 1

/-- Whether BAR0 serves every register (R524): step 4 of start-up has ended, and it has not stopped in RECOVERY. -/
def barOpen (s : State) : Bool := alive s && 3 ≤ s.avl.stage && s.avl.stage ≠ 9

/-- Take on an effect where a condition holds, and change nothing otherwise. -/
def onlyIf (c : Bool) (t s : State) : State := if c then t else s

/-! ### Rings -/

/-- Change a ring, if it exists. -/
def withRing (n : Nat) (f : Ring → Ring) (s : State) : State :=
  { s with hif := { s.hif with rings := FMap.adj s.hif.rings n f } }

/-- The ring of a number. -/
def ring? (s : State) (n : Nat) : Option Ring := FMap.get? s.hif.rings n

/-- Entries of a ring. -/
def Ring.size (r : Ring) : Nat := 2 ^ r.ctx.log2

/-- Entries of a CPL or EVT ring that the host has consumed and the device may write (R397). -/
def Ring.free (r : Ring) : Nat := r.size - dist32 r.devIdx r.hostIdx

/-- Position of an index in the ring (R392). -/
def Ring.pos (r : Ring) (i : BitVec 32) : Nat := i.toNat % r.size

/-- Entries, or posted buffers, that the host has made ready and the device has not used. -/
def Ring.avail (r : Ring) : Nat := dist32 r.hostIdx r.devIdx

/-- Count one entry towards a ring's vector (R418). -/
def msixCount (v : Nat) (s : State) : State :=
  let old := FMap.getD s.hif.msix v { count := 0, since := 0, sent := 0, pending := false }
  let new := { old with count := old.count + 1, since := if old.count = 0 then now s else old.since }
  { s with hif := { s.hif with msix := FMap.set s.hif.msix v new } }

/-- Count an entry of a ring, if its context asks for it. -/
def msixRing (r : Ring) (s : State) : State := if r.ctx.irqEn then msixCount r.ctx.vector s else s

/-- Set the phase bit of an entry: octet 2, bit 0 (R400, R402, R407, R416). -/
def setPhase (p : Nat) (d : Bytes) : Bytes :=
  d.take 2 ++ [BitVec.ofNat 8 ((byteAt d 2 / 2) * 2 + p)] ++ d.drop 3

/-- Write one CPL or EVT entry at the ring's index and count it. -/
def writeEntry (n : Nat) (d : Bytes) (s : State) : State :=
  match ring? s n with
  | none => s
  | some r =>
    let e := setPhase (phaseBit r.ctx.log2 r.devIdx) d
    msixRing r (withRing n (fun q =>
      { q with written := FMap.set q.written (q.pos q.devIdx) e, devIdx := q.devIdx + 1 }) s)

/-- Write an entry of a ring, or keep it while a write of the ring is failing (R399). -/
def putEntry (n : Nat) (d : Bytes) (s : State) : State :=
  match ring? s n with
  | none => s
  | some r => if r.dmaFail then withRing n (fun q => { q with pendW := q.pendW ++ [d] }) s else writeEntry n d s

/-! ### Events (R407) -/

/-- Octets of an event entry but for its phase bit. -/
def eventEntry (e : Event) : Bytes :=
  toLE 2 e.code ++ [BitVec.ofNat 8 (2 * b2n e.notice + 4 * b2n e.lost), 0] ++ toLE 4 e.seq.toNat ++
    toLE 8 e.time.toNat ++ padTo 48 e.body

/-- The EVT ring an event about an object set up through a CMD ring goes to; `none` names no CMD ring (R407). -/
def evtDest (s : State) (cmdRing : Option Nat) : Option Nat :=
  match cmdRing.bind (ring? s) with
  | some r =>
    if r.ctx.ty = .cmd && FMap.has s.hif.rings r.ctx.evtRing then some r.ctx.evtRing else globalRing s
  | none => globalRing s

/-- Whether an event ring can take an entry now. -/
def Ring.canWrite (r : Ring) : Bool := !r.stopped && !r.dmaFail && 0 < r.free

/-- Raise an event to a ring: written at once if the ring has room and nothing waits, kept in the backlog otherwise;
dropped, and counted, when 4 096 events that are not notices already wait. -/
def raiseAt (n : Nat) (code : Nat) (notice : Bool) (time : BitVec 64) (body : Bytes) (s : State) : State :=
  match ring? s n with
  | none => s
  | some r =>
    if !notice && 4096 ≤ (r.backlog.filter (fun e => !e.notice)).length then
      bump .evtDrop n (withRing n (fun q => { q with seq := q.seq + 1, lostFlag := true }) s)
    else
      let e : Event := { code, notice, lost := r.lostFlag, seq := r.seq, time, body }
      let s1 := withRing n (fun q => { q with seq := q.seq + 1, lostFlag := false }) s
      if r.canWrite && r.backlog.isEmpty then writeEntry n (eventEntry e) s1
      else withRing n (fun q => { q with backlog := q.backlog ++ [e] }) s1

/-- An event with no ring to go to: kept when it may not be dropped, counted otherwise. -/
def raiseNowhere (code : Nat) (notice keep : Bool) (body : Bytes) (s : State) : State :=
  if notice || keep then
    let e : Event := { code, notice, lost := false, seq := 0, time := BitVec.ofNat 64 (devTime s), body }
    { s with hif := { s.hif with waitGlobal := s.hif.waitGlobal ++ [e] } }
  else bump .evtDropDevice 0 s

/-- Raise an event about an object of a CMD ring (R407). -/
def raise (code : Nat) (cmdRing : Option Nat) (body : Bytes) (s : State) : State :=
  match evtDest s cmdRing with
  | some n => raiseAt n code false (BitVec.ofNat 64 (devTime s)) body s
  | none => raiseNowhere code false false body s

/-- Raise an event of start-up, which waits for the global event ring (R491). -/
def raiseStart (code : Nat) (body : Bytes) (s : State) : State :=
  match globalRing s with
  | some n => raiseAt n code false (BitVec.ofNat 64 (devTime s)) body s
  | none => raiseNowhere code false true body s

/-- Hand the events that wait for the global event ring to it (R491). -/
def flushGlobal (s : State) : State :=
  match globalRing s with
  | none => s
  | some n =>
    let w := s.hif.waitGlobal
    w.foldl (fun t e => raiseAt n e.code e.notice e.time e.body t) { s with hif := { s.hif with waitGlobal := [] } }

/-! ### Threshold notices (R409, R410) -/

/-- The outstanding notice of a code, object and mark. -/
def notice? (s : State) (code object : Nat) (mark : Bool := false) : Option Notice :=
  s.hif.notices.find? (fun n => n.code == code && n.object == object && n.mark == mark)

/-- Change the notices. -/
def withNotices (f : List Notice → List Notice) (s : State) : State :=
  { s with hif := { s.hif with notices := f s.hif.notices } }

/-- A crossing: raised once and kept outstanding; while outstanding it raises the count and
keeps the reason of the last one (R146, R409). -/
def crossing (code object : Nat) (mark : Bool) (reason : Nat) (value : Int) (body : Bytes) (cmdRing : Option Nat) (live : Bool)
    (s : State) : State :=
  match notice? s code object mark with
  | some _ =>
    withNotices (fun l => l.map (fun n =>
      if n.code == code && n.object == object && n.mark == mark then
        { n with count := n.count + 1, extreme := noticeExtreme code mark n.extreme value, live := live, reason } else n)) s
  | none =>
    let s1 := withNotices (fun l => l ++ [{ code, object, mark, count := 1, value, extreme := value, live, reason }]) s
    match evtDest s1 cmdRing with
    | some n => raiseAt n code true (BitVec.ofNat 64 (devTime s1)) body s1
    | none => raiseNowhere code true true body s1

/-- A crossing with the body of R409. -/
def crossed (code object reason : Nat) (value : Int) (cmdRing : Option Nat) (live : Bool) (s : State) : State :=
  crossing code object false reason value (noticeBody object reason value) cmdRing live s

/-- Follow the present value and condition of an outstanding notice. -/
def noticeLive (code object : Nat) (mark : Bool) (value : Option Int) (live : Bool) (s : State) : State :=
  withNotices (fun l => l.map (fun n =>
    if n.code == code && n.object == object && n.mark == mark then
      { n with extreme := match value with | some v => noticeExtreme code mark n.extreme v | none => n.extreme
               live := live } else n)) s

/-! ### Sessions and the setup lock (R434, R437) -/

/-- Raise SETUP_LOCK_CHANGE on the global event ring (R557). -/
def lockChange (locked : Bool) (cause ring expiry : Nat) (s : State) : State :=
  raise Ev.setupLockChange none (setupLockBody locked cause ring expiry) s

/-- Lock setup again if the ring's session holds the unlock. -/
def relock (ring cause : Nat) (s : State) : State :=
  match s.sec.unlock with
  | some (r, _) =>
    if r = ring then lockChange true cause ring 0 { s with sec := { s.sec with unlock := none } } else s
  | none => s

/-- End the session of a ring with a reason of R434. -/
def endSession (ring reason : Nat) (s : State) : State :=
  match FMap.get? s.sec.sessions ring with
  | none => s
  | some ses =>
    let s1 := { s with sec := { s.sec with sessions := FMap.del s.sec.sessions ring } }
    relock ring 3 (raise Ev.sessionEnd (some ring) (sessionEndBody ring ses.privilege reason) s1)

/-- The privilege of the commands of a ring: OWNER in the bring-up window (R427), none without a session. -/
def privOf (s : State) (ring : Nat) : Option Nat :=
  if !s.sec.enrolled then some 3 else (FMap.get? s.sec.sessions ring).map (·.privilege)

/-! ### Long operations (R406) -/

/-- Begin a long operation; `none` when 256 are accepted and not ended. -/
def beginLong (opcode : Nat) (tag : BitVec 32) (ring total : Nat) (s : State) : Option (Nat × State) :=
  if 256 ≤ s.hif.longOps.length then none
  else
    let id := s.hif.nextOpId
    let op : LongOp := { opId := id, opcode, tag, ring, position := 0, total, lastMille := 0, lastTime := now s }
    some (id, { s with hif := { s.hif with longOps := s.hif.longOps ++ [op], nextOpId := id + 1 } })

/-- The operation of an identifier. -/
def longOp? (s : State) (id : Nat) : Option LongOp := s.hif.longOps.find? (fun o => o.opId == id)

/-- Change a long operation. -/
def withLong (id : Nat) (f : LongOp → LongOp) (s : State) : State :=
  { s with hif := { s.hif with longOps := s.hif.longOps.map (fun o => if o.opId == id then f o else o) } }

/-- Per-mille of an operation. -/
def LongOp.mille (o : LongOp) : Nat := if o.total = 0 then 0 else min 1000 (1000 * o.position / o.total)

/-- Raise PROGRESS for an operation at its present position. -/
def raiseProgress (id : Nat) (s : State) : State :=
  match longOp? s id with
  | none => s
  | some o =>
    let s1 := withLong id (fun p => { p with lastMille := o.mille, lastTime := now s }) s
    raise Ev.progress (some o.ring) (longBody id o.tag o.opcode 0 o.mille o.position o.total []) s1

/-- Move an operation's position forward and raise PROGRESS when R406 asks for it. -/
def progress (id position : Nat) (s : State) : State :=
  let s1 := withLong id (fun o => { o with position := max o.position position }) s
  match longOp? s1 id with
  | none => s1
  | some o =>
    if o.lastMille + 10 ≤ o.mille || o.lastTime + 250000000 ≤ now s then raiseProgress id s1 else s1

/-- End an operation with DONE (status OK) or FAILED; a result longer than 16 octets takes a second event. -/
def endLong (id status : Nat) (result : Bytes) (s : State) : State :=
  match longOp? s id with
  | none => s
  | some o =>
    let code := if status = St.ok then Ev.done else Ev.failed
    let s1 := { s with hif := { s.hif with longOps := s.hif.longOps.filter (fun p => p.opId != id) } }
    let s2 := raise code (some o.ring)
      (longBody id o.tag o.opcode status o.mille o.position o.total (result.take 16)) s1
    if result.length ≤ 16 then s2
    else raise code (some o.ring) (longBody id o.tag o.opcode status 1000 o.position o.total (result.drop 16)) s2

/-! ### Taking and completing commands (R403, R405) -/

/-- What the tables of R404, R428, R471 and R498 say of a command: opcode, privilege (0 none, 4 any session, 5
OWNER_ENROL), the permitted block_len and whether the block must be readable or writable, and whether it is a set-up
that a MIRROR or a device without media refuses (R492, R511). -/
structure CmdSpec where
  opcode : Nat
  priv   : Nat
  lenOk  : Nat → Bool
  block  : Bool
  setup  : Bool

/-- The result of a command's own part: a completion, a completion followed by an effect, or a wait. -/
inductive CmdRes where
  | done (status : Nat) (result : Bytes) (s : State)
  | doneThen (status : Nat) (result : Bytes) (s : State) (post : State → State)
  | wait (s : State)

/-- Whether the command at the head of a CMD ring can be taken in the ring's turn (R403). -/
def offered (s : State) (n : Nat) : Bool :=
  match ring? s n with
  | none => false
  | some r =>
    r.ctx.ty = .cmd && !r.stopped && !r.readFail && r.held.isNone && 0 < r.avail && (s.avl.stage = 7 || s.avl.stage = 8 ||
      s.avl.stage = 10) && s.avl.power = 0 &&
    (match ring? s r.ctx.cplRing with | some c => !c.stopped && c.pendW.length < c.free | none => false)

/-- How far a ring stands behind the one served last in the turns of R403, in which the mailbox follows ring 511. -/
def ringTurn (s : State) (n : Nat) : Nat := (n + 512 - s.hif.lastTurn) % 513

/-- Whether the Control Image takes the command at the head of a CMD ring: it can be taken, and no ring is served before (R403). -/
def takeable (s : State) (n : Nat) : Bool :=
  offered s n && s.hif.rings.all (fun e => !offered s e.1 || decide (ringTurn s n ≤ ringTurn s e.1))

/-- The index the command at the head of a ring has. -/
def headIndex (s : State) (n : Nat) : BitVec 32 := match ring? s n with | some r => r.devIdx | none => 0

/-- The command is taken: the ring's index moves on and the session, if any, counts it (R434). -/
def take (n : Nat) (s : State) : State :=
  let s1 := withRing n (fun r => { r with devIdx := r.devIdx + 1 }) s
  { s1 with
    sec := { s1.sec with sessions := FMap.adj s1.sec.sessions n (fun c =>
      { c with commands := c.commands + 1, lastCmd := now s }) }
    hif := { s1.hif with lastTurn := n } }

/-- End a session that has reached 2^32 commands (R434, reason 5). -/
def countOut (n : Nat) (s : State) : State :=
  match FMap.get? s.sec.sessions n with
  | some c => if 2 ^ 32 ≤ c.commands then endSession n 5 s else s
  | none => s

/-- Checks 1 to 4 of R405. -/
def preStatus (c : CmdSpec) (h : CmdHdr) (s : State) : Nat :=
  if c.priv ≠ 0 ∧ c.priv ≠ 5 ∧ (privOf s h.ring).isNone then St.noSession
  else if c.priv ∈ [1, 2, 3] ∧ (privOf s h.ring).getD 0 < c.priv then St.denied
  else if !h.clean || !c.lenOk h.blockLen || (c.block && h.block.isNone) then St.badDesc
  else if c.setup && s.twin.role = 1 then St.twinState
  else if c.setup && (s.avl.stage = 8 || s.avl.stage = 10) then St.noCapacity
  else St.ok

/-- Write the completion of a command of a CMD ring, if its CPL ring still exists (R395, R402). -/
def complete (n opcode : Nat) (tag index : BitVec 32) (status : Nat) (result : Bytes) (s : State) : State :=
  match ring? s n with
  | some r => if r.ctx.ty = .cmd then putEntry r.ctx.cplRing (completionEntry opcode status tag index result) s else s
  | none => s

/-- A command waits and holds its ring (R403). -/
def hold (n : Nat) (h : Held) (s : State) : State := withRing n (fun r => { r with held := some h }) s

/-- Complete a command that held its ring: the ring goes on, and the completion is written if its CPL ring still
exists (R395, R403). -/
def completeHeld (n : Nat) (h : Held) (status : Nat) (result : Bytes) (s : State) : State :=
  let s1 := withRing n (fun r => { r with held := if r.held = some h then none else r.held }) s
  putEntry h.cpl (completionEntry h.opcode status h.tag h.index result) s1

/-- The record that a waiting command is held by. -/
def heldOf (opcode : Nat) (h : CmdHdr) (s : State) : Held :=
  match ring? s h.ring with
  | some r => ⟨opcode, h.tag, r.devIdx - 1, r.ctx.cplRing⟩
  | none => ⟨opcode, h.tag, 0, 0⟩

/-- Take and run a command of a CMD ring. A command that cannot be taken stays where it is (log entry 7). -/
def runCmd (c : CmdSpec) (h : CmdHdr) (own : State → CmdRes) (s : State) : State :=
  if takeable s h.ring then
    let idx := headIndex s h.ring
    let s1 := take h.ring s
    let st := preStatus c h s
    if st ≠ St.ok then countOut h.ring (complete h.ring c.opcode h.tag idx st [] s1)
    else
      match own s1 with
      | .done status result s2 => countOut h.ring (complete h.ring c.opcode h.tag idx status result s2)
      | .doneThen status result s2 post =>
        post (countOut h.ring (complete h.ring c.opcode h.tag idx status result s2))
      | .wait s2 => countOut h.ring (hold h.ring (heldOf c.opcode h s1) s2)
  else s

/-- A command without a parameter block. -/
def plainCmd (opcode priv : Nat) : CmdSpec := ⟨opcode, priv, (· == 0), false, false⟩

/-- A command with a block of a fixed length. -/
def blockCmd (opcode priv len : Nat) (setup : Bool := false) : CmdSpec := ⟨opcode, priv, (· == len), true, setup⟩

/-- The usual own part: a check that gives a status, and the effect of OK. -/
def checked (status : Nat) (effect : State) (s : State) : CmdRes :=
  if status = St.ok then .done St.ok [] effect else .done status [] s

/-- The own part of a long operation (R406): a check, BUSY when 256 are accepted and not ended, and ACCEPTED. -/
def acceptLong (opcode : Nat) (h : CmdHdr) (total status : Nat) (effect : Nat → State → State) (s : State) : CmdRes :=
  if status ≠ St.ok then .done status [] s
  else
    match beginLong opcode h.tag h.ring total s with
    | none => .done St.busy [] s
    | some (id, s1) => .done St.accepted (toLE 4 id) (effect id s1)

/-- The usual answer of a step. -/
abbrev Answer := Host.Outcome State Fault Refusal

/-- The block of a command, empty when it has none. -/
def blk (h : CmdHdr) : Bytes := h.block.getD []

end Sys2Proof.Machine
end

