-- ==== Sys2Proof/Machine/HostOps.lean ====
section
/-! DEFINITION. Operations on rings beyond entries and events: contexts, creation and destruction, the delivery of
received items, and the write-back of transmitted ones (R391 to R417). -/

namespace Sys2Proof.Machine

open Sys2Proof

/-- The type a code of R393 gives. -/
def ringTypeOf (c : Nat) : Option RingType :=
  match c with
  | 0 => some .cmd | 1 => some .cpl | 2 => some .evt | 3 => some .ptx | 4 => some .prx | 5 => some .recording
  | _ => none

/-- Whether a ring type posts buffers. -/
def RingType.hasBufs (t : RingType) : Bool := t = .prx || t = .recording

/-- The ring context of a 64-byte block, `none` where a field is out of range or does not apply (R393). -/
def parseCtx (n : Nat) (b : Bytes) : Option RingCtx :=
  match ringTypeOf (bits (byteAt b 2) 2 0) with
  | none => none
  | some ty =>
    let target := bits (byteAt b 2) 4 3
    let bufs := ty.hasBufs
    let q := leAt b 0x22 2
    let queueOk :=
      if ty = .prx then q = 0xFFFF || (8192 ≤ q && q ≤ 16383)
      else if ty = .ptx && target = 2 then 8192 ≤ q && q ≤ 16383
      else q = 0
    let size := leAt b 0x18 4
    let ok :=
      b.length = 64 && leAt b 0 2 = n && n < 512 && bits (byteAt b 2) 7 5 = 0 && (ty = .ptx || target = 0) &&
      target ≤ 2 && bits (byteAt b 6) 7 5 = 0 && 6 ≤ bits (byteAt b 6) 4 0 && bits (byteAt b 6) 4 0 ≤ 16 &&
      bits (byteAt b 7) 7 7 = 0 && leAt b 8 8 % 4096 = 0 &&
      (if bufs then leAt b 0x10 8 % 4096 = 0 && 256 ≤ size && size ≤ 65536 && size % 64 = 0 && leAt b 0x1C 2 ≤ 10000
       else zeroIn b 0x10 14) &&
      (if ty = .cmd then leAt b 0x1E 2 < 512 && leAt b 0x20 2 < 512 else zeroIn b 0x1E 4) && queueOk &&
      zeroIn b 0x24 28
    if ok then
      some { ty, target, level := byteAt b 3, gen := BitVec.ofNat 16 (leAt b 4 2), log2 := bits (byteAt b 6) 4 0,
             vector := bits (byteAt b 7) 5 0, irqEn := bit (byteAt b 7) 6, ringAddr := BitVec.ofNat 64 (leAt b 8 8),
             bufAddr := BitVec.ofNat 64 (leAt b 0x10 8), bufSize := size,
             holdUs := if bufs && leAt b 0x1C 2 = 0 then 200 else leAt b 0x1C 2,
             cplRing := leAt b 0x1E 2, evtRing := leAt b 0x20 2, queue := q }
    else none

/-- Results of HIF_RING_STATUS (R424). -/
abbrev Rr.ok : Nat := 0
abbrev Rr.badCtx : Nat := 1
abbrev Rr.badLevel : Nat := 2
abbrev Rr.inUse : Nat := 3
abbrev Rr.absent : Nat := 4

/-- A ring as CREATE leaves it: every index 0 (R394). -/
def Ring.fresh (c : RingCtx) : Ring :=
  { ctx := c, hostIdx := 0, devIdx := 0, slotIdx := 0, slotTime := 0, stopped := false, written := [],
    bufs := [], pendW := [], items := [], endIdx := 0, backlog := [], seq := 0, lostFlag := false, waiting := [],
    waitSince := 0, waitHigh := 0, starved := false, itemSeq := 0, held := none, readFail := false, dmaFail := false }

/-- Whether another ring's context meets a condition. -/
def otherRing (s : State) (n : Nat) (p : RingCtx → Bool) : Bool := s.hif.rings.any (fun e => e.1 != n && p e.2.ctx)

/-- Whether a ring names a host queue. -/
def RingCtx.namesQueue (c : RingCtx) (q : Nat) : Bool :=
  c.queue = q && (c.ty = .prx || (c.ty = .ptx && c.target = 2))

/-- The naming checks of CREATE (R394): the CPL and EVT ring of a CMD ring, the queue of a PTX or PRX ring. -/
def namesOk (s : State) (n : Nat) (c : RingCtx) : Bool :=
  (c.ty ≠ .cmd ||
    ((match ring? s c.cplRing with | some r => r.ctx.ty = .cpl && c.cplRing ≠ n | none => false) &&
     !otherRing s n (fun d => d.ty = .cmd && d.cplRing = c.cplRing) &&
     (match ring? s c.evtRing with | some r => r.ctx.ty = .evt && c.evtRing ≠ n | none => false))) &&
  (!(c.ty = .prx || (c.ty = .ptx && c.target = 2)) || c.queue = 0xFFFF ||
    (FMap.has s.qmg.queues c.queue && !otherRing s n (fun d => d.namesQueue c.queue)))

/-- Whether a CMD ring, or HIF_EVT_GLOBAL, names a CPL or EVT ring (R394). -/
def namedByCmd (s : State) (n : Nat) : Bool :=
  otherRing s n (fun d => d.ty = .cmd && (d.cplRing = n || d.evtRing = n))
def namedGlobal (s : State) (n : Nat) : Bool := flag s .evtGlobal 0 9 && fld s .evtGlobal 0 8 0 = n

/-- The checks of CREATE, in the order of R394. -/
def createStatus (s : State) (n : Nat) (ctx : Option RingCtx) : Nat :=
  match ctx with
  | none => Rr.badCtx
  | some c => if !levelOffered s c.level then Rr.badLevel else if !namesOk s n c then Rr.badCtx else Rr.ok

/-- No PTX descriptor of a ring is waited for any more (R395). -/
def forgetPtx (n : Nat) (s : State) : State :=
  let un := fun (p : Option (Nat × BitVec 32)) => match p with | some (m, _) => if m = n then none else p | none => p
  { s with
    eth := FMap.mapV s.eth (fun _ e =>
      { e with fifos := FMap.mapV e.fifos (fun _ l => l.map (fun f => { f with ptx := un f.ptx })) })
    txcs := FMap.mapV s.txcs (fun _ c =>
      { c with waiting := c.waiting.map (fun q => { q with ring := un q.ring })
               active := c.active.map (fun a => { a with req := { a.req with ring := un a.req.ring } }) }) }

/-- Take a ring away with the effects of R395 on its entries and items in flight. -/
def removeRing (n : Nat) (s : State) : State :=
  match ring? s n with
  | none => s
  | some r =>
    let s1 := { s with hif := { s.hif with rings := FMap.del s.hif.rings n } }
    match r.ctx.ty with
    | .cmd =>
      endSession n 2 { s1 with sec := { s1.sec with nonces := FMap.del s1.sec.nonces n } }
    | .ptx => forgetPtx n s1
    | .prx => bumpN .rxRingGone n 0 (r.waiting.filter (fun i => i.kind != 2)).length s1
    | .evt =>
      r.backlog.foldl (fun t e =>
        match globalRing t with
        | some g => raiseAt g e.code e.notice e.time e.body t
        | none => raiseNowhere e.code e.notice false e.body t) s1
    | _ => s1

/-- Put a fresh ring. -/
def putRing (n : Nat) (c : RingCtx) (s : State) : State :=
  { s with hif := { s.hif with rings := FMap.set s.hif.rings n (Ring.fresh c) } }

/-- Report the result of a ring operation. -/
def ringResult (code : Nat) (s : State) : State := { s with hif := { s.hif with busy := false, result := code } }

/-! ### Receive items (R414 to R417) -/

/-- Buffers an item needs. -/
def needed (bufSize len : Nat) : Nat := max 1 (cdiv len bufSize)

/-- The REC ring of a backlog segment: the one it names, or that of the recorder's settings for its voice channel, if
any (R338). -/
def segRing (s : State) (e : BacklogSeg) : Option Nat :=
  if e.ring < 512 then some e.ring
  else
    let n := fld s .recCtrl 0 12 8
    if n = 0 then none else some (fld s .recCtrl 0 24 16 + e.source % n)

/-- The oldest recording segment that waits for a ring (R338). -/
def recHead (s : State) (n : Nat) : Option Bytes :=
  (s.bce.backlog.find? (fun e => segRing s e == some n)).map (·.data)

/-- Octets of the oldest item that waits for a ring: a PRX ring's waiting list, the head of the queue that the item
is in, or the backlog for a REC ring. -/
def oldestLen (s : State) (n : Nat) : Option Nat :=
  match ring? s n with
  | none => none
  | some r =>
    if r.ctx.ty = .recording then (recHead s n).map (·.length)
    else
      match r.waiting with
      | [] => none
      | i :: _ =>
        if i.kind = 2 then
          ((FMap.get? s.qmg.queues i.source).bind (fun q => q.items.head?)).map (fun x => x.data.length)
        else some i.data.length

/-- Buffers that the oldest waiting item needs. -/
def oldestNeed (s : State) (n : Nat) : Option Nat :=
  match ring? s n with
  | none => none
  | some r => (oldestLen s n).map (needed r.ctx.bufSize)

/-- Keep the live bit of RING_STARVED (R411): nothing waits, or the posted buffers cover the oldest item. -/
def starvedLive (n : Nat) (s : State) : State :=
  match ring? s n with
  | none => s
  | some r =>
    let live := match oldestNeed s n with
      | none => true
      | some k => k ≤ r.avail
    noticeLive Ev.ringStarved n false none live s

/-- An item has become ready for a PRX ring: it waits in order, is dropped when it can never fit, or is dropped and
counted when the ring is absent (R395, R415). -/
def deliverItem (n : Nat) (i : PrxItem) (s : State) : State :=
  match ring? s n with
  | none => bump .rxRingGone n s
  | some r =>
    if r.ctx.ty ≠ .prx then bump .rxRingGone n s
    else if r.size < needed r.ctx.bufSize i.data.length then bump .rxRingToobig n s
    else
      starvedLive n (withRing n (fun q =>
        { q with waiting := q.waiting ++ [i], waitSince := if q.waiting.isEmpty then now s else q.waitSince
                 waitHigh := max q.waitHigh (q.waiting.length + 1) }) s)

/-- The oldest waiting item has gone; the next one is oldest from now (R417). -/
def popWaiting (n : Nat) (s : State) : State :=
  starvedLive n (withRing n (fun q => { q with waiting := q.waiting.drop 1, waitSince := now s, starved := false }) s)

/-- A receive descriptor (R416) but for its phase bit. -/
def rxDescriptor (len : Nat) (sop eop tsValid : Bool) (kind source itemLen : Nat) (seq : BitVec 32) (time : BitVec 64)
    (frac : BitVec 16) : Bytes :=
  toLE 2 len ++ [BitVec.ofNat 8 (2 * b2n sop + 4 * b2n eop + 8 * b2n tsValid), BitVec.ofNat 8 kind] ++ toLE 2 source ++
    zeros 2 ++ toLE 4 itemLen ++ toLE 4 seq.toNat ++ toLE 8 time.toNat ++ toLE 2 frac.toNat ++ zeros 6

/-- Write an item into the posted buffers of a ring with its descriptors (R415, R416); the buffers are there. -/
def writeItem (n : Nat) (i : PrxItem) (s : State) : State :=
  match ring? s n with
  | none => s
  | some r =>
    let k := needed r.ctx.bufSize i.data.length
    let put := fun (q : Ring) (j : Nat) =>
      let idx := r.devIdx + BitVec.ofNat 32 j
      let part := sub i.data (j * r.ctx.bufSize) r.ctx.bufSize
      let d := rxDescriptor part.length (j == 0) (j + 1 == k) i.tsValid i.kind i.source
        (if j = 0 then i.data.length else 0) r.itemSeq i.time i.frac
      { q with bufs := FMap.set q.bufs (r.pos idx) part
               written := FMap.set q.written (r.pos idx) (setPhase (phaseBit r.ctx.log2 idx) d) }
    let q := (List.range k).foldl put r
    let q1 := { q with devIdx := r.devIdx + BitVec.ofNat 32 k, itemSeq := r.itemSeq + 1 }
    let s1 := withRing n (fun _ => q1) s
    (List.range k).foldl (fun t _ => msixRing r t) s1

/-! ### Packet transmit write-back (R412, R413) -/

/-- Octets 0x10 to 0x1F of a PTX descriptor as the device writes them back. -/
def ptxBack (time : Nat) (status : Nat) : Bytes := toLE 8 time ++ toLE 2 status ++ toLE 2 1 ++ zeros 4

/-- Items that have ended at the front of a ring's list are passed (R413). -/
def passEnded (l : List (BitVec 32 × Bool)) (e : BitVec 32) : List (BitVec 32 × Bool) × BitVec 32 :=
  match l with
  | (i, true) :: r => passEnded r (i + 1)
  | o => (o, e)

/-- An item of a PTX ring ends: written back in its last descriptor and counted in ring order (R412, R413). -/
def endPtx (p : Option (Nat × BitVec 32)) (time status : Nat) (s : State) : State :=
  match p with
  | none => s
  | some (n, i) =>
    match ring? s n with
    | none => s
    | some r =>
      let l := r.items.map (fun e => if e.1 = i then (e.1, true) else e)
      let (l2, e2) := passEnded l r.endIdx
      msixRing r (withRing n (fun q =>
        { q with written := FMap.set q.written (q.pos i) (ptxBack time status), items := l2, endIdx := e2 }) s)

end Sys2Proof.Machine
end

