-- ==== Sys2Proof/Machine/Operands.lean ====
section
/-! DEFINITION. The parameter blocks of the commands: their fields as the machine holds them, and the ranges a block
must keep on its own (R48, R82, R106, R114, R152, R204, R209, R249). -/

namespace Sys2Proof.Machine

open Sys2Proof

/-- Bits [hi:lo] of the octet at an offset. -/
def fieldAt (b : Bytes) (off hi lo : Nat) : Nat := bits (byteAt b off) hi lo

/-- A signed octet. -/
def signedAt (b : Bytes) (off : Nat) : Int := sint 8 (byteAt b off)

/-- A field where 0 selects a default. -/
def orDefault (v d : Nat) : Nat := if v = 0 then d else v

/-! ### Voice channels (R48) -/

/-- The channel parameter block (R48); defaults of 0-coded fields are applied. -/
def chanParams (b : Bytes) : ChanParams :=
  { channel := leAt b 0 2, lineMode := byteAt b 4, port := byteAt b 5, slot := byteAt b 6, pktMode := byteAt b 8
    pktRef := leAt b 0x0A 2, codec := fieldAt b 0x0C 3 0, g726Rate := fieldAt b 0x0C 5 4, g726Pack := bit (byteAt b 0x0C) 6
    vad := bit (byteAt b 0x0C) 7, ptime := byteAt b 0x0D, opusKbps := orDefault (byteAt b 0x0E) 24
    opusCbr := bit (byteAt b 0x0F) 0, opusFec := bit (byteAt b 0x0F) 1, opusBw := fieldAt b 0x0F 3 2
    opusFrame := bit (byteAt b 0x0F) 4, opusLoss := byteAt b 0x10, preset := fieldAt b 0x11 1 0
    record := bit (byteAt b 0x11) 2, tail := fieldAt b 0x14 5 0, nlp := fieldAt b 0x14 7 6, erlMin := fieldAt b 0x15 1 0
    ansNlpOff := bit (byteAt b 0x15) 2, gainSend := signedAt b 0x16, gainRecv := signedAt b 0x17
    alcSend := bit (byteAt b 0x18) 0, alcRecv := bit (byteAt b 0x18) 1, muteSend := bit (byteAt b 0x18) 2
    muteRecv := bit (byteAt b 0x18) 3, alcTarget := orDefault (byteAt b 0x19) 18, dtmfDet := bit (byteAt b 0x1A) 0
    ansDet := bit (byteAt b 0x1A) 1, v21Det := bit (byteAt b 0x1A) 2, cngDet := bit (byteAt b 0x1A) 3
    dtmfRelay := bit (byteAt b 0x1A) 4, dtmfRegen := bit (byteAt b 0x1A) 5, vbdAuto := bit (byteAt b 0x1A) 6
    toneEvents := bit (byteAt b 0x1A) 7, dtmfMinOn := orDefault (byteAt b 0x1C) 40
    dtmfMinOff := orDefault (byteAt b 0x1D) 40, tePt := byteAt b 0x1E, vbdPt := byteAt b 0x1F }

/-- A DTMF time: 20 to 80 ms in steps of 5, or 0. -/
def dtmfMsOk (v : Nat) : Bool := v = 0 || (20 ≤ v && v ≤ 80 && v % 5 = 0)

/-- Reserved fields and ranges of a channel block (R48, R49). Fields that do not apply to the codec or packet mode
are ignored; te_pt applies where telephone events are sent or regenerated (DESIGN CHOICE, log entry 100: the spec does not say
when it applies, and reception compares it always). -/
def chanBlockOk (b : Bytes) : Bool :=
  let p := chanParams b
  leAt b 2 2 = 0 && byteAt b 7 = 0 && byteAt b 9 = 0 && fieldAt b 0x0F 7 5 = 0 && fieldAt b 0x11 7 3 = 0 && leAt b 0x12 2 = 0 &&
  fieldAt b 0x15 7 3 = 0 && fieldAt b 0x18 7 4 = 0 && byteAt b 0x1B = 0 && zeroIn b 0x20 32 &&
  p.channel ≤ 32767 && p.lineMode ≤ 2 && p.port ≤ 191 && p.slot ≤ 127 && p.pktMode ≤ 1 && p.codec ≤ 5 &&
  1 ≤ p.ptime && p.ptime ≤ 6 && p.preset ≤ 2 && p.tail ≤ 32 && p.nlp ≤ 2 && p.erlMin ≤ 2 &&
  -48 ≤ p.gainSend && p.gainSend ≤ 48 && -48 ≤ p.gainRecv && p.gainRecv ≤ 48 && 10 ≤ p.alcTarget && p.alcTarget ≤ 30 &&
  dtmfMsOk (byteAt b 0x1C) && dtmfMsOk (byteAt b 0x1D) &&
  (p.codec ≠ 5 ||
    (6 ≤ p.opusKbps && p.opusKbps ≤ 64 && p.opusBw ≤ 2 && p.opusLoss ≤ 100 && !(p.opusFrame && p.ptime % 2 = 1))) &&
  (if p.pktMode = 1 then p.codec = 3 && p.tail = 0
   else p.pktRef ≤ 32767 && p.vbdPt ≤ 127 &&
     (!(p.dtmfRelay || p.dtmfRegen) || (96 ≤ p.tePt && p.tePt ≤ 127)))

/-- Channel units of a use (R3, R53). -/
def unitsOf (p : ChanParams) : Nat :=
  (if p.pktMode = 1 then 2 else if p.codec ≤ 2 then 1 else if p.codec ≤ 4 then 2 else 4) + (if 16 < p.tail then 1 else 0)

/-- Octets that 10 ms of a codec's audio take, 0 for Opus (R53). -/
def codecOctets (codec g726Rate : Nat) : Nat :=
  match codec with
  | 0 | 1 | 4 => 80
  | 2 => 20 + 10 * g726Rate
  | 3 => 10
  | _ => 0

/-- Timeslots of a group: one, four for LIN16W or eight for LIN32W (R43, R117). -/
def groupSlots (law : Nat) : Nat := match law with | 2 => 4 | 3 => 8 | _ => 1

/-- Octets of the item that an op of a voice channel builds, 0 where it builds none (R20, R45): a line frame at LEVEL, a codec frame
at ENCODE, a packet at PACK. -/
def voiceItem (p : ChanParams) (d : Nat) : Nat :=
  let frame := if p.codec = 5 then cdiv (10 * p.opusKbps) 8 else codecOctets p.codec p.g726Rate
  match d with
  | 3 => 80 * groupSlots p.lineMode
  | 4 => frame
  | 5 => 12 + p.ptime * frame
  | _ => 0

/-! ### RTP contexts (R82, R106) -/

/-- The context parameter block (R82); defaults are applied. -/
def rtpParams (b : Bytes) : RtpParams :=
  let jb := fun off d => let v := leAt b off 2; if v = 0xFFFF then d else v
  { context := leAt b 0 2, ethPort := fieldAt b 4 4 0, ipv6 := bit (byteAt b 4) 5, rtcpMux := bit (byteAt b 4) 6
    srtp := bit (byteAt b 4) 7, ssrcFixed := bit (byteAt b 5) 0, ssrcFollow := bit (byteAt b 5) 1
    srcCheck := bit (byteAt b 5) 2, vlanEn := bit (byteAt b 5) 3, vlanId := bits (leAt b 6 2) 11 0
    pcp := bits (leAt b 6 2) 14 12, dscp := fieldAt b 8 5 0, hopLimit := orDefault (byteAt b 9) 64, tc := fieldAt b 0x0A 2 0
    localPort := leAt b 0x0C 2, remotePort := leAt b 0x0E 2, remoteRtcp := leAt b 0x10 2
    txSsrc := BitVec.ofNat 32 (leAt b 0x14 4), rxSsrc := BitVec.ofNat 32 (leAt b 0x18 4)
    txSeqInit := BitVec.ofNat 16 (leAt b 0x1C 2), audioPt := fieldAt b 0x1E 6 0, cnPt := fieldAt b 0x1F 6 0
    cnOff := bit (byteAt b 0x1F) 7, txTsInit := BitVec.ofNat 32 (leAt b 0x20 4), jbMin := jb 0x24 0, jbNom := jb 0x26 40
    jbMax := jb 0x28 500, repairFrames := fieldAt b 0x2A 1 0, rtcpInterval := orDefault (byteAt b 0x2B) 5
    rxTimeout := leAt b 0x2C 2, localAddr := sub b 0x30 16, remoteAddr := sub b 0x40 16, cnameLen := fieldAt b 0x50 5 0
    cname := sub b 0x58 (fieldAt b 0x50 5 0), nextHop := sub b 0x78 6 }

/-- Reserved fields and ranges of a context block (R82, R83). R83 excepts no field, so vlan_id keeps its range with vlan_en
clear too. -/
def rtpBlockOk (b : Bytes) : Bool :=
  let p := rtpParams b
  leAt b 2 2 = 0 && fieldAt b 5 7 4 = 0 && fieldAt b 7 7 7 = 0 && fieldAt b 8 7 6 = 0 && fieldAt b 0x0A 7 3 = 0 &&
  byteAt b 0x0B = 0 && leAt b 0x12 2 = 0 && fieldAt b 0x1E 7 7 = 0 && fieldAt b 0x2A 7 2 = 0 && leAt b 0x2E 2 = 0 &&
  fieldAt b 0x50 7 6 = 0 && zeroIn b 0x51 7 && leAt b 0x7E 2 = 0 &&
  p.context ≤ 32767 && 1 ≤ p.vlanId && p.vlanId ≤ 4094 && p.localPort % 2 = 0 && 1024 ≤ p.localPort &&
  1 ≤ p.remotePort && p.jbMin ≤ p.jbNom && p.jbNom ≤ p.jbMax && p.jbMax ≤ 500 && p.repairFrames ≤ 2 &&
  p.rtcpInterval ≤ 60 && 1 ≤ p.cnameLen && p.cnameLen ≤ 32 && zeroIn b (0x58 + p.cnameLen) (32 - p.cnameLen) &&
  (p.ipv6 || (zeroIn b 0x34 12 && zeroIn b 0x44 12))

/-- The key block of SRTP_KEY (R106). -/
def srtpKeyOf (b : Bytes) : SrtpKey :=
  { key := sub b 0x10 16, salt := sub b 0x20 14, roc := leAt b 4 4
    atSeq := if bit (byteAt b 8) 0 then some (BitVec.ofNat 16 (leAt b 0x0A 2)) else none
    used := 0, high := 0, seen := [], cIndex := 0, cHigh := 0, cSeen := [] }

/-- Reserved fields of a key block (R106). -/
def srtpKeyBlockOk (b : Bytes) : Bool :=
  fieldAt b 2 7 2 = 0 && byteAt b 3 = 0 && bits (leAt b 8 2) 15 1 = 0 && leAt b 0x0C 4 = 0 && zeroIn b 0x2E 18

/-! ### Teleprotection channels (R114) -/

/-- The teleprotection parameter block (R114); defaults are applied. -/
def tpParams (b : Bytes) : TpParams :=
  { tp := leAt b 0 2, src := byteAt b 4, srcPort := byteAt b 5, srcSlot := byteAt b 6, srcLaw := byteAt b 7
    sink := byteAt b 8, sinkPort := byteAt b 9, sinkSlot := byteAt b 0x0A, sinkLaw := byteAt b 0x0B
    guardHz := leAt b 0x0C 2, cmdHz := [leAt b 0x0E 2, leAt b 0x10 2, leAt b 0x12 2, leAt b 0x14 2]
    guardLvl := signedAt b 0x16, cmdLvl := signedAt b 0x17, dwell := orDefault (fieldAt b 0x18 4 0) 4
    prearm := bit (byteAt b 0x18) 5, wDet := fieldAt b 0x18 7 6, parallel := bit (byteAt b 0x19) 0
    auth := bit (byteAt b 0x19) 1, guardAlarm := orDefault (byteAt b 0x1A) 20, outMin := byteAt b 0x1B
    fail := [fieldAt b 0x1C 1 0, fieldAt b 0x1C 3 2, fieldAt b 0x1C 5 4, fieldAt b 0x1C 7 6]
    hbTimeout := orDefault (byteAt b 0x1D) 4, ttLimit := orDefault (byteAt b 0x1E) 10
    inBall := (List.range 4).map (fun i => byteAt b (0x20 + i)), outBall := (List.range 4).map (fun i => byteAt b (0x24 + i))
    transport := byteAt b 0x28, prpPair := byteAt b 0x29, ethPort := fieldAt b 0x2A 4 0, vlanEn := bit (byteAt b 0x2B) 0
    vlanId := bits (leAt b 0x2C 2) 11 0, pcp := bits (leAt b 0x2C 2) 14 12, etherType := orDefault (leAt b 0x2E 2) 0x88B5
    txLink := leAt b 0x30 2, rxLink := leAt b 0x32 2, localPort := leAt b 0x34 2, remotePort := leAt b 0x36 2
    dscp := fieldAt b 0x38 5 0, hopLimit := orDefault (byteAt b 0x39) 64, destMac := sub b 0x3A 6
    localAddr := sub b 0x40 16, remoteAddr := sub b 0x50 16 }

/-- Whether a side is on tones, and the tones that are set. -/
def TpParams.toned (p : TpParams) : Bool := p.src = 1 || p.sink = 1
def TpParams.cmdTones (p : TpParams) : List Nat := p.cmdHz.filter (· != 0)

/-- The least spacing of two set tones in Hz (R115). -/
def TpParams.spacing (p : TpParams) : Nat := match p.wDet with | 0 => 1000 | 1 => 500 | _ => 250

/-- Whether every two set tones keep their spacing. -/
def spaced (d : Nat) (l : List Nat) : Bool :=
  match l with
  | [] => true
  | f :: r => r.all (fun g => f + d ≤ g || g + d ≤ f) && spaced d r

/-- A tone of 300 to 3 400 Hz in steps of 5 Hz. -/
def toneHzOk (f : Nat) : Bool := 300 ≤ f && f ≤ 3400 && f % 5 = 0

/-- The balls that a channel's source and sink name, with their commands (R114). -/
def TpParams.srcBalls (p : TpParams) : List (Nat × Nat) :=
  if p.src = 2 then (List.zip (List.range 4) p.inBall).filter (fun e => e.2 != 0xFF) else []
def TpParams.sinkBalls (p : TpParams) : List (Nat × Nat) :=
  if p.sink = 2 then (List.zip (List.range 4) p.outBall).filter (fun e => e.2 != 0xFF) else []
def TpParams.balls (p : TpParams) : List Nat := (p.srcBalls ++ p.sinkBalls).map (·.2)

/-- Reserved fields and ranges of a teleprotection block (R114, R115): fields of a side count where the side is used. The set
tones whose spacing is checked are the command tones and the guard tone (DESIGN CHOICE, log entry 108: the spec does not say
whether the guard is one of them). -/
def tpBlockOk (b : Bytes) : Bool :=
  let p := tpParams b
  leAt b 2 2 = 0 && fieldAt b 0x19 7 2 = 0 && byteAt b 0x1F = 0 && fieldAt b 0x2A 7 5 = 0 && fieldAt b 0x2B 7 1 = 0 &&
  fieldAt b 0x2D 7 7 = 0 && fieldAt b 0x38 7 6 = 0 && zeroIn b 0x60 32 &&
  p.tp ≤ 511 && p.src ≤ 3 && p.sink ≤ 2 &&
  (p.src ≠ 1 || (p.srcPort ≤ 191 && p.srcSlot ≤ 127 && p.srcLaw ≤ 3)) &&
  (p.sink ≠ 1 || (p.sinkPort ≤ 191 && p.sinkSlot ≤ 127 && p.sinkLaw ≤ 3)) &&
  (!p.toned ||
    (p.wDet ≤ 2 && toneHzOk p.guardHz && p.cmdTones.all toneHzOk && p.cmdTones ≠ [] && -80 ≤ p.guardLvl && p.guardLvl ≤ 0 &&
     -80 ≤ p.cmdLvl && p.cmdLvl ≤ 0 && spaced p.spacing (p.guardHz :: p.cmdTones) &&
     (p.srcBalls ++ p.sinkBalls).all (fun e => p.cmdHz.getD e.1 0 != 0))) &&
  (p.src = 0 || p.src = 3 || p.dwell ≤ 20) && (p.src ≠ 1 || (5 ≤ p.guardAlarm && p.guardAlarm ≤ 200)) && p.outMin ≤ 200 && p.fail.all (· ≤ 2) &&
  2 ≤ p.hbTimeout && p.hbTimeout ≤ 50 && p.ttLimit ≤ 50 && p.balls.all (· ≤ 31) && p.balls.Nodup && p.transport ≤ 2 &&
  (p.prpPair ≤ 15 || p.prpPair = 0xFF) && (!p.vlanEn || (1 ≤ p.vlanId && p.vlanId ≤ 4094)) &&
  (p.transport = 0 ||
    (1024 ≤ p.localPort && 1 ≤ p.remotePort && (p.transport = 2 || (zeroIn b 0x44 12 && zeroIn b 0x54 12))))

/-! ### Radio channels, gain tables and talk groups (R152, R168, R204, R209) -/

/-- The receive channel block (R152); defaults are applied. -/
def rxcParams (b : Bytes) : RxcParams :=
  { rx := leAt b 0 2, link := fieldAt b 2 2 0, antenna := fieldAt b 2 3 3, bw := fieldAt b 3 1 0, preset := fieldAt b 3 3 2
    modeE := bit (byteAt b 3) 4, centreHz := sint 32 (leAt b 4 4), sfMask := byteAt b 8, pkThr := orDefault (byteAt b 9) 36
    pq := orDefault (fieldAt b 0x0A 3 0) 4, swErrs := fieldAt b 0x0B 2 0, sync := BitVec.ofNat 32 (leAt b 0x0C 4)
    eThr := orDefault (byteAt b 0x10) 24, eq_ := orDefault (byteAt b 0x11) 4, capture := fieldAt b 0x12 1 0
    margin := orDefault (byteAt b 0x13) 24, errored := bit (byteAt b 0x14) 0, ring := leAt b 0x16 2 }

/-- Reserved fields and ranges of a receive channel block (R152, R153). -/
def rxcBlockOk (b : Bytes) : Bool :=
  let p := rxcParams b
  fieldAt b 2 7 4 = 0 && fieldAt b 3 7 5 = 0 && fieldAt b 0x0A 7 4 = 0 && fieldAt b 0x0B 7 3 = 0 && fieldAt b 0x12 7 2 = 0 &&
  fieldAt b 0x14 7 1 = 0 && byteAt b 0x15 = 0 && zeroIn b 0x18 40 &&
  p.rx ≤ 511 && p.preset ≤ 2 && p.sfMask ≠ 0 && 24 ≤ p.pkThr && p.pkThr ≤ 80 && 3 ≤ p.pq && p.pq ≤ 8 && p.swErrs ≤ 4 &&
  12 ≤ p.eThr && p.eThr ≤ 120 && 2 ≤ p.eq_ && p.eq_ ≤ 16 && p.capture ≤ 2 && 4 ≤ p.margin && p.margin ≤ 120 &&
  (!p.modeE || p.pq ≤ p.eq_)

/-- The gain table of a block (R168). -/
def gainTableOf (b : Bytes) : GainTable :=
  { start := let i := fieldAt b 2 6 0; if i = 0x7F then byteAt b 1 - 1 else i
    entries := (List.range (byteAt b 1)).map (fun i => (sint 16 (leAt b (8 + 8 * i) 2), BitVec.ofNat 32 (leAt b (0x0C + 8 * i) 4))) }

/-- Gains rise strictly. -/
def rising (l : List Int) : Bool := (List.zip l (l.drop 1)).all (fun p => p.1 < p.2)

/-- Reserved fields and ranges of a gain table block (R168). -/
def gainTableOk (b : Bytes) : Bool :=
  let n := byteAt b 1
  let g := gainTableOf b
  fieldAt b 0 7 4 = 0 && fieldAt b 2 7 7 = 0 && byteAt b 3 = 0 && leAt b 4 4 = 0 && 2 ≤ n && n ≤ 128 && g.start < n &&
  (List.range n).all (fun i => leAt b (0x0A + 8 * i) 2 == 0) && rising (g.entries.map (·.1))

/-- A transmit channel as its block sets it up (R204); defaults are applied. -/
def txcOf (ring : Nat) (b : Bytes) : Txc :=
  { tx := leAt b 0 2, link := fieldAt b 2 2 0, bw := fieldAt b 3 1 0, centreHz := sint 32 (leAt b 4 4)
    sync := BitVec.ofNat 32 (leAt b 8 4), preamble := orDefault (leAt b 0x0C 2) 8, level := byteAt b 0x0E
    latency := leAt b 0x10 4, ptxRing := leAt b 0x14 2, ringCmd := ring, waiting := [], active := none, releasing := false }

/-- Reserved fields and ranges of a transmit channel block (R204). -/
def txcBlockOk (b : Bytes) : Bool :=
  let c := txcOf 0 b
  fieldAt b 2 7 3 = 0 && fieldAt b 3 7 2 = 0 && byteAt b 0x0F = 0 && zeroIn b 0x16 42 && c.tx ≤ 127 && 6 ≤ c.preamble &&
  c.preamble ≤ 1023 && c.level ≤ 160 && c.latency ≤ 100000

/-- A talk group as its block sets it up (R209); defaults are applied. -/
def groupOf (ring : Nat) (b : Bytes) : Group :=
  { group := leAt b 0 2, tx := fieldAt b 2 6 0, sec := bit (byteAt b 2) 7
    rxs := ((List.range 4).map (fun i => leAt b (4 + 2 * i) 2)).filter (· != 0xFFFF)
    hangMs := orDefault (leAt b 0x0C 2) 200, addr := BitVec.ofNat 64 (leAt b 0x10 8), ring, talker := none, turn := none
    frames := [] }

/-- Reserved fields and ranges of a talk group block (R209). -/
def groupBlockOk (b : Bytes) : Bool :=
  let g := groupOf 0 b
  byteAt b 3 = 0 && leAt b 0x0E 2 = 0 && zeroIn b 0x18 8 && 50 ≤ g.hangMs && g.hangMs ≤ 2000 && g.rxs.all (· ≤ 511)

/-- A radio transmit record (R205) without its payload. -/
def txRecord (d : Bytes) : TxReq :=
  { ring := none, sf := fieldAt d 2 3 0, cr := fieldAt d 2 5 4, sec := bit (byteAt d 2) 6, ptt := false, group := 0
    launch := if bit (byteAt d 2) 7 then some (leAt d 0x10 8) else none, preamble := leAt d 6 2, stream := leAt d 4 2
    addr := BitVec.ofNat 64 (leAt d 8 8), payload := d.drop 32, built := false, cells := 0 }

end Sys2Proof.Machine
end

