-- ==== Sys2Proof/Machine/QueueOps.lean ====
section
/-! DEFINITION. Operations of the queue manager: pools and ballast, marks, linking, taking, flushing and severing
(R293 to R315). -/

namespace Sys2Proof.Machine

open Sys2Proof

/-- Cells of an item of a length (R293). -/
def cellsOf (len : Nat) : Nat := max 1 (cdiv len 64)

/-- Cells of an item. -/
def Item.cells (i : Item) : Nat := cellsOf i.data.length

/-! ### Pools (R295, R308, R309) -/

/-- Change the queue manager. -/
def withQmg (f : Qmg → Qmg) (s : State) : State := { s with qmg := f s.qmg }

/-- Change a queue, if it is set up. -/
def withQueue (n : Nat) (f : Queue → Queue) (s : State) : State :=
  withQmg (fun q => { q with queues := FMap.adj q.queues n f }) s

/-- The queue of a number. -/
def queue? (s : State) (n : Nat) : Option Queue := FMap.get? s.qmg.queues n

/-- Cells of received items of a kind that wait for a PRX ring, on-chip or in the extension: they hold them until the host has the
item (R20, R308). -/
def ringCells (s : State) (kind : Nat) (ext : Bool) : Nat :=
  (s.hif.rings.map (fun r =>
    ((r.2.waiting.filter (fun i => i.kind == kind && i.ext == ext)).map (fun i => cellsOf i.data.length)).sum)).sum

/-- Cells that the items of voice channels' ops hold from their completion to their release (R20). -/
def voiceCells (s : State) : Nat :=
  (s.chans.map (fun c =>
    match FMap.get? s.fsc.flows c.1 with
    | none => 0
    | some fl => (fl.insts.map (fun x => ((x.ops.filter (fun o => o.st = .completed && 0 < voiceItem c.2.p o.node)).map (fun o =>
        cellsOf (voiceItem c.2.p o.node))).sum)).sum)).sum

/-- Cells that the symbol items of transmissions hold until they start (R207). -/
def txCells (s : State) : Nat := (s.txcs.map (fun c => (c.2.waiting.map (·.cells)).sum)).sum

/-- u_c: on-chip cells held by a class (R308): of queues, of frames that Ethernet and radio have received, of voice frames, of
transmissions. -/
def heldCells (s : State) (c : Nat) : Nat :=
  FMap.getD s.qmg.occ c 0 +
    (if c = 1 then ringCells s 0 false + voiceCells s else if c = 2 then ringCells s 1 false + txCells s else 0)

/-- F: free on-chip cells (R308). -/
def freeCells (s : State) : Nat :=
  262144 - ((FMap.vals s.qmg.occ).sum + ringCells s 0 false + ringCells s 1 false + voiceCells s + txCells s + s.qmg.tethered + FMap.getD s.qmg.orphans 9 0 + FMap.getD s.qmg.late 9 0)

/-- U_c: unused ballast of a class. -/
def unusedBallast (s : State) (c : Nat) : Nat := ballast s c - heldCells s c

/-- S: the shared free count; negative while a raised ballast is being filled (R310). -/
def sharedFree (s : State) : Int :=
  (freeCells s : Int) - ((unusedBallast s 0 + unusedBallast s 1 + unusedBallast s 2 + unusedBallast s 3 : Nat) : Int)

/-- What a reservation may draw on: S for a tethered item, S + U_c otherwise (R308). -/
def allowance (s : State) (c : Nat) (tether : Bool) : Int :=
  if tether then sharedFree s else sharedFree s + (unusedBallast s c : Int)

/-- Free cells of the extension. -/
def freeExt (s : State) : Nat := s.qmg.extSize - (s.qmg.extUsed + ringCells s 0 true + ringCells s 1 true)

/-- The pool for a new reservation of n cells: on-chip, the extension, or none (R308, R309). -/
def choosePool (s : State) (cls placement n : Nat) (tether : Bool) : Option Bool :=
  let a := allowance s cls tether
  let onchip := (n : Int) ≤ a
  let ext := n ≤ freeExt s
  if s.qmg.freeRebuild || s.qmg.freeLate then none
  else if cls = 0 || placement = 0 then (if onchip then some false else none)
  else if placement = 2 then (if ext then some true else none)
  else if onchip && (fld s .qmgSpill 0 17 0 : Int) ≤ a - (n : Int) then some false
  else if ext then some true else none

/-- Take cells. -/
def allocCells (cls n : Nat) (ext tether : Bool) (s : State) : State :=
  withQmg (fun q =>
    if ext then { q with extUsed := q.extUsed + n }
    else if tether then { q with tethered := q.tethered + n }
    else { q with occ := FMap.set q.occ cls (FMap.getD q.occ cls 0 + n) }) s

/-- Give cells back. -/
def returnCells (cls n : Nat) (ext tether : Bool) (s : State) : State :=
  withQmg (fun q =>
    if ext then { q with extUsed := q.extUsed - n }
    else if tether then { q with tethered := q.tethered - n }
    else { q with occ := FMap.set q.occ cls (FMap.getD q.occ cls 0 - n) }) s

/-- Cells become orphans: they stay counted until a sweep that began after this reclaims them (R312). -/
def orphanCells (cls n : Nat) (ext : Bool) (s : State) : State :=
  withQmg (fun q =>
    match q.sweep, ext with
    | false, false => { q with orphans := FMap.set q.orphans cls (FMap.getD q.orphans cls 0 + n) }
    | false, true => { q with orphansExt := q.orphansExt + n }
    | true, false => { q with late := FMap.set q.late cls (FMap.getD q.late cls 0 + n) }
    | true, true => { q with lateExt := q.lateExt + n }) s

/-! ### Figures of a queue (R300) -/

/-- The level: cells of linked items that are not tethered. -/
def Queue.level (q : Queue) : Nat := ((q.items.filter (fun i => !i.tether)).map Item.cells).sum

/-- The whole-item counter, 24 bits. -/
def Queue.itemCount (q : Queue) : Nat :=
  ((q.items.filter (fun i => !i.tether)).length + b2n q.taken.isSome) % 2 ^ 24

/-- Cells of the taken item that its consumer has not passed (R302). -/
def takenLeft (t : Item × Nat) : Nat :=
  let words := cdiv t.1.data.length 4
  if words ≤ t.2 then 0 else t.1.cells - t.2 / 16

/-- Cells that count against max_cells. -/
def queueCells (s : State) (n : Nat) (q : Queue) : Nat :=
  (q.items.map Item.cells).sum + (match q.taken with | some t => takenLeft t | none => 0) +
    (match q.inProg with | some p => p.1 | none => 0) +
    ((s.qmg.staged.filter (fun e => e.queue == n)).map (fun e => e.item.cells)).sum

/-! ### Marks (R313, R314) -/

/-- Body of QUEUE_MARK (R314). -/
def markBody (n : Nat) (low : Bool) (level : Nat) : Bytes := padTo 48 (toLE 2 n ++ toLE 1 (b2n low) ++ zeros 1 ++ toLE 3 level)

/-- The mark of a queue. -/
def Queue.mark (q : Queue) (low : Bool) : Mark := if low then q.low else q.high

/-- Replace a mark. -/
def Queue.setMark (q : Queue) (low : Bool) (m : Mark) : Queue :=
  if low then { q with low := m } else { q with high := m }

/-- Whether a move from one level to another crosses an armed mark. -/
def Mark.crosses (m : Mark) (low : Bool) (old new : Nat) : Bool :=
  m.enable && m.armed &&
    (if low then m.value < old && new ≤ m.value else old < m.value && m.value ≤ new)

/-- Whether a level re-arms a mark. -/
def Mark.rearms (m : Mark) (low : Bool) (hyst new : Nat) : Bool :=
  if low then m.value + hyst ≤ new else new + hyst ≤ m.value

/-- The further of two levels on a mark's side. -/
def furtherLevel (low : Bool) (a b : Nat) : Nat := if low then min a b else max a b

/-- One mark after a level change. -/
def evalMark (n : Nat) (low : Bool) (old new : Nat) (s : State) : State :=
  match queue? s n with
  | none => s
  | some q =>
    let m := q.mark low
    let live := if low then m.value < new else new < m.value
    let out := (notice? s Ev.queueMark n low).isSome
    if m.crosses low old new then
      let m1 := { m with armed := false, first := if out then m.first else new
                         extreme := if out then furtherLevel low m.extreme new else new }
      crossing Ev.queueMark n low 0 new (markBody n low new) (some q.ring) live (withQueue n (fun r => r.setMark low m1) s)
    else
      let m1 := { m with armed := m.armed || m.rearms low q.hyst new
                         extreme := if out then furtherLevel low m.extreme new else m.extreme }
      noticeLive Ev.queueMark n low (some new) live (withQueue n (fun r => r.setMark low m1) s)

/-- Both marks after a level change. -/
def levelMoved (n old : Nat) (s : State) : State :=
  match queue? s n with
  | none => s
  | some q =>
    if q.level = old then s else evalMark n true old q.level (evalMark n false old q.level s)

/-- Change a queue and evaluate its marks. -/
def moveQueue (n : Nat) (f : Queue → Queue) (s : State) : State :=
  match queue? s n with
  | none => s
  | some q => levelMoved n q.level (withQueue n f s)

/-! ### Linking and taking (R299 to R302) -/

/-- The PRX ring that names a queue, if any. -/
def prxOf (s : State) (n : Nat) : Option Nat :=
  (s.hif.rings.find? (fun e => e.2.ctx.ty == .prx && e.2.ctx.queue == n)).map (·.1)

/-- The class of a queue. -/
def queueClass (s : State) (n : Nat) : Nat := match queue? s n with | some q => q.cls | none => 0

/-- Drop an item whole at a position of a queue: its cells are freed and the level falls. -/
def pullItem (n i : Nat) (s : State) : State :=
  match queue? s n with
  | none => s
  | some q =>
    match q.items[i]? with
    | none => s
    | some x =>
      returnCells q.cls x.cells x.ext x.tether (moveQueue n (fun r => { r with items := r.items.eraseIdx i }) s)

/-- The item at a position of a queue is ready for the PRX ring that names the queue: it waits for buffers, or, too
large for the ring, it is dropped at once (R415). -/
def offerItem (r n i : Nat) (s : State) : State :=
  match queue? s n, ring? s r with
  | some q, some g =>
    match q.items[i]? with
    | none => s
    | some x =>
      if g.size < needed g.ctx.bufSize x.data.length then
        bump .rxRingToobig r (bump .dropRest n (pullItem n i s))
      else deliverItem r ⟨2, n, [], false, 0, 0, false⟩ s
  | _, _ => s

/-- Link an item at the tail: the arrival is presented to the ordering point and to a ring that names the queue. -/
def linkItem (n : Nat) (i : Item) (s : State) : State :=
  let s1 := moveQueue n (fun q => { q with items := q.items ++ [i] }) s
  let s2 := { s1 with fsc := { s1.fsc with presented := s1.fsc.presented ++ [.arrival n] } }
  match prxOf s2 n, queue? s2 n with
  | some r, some q => offerItem r n (q.items.length - 1) s2
  | _, _ => s2

/-- Reserve cells for an item, whole or one step of a streaming producer, and the pool it lies in; `none` when
refused (R301). -/
def reserveAt (s : State) (n cells : Nat) : Option Bool :=
  match queue? s n with
  | none => none
  | some q =>
    match q.inProg with
    | none => choosePool s q.cls q.placement cells false
    | some (_, ext) =>
      if s.qmg.freeRebuild || s.qmg.freeLate then none
      else if ext then (if cells ≤ freeExt s then some true else none)
      else if (cells : Int) ≤ allowance s q.cls false then some false else none

/-- Whether max_cells refuses a reservation (R301). -/
def overLimit (s : State) (n cells : Nat) : Bool :=
  match queue? s n with
  | none => false
  | some q => q.maxCells < queueCells s n q + cells

/-- The item in progress is severed: its cells are freed, and its producer's words are discarded up to the next end
mark (R303, R304). -/
def sever (n : Nat) (s : State) : State :=
  match queue? s n with
  | none => s
  | some q =>
    match q.inProg with
    | none => s
    | some (c, ext) =>
      bump .severed n (returnCells q.cls c ext false (withQueue n (fun r => { r with inProg := none, discarding := true }) s))

/-- Items of the ring that names a queue no longer wait for it. -/
def unofferQueue (n : Nat) (s : State) : State :=
  match prxOf s n with
  | none => s
  | some r => starvedLive r (withRing r (fun q =>
      { q with waiting := q.waiting.filter (fun i => !(i.kind == 2 && i.source == n)) }) s)

/-- Flush a queue (R305): linked items are freed and counted, the item in progress is severed. -/
def flushQueue (n : Nat) (s : State) : State :=
  match queue? s n with
  | none => s
  | some q =>
    let s1 := q.items.foldl (fun t i => returnCells q.cls i.cells i.ext i.tether t) s
    let s2 := moveQueue n (fun r => { r with items := [] }) s1
    sever n (bumpN .qFlushed n 0 q.items.length (unofferQueue n s2))

/-- Cells that a flush frees: those of the linked items and of the item in progress. -/
def flushCells (q : Queue) : Nat :=
  (q.items.map Item.cells).sum + (match q.inProg with | some p => p.1 | none => 0)

/-- The counters a queue keeps (R315). -/
def queueCtrs : List Ctr := [.severed, .qFlushed, .dropRest, .qLimit]

/-- A queue's number is free (R298). -/
def removeQueue (n : Nat) (s : State) : State :=
  dropCounters queueCtrs n (withQmg (fun q => { q with queues := FMap.del q.queues n }) s)

/-- A release that waited for the taken item completes (R298). -/
def finishRelease (n : Nat) (s : State) : State :=
  match queue? s n with
  | none => s
  | some q =>
    match q.releasing, q.taken with
    | some (r, h), none => completeHeld r h St.ok [] (removeQueue n (flushQueue n s))
    | _, _ => s

/-- The taken item of a queue has gone: what is left of its cells is freed (R302). -/
def endTaken (n : Nat) (s : State) : State :=
  match queue? s n with
  | none => s
  | some q =>
    match q.taken with
    | none => s
    | some t =>
      finishRelease n (returnCells q.cls (takenLeft t) t.1.ext false (withQueue n (fun r => { r with taken := none }) s))

/-! ### Integrity and the sweep (R311, R312) -/

/-- A sweep is to start within 1 ms, or after the one that runs. -/
def wantSweep (s : State) : State :=
  withQmg (fun q => if q.sweep then { q with sweepQueued := true } else { q with sweepDue := true }) s

/-- Body of QUEUE_INTEGRITY (R311). -/
def integrityBody (n whereCode cell lost level : Nat) : Bytes :=
  padTo 48 (toLE 2 n ++ toLE 1 whereCode ++ zeros 1 ++ toLE 4 (cell % 2 ^ 25) ++ toLE 3 lost ++ zeros 1 ++ toLE 3 level)

/-- The CMD ring whose events a queue's are. -/
def queueRing (s : State) (n : Nat) : Option Nat := (queue? s n).map (·.ring)

/-- Raise and count one occurrence of QUEUE_INTEGRITY. -/
def integrityEvent (n whereCode cell lost level : Nat) (s : State) : State :=
  raise Ev.queueIntegrity (queueRing s n) (integrityBody n whereCode cell lost level) (bump .qIntegrity 0 s)

/-- A queue is reset (R311): its linked items become orphans, the item in progress is severed. -/
def resetQueue (n : Nat) (s : State) : State :=
  match queue? s n with
  | none => s
  | some q =>
    let s1 := q.items.foldl (fun t i => orphanCells q.cls i.cells i.ext t) s
    sever n (unofferQueue n (moveQueue n (fun r => { r with items := [] }) s1))

end Sys2Proof.Machine
end

