-- ==== Sys2Proof/Machine/Host.lean ====
section
/-! DEFINITION. The host interface: ring operations, the doorbell and index pages, transfers that fail, events,
notices, MSI-X and the reset of the interface (R387 to R425). -/

namespace Sys2Proof.Machine

open Sys2Proof

/-! ### Ring operations (R394, R395) -/

/-- The result of CREATE (R394). -/
def ringCreateStatus (s : State) (n : Nat) (b : Option Bytes) : Nat :=
  if FMap.has s.hif.rings n then Rr.inUse else createStatus s n (b.bind (parseCtx n))

/-- The result of RESET (R394). -/
def ringResetStatus (s : State) (n : Nat) (b : Option Bytes) : Nat :=
  match ring? s n with
  | none => Rr.absent
  | some r =>
    match b.bind (parseCtx n) with
    | none => Rr.badCtx
    | some c =>
      if (namedByCmd s n || namedGlobal s n) && c.ty ≠ r.ctx.ty then Rr.inUse
      else if c.gen = r.ctx.gen then Rr.badCtx
      else createStatus s n (some c)

/-- The result of DESTROY (R394). -/
def ringDestroyStatus (s : State) (n : Nat) : Nat :=
  match ring? s n with
  | none => Rr.absent
  | some r => if (namedByCmd s n && r.ctx.ty ≠ .cmd) || (namedGlobal s n && r.ctx.ty = .evt) then Rr.inUse else Rr.ok

/-- Items of the queue that a PRX ring names become ready for it, oldest first (R414). -/
def offerQueue (n : Nat) (c : RingCtx) (s : State) : State :=
  match c.ty, queue? s c.queue with
  | .prx, some q =>
    ((List.range q.items.length).foldl (fun (acc : Nat × State) _ =>
      let t := offerItem n c.queue acc.1 acc.2
      let left := match queue? t c.queue with | some r => r.items.length | none => 0
      let before := match queue? acc.2 c.queue with | some r => r.items.length | none => 0
      (if left < before then acc.1 else acc.1 + 1, t)) (0, s)).2
  | _, _ => s

/-- Create a ring whose checks have passed. The first EVT ring that HIF_EVT_GLOBAL names takes what waits for it. -/
def makeRing (n : Nat) (b : Option Bytes) (s : State) : State :=
  match b.bind (parseCtx n) with
  | none => s
  | some c => flushGlobal (offerQueue n c (putRing n c s))

/-- RING_CREATE (R394). -/
def ringCreate (n : Nat) (b : Option Bytes) (s : State) : State :=
  let st := ringCreateStatus s n b
  ringResult st (onlyIf (st == Rr.ok) (makeRing n b s) s)

/-- RING_RESET (R394): the ring is taken away with the effects of R395 and made again. -/
def ringReset (n : Nat) (b : Option Bytes) (s : State) : State :=
  let st := ringResetStatus s n b
  ringResult st (onlyIf (st == Rr.ok) (makeRing n b (removeRing n s)) s)

/-- RING_DESTROY (R394, R395). -/
def ringDestroy (n : Nat) (s : State) : State :=
  let st := ringDestroyStatus s n
  ringResult st (onlyIf (st == Rr.ok) (removeRing n s) s)

/-- RING_CREATE (R394). -/
def execRingCreate (ring : Nat) (ctx : Option Bytes) (s : State) : Answer :=
  .next (onlyIf (barOpen s && ring < 512) (ringCreate ring ctx s) s)

/-- RING_RESET (R394). -/
def execRingReset (ring : Nat) (ctx : Option Bytes) (s : State) : Answer :=
  .next (onlyIf (barOpen s && ring < 512) (ringReset ring ctx s) s)

/-- RING_DESTROY (R395). -/
def execRingDestroy (ring : Nat) (s : State) : Answer :=
  .next (onlyIf (barOpen s && ring < 512) (ringDestroy ring s) s)

/-! ### Doorbells (R396 to R398) -/

/-- A write to HIF_KICK of any value: a doorbell read starts, and the interval is 0.5 µs (R398). -/
def kick (s : State) : State := { s with hif := { s.hif with pollNs := 500, pollAt := now s } }

/-- HIF_KICK (R398). -/
def execHifKick (_value : BitVec 32) (s : State) : Answer := .next (onlyIf (barOpen s) (kick s) s)

/-- Whether a doorbell slot of the ring's own gen is in bounds (R397). -/
def doorbellOk (r : Ring) (h : BitVec 32) : Bool :=
  match r.ctx.ty with
  | .cpl | .evt => dist32 h r.hostIdx ≤ dist32 r.devIdx r.hostIdx
  | _ => dist32 h r.devIdx ≤ r.size

/-- A ring stops and raises RING_FAULT (R397, R554). -/
def ringFault (n reason : Nat) (host : BitVec 32) (s : State) : State :=
  match ring? s n with
  | none => s
  | some r =>
    raise Ev.ringFault none (ringFaultBody n reason host r.devIdx r.ctx.gen)
      (bump .ringFault n (withRing n (fun q => { q with stopped := true }) s))

/-- One slot of a doorbell read: whether it gave a new valid value, and the state after it (R397). -/
def takeSlot (d : DbSlot) (s0 : State) : Bool × State :=
  let s := { s0 with hif := { s0.hif with slots := FMap.set s0.hif.slots d.ring (d.gen, d.index) } }
  match ring? s d.ring with
  | none => (false, s)
  | some r =>
    if r.stopped then (false, s)
    else if d.gen ≠ r.ctx.gen then
      (false, match FMap.get? s0.hif.slots d.ring with
        | some p => if p = (d.gen, d.index) then s else bump .dbStale d.ring s
        | none => s)
    else if doorbellOk r d.index then
      (d.index != r.hostIdx,
       starvedLive d.ring
        (withRing d.ring (fun q => { q with hostIdx := d.index }) s))
    else (false, ringFault d.ring 1 d.index s)

/-- A doorbell read that came back: every slot is taken, and the interval falls or doubles (R397, R398). -/
def pollSlots (slots : List DbSlot) (s : State) : State :=
  let r := slots.foldl (fun (acc : Bool × State) d =>
    let q := takeSlot d acc.2
    (acc.1 || q.1, q.2)) (false, s)
  let ns := if r.1 then 500 else min (pollMaxNs s) (2 * s.hif.pollNs)
  { r.2 with hif := { r.2.hif with pollNs := ns, pollAt := now s + ns } }

/-- A doorbell read that failed: made again at the next poll interval (R399). -/
def pollFailed (s : State) : State :=
  let ns := min (pollMaxNs s) (2 * s.hif.pollNs)
  bump .hifDmaErr 0 { s with hif := { s.hif with pollNs := ns, pollAt := now s + ns } }

/-- DOORBELL_POLL (R397): due once a ring exists and the interval has passed. -/
def execDoorbellPoll (slots : List DbSlot) (ok : Bool) (t : Ns) (s : State) : Answer :=
  let s1 := advance t s
  let due := barOpen s && !s.hif.rings.isEmpty && s.hif.pollAt ≤ now s1
  .next (onlyIf due (if ok then pollSlots slots s1 else pollFailed s1) s1)

/-! ### Device writes (R399, R407) -/

/-- A write for a ring failed: it is counted and made again (R399). -/
def writeFailed (n : Nat) (s : State) : State :=
  bump .hifDmaErr 0 (withRing n (fun q => { q with dmaFail := true }) s)

/-- The oldest event of a backlog is written. -/
def writeBacklog (n : Nat) (s : State) : State :=
  match ring? s n with
  | none => s
  | some r =>
    match r.backlog with
    | [] => s
    | e :: rest => writeEntry n (eventEntry e) (withRing n (fun q => { q with backlog := rest }) s)

/-- Whether an event waits in a ring and can be written now. -/
def backlogReady (s : State) (n : Nat) : Bool :=
  match ring? s n with
  | none => false
  | some r => r.ctx.ty = .evt && !r.backlog.isEmpty && r.canWrite

/-- EVENT_WRITE (R407). -/
def execEventWrite (ring : Nat) (ok : Bool) (s : State) : Answer :=
  .next (onlyIf (backlogReady s ring) (if ok then writeBacklog ring s else writeFailed ring s) s)

/-- The value that a ring's index-page slot is to show (R396, R413). -/
def Ring.slotNow (r : Ring) : BitVec 32 := if r.ctx.ty = .ptx then r.endIdx else r.devIdx

/-- Whether a ring's index-page slot is due: it lags, and 1 µs has passed since its last write (R399). -/
def slotDue (s : State) (n : Nat) (t : Ns) : Bool :=
  match ring? s n with
  | none => false
  | some r =>
    !r.stopped && !r.dmaFail && r.slotNow != r.slotIdx && (r.slotTime = 0 || r.slotTime + 1000 ≤ t)

/-- The slot is written with the current value. -/
def writeSlot (n : Nat) (t : Ns) (s : State) : State :=
  withRing n (fun q => { q with slotIdx := q.slotNow, slotTime := t }) s

/-- INDEX_SLOT_WRITE (R399). -/
def execIndexSlotWrite (ring : Nat) (ok : Bool) (t : Ns) (s : State) : Answer :=
  let s1 := advance t s
  .next (onlyIf (slotDue s1 ring (now s1)) (if ok then writeSlot ring (now s1) s1 else writeFailed ring s1) s1)

/-- A write that failed goes through, and with it the entries that waited behind it (R399). -/
def retryWrite (n : Nat) (s : State) : State :=
  match ring? s n with
  | none => s
  | some r =>
    r.pendW.foldl (fun t d => writeEntry n d t) (withRing n (fun q => { q with dmaFail := false, pendW := [] }) s)

/-- A read of an entry of the ring fails: made again, and a second failure in a row stops the ring (R399). -/
def readFailed (n : Nat) (s : State) : State :=
  match ring? s n with
  | none => s
  | some r =>
    let s1 := bump .hifDmaErr 0 s
    if r.readFail then ringFault n 2 0 s1 else withRing n (fun q => { q with readFail := true }) s1

/-- A failed transfer of a ring is made again (R399). With no transfer outstanding, a failure is that of the read of
the entry at the ring's index. -/
def dmaRetry (n : Nat) (ok : Bool) (s : State) : State :=
  match ring? s n with
  | none => s
  | some r =>
    if r.stopped then s
    else if r.dmaFail then (if ok then retryWrite n s else bump .hifDmaErr 0 s)
    else if ok then withRing n (fun q => { q with readFail := false }) s
    else if r.ctx.ty = .cpl || r.ctx.ty = .evt || r.avail = 0 then s
    else readFailed n s

/-- DMA_RETRY (R399). -/
def execDmaRetry (ring : Nat) (ok : Bool) (s : State) : Answer := .next (dmaRetry ring ok s)

/-! ### MSI-X (R418) -/

/-- The vector control word of the MSI-X table masks the vector. -/
def msixMasked (s : State) (v : Nat) : Bool := (FMap.getD s.hif.msixTable (4 * v + 3) 1).getLsbD 0

/-- Whether every index slot that a message of the vector announces has been written (R399). -/
def slotsWritten (s : State) (v : Nat) : Bool :=
  s.hif.rings.all (fun e => !(e.2.ctx.irqEn && e.2.ctx.vector == v) || e.2.stopped || e.2.slotNow == e.2.slotIdx)

/-- Whether a vector's count or moderation time asks for a message (R418). -/
def msixDue (s : State) (v : Nat) (t : Ns) : Bool :=
  match FMap.get? s.hif.msix v with
  | none => false
  | some m =>
    m.pending ||
      (0 < m.count && (max 1 (fld s .msixMod v 7 0) ≤ m.count || m.since + 1000 * fld s .msixMod v 17 8 ≤ t))

/-- A vector's message is sent, or becomes pending while the vector is masked. -/
def msixFire (v : Nat) (s : State) : State :=
  let masked := msixMasked s v
  { s with hif := { s.hif with msix := FMap.adj s.hif.msix v (fun m =>
      { m with count := 0, sent := if masked then m.sent else m.sent + 1, pending := masked }) } }

/-- MSIX_SEND (R418). -/
def execMsixSend (vector : Nat) (t : Ns) (s : State) : Answer :=
  let s1 := advance t s
  .next (onlyIf (vector < 64 && slotsWritten s1 vector && msixDue s1 vector (now s1)) (msixFire vector s1) s1)

/-! ### Progress, notices and held items -/

/-- PROGRESS_TIMER (R406). -/
def execProgressTimer (opId : Nat) (position : Nat) (t : Ns) (s : State) : Answer :=
  .next (progress opId position (advance t s))

/-- NOTICE_ACK's own check (R410). -/
def noticeAckStatus (s : State) (code : Nat) (mark : Bool) (object : Nat) : Nat :=
  if (notice? s code object mark).isSome then St.ok else St.notPending

/-- NOTICE_ACK's own part: the notice is no longer outstanding, and its count is returned. -/
def noticeAckOwn (code : Nat) (mark : Bool) (object : Nat) (s : State) : CmdRes :=
  match notice? s code object mark with
  | none => .done St.notPending [] s
  | some n =>
    .done St.ok (toLE 4 (if code = Ev.queueMark then min n.count 65535 else n.count))
      (withNotices (fun l => l.filter (fun m => !(m.code == code && m.object == object && m.mark == mark))) s)

/-- NOTICE_ACK (R410). -/
def execNoticeAck (h : CmdHdr) (code : Nat) (mark : Bool) (object : Nat) (s : State) : Answer :=
  .next (runCmd (plainCmd 0x01A1 2) h (noticeAckOwn code mark object) s)

/-- The kind of starvation of R409: 0 a PRX item that drops, 1 a segment, 2 a queue item. -/
def starvedReason (r : Ring) : Nat :=
  if r.ctx.ty = .recording then 1
  else match r.waiting with
    | i :: _ => if i.kind = 2 then 2 else 0
    | [] => 0

/-- The hold of a ring's oldest item has run out without its buffers (R415). -/
def holdOver (s : State) (n : Nat) (t : Ns) : Bool :=
  match ring? s n, oldestNeed s n with
  | some r, some k => r.avail < k && !r.starved && r.waitSince + 1000 * r.ctx.holdUs ≤ t
  | _, _ => false

/-- The item drops, or goes on waiting, and RING_STARVED is raised (R415). -/
def starve (n : Nat) (s : State) : State :=
  match ring? s n, oldestNeed s n with
  | some r, some k =>
    let reason := starvedReason r
    let s1 := crossed Ev.ringStarved n reason k none false s
    if reason = 0 then popWaiting n (bump .rxNobuf n s1) else withRing n (fun q => { q with starved := true }) s1
  | _, _ => s

/-- RX_HOLD_EXPIRY (R415). -/
def execRxHoldExpiry (ring : Nat) (t : Ns) (s : State) : Answer :=
  let s1 := advance t s
  .next (onlyIf (holdOver s1 ring (now s1)) (starve ring s1) s1)

/-! ### The function (R387 to R390) -/

/-- Registers of the host interface and the mailbox take their values after reset (R389, R424, R530). -/
def resetHifRegs (s : State) : State :=
  { s with regs := s.regs.filter (fun e =>
      match regAt e.1 with
      | some (r, _) => !hifRw.contains r
      | none => true) }

/-- A DOMAIN reset of the host interface (R389, R417): every ring ceases with the effects of R395, every session
ends, and the registers that show a value after reset return to it. -/
def hifDomainReset (s : State) : State :=
  let sessions := s.sec.sessions
  let s1 := resetHifRegs { s with sec := { s.sec with sessions := [], nonces := [] } }
  let s2 := (FMap.keys s1.hif.rings).foldl (fun t n => removeRing n t) s1
  let s3 := { s2 with hif := { s2.hif with
      rings := [], busy := false, result := 0, pollNs := 500, pollAt := now s2, msix := [], msixTable := []
      statsBuf := false, mbxStatus := 0, loHeld := [], hiCapture := []
      notices := s2.hif.notices.filter (fun n => n.code != Ev.ringStarved && n.code != Ev.statsTruncated) } }
  (FMap.keys sessions).foldl (fun t n => endSession n 3 t) { s3 with sec := { s3.sec with sessions := sessions } }

/-- HIF_DOMAIN_RESET (R389). -/
def execHifDomainReset (s : State) : Answer := .next (hifDomainReset s)

/-- BAR_BAD_ACCESS (R390): a write is ignored, a read returns all ones, and the access counts. -/
def execBarBadAccess (write : Bool) (_offset : Nat) (s : State) : Answer :=
  .next (bump .barBad 0 (if write then s else { s with hif := { s.hif with barAnswer := BitVec.allOnes 64 } }))

/-- The word a configuration read finds where R387 states it: BAR0 is a 64-bit, non-prefetchable memory BAR of 1 MiB, and there is no
other BAR and no expansion ROM (R390). Any other word is a free value. -/
def cfgWord (s : State) (offset : Nat) : BitVec 32 :=
  match offset with
  | 0x10 => (BitVec.ofNat 32 (Config.freeNat s.free) &&& 0xFFF00000) ||| 0x4
  | 0x18 => 0
  | 0x1C => 0
  | 0x20 => 0
  | 0x24 => 0
  | 0x30 => 0
  | 0x00 => 0x96401F4C
  | 0x08 => 0x0B400001
  | 0x2C => s.hif.subsys
  | _ => BitVec.ofNat 32 (Config.freeNat s.free)

/-- CONFIGURATION_REQUEST (R388): Retry Status until step 4 of start-up has ended, a normal answer afterwards. -/
def execConfigurationRequest (offset : Nat) (s : State) : Answer :=
  .next (if s.hif.cfgOpen then
      { s with free := s.free + 1, hif := { s.hif with cfgAnswer := some (cfgWord s offset) } }
    else { s with hif := { s.hif with cfgAnswer := none } })

end Sys2Proof.Machine
end

