-- ==== Sys2Proof/Machine/Bce.lean ====
section
/-! DEFINITION. Jobs of the Block Compression Engine, and the recorder's segments, backlog and flushes (R330 to R344). -/

namespace Sys2Proof.Machine

open Sys2Proof

/-- Change the engine. -/
def withBce (f : Bce → Bce) (s : State) : State := { s with bce := f s.bce }

/-! ### Jobs (R330 to R334) -/

/-- Octets of one sample of Mode F. -/
def sampleLen (fmt : Bool) : Nat := if fmt then 2 else 4

/-- The job of a job block and its input, without an operation identifier. -/
def jobOf (b input : Bytes) (cont : Option LBlock) : BceJob :=
  { opId := 0, op := byteAt b 0, effort := bits (byteAt b 1) 3 0, ratio := bits (byteAt b 1) 5 4, fmt := bit (byteAt b 1) 6
    blockSize := if leAt b 0x1C 4 = 0 then 65536 else leAt b 0x1C 4, nSamples := leAt b 0x20 4, outLen := leAt b 0x18 4
    input := padTo (leAt b 4 4) input, cont, abort := false }

/-- Reserved fields and ranges of a job block (R331). -/
def jobBlockOk (b : Bytes) : Bool :=
  let j := jobOf b [] none
  let n := leAt b 4 4
  j.op ≤ 3 && leAt b 2 2 = 0 && leAt b 0x24 4 = 0 && zeroIn b 0x30 16 && n ≠ 0 &&
  (match j.op with
   | 0 => 1 ≤ j.effort && j.effort ≤ 9 && 1024 ≤ j.blockSize && j.blockSize ≤ 65536 && 18 ≤ j.outLen
   | 1 => j.outLen ≠ 0
   | 2 => 1 ≤ j.ratio && j.ratio ≤ 3 && n % sampleLen j.fmt = 0 && fSize j.ratio (n / sampleLen j.fmt) ≤ j.outLen
   | _ => n % sampleLen j.fmt = 0 && j.nSamples * sampleLen j.fmt ≤ j.outLen)

/-- The resume state of a block's handle, if it names a job of the same kind (R331). -/
def resumeOf (s : State) (b : Bytes) : Option Resume :=
  let j := jobOf b [] none
  s.bce.resumes.find? (fun r =>
    r.handle == leAt b 0x28 8 && r.op == j.op && r.effort == j.effort && r.ratio == j.ratio && r.fmt == j.fmt &&
    r.blockSize == j.blockSize)

/-- BCE_JOB's own check (R331). -/
def bceJobStatus (s : State) (b : Bytes) : Nat :=
  if !jobBlockOk b || (bit (byteAt b 1) 7 && (resumeOf s b).isNone) then St.badDesc
  else if 32 ≤ s.bce.jobs.length then St.busy
  else St.ok

/-- Accept a job; a handle is used up. -/
def acceptJob (b input : Bytes) (id : Nat) (s : State) : State :=
  let resume := bit (byteAt b 1) 7
  let cont := if resume then (resumeOf s b).bind (·.cont) else none
  withBce (fun e =>
    { e with jobs := e.jobs ++ [{ jobOf b input cont with opId := id }]
             resumes := if resume then e.resumes.filter (fun r => r.handle != leAt b 0x28 8) else e.resumes }) s

/-- BCE_JOB (R331). -/
def execBceJob (h : CmdHdr) (input : Bytes) (s : State) : Answer :=
  .next (runCmd (blockCmd 0x0171 2 64) h
    (fun s1 => acceptLong 0x0171 h (leAt (blk h) 4 4) (bceJobStatus s1 (blk h)) (acceptJob (blk h) input) s1) s)

/-- BCE_ABORT's own check (R334). -/
def bceAbortStatus (s : State) (id : Nat) : Nat :=
  if s.bce.jobs.any (fun j => j.opId == id && !j.abort) then St.ok else St.notPending

/-- The job is to stop at its next unit boundary. -/
def abortJob (id : Nat) (s : State) : State :=
  withBce (fun e => { e with jobs := e.jobs.map (fun j => if j.opId = id then { j with abort := true } else j) }) s

/-- BCE_ABORT (R334). -/
def execBceAbort (h : CmdHdr) (opId : Nat) (s : State) : Answer :=
  .next (runCmd (plainCmd 0x0172 2) h (fun s1 => checked (bceAbortStatus s1 opId) (abortJob opId s1) s1) s)

/-- The result body of R332. -/
def bceResult (r : BceRun) (handle : Nat) : Bytes :=
  toLE 1 r.result ++ zeros 3 ++ toLE 4 r.consumed ++ toLE 4 r.out.length ++ toLE 4 r.good ++ toLE 4 r.units ++
    toLE 4 r.errAt ++ toLE 8 handle

/-- Keep a resume state; with 256 in use the oldest is freed (R333). -/
def keepResume (j : BceJob) (r : BceRun) (t : Ns) (s : State) : Nat × State :=
  let n := s.bce.nextHandle
  let e : Resume := { handle := n, op := j.op, effort := j.effort, ratio := j.ratio, fmt := j.fmt
                      blockSize := j.blockSize, cont := r.cont, issued := t }
  (n, withBce (fun b =>
    { b with nextHandle := n + 1, resumes := (if 256 ≤ b.resumes.length then b.resumes.drop 1 else b.resumes) ++ [e] }) s)

/-- A job ends: its output stands in host memory and its DONE or FAILED event carries the result (R332). -/
def endJob (j : BceJob) (s : State) : State :=
  let d := drawNat s
  let s0 := if j.abort then d.2 else s
  let r := bceRun j (if j.abort then some d.1 else none)
  let s1 := withBce (fun b => { b with jobs := b.jobs.filter (fun k => k.opId != j.opId) }) s0
  let (hd, s2) := if r.result = Br.outShort then keepResume j r (now s) s1 else (0, s1)
  let s3 := { s2 with hif := { s2.hif with wrote := r.out } }
  let (ctr, st) :=
    if r.result = Br.ok then (Ctr.bceJobOk, St.ok)
    else if r.result = Br.outShort then (Ctr.bceJobShort, St.ok)
    else (Ctr.bceJobFail, if r.result = Br.aborted then St.aborted else St.failed)
  endLong j.opId st (bceResult r hd) (withLong j.opId (fun o => { o with position := max o.position r.consumed }) (bump ctr 0 s3))

/-- BCE_JOB_DONE (R332): one of the four jobs that run ends (R316). -/
def execBceJobDone (opId : Nat) (s : State) : Answer :=
  match (s.bce.jobs.take 4).find? (fun j => j.opId == opId) with
  | some j => .next (onlyIf (alive s) (endJob j s) s)
  | none => .next s

/-- RESUME_HANDLE_EXPIRY (R333): 60 s after a handle was issued. -/
def execResumeHandleExpiry (handle : Nat) (t : Ns) (s : State) : Answer :=
  let s1 := advance t s
  .next (withBce (fun b =>
    { b with resumes := b.resumes.filter (fun r => !(r.handle == handle && r.issued + 60000000000 ≤ t)) }) s1)

/-! ### The backlog (R338) -/

/-- Octets in the backlog. -/
def backlogBytes (s : State) : Nat := (s.bce.backlog.map (fun e => e.data.length)).sum

/-- The high mark in octets (R342). -/
def backlogMark (s : State) : Nat := s.bce.sizeMib * 2 ^ 20 * fld s .recBacklog 0 19 13 / 100

/-- Follow the backlog's level with REC_BACKLOG_HIGH. -/
def backlogMoved (old : Nat) (s0 : State) : State :=
  let new := backlogBytes s0
  let s := keepHigh .backlogHigh new s0
  let m := backlogMark s
  if old < m && m ≤ new then crossed Ev.recBacklogHigh 0 0 new none false s
  else noticeLive Ev.recBacklogHigh 0 false (some new) (new < m) s

/-- The rest of a flush's segments has gone: it completes with the number dropped meanwhile (R341). -/
def finishFlushes (s : State) : State :=
  let waits := fun (id : Nat) => s.bce.backlog.any (fun e => e.need.contains id) || s.chans.any (fun e => e.2.segClose.contains id)
  let done := s.bce.flushes.filter (fun f => !waits f.id)
  done.foldl (fun t f => completeHeld f.ring f.held St.ok (toLE 4 f.dropped) t)
    (withBce (fun b => { b with flushes := b.flushes.filter (fun f => waits f.id) }) s)

/-- The object that a segment's counters are kept under: its voice channel, or 65536 above its receive channel; kind 1 of
a segment is voice (R337). -/
def segObject (e : BacklogSeg) : Nat := if byteAt e.data 0 = 1 then e.source else 65536 + e.source

/-- A segment is dropped: it counts for its source and for the flushes that wait. -/
def countRecDrop (e : BacklogSeg) (s : State) : State :=
  bump .recDrop (segObject e) (withBce (fun b => { b with flushes := b.flushes.map (fun f => { f with dropped := f.dropped + 1 }) }) s)

/-- A completed segment enters the backlog, or is dropped where the backlog is full or its ring could never hold it
(R338): the state, and whether it was dropped. -/
def enterBacklog (e : BacklogSeg) (s : State) : State × Bool :=
  let ring := segRing s e
  let tooBig : Bool := match ring.bind (ring? s) with
    | some r => r.ctx.ty = .recording && r.size < needed r.ctx.bufSize e.data.length
    | none => false
  if tooBig then
    (finishFlushes (countRecDrop e (match ring with | some n => bump .rxRingToobig n s | none => s)), true)
  else if s.bce.sizeMib * 2 ^ 20 < backlogBytes s + e.data.length then (finishFlushes (countRecDrop e s), true)
  else
    let first := match ring with | some n => (recHead s n).isNone | none => false
    let s1 := withBce (fun b => { b with backlog := b.backlog ++ [e] }) s
    let s2 := match ring with
      | some n => starvedLive n (if first then withRing n (fun r => { r with waitSince := now s, starved := false }) s1 else s1)
      | none => s1
    (backlogMoved (backlogBytes s) s2, false)

/-- The first segment of the backlog whose ring is ready for it: an existing REC ring, no failing write, and buffers for
the whole segment. A segment of a ring stands behind the older ones of that ring. -/
def readySegment (s : State) : Option (Nat × BacklogSeg) :=
  (s.bce.backlog.zipIdx.findSome? (fun p =>
    match segRing s p.1 with
    | none => none
    | some n =>
      match ring? s n with
      | some r =>
        if r.ctx.ty = .recording && !r.stopped && !r.dmaFail && recHead s n = some p.1.data &&
            needed r.ctx.bufSize p.1.data.length ≤ r.avail then some (n, p.2) else none
      | none => none)).bind (fun p => (s.bce.backlog[p.2]?).map (fun e => (p.1, e)))

/-- Remove the first entry equal to one. -/
def dropFirst (l : List BacklogSeg) (e : BacklogSeg) : List BacklogSeg := l.erase e

/-- A segment is written to its ring. -/
def writeSegment (n : Nat) (e : BacklogSeg) (s : State) : State :=
  let old := backlogBytes s
  let s1 := withBce (fun b => { b with backlog := dropFirst b.backlog e }) s
  let s2 := withRing n (fun r => { r with waitSince := now s, starved := false }) s1
  let s3 := writeItem n ⟨3, 0, e.data, false, 0, 0, false⟩ s2
  finishFlushes (starvedLive n (bump .recSeg (segObject e) (backlogMoved old s3)))

/-- REC_SEGMENT_WRITE (R338): the next segment whose buffers are reserved goes to its ring. -/
def execRecSegmentWrite (ok : Bool) (t : Ns) (s : State) : Answer :=
  let s1 := advance t s
  match readySegment s1 with
  | none => .next s1
  | some (n, e) => .next (onlyIf (alive s1) (if ok then writeSegment n e s1 else writeFailed n s1) s1)

/-! ### Segments of voice channels (R335 to R337) -/

/-- A VOICE segment (R336). -/
def voiceSegment (n : Nat) (ch : Chan) (last : Bool) : Bytes :=
  let wide := ch.p.lineMode = 2
  let a := fEncode ch.segRatio (ch.segData.flatMap (·.send))
  let b := fEncode ch.segRatio (ch.segData.flatMap (·.recv))
  toLE 1 1 ++ toLE 1 1 ++ toLE 2 n ++ toLE 4 ch.segNo ++ toLE 8 ch.segStart ++ toLE 4 ch.segTick ++
    toLE 1 ch.segData.length ++
    toLE 1 (ch.segRatio + 4 * b2n wide + 8 * b2n ch.segFirst + 16 * b2n last + 32 * b2n (ch.gap != 0)) ++
    toLE 2 (min 65535 ch.gap) ++ toLE 4 a.length ++ toLE 4 b.length ++
    padTo 40 (ch.segData.map (fun f => BitVec.ofNat 8 f.sendFlags)) ++
    padTo 40 (ch.segData.map (fun f => BitVec.ofNat 8 f.recvFlags)) ++ a ++ b

/-- Close a channel's open segment, if it holds frames: it enters the backlog, or its frames are missing from the next
one (R335, R338). -/
def closeSegment (n : Nat) (last : Bool) (s : State) : State :=
  match FMap.get? s.chans n with
  | none => s
  | some ch =>
    if ch.segData.isEmpty then
      finishFlushes { s with chans := FMap.set s.chans n { ch with segClose := [], segFirst := ch.segFirst || last } }
    else
      let e : BacklogSeg := { ring := 512, source := n, data := voiceSegment n ch last, need := ch.segClose }
      let ch1 := { ch with segData := [], segNo := (ch.segNo + 1) % 2 ^ 32, segFirst := last, gap := 0, segClose := [] }
      let (s1, dropped) := enterBacklog e { s with chans := FMap.set s.chans n ch1 }
      if dropped then
        { s1 with chans := FMap.adj s1.chans n (fun c => { c with gap := c.gap + ch.gap + ch.segData.length }) }
      else s1

/-- A frame of a recorded channel passes its tap (R110): it joins the open segment, which closes at 40 frames. -/
def recordFrame (n tick startTime : Nat) (f : RecFrame) (s : State) : State :=
  match FMap.get? s.chans n with
  | none => s
  | some ch =>
    if !ch.p.record || !flag s .recCtrl 0 0 then s
    else
      let open_ := !ch.segData.isEmpty
      let ch1 := { ch with segData := ch.segData ++ [f]
                           segTick := if open_ then ch.segTick else tick % 2 ^ 32
                           segStart := if open_ then ch.segStart else startTime
                           segRatio := if open_ then ch.segRatio else fld s .recCtrl 0 2 1 }
      let s1 := { s with chans := FMap.set s.chans n ch1 }
      if 40 ≤ ch1.segData.length || !ch1.segClose.isEmpty then closeSegment n false s1 else s1

/-! ### REC_FLUSH (R341) -/

/-- Mark every segment held and every open segment for a flush. -/
def markFlush (id : Nat) (s : State) : State :=
  { s with
    bce := { s.bce with backlog := s.bce.backlog.map (fun e => { e with need := id :: e.need }) }
    chans := FMap.mapV s.chans (fun _ c => if c.segData.isEmpty then c else { c with segClose := id :: c.segClose }) }

/-- REC_FLUSH's own part: with nothing held it completes at once. -/
def recFlushOwn (h : CmdHdr) (s : State) : CmdRes :=
  let id := s.bce.nextFlush
  if s.bce.backlog.isEmpty && s.chans.all (fun e => e.2.segData.isEmpty) then .done St.ok (toLE 4 0) s
  else
    .wait (markFlush id (withBce (fun b =>
      { b with nextFlush := id + 1, flushes := b.flushes ++ [⟨id, h.ring, heldOf 0x0173 h s, 0⟩] }) s))

/-- REC_FLUSH (R341). -/
def execRecFlush (h : CmdHdr) (s : State) : Answer := .next (runCmd (plainCmd 0x0173 2) h (recFlushOwn h) s)

end Sys2Proof.Machine
end

