-- ==== Sys2Proof/Machine/VpeArith.lean ====
section
/-! DEFINITION. VPE arithmetic on lanes and scalars: every value rule of R228 to R235, with the event each raises. -/

namespace Sys2Proof.Machine

open Sys2Proof

/-- Lane i of four. -/
def V4.lane {α : Type} (v : V4 α) (i : Nat) : α :=
  match i with
  | 0 => v.l0 | 1 => v.l1 | 2 => v.l2 | _ => v.l3

/-- Four lanes from a function. -/
def V4.ofFn {α : Type} (f : Nat → α) : V4 α := ⟨f 0, f 1, f 2, f 3⟩

/-- Enabled lanes take the new value, the others keep the old one (R218). -/
def V4.blend {α : Type} (m : BitVec 4) (old new : V4 α) : V4 α :=
  V4.ofFn (fun i => if m.getLsbD i then new.lane i else old.lane i)

/-- One bit per lane. -/
def laneBits (f : Nat → Bool) : BitVec 4 :=
  BitVec.ofNat 4 ((if f 0 then 1 else 0) + (if f 1 then 2 else 0) + (if f 2 then 4 else 0) + (if f 3 then 8 else 0))

/-- Bring an exact value into `w` bits by saturation or wrap; the event says that the value changed (R229 to R231). -/
def narrowTo (w : Nat) (sat : Bool) (t : Int) : BitVec w × Bool :=
  let lo : Int := -(2 ^ (w - 1))
  let hi : Int := 2 ^ (w - 1) - 1
  if t < lo then (if sat then BitVec.ofInt w lo else BitVec.ofInt w t, true)
  else if hi < t then (if sat then BitVec.ofInt w hi else BitVec.ofInt w t, true)
  else (BitVec.ofInt w t, false)

/-- Arithmetic shift right, rounding half up when asked (R230). -/
def shrRound (rnd : Bool) (t : Int) (n : Nat) : Int :=
  if n = 0 then t else if rnd then (t + 2 ^ (n - 1)) >>> n else t >>> n

/-- Narrowing of an accumulator lane (R230). -/
def narrowLane (sat : Bool) (sh : Nat) (a : BitVec 48) : BitVec 18 × Bool := narrowTo 18 sat (shrRound true a.toInt sh)

/-- The count of redundant sign bits (R233): leading bits equal to the sign bit, less one. -/
def expOf (w : Nat) (x : BitVec w) : Nat :=
  ((List.range (w - 1)).takeWhile (fun i => x.getLsbD (w - 2 - i) == x.msb)).length

/-- NORM of a lane: shift left by the redundant sign bits; zero and −1 stay as they are (R233). -/
def normOf (x : BitVec 18) : BitVec 18 :=
  let e := expOf 18 x
  if e = 17 then x else x <<< e

/-- NORMA of an accumulator lane: shift left by its own EXPA. R233 leaves zero and −1 unchanged for NORM alone, so −1
becomes −2^47 here (DEDUCED, log entry 11). -/
def normaOf (x : BitVec 48) : BitVec 48 := x <<< expOf 48 x

/-- Signed shift of an exact value: left when positive, right when negative; the count is limited where every larger
one gives the same result. -/
def shiftBy (rnd : Bool) (t : Int) (n : Int) : Int :=
  if 0 ≤ n then t * 2 ^ (min n.toNat 96) else shrRound rnd t (min (-n).toNat 96)

/-- The lane of vb that lane i multiplies with (R219): its own, or a broadcast lane. -/
def bselLane (bsel : BitVec 3) (i : Nat) : Nat := if bsel.toNat < 4 then i else bsel.toNat - 4

/-- The product of two lanes, exact (R228). -/
def prodOf (va vb : V4 (BitVec 18)) (bsel : BitVec 3) (i : Nat) : Int :=
  (va.lane i).toInt * (vb.lane (bselLane bsel i)).toInt

/-- The sums of a complex product (R234): the real part for lane 2p, the imaginary part for lane 2p + 1. -/
def cprodOf (conj : Bool) (va vb : V4 (BitVec 18)) (p i : Nat) : Int :=
  let ar := (va.lane (2 * p)).toInt
  let ai := (va.lane (2 * p + 1)).toInt
  let br := (vb.lane (2 * p)).toInt
  let bi := if conj then -(vb.lane (2 * p + 1)).toInt else (vb.lane (2 * p + 1)).toInt
  if i = 2 * p then ar * br - ai * bi else ar * bi + ai * br

/-- Field q of an accumulator lane as an 18-bit lane (R239, SPL). -/
def acField (q : BitVec 2) (a : BitVec 48) : BitVec 18 :=
  match q.toNat with
  | 0 => a.extractLsb' 0 18
  | 1 => a.extractLsb' 18 18
  | _ => (a.extractLsb' 36 12).signExtend 18

/-- An accumulator lane with field q replaced (R239, ACINS). -/
def acInsert (q : BitVec 2) (a : BitVec 48) (v : BitVec 18) : BitVec 48 :=
  match q.toNat with
  | 0 => a.extractLsb' 36 12 ++ a.extractLsb' 18 18 ++ v
  | 1 => a.extractLsb' 36 12 ++ v ++ a.extractLsb' 0 18
  | _ => v.extractLsb' 0 12 ++ a.extractLsb' 18 18 ++ a.extractLsb' 0 18

/-- The operations of the scalar ALU (R235): the result and whether it wrapped. -/
inductive AluOp where
  | add | sub | and | or | xor | shl | shr | shru | mul | min | max
  deriving DecidableEq, Repr

/-- Scalar arithmetic in 36 bits (R235). -/
def aluOp (o : AluOp) (a b : BitVec 36) : BitVec 36 × Bool :=
  match o with
  | .add => narrowTo 36 false (a.toInt + b.toInt)
  | .sub => narrowTo 36 false (a.toInt - b.toInt)
  | .mul => narrowTo 36 false (a.toInt * b.toInt)
  | .and => (a &&& b, false)
  | .or => (a ||| b, false)
  | .xor => (a ^^^ b, false)
  | .shl => (if 36 ≤ b.toNat then 0 else a <<< b.toNat, false)
  | .shru => (if 36 ≤ b.toNat then 0 else a >>> b.toNat, false)
  | .shr => (a.sshiftRight (Nat.min b.toNat 36), false)
  | .min => (if a.slt b then a else b, false)
  | .max => (if a.slt b then b else a, false)

/-- A vector as the 72 bits of a line, lane i in bits [18i + 17:18i] (R214). -/
def lineOf (v : V4 (BitVec 18)) : BitVec 72 := v.l3 ++ v.l2 ++ v.l1 ++ v.l0

/-- The lanes of a line (R214). -/
def lanesOf (x : BitVec 72) : V4 (BitVec 18) :=
  ⟨x.extractLsb' 0 18, x.extractLsb' 18 18, x.extractLsb' 36 18, x.extractLsb' 54 18⟩

/-- Reverse the order of the k low bits (R227). -/
def revBits (k x : Nat) : Nat :=
  (List.range k).foldl (fun acc i => acc + (if x.testBit i then 2 ^ (k - 1 - i) else 0)) 0

/-- The exponent of a power of two from 2 to 32 768, if a number is one. -/
def log2Exact (n : Nat) : Option Nat := (List.range 16).find? (fun k => 1 ≤ k && 2 ^ k == n)

/-- The step of a modify code (R226); codes 6 and 7 take bits [15:0] of S14 or S15. -/
def stepOf (m : BitVec 3) (s14 s15 : BitVec 36) : Int :=
  match m.toNat with
  | 0 => 0 | 1 => 1 | 2 => -1 | 3 => 2 | 4 => -2 | 5 => 4
  | 6 => (s14.extractLsb' 0 16).toInt
  | _ => (s15.extractLsb' 0 16).toInt

/-- A pointer after its update (R226, R227): linear, circular, or bit-reversed. -/
def stepPtr (p b : BitVec 15) (n : BitVec 16) (rev : Bool) (step : Int) : BitVec 15 :=
  if n = 0 then BitVec.ofInt 15 (p.toInt + step)
  else
    match if rev then log2Exact n.toNat else none with
    | some k =>
      let d := ((Int.ofNat p.toNat - Int.ofNat b.toNat) % (2 ^ k : Int)).toNat
      let q := ((Int.ofNat (revBits k d) + step) % (2 ^ k : Int)).toNat
      BitVec.ofNat 15 (b.toNat + revBits k q)
    | none =>
      let d := (Int.ofNat p.toNat - Int.ofNat b.toNat + step) % Int.ofNat n.toNat
      BitVec.ofNat 15 (b.toNat + d.toNat)

end Sys2Proof.Machine
end

