-- ==== Sys2Proof/Machine/VpeExec.lean ====
section
/-! DEFINITION. A bundle on a VPE: predicates, register files, the M, X and L slots, loops and faults (R215 to R239).
Every slot reads the state before the bundle and writes into the state after it (R220). -/

namespace Sys2Proof.Machine

open Sys2Proof

/-! ### Register files -/

/-- The physical register a vector name reaches (R217). -/
def physV (rot : BitVec 4) (n : BitVec 5) : BitVec 5 :=
  if n.msb then 16 ||| (n.truncate 4 + rot).zeroExtend 5 else n

/-- Read and write of the register files. -/
def Vpe.getV (r : Vpe) (n : BitVec 5) : V4 (BitVec 18) := r.v[(physV r.rot n).toNat]'((physV r.rot n).isLt)
def Vpe.getAC (r : Vpe) (n : BitVec 3) : V4 (BitVec 48) := r.ac[n.toNat]'(n.isLt)
def Vpe.getS (r : Vpe) (n : BitVec 4) : BitVec 36 := r.s[n.toNat]'(n.isLt)
def Vpe.getP (r : Vpe) (n : BitVec 3) : BitVec 15 := r.p[n.toNat]'(n.isLt)
def Vpe.getB (r : Vpe) (n : BitVec 3) : BitVec 15 := r.b[n.toNat]'(n.isLt)
def Vpe.getN (r : Vpe) (n : BitVec 3) : BitVec 16 := r.n[n.toNat]'(n.isLt)
def Vpe.setS (w : Vpe) (n : BitVec 4) (x : BitVec 36) : Vpe := { w with s := w.s.set n.toNat x (n.isLt) }
def Vpe.setP (w : Vpe) (n : BitVec 3) (x : BitVec 15) : Vpe := { w with p := w.p.set n.toNat x (n.isLt) }
def Vpe.setB (w : Vpe) (n : BitVec 3) (x : BitVec 15) : Vpe := { w with b := w.b.set n.toNat x (n.isLt) }

/-- A length above 32 768 leaves 32 768 (R235). -/
def Vpe.setN (w : Vpe) (n : BitVec 3) (x : BitVec 16) : Vpe :=
  { w with n := w.n.set n.toNat (if 32768 < x.toNat then 32768 else x) (n.isLt) }

/-- A predicate register as four bits: K0 reads 0b1111 always, a stage predicate reads 0 or 1 (R215). -/
def Vpe.getK (r : Vpe) (i : Nat) : BitVec 4 :=
  match i with
  | 0 => 15
  | 1 => r.k[0] | 2 => r.k[1] | 3 => r.k[2]
  | 4 => if r.stage[0] then 1 else 0
  | 5 => if r.stage[1] then 1 else 0
  | 6 => if r.stage[2] then 1 else 0
  | _ => if r.stage[3] then 1 else 0

/-- Write a predicate register; a write to K0 is ignored (R215, R239). -/
def Vpe.setK (w : Vpe) (i : Nat) (x : BitVec 4) : Vpe :=
  match i with
  | 0 => w
  | 1 => { w with k := w.k.set 0 x }
  | 2 => { w with k := w.k.set 1 x }
  | 3 => { w with k := w.k.set 2 x }
  | 4 => { w with stage := w.stage.set 0 (x.getLsbD 0) }
  | 5 => { w with stage := w.stage.set 1 (x.getLsbD 0) }
  | 6 => { w with stage := w.stage.set 2 (x.getLsbD 0) }
  | _ => { w with stage := w.stage.set 3 (x.getLsbD 0) }

/-- Write enabled lanes of a vector register and record the events in VST (R232). -/
def Vpe.putV (w : Vpe) (rot : BitVec 4) (n : BitVec 5) (m : BitVec 4) (x : V4 (BitVec 18)) (ev : BitVec 4) : Vpe :=
  let i := physV rot n
  let old := w.v[i.toNat]'(i.isLt)
  { w with v := w.v.set i.toNat (V4.blend m old x) (i.isLt), vst := w.vst ||| (ev &&& m).zeroExtend 16 }

/-- Write enabled lanes of an accumulator and record the events in VST (R229, R232). -/
def Vpe.putAC (w : Vpe) (n : BitVec 3) (m : BitVec 4) (x : V4 (BitVec 48)) (ev : BitVec 4) : Vpe :=
  let old := w.ac[n.toNat]'(n.isLt)
  { w with ac := w.ac.set n.toNat (V4.blend m old x) (n.isLt)
           vst := w.vst ||| ((ev &&& m).zeroExtend 16 <<< 4) }

/-- Read a register by its 6-bit code (R219), in 36 bits. -/
def Vpe.getCode (r : Vpe) (c : BitVec 6) : BitVec 36 :=
  let i := c.toNat % 8
  match c.toNat / 8 with
  | 0 => r.getS (c.truncate 4)
  | 1 => r.getS (c.truncate 4)
  | 2 => (r.getP (c.truncate 3)).zeroExtend 36
  | 3 => (r.getB (c.truncate 3)).zeroExtend 36
  | 4 => (r.getN (c.truncate 3)).zeroExtend 36
  | 5 => (r.getK i).zeroExtend 36
  | _ =>
    match i with
    | 0 => (r.lc0.truncate 16).zeroExtend 36
    | 1 => (r.lc1.truncate 16).zeroExtend 36
    | 2 => r.rot.zeroExtend 36
    | 3 => r.vst.zeroExtend 36
    | _ => r.amode.zeroExtend 36

/-- Write a register by its 6-bit code, keeping the low bits it holds; VST bits are cleared by ones (R232, R235). -/
def Vpe.setCode (w : Vpe) (c : BitVec 6) (x : BitVec 36) : Vpe :=
  let i := c.toNat % 8
  match c.toNat / 8 with
  | 0 => w.setS (c.truncate 4) x
  | 1 => w.setS (c.truncate 4) x
  | 2 => w.setP (c.truncate 3) (x.truncate 15)
  | 3 => w.setB (c.truncate 3) (x.truncate 15)
  | 4 => w.setN (c.truncate 3) (x.truncate 16)
  | 5 => w.setK i (x.truncate 4)
  | _ =>
    match i with
    | 0 => { w with lc0 := (x.truncate 16).zeroExtend 17 }
    | 1 => { w with lc1 := (x.truncate 16).zeroExtend 17 }
    | 2 => { w with rot := x.truncate 4 }
    | 3 => { w with vst := w.vst &&& ~~~ (x.truncate 16) }
    | _ => { w with amode := x.truncate 8 }

/-- Whether a register code is one of R219. -/
def codeOk (c : BitVec 6) : Bool := c.toNat ≤ 0x34

/-! ### Predicates (R218) -/

/-- The lanes a predicate field enables for an M-slot op; 8 is reserved and enables none. -/
def Vpe.mask (r : Vpe) (p : BitVec 4) : BitVec 4 :=
  let lanes := fun i => if i < 4 then r.getK i else if r.getK i = 1 then 15 else 0
  let n := p.toNat
  if n = 0 then 15 else if n < 8 then lanes n else if n = 8 then 0 else ~~~ (lanes (n - 8))

/-- Whether an L or X slot with a predicate executes: lane 0 of the predicate. -/
def Vpe.enabled (r : Vpe) (p : BitVec 4) : Bool := (r.mask p).getLsbD 0

/-! ### Slots -/

/-- Which slot of a bundle an operation belongs to (R239). -/
inductive Slot where
  | any | m | x | l
  deriving DecidableEq, Repr

/-- The slot of an operation. -/
def slotKind : VOp → Slot
  | .nop => .any
  | .mul _ | .mac _ | .msu _ | .cmac _ | .cmacj _ | .acclr _ | .acadd _ _ _ | .acsub _ _ _ | .acsh _ _ _ _
  | .acins _ _ _ | .spl _ _ _ | .nrw _ _ _ _ | .expa _ _ | .norma _ _ | .vadd _ | .vsub _ | .vmax _ | .vmin _
  | .vabs _ | .vneg _ | .vshl _ | .vshr _ | .vand _ | .vor _ | .vxor _ | .exp _ | .norm _ | .bexp _ | .vshlv _
  | .vcmpgt _ | .vcmpeq _ | .vsel _ | .vmov _ => .m
  | .ld _ | .st _ | .ld2 _ | .ldst _ | .lds _ | .sts _ => .l
  | .movi _ _ | .aluAdd _ | .aluSub _ | .aluAnd _ | .aluOr _ | .aluXor _ | .aluShl _ | .aluShr _ | .aluShru _
  | .aluMul _ | .aluMin _ | .aluMax _ | .aluMov _ _ | .addi _ _ _ | .br _ | .loop _ | .vbc _ _ | .vext _ _ _
  | .valn _ _ _ _ | .cmv _ | .waitm | .stop | .fail _ | .pset _ _ => .x

/-- A lane-wise result of 18 bits with its event. -/
def Vpe.lanesV (w : Vpe) (rot : BitVec 4) (n : BitVec 5) (m : BitVec 4) (f : Nat → BitVec 18 × Bool) : Vpe :=
  w.putV rot n m (V4.ofFn (fun i => (f i).1)) (laneBits (fun i => (f i).2))

/-- A lane-wise result of 48 bits with its event. -/
def Vpe.lanesAC (w : Vpe) (n : BitVec 3) (m : BitVec 4) (f : Nat → BitVec 48 × Bool) : Vpe :=
  w.putAC n m (V4.ofFn (fun i => (f i).1)) (laneBits (fun i => (f i).2))

/-- An M-slot operation on the lanes of a mask (R229 to R234). -/
def mSlot (op : VOp) (m : BitVec 4) (r w : Vpe) : Vpe :=
  match op with
  | .mul f =>
    w.lanesAC f.acd m (fun i => (BitVec.ofInt 48 (prodOf (r.getV f.va) (r.getV f.vb) f.bsel i), false))
  | .mac f =>
    w.lanesAC f.acd m (fun i =>
      narrowTo 48 f.sat (((r.getAC f.acd).lane i).toInt + prodOf (r.getV f.va) (r.getV f.vb) f.bsel i))
  | .msu f =>
    w.lanesAC f.acd m (fun i =>
      narrowTo 48 f.sat (((r.getAC f.acd).lane i).toInt - prodOf (r.getV f.va) (r.getV f.vb) f.bsel i))
  | .cmac f => cmacLanes false f
  | .cmacj f => cmacLanes true f
  | .acclr acd => w.lanesAC acd m (fun _ => (0, false))
  | .acadd acd acs sat =>
    w.lanesAC acd m (fun i => narrowTo 48 sat (((r.getAC acd).lane i).toInt + ((r.getAC acs).lane i).toInt))
  | .acsub acd acs sat =>
    w.lanesAC acd m (fun i => narrowTo 48 sat (((r.getAC acd).lane i).toInt - ((r.getAC acs).lane i).toInt))
  | .acsh acd acs cnt sat =>
    w.lanesAC acd m (fun i => narrowTo 48 sat (shiftBy false ((r.getAC acs).lane i).toInt cnt.toInt))
  | .acins acd va q =>
    w.lanesAC acd m (fun i => (acInsert q ((r.getAC acd).lane i) ((r.getV va).lane i), false))
  | .spl vd acs q => w.lanesV r.rot vd m (fun i => (acField q ((r.getAC acs).lane i), false))
  | .nrw acs vd sh sat => w.lanesV r.rot vd m (fun i => narrowLane sat sh.toNat ((r.getAC acs).lane i))
  | .expa acs vd => w.lanesV r.rot vd m (fun i => (BitVec.ofNat 18 (expOf 48 ((r.getAC acs).lane i)), false))
  | .norma acs acd => w.lanesAC acd m (fun i => (normaOf ((r.getAC acs).lane i), false))
  | .vadd f => w.lanesV r.rot f.vd m (fun i => narrowTo 18 f.sat ((a f i).toInt + (b f i).toInt))
  | .vsub f => w.lanesV r.rot f.vd m (fun i => narrowTo 18 f.sat ((a f i).toInt - (b f i).toInt))
  | .vmax f => w.lanesV r.rot f.vd m (fun i => (if (a f i).slt (b f i) then b f i else a f i, false))
  | .vmin f => w.lanesV r.rot f.vd m (fun i => (if (a f i).slt (b f i) then a f i else b f i, false))
  | .vabs f => w.lanesV r.rot f.vd m (fun i => narrowTo 18 f.sat (Int.ofNat (a f i).toInt.natAbs))
  | .vneg f => w.lanesV r.rot f.vd m (fun i => narrowTo 18 f.sat (-(a f i).toInt))
  | .vshl f => w.lanesV r.rot f.vd m (fun i => narrowTo 18 f.sat (shiftBy false (a f i).toInt f.imm.toNat))
  | .vshr f => w.lanesV r.rot f.vd m (fun i => (BitVec.ofInt 18 (shrRound f.rnd (a f i).toInt f.imm.toNat), false))
  | .vand f => w.lanesV r.rot f.vd m (fun i => (a f i &&& b f i, false))
  | .vor f => w.lanesV r.rot f.vd m (fun i => (a f i ||| b f i, false))
  | .vxor f => w.lanesV r.rot f.vd m (fun i => (a f i ^^^ b f i, false))
  | .exp f => w.lanesV r.rot f.vd m (fun i => (BitVec.ofNat 18 (expOf 18 (a f i)), false))
  | .norm f => w.lanesV r.rot f.vd m (fun i => (normOf (a f i), false))
  | .bexp f =>
    let e := min (min (expOf 18 (a f 0)) (expOf 18 (a f 1))) (min (expOf 18 (a f 2)) (expOf 18 (a f 3)))
    w.lanesV r.rot f.vd m (fun _ => (BitVec.ofNat 18 e, false))
  | .vshlv f => w.lanesV r.rot f.vd m (fun i => narrowTo 18 f.sat (shiftBy f.rnd (a f i).toInt (b f i).toInt))
  | .vcmpgt f => cmpLanes f (fun i => (b f i).slt (a f i))
  | .vcmpeq f => cmpLanes f (fun i => a f i == b f i)
  | .vsel f =>
    w.lanesV r.rot f.vd m (fun i => (if (r.getK (f.imm.toNat % 8)).getLsbD i then a f i else b f i, false))
  | .vmov f => w.lanesV r.rot f.vd m (fun i => (a f i, false))
  | _ => w
where
  /-- Lane i of the two vector operands. -/
  a (f : VF) (i : Nat) : BitVec 18 := (r.getV f.va).lane i
  b (f : VF) (i : Nat) : BitVec 18 := (r.getV f.vb).lane i
  /-- A compare writes the enabled lanes of its predicate register. -/
  cmpLanes (f : VF) (c : Nat → Bool) : Vpe :=
    let i := f.vd.toNat % 8
    w.setK i ((w.getK i &&& ~~~ m) ||| (laneBits c &&& m))
  /-- A complex multiply-accumulate writes the two lanes of its pair (R234). -/
  cmacLanes (conj : Bool) (f : CF) : Vpe :=
    let p := if f.pair then 1 else 0
    w.lanesAC f.acd (m &&& (if f.pair then 12 else 3)) (fun i =>
      narrowTo 48 f.sat (((r.getAC f.acd).lane i).toInt + cprodOf conj (r.getV f.va) (r.getV f.vb) p i))

/-- An ALU result with its event (R235). -/
def aluSlot (o : AluOp) (f : XF) (r w : Vpe) : Vpe :=
  let x := aluOp o (r.getCode f.a) (r.getCode f.b)
  let t := w.setCode f.d x.1
  if x.2 then { t with vst := t.vst ||| 0x100 } else t

/-- Octets of free values: what a move of the cluster move unit leaves in the lines of the window (R224, log
entry 10). -/
def freeWindow (fr : Nat) (r : Vpe) : FMap (BitVec 72) :=
  (List.range (r.wHi + 1 - r.wLo)).foldl (fun m i =>
    FMap.set m (r.wLo + i) (Config.movedLine fr (r.wLo + i) (FMap.getD m (r.wLo + i) 0))) r.mem

/-- The registers an X-slot operation writes; control transfer follows in `control`. -/
def xSlot (op : VOp) (fr : Nat) (r w : Vpe) : Vpe :=
  match op with
  | .movi d imm => w.setCode d (imm.signExtend 36)
  | .aluAdd f => aluSlot .add f r w
  | .aluSub f => aluSlot .sub f r w
  | .aluAnd f => aluSlot .and f r w
  | .aluOr f => aluSlot .or f r w
  | .aluXor f => aluSlot .xor f r w
  | .aluShl f => aluSlot .shl f r w
  | .aluShr f => aluSlot .shr f r w
  | .aluShru f => aluSlot .shru f r w
  | .aluMul f => aluSlot .mul f r w
  | .aluMin f => aluSlot .min f r w
  | .aluMax f => aluSlot .max f r w
  | .aluMov d a => w.setCode d (r.getCode a)
  | .addi d a imm =>
    let x := aluOp .add (r.getCode a) (imm.signExtend 36)
    let t := w.setCode d x.1
    if x.2 then { t with vst := t.vst ||| 0x100 } else t
  | .vbc vd a => w.lanesV r.rot vd 15 (fun _ => ((r.getS a).truncate 18, false))
  | .vext d va lane => w.setS d (((r.getV va).lane lane.toNat).signExtend 36)
  | .valn vd va vb j =>
    let x := fun i => if i < 4 then (r.getV va).lane i else (r.getV vb).lane (i - 4)
    w.lanesV r.rot vd 15 (fun i => (x (i + j.toNat), false))
  | .cmv _ => { w with moves := w.moves + 1, mem := freeWindow fr r }
  | .waitm => { w with moves := 0 }
  | .pset d imm => w.setK (d.toNat % 8) (imm.truncate 4)
  | _ => w

/-- Whether a line may be loaded from or stored to (R222). -/
def Vpe.inWindow (r : Vpe) (line : Nat) : Bool := r.wLo ≤ line && line ≤ r.wHi
def Vpe.loadable (r : Vpe) (line : Nat) : Bool := r.inWindow line || 30720 ≤ line

/-- A line of the data memory. -/
def Vpe.line (r : Vpe) (i : Nat) : BitVec 72 := FMap.getD r.mem i 0

/-- Store a line; a line of zeros is not listed. -/
def putLine (m : FMap (BitVec 72)) (i : Nat) (x : BitVec 72) : FMap (BitVec 72) :=
  if x = 0 then FMap.del m i else FMap.set m i x

/-- Pointer n after a step from p (R226, R227). -/
def Vpe.next (r : Vpe) (n : BitVec 3) (p : BitVec 15) (md : BitVec 3) : BitVec 15 :=
  if md = 0 then p
  else stepPtr p (r.getB n) (r.getN n) (r.amode.getLsbD n.toNat) (stepOf md (r.getS 14) (r.getS 15))

/-- The line that access A and access B of an L-slot operation use (R223). -/
def Vpe.lineA (r : Vpe) (f : LF) : Nat := (r.getP f.pa).toNat
def Vpe.ptrB (r : Vpe) (f : LF) : BitVec 15 :=
  if f.pb = f.pa then r.next f.pa (r.getP f.pa) f.ma else r.getP f.pb
def Vpe.lineB (r : Vpe) (f : LF) : Nat := (r.ptrB f).toNat

/-- Post-modify of pointer A, and of both pointers. -/
def modA (f : LF) (r w : Vpe) : Vpe := w.setP f.pa (r.next f.pa (r.getP f.pa) f.ma)
def modAB (f : LF) (r w : Vpe) : Vpe := (modA f r w).setP f.pb (r.next f.pb (r.ptrB f) f.mb)

/-- An L-slot operation; `none` is a BOUNDS fault (R222, R223). -/
def lSlot (op : VOp) (r w : Vpe) : Option Vpe :=
  match op with
  | .ld f =>
    if r.loadable (r.lineA f) then
      some (modA f r (w.putV r.rot f.ra 15 (lanesOf (r.line (r.lineA f))) 0))
    else none
  | .st f =>
    if r.inWindow (r.lineA f) then
      some (modA f r { w with mem := putLine w.mem (r.lineA f) (lineOf (r.getV f.ra)) })
    else none
  | .ld2 f =>
    if r.loadable (r.lineA f) && r.loadable (r.lineB f) then
      some (modAB f r ((w.putV r.rot f.ra 15 (lanesOf (r.line (r.lineA f))) 0).putV r.rot f.rb 15
        (lanesOf (r.line (r.lineB f))) 0))
    else none
  | .ldst f =>
    if r.loadable (r.lineA f) && r.inWindow (r.lineB f) then
      some (modAB f r { w.putV r.rot f.ra 15 (lanesOf (r.line (r.lineA f))) 0 with
        mem := putLine w.mem (r.lineB f) (lineOf (r.getV f.rb)) })
    else none
  | .lds f =>
    if r.loadable (r.lineA f) then
      let x := r.line (r.lineA f)
      let i : BitVec 4 := f.ra.truncate 4
      some (modA f r ((w.setS i (x.extractLsb' 0 36)).setS (i + 1) (x.extractLsb' 36 36)))
    else none
  | .sts f =>
    if r.inWindow (r.lineA f) then
      let i : BitVec 4 := f.ra.truncate 4
      some (modA f r { w with mem := putLine w.mem (r.lineA f) (r.getS (i + 1) ++ r.getS i) })
    else none
  | _ => some w

/-! ### Control (R236 to R238) -/

/-- Read and write of the loop records and counters. -/
def Vpe.getLoop (r : Vpe) (c : Bool) : Option Loop := if c then r.loop1 else r.loop0
def Vpe.setLoop (w : Vpe) (c : Bool) (l : Option Loop) : Vpe := if c then { w with loop1 := l } else { w with loop0 := l }
def Vpe.getLC (r : Vpe) (c : Bool) : BitVec 17 := if c then r.lc1 else r.lc0
def Vpe.setLC (w : Vpe) (c : Bool) (x : BitVec 17) : Vpe := if c then { w with lc1 := x } else { w with lc0 := x }

/-- A loop left by a branch ends and its counter is cleared (R238). -/
def Vpe.leave (w : Vpe) (c : Bool) (target : Nat) : Vpe :=
  match w.getLoop c with
  | some l => if l.first ≤ target && target ≤ l.last then w else (w.setLoop c none).setLC c 0
  | none => w

/-- The iteration boundary of a loop (R236, R237): the stage predicates advance and the counter falls. -/
def Vpe.boundary (w : Vpe) (c : Bool) (l : Loop) : Vpe :=
  let w1 :=
    if l.pipelined then
      { w with rot := w.rot - 1
               stage := #v[decide (l.begun < l.c), w.stage[0], w.stage[1], w.stage[2]] }
    else w
  let left := (w1.getLC c).toNat - 1
  let w2 := w1.setLC c (BitVec.ofNat 17 left)
  if left = 0 then { w2.setLoop c none with pc := w.pc + 1 }
  else { w2.setLoop c (some { l with begun := l.begun + 1 }) with pc := l.first }

/-- Go on to the next bundle: an iteration boundary where the bundle ends a loop. -/
def Vpe.advance (w : Vpe) : Vpe :=
  match w.loop0, w.loop1 with
  | some l, _ => if l.last = w.pc then w.boundary false l else
      match w.loop1 with
      | some k => if k.last = w.pc then w.boundary true k else { w with pc := w.pc + 1 }
      | none => { w with pc := w.pc + 1 }
  | none, some k => if k.last = w.pc then w.boundary true k else { w with pc := w.pc + 1 }
  | none, none => { w with pc := w.pc + 1 }

/-- Start a loop (R236, R237); the count is bits [15:0] of the named scalar. -/
def Vpe.startLoop (w : Vpe) (f : LoopF) (c : Nat) : Vpe :=
  if c = 0 then { w with pc := f.endB.toNat + 1 }
  else
    let n := if f.pipelined then c + f.stages.toNat else c
    let l : Loop := { first := w.pc + 1, last := f.endB.toNat, begun := 1, c, pipelined := f.pipelined }
    let w1 := (w.setLoop f.ctr (some l)).setLC f.ctr (BitVec.ofNat 17 n)
    { w1 with pc := w.pc + 1, stage := if f.pipelined then #v[true, false, false, false] else w.stage }

/-- A fault ends the op (R240). -/
def Vpe.fault (w : Vpe) (k : FaultKind) (code : Nat := 0) : Vpe := { w with run := .faulted k code }

/-- What follows a bundle: the control operation of the X slot if it executes, the next bundle otherwise. -/
def control (op : VOp) (on : Bool) (r w : Vpe) : Vpe :=
  if !on then w.advance
  else
    match op with
    | .br target => { (w.leave false target.toNat).leave true target.toNat with pc := target.toNat }
    | .loop f => w.startLoop f ((r.getS f.cnt).toNat % 65536)
    | .stop =>
      if w.maxOut < (w.getS 1).toNat then w.fault .overrun else { w with run := .stopped }
    | .fail code => w.fault .kernelFail code.toNat
    | _ => w.advance

/-- One slot word of a bundle: its predicate and its operation. -/
abbrev SlotWord := BitVec 4 × VOp

/-- Issue one bundle of slots M0, M1, X, L (R220). A kernel that has run past its code faults ILLEGAL, one that has
issued all its bundles OVERRUN (R240); a BOUNDS fault leaves nothing of the bundle. -/
def issue (fr : Nat) (m0 m1 x l : SlotWord) (r : Vpe) : Vpe :=
  if r.run ≠ .running then r
  else if r.pc < r.kBase || r.kBase + r.kLen ≤ r.pc then r.fault .illegal
  else if r.maxBundles ≤ r.issued then r.fault .overrun
  else
    let xOn := r.enabled x.1
    let wx := if xOn then xSlot x.2 fr r { r with issued := r.issued + 1 } else { r with issued := r.issued + 1 }
    let wm := mSlot m1.2 (r.mask m1.1) r (mSlot m0.2 (r.mask m0.1) r wx)
    match if r.enabled l.1 then lSlot l.2 r wm else some wm with
    | none => ({ r with issued := r.issued + 1 }).fault .bounds
    | some w => control x.2 xOn r w

/-- The empty slot. -/
abbrev nopSlot : SlotWord := (0, .nop)

/-- A bundle that holds one operation in its slot and NOP elsewhere. -/
def issueOne (fr : Nat) (p : BitVec 4) (op : VOp) (r : Vpe) : Vpe :=
  match slotKind op with
  | .any => issue fr (p, op) nopSlot nopSlot nopSlot r
  | .m => issue fr (p, op) nopSlot nopSlot nopSlot r
  | .x => issue fr nopSlot nopSlot (p, op) nopSlot r
  | .l => issue fr nopSlot nopSlot nopSlot (p, op) r

/-- A VPE with every register 0 and no op (R216). -/
def Vpe.initial : Vpe :=
  { v := Vector.replicate 32 ⟨0, 0, 0, 0⟩, ac := Vector.replicate 8 ⟨0, 0, 0, 0⟩, s := Vector.replicate 16 0,
    p := Vector.replicate 8 0, b := Vector.replicate 8 0, n := Vector.replicate 8 0, amode := 0,
    k := Vector.replicate 3 0, stage := Vector.replicate 4 false, rot := 0, vst := 0, lc0 := 0, lc1 := 0,
    loop0 := none, loop1 := none, pc := 0, wLo := 0, wHi := 0, kBase := 0, kLen := 0, maxBundles := 0, maxOut := 0,
    kernelId := 0, issued := 0, run := .idle, moves := 0, mem := [], op := none, progBad := false }

end Sys2Proof.Machine
end

