-- ==== Sys2Proof/Machine/VpeDecode.lean ====
section
/-! DEFINITION. The slot words of a VPE bundle (R219, R239): the encoding of every operation, and a decoder that
refuses what the loader refuses (R244). -/

namespace Sys2Proof.Machine

open Sys2Proof

/-- The opcode of an operation in its slot (R239). -/
def opcodeOf : VOp → BitVec 6
  | .nop => 0x00
  | .mul _ => 0x01 | .mac _ => 0x02 | .msu _ => 0x03 | .cmac _ => 0x04 | .cmacj _ => 0x05
  | .acclr _ => 0x08 | .acadd _ _ _ => 0x09 | .acsub _ _ _ => 0x0A | .acsh _ _ _ _ => 0x0B
  | .acins _ _ _ => 0x0C | .spl _ _ _ => 0x0D
  | .nrw _ _ _ _ => 0x10 | .expa _ _ => 0x11 | .norma _ _ => 0x12
  | .vadd _ => 0x18 | .vsub _ => 0x19 | .vmax _ => 0x1A | .vmin _ => 0x1B | .vabs _ => 0x1C | .vneg _ => 0x1D
  | .vshl _ => 0x1E | .vshr _ => 0x1F | .vand _ => 0x20 | .vor _ => 0x21 | .vxor _ => 0x22
  | .exp _ => 0x24 | .norm _ => 0x25 | .bexp _ => 0x26 | .vshlv _ => 0x27
  | .vcmpgt _ => 0x28 | .vcmpeq _ => 0x29 | .vsel _ => 0x2A | .vmov _ => 0x2B
  | .ld _ => 0x01 | .st _ => 0x02 | .ld2 _ => 0x03 | .ldst _ => 0x04 | .lds _ => 0x05 | .sts _ => 0x06
  | .movi _ _ => 0x01
  | .aluAdd _ | .aluSub _ | .aluAnd _ | .aluOr _ | .aluXor _ | .aluShl _ | .aluShr _ | .aluShru _ | .aluMul _
  | .aluMin _ | .aluMax _ | .aluMov _ _ => 0x02
  | .addi _ _ _ => 0x03 | .br _ => 0x04 | .loop _ => 0x05 | .vbc _ _ => 0x06 | .vext _ _ _ => 0x07
  | .valn _ _ _ _ => 0x08 | .cmv _ => 0x09 | .waitm => 0x0A | .stop => 0x0B | .fail _ => 0x0C | .pset _ _ => 0x0D

/-- One bit of a Bool. -/
abbrev b1 (b : Bool) : BitVec 1 := BitVec.ofBool b

/-- Bits [21:0] of format M. -/
def bodyM (f : MF) : BitVec 22 := f.acd ++ f.va ++ f.vb ++ f.bsel ++ b1 f.sat ++ 0#5
/-- Bits [21:0] of CMAC and CMACJ. -/
def bodyC (f : CF) : BitVec 22 := f.acd ++ f.va ++ f.vb ++ 0#2 ++ b1 f.pair ++ b1 f.sat ++ 0#5
/-- Bits [21:0] of format MV. -/
def bodyV (f : VF) : BitVec 22 := f.vd ++ f.va ++ f.vb ++ f.imm ++ b1 f.sat ++ b1 f.rnd
/-- Bits [21:0] of format L. -/
def bodyL (f : LF) : BitVec 22 := f.ra ++ f.pa ++ f.ma ++ f.rb ++ f.pb ++ f.mb
/-- Bits [21:0] of format XR. -/
def bodyX (d a b : BitVec 6) (op : BitVec 4) : BitVec 22 := d ++ a ++ b ++ op

/-- Bits [21:0] of an operation (R219). -/
def bodyOf : VOp → BitVec 22
  | .nop => 0
  | .mul f | .mac f | .msu f => bodyM f
  | .cmac f | .cmacj f => bodyC f
  | .acclr acd => acd ++ 0#19
  | .acadd acd acs sat | .acsub acd acs sat => acd ++ acs ++ 0#10 ++ b1 sat ++ 0#5
  | .acsh acd acs cnt sat => acd ++ acs ++ cnt ++ 0#3 ++ b1 sat ++ 0#5
  | .acins acd va q => acd ++ va ++ 0#6 ++ q ++ 0#6
  | .spl vd acs q => 0#3 ++ acs ++ 0#2 ++ vd ++ 0#1 ++ q ++ 0#6
  | .nrw acs vd sh sat => acs ++ vd ++ sh ++ 0#2 ++ b1 sat ++ 0#5
  | .expa acs vd => acs ++ vd ++ 0#14
  | .norma acs acd => acs ++ acd ++ 0#16
  | .vadd f | .vsub f | .vmax f | .vmin f | .vabs f | .vneg f | .vshl f | .vshr f | .vand f | .vor f | .vxor f
  | .exp f | .norm f | .bexp f | .vshlv f | .vcmpgt f | .vcmpeq f | .vsel f | .vmov f => bodyV f
  | .ld f | .st f | .ld2 f | .ldst f | .lds f | .sts f => bodyL f
  | .movi d imm | .pset d imm => d ++ imm
  | .aluAdd f => bodyX f.d f.a f.b 0
  | .aluSub f => bodyX f.d f.a f.b 1
  | .aluAnd f => bodyX f.d f.a f.b 2
  | .aluOr f => bodyX f.d f.a f.b 3
  | .aluXor f => bodyX f.d f.a f.b 4
  | .aluShl f => bodyX f.d f.a f.b 5
  | .aluShr f => bodyX f.d f.a f.b 6
  | .aluShru f => bodyX f.d f.a f.b 7
  | .aluMul f => bodyX f.d f.a f.b 8
  | .aluMin f => bodyX f.d f.a f.b 9
  | .aluMax f => bodyX f.d f.a f.b 10
  | .aluMov d a => bodyX d a 0 11
  | .addi d a imm => d ++ a ++ imm
  | .br target => target ++ 0#10
  | .loop f => f.endB ++ b1 f.ctr ++ f.stages ++ b1 f.pipelined ++ f.cnt ++ 0#2
  | .vbc vd a => 0#1 ++ vd ++ 0#2 ++ a ++ 0#10
  | .vext d va lane => 0#2 ++ d ++ 0#1 ++ va ++ 0#4 ++ lane ++ 0#4
  | .valn vd va vb j => 0#1 ++ vd ++ 0#1 ++ va ++ 0#1 ++ vb ++ j
  | .cmv a => 0#6 ++ 0#2 ++ a ++ 0#10
  | .waitm | .stop => 0
  | .fail code => 0#6 ++ code

/-- The slot word of an operation (R219): predicate, opcode, body. -/
def encodeSlot (p : BitVec 4) (op : VOp) : BitVec 32 := p ++ opcodeOf op ++ bodyOf op

/-- The operations a slot word may hold (R239, R244): register codes, counts and selectors in their ranges. -/
def opOk (op : VOp) : Bool :=
  match op with
  | .mul f | .mac f | .msu f => f.bsel = 0 || 4 ≤ f.bsel.toNat
  | .acsh _ _ cnt _ => -47 ≤ cnt.toInt && cnt.toInt ≤ 47
  | .acins _ _ q | .spl _ _ q => q ≠ 3
  | .nrw _ _ sh _ => sh.toNat ≤ 47
  | .vshl f => f.imm.toNat ≤ 17
  | .vcmpgt f | .vcmpeq f => 1 ≤ f.vd.toNat && f.vd.toNat ≤ 3
  | .vsel f => 1 ≤ f.imm.toNat && f.imm.toNat ≤ 3
  | .lds f | .sts f => f.ra.toNat % 2 = 0 && f.ra.toNat < 16
  | .movi d _ => codeOk d
  | .aluAdd f | .aluSub f | .aluAnd f | .aluOr f | .aluXor f | .aluShl f | .aluShr f | .aluShru f | .aluMul f
  | .aluMin f | .aluMax f => codeOk f.d && codeOk f.a && codeOk f.b
  | .aluMov d a => codeOk d && codeOk a
  | .addi d a _ => codeOk d && codeOk a
  | .valn _ _ _ j => j.toNat ≤ 4
  | .fail code => 1 ≤ code.toNat && code.toNat ≤ 255
  | .pset d _ => 0x28 ≤ d.toNat && d.toNat ≤ 0x2F
  | _ => true

/-- Bits [21:0] of a word. -/
abbrev bodyBits (w : BitVec 32) (lo n : Nat) : BitVec n := w.extractLsb' lo n

/-- Fields of the formats. -/
def getM (w : BitVec 32) : MF :=
  ⟨bodyBits w 19 3, bodyBits w 14 5, bodyBits w 9 5, bodyBits w 6 3, w.getLsbD 5⟩
def getC (w : BitVec 32) : CF :=
  ⟨bodyBits w 19 3, bodyBits w 14 5, bodyBits w 9 5, w.getLsbD 6, w.getLsbD 5⟩
def getVF (w : BitVec 32) : VF :=
  ⟨bodyBits w 17 5, bodyBits w 12 5, bodyBits w 7 5, bodyBits w 2 5, w.getLsbD 1, w.getLsbD 0⟩
def getLF (w : BitVec 32) : LF :=
  ⟨bodyBits w 17 5, bodyBits w 14 3, bodyBits w 11 3, bodyBits w 6 5, bodyBits w 3 3, bodyBits w 0 3⟩
def getXF (w : BitVec 32) : XF := ⟨bodyBits w 16 6, bodyBits w 10 6, bodyBits w 4 6⟩

/-- M-slot operation of a word, reserved fields not yet checked. -/
def rawM (w : BitVec 32) : Option VOp :=
  match (bodyBits w 22 6).toNat with
  | 0x00 => if bodyBits w 0 22 = 0 then some .nop else none
  | 0x01 => lowZero (.mul (getM w))
  | 0x02 => lowZero (.mac (getM w))
  | 0x03 => lowZero (.msu (getM w))
  | 0x04 => lowZero (.cmac (getC w))
  | 0x05 => lowZero (.cmacj (getC w))
  | 0x08 => lowZero (.acclr (bodyBits w 19 3))
  | 0x09 => lowZero (.acadd (bodyBits w 19 3) (bodyBits w 16 3) (w.getLsbD 5))
  | 0x0A => lowZero (.acsub (bodyBits w 19 3) (bodyBits w 16 3) (w.getLsbD 5))
  | 0x0B => lowZero (.acsh (bodyBits w 19 3) (bodyBits w 16 3) (bodyBits w 9 7) (w.getLsbD 5))
  | 0x0C => lowZero (.acins (bodyBits w 19 3) (bodyBits w 14 5) (bodyBits w 6 2))
  | 0x0D => lowZero (.spl (bodyBits w 9 5) (bodyBits w 16 3) (bodyBits w 6 2))
  | 0x10 => mnZero (.nrw (bodyBits w 19 3) (bodyBits w 14 5) (bodyBits w 8 6) (w.getLsbD 5))
  | 0x11 => mnZero (.expa (bodyBits w 19 3) (bodyBits w 14 5))
  | 0x12 => mnZero (.norma (bodyBits w 19 3) (bodyBits w 16 3))
  | 0x18 => some (.vadd (getVF w))
  | 0x19 => some (.vsub (getVF w))
  | 0x1A => some (.vmax (getVF w))
  | 0x1B => some (.vmin (getVF w))
  | 0x1C => some (.vabs (getVF w))
  | 0x1D => some (.vneg (getVF w))
  | 0x1E => some (.vshl (getVF w))
  | 0x1F => some (.vshr (getVF w))
  | 0x20 => some (.vand (getVF w))
  | 0x21 => some (.vor (getVF w))
  | 0x22 => some (.vxor (getVF w))
  | 0x24 => some (.exp (getVF w))
  | 0x25 => some (.norm (getVF w))
  | 0x26 => some (.bexp (getVF w))
  | 0x27 => some (.vshlv (getVF w))
  | 0x28 => some (.vcmpgt (getVF w))
  | 0x29 => some (.vcmpeq (getVF w))
  | 0x2A => some (.vsel (getVF w))
  | 0x2B => some (.vmov (getVF w))
  | _ => none
where
  /-- Bits [4:0] are 0 in formats M and MN. -/
  lowZero (op : VOp) : Option VOp := if bodyBits w 0 5 = 0 then some op else none
  /-- Bits [7:6] too in format MN. -/
  mnZero (op : VOp) : Option VOp := if bodyBits w 0 5 = 0 ∧ bodyBits w 6 2 = 0 then some op else none

/-- X-slot operation of a word. -/
def rawX (w : BitVec 32) : Option VOp :=
  match (bodyBits w 22 6).toNat with
  | 0x00 => if bodyBits w 0 22 = 0 then some .nop else none
  | 0x01 => some (.movi (bodyBits w 16 6) (bodyBits w 0 16))
  | 0x02 =>
    let f := getXF w
    match (bodyBits w 0 4).toNat with
    | 0 => some (.aluAdd f) | 1 => some (.aluSub f) | 2 => some (.aluAnd f) | 3 => some (.aluOr f)
    | 4 => some (.aluXor f) | 5 => some (.aluShl f) | 6 => some (.aluShr f) | 7 => some (.aluShru f)
    | 8 => some (.aluMul f) | 9 => some (.aluMin f) | 10 => some (.aluMax f) | 11 => some (.aluMov f.d f.a)
    | _ => none
  | 0x03 => some (.addi (bodyBits w 16 6) (bodyBits w 10 6) (bodyBits w 0 10))
  | 0x04 => if bodyBits w 0 10 = 0 then some (.br (bodyBits w 10 12)) else none
  | 0x05 =>
    if bodyBits w 0 2 = 0 then
      some (.loop ⟨bodyBits w 10 12, w.getLsbD 9, bodyBits w 7 2, w.getLsbD 6, bodyBits w 2 4⟩)
    else none
  | 0x06 => if w.getLsbD 21 || bodyBits w 14 2 ≠ 0 then none else some (.vbc (bodyBits w 16 5) (bodyBits w 10 4))
  | 0x07 =>
    if bodyBits w 20 2 ≠ 0 || w.getLsbD 15 then none
    else some (.vext (bodyBits w 16 4) (bodyBits w 10 5) (bodyBits w 4 2))
  | 0x08 =>
    if w.getLsbD 21 || w.getLsbD 15 || w.getLsbD 9 then none
    else some (.valn (bodyBits w 16 5) (bodyBits w 10 5) (bodyBits w 4 5) (bodyBits w 0 4))
  | 0x09 => if bodyBits w 14 2 ≠ 0 then none else some (.cmv (bodyBits w 10 4))
  | 0x0A => some .waitm
  | 0x0B => if bodyBits w 0 22 = 0 then some .stop else none
  | 0x0C => some (.fail (bodyBits w 0 16))
  | 0x0D => some (.pset (bodyBits w 16 6) (bodyBits w 0 16))
  | _ => none

/-- L-slot operation of a word. -/
def rawL (w : BitVec 32) : Option VOp :=
  match (bodyBits w 22 6).toNat with
  | 0x00 => if bodyBits w 0 22 = 0 then some .nop else none
  | 0x01 => some (.ld (getLF w))
  | 0x02 => some (.st (getLF w))
  | 0x03 => some (.ld2 (getLF w))
  | 0x04 => some (.ldst (getLF w))
  | 0x05 => some (.lds (getLF w))
  | 0x06 => some (.sts (getLF w))
  | _ => none

/-- A slot word decoded for a slot: predicate 8 and everything the loader refuses is refused. -/
def decodeSlot (k : Slot) (w : BitVec 32) : Option SlotWord :=
  let p := bodyBits w 28 4
  if p = 8 then none
  else
    match (match k with | .m => rawM w | .x => rawX w | .l => rawL w | .any => none) with
    | none => none
    | some op => if opOk op then some (p, op) else none

/-- The four slots of a bundle (R219): M0 in bits [31:0], M1 in [63:32], X in [95:64], L in [127:96]. -/
def decodeBundle (b : BitVec 128) : Option (SlotWord × SlotWord × SlotWord × SlotWord) :=
  match decodeSlot .m (b.extractLsb' 0 32), decodeSlot .m (b.extractLsb' 32 32), decodeSlot .x (b.extractLsb' 64 32),
      decodeSlot .l (b.extractLsb' 96 32) with
  | some m0, some m1, some x, some l => some (m0, m1, x, l)
  | _, _, _, _ => none

/-- A bundle from its four slots. -/
def encodeBundle (m0 m1 x l : SlotWord) : BitVec 128 :=
  encodeSlot l.1 l.2 ++ encodeSlot x.1 x.2 ++ encodeSlot m1.1 m1.2 ++ encodeSlot m0.1 m0.2

/-- Whether an operation may stand in a slot. -/
def slotFits (k : Slot) (op : VOp) : Bool := slotKind op = .any || slotKind op = k

/-! ### Loader checks on bundles (R220, R244) -/

/-- The vector, accumulator, code-named and predicate registers a slot writes, as numbers in one space: V 0–31, AC
32–39, register codes 64 and up. -/
def writesOf : VOp → List Nat
  | .mul f | .mac f | .msu f => [32 + f.acd.toNat]
  | .cmac f | .cmacj f => [32 + f.acd.toNat]
  | .acclr a | .acadd a _ _ | .acsub a _ _ | .acsh a _ _ _ | .acins a _ _ | .norma _ a => [32 + a.toNat]
  | .spl vd _ _ | .nrw _ vd _ _ | .expa _ vd => [vd.toNat]
  | .vadd f | .vsub f | .vmax f | .vmin f | .vabs f | .vneg f | .vshl f | .vshr f | .vand f | .vor f | .vxor f
  | .exp f | .norm f | .bexp f | .vshlv f | .vsel f | .vmov f => [f.vd.toNat]
  | .vcmpgt f | .vcmpeq f => [64 + 0x28 + f.vd.toNat]
  | .ld f => f.ra.toNat :: ptr f.pa f.ma
  | .ld2 f => f.ra.toNat :: f.rb.toNat :: (ptr f.pa f.ma ++ ptr f.pb f.mb)
  | .st f | .sts f => ptr f.pa f.ma
  | .ldst f => f.ra.toNat :: (ptr f.pa f.ma ++ ptr f.pb f.mb)
  | .lds f => (64 + f.ra.toNat) :: (64 + f.ra.toNat + 1) :: ptr f.pa f.ma
  | .movi d _ | .aluMov d _ | .addi d _ _ | .pset d _ => [64 + d.toNat]
  | .aluAdd f | .aluSub f | .aluAnd f | .aluOr f | .aluXor f | .aluShl f | .aluShr f | .aluShru f | .aluMul f
  | .aluMin f | .aluMax f => [64 + f.d.toNat]
  | .vbc vd _ | .valn vd _ _ _ => [vd.toNat]
  | .vext d _ _ => [64 + d.toNat]
  | .loop f =>
    (64 + 0x30 + (if f.ctr then 1 else 0)) ::
      (if f.pipelined then [64 + 0x2C, 64 + 0x2D, 64 + 0x2E, 64 + 0x2F] else [])
  | .nop | .br _ | .cmv _ | .waitm | .stop | .fail _ => []
where
  /-- A pointer register is written when its modify code is not 0. -/
  ptr (p md : BitVec 3) : List Nat := if md = 0 then [] else [64 + 0x10 + p.toNat]

/-- No bundle writes one register from two slots (R220, R244). -/
def bundleOk (m0 m1 x l : SlotWord) : Bool :=
  let w := [writesOf m0.2, writesOf m1.2, writesOf x.2, writesOf l.2]
  let clash := fun (a b : List Nat) => a.any (fun i => b.contains i)
  !(clash (w.getD 0 []) (w.getD 1 [] ++ w.getD 2 [] ++ w.getD 3 []) ||
    clash (w.getD 1 []) (w.getD 2 [] ++ w.getD 3 []) || clash (w.getD 2 []) (w.getD 3 []))

end Sys2Proof.Machine
end

