-- ==== Sys2Proof/Machine/Images.lean ====
section
/-! DEFINITION. Signed images (R441 to R445), colophons (R493 to R495) and the loading of kernels (R243 to R247). -/

namespace Sys2Proof.Machine

open Sys2Proof

/-! ### Manifest and colophon -/

/-- Whether a colophon obeys the table of R493. -/
def colophonOk (kind : Nat) (c : Bytes) : Bool :=
  let ns := byteAt c 0x0C
  let nt := byteAt c 0x0D
  let nc := byteAt c 0x0E
  c.length = 224 && leAt c 0 4 = 0x4E4F4C43 && byteAt c 4 = kind && byteAt c 5 % 2 = 0 &&
  (kind = 1 || leAt c 6 2 = 0) && 1 ≤ ns && ns ≤ 8 && nt ≤ 32 && (if kind = 2 then nc ≤ 16 else nc = 0) &&
  byteAt c 0x0F = 0 && zeroIn c (0x10 + 2 * ns) (16 - 2 * ns) && zeroIn c (0x20 + 4 * nt) (128 - 4 * nt) &&
  zeroIn c (0xA0 + 4 * nc) (64 - 4 * nc)

/-- Type, offset and length of section i. -/
def sectionAt (b : Bytes) (i : Nat) : Nat × Nat × Nat :=
  let o := 0x40 + 80 * i
  (leAt b o 2, leAt b (o + 4) 4, leAt b (o + 8) 4)

/-- Whether section entry i is well placed (R441). -/
def sectionOk (b : Bytes) (i : Nat) : Bool :=
  let o := 0x40 + 80 * i
  let (ty, off, len) := sectionAt b i
  1 ≤ ty && ty ≤ 3 && zeroIn b (o + 2) 2 && zeroIn b (o + 12) 4 && off % 64 = 0 &&
  leAt b 8 4 + 5376 ≤ off && off + len ≤ leAt b 0x14 4

/-- Whether no two sections overlap. -/
def sectionsApart (b : Bytes) (n : Nat) : Bool :=
  (List.range n).all (fun i => (List.range i).all (fun j =>
    let (_, oi, li) := sectionAt b i
    let (_, oj, lj) := sectionAt b j
    oi + li ≤ oj || oj + lj ≤ oi))

/-- Check 1 of R445: magic, kind, reserved fields, lengths and placement, the revoke field and the colophon. -/
def imageFormatOk (kind : Nat) (b : Bytes) : Bool :=
  let ml := leAt b 8 4
  let co := leAt b 0x0C 4
  let n := byteAt b 7
  let kp := byteAt b 5
  let rv := byteAt b 6
  leAt b 0 4 = 0x474D494A && byteAt b 4 = kind && (if kind = 3 then kp = 0xFF else kp ≤ 1) &&
  (if kind = 3 then rv = 0 else rv = 0 || rv = 2 ^ (1 - kp)) && 1 ≤ n && n ≤ 16 && ml % 64 = 0 && ml ≤ 65536 &&
  leAt b 0x14 4 = b.length && ml + 5376 ≤ b.length && zeroIn b 0x18 40 && leAt b 0x10 4 = 224 &&
  0x40 + 80 * n ≤ co && co + 224 ≤ ml && zeroIn b (0x40 + 80 * n) (min co (0x40 + 80 * 16) - (0x40 + 80 * n)) &&
  (List.range n).all (sectionOk b) && sectionsApart b n && zeroIn b (ml + 5357) 19 && colophonOk kind (sub b co 224)

/-- The digest D of an image (R443). -/
def imageD (b : Bytes) : Bytes := sha512 (b.take (leAt b 8 4))

/-- The key hash of an image (R443). -/
def keyHash (b : Bytes) : Bytes := (sha512 (sub b (leAt b 8 4) 1984)).take 32

/-- The failed signatures of R443: bit 0 Ed25519, bit 1 ML-DSA-65. -/
def failedSigs (b : Bytes) : Nat :=
  let m := leAt b 8 4
  let d := imageD b
  b2n (!Config.ed25519Verify (sub b m 32) d (sub b (m + 1984) 64)) +
    2 * b2n (!Config.mlDsaVerify (sub b (m + 32) 1952) d (sub b (m + 2048) 3309))

/-- The first section whose digest does not match, if any (check 5). -/
def badSection (b : Bytes) : Option Nat :=
  (List.range (byteAt b 7)).find? (fun i =>
    let (_, off, len) := sectionAt b i
    sha512 (sub b off len) != sub b (0x50 + 80 * i) 64)

/-- What the device keeps of an image. -/
def imageOf (b : Bytes) : Image :=
  let c := sub b (leAt b 0x0C 4) 224
  { version := BitVec.ofNat 32 (leAt c 8 4), blMask := byteAt c 5, hifLevels := leAt c 6 2,
    steppings := (List.range (byteAt c 0x0C)).map (fun i => leAt c (0x10 + 2 * i) 2),
    tested := (List.range (byteAt c 0x0D)).map (fun i => BitVec.ofNat 32 (leAt c (0x20 + 4 * i) 4)),
    coexists := (List.range (byteAt c 0x0E)).map (fun i => BitVec.ofNat 32 (leAt c (0xA0 + 4 * i) 4)),
    revoke := BitVec.ofNat 2 (byteAt b 6), keyPair := byteAt b 5, digest := imageD b, raw := b }

/-- Checks 1 to 5 of R445: the failing status with its detail, or the image. -/
def checkImage (sec : Sec) (kind : Nat) (b : Bytes) : Except (Nat × Nat) Image :=
  if !imageFormatOk kind b then .error (St.imgFormat, 0)
  else
    let kp := byteAt b 5
    let hashOk :=
      if kind = 3 then !sec.signHash.all (· == 0) && keyHash b = sec.signHash
      else keyHash b = padTo 32 (Config.vendorHash kp)
    if !hashOk then .error (St.imgKey, 0)
    else if kind ≠ 3 ∧ sec.revoked.getLsbD kp then .error (St.imgRevoked, 0)
    else if failedSigs b ≠ 0 then .error (St.imgSig, failedSigs b)
    else
      match badSection b with
      | some i => .error (St.imgDigest, i)
      | none => .ok (imageOf b)

/-! ### Colophon rules (R494, R495) -/

/-- A list entry matches a version; a patch of 0xFFFF matches every patch (R494). -/
def entryMatches (e v : BitVec 32) : Bool :=
  e.extractLsb' 16 16 = v.extractLsb' 16 16 && (e.extractLsb' 0 16 = v.extractLsb' 0 16 || e.extractLsb' 0 16 = 0xFFFF)

/-- Rule 1: the stepping of J1 is among those supported. -/
def rule1 (i : Image) : Bool := i.steppings.contains 0x4A31

/-- Rule 2: with the behaviour lock set, BL1 is implemented. -/
def rule2 (s : State) (i : Image) : Bool := !s.avl.behaviourLock || i.blMask.testBit 1

/-- A tested pair (R494). -/
def testedPair (cim mim : Image) : Bool :=
  cim.tested.any (fun e => entryMatches e mim.version) && mim.tested.any (fun e => entryMatches e cim.version)

/-- Rule 3: a tested pair, or exactly the accepted one. -/
def rule3 (s : State) (cim mim : Image) : Bool :=
  testedPair cim mim || s.avl.acceptUntested = some (cim.version, mim.version)

/-- Rule 4: the new Media Image coexists with the running one. -/
def rule4 (new old : Image) : Bool := new.coexists.any (fun e => entryMatches e old.version)

/-- Rule 5: every level in use is offered by the new Control Image. -/
def rule5 (s : State) (cim : Image) : Bool :=
  s.hif.rings.all (fun e => e.2.ctx.level < 16 && cim.hifLevels.testBit e.2.ctx.level) &&
  (fld s .statsCfg 0 25 16 = 0 || (fld s .statsCtrl 0 7 0 < 16 && cim.hifLevels.testBit (fld s .statsCtrl 0 7 0)))

/-- Rule 6: the user kernels list the Media Image. -/
def rule6 (uk mim : Image) : Bool := uk.tested.any (fun e => entryMatches e mim.version)

/-- Rules 1 and 2, with their statuses. -/
def rules12 (s : State) (i : Image) : Nat :=
  if !rule1 i then St.stepping else if !rule2 s i then St.blLocked else St.ok

/-! ### Kernels (R243 to R247) -/

/-- Lines of the four areas of a kernel's window (R246). -/
def Kernel.inLines (k : Kernel) : Nat := cdiv k.maxIn 8 + 3
def Kernel.outLines (k : Kernel) : Nat := cdiv k.maxOut 8
def Kernel.scratchLines (k : Kernel) : Nat := max 1 k.scratch
def Kernel.window (k : Kernel) : Nat := k.inLines + k.outLines + k.stateLines + k.scratchLines

/-- Octets of a kernel with its header. -/
def kernelLen (b : Bytes) : Nat := 64 + 16 * leAt b 8 2 + 9 * leAt b 0x0A 2

/-- The bundles and constant lines of a kernel. -/
def kernelCode (b : Bytes) : List (BitVec 128) :=
  (List.range (leAt b 8 2)).map (fun i => BitVec.ofNat 128 (leAt b (64 + 16 * i) 16))
def kernelConsts (b : Bytes) : List (BitVec 72) :=
  let o := 64 + 16 * leAt b 8 2
  (List.range (leAt b 0x0A 2)).map (fun i => BitVec.ofNat 72 (leAt b (o + 9 * i) 9))

/-- The header of a kernel, not yet placed. -/
def kernelOf (b : Bytes) : Kernel :=
  { id := leAt b 4 2, user := byteAt b 6 = 1, base := 0, bundles := leAt b 8 2, constBase := 0,
    stateLines := leAt b 0x0C 2, scratch := leAt b 0x0E 2, maxBundles := leAt b 0x10 4, maxIn := leAt b 0x14 2,
    maxOut := leAt b 0x16 2, entry := leAt b 0x18 2, classes := BitVec.ofNat 4 (byteAt b 0x1A), cost := leAt b 0x1C 4 }

/-- A place a path can reach: the bundle and the active loops, innermost first, as counter, first and last. -/
abbrev PathPoint := Nat × List (Bool × Nat × Nat)

/-- Where a path goes after the bundle it is at falls through. -/
def fallThrough (pc : Nat) (st : List (Bool × Nat × Nat)) : List PathPoint :=
  match st with
  | (c, f, l) :: r => if l = pc then [(f, (c, f, l) :: r), (pc + 1, r)] else [(pc + 1, st)]
  | [] => [(pc + 1, [])]

/-- The X operation of a bundle that decodes. -/
def xOf (b : BitVec 128) : SlotWord :=
  match decodeBundle b with
  | some (_, _, x, _) => x
  | none => nopSlot

/-- The places after one bundle, or `none` where a loop rule of R236 or R238 is broken. -/
def pathNext (code : List (BitVec 128)) (p : PathPoint) : Option (List PathPoint) :=
  let (pc, st) := p
  let n := code.length
  if n ≤ pc then some []
  else
    let x := xOf (code.getD pc 0)
    let rest := if x.1 = 0 then [] else fallThrough pc st
    match x.2 with
    | .br t => if n ≤ t.toNat then none else some ((t.toNat, st.filter (fun l => l.2.1 ≤ t.toNat && t.toNat ≤ l.2.2)) :: rest)
    | .stop => some rest
    | .fail _ => some rest
    | .loop f =>
      let e := f.endB.toNat
      if n ≤ e || e ≤ pc || 2 ≤ st.length then none
      else if st.any (fun l => l.1 == f.ctr || l.2.2 ≤ e || l.2.2 == pc) then none
      else some ((pc + 1, (f.ctr, pc + 1, e) :: st) :: (e + 1, st) :: rest)
    | _ => some (fallThrough pc st)

/-- Follow every path from a list of places; false where a rule is broken or the search does not end in time. -/
def pathsOk (code : List (BitVec 128)) (fuel : Nat) (todo seen : List PathPoint) : Bool :=
  match fuel, todo with
  | _, [] => true
  | 0, _ => false
  | k + 1, p :: r =>
    if seen.contains p then pathsOk code k r seen
    else
      match pathNext code p with
      | none => false
      | some l => pathsOk code k (l ++ r) (p :: seen)

/-- Steps in which every path is followed: each bundle under each pair of loops that can be active, with three ways on. -/
def pathFuel (code : List (BitVec 128)) : Nat :=
  let n := (code.filter (fun b => match (xOf b).2 with | .loop _ => true | _ => false)).length
  4 * code.length * (1 + n + n * n) + 64

/-- Whether a bundle passes the word checks of R244. -/
def bundleLoads (user : Bool) (b : BitVec 128) : Bool :=
  match decodeBundle b with
  | none => false
  | some (m0, m1, x, l) =>
    bundleOk m0 m1 x l && !(user && (match x.2 with | .cmv _ => true | .waitm => true | _ => false))

/-- The checks of R244 on one kernel of an image. -/
def kernelOk (user : Bool) (b : Bytes) : Bool :=
  let k := kernelOf b
  let code := kernelCode b
  leAt b 0 4 = 0x564B4E31 && byteAt b 6 = b2n user && byteAt b 7 = 1 && 1 ≤ k.bundles && k.bundles ≤ 4096 &&
  leAt b 0x0A 2 ≤ 2048 && kernelLen b ≤ b.length && byteAt b 0x1A / 16 = 0 && byteAt b 0x1B = 0 &&
  (if user then 0xF000 ≤ k.id && k.id ≤ 0xF00F && k.classes &&& 5 = 0 else k.id ≤ 0xEFFF) &&
  (sha512 (sub b 64 (kernelLen b - 64))).take 32 = sub b 0x20 32 && code.all (bundleLoads user) &&
  k.entry < k.bundles && pathsOk code (pathFuel code) [(k.entry, [])] [] && k.window ≤ 30720 &&
  k.cost ≤ k.maxBundles

/-- The kernels of a section, one after another. -/
def splitKernels (fuel : Nat) (b : Bytes) : List Bytes :=
  match fuel with
  | 0 => []
  | f + 1 => if b.length < 64 then [] else b.take (kernelLen b) :: splitKernels f (b.drop (kernelLen b))

/-- The kernels of an image: its sections of type 3. -/
def imageKernels (b : Bytes) : List Bytes :=
  (List.range (byteAt b 7)).flatMap (fun i =>
    let (ty, off, len) := sectionAt b i
    if ty = 3 then splitKernels 4096 (sub b off len) else [])

/-- A slot word with its branch target or loop end relocated (R245). -/
def relocate (base : Nat) (b : BitVec 128) : BitVec 128 :=
  match decodeBundle b with
  | some (m0, m1, (p, .br t), l) => encodeBundle m0 m1 (p, .br (t + BitVec.ofNat 12 base)) l
  | some (m0, m1, (p, .loop f), l) => encodeBundle m0 m1 (p, .loop { f with endB := f.endB + BitVec.ofNat 12 base }) l
  | _ => b

/-- Put numbered entries into a map. -/
def putAll {α : Type} (m : FMap α) (base : Nat) (l : List α) : FMap α :=
  ((List.range l.length).zip l).foldl (fun acc e => FMap.set acc (base + e.1) e.2) m

/-- Load kernels one after another from a bundle and a constant line onward (R245). -/
def loadKernels (l : List Bytes) (bundle line : Nat) (c : Code) : Code :=
  match l with
  | [] => c
  | b :: r =>
    let k := { kernelOf b with base := bundle, constBase := line, entry := bundle + leAt b 0x18 2 }
    loadKernels r (bundle + k.bundles) (line + leAt b 0x0A 2)
      { kernels := c.kernels ++ [k], prog := putAll c.prog bundle ((kernelCode b).map (relocate bundle)),
        consts := putAll c.consts line (kernelConsts b) }

/-- The first kernel that fails R244, if any. -/
def badKernel (user : Bool) (b : Bytes) : Option Nat :=
  ((imageKernels b).find? (fun k => !kernelOk user k)).map (fun k => leAt k 4 2)

/-- Bundles and constant lines that the kernels of an image take. -/
def totalBundles (b : Bytes) : Nat := ((imageKernels b).map (fun k => leAt k 8 2)).sum
def totalConsts (b : Bytes) : Nat := ((imageKernels b).map (fun k => leAt k 0x0A 2)).sum

/-- Whether the kernels fit their part of both regions (R245, R247). -/
def kernelsFit (user : Bool) (b : Bytes) : Bool :=
  if user then
    (imageKernels b).length ≤ 16 && totalBundles b ≤ 512 && totalConsts b ≤ 256 && (imageKernels b).all (fun k =>
      ((imageKernels b).filter (fun j => leAt j 4 2 == leAt k 4 2)).length == 1)
  else totalBundles b ≤ 3584 && totalConsts b ≤ 1792

/-- Checks of a Media Image: R445, R244, the regions of R245 and rules 1 and 2; failing status with detail. -/
def checkMim (s : State) (b : Bytes) : Except (Nat × Nat) Image :=
  match checkImage s.sec 2 b with
  | .error e => .error e
  | .ok i =>
    match badKernel false b with
    | some k => .error (St.badParam, k)
    | none =>
      if !kernelsFit false b then .error (St.imgFormat, 0)
      else if rules12 s i ≠ St.ok then .error (rules12 s i, 0) else .ok i

/-- Checks of a Control Image: R445 and rules 1 and 2. -/
def checkCim (s : State) (b : Bytes) : Except (Nat × Nat) Image :=
  match checkImage s.sec 1 b with
  | .error e => .error e
  | .ok i => if rules12 s i ≠ St.ok then .error (rules12 s i, 0) else .ok i

/-- Checks of a set of user kernels against a Media Image (R448). -/
def checkUser (s : State) (mim : Option Image) (b : Bytes) : Except (Nat × Nat) Image :=
  match checkImage s.sec 3 b with
  | .error e => .error e
  | .ok i =>
    if !rule1 i then .error (St.stepping, 0)
    else
      match mim with
      | none => .error (St.comboUntested, 0)
      | some m =>
        if !rule6 i m then .error (St.comboUntested, 0)
        else
          match badKernel true b with
          | some k => .error (St.badParam, k)
          | none => if kernelsFit true b then .ok i else .error (St.badParam, 0)

/-- The code of a Media Image with a set of user kernels, as every VPE of it holds it. -/
def codeOf (mim : Image) (uk : Option Image) : Code :=
  let c := loadKernels (imageKernels mim.raw) 0 30720 ⟨[], [], []⟩
  match uk with
  | some u => loadKernels (imageKernels u.raw) 3584 32512 c
  | none => c

/-- A code without its user kernels. -/
def Code.noUser (c : Code) : Code :=
  { kernels := c.kernels.filter (fun k => !k.user), prog := FMap.keep c.prog (fun i _ => i < 3584)
    consts := FMap.keep c.consts (fun i _ => i < 32512) }

end Sys2Proof.Machine
end

