-- ==== Sys2Proof/Machine/Vpe.lean ====
section
/-! DEFINITION. The VPE commands: one operation issued as a bundle of its own, and the issue of the bundle that the
program memory holds (R214 to R242). -/

namespace Sys2Proof.Machine

open Sys2Proof

/-- A VPE; one that the state does not list has every register 0 and no op. -/
def vpeAt (s : State) (n : Nat) : Vpe := FMap.getD s.vpes n Vpe.initial

/-- The slot of the Media Image that a cluster holds (R507). -/
def clusterSlot (s : State) (c : Nat) : Nat := FMap.getD s.avl.clusterMim c s.avl.mimSlot

/-- What a VPE holds of its image (R245). -/
def codeAt (s : State) (n : Nat) : Code := FMap.getD s.code (clusterSlot s (n / 16)) ⟨[], [], []⟩

/-- Put a VPE. -/
def putVpe (n : Nat) (w : Vpe) (s : State) : State := { s with vpes := FMap.set s.vpes n w }

/-- The place of a fault in the table of R240, from 0. -/
def faultIndex : FaultKind → Nat
  | .memUe => 0 | .bounds => 1 | .overrun => 2 | .illegal => 3 | .kernelFail => 4

/-- A fault of an op counts per kind and VPE and raises VPE_FAULT (R241, R409); after MEM_UE the VPE's cluster is offered
for self-test (R502). -/
def noteFault (n : Nat) (k : FaultKind) (kernel pc : Nat) (s0 : State) : State :=
  let s := if k = .memUe && !s0.avl.nextTest.contains (n / 16) then
      { s0 with avl := { s0.avl with nextTest := s0.avl.nextTest ++ [n / 16] } } else s0
  crossed Ev.vpeFault n (faultIndex k) (kernel * 2 ^ 16 + pc) none false (bumpSub .vpeFault n (faultIndex k) s)

/-- Let the op on a VPE go one bundle on; the pace monitor of its cluster counts it (R23). -/
def runVpe (n : Nat) (f : Nat → Vpe → Vpe) (s : State) : State :=
  if 272 ≤ n then s
  else
    let r := vpeAt s n
    if r.run ≠ .running then s
    else
      let w := f s.free r
      putVpe n w { s with
        free := if w.moves = r.moves then s.free else s.free + 1
        fsc := { s.fsc with pace := FMap.set s.fsc.pace (n / 16) (FMap.getD s.fsc.pace (n / 16) 0 + 1) } }

/-- One operation as a bundle of its own. An operation that the loader refuses (R244) is in no bundle: nothing is
issued (log entry 12). -/
def runOp (n : Nat) (p : BitVec 4) (op : VOp) (s : State) : State :=
  if p = 8 || !opOk op then s else runVpe n (fun fr r => issueOne fr p op r) s

/-- The bundle at the VPE's program address; a bundle that does not decode is ILLEGAL (R240). -/
def fetchIssue (prog : FMap (BitVec 128)) (fr : Nat) (r : Vpe) : Vpe :=
  match decodeBundle (FMap.getD prog r.pc 0) with
  | some (m0, m1, x, l) => issue fr m0 m1 x l r
  | none => if r.maxBundles ≤ r.issued then r.fault .overrun else r.fault .illegal

/-- BUNDLE_ISSUE (R220). -/
def execBundleIssue (vpe : Nat) (s : State) : Answer := .next (runVpe vpe (fetchIssue (codeAt s vpe).prog) s)

/-- NOP (R239). -/
def execNop (vpe : Nat) (p : BitVec 4) (s : State) : Answer := .next (runOp vpe p .nop s)

/-- MUL (R239). -/
def execMul (vpe : Nat) (p : BitVec 4) (f : MF) (s : State) : Answer := .next (runOp vpe p (.mul f) s)

/-- MAC (R239). -/
def execMac (vpe : Nat) (p : BitVec 4) (f : MF) (s : State) : Answer := .next (runOp vpe p (.mac f) s)

/-- MSU (R239). -/
def execMsu (vpe : Nat) (p : BitVec 4) (f : MF) (s : State) : Answer := .next (runOp vpe p (.msu f) s)

/-- CMAC (R239). -/
def execCmac (vpe : Nat) (p : BitVec 4) (f : CF) (s : State) : Answer := .next (runOp vpe p (.cmac f) s)

/-- CMACJ (R239). -/
def execCmacj (vpe : Nat) (p : BitVec 4) (f : CF) (s : State) : Answer := .next (runOp vpe p (.cmacj f) s)

/-- ACCLR (R239). -/
def execAcclr (vpe : Nat) (p : BitVec 4) (acd : BitVec 3) (s : State) : Answer := .next (runOp vpe p (.acclr acd) s)

/-- ACADD (R239). -/
def execAcadd (vpe : Nat) (p : BitVec 4) (acd : BitVec 3) (acs : BitVec 3) (sat : Bool) (s : State) : Answer := .next (runOp vpe p (.acadd acd acs sat) s)

/-- ACSUB (R239). -/
def execAcsub (vpe : Nat) (p : BitVec 4) (acd : BitVec 3) (acs : BitVec 3) (sat : Bool) (s : State) : Answer := .next (runOp vpe p (.acsub acd acs sat) s)

/-- ACSH (R239). -/
def execAcsh (vpe : Nat) (p : BitVec 4) (acd : BitVec 3) (acs : BitVec 3) (cnt : BitVec 7) (sat : Bool) (s : State) : Answer := .next (runOp vpe p (.acsh acd acs cnt sat) s)

/-- ACINS (R239). -/
def execAcins (vpe : Nat) (p : BitVec 4) (acd : BitVec 3) (va : BitVec 5) (q : BitVec 2) (s : State) : Answer := .next (runOp vpe p (.acins acd va q) s)

/-- SPL (R239). -/
def execSpl (vpe : Nat) (p : BitVec 4) (vd : BitVec 5) (acs : BitVec 3) (q : BitVec 2) (s : State) : Answer := .next (runOp vpe p (.spl vd acs q) s)

/-- NRW (R239). -/
def execNrw (vpe : Nat) (p : BitVec 4) (acs : BitVec 3) (vd : BitVec 5) (sh : BitVec 6) (sat : Bool) (s : State) : Answer := .next (runOp vpe p (.nrw acs vd sh sat) s)

/-- EXPA (R239). -/
def execExpa (vpe : Nat) (p : BitVec 4) (acs : BitVec 3) (vd : BitVec 5) (s : State) : Answer := .next (runOp vpe p (.expa acs vd) s)

/-- NORMA (R239). -/
def execNorma (vpe : Nat) (p : BitVec 4) (acs : BitVec 3) (acd : BitVec 3) (s : State) : Answer := .next (runOp vpe p (.norma acs acd) s)

/-- VADD (R239). -/
def execVadd (vpe : Nat) (p : BitVec 4) (f : VF) (s : State) : Answer := .next (runOp vpe p (.vadd f) s)

/-- VSUB (R239). -/
def execVsub (vpe : Nat) (p : BitVec 4) (f : VF) (s : State) : Answer := .next (runOp vpe p (.vsub f) s)

/-- VMAX (R239). -/
def execVmax (vpe : Nat) (p : BitVec 4) (f : VF) (s : State) : Answer := .next (runOp vpe p (.vmax f) s)

/-- VMIN (R239). -/
def execVmin (vpe : Nat) (p : BitVec 4) (f : VF) (s : State) : Answer := .next (runOp vpe p (.vmin f) s)

/-- VABS (R239). -/
def execVabs (vpe : Nat) (p : BitVec 4) (f : VF) (s : State) : Answer := .next (runOp vpe p (.vabs f) s)

/-- VNEG (R239). -/
def execVneg (vpe : Nat) (p : BitVec 4) (f : VF) (s : State) : Answer := .next (runOp vpe p (.vneg f) s)

/-- VSHL (R239). -/
def execVshl (vpe : Nat) (p : BitVec 4) (f : VF) (s : State) : Answer := .next (runOp vpe p (.vshl f) s)

/-- VSHR (R239). -/
def execVshr (vpe : Nat) (p : BitVec 4) (f : VF) (s : State) : Answer := .next (runOp vpe p (.vshr f) s)

/-- VAND (R239). -/
def execVand (vpe : Nat) (p : BitVec 4) (f : VF) (s : State) : Answer := .next (runOp vpe p (.vand f) s)

/-- VOR (R239). -/
def execVor (vpe : Nat) (p : BitVec 4) (f : VF) (s : State) : Answer := .next (runOp vpe p (.vor f) s)

/-- VXOR (R239). -/
def execVxor (vpe : Nat) (p : BitVec 4) (f : VF) (s : State) : Answer := .next (runOp vpe p (.vxor f) s)

/-- EXP (R239). -/
def execExp (vpe : Nat) (p : BitVec 4) (f : VF) (s : State) : Answer := .next (runOp vpe p (.exp f) s)

/-- NORM (R239). -/
def execNorm (vpe : Nat) (p : BitVec 4) (f : VF) (s : State) : Answer := .next (runOp vpe p (.norm f) s)

/-- BEXP (R239). -/
def execBexp (vpe : Nat) (p : BitVec 4) (f : VF) (s : State) : Answer := .next (runOp vpe p (.bexp f) s)

/-- VSHLV (R239). -/
def execVshlv (vpe : Nat) (p : BitVec 4) (f : VF) (s : State) : Answer := .next (runOp vpe p (.vshlv f) s)

/-- VCMPGT (R239). -/
def execVcmpgt (vpe : Nat) (p : BitVec 4) (f : VF) (s : State) : Answer := .next (runOp vpe p (.vcmpgt f) s)

/-- VCMPEQ (R239). -/
def execVcmpeq (vpe : Nat) (p : BitVec 4) (f : VF) (s : State) : Answer := .next (runOp vpe p (.vcmpeq f) s)

/-- VSEL (R239). -/
def execVsel (vpe : Nat) (p : BitVec 4) (f : VF) (s : State) : Answer := .next (runOp vpe p (.vsel f) s)

/-- VMOV (R239). -/
def execVmov (vpe : Nat) (p : BitVec 4) (f : VF) (s : State) : Answer := .next (runOp vpe p (.vmov f) s)

/-- LD (R239). -/
def execLd (vpe : Nat) (p : BitVec 4) (f : LF) (s : State) : Answer := .next (runOp vpe p (.ld f) s)

/-- ST (R239). -/
def execSt (vpe : Nat) (p : BitVec 4) (f : LF) (s : State) : Answer := .next (runOp vpe p (.st f) s)

/-- LD2 (R239). -/
def execLd2 (vpe : Nat) (p : BitVec 4) (f : LF) (s : State) : Answer := .next (runOp vpe p (.ld2 f) s)

/-- LDST (R239). -/
def execLdst (vpe : Nat) (p : BitVec 4) (f : LF) (s : State) : Answer := .next (runOp vpe p (.ldst f) s)

/-- LDS (R239). -/
def execLds (vpe : Nat) (p : BitVec 4) (f : LF) (s : State) : Answer := .next (runOp vpe p (.lds f) s)

/-- STS (R239). -/
def execSts (vpe : Nat) (p : BitVec 4) (f : LF) (s : State) : Answer := .next (runOp vpe p (.sts f) s)

/-- MOVI (R239). -/
def execMovi (vpe : Nat) (p : BitVec 4) (d : BitVec 6) (imm : BitVec 16) (s : State) : Answer := .next (runOp vpe p (.movi d imm) s)

/-- ALU_ADD (R239). -/
def execAluAdd (vpe : Nat) (p : BitVec 4) (f : XF) (s : State) : Answer := .next (runOp vpe p (.aluAdd f) s)

/-- ALU_SUB (R239). -/
def execAluSub (vpe : Nat) (p : BitVec 4) (f : XF) (s : State) : Answer := .next (runOp vpe p (.aluSub f) s)

/-- ALU_AND (R239). -/
def execAluAnd (vpe : Nat) (p : BitVec 4) (f : XF) (s : State) : Answer := .next (runOp vpe p (.aluAnd f) s)

/-- ALU_OR (R239). -/
def execAluOr (vpe : Nat) (p : BitVec 4) (f : XF) (s : State) : Answer := .next (runOp vpe p (.aluOr f) s)

/-- ALU_XOR (R239). -/
def execAluXor (vpe : Nat) (p : BitVec 4) (f : XF) (s : State) : Answer := .next (runOp vpe p (.aluXor f) s)

/-- ALU_SHL (R239). -/
def execAluShl (vpe : Nat) (p : BitVec 4) (f : XF) (s : State) : Answer := .next (runOp vpe p (.aluShl f) s)

/-- ALU_SHR (R239). -/
def execAluShr (vpe : Nat) (p : BitVec 4) (f : XF) (s : State) : Answer := .next (runOp vpe p (.aluShr f) s)

/-- ALU_SHRU (R239). -/
def execAluShru (vpe : Nat) (p : BitVec 4) (f : XF) (s : State) : Answer := .next (runOp vpe p (.aluShru f) s)

/-- ALU_MUL (R239). -/
def execAluMul (vpe : Nat) (p : BitVec 4) (f : XF) (s : State) : Answer := .next (runOp vpe p (.aluMul f) s)

/-- ALU_MIN (R239). -/
def execAluMin (vpe : Nat) (p : BitVec 4) (f : XF) (s : State) : Answer := .next (runOp vpe p (.aluMin f) s)

/-- ALU_MAX (R239). -/
def execAluMax (vpe : Nat) (p : BitVec 4) (f : XF) (s : State) : Answer := .next (runOp vpe p (.aluMax f) s)

/-- ALU_MOV (R239). -/
def execAluMov (vpe : Nat) (p : BitVec 4) (d : BitVec 6) (a : BitVec 6) (s : State) : Answer := .next (runOp vpe p (.aluMov d a) s)

/-- ADDI (R239). -/
def execAddi (vpe : Nat) (p : BitVec 4) (d : BitVec 6) (a : BitVec 6) (imm : BitVec 10) (s : State) : Answer := .next (runOp vpe p (.addi d a imm) s)

/-- BR (R239). -/
def execBr (vpe : Nat) (p : BitVec 4) (target : BitVec 12) (s : State) : Answer := .next (runOp vpe p (.br target) s)

/-- LOOP (R239). -/
def execLoop (vpe : Nat) (p : BitVec 4) (f : LoopF) (s : State) : Answer := .next (runOp vpe p (.loop f) s)

/-- VBC (R239). -/
def execVbc (vpe : Nat) (p : BitVec 4) (vd : BitVec 5) (a : BitVec 4) (s : State) : Answer := .next (runOp vpe p (.vbc vd a) s)

/-- VEXT (R239). -/
def execVext (vpe : Nat) (p : BitVec 4) (d : BitVec 4) (va : BitVec 5) (lane : BitVec 2) (s : State) : Answer := .next (runOp vpe p (.vext d va lane) s)

/-- VALN (R239). -/
def execValn (vpe : Nat) (p : BitVec 4) (vd : BitVec 5) (va : BitVec 5) (vb : BitVec 5) (j : BitVec 4) (s : State) : Answer := .next (runOp vpe p (.valn vd va vb j) s)

/-- CMV (R239). -/
def execCmv (vpe : Nat) (p : BitVec 4) (a : BitVec 4) (s : State) : Answer := .next (runOp vpe p (.cmv a) s)

/-- WAITM (R239). -/
def execWaitm (vpe : Nat) (p : BitVec 4) (s : State) : Answer := .next (runOp vpe p .waitm s)

/-- STOP (R239). -/
def execStop (vpe : Nat) (p : BitVec 4) (s : State) : Answer := .next (runOp vpe p .stop s)

/-- FAIL (R239). -/
def execFail (vpe : Nat) (p : BitVec 4) (code : BitVec 16) (s : State) : Answer := .next (runOp vpe p (.fail code) s)

/-- PSET (R239). -/
def execPset (vpe : Nat) (p : BitVec 4) (d : BitVec 6) (imm : BitVec 16) (s : State) : Answer := .next (runOp vpe p (.pset d imm) s)

end Sys2Proof.Machine
end

