-- ==== Sys2Proof/Machine/FscOps.lean ====
section
/-! DEFINITION. Flows, instances and ops of the flow scheduler: their parts, places in the release order, limits,
issue, ranks and the loading of an op on a VPE (R246 to R268). -/

namespace Sys2Proof.Machine

open Sys2Proof

/-! ### Parts of a flow -/

/-- Change the scheduler. -/
def withFsc (f : Fsc → Fsc) (s : State) : State := { s with fsc := f s.fsc }

/-- A flow, and a change to it. -/
def flow? (s : State) (f : Nat) : Option Flow := FMap.get? s.fsc.flows f
def withFlow (f : Nat) (g : Flow → Flow) (s : State) : State := withFsc (fun c => { c with flows := FMap.adj c.flows f g }) s

/-- An instance that holds slots. -/
def Flow.inst? (fl : Flow) (i : Nat) : Option Inst := fl.insts.find? (fun x => x.num == i)

/-- The op of a node. -/
def Inst.op? (x : Inst) (d : Nat) : Option Op := x.ops.find? (fun o => o.node == d)

/-- The op of a flow, instance and node. -/
def opAt (s : State) (f i d : Nat) : Option Op := (flow? s f).bind (fun fl => (fl.inst? i).bind (fun x => x.op? d))

/-- The node entry of an op. -/
def Flow.node (fl : Flow) (d : Nat) : Node :=
  fl.nodes.getD d { kernel := 0, param := 0, inQ := 0xFFFF, outQ := 0xFFFF, dataDeps := 0, orderDeps := 0, statePrev := false
                    fwdNode := 15, predKind := 0, predSense := false, spec := false, predNode := 0, predTicks := 0 }

/-- Change an instance, and change an op. -/
def withInst (f i : Nat) (g : Inst → Inst) (s : State) : State :=
  withFlow f (fun fl => { fl with insts := fl.insts.map (fun x => if x.num = i then g x else x) }) s
def withOp (f i d : Nat) (g : Op → Op) (s : State) : State :=
  withInst f i (fun x => { x with ops := x.ops.map (fun o => if o.node = d then g o else o) }) s

/-- Change every op of a flow, given its instance. -/
def withOps (f : Nat) (g : Inst → Op → Op) (s : State) : State :=
  withFlow f (fun fl => { fl with insts := fl.insts.map (fun x => { x with ops := x.ops.map (g x) }) }) s

/-- Present an event to the ordering point (R272). -/
def present (e : Presented) (s : State) : State := withFsc (fun c => { c with presented := c.presented ++ [e] }) s

/-! ### States of an op (R253, R275) -/

/-- Whether an op's result is void: CANCELLED, LATE_VOID, FAULT or UPSTREAM_VOID. -/
def Op.voided (o : Op) : Bool := o.status = 1 || o.status = 3 || o.status = 4 || o.status = 5

/-- Whether an op has ended: completed, void or skipped; a fault held under roots has not (R289). -/
def Op.ended (o : Op) : Bool :=
  (o.st = .completed || o.st = .void || o.st = .skipped || o.st = .released) && o.heldFault.isNone

/-- Whether an op waits to run. -/
def Op.waiting (o : Op) : Bool := o.st = .pending || o.st = .ready

/-- Whether an op is in flight (R267): from its dispatch to its release. -/
def Op.flying (o : Op) : Bool := o.st = .dispatched || (o.ran && (o.st = .completed || o.st = .void))

/-- The ops of a flow in release order, each with its instance. -/
def Flow.order (fl : Flow) : List (Inst × Op) := fl.insts.flatMap (fun x => x.ops.map (fun o => (x, o)))

/-- Unreleased ops of a flow (R262). -/
def Flow.slots (fl : Flow) : Nat := (fl.order.filter (fun e => e.2.st != .released)).length

/-- Every op of every flow: flow number, flow, instance, op. -/
def allOps (s : State) : List (Nat × Flow × Inst × Op) :=
  s.fsc.flows.flatMap (fun e => e.2.order.map (fun p => (e.1, e.2, p.1, p.2)))

/-- Op slots in use, ops in flight and ready-list entries (R268). -/
def slotsUsed (s : State) : Nat := ((FMap.vals s.fsc.flows).map Flow.slots).sum
def inFlight (s : State) : Nat := ((allOps s).filter (fun e => e.2.2.2.flying)).length
def readyEntries (s : State) : Nat := ((allOps s).filter (fun e => e.2.2.2.st = .ready && e.2.2.2.loc != .none)).length

/-- FSC_PRESSURE (R269): a crossing when a level is reached, the ready level beside the ops in flight in the notice's
value, and the live bit. -/
def pressure (s : State) : State :=
  let a := inFlight s
  let b := readyEntries s
  let s1 := keepHigh .fscSlots (slotsUsed s) (keepHigh .fscReady b (keepHigh .fscFlight a s))
  let high : Bool := 3840 ≤ a || 253952 ≤ b
  let live : Bool := a < 3584 && b < 245760
  let s2 := withFsc (fun c => { c with pressed := high }) s1
  if high && !s.fsc.pressed then crossed Ev.fscPressure 0 0 ((a * 2 ^ 32 + b : Nat) : Int) none live s2
  else noticeLive Ev.fscPressure 0 false none live s2

/-! ### Input items (R253, R263) -/

/-- How many items of a queue belong to earlier consumers of a flow: those owed to void ops that released without
theirs, and those of earlier unreleased ops that have not taken theirs. -/
def claimsBefore (fl : Flow) (i d q : Nat) : Nat :=
  FMap.getD fl.owed q 0 +
    ((fl.order.takeWhile (fun e => !(e.1.num == i && e.2.node == d))).filter (fun e =>
      (fl.node e.2.node).inQ == q && e.2.st != .released && e.2.item.isNone)).length

/-- Whether the item that belongs to an op is present. -/
def itemThere (s : State) (fl : Flow) (i : Nat) (o : Op) : Bool :=
  let q := (fl.node o.node).inQ
  q = 0xFFFF || o.item.isSome || (match queue? s q with | some k => claimsBefore fl i o.node q < k.items.length | none => false)

/-- The op takes its item, and finishes it (R302). -/
def takeFor (f i d : Nat) (s : State) : State :=
  match flow? s f, opAt s f i d with
  | some fl, some o =>
    let q := (fl.node d).inQ
    if q = 0xFFFF || o.item.isSome then s
    else
      match (queue? s q).bind (fun k => k.items[claimsBefore fl i d q]?) with
      | none => s
      | some x => withOp f i d (fun p => { p with item := some x.data }) (pullItem q (claimsBefore fl i d q) s)
  | _, _ => s

/-- An item owed to a void or skipped op is dropped whole: TAKE and DROP_REST (R263, R302). -/
def dropItem (f q at_ : Nat) (s : State) : State := bump .voidDrop f (bump .dropRest q (pullItem q at_ s))

/-! ### Issue (R251, R262, R268) -/

/-- An op as its instance is issued. -/
def Op.fresh (d : Nat) : Op :=
  { node := d, st := .pending, status := 0, ran := false, roots := [], isRoot := false, pred := none, predOut := false
    vpe := 0, loc := .none, readyAt := 0, aged := false, out := none, heldFault := none, item := none, wait := none
    limited := false, stale := false }

/-- Whether the window and the op slots have room for an instance. -/
def windowRoom (fl : Flow) : Bool := fl.slots + fl.nodes.length ≤ fl.window
def slotRoom (s : State) (fl : Flow) : Bool := slotsUsed s + fl.nodes.length ≤ 524288

/-- Put an instance in its place in the release order. -/
def insInst (x : Inst) (l : List Inst) : List Inst :=
  match l with
  | [] => [x]
  | y :: r => if x.num < y.num then x :: y :: r else y :: insInst x r

/-- Issue an instance whole. -/
def issueInst (f num due : Nat) (s : State) : State :=
  withFlow f (fun fl =>
    { fl with fresh := false
              insts := insInst { num, due, deadline := if fl.deadline = 0 || fl.cls = 3 then none else some (due + fl.deadline)
                                 ops := (List.range fl.nodes.length).map Op.fresh, missed := false, fresh := fl.fresh }
                fl.insts }) s

/-- An instance is due: it is issued, or waits and is counted (R251, R262, R268). -/
def offerInst (f num due : Nat) (s : State) : State :=
  match flow? s f with
  | none => s
  | some fl =>
    if fl.stalled.isEmpty && windowRoom fl && slotRoom s fl then issueInst f num due s
    else
      let s1 := withFlow f (fun g => { g with stalled := g.stalled ++ [(num, due)] }) s
      if windowRoom fl && fl.stalled.isEmpty then bump .slotStall 0 s1 else bump .windowStall f s1

/-- The oldest instance that waits is issued once there is room. -/
def issueStalled (f : Nat) (s : State) : State :=
  match flow? s f with
  | none => s
  | some fl =>
    match fl.stalled with
    | [] => s
    | (num, due) :: r =>
      if windowRoom fl && slotRoom s fl then issueInst f num due (withFlow f (fun g => { g with stalled := r }) s) else s

/-- The entries of the delay list that are due at a tick, in class order and then in order of insertion (R264). -/
def dueEntries (s : State) (t : Nat) : List (Nat × Nat × Nat) :=
  let l := s.fsc.delay.filter (fun e => e.1 ≤ t)
  let cls := fun (e : Nat × Nat × Nat) => match flow? s e.2.1 with | some fl => fl.cls | none => 3
  [0, 1, 2, 3].flatMap (fun c => l.filter (fun e => cls e == c))

/-- One due entry is issued; a paced flow's next instance enters the list. -/
def issueDue (e : Nat × Nat × Nat) (s : State) : State :=
  match flow? s e.2.1 with
  | none => s
  | some fl =>
    let s1 := if fl.period = 0 then s
      else
        withFsc (fun c => { c with delay := c.delay ++ [(e.1 + fl.period, e.2.1, e.2.2 + 1)] })
          (withFlow e.2.1 (fun g => { g with nextNum := max g.nextNum (e.2.2 + 2) }) s)
    offerInst e.2.1 e.2.2 e.1 s1

/-- Delay-list issue at a tick. -/
def issueTick (t : Nat) (s : State) : State :=
  let l := dueEntries s t
  l.foldl (fun u e => issueDue e u) (withFsc (fun c => { c with delay := c.delay.filter (fun e => !(e.1 ≤ t)) }) s)

/-- A flow as it is set up; a paced flow gets its entry for instance 0, due at the first tick to come whose number is a
multiple of the period (R251). -/
def addFlow (f : Nat) (fl : Flow) (s : State) : State :=
  let s1 := withFsc (fun c => { c with flows := FMap.set c.flows f fl }) s
  if fl.period = 0 then s1
  else
    withFsc (fun c => { c with delay := c.delay ++ [(cdiv (s.clk.tick + 1) fl.period * fl.period, f, 0)] })
      (withFlow f (fun g => { g with nextNum := 1 }) s1)

/-- Stop the issue of a flow's instances (R271). -/
def stopIssue (f : Nat) (s : State) : State :=
  withFsc (fun c => { c with delay := c.delay.filter (fun e => e.2.1 != f) }) (withFlow f (fun fl => { fl with stalled := [] }) s)

/-! ### Ready lists and ranks (R255 to R257) -/

/-- Whether a cluster runs ops: neither the spare nor retired (R17, R504). -/
def clusterActive (s : State) (c : Nat) : Bool := c ≤ 16 && s.avl.spare ≠ some c && !s.avl.retired.contains c
def activeClusters (s : State) : List Nat := (List.range 17).filter (clusterActive s)

/-- Whether a cluster runs ops now: an active one, or the spare while flows move to it (R501). -/
def clusterRuns (s : State) (c : Nat) : Bool :=
  clusterActive s c || s.avl.migrating.any (fun m => m.2 == c)

/-- The clusters that newly set up flows are placed on: during a rolling update those of the image that it leads to
(R507), where one runs. -/
def newHomes (s : State) : List Nat :=
  match s.avl.rolling with
  | none => activeClusters s
  | some r =>
    let l := (List.range 17).filter (fun c => clusterRuns s c && (clusterSlot s c == r.slot) != r.back &&
      !s.avl.migrating.any (fun m => m.1 == c))
    if l.isEmpty then activeClusters s else l

/-- Whether an op would run speculatively: its predicate is open (R254). -/
def Op.open_ (o : Op) (nd : Node) : Bool := nd.predKind ≠ 0 && o.pred.isNone

/-- The rank of an entry as numbers to compare in turn, smaller first (R255). An op without a deadline ranks after
every deadline. -/
def rankOf (e : Nat × Flow × Inst × Op) : List Nat :=
  let (f, fl, x, o) := e
  [if o.aged then 1 else fl.cls, if fl.miss = some o.node then 0 else 1, b2n (o.open_ (fl.node o.node)),
   match x.deadline with | some t => t | none => 2 ^ 64, x.num, o.node, f]

/-- Whether one rank is above another. -/
def rankLt (a b : List Nat) : Bool :=
  match a, b with
  | x :: xs, y :: ys => x < y || (x == y && rankLt xs ys)
  | _, _ => false

/-- Whether the classes have only ballast left (R290). -/
def onlyBallast (s : State) : Bool := sharedFree s ≤ 0

/-- Whether the limits of R268 and R290 hold back the dispatch of an op. -/
def heldBack (s : State) (fl : Flow) (o : Op) : Bool :=
  let n := inFlight s
  let spec := o.open_ (fl.node o.node)
  4096 ≤ n || (fl.cls ≠ 0 && 3840 ≤ n) || (spec && fl.cls ≠ 0 && 3584 ≤ n) || (spec && onlyBallast s)

/-- The ready entries of a list. -/
def listAt (s : State) (l : OpLoc) : List (Nat × Flow × Inst × Op) :=
  (allOps s).filter (fun e => e.2.2.2.st = .ready && e.2.2.2.loc == l)

/-- Whether a VPE may take an entry of the global list: the flow runs on its image (R507), and a cluster that flows leave
takes no other cluster's flow (R501). -/
def mayTake (s : State) (n : Nat) (fl : Flow) : Bool :=
  clusterSlot s fl.cluster == clusterSlot s (n / 16) &&
  !(s.avl.migrating.any (fun m => m.1 == n / 16) && fl.cluster != n / 16)

/-- The lists a VPE compares: its own, its cluster's and the global one. -/
def listsOf (s : State) (n : Nat) : List (Nat × Flow × Inst × Op) :=
  listAt s (.vpe n) ++ listAt s (.cluster (n / 16)) ++ (listAt s .global).filter (fun e => mayTake s n e.2.1)

/-- Whether a VPE can take an op: in a cluster that runs, and idle. -/
def vpeFree (s : State) (n : Nat) : Bool := n < 272 && clusterRuns s (n / 16) && (vpeAt s n).op.isNone

/-- Whether an op is the best entry that a VPE may take. -/
def bestFor (s : State) (n f i d : Nat) : Bool :=
  let l := (listsOf s n).filter (fun e => !heldBack s e.2.1 e.2.2.2)
  match l.find? (fun e => e.1 == f && e.2.2.1.num == i && e.2.2.2.node == d) with
  | none => false
  | some e => l.all (fun g => !rankLt (rankOf g) (rankOf e))

/-- The entry that an idle VPE with empty lists steals: the oldest ready for steal_age in the longest list of another
VPE of its cluster (R257). -/
def stealFor (s : State) (n : Nat) (t : Ns) : Option (Nat × Nat × Nat) :=
  if !(listsOf s n).isEmpty then none
  else
    let others := ((List.range 16).map (fun k => n / 16 * 16 + k)).filter (· != n)
    let longest := others.foldl (fun (m : Nat × List (Nat × Flow × Inst × Op)) v =>
      let l := listAt s (.vpe v)
      if m.1 < l.length then (l.length, l) else m) (0, [])
    let ripe := longest.2.filter (fun e => e.2.2.2.readyAt + stealNs s ≤ t && !heldBack s e.2.1 e.2.2.2)
    let oldest := ripe.foldl (fun (m : Option (Nat × Flow × Inst × Op)) e =>
      match m with
      | none => some e
      | some g => if e.2.2.2.readyAt < g.2.2.2.readyAt then some e else m) none
    oldest.map (fun e => (e.1, e.2.2.1.num, e.2.2.2.node))

/-! ### An op on a VPE (R216, R246, R252) -/

/-- The kernel of a number, as the image of a VPE holds it. -/
def kernelAt (s : State) (n id : Nat) : Option Kernel := (codeAt s n).kernels.find? (fun k => k.id == id)

/-- The present user kernel of a number (R250). -/
def userKernel (s : State) (id : Nat) : Option Kernel :=
  ((FMap.getD s.code s.avl.mimSlot ⟨[], [], []⟩).kernels).find? (fun k => k.id == id && k.user)

/-- The data producers of an op: their nodes, ascending. -/
def dataNodes (nd : Node) : List Nat := (List.range 12).filter (fun i => nd.dataDeps.getLsbD i)

/-- The inputs of an op in the order of R252; an absent one is `none`. -/
def inputsOf (fl : Flow) (x : Inst) (o : Op) : List (Option Bytes) :=
  let nd := fl.node o.node
  (if nd.inQ = 0xFFFF then [] else [o.item]) ++
    (dataNodes nd).map (fun i => match x.op? i with
      | some p => if p.status = 2 then none else some (p.out.getD [])
      | none => none)

/-- The state that an op starts from, with its roots: the newest version, or the committed lines (R280). -/
def stateFor (fl : Flow) (d : Nat) : List (BitVec 72) × List Root :=
  match (FMap.getD fl.versions d []).getLast? with
  | some v => (v.lines, v.roots)
  | none => (FMap.getD fl.committed d [], [])

/-- The op word (R252). -/
def opWord (fl : Flow) (x : Inst) (o : Op) : Nat :=
  let absent := ((inputsOf fl x o).zip (List.range 4)).foldl (fun a e => if e.1.isNone then a + 2 ^ e.2 else a) 0
  (fl.node o.node).param + absent * 2 ^ 16 + b2n x.fresh * 2 ^ 20 + o.node * 2 ^ 24 + fl.cls * 2 ^ 28

/-- Octets as lines: eight octets a line, four in each half (R246, R293). -/
def byteLines (d : Bytes) : List (BitVec 72) :=
  (chunksOf 8 d).map (fun c => BitVec.ofNat 72 (leNat (c.take 4) + 2 ^ 36 * leNat (c.drop 4)))

/-- Octets of a line's two halves. -/
def lineBytes (l : BitVec 72) : Bytes := toLE 4 (l.toNat % 2 ^ 32) ++ toLE 4 (l.toNat / 2 ^ 36 % 2 ^ 32)

/-- Put lines into a data memory from an address on. -/
def putLines (m : FMap (BitVec 72)) (at_ : Nat) (l : List (BitVec 72)) : FMap (BitVec 72) :=
  (l.zip (List.range l.length)).foldl (fun a e => putLine a (at_ + e.2) e.1) m

/-- The line of a kernel's scratch area that holds the input lengths (R252). -/
def lengthLine (l : List (Option Bytes)) : BitVec 72 :=
  let n := fun (i : Nat) => match l.getD i none with | some b => b.length | none => 0
  BitVec.ofNat 72 (n 0 + 2 ^ 16 * n 1 + 2 ^ 36 * (n 2 + 2 ^ 16 * n 3))

/-- The data memory of a VPE with the constant region that its image holds (R222, R245). -/
def withConsts (consts mem : FMap (BitVec 72)) : FMap (BitVec 72) :=
  FMap.keep mem (fun i _ => i < 30720) ++ FMap.keep consts (fun i x => 30720 ≤ i && x != 0)

/-- A VPE loaded with an op of a kernel: areas, entry values and the op itself (R216, R246). `w` is the first line of
the window, which the scheduler chooses. Inputs longer than max_in load nothing and end in OVERRUN. -/
def loadVpe (old : Vpe) (k : Kernel) (w tick f i d word : Nat) (inputs : List (Option Bytes)) (lines : List (BitVec 72)) : Vpe :=
  let total := (inputs.map (fun b => (b.getD []).length)).sum
  let p1 := w + k.inLines
  let p2 := p1 + k.outLines
  let p3 := p2 + k.stateLines
  let inLines := inputs.flatMap (fun b => byteLines (b.getD []))
  let mem := putLines (putLines (putLines old.mem w inLines) p2 (lines ++ List.replicate (k.stateLines - lines.length) 0)) p3
    [lengthLine inputs]
  let base := { Vpe.initial with
    pc := k.entry, wLo := w, wHi := w + k.window - 1, kBase := k.base, kLen := k.bundles, maxBundles := k.maxBundles
    maxOut := k.maxOut, kernelId := k.id, mem, op := some (f, i, d) }
  if k.maxIn < total then { base with run := .faulted .overrun 0, mem := old.mem }
  else
    let v := (((base.setP 0 (BitVec.ofNat 15 w)).setP 1 (BitVec.ofNat 15 p1)).setP 2 (BitVec.ofNat 15 p2)).setP 3 (BitVec.ofNat 15 p3)
    let v1 := (((v.setS 0 (BitVec.ofNat 36 word)).setS 1 (BitVec.ofNat 36 total)).setS 2 (BitVec.ofNat 36 tick)).setS 3
      (BitVec.ofNat 36 f)
    { (v1.setB 7 (BitVec.ofNat 15 k.constBase)) with run := .running }

/-- What a VPE leaves of the op it ran (R241, R246): the fault, or output, state and predicate. -/
def vpeResult (v : Vpe) (k : Option Kernel) (res : OpRes) : OpRes :=
  match v.run, k with
  | .faulted kind _, _ => { fault := some kind, out := [], state := [], pred := false }
  | .stopped, some k =>
    let n := (v.getS 1).toNat
    let p1 := v.wLo + k.inLines
    let p2 := p1 + k.outLines
    if k.maxOut < n then { fault := some .overrun, out := [], state := [], pred := false }
    else
      { fault := none, out := ((List.range (cdiv n 8)).flatMap (fun j => lineBytes (v.line (p1 + j)))).take n
        state := (List.range k.stateLines).map (fun j => v.line (p2 + j)), pred := (v.getS 15).getLsbD 0 }
  | _, some k => if k.maxOut < res.out.length then { res with fault := some .overrun, out := [] } else res
  | _, none => res

/-- A home VPE: of the cluster named, where it is active, else of one that the Control Image chooses (R256). -/
def chooseHome (s : State) (c : Nat) : Nat × State :=
  let d := drawNat s
  let l := newHomes s
  let k := if l.contains c then c else l.getD (d.1 / 16 % max 1 l.length) 0
  (16 * k + d.1 % 16, d.2)

end Sys2Proof.Machine
end

