-- ==== Sys2Proof/Machine/EpdOps.lean ====
section
/-! DEFINITION. Operations of the endpoint directory: hash, index, lookup, entries and their octets (R466 to R470). -/

namespace Sys2Proof.Machine

open Sys2Proof

/-- Change the directory. -/
def withEpd (f : Epd → Epd) (s : State) : State := { s with epd := f s.epd }

/-- The entry of a slot. -/
def epdEntry? (s : State) (slot : Nat) : Option EpdEntry := FMap.get? s.epd.entries slot

/-- Change an entry, if the slot holds one. -/
def withEntry (slot : Nat) (f : EpdEntry → EpdEntry) (s : State) : State :=
  withEpd (fun e => { e with entries := FMap.adj e.entries slot f }) s

/-! ### The index (R466, R468, R469) -/

/-- H of an address under a directory key, the octets of the cipher block most significant first (log entry 20). -/
def epdHash (k : Bytes) (addr : BitVec 64) : Nat := beNat ((aesEnc (padTo 16 k) (toBE 8 addr.toNat ++ zeros 8)).take 8)

/-- The two candidate buckets of an address. -/
def epdBuckets (k : Bytes) (addr : BitVec 64) : Nat × Nat :=
  let h := epdHash k addr
  let a := bits h 20 0
  let b := bits h 41 21
  (a, if a = b then (if a % 2 = 0 then a + 1 else a - 1) else b)

/-- References in a bucket, and in the stash. -/
def bucketUse (l : List EpdRef) (b : Nat) : Nat := (l.filter (fun r => r.bucket == some b)).length
def stashUse (l : List EpdRef) : Nat := (l.filter (fun r => r.bucket.isNone)).length

/-- Place a reference (R469); `none` when buckets and stash are full. -/
def placeRef (k : Bytes) (l : List EpdRef) (addr : BitVec 64) (slot : Nat) : Option (List EpdRef) :=
  let b := epdBuckets k addr
  let n1 := bucketUse l b.1
  let n2 := bucketUse l b.2
  if n1 < 8 && n1 ≤ n2 then some (l ++ [⟨slot, some b.1⟩])
  else if n2 < 8 then some (l ++ [⟨slot, some b.2⟩])
  else if stashUse l < 4096 then some (l ++ [⟨slot, none⟩])
  else none

/-- The slot whose entry has an address, damaged or not. -/
def slotOf (s : State) (addr : BitVec 64) : Option Nat := (s.epd.entries.find? (fun e => e.2.addr == addr)).map (·.1)

/-- What a lookup answers (R468, R474): the slot of an entry that is not damaged, whose reference is found in a bucket
that is not damaged or in the stash. -/
def epdFind (s : State) (addr : BitVec 64) : Option Nat :=
  let b := if s.epd.badBuckets.isEmpty then (0, 0) else epdBuckets s.epd.kIdx addr
  if s.epd.badBuckets.any (fun x => x == b.1 || x == b.2) then none
  else
    match s.epd.entries.find? (fun e => e.2.addr == addr && !e.2.damaged) with
    | some e => if s.epd.refs.any (fun r => r.slot == e.1) then some e.1 else none
    | none => none

/-- A lookup, counted (R489). -/
def epdLookup (addr : BitVec 64) (s : State) : Option Nat × State :=
  match epdFind s addr with
  | some n => (some n, bump .epdLookup 0 s)
  | none => (none, bump .epdMiss 0 (bump .epdLookup 0 s))

/-- The directory becomes empty with a new directory key (R468). -/
def emptyEpd (s : State) : State :=
  let k := drawBytes 16 s
  withEpd (fun e => { e with entries := [], refs := [], kIdx := k.1, badBuckets := [] }) k.2

/-- The references of a new index of every valid entry, by slot. -/
def rebuildRefs (k : Bytes) (m : FMap EpdEntry) : List EpdRef :=
  m.foldl (fun l e => (placeRef k l e.2.addr e.1).getD l) []

/-! ### Entries (R467) -/

/-- An entry as it is when first put. -/
def EpdEntry.fresh (addr : BitVec 64) : EpdEntry :=
  { addr, damaged := false, hasKey := false, group := false, hostTag := 0, key := [], ulFcnt := 0, dlFcnt := 0, rxOk := 0
    rxSecFail := 0, hostA := zeros 16, lastTime := 0, lastRx := 0, lastSf := 0, lastQuality := 0, lastSnr := 0, lastLevel := 0
    lastFreq := 0, heard := 0, regGroup := 0xFFFF, regTime := 0, hostB := zeros 24 }

/-- The octets of an entry as the device gives it out: the key zeroed, key_op and ctr_op 0. -/
def entryBytes (e : EpdEntry) : Bytes :=
  toLE 8 e.addr.toNat ++ toLE 1 (1 + 2 * b2n e.damaged + 4 * b2n e.hasKey + 8 * b2n e.group) ++ zeros 3 ++
  toLE 4 e.hostTag.toNat ++ zeros 16 ++ toLE 4 e.ulFcnt.toNat ++ toLE 4 e.dlFcnt.toNat ++ toLE 4 e.rxOk.toNat ++
  toLE 4 e.rxSecFail.toNat ++ padTo 16 e.hostA ++ toLE 8 e.lastTime.toNat ++ toLE 2 e.lastRx ++ toLE 1 e.lastSf ++
  toLE 1 e.lastQuality ++ toLE 2 e.lastSnr ++ toLE 2 e.lastLevel ++ toLE 4 e.lastFreq.toNat ++ toLE 4 e.heard.toNat ++
  toLE 2 e.regGroup ++ zeros 6 ++ toLE 8 e.regTime.toNat ++ padTo 24 e.hostB

/-- The key of an entry that may serve (R202, R203). -/
def entryKey (s : State) (slot : Option Nat) : Option Bytes :=
  match slot.bind (epdEntry? s) with
  | some e => if e.hasKey then some e.key else none
  | none => none

/-- What a release writes for a secured frame (R470). -/
def acceptFcnt (slot : Nat) (fcnt : BitVec 32) (s : State) : State :=
  withEntry slot (fun e => { e with ulFcnt := fcnt, rxOk := e.rxOk + 1 }) s

/-- A downlink counter is drawn for a transmission (R203, R470): the new value, `none` where the entry, its key or its
counter does not serve. -/
def nextDl (s : State) (slot : Option Nat) : Option (Nat × BitVec 32 × Bytes) :=
  match slot, slot.bind (epdEntry? s), entryKey s slot with
  | some n, some e, some k =>
    if e.dlFcnt = 0xFFFFFFFF || e.ulFcnt = 0xFFFFFFFF then none else some (n, e.dlFcnt + 1, k)
  | _, _, _ => none

end Sys2Proof.Machine
end

