-- ==== Sys2Proof/Machine/EthOps.lean ====
section
/-! DEFINITION. Operations of the Ethernet ports: frames and their headers, gates, transmit FIFOs, sending on a port
or a PRP pair, and what a link that goes down does to frames (R361 to R378). -/

namespace Sys2Proof.Machine

open Sys2Proof

/-! ### Ports -/

/-- A port as it stands before anything has happened to it. -/
def EthPort.fresh : EthPort :=
  { linkUp := false, lpiTx := false, gates := none, gateBase := 0, pending := none, fifos := [],
    onWire := none, lastTx := 0, lpiTw := 0, lpiAt := 0, wakeAt := none, wake := [], sent := [] }

/-- A pair as it stands when it is enabled (R375). -/
def PrpPair.fresh : PrpPair := { seq := 0, table := [], svAt := 0 }

/-- The live state of a port. -/
def ethPort (s : State) (p : Nat) : EthPort := FMap.getD s.eth p EthPort.fresh

/-- Change a port. -/
def withPort (p : Nat) (f : EthPort → EthPort) (s : State) : State :=
  { s with eth := FMap.set s.eth p (f (ethPort s p)) }

/-- The live state of a pair. -/
def prpPair (s : State) (n : Nat) : PrpPair := FMap.getD s.prp n PrpPair.fresh

/-- Change a pair. -/
def withPair (n : Nat) (f : PrpPair → PrpPair) (s : State) : State :=
  { s with prp := FMap.set s.prp n (f (prpPair s n)) }

/-- MAX_FRAME of a port (R363). -/
def maxFrame (s : State) (p : Nat) : Nat := fld s .ethPortCfg p 19 6

/-- The enabled pair a port belongs to. -/
def pairOf (s : State) (p : Nat) : Option Nat :=
  (List.range 16).find? (fun n => prpEnabled s n && (prpPortA s n == p || prpPortB s n == p))

/-- Time of one octet on the wire in ps: 10, 25 or 1 Gbit/s (R361). -/
def octetPs (s : State) (p : Nat) : Nat :=
  match ethMode s p with
  | 1 => 800
  | 2 => 320
  | _ => 8000

/-- Time of a frame from preamble to the end of the inter-frame gap, in ps: eight octets of preamble, the frame with
its FCS and twelve octets of gap (R371). -/
def framePs (s : State) (p : Nat) (octets : Nat) : Nat := (octets + 24) * octetPs s p

/-! ### Gates (R369 to R371) -/

/-- How long a class's gate stays open from a place in the cycle, over a list of entries. -/
def spanFrom (c : Nat) (skip : Nat) (l : List (BitVec 8 × Nat)) : Nat :=
  match l with
  | [] => 0
  | (g, d) :: r =>
    if d ≤ skip then spanFrom c (skip - d) r
    else if g.getLsbD c then (d - skip) + spanFrom c 0 r
    else 0

/-- How long a class's gate stays closed from a place in the cycle. -/
def shutFrom (c : Nat) (skip : Nat) (l : List (BitVec 8 × Nat)) : Nat :=
  match l with
  | [] => 0
  | (g, d) :: r =>
    if d ≤ skip then shutFrom c (skip - d) r
    else if g.getLsbD c then 0
    else (d - skip) + shutFrom c 0 r

/-- Whether every entry, or none, opens a class. -/
def GateList.always (g : GateList) (c : Nat) : Bool := g.entries.all (fun e => e.1.getLsbD c)
def GateList.never (g : GateList) (c : Nat) : Bool := g.entries.all (fun e => !e.1.getLsbD c)

/-- The place of an instant in a list's cycle, given a cycle start. -/
def GateList.place (g : GateList) (start t : Ns) : Nat := if g.cycle = 0 then 0 else (t + g.cycle - start % g.cycle) % g.cycle

/-- The open span of a class from an instant in ns: `none` where the gate never closes. -/
def openSpan (e : EthPort) (c : Nat) (t : Ns) : Option Nat :=
  match e.gates with
  | none => none
  | some g => if g.always c then none else some (spanFrom c (g.place e.gateBase t) (g.entries ++ g.entries))

/-- The time to the next opening of a class: 0 where the gate is open, `none` where it never opens. -/
def untilOpen (e : EthPort) (c : Nat) (t : Ns) : Option Nat :=
  match e.gates with
  | none => some 0
  | some g => if g.never c then none else some (shutFrom c (g.place e.gateBase t) (g.entries ++ g.entries))

/-- The longest open span of a class, `none` where the gate never closes. -/
def longestSpan (e : EthPort) (c : Nat) : Option Nat :=
  match e.gates with
  | none => none
  | some g =>
    if g.always c then none
    else
      let starts := (List.range g.entries.length).map (fun i => ((g.entries.take i).map (·.2)).sum)
      some (starts.foldl (fun m x => max m (spanFrom c x (g.entries ++ g.entries))) 0)

/-- Whether a time in ps ends within a span. -/
def fits (span : Option Nat) (ps : Nat) : Bool := match span with | none => true | some n => ps ≤ 1000 * n

/-! ### Frames -/

/-- An 802.1Q tag of R82 and R114. -/
structure VlanTag where
  pcp : Nat
  vid : Nat
  deriving DecidableEq, Repr

/-- A frame from destination address to payload. -/
def ethFrame (dst src : Bytes) (tag : Option VlanTag) (etherType : Nat) (payload : Bytes) : Bytes :=
  dst ++ src ++ (match tag with | some t => toBE 2 0x8100 ++ toBE 2 (t.pcp * 8192 + t.vid) | none => []) ++
    toBE 2 etherType ++ payload

/-- The Internet checksum: the ones' complement of the ones' complement sum of 16-bit words. -/
def inetSum (d : Bytes) : Nat :=
  let sum := ((chunksOf 2 d).map (fun w => beNat (padTo 2 w))).sum
  let f1 := sum % 65536 + sum / 65536
  let f2 := f1 % 65536 + f1 / 65536
  65535 - (f2 % 65536 + f2 / 65536)

/-- The pseudo-header of UDP over IPv4 and over IPv6. -/
def pseudo (v6 : Bool) (src dst : Bytes) (len : Nat) : Bytes :=
  if v6 then src ++ dst ++ toBE 4 len ++ zeros 3 ++ toBE 1 17 else src ++ dst ++ zeros 1 ++ toBE 1 17 ++ toBE 2 len

/-- A UDP datagram with its checksum; a computed checksum of 0 is sent as 0xFFFF. -/
def udpDatagram (v6 : Bool) (src dst : Bytes) (sport dport : Nat) (payload : Bytes) : Bytes :=
  let len := 8 + payload.length
  let head := toBE 2 sport ++ toBE 2 dport ++ toBE 2 len
  let c := inetSum (pseudo v6 src dst len ++ head ++ zeros 2 ++ payload)
  head ++ toBE 2 (if c = 0 then 65535 else c) ++ payload

/-- An IPv4 packet without options, DF set, identification 0, or an IPv6 packet with flow label 0 (R125). -/
def ipPacket (v6 : Bool) (src dst : Bytes) (dscp hop : Nat) (udp : Bytes) : Bytes :=
  if v6 then
    toBE 4 (6 * 2 ^ 28 + dscp * 2 ^ 22) ++ toBE 2 udp.length ++ toBE 1 17 ++ toBE 1 hop ++ src ++ dst ++ udp
  else
    let head := toBE 1 0x45 ++ toBE 1 (dscp * 4) ++ toBE 2 (20 + udp.length) ++ zeros 2 ++ toBE 2 0x4000 ++ toBE 1 hop ++
      toBE 1 17
    head ++ toBE 2 (inetSum (head ++ zeros 2 ++ src ++ dst)) ++ src ++ dst ++ udp

/-- The octets of an address field that count: four for IPv4, sixteen for IPv6 (R82). -/
def addrOf (v6 : Bool) (field : Bytes) : Bytes := if v6 then field else field.take 4

/-- EtherType of IP. -/
def ipType (v6 : Bool) : Nat := if v6 then 0x86DD else 0x0800

/-- The MAC address of a port as octets. -/
def macOf (s : State) (p : Nat) : Bytes := toBE 6 (ethMac s p)

/-- Octets of header up to and with the last EtherType, after any 802.1Q tag. -/
def headLen (d : Bytes) : Nat := if beAt d 12 2 = 0x8100 then 18 else 14

/-- Pad a frame with zeros to 60 octets (R363). -/
def padFrame (d : Bytes) : Bytes := if d.length < 60 then padTo 60 d else d

/-- A copy of a frame with its redundancy control trailer (R375); lsdu_size holds 12 bits. -/
def withTrailer (d : Bytes) (seq : BitVec 16) (lan : Nat) : Bytes :=
  d ++ toBE 2 seq.toNat ++ toBE 2 (lan * 4096 + (d.length + 6 - headLen d) % 4096) ++ toBE 2 0x88FB

/-! ### Sending (R367, R368, R375) -/

/-- The class of a source other than teleprotection (R367). -/
def classFor (tc : Nat) : Nat := if tc = 7 then 6 else tc

/-- A frame that finds the link down is dropped whole (R362). -/
def dropDown (p : Nat) (f : TxFrame) (s : State) : State := endPtx f.ptx 0 St.linkDown (bump .txLinkDown p s)

/-- Every frame queued on a port is dropped, class by class (R362). -/
def dropQueued (p : Nat) (s : State) : State :=
  (FMap.vals (ethPort s p).fifos).foldl (fun t l => l.foldl (fun u f => dropDown p f u) t)
    (withPort p (fun e => { e with fifos := [] }) s)

/-- The port leaves low-power idle: the time spent in it counts, and frames wait for the wake time (R373, R374). -/
def beginWake (p : Nat) (t : Ns) (s : State) : State :=
  let e := ethPort s p
  if e.lpiTx then
    addFig .lpiNs p 0 ((t : Int) - (e.lpiAt : Int))
      (withPort p (fun e => { e with lpiTx := false, wakeAt := some (t + e.lpiTw) }) s)
  else s

/-- Whether a port may send a frame: on a MIRROR only PTP and PRP supervision (R511). -/
def maySend (s : State) (d : Bytes) : Bool := s.twin.role != 1 || beAt d 12 2 = 0x88F7 || beAt d 12 2 = 0x88FB

/-- A frame crosses to a port: it enters the FIFO of its class, or is dropped where the link is down. A MIRROR sends
nothing else than R511 allows: an item of a PTX ring ends with TWIN_STATE there. -/
def enqueue (p tc : Nat) (f : TxFrame) (s : State) : State :=
  if !maySend s f.data then endPtx f.ptx 0 St.twinState s
  else if !(ethPort s p).linkUp then dropDown p f s
  else
    beginWake p (now s) (withPort p (fun e =>
      { e with fifos := FMap.set e.fifos tc (FMap.getD e.fifos tc [] ++ [f]) }) s)

/-- Send a frame on one port. -/
def ethSend (p tc : Nat) (d : Bytes) (ptx : Option (Nat × BitVec 32)) (ts : Bool) (s : State) : State :=
  enqueue p tc { data := padFrame d, ptx, ts } s

/-- Send a frame on a pair: both copies with one sequence number (R375). A PTX item ends with port A's copy. -/
def pairSend (n tc : Nat) (d : Bytes) (ptx : Option (Nat × BitVec 32)) (ts : Bool) (s : State) : State :=
  let q := (prpPair s n).seq
  let s1 := withPair n (fun e => { e with seq := e.seq + 1 }) s
  let s2 := enqueue (prpPortA s n) tc { data := withTrailer (padFrame d) q 0xA, ptx, ts } s1
  enqueue (prpPortB s n) tc { data := withTrailer (padFrame d) q 0xB, ptx := none, ts := false } s2

/-- Send a frame from a port, on both ports of its pair where it belongs to one (R375). -/
def portSend (p tc : Nat) (d : Bytes) (s : State) : State :=
  match pairOf s p with
  | some n => pairSend n tc d none false s
  | none => ethSend p tc d none false s

/-- The correction field of SGMII ports (R378). -/
def tsAdj (s : State) (p : Nat) (tx : Bool) : Nat :=
  if ethMode s p = 4 then (if tx then fld s .ethTsAdj p 31 16 else fld s .ethTsAdj p 15 0) else 0

/-- The transmit time-stamp of a frame: the first bit after the start-of-frame delimiter, within the error of R378; what the latency
of an SGMII PHY adds has no bound. -/
def txStamp (s : State) (p octet : Nat) (start : Ns) : Nat × State :=
  let d := drawNat s
  let err : Int := if p < 8 then (d.1 % 5 : Nat) - 2 else if ethMode s p = 4 then sint 32 d.1 else (d.1 % 17 : Nat) - 8
  let t : Int := (start : Int) + s.clk.offset + (8 * octet / 1000 : Nat) + (tsAdj s p true : Nat) + err
  (t.toNat, d.2)

/-- A frame whose transmission and gap have ended has left the port: its item ends and it counts (R386). -/
def wireDone (p : Nat) (t : Ns) (s : State) : State :=
  match (ethPort s p).onWire with
  | none => s
  | some w =>
    if t < w.stop then s
    else
      let s1 := withPort p (fun e =>
        { e with onWire := none, lastTx := w.stop, sent := (w.start, w.tc, w.frame.data) :: e.sent }) s
      let s2 := addFig .ethTxOctets p w.tc (w.frame.data.length + 4) (addFig .ethTxFrames p w.tc 1 s1)
      let (time, s3) := if w.frame.ts then txStamp s2 p w.octet w.start else (0, s2)
      endPtx w.frame.ptx time St.ok s3

/-- The link of a port goes down: the frame in transmission is lost and queued frames are dropped (R362, R384). -/
def loseLink (p : Nat) (s : State) : State :=
  let s1 := withPort p (fun e => { e with linkUp := false, onWire := none, wakeAt := none }) (beginWake p (now s) s)
  let s2 := match (ethPort s p).onWire with
    | some w => dropDown p w.frame s1
    | none => s1
  dropQueued p s2

/-- Heads of FIFOs that fit no open span of their class are dropped (R371). -/
def dropTooLong (p : Nat) (s : State) : State :=
  (List.range 8).foldl (fun t c =>
    let e := ethPort t p
    let l := FMap.getD e.fifos c []
    let bad := l.takeWhile (fun f => !fits (longestSpan e c) (framePs t p f.data.length))
    bad.foldl (fun u f => endPtx f.ptx 0 St.noWindow (bump .txNoWindow p u))
      (withPort p (fun e => { e with fifos := FMap.set e.fifos c (l.drop bad.length) }) t)) s

/-- The class whose head frame a free port starts at an instant (R368). -/
def nextClass (s : State) (p : Nat) (t : Ns) : Option Nat :=
  [7, 6, 5, 4, 3, 2, 1, 0].find? (fun c =>
    match FMap.getD (ethPort s p).fifos c [] with
    | [] => false
    | f :: _ => fits (openSpan (ethPort s p) c t) (framePs s p f.data.length) && openSpan (ethPort s p) c t ≠ some 0)

/-- Whether a port has a frame in transmission or waiting. -/
def EthPort.idle (e : EthPort) : Bool := e.onWire.isNone && (FMap.vals e.fifos).all (·.isEmpty)

/-- Start the next frame of a port (R368). -/
def startFrame (p : Nat) (t : Ns) (s : State) : State :=
  match nextClass s p t with
  | none => s
  | some c =>
    match FMap.getD (ethPort s p).fifos c [] with
    | [] => s
    | f :: r =>
      withPort p (fun e =>
        { e with fifos := FMap.set e.fifos c r
                 onWire := some { frame := f, tc := c, octet := octetPs s p, start := t,
                                  stop := t + cdiv (framePs s p f.data.length) 1000 } }) s

/-! ### Received frames -/

/-- The 802.1Q tag, EtherType and payload of a frame; a service tag is an EtherType of its own (R366). -/
structure ParsedFrame where
  dst : Bytes
  src : Bytes
  vid : Option Nat
  etherType : Nat
  payload : Bytes
  deriving DecidableEq, Repr

/-- Take a frame apart; a priority tag counts as none (R366). -/
def parseFrame (d : Bytes) : ParsedFrame :=
  let tagged := beAt d 12 2 = 0x8100
  let vid := beAt d 14 2 % 4096
  { dst := sub d 0 6, src := sub d 6 6, vid := if tagged && vid ≠ 0 then some vid else none
    etherType := if tagged then beAt d 16 2 else beAt d 12 2, payload := d.drop (if tagged then 18 else 14) }

/-- A UDP datagram that R86 takes: version, addresses, ports, the checksum's verdict and the payload. -/
structure UdpIn where
  v6 : Bool
  src : Bytes
  dst : Bytes
  sport : Nat
  dport : Nat
  sumOk : Bool
  payload : Bytes
  deriving DecidableEq, Repr

/-- The UDP part of an IP packet, `none` where its length field does not fit. -/
def parseUdp (v6 : Bool) (src dst udp : Bytes) : Option UdpIn :=
  let len := beAt udp 4 2
  if udp.length < 8 || len < 8 || udp.length < len then none
  else
    let u := udp.take len
    let ok := (!v6 && beAt u 6 2 = 0) || (beAt u 6 2 ≠ 0 && inetSum (pseudo v6 src dst len ++ u) = 0)
    some { v6, src, dst, sport := beAt u 0 2, dport := beAt u 2 2, sumOk := ok, payload := u.drop 8 }

/-- The datagram of a frame, if R86 takes it. -/
def parseIp (f : ParsedFrame) : Option UdpIn :=
  let p := f.payload
  if f.etherType = 0x0800 then
    let ihl := 4 * (byteAt p 0 % 16)
    let total := beAt p 2 2
    if p.length < 20 || byteAt p 0 / 16 ≠ 4 || ihl < 20 || p.length < total || total < ihl || byteAt p 9 ≠ 17 ||
        beAt p 6 2 % 16384 ≠ 0 then none
    else parseUdp false (sub p 12 4) (sub p 16 4) (sub p ihl (total - ihl))
  else if f.etherType = 0x86DD then
    if p.length < 40 || byteAt p 0 / 16 ≠ 6 || byteAt p 6 ≠ 17 || p.length < 40 + beAt p 4 2 then none
    else parseUdp true (sub p 8 16) (sub p 24 16) (sub p 40 (beAt p 4 2))
  else none

end Sys2Proof.Machine
end

