-- ==== Sys2Proof/Machine/Audio.lean ====
section
/-! DEFINITION. Audio samples: their place in an 18-bit word, the laws of G.711, levels, gains, the packing of G.726
codewords, and the conversions of the FDC (R15, R16, R43, R52, R58, R67, R69, R159, R160). -/

namespace Sys2Proof.Machine

open Sys2Proof

/-! ### Samples (R15, R16, R230) -/

/-- An 18-bit sample in Q1.17 that holds a value, saturated (R15, R230). -/
def sat18 (x : Int) : Int := clampI (-131072) 131071 x

/-- Narrow a value by `n` bits with rounding and saturation (R230). -/
def narrow18 (n : Nat) (x : Int) : Int := sat18 (Int.fdiv (x + 2 ^ n / 2) (2 ^ n))

/-- A 16-bit component stands in bits [17:2] (R16). -/
def sample16 (v : Nat) : Int := 4 * sint 16 v

/-- Exactly `n` samples: cut, or filled up with zeros. -/
def fitTo (n : Nat) (l : List Int) : List Int := (l ++ List.replicate (n - l.length) 0).take n

/-! ### The laws of G.711 (R16, R43) -/

/-- A G.711 A-law octet as 14-bit linear: the 13-bit values of the Recommendation, doubled (log entry 96). -/
def aLaw14 (b : Byte) : Int :=
  let x := (b ^^^ 0x55).toNat
  let seg := x / 16 % 8
  let mag : Nat := if seg = 0 then 2 * (x % 16) + 1 else (2 * (x % 16) + 33) * 2 ^ (seg - 1)
  if 128 ≤ x then 2 * (mag : Int) else -2 * (mag : Int)

/-- A G.711 µ-law octet as 14-bit linear (log entry 96). -/
def muLaw14 (b : Byte) : Int :=
  let x := (~~~b).toNat
  let mag : Int := ((2 * (x % 16) + 33) * 2 ^ (x / 16 % 8) : Nat) - 33
  if 128 ≤ x then -mag else mag

/-- A G.711 octet as a sample: 14-bit linear in bits [17:4] (R16). -/
def g711Expand (mu : Bool) (b : Byte) : Int := 16 * (if mu then muLaw14 b else aLaw14 b)

/-- The A-law octet of a sample, by the decision values of the Recommendation (log entry 96). -/
def aLawOf (x : Int) : Byte :=
  let m : Nat := (if x < 0 then -x - 1 else x).toNat / 64
  let seg := if m < 32 then (if m < 16 then 0 else 1) else m.log2 - 3
  let q := if seg ≤ 1 then m % 16 else m / 2 ^ (seg - 1) % 16
  BitVec.ofNat 8 ((if x < 0 then 0 else 128) + 16 * seg + q) ^^^ 0x55

/-- The µ-law octet of a sample (log entry 96). -/
def muLawOf (x : Int) : Byte :=
  let m : Nat := min 8191 ((if x < 0 then -x - 1 else x).toNat / 16 + 33)
  let seg := m.log2 - 5
  ~~~(BitVec.ofNat 8 ((if x < 0 then 128 else 0) + 16 * seg + m / 2 ^ (seg + 1) % 16))

/-- The G.711 octet of a sample. -/
def g711Of (mu : Bool) (x : Int) : Byte := if mu then muLawOf x else aLawOf x

/-! ### Line samples (R43) -/

/-- The sample rate in kHz of a law or line mode (R43, R117). -/
def lawKhz (law : Nat) : Nat := match law with | 2 => 16 | 3 => 32 | _ => 8

/-- Samples of a line frame's octets: G.711, or for LIN16W and LIN32W 16-bit samples, most significant byte first and the earlier
sample first (R43, R117). -/
def lineSamples (lineMode : Nat) (d : Bytes) : List Int :=
  if 2 ≤ lineMode then (chunksOf 2 d).map (fun c => sample16 (beNat c)) else d.map (g711Expand (lineMode = 1))

/-- Octets of line samples, 16-bit samples narrowed by two bits (R230). -/
def lineOctets (lineMode : Nat) (l : List Int) : Bytes :=
  if 2 ≤ lineMode then l.flatMap (fun x => toBE 2 (enc 16 (clampI (-32768) 32767 (Int.fdiv (x + 2) 4))))
  else l.map (g711Of (lineMode = 1))

/-! ### Levels (R52) -/

/-- Sum of the squares of samples. -/
def energy18 (l : List Int) : Nat := (l.map (fun x => x.natAbs * x.natAbs)).sum

/-- The greatest v below 2^n with p v, where p holds below some bound and at 0. -/
def greatest (p : Nat → Bool) (n : Nat) : Nat :=
  (List.range n).reverse.foldl (fun v i => if p (v + 2 ^ i) then v + 2 ^ i else v) 0

/-- 1 000 log10 (num / den) rounded down, held to −12 000 at the least: a ratio of powers in 0.01 dB. -/
def centiDb (num den : Nat) : Int :=
  (greatest (fun v => decide (den ^ 1000 * 10 ^ v ≤ num ^ 1000 * 10 ^ 12000)) 16 : Nat) - 12000

/-- The level of samples in 0.01 dBm0, rounded down: 10 log10 (mean square / 0.242 6) with full scale 2^17 (R52). A signal
without power has −120 dBm0 (log entry 97). -/
def levelOf18 (l : List Int) : Int :=
  if energy18 l = 0 then -12000 else centiDb (10000 * energy18 l) (2426 * 2 ^ 34 * l.length)

/-- The level of mean powers of frames, each the energy of a frame of `n` samples. -/
def levelOfPowers (l : List Nat) (n : Nat) : Int :=
  if l.sum = 0 then -12000 else centiDb (10000 * l.sum) (2426 * 2 ^ 34 * (n * l.length))

/-! ### Gain and tones (R67, R78, R131) -/

/-- The coefficient of a gain in 0.01 dB with 17 fraction bits: 1 at 0 dB; the spec gives no rounding of the others (log
entry 97). -/
def gainCoef (g : Int) : Nat := if g = 0 then 131072 else Config.gainCoef g

/-- Apply a gain in 0.01 dB, narrowed with rounding and saturation (R67). -/
def applyGain (g : Int) (l : List Int) : List Int := l.map (fun x => narrow18 17 (x * (gainCoef g : Int)))

/-- Places in a turn of a tone at a rate in kHz, such that a tone of f / 100 Hz goes on by f places a sample. -/
def turnOf (khz : Nat) : Nat := 100000 * khz

/-- One sample of tones added up, each with its frequency in 0.01 Hz and its level in 0.01 dBm0, at their places in a turn; the
rounding of a sine is a free value of its arguments (log entry 97). -/
def toneSample (tones : List (Nat × Int)) (turn : Nat) (ph : List Nat) : Int :=
  sat18 ((tones.zip ph).map (fun e => Config.sine e.1.2 e.2 turn)).sum

/-- `n` samples of tones from their places in a turn on, and where they stand afterwards. -/
def tonesFrom (tones : List (Nat × Int)) (turn n : Nat) (ph : List Nat) : List Int × List Nat :=
  match n with
  | 0 => ([], ph)
  | k + 1 =>
    let r := tonesFrom tones turn k ((tones.zip ph).map (fun e => (e.2 + e.1.1) % turn))
    (toneSample tones turn ph :: r.1, r.2)

/-- The places of tones that follow others phase-continuously (R131): each goes on where the tone in its place, or else the last
one, stands; after silence all begin at 0. -/
def followOn (ph : List Nat) (n : Nat) : List Nat := (List.range n).map (fun i => ph.getD i (ph.getLastD 0))

/-- `n` samples of tones that began a number of samples ago. -/
def tones18 (tones : List (Nat × Int)) (khz start n : Nat) : List Int :=
  (tonesFrom tones (turnOf khz) n (tones.map (fun t => t.1 * start % turnOf khz))).1

/-! ### G.726 codewords (R58) -/

/-- Octets of codewords of `w` bits, the first in the least significant bits of the first octet. -/
def packLow (w : Nat) (l : List Nat) : Bytes := toLE (w * l.length / 8) (l.foldr (fun v acc => v % 2 ^ w + 2 ^ w * acc) 0)

/-- Octets of codewords of `w` bits, the first in the most significant bits of the first octet. -/
def packHigh (w : Nat) (l : List Nat) : Bytes := toBE (w * l.length / 8) (l.foldl (fun acc v => acc * 2 ^ w + v % 2 ^ w) 0)

/-- G.726 codewords as octets in the order of RFC 3551 (0) or I.366.2 (1); `rate` is g726_rate (R58). -/
def g726Packed (i366 : Bool) (rate : Nat) (l : List Nat) : Bytes := if i366 then packHigh (rate + 2) l else packLow (rate + 2) l

/-- The codewords of octets in one of the two orders. -/
def g726Words (i366 : Bool) (rate : Nat) (d : Bytes) : List Nat :=
  let w := rate + 2
  let n := 8 * d.length / w
  if i366 then (List.range n).map (fun i => beNat d / 2 ^ (w * (n - 1 - i)) % 2 ^ w)
  else (List.range n).map (fun i => leNat d / 2 ^ (w * i) % 2 ^ w)

/-! ### Conversions of the FDC (R69, R104, R159, R160) -/

/-- Properties of an audio preset (R69): group delay in µs, passband as a fraction of the lower rate in 0.01, stopband in
dB, unsettled samples for each 8 kHz of output rate. -/
structure AudioPreset where
  delayUs   : Nat
  pass      : Nat
  stopDb    : Nat
  unsettled : Nat
  deriving DecidableEq, Repr

/-- The three presets. -/
def audioPreset (p : Nat) : AudioPreset :=
  match p with
  | 0 => ⟨1500, 45, 90, 24⟩
  | 1 => ⟨750, 43, 75, 12⟩
  | _ => ⟨375, 40, 60, 6⟩

/-- The ratio num/den of a resampler from a to b kHz with a correction e in 0.01 ppm (R160). -/
def audioRatio (a b : Nat) (e : Int) : Nat × Nat :=
  let g := Nat.gcd a b
  ((a / g * (((10 ^ 8 : Nat) : Int) + e).toNat), b / g * 10 ^ 8)

/-- The resampler for one output sample (R159): the new n and r, the phase and the interpolation weight. -/
def resample (num den n r : Nat) : Nat × Nat × Nat × Nat :=
  let q := num / den
  let s := num % den
  let n1 := n + q
  let r1 := r + s
  let (n2, r2) := if den ≤ r1 then (n1 + 1, r1 - den) else (n1, r1)
  (n2, r2, 256 * r2 / den, 256 * r2 % den * 1024 / den)

/-- The filter of an audio conversion: that of the preset where the rates differ, twice its delay long, else the resampler's
16 taps (R69, R104, R159). -/
def audioFilter (preset a b : Nat) : FdcFilter :=
  if a = b then ⟨3, 16, a, b⟩ else ⟨preset, 2 * (audioPreset preset).delayUs * a / 1000, a, b⟩

/-- No conversion yet. -/
def FdcFilter.none : FdcFilter := ⟨4, 0, 0, 0⟩

/-- The tap at a distance of `t` / 256 input samples from the newest one: symmetric about the middle of the span, so that the
group delay is half the span at every frequency. Taps are a free value (log entry 98), but the resampler's first phase is
the sample in the middle itself. -/
def FdcFilter.tap (f : FdcFilter) (t : Nat) : Int :=
  if 256 * f.span < t then 0
  else if f.kind = 3 && t % 256 = 0 then (if t = 128 * f.span then 131072 else 0)
  else Config.fdcTap f.kind f.fromKhz f.toKhz (min t (256 * f.span - t))

/-- One output of a filter at a phase with linear interpolation towards the next one (R159), on inputs newest first. -/
def FdcFilter.out (f : FdcFilter) (phase w : Nat) (hist : List Int) : Int :=
  let at_ := fun (ph : Nat) => ((List.range (f.span + 1)).map (fun j => f.tap (256 * j + ph) * hist.getD j 0)).sum
  narrow18 27 (at_ phase * (1024 - (w : Int)) + at_ (phase + 1) * (w : Int))

/-- A conversion at its start. -/
def Fdc.start (f : FdcFilter) : Fdc := { filter := f, r := 0, hist := [], queue := [], e := 0 }

/-- The conversion under a filter: one under another filter starts anew (R70). -/
def Fdc.under (c : Fdc) (f : FdcFilter) : Fdc := if c.filter = f then c else Fdc.start f

/-- One unit of 0.01 ppm towards a new correction, for each output sample (R160). -/
def rampOne (e goal : Int) : Int := e + Int.sign (goal - e)

/-- Inputs that the next `n` outputs go past (R104): the whole steps of R159 with the correction moving towards `goal`. -/
def Fdc.need (c : Fdc) (goal : Int) (n : Nat) : Nat :=
  match n with
  | 0 => 0
  | k + 1 =>
    let e := rampOne c.e goal
    let x := audioRatio c.filter.fromKhz c.filter.toKhz e
    let y := resample x.1 x.2 0 c.r
    y.1 + Fdc.need { c with r := y.2.1, e } goal k

/-- Move the next `n` inputs into the history. -/
def Fdc.feed (n : Nat) (c : Fdc) : Fdc :=
  { c with hist := ((fitTo n (c.queue.take n)).reverse ++ c.hist).take (c.filter.span + 2), queue := c.queue.drop n }

/-- The next `n` output samples and the conversion afterwards (R159, R160). -/
def Fdc.run (goal : Int) (n : Nat) (c : Fdc) : List Int × Fdc :=
  match n with
  | 0 => ([], c)
  | k + 1 =>
    let e := rampOne c.e goal
    let x := audioRatio c.filter.fromKhz c.filter.toKhz e
    let y := resample x.1 x.2 0 c.r
    let c1 := Fdc.feed y.1 { c with r := y.2.1, e }
    let rest := Fdc.run goal k c1
    (c.filter.out y.2.2.1 y.2.2.2 c1.hist :: rest.1, rest.2)

/-- Unsettled output samples of a conversion (R69), 0 where the rates do not differ. -/
def FdcFilter.unsettled (f : FdcFilter) : Nat := if f.fromKhz = f.toKhz then 0 else (audioPreset f.kind).unsettled * f.toKhz / 8

end Sys2Proof.Machine
end

