-- ==== Sys2Proof/Machine/RadioSignal.lean ====
section
/-! DEFINITION. The radio's samples: the chain of a receive channel in the FDC (R148, R155 to R161, R172), chirps (R179), the
search's transform (R162), the equaliser (R193), soft decisions and the decoder (R192). -/

namespace Sys2Proof.Machine

open Sys2Proof

/-! ### Complex samples -/

/-- Product with a value of 17 fraction bits, narrowed by rounding and saturation (R230). -/
def Cx.mul (a b : Cx) : Cx := (narrow18 17 (a.1 * b.1 - a.2 * b.2), narrow18 17 (a.1 * b.2 + a.2 * b.1))

/-- Sum, difference, conjugate; the square of the absolute value. -/
def Cx.add (a b : Cx) : Cx := (a.1 + b.1, a.2 + b.2)
def Cx.sub (a b : Cx) : Cx := (sat18 (a.1 - b.1), sat18 (a.2 - b.2))
def Cx.conj (a : Cx) : Cx := (a.1, -a.2)
def Cx.power (a : Cx) : Nat := a.1.natAbs * a.1.natAbs + a.2.natAbs * a.2.natAbs

/-- The exact sum of products. -/
def Cx.dot (l m : List Cx) : Cx :=
  (List.zip l m).foldl (fun s e =>
    (s.1 + (e.1.1 * e.2.1 - e.1.2 * e.2.2), s.2 + (e.1.1 * e.2.2 + e.1.2 * e.2.1))) (0, 0)

/-- The mean power of samples in 0.01 dB below a complex exponential of full scale, rounded down (log entry 110). -/
def meanDb (sum n : Nat) : Int := if sum = 0 then -12000 else centiDb sum (2 ^ 34 * n)

/-! ### The filter chain (R155 to R161) -/

/-- Bandwidth of a code in Hz; time of a symbol and of an output sample in ns. -/
def bwHz (bw : Nat) : Nat := 125000 * 2 ^ bw
def symbolNs (sf bw : Nat) : Nat := 2 ^ sf * 8000 / 2 ^ bw
def sampleNs (bw : Nat) : Nat := 4000 / 2 ^ bw

/-- h: the largest exponent from 0 to 7 with fs / 2^h ≥ 4 bw (R155). -/
def halfBands (fs bw : Nat) : Nat := ((List.range 8).filter (fun h => 4 * bwHz bw * 2 ^ h ≤ fs)).getLast?.getD 0

/-- ρ as a reduced ratio (R155, R160). -/
def radioRatio (fs bw : Nat) : Nat × Nat :=
  let d := 2 ^ halfBands fs bw * 4 * bwHz bw
  let g := Nat.gcd fs d
  (fs / g, d / g)

/-- The phase increment of the NCO, which turns at −centre_hz (R155): rounded to the nearest integer, modulo 2^32. -/
def ncoStep (fs : Nat) (centre : Int) : BitVec 32 := BitVec.ofInt 32 (Int.fdiv (2 * centre * 2 ^ 32 + fs) (2 * fs))

/-- Taps, delay d_p and unsettled output samples N of a preset (R157). -/
def presetTaps (p : Nat) : Nat × Nat × Nat := match p with | 0 => (193, 96, 120) | 1 => (97, 48, 72) | _ => (49, 24, 48)

/-- The group delay D of the chain (R156) as two fractions of a second: that of its stages at the link's rate, and that of the
preset's filter. -/
def chainDelay (fs bw preset : Nat) : (Nat × Nat) × (Nat × Nat) :=
  let h := halfBands fs bw
  let r := radioRatio fs bw
  ((11 * (2 ^ h - 1) + (if r.1 = r.2 then 0 else 8 * 2 ^ h), fs), ((presetTaps preset).2.1, 4 * bwHz bw))

/-- D in ps, rounded down. -/
def chainDelayPs (fs bw preset : Nat) : Nat :=
  let d := chainDelay fs bw preset
  (d.1.1 * d.2.2 + d.2.1 * d.1.2) * 10 ^ 12 / (d.1.2 * d.2.2)

/-- A chain at its start under a channel's parameters (R155): the NCO at phase 0 and every stage empty. -/
def Chain.start (fs : Nat) (p : RxcParams) : Chain :=
  { phase := 0, step := ncoStep fs p.centreHz, halves := List.replicate (halfBands fs p.bw) ⟨true, []⟩
    ratio := radioRatio fs p.bw, got := 0, n := 0, r := 0, rsHist := [], preset := p.preset, preDue := true, preHist := []
    fed := 0 }

/-- The filters of the chain, by their taps: a half-band stage of 23 (R156), the resampler's ROM of R159, and the preset's
(R157). Their values are free (log entry 98). -/
def halfFilter : FdcFilter := ⟨5, 22, 0, 0⟩
def radioResampler : FdcFilter := ⟨3, 16, 0, 0⟩
def presetFilter (p : Nat) : FdcFilter := ⟨6 + p, (presetTaps p).1 - 1, 0, 0⟩

/-- One output of a filter on complex samples. -/
def FdcFilter.outCx (f : FdcFilter) (phase w : Nat) (hist : List Cx) : Cx :=
  (f.out phase w (hist.map (·.1)), f.out phase w (hist.map (·.2)))

/-- Put a sample into the history of a filter. -/
def FdcFilter.put (f : FdcFilter) (x : Cx) (hist : List Cx) : List Cx := (x :: hist).take (f.span + 2)

/-- One input of a half-band stage: an output at every second one. -/
def HalfBand.push (x : Cx) (b : HalfBand) : Option Cx × HalfBand :=
  let h := halfFilter.put x b.hist
  (if b.due then some (halfFilter.outCx 0 0 h) else none, { due := !b.due, hist := h })

/-- One input of the half-band stages. -/
def pushHalves (x : Cx) (l : List HalfBand) : Option Cx × List HalfBand :=
  match l with
  | [] => (some x, [])
  | b :: rest =>
    let (y, b1) := b.push x
    match y with
    | some z => let (o, r1) := pushHalves z rest; (o, b1 :: r1)
    | none => (none, b1 :: rest)

/-- One input of the resampler (R159), which is bypassed where the ratio is 1: the output, where its position has been reached.
With 1 ≤ ρ an input gives at most one. -/
def Chain.resampled (x : Cx) (c : Chain) : Option Cx × Chain :=
  let h := radioResampler.put x c.rsHist
  let c1 := { c with got := c.got + 1, rsHist := h }
  if c.ratio.1 = c.ratio.2 then (some x, { c1 with n := c.got, r := 0 })
  else
    let (n, r, phase, w) := resample c.ratio.1 c.ratio.2 c.n c.r
    if n ≤ c.got then (some (radioResampler.outCx phase w h), { c1 with n, r }) else (none, c1)

/-- One input of the preset's filter, which decimates by 2 (R155). -/
def Chain.filtered (x : Cx) (c : Chain) : Option Cx × Chain :=
  let f := presetFilter c.preset
  let h := f.put x c.preHist
  (if c.preDue then some (f.outCx 0 0 h) else none, { c with preDue := !c.preDue, preHist := h })

/-- One link sample through the chain: mixed down by the NCO, decimated, resampled and filtered (R155). -/
def Chain.push (x : Cx) (c : Chain) : Option Cx × Chain :=
  let m := Cx.mul x (Config.phasor (0 - c.phase))
  let (y, hs) := pushHalves m c.halves
  let c1 := { c with phase := c.phase + c.step, halves := hs, fed := c.fed + 1 }
  match y with
  | none => (none, c1)
  | some z =>
    match c1.resampled z with
    | (none, c2) => (none, c2)
    | (some o, c2) => c2.filtered o

/-- The link position of the chain's last output after that of its first link sample, as a fraction (R159). -/
def Chain.position (c : Chain) : Nat × Nat := (2 ^ c.halves.length * (c.n * c.ratio.2 + c.r), c.ratio.2)

/-- What dates the link's samples (R142 to R144): T_L, the period of a link sample in ns as a fraction, and ext_latency_ns. -/
structure LinkDate where
  tL   : Ns
  per  : Nat × Nat
  ext  : Nat
  deriving DecidableEq, Repr

/-- The antenna time of the link position `num / den` after T_L, in 2^-16 ns (R143). -/
def LinkDate.antenna (d : LinkDate) (num : Int) (den : Nat) : Int :=
  65536 * ((d.tL : Int) - (d.ext : Int)) + Int.fdiv (65536 * num * d.per.1) (den * d.per.2)

/-- The time-stamp of an output sample (R161): the antenna time of the link position that it represents, less D. -/
def LinkDate.stamp (d : LinkDate) (fs bw preset : Nat) (num : Int) (den : Nat) : Int :=
  let g := chainDelay fs bw preset
  let a := d.per.2 * den
  let b := g.1.2
  let e := g.2.2
  65536 * ((d.tL : Int) - (d.ext : Int)) +
    Int.fdiv (65536 * (num * d.per.1 * (b * e : Nat) - 1000000000 * (g.1.1 * e + g.2.1 * b : Nat) * a)) (a * b * e : Nat)

/-- A 16-bit component of the link stands in bits [17:2] of a sample (R16, R148). -/
def linkSample (x : BitVec 16 × BitVec 16) : Cx := (sample16 x.1.toNat, sample16 x.2.toNat)

/-- Apply the channel gain in 0.25 dB (R172): the sample, and whether it saturated. -/
def gainStage (g : Int) (x : Cx) : Cx × Bool :=
  let k : Int := (gainCoef (25 * g) : Int)
  let y := (Int.fdiv (x.1 * k + 65536) 131072, Int.fdiv (x.2 * k + 65536) 131072)
  ((sat18 y.1, sat18 y.2), decide (sat18 y.1 ≠ y.1) || decide (sat18 y.2 ≠ y.2))

/-! ### Chirps (R179, R199) -/

/-- The instantaneous frequency of a chirp after `num / den` of its symbol time, in Hz as a fraction over `den` 2^SF (R179). -/
def chirpFreq (sf bw : Nat) (c : Chirp) (num den : Nat) : Int × Nat :=
  let d := 2 ^ sf * den
  match c with
  | .up s => (bwHz bw * (2 * ((s * den + num * 2 ^ sf) % d : Nat) - (d : Int)), 2 * d)
  | .down => (bwHz bw * ((d : Int) - 2 * (num * 2 ^ sf : Nat)), 2 * d)

/-- The phase of a chirp `k` samples after its first, at `os` samples in a chip, in 2^-32 turns: the integral of its frequency,
which is a whole number of turns over a symbol, so that phase is continuous across symbols (R179). -/
def chirpPhase (sf os : Nat) (c : Chirp) (k : Nat) : BitVec 32 :=
  let d : Int := os * os * 2 ^ (sf + 1)
  let base : Int := k * k - (k * os * 2 ^ sf : Nat)
  match c with
  | .up s =>
    let wrap : Int := if (2 ^ sf - s) * os ≤ k then (k - (2 ^ sf - s) * os) * os * 2 ^ (sf + 1) else 0
    BitVec.ofInt 32 (Int.fdiv ((base + 2 * s * k * os - wrap) * 2 ^ 32) d)
  | .down => BitVec.ofInt 32 (Int.fdiv (-base * 2 ^ 32) d)

/-! ### Transmission (R207) -/

/-- The synthesiser's chirps at four samples in a chip, zero outside the frame. -/
def synthesised (sf : Nat) (syms : List Chirp) (i : Nat) : Cx :=
  match syms[i / (4 * 2 ^ sf)]? with
  | some c => Config.phasor (chirpPhase sf 4 c (i % (4 * 2 ^ sf)))
  | none => (0, 0)

/-- One output of a filter on a signal at its sample `i`. -/
def FdcFilter.on (f : FdcFilter) (phase w : Nat) (u : Nat → Cx) (i : Nat) : Cx :=
  f.outCx phase w ((List.range (f.span + 2)).map (fun j => if j ≤ i then u (i - j) else (0, 0)))

/-- A signal interpolated from 4 bw to the rate of the half-band stages' end (R159, R160). -/
def interpolated (fs bw : Nat) (u : Nat → Cx) (m : Nat) : Cx :=
  let r := radioRatio fs bw
  let p := m * r.2
  if r.1 = r.2 then u m else radioResampler.on (256 * (p % r.1) / r.1) (256 * (p % r.1) % r.1 * 1024 / r.1) u (p / r.1)

/-- Half-band stages in reverse: each doubles the rate, with zeros between the samples of a signal at twice their size. -/
def raised (h : Nat) (u : Nat → Cx) : Nat → Cx :=
  match h with
  | 0 => u
  | k + 1 => halfFilter.on 0 0 (fun i => if i % 2 = 0 then (2 * (raised k u (i / 2)).1, 2 * (raised k u (i / 2)).2) else (0, 0))

/-- The link sample `k` of a transmission: chirps, the BALANCED filter, interpolation to fs, level, and the mixing to its carrier
offset. -/
def txSample (fs bw : Nat) (o : OnAir) (k : Nat) : Cx :=
  let v := (presetFilter 1).on 0 0 (synthesised o.req.sf o.syms)
  Cx.mul (gainStage (-(o.level : Int)) (raised (halfBands fs bw) (interpolated fs bw v) k)).1
    (Config.phasor (BitVec.ofNat 32 k * ncoStep fs o.centreHz))

/-! ### The search (R162) -/

/-- A window dechirped against the unshifted up-chirp, or the down-chirp. -/
def dechirp (sf os : Nat) (down : Bool) (w : List Cx) : List Cx :=
  w.zipIdx.map (fun e => Cx.mul e.1 (Config.phasor (0 - chirpPhase sf os (if down then .down else .up 0) e.2)))

/-- A line of the transform of `2^m` samples. -/
def dftLine (m : Nat) (w : List Cx) (k : Nat) : Cx :=
  Cx.dot w ((List.range (2 ^ m)).map (fun i => Config.phasor (BitVec.ofNat 32 (2 ^ 32 - (i * k % 2 ^ m) * 2 ^ (32 - m)))))

/-- The powers of the 2^SF bins of a window of 2^(SF + 1) samples. -/
def searchBins (sf : Nat) (down : Bool) (w : List Cx) : List Nat :=
  let d := dechirp sf 2 down w
  (List.range (2 ^ sf)).map (fun k => Config.foldLines sf (dftLine (sf + 1) d k) (dftLine (sf + 1) d (k + 2 ^ sf)))

/-- The place of the largest number, the first where there are more. -/
def peakOf (l : List Nat) : Nat := (l.zipIdx.foldl (fun (b : Nat × Nat) e => if b.1 < e.1 then e else b) (0, 0)).2

/-- λ as a fraction: the largest bin over the mean of the bins outside it and its two neighbours. -/
def peakRatio (l : List Nat) : Nat × Nat :=
  let n := l.length
  let k := peakOf l
  let p := l.getD k 0
  (p * (n - 3), l.sum - p - l.getD ((k + 1) % n) 0 - l.getD ((k + n - 1) % n) 0)

/-- Whether λ reaches a threshold in 0.25 dB. -/
def reaches (x : Nat × Nat) (thr : Nat) : Bool := x.1 ≠ 0 && (x.2 = 0 || 25 * (thr : Int) ≤ centiDb x.1 x.2)

/-- Sum and order of fractions; over 0 stands what has no noise. -/
def ratioAdd (x y : Nat × Nat) : Nat × Nat := (x.1 * y.2 + y.1 * x.2, x.2 * y.2)
def ratioLess (x y : Nat × Nat) : Bool := x.1 * y.2 < y.1 * x.2

/-- A bin as a signed value (R176). -/
def signedBin (sf k : Nat) : Int := if 2 ^ (sf - 1) ≤ k then (k : Int) - 2 ^ sf else k

/-- The down-chirp's peak in 1/64 bin, signed and interpolated from its three largest bins (R176). -/
def downPeak (sf : Nat) (l : List Nat) : Int :=
  let n := l.length
  let k := peakOf l
  64 * signedBin sf k + clampI (-32) 32 (Config.binFraction (l.getD ((k + n - 1) % n) 0) (l.getD k 0) (l.getD ((k + 1) % n) 0))

/-! ### The equaliser (R193) -/

/-- The equaliser at the end of the delimiter: a single centre tap, the fifth of eight. -/
def Equaliser.start (peak : Cx) (n : Nat) : Equaliser :=
  { ff := List.replicate 4 (0, 0) ++ [Config.centreTap peak n] ++ List.replicate 3 (0, 0), fb := List.replicate 4 (0, 0)
    prev := [], chips := [], turn := 0, peak }

/-- An equaliser of a reception without one yet. -/
def Equaliser.none : Equaliser := { ff := [], fb := [], prev := [], chips := [], turn := 0, peak := (0, 0) }

/-- The samples that the feed-forward taps see for chip `c`, of a window with four samples before its first: at half-chip spacing,
newest first. -/
def ffSees (w : List Cx) (c : Nat) : List Cx := (List.range 8).map (fun i => w.getD (2 * c + 8 - i) (0, 0))

/-- The chips that the feedback taps see: those decided before chip `c` of the reference, newest first. -/
def fbSees (ref : List Cx) (c : Nat) : List Cx := (List.range 4).map (fun j => if j < c then ref.getD (c - 1 - j) (0, 0) else (0, 0))

/-- One chip at the output of the equaliser. -/
def Equaliser.chip (e : Equaliser) (x d : List Cx) : Cx :=
  let y := Cx.dot e.ff x
  let z := Cx.dot e.fb d
  (narrow18 17 (y.1 - z.1), narrow18 17 (y.2 - z.2))

/-- The chips of a symbol's window, before its own decision: the feedback sees the end of the symbol before. -/
def Equaliser.run (e : Equaliser) (sf : Nat) (w : List Cx) : List Cx :=
  (List.range (2 ^ sf)).map (fun c =>
    e.chip (ffSees w c) ((List.range 4).map (fun j => if c ≤ j then e.chips.getD (e.chips.length + c - 1 - j) (0, 0) else (0, 0))))

/-- One step of the normalised least mean squares with step 2^-6 on a chip whose reference is `d`. -/
def Equaliser.adaptChip (e : Equaliser) (x f : List Cx) (d : Cx) : Equaliser :=
  let err := Cx.sub d (e.chip x f)
  let norm := (x.map Cx.power).sum + (f.map Cx.power).sum
  let step := fun (sign : Int) (t u : Cx) =>
    if norm = 0 then t
    else
      (sat18 (t.1 + Int.fdiv (sign * (err.1 * u.1 + err.2 * u.2) * 2 ^ 17) (64 * (norm : Int))),
       sat18 (t.2 + Int.fdiv (sign * (err.2 * u.1 - err.1 * u.2) * 2 ^ 17) (64 * (norm : Int))))
  { e with ff := List.zipWith (step 1) e.ff x, fb := List.zipWith (step (-1)) e.fb f }

/-- The chips of a decided shift, re-modulated (R193). -/
def remodulate (sf : Nat) (c : Chirp) : List Cx := (List.range (2 ^ sf)).map (fun k => Config.phasor (chirpPhase sf 1 c k))

/-- Adapt on the symbol before, whose decision came with a delay of one symbol. -/
def Equaliser.adapt (e : Equaliser) (sf : Nat) : Equaliser :=
  if e.prev.isEmpty then e
  else
    (List.range (2 ^ sf)).foldl (fun q c => q.adaptChip (ffSees e.prev c) (fbSees e.chips c) (e.chips.getD c (0, 0))) e

/-- Where the energy of the feed-forward taps lies: past half a chip, one sample, from the centre the window moves by half a chip
and the taps with it. The samples that the window moves by, and the equaliser. -/
def Equaliser.recentre (e : Equaliser) : Int × Equaliser :=
  let en := e.ff.map Cx.power
  let m : Int := (en.zipIdx.map (fun p => (p.1 : Int) * ((p.2 : Int) - 4))).sum
  if (en.sum : Int) < m then (-1, { e with ff := e.ff.drop 1 ++ [(0, 0)] })
  else if m < -(en.sum : Int) then (1, { e with ff := (0, 0) :: e.ff.take 7 })
  else (0, e)

/-- The bins of a symbol after the equaliser, turned back by the residual phase. -/
def symbolLines (e : Equaliser) (sf : Nat) (w : List Cx) : List Cx :=
  let d := dechirp sf 1 false ((e.run sf w).map (fun x => Cx.mul x (Config.phasor (0 - e.turn))))
  (List.range (2 ^ sf)).map (dftLine sf d)

/-- The equaliser after a symbol's window and decision: adapted on the symbol before, its phase tracked once. -/
def Equaliser.after (e : Equaliser) (sf shift : Nat) (line : Cx) (w : List Cx) : Equaliser :=
  { e.adapt sf with prev := w, chips := remodulate sf (.up shift), turn := e.turn + Config.angle line }

/-! ### Soft decisions and the decoder (R187 to R189, R192) -/

/-- The value that a shift carries, and the shift of a value (R180). -/
def grayOf (s : Nat) : Nat := s ^^^ (s / 2)
def grayInv (v : Nat) : Nat := (List.range 13).foldl (fun acc i => acc ^^^ (v / 2 ^ i)) 0

/-- The whitening sequence (R189). -/
def whitening (n : Nat) : List Bool :=
  ((List.range n).foldl
    (fun (st : List Bool × BitVec 9) _ =>
      let f := xor (st.2.getLsbD 0) (st.2.getLsbD 5)
      (st.1 ++ [st.2.getLsbD 0], (st.2 >>> 1) ||| (if f then 0x100 else 0))) ([], 0x1FF)).1

/-- The largest of powers. -/
def maxOf (l : List Nat) : Int := (l.foldl max 0 : Nat)

/-- The soft decisions of the bits v[0] to v[SF − 1] of data symbol `j` from the powers of its shifts: the largest among the shifts
whose value has the bit 0, less the largest among those with 1, with the whitening bits removed (R192). -/
def softBits (sf j : Nat) (powers : List Nat) : List Int :=
  let w := (whitening ((j + 1) * sf)).drop (j * sf)
  (List.range sf).map (fun i =>
    let at_ := fun (b : Bool) => maxOf ((powers.zipIdx.filter (fun e => (grayOf e.2).testBit i == b)).map (·.1))
    let d := at_ false - at_ true
    if w.getD (sf - 1 - i) false then -d else d)

/-- A soft decision scaled to a 6-bit signed metric; the scale is the CRE's (log entry 110). -/
def metric6 (scale : Nat) (d : Int) : Int := clampI (-32) 31 (Int.tdiv d scale)

/-- Coded bits of the symbols of a block or blocks, deinterleaved (R188), as metrics. -/
def deinterleave (sf scale : Nat) (l : List (List Int)) : List Int :=
  (List.range (l.length / sf)).flatMap (fun k =>
    (List.range (sf * sf)).map (fun m =>
      metric6 scale ((l.getD (k * sf + (m / sf + m % sf) % sf) []).getD (sf - 1 - m / sf) 0)))

/-- The puncturing pattern of a code rate: what is kept of X and of Y by place in the period (R187). -/
def punctures (cr : Nat) : List (Bool × Bool) :=
  match cr with
  | 0 => [(true, true)]
  | 1 => [(true, true), (false, true)]
  | 2 => [(true, true), (false, true), (true, false)]
  | _ => [(true, true), (false, true), (true, false), (false, true), (true, false)]

/-- Metrics of X and Y by input position: a punctured position has metric 0, and the fill is left over (R192). -/
def depuncture (cr : Nat) (inputs : Nat) (l : List Int) : List (Int × Int) :=
  let k := punctures cr
  ((List.range inputs).foldl
    (fun (st : List (Int × Int) × List Int) i =>
      let keep := k.getD (i % k.length) (true, true)
      let (x, r1) := if keep.1 then (st.2.headD 0, st.2.drop 1) else (0, st.2)
      let (y, r2) := if keep.2 then (r1.headD 0, r1.drop 1) else (0, r1)
      ((x, y) :: st.1, r2)) ([], l)).1.reverse

/-- The outputs X and Y of the encoder for an input bit in a state whose bit i is the input i + 1 positions before (R187). -/
def convOut (st : Nat) (b : Bool) : Bool × Bool :=
  let p := fun i => st.testBit (i - 1)
  (xor b (xor (p 1) (xor (p 2) (xor (p 3) (p 6)))), xor b (xor (p 2) (xor (p 3) (xor (p 5) (p 6)))))

/-- A survivor of the Viterbi decoder: its metric and its input bits, newest first. -/
abbrev Survivor : Type := Option (Int × List Bool)

/-- The better of two survivors, the first where they are equal. -/
def betterPath (a b : Survivor) : Survivor :=
  match a, b with
  | some x, some y => if x.1 < y.1 then b else a
  | some _, none => a
  | none, _ => b

/-- A survivor goes on by an input bit from a state; a bit of 0 adds its metric and a bit of 1 takes it away. -/
def extendPath (l : List Survivor) (m : Int × Int) (st : Nat) (b : Bool) : Survivor :=
  match l.getD st none with
  | none => none
  | some (v, bs) =>
    let o := convOut st b
    some (v + (if o.1 then -m.1 else m.1) + (if o.2 then -m.2 else m.2), b :: bs)

/-- One step of the decoder over its 64 states. -/
def viterbiStep (l : List Survivor) (m : Int × Int) : List Survivor :=
  (List.range 64).map (fun ns =>
    betterPath (extendPath l m (ns / 2) (ns.testBit 0)) (extendPath l m (ns / 2 + 32) (ns.testBit 0)))

/-- The input bits of a block, with its six tail bits: full traceback from state 0 to state 0 (R192). -/
def viterbi (l : List (Int × Int)) : List Bool :=
  match (l.foldl viterbiStep (some (0, []) :: List.replicate 63 none)).headD none with
  | some (_, bs) => bs.reverse
  | none => []

/-- A number from bits, most significant first. -/
def ofBits (l : List Bool) : Nat := l.foldl (fun a b => 2 * a + b2n b) 0

/-- The octets of decoded bits, without the tail. -/
def octetsOfBits (n : Nat) (l : List Bool) : Bytes :=
  (List.range n).map (fun i => BitVec.ofNat 8 (ofBits ((l.drop (8 * i)).take 8)))

/-- The octets of a block of `n` octets from the soft decisions of its symbols (R192). -/
def decodeBlock (sf cr scale n : Nat) (l : List (List Int)) : Bytes :=
  octetsOfBits n (viterbi (depuncture cr (8 * n + 6) (deinterleave sf scale l)))

end Sys2Proof.Machine
end

