-- ==== Sys2Proof/Machine/RadioOps.lean ====
section
/-! DEFINITION. Operations of the radio links and the Chirp Radio Engine: link settings and samples, the chirp frame and its
coding, gain control, receptions and their ends, and security (R138 to R213). -/

namespace Sys2Proof.Machine

open Sys2Proof

/-! ### Links and antennas -/

/-- An antenna and a link before anything has happened to them. -/
def Antenna.fresh : Antenna :=
  { table := none, entry := 0, frozen := false, frozenNs := 0, frozenAt := 0, lowRun := 0, lastClip := false
    writing := none, manual := none }
def Link.fresh : Link :=
  { state := 0, periodic := false, sysrefAt := none, rate := none, ants := [Antenna.fresh, Antenna.fresh], spiOut := []
    spiWait := [], rxPairs := [], txPairs := [], txAt := 0 }

/-- The live state of a link, and changes to it and to an antenna. -/
def linkAt (s : State) (n : Nat) : Link := FMap.getD s.links n Link.fresh
def withLink (n : Nat) (f : Link → Link) (s : State) : State := { s with links := FMap.set s.links n (f (linkAt s n)) }
def antAt (s : State) (n a : Nat) : Antenna := (linkAt s n).ants.getD a Antenna.fresh
def withAnt (n a : Nat) (f : Antenna → Antenna) (s : State) : State :=
  withLink n (fun l => { l with ants := l.ants.modify a f }) s

/-- Whether a link is in DATA. -/
def inData (s : State) (n : Nat) : Bool := (linkAt s n).state = 3

/-- Settings of a link (R141). A link is configured while it is enabled (log entry 21). -/
def linkEnabled (s : State) (n : Nat) : Bool := flag s .rlCtrl n 0
def rxAntennas (s : State) (n : Nat) : Nat := fld s .rlCfg n 2 1
def txEnable (s : State) (n : Nat) : Bool := flag s .rlCfg n 3
def fsHz (s : State) (n : Nat) : Nat := fld s .rlFs n 25 0

/-- Whether a lane rate lies in the range of R138: M converters over L lanes (R139). -/
def laneRateOk (b : Bool) (fs m l : Nat) : Bool :=
  if b then 150000000 * 8 * l ≤ m * 16 * fs * 10 && m * 16 * fs * 10 ≤ 12500000000 * 8 * l
  else 120000000 * 64 * l ≤ m * 16 * fs * 66 && m * 16 * fs * 66 ≤ 16220160000 * 64 * l

/-- Frames of a multiblock under C, of a multiframe under B (R139, R141): a multiblock is 32 blocks of 8 octets, a frame has
M × S × 2 / L. -/
def blockFrames (s : State) (n : Nat) : Nat :=
  if flag s .rlCfg n 0 then 16 * 2 ^ (fld s .rlCfg n 11 9 - 3)
  else 256 * 2 ^ fld s .rlCfg n 5 4 / (2 * rxAntennas s n * (1 + fld s .rlCfg n 8 8) * 2)

/-- The checks across registers made when enable is written to 1 (R139, R141, R528). -/
def linkConfigOk (s : State) (n : Nat) : Bool :=
  let b := flag s .rlCfg n 0
  let e := fld s .rlCfg n 11 9
  let fs := fsHz s n
  (if b then 3 ≤ e && e ≤ 4 else e ≤ 2) && 3840000 * 2 ^ fld s .rlCfg n 22 21 ≤ fs &&
  (rxAntennas s n = 0 ||
    (laneRateOk b fs (2 * rxAntennas s n) (2 ^ fld s .rlCfg n 5 4) && fld s .rlCfg n 20 13 < blockFrames s n)) &&
  (!txEnable s n || laneRateOk b fs 2 (2 ^ fld s .rlCfg n 7 6))

/-- The physical pairs that a link's logical lanes use; the others are powered down (R140). -/
def pairsUsed (map lanes : Nat) : List Nat := (List.range lanes).map (fun i => bits map (2 * i + 1) (2 * i))
def rxPairsUsed (s : State) (n : Nat) : List Nat :=
  if rxAntennas s n = 0 then [] else pairsUsed (fld s .rlLane n 7 0) (2 ^ fld s .rlCfg n 5 4)
def txPairsUsed (s : State) (n : Nat) : List Nat :=
  if txEnable s n then pairsUsed (fld s .rlLane n 15 8) (2 ^ fld s .rlCfg n 7 6) else []

/-- The period of a link sample in ns as a fraction: as measured between periodic SYSREF edges, else from fs_hz (R144). -/
def linkPeriod (s : State) (n : Nat) : Nat × Nat := (linkAt s n).rate.getD (1000000000, fsHz s n)

/-- What dates a link's samples (R142, R143): nothing before the first SYSREF edge. -/
def linkDate? (s : State) (n : Nat) : Option LinkDate :=
  (linkAt s n).sysrefAt.map (fun t => ⟨t, linkPeriod s n, fld s .rlExtLat n 16 0⟩)

/-- The position after T_L of the first link sample that reaches the deframer's release, rbd frames after its boundary (R143), at
or after an instant. -/
def releasedFrom (s : State) (n : Nat) (d : LinkDate) (t : Ns) : Int :=
  -Int.fdiv (((d.tL : Int) - (t : Int)) * d.per.2) d.per.1 - (fld s .rlCfg n 20 13 * (1 + fld s .rlCfg n 8 8) : Nat)

/-- A transaction of a link's SPI master: bits and value, most significant bit first (R149). -/
def spiSend (n bitsN value : Nat) (s : State) : State := withLink n (fun l => { l with spiOut := l.spiOut ++ [(bitsN, value)] }) s

/-- Bits of an SPI word, and its clock in MHz (R149). -/
def spiWordBits (s : State) (n : Nat) : Nat := 16 + fld s .rlSpi n 6 2
def spiMhz (s : State) (n : Nat) : Nat := fld s .rlSpi n 11 7

/-- The time of an SPI transaction in ps: its bits and 80 ns for chip select (R149). -/
def spiPs (mhz bitsN : Nat) : Nat := bitsN * 1000000 / mhz + 80000

/-- The analogue gain of an antenna in 0.25 dB; 0 where no table is loaded. -/
def Antenna.gainAt (a : Antenna) (i : Nat) : Int :=
  match a.table with
  | some t => (t.entries[i]?).elim 0 (·.1)
  | none => 0
def Antenna.gain (a : Antenna) : Int := a.gainAt a.entry

/-! ### The chirp frame (R179 to R190) -/

/-- The bits of octets, most significant first. -/
def bitsMsb (d : Bytes) : List Bool := d.flatMap (fun b => (List.range 8).map (fun i => b.getLsbD (7 - i)))

/-- The convolutional encoder over input bits and six tail bits: X and Y by position (R187). -/
def convCode (d : List Bool) : List (Bool × Bool) :=
  ((d ++ List.replicate 6 false).foldl
    (fun (st : List (Bool × Bool) × Nat) b => (st.1 ++ [convOut st.2 b], (2 * st.2 + b2n b) % 64)) ([], 0)).1

/-- The coded bits that remain. -/
def punctured (cr : Nat) (l : List (Bool × Bool)) : List Bool :=
  let k := punctures cr
  l.zipIdx.flatMap (fun e =>
    let keep := k.getD (e.2 % k.length) (true, true)
    (if keep.1 then [e.1.1] else []) ++ (if keep.2 then [e.1.2] else []))

/-- The symbols of coded bits (R188): blocks of SF² bits, filled with zeros; each symbol as its bits from v[SF − 1]
down. -/
def interleave (sf : Nat) (l : List Bool) : List (List Bool) :=
  (List.range (cdiv l.length (sf * sf))).flatMap (fun k =>
    (List.range sf).map (fun j =>
      (List.range sf).map (fun r => l.getD (k * sf * sf + r * sf + (j + sf - r % sf) % sf) false)))

/-- The header of a frame (R184). -/
def chirpHeader (len cr : Nat) (sec ptt : Bool) (stream : Nat) : Bytes :=
  let h := toBE 1 len ++ toBE 1 (cr + 4 * b2n sec + 8 * b2n ptt) ++ toBE 2 stream
  h ++ toBE 2 (crc16 h).toNat

/-- Whether a received header passes, and the reason where it does not: 1 HEADER_CRC, 2 HEADER_BAD (R186). -/
def headerVerdict (h : Bytes) : Nat :=
  if beAt h 4 2 ≠ (crc16 (h.take 4)).toNat then 1
  else if byteAt h 0 = 0 || bits (byteAt h 1) 7 4 ≠ 0 then 2
  else 0

/-- The shifts of the header and payload symbols (R182, R187 to R189). -/
def dataShifts (sf cr : Nat) (header payload : Bytes) : List Nat :=
  let a := interleave sf (punctured 0 (convCode (bitsMsb header)))
  let b := interleave sf (punctured cr (convCode (bitsMsb (payload ++ toBE 4 (crc32 payload).toNat))))
  let v := a ++ b
  let w := whitening (v.length * sf)
  v.zipIdx.map (fun e => grayInv (ofBits (List.zipWith xor e.1 ((w.drop (e.2 * sf)).take sf))))

/-- Every symbol of a frame, from preamble to payload (R182, R183). -/
def frameSymbols (sf preamble cr : Nat) (sync : BitVec 32) (sec ptt : Bool) (stream : Nat) (payload : Bytes) : List Chirp :=
  let nib := (List.range 8).map (fun i => grayInv (bits sync.toNat (31 - 4 * i) (28 - 4 * i)) * 2 ^ (sf - 4))
  List.replicate preamble (Chirp.up 0) ++ [.down, .down, .up (2 ^ (sf - 1))] ++ nib.map .up ++
    (dataShifts sf cr (chirpHeader payload.length cr sec ptt stream) payload).map .up

/-- The number of coded payload bits C (R187). -/
def codedBits (cr len : Nat) : Nat :=
  let k := punctures cr
  let i := 8 * len + 38
  let kept := fun (l : List (Bool × Bool)) => (l.map (fun p => b2n p.1 + b2n p.2)).sum
  kept k * (i / k.length) + kept (k.take (i % k.length))

/-- Header symbols; payload symbols (R182). -/
def headerSymbols (sf : Nat) : Nat := sf * cdiv 108 (sf * sf)
def payloadSymbols (sf cr len : Nat) : Nat := sf * cdiv (codedBits cr len) (sf * sf)

/-- Symbols of a frame from preamble to payload, and its time on air in ns (R182, R190). -/
def symbolCount (sf preamble cr len : Nat) : Nat := preamble + 11 + headerSymbols sf + payloadSymbols sf cr len
def airNs (sf bw preamble cr len : Nat) : Nat := symbolNs sf bw * symbolCount sf preamble cr len

/-! ### Node frame security (R201) -/

/-- The CCM nonce: role, fcnt and address. -/
def ccmNonce (fromDev ptt : Bool) (addr : BitVec 64) (fcnt : BitVec 32) : Bytes :=
  toBE 1 (0x68 + b2n fromDev + 2 * b2n ptt) ++ toBE 4 fcnt.toNat ++ toBE 8 addr.toNat

/-- A secured payload; `header` gives the associated octets 0 to 3. -/
def securePayload (key header : Bytes) (ptt : Bool) (addr : BitVec 64) (fcnt : BitVec 32) (plain : Bytes) : Bytes :=
  let n := ccmNonce true ptt addr fcnt
  let pre := toBE 8 addr.toNat ++ toBE 4 fcnt.toNat
  pre ++ ccmCrypt key n plain ++ ccmTag key n (header.take 4 ++ pre) plain

/-- Open a secured payload: its plaintext where the message code is correct (R202). -/
def openPayload (key header : Bytes) (ptt : Bool) (d : Bytes) : Option Bytes :=
  let n := ccmNonce false ptt (BitVec.ofNat 64 (beAt d 0 8)) (BitVec.ofNat 32 (beAt d 8 4))
  let plain := ccmCrypt key n (sub d 12 (d.length - 16))
  if ccmTag key n (header.take 4 ++ d.take 12) plain = d.drop (d.length - 4) then some plain else none

/-! ### Receive channels and the freezing of controls (R172 to R174) -/

/-- A receive channel, and a change to it. -/
def rxc? (s : State) (n : Nat) : Option Rxc := FMap.get? s.rxcs n
def withRxc (n : Nat) (f : Rxc → Rxc) (s : State) : State := { s with rxcs := FMap.adj s.rxcs n f }

/-- Channel gain held to its range of −24 to +72 dB, in 0.25 dB (R172). -/
def clampGain (g : Int) : Int := clampI (-96) 288 g

/-- Whether a reception is in progress on an antenna. -/
def antBusy (s : State) (n a : Nat) : Bool :=
  s.rxcs.any (fun e => e.2.p.link == n && e.2.p.antenna == a && !e.2.recs.isEmpty)

/-- The fast gain loop of an antenna is frozen exactly while a reception is in progress on it (R173). -/
def refreeze (n a : Nat) (s : State) : State :=
  let x := antAt s n a
  let busy := antBusy s n a
  if busy && !x.frozen then withAnt n a (fun y => { y with frozen := true, frozenAt := now s, lowRun := 0 }) s
  else if !busy && x.frozen then
    withAnt n a (fun y => { y with frozen := false, frozenNs := y.frozenNs + (now s - y.frozenAt) }) s
  else s

/-- Change a channel's receptions and settle what is frozen. -/
def withRecs (n : Nat) (f : List Reception → List Reception) (s : State) : State :=
  match rxc? s n with
  | none => s
  | some c => refreeze c.p.link c.p.antenna (withRxc n (fun d => { d with recs := f d.recs }) s)

/-- Count an abandonment: per channel and SF, but LINK and SWITCH per channel (R178, R213). -/
def countAbandon (n sf : Nat) (r : Abandon) (s : State) : State :=
  match r with
  | .preambleLost => bumpSub .detPreLost n sf s
  | .syncMismatch => bumpSub .detSyncMismatch n sf s
  | .link => bump .detAbandonLink n s
  | .headerCrc => bumpSub .detHdrCrc n sf s
  | .headerBad => bumpSub .detHdrBad n sf s
  | .falsePreamble => bumpSub .detFalse n sf s
  | .switch => bump .ovlSwitch n s
  | .modify | .release => s

/-- Abandon one reception of a channel (R195); the other, if any, keeps its overlap flags (R199). -/
def abandon (n id : Nat) (r : Abandon) (s : State) : State :=
  match (rxc? s n).bind (fun c => c.recs.find? (fun e => e.id == id)) with
  | none => s
  | some e => countAbandon n e.sf r (withRecs n (fun l => l.filter (fun x => x.id != id)) s)

/-- Abandon every reception of a channel. -/
def abandonAll (n : Nat) (r : Abandon) (s : State) : State :=
  match rxc? s n with
  | none => s
  | some c => c.recs.foldl (fun t e => abandon n e.id r t) s

/-- The receive channel that a radio event is of. -/
def RadioEvt.channel? (e : RadioEvt) : Option Nat :=
  match e with
  | .header n _ _ => some n
  | .lost n _ _ => some n
  | .frameEnd n _ _ _ _ _ _ => some n
  | .qualified n _ => some n
  | .window _ _ _ _ _ => none

/-- The search of a channel begins anew: no run of hits goes on, and a preamble that has qualified but has not been taken is dropped
(log entry 110). -/
def restartRuns (n : Nat) (s : State) : State :=
  withRxc n (fun c => { c with runs := c.runs.map (fun r => { r with wins := [], done := false }) })
    { s with radio := s.radio.filter (fun e => match e with | .qualified m _ => m != n | _ => true) }

/-- A channel's chain restarts: its next N output samples are unsettled, and its search begins anew (R158). -/
def restartChain (n : Nat) (s : State) : State :=
  withRxc n (fun c => { c with chain := Chain.start (fsHz s c.p.link) c.p, unsettled := (presetTaps c.p.preset).2.2 }) (restartRuns n s)

/-- The channels of a link. -/
def rxcsOf (s : State) (link : Nat) : List Nat := (s.rxcs.filter (fun e => e.2.p.link == link)).map (·.1)

/-! ### Transmissions -/

/-- A transmit channel, and a change to it. -/
def txc? (s : State) (n : Nat) : Option Txc := FMap.get? s.txcs n
def withTxc (n : Nat) (f : Txc → Txc) (s : State) : State := { s with txcs := FMap.adj s.txcs n f }

/-- The flow numbers under which a transmit and a receive channel count missed deadlines (log entry 105). -/
def txFlowKey (n : Nat) : Nat := 33280 + n
def rxFlowKey (n : Nat) : Nat := 33792 + n

/-- A missed deadline of class C2 counts for its class and its flow (R30). -/
def missRadio (flow : Nat) (s : State) : State := bumpN .deadlineMiss flow 1 1 (bump .deadlineMiss 2 s)

/-- A request ends: its descriptor is written back and the transmission counts (R207, R213); one that is late has missed its
deadline (R30). -/
def endTx (n : Nat) (q : TxReq) (time status : Nat) (s : State) : State :=
  let ctr := if status = St.ok then some Ctr.txFrame else if status = St.txLate then some Ctr.txLate
    else if status = St.txAborted then some Ctr.txAborted else none
  let s1 := if status = St.txLate then missRadio (txFlowKey n) s else s
  endPtx q.ring time status (match ctr with | some c => bump c n s1 | none => s1)

/-- A transmit channel whose release waited for its transmission goes (R208). -/
def txcGone (n : Nat) (s : State) : State :=
  dropCounters [.txFrame, .txLate, .txAborted] n { s with txcs := FMap.del s.txcs n }

/-- The antenna time of the first preamble sample of a transmission (R207). -/
def OnAir.antenna (o : OnAir) (s : State) : Nat := devOf s o.start + o.lead

/-- The transmission in progress of a channel ends (R207, R208); a channel whose release waited for it goes. -/
def endOnAir (n status : Nat) (s : State) : State :=
  match txc? s n with
  | none => s
  | some c =>
    match c.active with
    | none => s
    | some o =>
      let s1 := endTx n o.req (o.antenna s) status (withTxc n (fun d => { d with active := none }) s)
      if c.releasing then txcGone n s1 else s1

/-- Queue a push-to-talk frame of a group (R206, R212): ahead of the host's requests, in the place of an older frame of the group
that has not started. Without a key nothing is sent. -/
def pttSend (group : Nat) (d : Bytes) (s : State) : State :=
  match FMap.get? s.groups group with
  | none => s
  | some g =>
    match txc? s g.tx with
    | none => s
    | some c =>
      if g.sec && (nextDl s (epdFind s g.addr)).isNone then s
      else
        let q : TxReq := { ring := none, sf := 7, cr := 0, sec := g.sec, ptt := true, group, launch := none, preamble := 8
                           stream := group, addr := g.addr, payload := d, built := false, cells := 0 }
        let old := c.waiting.filter (fun w => w.ptt && w.group == group)
        let rest := c.waiting.filter (fun w => !(w.ptt && w.group == group))
        withTxc g.tx (fun x => { x with waiting := rest.filter (·.ptt) ++ [q] ++ rest.filter (fun w => !w.ptt) })
          (bumpN .pttTxDrop group 0 old.length s)

/-! ### The build op (R203, R207) -/

/-- The transmit channel that a flow number is of. -/
def txOfFlow (f : Nat) : Option Nat := if 33280 ≤ f ∧ f < 33408 then some (f - 33280) else none

/-- The request of a channel that the build op takes next. -/
def toBuild (s : State) (n : Nat) : Option TxReq := (txc? s n).bind (fun c => c.waiting.find? (fun q => !q.built))

/-- Cells of a request's symbol item; the spec gives its symbols no size, and two octets are taken (log entry 112). -/
def symbolCells (preamble : Nat) (q : TxReq) : Nat :=
  cellsOf (2 * symbolCount q.sf (if q.preamble = 0 then preamble else q.preamble) q.cr (q.payload.length + 16 * b2n q.sec))

/-- Change the request that the build op takes next. -/
def changeBuilt (f : TxReq → TxReq) (l : List TxReq) : List TxReq :=
  match l with
  | [] => []
  | q :: r => if q.built then q :: changeBuilt f r else f q :: r

/-- The build op of a channel has released: its request is ready for the synthesiser, secured with its endpoint's key and next
downlink counter, which is written as it crosses the tether line (R203, R207). One whose op is void is late (R30), and one without
a key is not sent. -/
def buildEnd (n : Nat) (good : Bool) (s : State) : State :=
  match txc? s n, toBuild s n with
  | some c, some q =>
    let drop := fun (t : State) => withTxc n (fun d => { d with waiting := d.waiting.eraseP (fun w => !w.built) }) t
    let done := fun (d : Bytes) (t : State) =>
      withTxc n (fun x => { x with waiting := changeBuilt (fun w =>
        { w with built := true, payload := d, cells := symbolCells c.preamble q }) x.waiting }) t
    if !good then endTx n q 0 St.txLate (drop s)
    else if !q.sec then done q.payload s
    else
      match nextDl s (epdFind s q.addr) with
      | none => endTx n q 0 St.secNokey (drop s)
      | some (k, f, key) =>
        done (securePayload key (chirpHeader (q.payload.length + 16) q.cr true q.ptt q.stream) q.ptt q.addr f q.payload)
          (withEntry k (fun e => { e with dlFcnt := f }) s)
  | _, _ => s

/-! ### The samples of a link's transmit chain (R207) -/

/-- Link samples sent by an instant. -/
def linkIndex (fs : Nat) (t : Ns) : Nat := t * fs / 1000000000

/-- The sum of the transmissions of a link at a link sample, before it is saturated. -/
def txSum (s : State) (n i : Nat) : Cx :=
  (s.txcs.filter (fun e => e.2.link == n)).foldl (fun (a : Cx) e =>
    match e.2.active with
    | some o =>
      let k := linkIndex (fsHz s n) o.start
      if k ≤ i ∧ i < linkIndex (fsHz s n) o.stop then Cx.add a (txSample (fsHz s n) e.2.bw o (i - k)) else a
    | none => a) (0, 0)

/-- The samples of a link's transmit chain up to an instant are sent: those of its sum that exceed full scale are saturated, and
count. -/
def sendSamples (n : Nat) (t : Ns) (s : State) : State :=
  let a := linkIndex (fsHz s n) (linkAt s n).txAt
  let b := linkIndex (fsHz s n) t
  let clipped := (List.range' a (b - a)).filter (fun i => let x := txSum s n i; sat18 x.1 ≠ x.1 || sat18 x.2 ≠ x.2)
  withLink n (fun l => { l with txAt := max t l.txAt }) (bumpN .txClip n 0 clipped.length s)

/-! ### A link leaves and reaches DATA (R147, R208) -/

/-- A waiting transaction of RL_SPI runs and its command completes (R150). -/
def runSpi (n : Nat) (w : SpiWait) (s : State) : State :=
  completeHeld w.ring w.held St.ok (padTo 8 w.answer) (spiSend n w.bitsN w.value s)

/-- The transactions that fit into `ps` picoseconds, and the ones that still wait. -/
def spiFit (mhz ps : Nat) (l : List SpiWait) : List SpiWait × List SpiWait :=
  match l with
  | [] => ([], [])
  | w :: r =>
    let k := spiPs mhz w.allN
    if k ≤ ps then let x := spiFit mhz (ps - k) r; (w :: x.1, x.2) else ([], w :: r)

/-- The slot after a gain decision: waiting transactions run while they fit into its 5 µs (R150). -/
def spiSlot (n : Nat) (s : State) : State :=
  let x := spiFit (spiMhz s n) 5000000 (linkAt s n).spiWait
  x.1.foldl (fun t w => runSpi n w t) (withLink n (fun l => { l with spiWait := x.2 }) s)

/-- Every waiting transaction runs: the link has left DATA (R150). -/
def spiFree (n : Nat) (s : State) : State :=
  (linkAt s n).spiWait.foldl (fun t w => runSpi n w t) (withLink n (fun l => { l with spiWait := [] }) s)

/-- A link leaves DATA, which counts where it was in DATA (R178, log entry 109): receptions are abandoned with reason LINK,
transmissions end, captures end after the segment in progress (R343), a gain write in progress is kept, and what waited for the
SPI runs. -/
def leaveData (n : Nat) (s : State) : State :=
  let s0 := if inData s n then bump .rlDown n s else s
  let s1 := (rxcsOf s n).foldl (fun t c => restartRuns c (abandonAll c .link t)) s0
  let s2 := (s1.txcs.filter (fun e => e.2.link == n)).foldl (fun t e => endOnAir e.1 St.txAborted t) (sendSamples n (now s1) s1)
  spiFree n { s2 with bce := { s2.bce with captures := FMap.mapV s2.bce.captures (fun c k =>
      if (rxcsOf s n).contains c then { k with ending := true } else k) } }

/-- A link reaches DATA: every channel's chain restarts. -/
def reachData (n : Nat) (s : State) : State := (rxcsOf s n).foldl (fun t c => restartChain c t) s

/-! ### Push-to-talk reception (R211) -/

/-- The channel in use of a talk group. -/
def pttChan (s : State) (group : Nat) : Option (Nat × Chan) :=
  s.chans.find? (fun e => e.2.p.pktMode == 1 && e.2.p.pktRef == group)

/-- The first 10 ms frame of a channel whose boundary lies at or after an instant. -/
def frameFrom (s : State) (c : Chan) (t : Ns) : Nat := cdiv (tickFrom s t - c.due0) (10000000 / tickNs s)

/-- The G.729 frames of a payload and the SID frame that may follow, with the channel frames they play from. -/
def pttFrames (k : Nat) (d : Bytes) : List (Nat × Bytes) :=
  (List.range (cdiv d.length 10)).map (fun i => (k + i, sub d (10 * i) 10))

/-- A frame of the talker goes to the group's channel: the first of a talkspurt anchors playout, later ones take their
turn, and a SID frame ends the talkspurt. -/
def pttPlay (group : Nat) (t : Ns) (d : Bytes) (s : State) : State :=
  match FMap.get? s.groups group, pttChan s group with
  | some g, some (_, c) =>
    let k := match g.turn with
      | none => max c.frame (frameFrom s c (t + 10000000))
      | some k => if k < c.frame then k + cdiv (c.frame - k) c.p.ptime * c.p.ptime else k
    let g1 := { g with frames := g.frames ++ pttFrames k d
                       turn := if d.length % 10 = 2 then none else some (k + c.p.ptime) }
    { s with groups := FMap.set s.groups group g1 }
  | _, _ => s

/-- Whether a talker may speak: it holds the floor, or the floor is free. -/
def Group.mayTalk (g : Group) (id : Nat) (t : Ns) : Bool :=
  match g.talker with
  | some (x, last) => x = id || last + g.hangMs * 1000000 ≤ t
  | none => true

/-- The floor goes to a talker; a new talker starts a talkspurt, and its directory entry records the group. -/
def takeFloor (group id : Nat) (slot : Option Nat) (t : Ns) (s : State) : State :=
  match FMap.get? s.groups group with
  | none => s
  | some g =>
    let holds := match g.talker with | some (x, last) => x = id && t < last + g.hangMs * 1000000 | none => false
    let s1 := { s with groups := FMap.set s.groups group { g with talker := some (id, t), turn := if holds then g.turn else none } }
    match slot with
    | some n => if holds then s1 else withEntry n (fun e =>
        { e with regGroup := group, regTime := BitVec.ofNat 64 (devTime s1) }) s1
    | none => s1

/-! ### The end of a reception (R195, R196, R202) -/

/-- The level of a reception in 0.01 dB: the power of its preamble at the converter with the gains removed (R196, R198). -/
def Reception.levelDb (e : Reception) : Int := meanDb e.preSum e.preN - 25 * e.preGain

/-- The radio frame record (R196). -/
def radioRecord (n : Nat) (e : Reception) (crcOk secOk unknown : Bool) (quality corr : Nat) : Bytes :=
  toLE 2 n ++ toLE 1 (e.sf + 16 * e.cr) ++ toLE 1 e.len ++ toLE 2 e.stream ++
  toLE 2 (b2n crcOk + 2 * b2n e.overlap + 4 * b2n e.weak + 8 * b2n e.gainStep + 16 * b2n e.sec + 32 * b2n secOk +
    64 * b2n unknown + 128 * b2n e.ptt + 256 * b2n e.sat) ++
  toLE 4 e.syncWord.toNat ++ toLE 2 (enc 16 e.snr) ++ toLE 2 (enc 16 (Int.fdiv (e.levelDb + 12) 25)) ++ toLE 4 (enc 32 e.freqHz) ++
  toLE 1 (min 255 quality) ++ toLE 1 (min 255 corr) ++ zeros 2 ++ toLE 8 (enc 64 (Int.fdiv e.rxTime 65536))

/-- What security makes of a frame with a correct payload CRC: dropped with a counter, or its payload for the host, its
plaintext, whether security passed, whether the endpoint is unknown, and the slot and fcnt that its release writes. -/
inductive SecVerdict where
  | drop (c : Ctr) (slot : Option Nat)
  | pass (data plain : Bytes) (secOk unknown : Bool) (slot : Option Nat) (fcnt : Option (BitVec 32))
  deriving DecidableEq, Repr

/-- The checks of R202 on a secured frame, in their order. For push-to-talk the key is that of the group's address. -/
def secCheck (e : Reception) (d : Bytes) (s : State) : SecVerdict × State :=
  if d.length < 17 then (.drop .secFormat none, s)
  else
    let (slot, s1) := epdLookup (BitVec.ofNat 64 (beAt d 0 8)) s
    let keySlot := if e.ptt then (FMap.get? s1.groups e.stream).bind (fun g => epdFind s1 g.addr) else slot
    match slot, slot.bind (epdEntry? s1), entryKey s1 keySlot with
    | some n, some x, some k =>
      let f := BitVec.ofNat 32 (beAt d 8 4)
      if f.toNat ≤ x.ulFcnt.toNat || x.dlFcnt = 0xFFFFFFFF then (.drop .secReplay (some n), s1)
      else
        match openPayload k e.header e.ptt d with
        | none => (.drop .secMic (some n), s1)
        | some p => (.pass (d.take 12 ++ p ++ d.drop (d.length - 4)) p true false (some n) (some f), s1)
    | _, _, _ => (.pass d d false true none none, s1)

/-- Security of a frame that ended with a correct CRC; an unsecured frame names its sender where its payload begins with
an address of the directory (R467). -/
def frameSec (e : Reception) (d : Bytes) (s : State) : SecVerdict × State :=
  if e.sec then secCheck e d s
  else
    let slot := if 8 ≤ d.length then epdFind s (BitVec.ofNat 64 (beAt d 0 8)) else none
    (.pass d d false false slot none, s)

/-- The second half of the sender's entry learns from a frame accepted (R467). -/
def heardFrame (n slot quality : Nat) (e : Reception) (s : State) : State :=
  withEntry slot (fun x =>
    { x with lastTime := BitVec.ofInt 64 (Int.fdiv e.rxTime 65536), lastRx := n, lastSf := e.sf, lastQuality := min 255 quality
             lastSnr := enc 16 e.snr, lastLevel := enc 16 (Int.fdiv (e.levelDb + 12) 25), lastFreq := BitVec.ofNat 32 (enc 32 e.freqHz)
             heard := x.heard + 1 }) s

/-- Deliver a frame to the host (R196, R414). -/
def deliverRadio (n : Nat) (e : Reception) (crcOk secOk unknown : Bool) (quality corr : Nat) (d : Bytes)
    (s : State) : State :=
  deliverItem e.old.ring
    { kind := 1, source := n, data := radioRecord n e crcOk secOk unknown quality corr ++ d, tsValid := false
      time := 0, frac := 0, ext := choosePool s 2 1 (cellsOf (32 + d.length)) false = some true } s

/-- Push-to-talk talkers are known by their address on a secured group and by their receive channel otherwise; a frame
that security could not open goes to the host (log entry 23). -/
def pttByAddress (g : Group) (e : Reception) : Bool := g.sec && e.sec

/-- The group that a push-to-talk frame goes to: one set up, with a channel in use, heard on this channel at SF7. -/
def pttTarget (s : State) (n : Nat) (e : Reception) : Option Nat :=
  if !e.ptt then none
  else
    match FMap.get? s.groups e.stream with
    | some g => if (pttChan s e.stream).isSome && g.rxs.contains n && e.sf = 7 then some e.stream else none
    | none => none

/-- A frame released with a correct CRC: what security says, what the directory learns, and where the frame goes. -/
def releaseFrame (n : Nat) (e : Reception) (quality corr : Nat) (t : Ns) (d : Bytes) (s : State) : State :=
  let (v, s1) := frameSec e d s
  match v with
  | .drop c slot =>
    let s2 := bump c n s1
    match slot with
    | some k => withEntry k (fun x => { x with rxSecFail := x.rxSecFail + 1 }) s2
    | none => s2
  | .pass data plain secOk unknown slot fcnt =>
    let sU := if unknown then bump .secUnknown n s1 else s1
    let s2 := match slot, fcnt with | some k, some f => acceptFcnt k f sU | _, _ => sU
    let s3 := match slot with | some k => heardFrame n k quality e s2 | none => s2
    match (if unknown then none else pttTarget s3 n e) with
    | some g =>
      let id := if (FMap.get? s3.groups g).any (fun x => pttByAddress x e) then beAt d 0 8 else n
      if (FMap.get? s3.groups g).any (fun x => x.mayTalk id t) then
        pttPlay g t plain (takeFloor g id (if e.sec then slot else none) t s3)
      else bump .pttBlocked g s3
    | none =>
      let s4 := if e.ptt && (!FMap.has s3.groups e.stream || (pttChan s3 e.stream).isNone) then
        bump .pttNogroup e.stream s3 else s3
      deliverRadio n e true secOk unknown quality corr data s4

/-- A reception reaches its end of frame (R195): the instance is free, the controls unfreeze, and the frame, its payload and
the CRC as decoded, is delivered, goes to its talk group, or is dropped. One recorded late is delivered all the same, and counts
(R30). -/
def endReception (n id : Nat) (d : Bytes) (quality corr : Nat) (late : Bool) (t : Ns) (s : State) : State :=
  match (rxc? s n).bind (fun c => c.recs.find? (fun e => e.id == id)) with
  | none => s
  | some e =>
    let p := d.take e.len
    let s0 := withRecs n (fun l => l.filter (fun x => x.id != id)) s
    let s1 := if late then missRadio (rxFlowKey n) s0 else s0
    if (crc32 p).toNat = beAt d e.len 4 then releaseFrame n e quality corr t p (bumpSub .rxFrame n e.sf s1)
    else
      let s2 := bumpSub .rxCrcFail n e.sf s1
      if (pttTarget s2 n e).isSome || !e.old.errored then s2
      else deliverRadio n e false false false quality corr p s2

/-- The decoded header of a reception (R186, R194). -/
def headerStep (n id : Nat) (h : Bytes) (s : State) : State :=
  match (rxc? s n).bind (fun c => c.recs.find? (fun e => e.id == id && e.phase = .header)) with
  | none => s
  | some _ =>
    match headerVerdict h with
    | 0 =>
      withRecs n (fun l => l.map (fun e =>
        if e.id = id then
          { e with phase := .payload, len := byteAt h 0, cr := bits (byteAt h 1) 1 0, sec := bit (byteAt h 1) 2
                   ptt := bit (byteAt h 1) 3, stream := beAt h 2 2, header := h }
        else e)) s
    | 1 => abandon n id .headerCrc s
    | _ => abandon n id .headerBad s

/-! ### The FDC is fed (R147, R148, R158, R161, R171) -/

/-- The place of the oldest sample that a channel's blocks hold, and the place after the newest. -/
def Rxc.base (c : Rxc) : Nat := 256 * (c.blockN - c.blocks.length)
def Rxc.top (c : Rxc) : Nat := 256 * c.blockN

/-- Samples of a channel's blocks from a place on, where they are there. -/
def Rxc.samples (c : Rxc) (start len : Nat) : Option (List OutSample) :=
  if c.base ≤ start && start + len ≤ c.top then some (((c.blocks.reverse.flatMap (·.samples)).drop (start - c.base)).take len)
  else none

/-- The time-stamp of the sample at a place in 2^-16 ns: counted on from the stamp of its block, or of the newest one. -/
def Rxc.stampAt (c : Rxc) (place : Nat) : Int :=
  let k := min (place / 256) (c.blockN - 1)
  match c.blocks[c.blockN - 1 - k]? with
  | some b => b.stamp + 65536 * sampleNs c.p.bw * ((place : Int) - 256 * k)
  | none => 0

/-- A gain change that has reached the antenna time of an output sample: compensated, and marked in every reception that was
detected before it (R171, R175). -/
def Rxc.compensate (stamp : Int) (c : Rxc) : Rxc :=
  let due := c.comp.filter (fun e => e.1 ≤ stamp)
  { c with
    gain := due.foldl (fun g e => clampGain (g - e.2)) c.gain
    comp := c.comp.filter (fun e => stamp < e.1)
    recs := c.recs.map (fun r => { r with gainStep := r.gainStep || due.any (fun e => r.detectAt < e.1) }) }

/-- A sample joins the block being formed; a block of 256 leaves the FDC (R161). The newest 96 are kept. -/
def Rxc.join (stamp : Int) (o : OutSample) (c : Rxc) : Rxc :=
  let l := c.forming ++ [o]
  let at_ := if c.forming.isEmpty then stamp else c.formStamp
  if l.length < 256 then { c with forming := l, formStamp := at_ }
  else
    let b : RadioBlock := { stamp := at_, unsettled := (l.filter (·.unsettled)).length, samples := l }
    { c with forming := [], formStamp := at_, blocks := (b :: c.blocks).take 96, blockN := c.blockN + 1 }

/-- One sample at the output of the chain: gain, its mark, its block, and the gain loop's power (R158, R172). -/
def Rxc.output (stamp : Int) (x : Cx) (unsettled : Bool) (c : Rxc) : OutSample × Rxc :=
  let c1 := c.compensate stamp
  let y := gainStage c1.gain x
  let o : OutSample := { iq := y.1, unsettled := unsettled || decide (0 < c1.unsettled), sat := y.2 }
  (o, ({ c1 with unsettled := c1.unsettled - 1
                 recent := if o.unsettled || !c1.recs.isEmpty then c1.recent else (Cx.power o.iq :: c1.recent).take 64 } : Rxc).join stamp o)

/-- Link samples pass a channel's chain: the first of them stands at a position after T_L. The channel, and what came out, newest
first with time-stamps. -/
def Rxc.feed (d : LinkDate) (fs : Nat) (first : Nat) (unsettled : Bool) (l : List Cx) (c : Rxc) : Rxc × List (Int × OutSample) :=
  let origin : Int := (first : Int) - c.chain.fed
  l.foldl (fun (st : Rxc × List (Int × OutSample)) x =>
    let (y, ch) := st.1.chain.push x
    let c1 := { st.1 with chain := ch }
    match y with
    | none => (c1, st.2)
    | some v =>
      let p := ch.position
      let stamp := d.stamp fs c1.p.bw c1.p.preset (origin * p.2 + p.1) p.2
      let (o, c2) := c1.output stamp v unsettled
      (c2, (stamp, o) :: st.2)) (c, [])

/-- What comes out of a channel joins its capture (R343). -/
def Capture.take (l : List (Int × OutSample)) (k : Capture) : Capture :=
  match l with
  | [] => k
  | e :: _ => if k.ending then k else
      { k with stamp := if k.buf.isEmpty then e.1 else k.stamp, buf := (k.buf ++ l.map (·.2)).take k.left }

/-- Whether a channel hears an antenna. -/
def Rxc.hears (n a : Nat) (c : Rxc) : Bool := c.p.link == n && c.p.antenna == a

/-- An antenna's link samples reach the FDC: they pass the chain of every channel that hears it, and what comes out joins the channel's
capture. -/
def feedAntenna (n a first : Nat) (unsettled : Bool) (l : List Cx) (s : State) : State :=
  match linkDate? s n with
  | none => s
  | some d =>
    let fed := fun (c : Rxc) => c.feed d (fsHz s n) first unsettled l
    { s with
      rxcs := FMap.mapV s.rxcs (fun _ c => if c.hears n a then (fed c).1 else c)
      bce := { s.bce with captures := FMap.mapV s.bce.captures (fun k x =>
        match rxc? s k with
        | some c => if c.hears n a then x.take (fed c).2.reverse else x
        | none => x) } }

/-! ### Detection (R162 to R166) -/

/-- Present an event at the ordering point. -/
def presentRadio (e : RadioEvt) (s : State) : State := { s with radio := s.radio ++ [e] }

/-- Whether two bins agree within ±1, modulo 2^SF. -/
def binsAgree (sf a b : Nat) : Bool :=
  let m := 2 ^ sf
  let d := (a + m - b % m) % m
  d ≤ 1 || d = m - 1

/-- The samples of a window of one symbol at an SF. -/
def winLen (sf : Nat) : Nat := 2 ^ (sf + 1)

/-- The spans that triggers arm for `len` samples each, a trigger within a span extending it (R166); from triggers oldest first. -/
def spansOf (len : Nat) (l : List Nat) : List (Nat × Nat) :=
  (l.foldl (fun (acc : List (Nat × Nat)) a =>
    match acc with
    | (lo, hi) :: r => if a ≤ hi then (lo, a + len) :: r else (a, a + len) :: acc
    | [] => [(a, a + len)]) []).reverse

/-- Whether a channel's search runs at an SF for the window that begins at a place (R165, R166). -/
def Rxc.armed (c : Rxc) (sf start : Nat) : Bool :=
  !c.p.modeE || !c.recs.isEmpty ||
  (match c.trig with
   | some (l, _) => (spansOf (c.p.eq_ * winLen sf) l).any (fun e => e.1 ≤ start && start + winLen sf ≤ e.2)
   | none => false)

/-- The search at an SF; before the first window, or when blocks have been lost, it begins at the oldest sample held. -/
def runOf (c : Rxc) (sf : Nat) : HitRun :=
  let r := (c.runs.find? (fun r => r.sf == sf)).getD ⟨sf, 0, [], false⟩
  if r.next < c.base then ⟨sf, cdiv c.base (winLen sf) * winLen sf, [], false⟩ else r

/-- The power of samples: the sum of their squares. -/
def powerSum (l : List OutSample) : Nat := (l.map (fun o => Cx.power o.iq)).sum

/-- A run after the window that its search is at: a hit joins it; a window that is no hit, or a hit whose bin departs from the one
before, begins it anew (R162). -/
def runNext (c : Rxc) (data : Bool) (sf : Nat) (w : List OutSample) : HitRun :=
  let r := runOf c sf
  let l := searchBins sf false (w.map (·.iq))
  let next := r.next + winLen sf
  if !(data && w.all (fun o => !o.unsettled) && c.armed sf r.next && reaches (peakRatio l) c.p.pkThr) then ⟨sf, next, [], false⟩
  else
    let h : HitWin := ⟨peakOf l, peakRatio l, powerSum w, r.next⟩
    match r.wins with
    | [] => ⟨sf, next, [h], false⟩
    | v :: _ => if binsAgree sf v.bin h.bin then ⟨sf, next, (h :: r.wins).take 8, r.done⟩ else ⟨sf, next, [h], false⟩

/-- Whether a run's newest p_q windows qualify a preamble. -/
def HitRun.qualifies (r : HitRun) (pq : Nat) : Bool :=
  let l := r.wins.take pq
  !r.done && l.length = pq && l.all (fun a => l.all (fun b => binsAgree r.sf a.bin b.bin))

/-- The preamble that a run qualifies. -/
def HitRun.qualified (r : HitRun) (pq : Nat) : Qualified :=
  let l := r.wins.take pq
  { sf := r.sf, start := (l.getLast?.map (·.start)).getD 0, stop := r.next
    ratio := l.foldl (fun x h => ratioAdd x h.ratio) (0, 1), power := (l.map (·.power)).sum, len := pq * winLen r.sf
    bin := (l.headD ⟨0, (0, 1), 0, 0⟩).bin }

/-- The search of a channel takes its next window at an SF, where it has left the chain. -/
def searchSf (n : Nat) (sf : Nat) (s : State) : State :=
  match rxc? s n with
  | none => s
  | some c =>
    match (if 5 ≤ sf && sf ≤ 12 && c.p.sfMask.testBit (sf - 5) then c.samples (runOf c sf).next (winLen sf) else none) with
    | none => s
    | some w =>
      let r := runNext c (inData s c.p.link) sf w
      let q := r.qualifies c.p.pq
      let s1 := withRxc n (fun x =>
        { x with runs := x.runs.filter (fun k => k.sf != sf) ++ [{ r with done := r.done || q }]
                 trig := if q then x.trig.map (fun e => (e.1, true)) else x.trig }) s
      if q then presentRadio (.qualified n (r.qualified c.p.pq)) s1 else s1

/-! ### The windows of a reception (R164, R176, R177, R192, R193, R199) -/

/-- The phase that a reception's frozen offset has turned by at a place, in 2^-32 turns (R177): k_d / 2 bins of bw / 2^SF, at two
samples in a chip, from the first sample after the delimiter. -/
def Reception.ramp (e : Reception) (place : Nat) : BitVec 32 :=
  BitVec.ofInt 32 (e.kd * ((place : Int) - (e.dataAt : Int)) * 2 ^ (24 - e.sf))

/-- The re-modulated sample of a reception at a place (R199), 0 where no symbol of it is decided. -/
def Reception.remod (e : Reception) (place : Nat) : Cx :=
  match e.sent.find? (fun x => x.1 ≤ place && place < x.1 + winLen e.sf) with
  | some (p, c) =>
    Cx.mul (Config.remodulated e.eq_.peak e.eq_.ff e.eq_.fb) (Config.phasor (chirpPhase e.sf 2 c (place - p) + e.ramp place))
  | none => (0, 0)

/-- The stronger reception of an overlap, for the weaker one. -/
def Rxc.stronger (c : Rxc) (e : Reception) : Option Reception :=
  if e.weak then c.recs.find? (fun x => x.id != e.id && x.overlap && !x.weak) else none

/-- Whether a reception has taken every symbol of its frame (R164, R186). -/
def Reception.taken (e : Reception) : Bool :=
  e.phase = .over || (e.phase = .payload && headerSymbols e.sf + payloadSymbols e.sf e.cr e.len ≤ e.soft.length)

/-- The samples of a reception from a place on: the stronger one, whose symbols must have been decided that far, is subtracted from
the weaker one (R199). -/
def Rxc.window (c : Rxc) (e : Reception) (start len : Nat) : Option (List OutSample) :=
  match c.samples start len with
  | none => none
  | some l =>
    match c.stronger e with
    | none => some l
    | some x =>
      if x.next < start + len && !x.taken then none
      else some (l.zipIdx.map (fun o =>
        if e.subFrom ≤ start + o.2 then { o.1 with iq := Cx.sub o.1.iq (x.remod (start + o.2)) } else o.1))

/-- A window before the sync word (R164): a hit of the preamble goes on with it; the first two of the three windows after the last
hit must show a down-chirp, from which the offset is estimated (R176), and the third the mark chirp. A down-chirp shows where its
λ reaches pk_thr (log entry 110). -/
def preambleStep (c : Rxc) (gain : Int) (e : Reception) (seen misses : Nat) (w : List OutSample) : Reception × Option Abandon :=
  let iq := w.map (·.iq)
  let n := winLen e.sf
  let up := searchBins e.sf false iq
  let hit := w.all (fun o => !o.unsettled) && reaches (peakRatio up) e.old.pkThr && binsAgree e.sf (peakOf up) 0
  let e1 := { e with windows := e.windows + 1, next := e.next + n }
  if seen < 2 then
    if hit then
      if 1024 ≤ e1.windows then (e1, some .preambleLost)
      else
        let k := gainCoef (25 * (e.preGain - gain))
        ({ e1 with phase := .delimiter 0 0, preEnd := e1.next, preSum := e.preSum + powerSum w * k * k / 2 ^ 34, preN := e.preN + n
                   sent := e.sent ++ [(e.next, .up 0)]
                   eq_ := { e.eq_ with peak := dftLine (e.sf + 1) (dechirp e.sf 2 false iq) (peakOf up) } }, none)
    else
      let dn := searchBins e.sf true iq
      let shows := reaches (peakRatio dn) e.old.pkThr
      let m := misses + b2n (!shows)
      if seen = 1 && 0 < m then (e1, some .preambleLost)
      else ({ e1 with phase := .delimiter (seen + 1) m, kd := if shows then downPeak e.sf dn else e.kd
                      sent := e.sent ++ [(e.next, .down)] }, none)
  else if binsAgree e.sf (peakOf up) (2 ^ (e.sf - 1)) then
    let first := ((e1.next : Int) + Int.fdiv (e.kd + 32) 64).toNat
    ({ e1 with phase := .sync [], next := first, dataAt := first, rxTime := c.stampAt first
               freqHz := Int.fdiv (2 * e.kd * bwHz c.p.bw + 2 ^ (7 + e.sf)) (2 * 2 ^ (7 + e.sf))
               sent := e.sent ++ [(e.next, .up (2 ^ (e.sf - 1)))], eq_ := Equaliser.start e.eq_.peak n }, none)
  else (e1, some .preambleLost)

/-- A symbol after the delimiter, from a window with four samples on either side: the frozen offset is removed, the equaliser runs,
and its decision adapts it and may move the next window (R177, R192, R193). -/
def symbolStep (e : Reception) (w : List OutSample) : Reception × Option Abandon :=
  let iq := w.zipIdx.map (fun o => Cx.mul o.1.iq (Config.phasor (0 - e.ramp (e.next + o.2 - 4))))
  let lines := symbolLines e.eq_ e.sf iq
  let powers := lines.map Cx.power
  let peak := peakOf powers
  let step := 2 ^ (e.sf - 4)
  let nib := (peak + step / 2) / step % 16
  let shift := match e.phase with | .sync _ => nib * step | _ => peak
  let (move, q) := (e.eq_.after e.sf shift (lines.getD peak (0, 0)) iq).recentre
  let e1 := { e with next := ((e.next + winLen e.sf : Nat) + move : Int).toNat, eq_ := q, sent := e.sent ++ [(e.next, .up shift)]
                     sat := e.sat || w.any (·.sat) }
  match e.phase with
  | .sync l =>
    let l1 := l ++ [grayOf nib]
    if l1.length < 8 then ({ e1 with phase := .sync l1 }, none)
    else
      let v := BitVec.ofNat 32 (l1.foldl (fun a x => a * 16 + x) 0)
      let errs := ((List.range 32).filter (fun i => (v ^^^ e.old.sync).getLsbD i)).length
      if !e.old.modeE && e.old.swErrs < errs then (e1, some .syncMismatch)
      else ({ e1 with phase := .header, syncWord := v }, none)
  | _ => ({ e1 with soft := e.soft ++ [softBits e.sf e.soft.length powers] }, none)

/-- A reception takes its next window, where it has left the chain. -/
def Rxc.takeWindow (c : Rxc) (antGain : Int) (e : Reception) : Option (Reception × Option Abandon) :=
  if e.taken then none
  else
    match e.phase with
    | .delimiter seen misses => (c.window e e.next (winLen e.sf)).map (preambleStep c (c.gain + antGain) e seen misses)
    | _ => (c.window e (e.next - 4) (winLen e.sf + 8)).map (symbolStep e)

/-- A reception of a channel takes one window; the reason to abandon it is presented at the ordering point. -/
def stepReception (n id : Nat) (s : State) : State :=
  match rxc? s n with
  | none => s
  | some c =>
    match (c.recs.find? (fun e => e.id == id)).bind (c.takeWindow (antAt s c.p.link c.p.antenna).gain) with
    | none => s
    | some (e1, r) =>
      let e2 := if r.isSome then { e1 with phase := .over } else e1
      let s1 := withRxc n (fun d => { d with recs := d.recs.map (fun x =>
        if x.id = id then { e2 with sent := e2.sent.filter (fun y => c.base ≤ y.1 + winLen e2.sf) } else x) }) s
      match r with | some a => presentRadio (.lost n id a) s1 | none => s1

/-- The receptions of a channel take every window that has left the chain, the stronger one of an overlap first (R199). At most 96
blocks are held, so no more windows of 64 samples than these hold. -/
def stepReceptions (n : Nat) (s : State) : State :=
  (List.range 384).foldl (fun t _ =>
    match rxc? t n with
    | none => t
    | some c => ((c.recs.filter (fun e => !e.weak)) ++ (c.recs.filter (·.weak))).foldl (fun u e => stepReception n e.id u) t) s

/-! ### Second preambles and overlaps (R172, R191, R197 to R199) -/

/-- The level of a qualified preamble in 0.01 dB (R196, R198): its power with the channel gain and the analogue gain removed. -/
def levelOf (s : State) (c : Rxc) (q : Qualified) : Int :=
  meanDb q.power q.len - 25 * (c.gain + (antAt s c.p.link c.p.antenna).gain)

/-- Overlap instances in use (R191). -/
def poolUsed (s : State) : Nat := (s.rxcs.map (fun e => (e.2.recs.filter (·.onPool)).length)).sum

/-- The final step of the channel gain at a detection (R172), to the nearest 0.25 dB. -/
def finalStep (g : Int) (q : Qualified) : Int := clampGain (g + Int.fdiv (-1500 - meanDb q.power q.len + 12) 25)

/-- The place where a reception's windows begin: after the shift that puts the up-chirp's peak at bin 0 (R164). -/
def shifted (q : Qualified) : Nat := q.stop + 2 * ((2 ^ q.sf - q.bin) % 2 ^ q.sf)

/-- The preamble chirps of a qualified preamble from its first qualifying window on, on the shifted grid. -/
def preambleSent (q : Qualified) : List (Nat × Chirp) :=
  ((List.range 10).reverse.map (fun j => shifted q - (j + 1) * winLen q.sf)).filterMap (fun p =>
    if q.start < p + winLen q.sf && p + winLen q.sf ≤ shifted q then some (p, .up 0) else none)

/-- A newcomer becomes a reception; `step` is the final step of the channel gain (R172, R174), which an overlap does not take. The
preamble's SNR is a free value (log entry 22). -/
def beginReception (n : Nat) (q : Qualified) (overlap weak onPool step : Bool) (s : State) : State :=
  match rxc? s n with
  | none => s
  | some c =>
    let d := drawNat s
    let e : Reception :=
      { id := c.nextId, sf := q.sf, phase := .delimiter 0 0, next := shifted q, windows := 0, preEnd := q.stop
        detectAt := c.stampAt (q.stop - 1), preSum := q.power, preN := q.len
        preGain := c.gain + (antAt s c.p.link c.p.antenna).gain, snr := sint 16 d.1, kd := 0, freqHz := 0, eq_ := Equaliser.none
        sent := preambleSent q, soft := [], syncWord := 0, len := 0, cr := 0, sec := false, ptt := false, stream := 0, header := []
        overlap, weak, onPool, subFrom := q.start, gainStep := false, sat := false, rxTime := 0, dataAt := 0, old := c.p }
    withRecs n (fun l => l ++ [e]) (withRxc n (fun x =>
      { x with nextId := x.nextId + 1, gain := if step then finalStep c.gain q else c.gain, recent := [] }) d.2)

/-- An overlap under RECOVER (R199): the stronger runs on the overlap instance, and is subtracted from the newcomer's first
qualifying window on. -/
def recover (n : Nat) (q : Qualified) (cur : Reception) (level : Int) (s : State) : State :=
  let stronger := cur.levelDb < level
  let s1 := beginReception n q true (!stronger) stronger false
    (bump .ovlRecover n (withRecs n (fun l => l.map (fun e =>
      if e.id = cur.id then { e with overlap := true, weak := stronger, onPool := !stronger, subFrom := q.start } else e)) s))
  keepHigh .overlapHigh (poolUsed s1) s1

/-- A preamble has qualified (R172, R197, R198). -/
def preambleQualified (n : Nat) (q : Qualified) (s : State) : State :=
  match rxc? s n with
  | none => s
  | some c =>
    match c.recs with
    | [] => beginReception n q false false false true s
    | [cur] =>
      if q.sf = cur.sf && q.start < cur.preEnd then s
      else if cur.phase ≠ .payload then
        beginReception n q false false false true (abandon n cur.id .falsePreamble s)
      else
        let level := levelOf s c q
        match cur.old.capture with
        | 1 => bump .ovlIgnored n s
        | 2 =>
          if cur.levelDb + 25 * cur.old.margin ≤ level then
            beginReception n q false false false true (abandon n cur.id .switch s)
          else bump .ovlIgnored n s
        | _ => if poolUsed s < 128 then recover n q cur level s else bump .ovlNoinst n s
    | _ => bump .ovlThird n s

/-! ### The fast gain loop (R169 to R171) -/

/-- A gain write begins, unless the entry does not change (R170). -/
def writeGain (n a entry : Nat) (s : State) : State :=
  let x := antAt s n a
  match x.table.bind (fun g => g.entries[entry]?) with
  | none => s
  | some w =>
    if entry = x.entry then s
    else
      bump .rlGainWr (2 * n + a) (spiSend n (spiWordBits s n) w.2.toNat
        (withAnt n a (fun y => { y with writing := some ⟨entry, w.1 - x.gain, none⟩ }) s))

/-- The highest entry whose gain is at most a value, or entry 0. -/
def entryAtMost (x : Antenna) (v : Int) : Nat :=
  match x.table with
  | none => 0
  | some g => (g.entries.zipIdx.foldl (fun (b : Nat) e => if e.1.1 ≤ v then e.2 else b) 0)

/-- The peak of a window in 0.01 dBFS, rounded down. -/
def peakDb (peak : Nat) : Int := if peak = 0 then -12000 else centiDb (peak * peak) (32768 * 32768)

/-- The decision of a window in AUTO (R170): the first row of the table that applies. -/
def autoGain (n a peak : Nat) (clipped unsettled : Bool) (s : State) : State :=
  let r := 2 * n + a
  let x := antAt s n a
  let hi : Int := -100 * (fld s .rlAgc r 4 1 : Nat)
  let lo : Int := -100 * (fld s .rlAgc r 10 5 : Nat)
  let down := fun (t : State) => writeGain n a (entryAtMost x (x.gain - 4 * (fld s .rlAgc r 15 11 : Nat))) t
  let quiet := withAnt n a (fun y => { y with lowRun := 0 }) s
  if x.writing.isSome || unsettled then quiet
  else if x.frozen then
    if clipped && x.lastClip then bump .rlOvlStep r (down quiet) else quiet
  else if hi ≤ peakDb peak || clipped then down quiet
  else if peakDb peak < lo then
    if fld s .rlAgc r 27 20 ≤ x.lowRun + 1 then
      let e := entryAtMost x (x.gain + 4 * (fld s .rlAgc r 19 16 : Nat))
      if x.entry < e then writeGain n a e quiet else quiet
    else withAnt n a (fun y => { y with lowRun := y.lowRun + 1 }) s
  else quiet

/-- The decision of a window in MANUAL: an entry that RL_GAIN_SET named is written. -/
def manualGain (n a : Nat) (s : State) : State :=
  let x := antAt s n a
  match x.manual, x.writing with
  | some e, none => writeGain n a e (withAnt n a (fun y => { y with manual := none }) s)
  | _, _ => s

/-- A gain write whose new gain has reached the FDC by now is over (R170, R171). -/
def settleGain (n a : Nat) (s : State) : State :=
  match (antAt s n a).writing with
  | some ⟨e, _, some t⟩ => if t ≤ now s then withAnt n a (fun y => { y with entry := e, writing := none }) s else s
  | _ => s

/-- The decision of a window of an antenna (R170), as frozen as the detections of its round leave it (R175). -/
def gainDecision (n a peak : Nat) (clipped unsettled : Bool) (s : State) : State :=
  let s1 := settleGain n a s
  let s2 := if flag s1 .rlAgc (2 * n + a) 0 then manualGain n a s1 else autoGain n a peak clipped unsettled s1
  withAnt n a (fun y => { y with lastClip := clipped }) s2

/-! ### The ordering point (R175, R191, R194, R197, R200) -/

/-- The receptions of a channel that are the weaker of a pair. -/
def isWeak (s : State) (n id : Nat) : Bool := (rxc? s n).any (fun c => c.recs.any (fun e => e.id == id && e.weak))

/-- The qualification that becomes the detection of a channel, the one with the higher mean λ; the others are discarded without a
count (R191). -/
def detection (n : Nat) (l : List Qualified) (s : State) : State :=
  match l with
  | [] => s
  | q :: r =>
    let b := r.foldl (fun b x => if ratioLess b.ratio x.ratio then x else b) q
    preambleQualified n b (bumpSub .detQual n b.sf s)

/-- An arbitration round takes what radio commands have presented: header results first (R197), then abandonments and ends of
frame, the stronger of a pair first (R200), which wait for their cells (R20), then detections, and then the decisions of gain windows, after which the SPI's slot
comes (R150, R175). -/
def radioRound (s : State) : State :=
  let ev := s.radio
  let s1 := ev.foldl (fun t e => match e with | .header n i d => headerStep n i d t | _ => t) { s with radio := [] }
  let s2 := ev.foldl (fun t e => match e with | .lost n i w => abandon n i w t | _ => t) s1
  let ends := fun (weak : Bool) (t : State) =>
    ev.foldl (fun u e => match e with
      | .frameEnd n i d quality corr late at_ => if isWeak s2 n i ≠ weak then u
        else if (choosePool u 2 1 (cellsOf (32 + d.length)) false).isNone then presentRadio e u
        else endReception n i d quality corr late at_ u
      | _ => u) t
  let s3 := ends true (ends false s2)
  let s4 := (FMap.keys s.rxcs).foldl (fun t n =>
    detection n (ev.filterMap (fun e => match e with | .qualified m q => if m = n then some q else none | _ => none)) t) s3
  let s5 := ev.foldl (fun t e => match e with
    | .window n a peak clipped unsettled => if inData t n then gainDecision n a peak clipped unsettled t else t
    | _ => t) s4
  (List.range 8).foldl (fun t n =>
    if ev.any (fun e => match e with | .window m _ _ _ _ => m == n | _ => false) then spiSlot n t else t) s5

end Sys2Proof.Machine
end

