-- ==== Sys2Proof/Machine/TdmOps.lean ====
section
/-! DEFINITION. Operations of the TDM ports: modes and timeslots, who holds a timeslot, idle bytes, and the tone
outputs of teleprotection sinks (R131, R345 to R347). -/

namespace Sys2Proof.Machine

open Sys2Proof

/-! ### Ports and timeslots -/

/-- A framer that has no alignment yet, and one that has sent nothing (log entry 113). -/
def RxFramer.initial : RxFramer :=
  { fas := none, errs := [], seen := [], first := none, place := none, cas := none, acc := none, want := none, got := 0, blocks := 0
    bad := 0, abcd := [], start := 0 }
def TxFramer.initial : TxFramer := { place := 0, acc := 0, check := 0, fdl := 0, err1 := false, err2 := false }

/-- A frame of the line, in ns. -/
def frameNs : Int := 125000

/-- A port before anything has happened to it; its slip buffers start at one frame (R350). -/
def TdmPort.fresh : TdmPort :=
  { los := false, ais := false, lof := false, lomf := false, rai := false, crc4Off := false, saRx := 0, rx := RxFramer.initial
    tx := TxFramer.initial, rxDelay := frameNs, txDelay := frameNs, rxStart := none, slipAt := none, txAbcd := [], txAbcdNext := []
    rxAbcd := [], candAbcd := [], rxSlots := [], rxFifo := [], txFifo := [], txPay := [], txOut := [], txBit := none, lastAlarm := 0
    alarmSince := none, crcSecond := none }

/-- The live state of a port, and a change to it. -/
def tdmPort (s : State) (t : Nat) : TdmPort := FMap.getD s.tdm t TdmPort.fresh
def withTdm (t : Nat) (f : TdmPort → TdmPort) (s : State) : State := { s with tdm := FMap.set s.tdm t (f (tdmPort s t)) }

/-- Settings of a port (R359). -/
def isE1 (s : State) (t : Nat) : Bool := tdmMode s t = 2
def isT1 (s : State) (t : Nat) : Bool := tdmMode s t = 3
def framed (s : State) (t : Nat) : Bool := isE1 s t || isT1 s t
def e1Cas (s : State) (t : Nat) : Bool := isE1 s t && flag s .tdmFramerCfg t 3
def t1Rbs (s : State) (t : Nat) : Bool := isT1 s t && flag s .tdmFramerCfg t 5
def t1Esf (s : State) (t : Nat) : Bool := flag s .tdmFramerCfg t 4

/-- The idle byte of a port: 0xD5 for A-law, 0xFF for µ-law (R347). -/
def idleByte (s : State) (t : Nat) : Byte := if flag s .tdmPortCfg t 8 then 0xFF else 0xD5

/-- Timeslots of a port's frame (R345). -/
def slotCount (s : State) (t : Nat) : Nat :=
  match tdmMode s t with
  | 1 => 32 * 2 ^ fld s .tdmPortCfg t 3 2
  | 2 => 32
  | 3 => 24
  | _ => 0

/-- Whether channels may use a timeslot (R345). -/
def slotAvail (s : State) (t slot : Nat) : Bool :=
  slot < slotCount s t && (!isE1 s t || (slot ≠ 0 && !(e1Cas s t && slot = 16)))

/-- Whether a group is aligned, lies in available timeslots and suits the port (R346). -/
def groupFits (s : State) (t first law : Nat) : Bool :=
  let n := groupSlots law
  t < 192 && tdmMode s t ≠ 0 && first % n = 0 && (List.range n).all (fun i => slotAvail s t (first + i)) &&
  !(n ≠ 1 && t1Rbs s t)

/-- Whether two groups meet. -/
def groupsMeet (t first n u first2 m : Nat) : Bool := t = u && first < first2 + m && first2 < first + n

/-- The groups that voice channels and teleprotection channels hold: owner (a voice channel, or 65 536 and the
teleprotection channel), port, first timeslot, number of timeslots. -/
def heldGroups (s : State) : List (Nat × Nat × Nat × Nat) :=
  s.chans.map (fun e => (e.1, e.2.p.port, e.2.p.slot, groupSlots e.2.p.lineMode)) ++
  s.tps.flatMap (fun e =>
    (if e.2.p.src = 1 then [(65536 + e.1, e.2.p.srcPort, e.2.p.srcSlot, groupSlots e.2.p.srcLaw)] else []) ++
    (if e.2.p.sink = 1 then [(65536 + e.1, e.2.p.sinkPort, e.2.p.sinkSlot, groupSlots e.2.p.sinkLaw)] else []))

/-- Whether a group is free for an owner (R49, R115). -/
def groupFree (s : State) (owner t first law : Nat) : Bool :=
  !(heldGroups s).any (fun g => g.1 != owner && groupsMeet t first (groupSlots law) g.2.1 g.2.2.1 g.2.2.2)

/-- Whether a channel holds a timeslot of a port, and whether one holds this timeslot. -/
def tdmInUse (s : State) (t : Nat) : Bool := (heldGroups s).any (fun g => g.2.1 == t)
def slotHeld (s : State) (t slot : Nat) : Bool :=
  (heldGroups s).any (fun g => g.2.1 == t && decide (g.2.2.1 ≤ slot) && decide (slot < g.2.2.1 + g.2.2.2))

/-- What a TDM sink sends (R131, R133): the tones in 0.01 Hz with their level in 0.01 dBm0, or nothing where it is silent. -/
def sinkTones (x : Tp) : List (Nat × Int) :=
  let cmds := (List.range 4).filter (fun i => x.sinkCmd.getLsbD i)
  if cmds.isEmpty then (if x.linkFail then [] else [(100 * x.p.guardHz, 50 * x.p.guardLvl)])
  else cmds.map (fun i => (100 * x.p.cmdHz.getD i 0, 50 * x.p.cmdLvl))

/-- The timeslot octets that a TDM sink sends in one frame, and where its tones stand afterwards (R117, R131). -/
def sinkFrame (x : Tp) : Bytes × List Nat :=
  let tones := sinkTones x
  let khz := lawKhz x.p.sinkLaw
  let r := tonesFrom tones (turnOf khz) (khz / 8) (followOn x.sinkPhase tones.length)
  (lineOctets x.p.sinkLaw r.1, r.2)

/-- Whether a channel's sink sends on a port. -/
def Tp.sinksOn (x : Tp) (t : Nat) : Bool := x.p.sink = 1 && x.p.sinkPort = t

/-- The octet of a timeslot that a teleprotection sink sends in the present frame, if one does. -/
def toneOctet (s : State) (t slot : Nat) : Option Byte :=
  s.tps.findSome? (fun e =>
    if e.2.sinksOn t && decide (e.2.p.sinkSlot ≤ slot) then (sinkFrame e.2).1[slot - e.2.p.sinkSlot]? else none)

/-- A port has taken a frame of its sinks' tones. -/
def tonesSent (t : Nat) (s : State) : State :=
  { s with tps := FMap.mapV s.tps (fun _ x => if x.sinksOn t then { x with sinkPhase := (sinkFrame x).2 } else x) }

/-- Octets enter a port's crossing FIFO for a timeslot. -/
def pushSlot (t slot : Nat) (d : Bytes) (s : State) : State :=
  withTdm t (fun p => { p with txFifo := FMap.set p.txFifo slot (FMap.getD p.txFifo slot [] ++ d) }) s

/-- The receive alarms that stop delivery (R355). -/
def TdmPort.failed (p : TdmPort) : Bool := p.los || p.ais || p.lof

/-- Whether any alarm holds. -/
def TdmPort.alarmed (p : TdmPort) : Bool := p.failed || p.lomf || p.rai

end Sys2Proof.Machine
end

