-- ==== Sys2Proof/Machine/Rtp.lean ====
section
/-! DEFINITION. RTP contexts: SRTP, packets sent, the checks of received packets, the jitter buffer, late-frame repair,
drift and RTCP (R81 to R111). -/

namespace Sys2Proof.Machine

open Sys2Proof

/-! ### Contexts and their channels -/

/-- The context of a number. -/
def rtp? (s : State) (c : Nat) : Option Rtp := FMap.get? s.rtps c

/-- Change a context, if it is set up. -/
def withRtp (c : Nat) (f : Rtp → Rtp) (s : State) : State := { s with rtps := FMap.adj s.rtps c f }

/-- Change a channel, if it is established. -/
def withChan (c : Nat) (f : Chan → Chan) (s : State) : State := { s with chans := FMap.adj s.chans c f }

/-- The channel that names a context (R87): a context is in use only while one does. -/
def chanOf (s : State) (c : Nat) : Option (Nat × Chan) :=
  s.chans.find? (fun e => e.2.p.pktMode == 0 && e.2.p.pktRef == c)

/-- The CMD ring whose EVT ring takes a context's events. -/
def rtpRing (s : State) (c : Nat) : Option Nat := (rtp? s c).map (·.ring)

/-- Body of an event of a context: it carries the context and channel numbers (R111); the spec gives no layout (log entry
18). -/
def rtpBody (code c : Nat) (s : State) : Bytes :=
  let ch : Int := match chanOf s c with | some (n, _) => n | none => 0xFFFF
  padTo 48 (Config.eventBody code [(c : Int), ch])

/-- Raise an event of a context that no frame carries. -/
def rtpEvent (code c : Nat) (s : State) : State := raise code (rtpRing s c) (rtpBody code c s) s

/-- An event of the packet path passes the channel's ordered flow: it reaches the host with the channel's next frame (R111). -/
def flowEvent (code c : Nat) (s : State) : State :=
  match chanOf s c with
  | none => rtpEvent code c s
  | some (n, _) => withChan n (fun ch => { ch with events := ch.events ++ [(code, rtpBody code c s)] }) s

/-- A threshold of a context is crossed (R99, R104, R107): the body of R409, and after it the context and channel numbers of
R111, whose place the spec does not give (log entry 18). -/
def rtpCrossed (code c reason : Nat) (value : Int) (live : Bool) (s : State) : State :=
  crossing code c false reason value ((noticeBody c reason value).take 16 ++ (rtpBody code c s).take 32) (rtpRing s c) live s

/-- Ticks of a 10 ms frame (R36). -/
def frameTicks (s : State) : Nat := 10000000 / tickNs s

/-- The due tick of a frame of a channel. -/
def Chan.dueOf (ch : Chan) (s : State) (k : Nat) : Nat := ch.due0 + k * frameTicks s

/-- Timestamp units of 10 ms of a channel's audio clock (R89). -/
def audioUnits (codec : Nat) : Nat := if codec = 5 then 480 else 80

/-- The codec in use with parameters: in voiceband-data mode G.711 of the line's law where the codec is another (R66). -/
def ChanParams.codecIn (p : ChanParams) (vbd : Bool) : Nat := if vbd && 1 < p.codec then (if p.lineMode = 1 then 1 else 0) else p.codec

/-- The codec of a channel as it stands. -/
def Chan.codecNow (ch : Chan) : Nat := ch.p.codecIn ch.vbd

/-- The first frame of a channel whose playout has not been decided (R97). -/
def Chan.openFrame (ch : Chan) : Nat :=
  match ch.begun.getLast? with
  | some f => if f.decided then ch.frame else f.num
  | none => ch.frame

/-! ### SRTP (R105 to R107) -/

/-- Session keys of RFC 3711 with a key derivation rate of 0: cipher key, authentication key, salt; the SRTCP ones have
labels 3 to 5. -/
def SrtpKey.cipher (k : SrtpKey) (rtcp : Bool) : Bytes := srtpDerive k.key k.salt (if rtcp then 3 else 0) 16
def SrtpKey.auth (k : SrtpKey) (rtcp : Bool) : Bytes := srtpDerive k.key k.salt (if rtcp then 4 else 1) 20
def SrtpKey.saltKey (k : SrtpKey) (rtcp : Bool) : Bytes := srtpDerive k.key k.salt (if rtcp then 5 else 2) 14

/-- The 80-bit tag over a message. -/
def SrtpKey.tag (k : SrtpKey) (rtcp : Bool) (m : Bytes) : Bytes := (hmacSha1 (k.auth rtcp) m).take 10

/-- Protect an RTP packet: header of `hl` octets, packet index. -/
def srtpProtect (k : SrtpKey) (hl ssrc index : Nat) (pkt : Bytes) : Bytes :=
  let body := pkt.take hl ++ srtpCrypt (k.cipher false) (k.saltKey false) ssrc index (pkt.drop hl)
  body ++ k.tag false (body ++ toBE 4 (index / 65536))

/-- The packet index that a sequence number most likely has (RFC 3711 Appendix A): the roll-over counter less or plus one is
modulo 2^32. -/
def estimateIndex (k : SrtpKey) (seq : Nat) : Nat :=
  let sl := k.high % 65536
  let roc := k.roc
  if k.used = 0 then roc * 65536 + seq
  else if sl < 32768 then (if 32768 < (seq : Int) - sl then (roc + 2 ^ 32 - 1) % 2 ^ 32 * 65536 + seq else roc * 65536 + seq)
  else if (seq : Int) < (sl : Int) - 32768 then (roc + 1) % 2 ^ 32 * 65536 + seq else roc * 65536 + seq

/-- Whether an index is a replay: within 128 of the highest and seen, or older (R105). -/
def replayed (used high : Nat) (seen : List Nat) (i : Nat) : Bool :=
  used ≠ 0 && (i + 128 ≤ high || seen.contains i)

/-- The replay window after an index was accepted. -/
def sawIndex (high : Nat) (seen : List Nat) (i : Nat) : Nat × List Nat :=
  let h := max high i
  (h, (i :: seen).filter (fun j => h < j + 128))

/-- Octets of the fixed header, the CSRC list and the extension of an RTP packet, `none` where they do not fit. -/
def rtpHeadLen (d : Bytes) : Option Nat :=
  let cc := byteAt d 0 % 16
  let n := 12 + 4 * cc
  if d.length < 12 || d.length < n then none
  else if bit (byteAt d 0) 4 then
    if d.length < n + 4 then none
    else
      let e := n + 4 + 4 * beAt d (n + 2) 2
      if d.length < e then none else some e
  else some n

/-- Whether a key may still be used: 2^48 packets stop its direction (R107). -/
def SrtpKey.live (k : SrtpKey) : Bool := k.used < 2 ^ 48

/-- Authenticate and decrypt a protected RTP packet under a key: its index and the plain packet. -/
def srtpOpen (k : SrtpKey) (d : Bytes) : Option (Nat × Bytes) :=
  if d.length < 22 || !k.live then none
  else
    let body := d.take (d.length - 10)
    let i := estimateIndex k (beAt d 2 2)
    if k.tag false (body ++ toBE 4 (i / 65536)) ≠ d.drop (d.length - 10) then none
    else
      let hl := (rtpHeadLen body).getD body.length
      some (i, body.take hl ++ srtpCrypt (k.cipher false) (k.saltKey false) (beAt d 8 4) i (body.drop hl))

/-- Authenticate and decrypt a protected RTCP packet under a key: its index and the plain packet. -/
def srtcpOpen (k : SrtpKey) (d : Bytes) : Option (Nat × Bytes) :=
  if d.length < 22 || !k.live then none
  else
    let body := d.take (d.length - 10)
    let word := beAt body (body.length - 4) 4
    let i := word % 2 ^ 31
    if k.tag true body ≠ d.drop (d.length - 10) then none
    else
      let inner := body.take (body.length - 4)
      some (i, if 2 ^ 31 ≤ word then inner.take 8 ++ srtpCrypt (k.cipher true) (k.saltKey true) (beAt d 4 4) i (inner.drop 8)
               else inner)

/-- A receive key after an RTP packet of an index was accepted: roll-over counter, window and count follow. -/
def SrtpKey.accept (k : SrtpKey) (i : Nat) : SrtpKey :=
  let (h, l) := sawIndex k.high k.seen i
  { k with high := h, seen := l, used := k.used + 1, roc := if k.used = 0 then i / 65536 else max k.roc (i / 65536) }

/-- SRTP_KEY_AGE at 2^47 packets under one key (R107); direction 0 transmit, 1 receive. -/
def keyAge (c dir used : Nat) (s : State) : State :=
  if used = 2 ^ 47 then rtpCrossed Ev.srtpKeyAge c dir used false s else s

/-! ### Sending (R89, R105) -/

/-- Send a UDP payload of a context: the datagram, the packet and the frame, on the context's port or its pair. -/
def rtpEmit (p : RtpParams) (sport dport : Nat) (payload : Bytes) (s : State) : State :=
  let src := addrOf p.ipv6 p.localAddr
  let dst := addrOf p.ipv6 p.remoteAddr
  let ip := ipPacket p.ipv6 src dst p.dscp p.hopLimit (udpDatagram p.ipv6 src dst sport dport payload)
  let tag := if p.vlanEn then some ⟨p.pcp, p.vlanId⟩ else none
  portSend p.ethPort (classFor p.tc) (ethFrame p.nextHop (macOf s p.ethPort) tag (ipType p.ipv6) ip) s

/-- The transmit key for a sequence number: a pending key takes over at its packet, and the old one is erased (R107). Without
an active key nothing is sent (R106). -/
def txKeyFor (x : Rtp) : Option SrtpKey × Bool :=
  match x.txKey, x.txNext with
  | some _, some k => if k.atSeq.isNone || k.atSeq = some x.txSeq then (some k, true) else (x.txKey, false)
  | a, _ => (a, false)

/-- The packet index of a transmit key at a sequence number: the roll-over counter rises as the number wraps. -/
def txIndex (k : SrtpKey) (seq : BitVec 16) : Nat :=
  let roc := if k.used ≠ 0 && seq = 0 then k.roc + 1 else k.roc
  roc * 65536 + seq.toNat

/-- Send one RTP packet: payload type, marker, timestamp, payload (R89). A context with srtp set sends nothing until its
key is loaded, and such a packet takes no number (R106). -/
def rtpSend (c pt : Nat) (marker : Bool) (ts : BitVec 32) (payload : Bytes) (s : State) : State :=
  match rtp? s c with
  | none => s
  | some x =>
    let m := marker || !x.sentAny
    let plain := toBE 1 0x80 ++ toBE 1 (128 * b2n m + pt) ++ toBE 2 x.txSeq.toNat ++ toBE 4 ts.toNat ++
      toBE 4 x.p.txSsrc.toNat ++ payload
    let counted := fun (y : Rtp) =>
      { y with txSeq := y.txSeq + 1, sentAny := true
               rtcp := { y.rtcp with sent := y.rtcp.sent + 1, octets := y.rtcp.octets + payload.length } }
    if x.p.srtp then
      match txKeyFor x with
      | (none, _) => s
      | (some k, switched) =>
        if !k.live then s
        else
          let i := txIndex k x.txSeq
          let k1 := { k with used := k.used + 1, roc := i / 65536, atSeq := none }
          let s1 := withRtp c (fun y =>
            counted { y with txKey := some k1, txNext := if switched then none else y.txNext }) s
          let s2 := if switched then flowEvent Ev.srtpKeySwitch c s1 else s1
          keyAge c 0 k1.used
            (rtpEmit x.p x.p.localPort x.p.remotePort (srtpProtect k 12 x.p.txSsrc.toNat i plain) s2)
    else rtpEmit x.p x.p.localPort x.p.remotePort plain (withRtp c counted s)

/-! ### RTCP (R108, R109) -/

/-- Device time as a 64-bit NTP value: seconds and fraction. -/
def ntpNow (s : State) : Nat := devTime s / 1000000000 * 2 ^ 32 + devTime s % 1000000000 * 2 ^ 32 / 1000000000

/-- Octets of an RTCP packet: version 2, a count, a type and the length in words less one. -/
def rtcpPacket (count pt : Nat) (body : Bytes) : Bytes :=
  toBE 1 (128 + count) ++ toBE 1 pt ++ toBE 2 (body.length / 4) ++ body

/-- The loss figures of RFC 3550 A.3: fraction lost since the last report, cumulative lost as 24 bits, the extended highest
sequence number, and the packets expected so far. -/
structure Loss where
  fraction : Nat
  lost     : Nat
  high     : Nat
  expected : Nat
  deriving DecidableEq, Repr

/-- The loss figures of a context now; all 0 before the first packet. -/
def lossOf (x : Rtp) : Loss :=
  match x.highSeq with
  | none => ⟨0, 0, 0, 0⟩
  | some h =>
    let r := x.rtcp
    let expected := h + 1 - r.baseSeq
    let lost : Int := (expected : Int) - (r.received : Int)
    let expInt := expected - r.expectedPrior
    let lostInt : Int := (expInt : Int) - ((r.received - r.receivedPrior : Nat) : Int)
    let fraction := if expInt = 0 || lostInt ≤ 0 then 0 else min 255 (lostInt.toNat * 256 / expInt)
    ⟨fraction, enc 24 (clampI (-8388608) 8388607 lost), (h - 65536) % 2 ^ 32, expected⟩

/-- The report block of RFC 3550 Appendix A on the remote source, and the session after it. -/
def reportBlock (x : Rtp) (s : State) : Bytes × Rtcp :=
  match x.remote, x.highSeq with
  | some ssrc, some _ =>
    let r := x.rtcp
    let l := lossOf x
    let dlsr := if r.lsr = 0 then 0 else (now s - r.lsrAt) * 65536 / 1000000000
    (toBE 4 ssrc.toNat ++ toBE 1 l.fraction ++ toBE 3 l.lost ++ toBE 4 l.high ++ toBE 4 (r.jitter / 16) ++ toBE 4 r.lsr.toNat ++
       toBE 4 dlsr,
     { r with expectedPrior := l.expected, receivedPrior := r.received })
  | _, _ => ([], x.rtcp)

/-- The SDES packet with the CNAME. -/
def sdesPacket (x : Rtp) : Bytes :=
  let chunk := toBE 4 x.p.txSsrc.toNat ++ toBE 1 1 ++ toBE 1 x.p.cname.length ++ x.p.cname ++ zeros 1
  rtcpPacket 1 202 (chunk ++ zeros ((4 - chunk.length % 4) % 4))

/-- The compound packet of R108: an SR, or an RR while nothing has been sent, an SDES, and a BYE where asked. -/
def compound (x : Rtp) (bye : Bool) (s : State) : Bytes × Rtcp :=
  let (blocks, r) := reportBlock x s
  let n := if blocks.isEmpty then 0 else 1
  let ssrc := toBE 4 x.p.txSsrc.toNat
  let head :=
    if x.rtcp.sent = 0 then rtcpPacket n 201 (ssrc ++ blocks)
    else rtcpPacket n 200 (ssrc ++ toBE 8 (ntpNow s) ++ toBE 4 x.txTs.toNat ++ toBE 4 (x.rtcp.sent % 2 ^ 32) ++
      toBE 4 (x.rtcp.octets % 2 ^ 32) ++ blocks)
  (head ++ sdesPacket x ++ (if bye then rtcpPacket 1 203 ssrc else []), r)

/-- Send a compound RTCP packet of a context, protected where srtp is set. -/
def rtcpSend (c : Nat) (bye : Bool) (s : State) : State :=
  match rtp? s c with
  | none => s
  | some x =>
    let (pkt, r) := compound x bye s
    let sport := if x.p.rtcpMux then x.p.localPort else x.p.localPort + 1
    let dport := if x.p.rtcpMux then x.p.remotePort else x.p.remoteRtcp
    if x.p.srtp then
      match x.txKey with
      | none => s
      | some k =>
        if !k.live then s
        else
        let i := k.cIndex
        let body := pkt.take 8 ++ srtpCrypt (k.cipher true) (k.saltKey true) x.p.txSsrc.toNat i (pkt.drop 8) ++
          toBE 4 (2 ^ 31 + i)
        rtpEmit x.p sport dport (body ++ k.tag true body)
          (withRtp c (fun y => { y with rtcp := r, txKey := some { k with cIndex := (i + 1) % 2 ^ 31 } }) s)
    else rtpEmit x.p sport dport pkt (withRtp c (fun y => { y with rtcp := r }) s)

/-- Schedule the next report: uniform between 0.5 and 1.5 times the interval (R108); the draw is free. -/
def rtcpSchedule (c : Nat) (s : State) : State :=
  match rtp? s c with
  | none => s
  | some x =>
    let d := drawNat s
    let iv := x.p.rtcpInterval * 1000000000
    withRtp c (fun y => { y with rtcp := { y.rtcp with nextAt := now s + iv / 2 + d.1 % (iv + 1) } }) d.2

/-- RTCP_REPORT_TIMER (R108). -/
def execRtcpReportTimer (context : Nat) (t : Ns) (s : State) : Answer :=
  let s1 := advance t s
  let due := match rtp? s1 context with | some x => x.rtcp.nextAt ≤ t && (chanOf s1 context).isSome | none => false
  .next (onlyIf (alive s1 && due) (rtcpSchedule context (rtcpSend context false s1)) s1)

/-- One packet of a compound: type, count and octets, the header included. -/
def rtcpParts (fuel : Nat) (d : Bytes) : List (Nat × Nat × Bytes) :=
  match fuel with
  | 0 => []
  | n + 1 =>
    if d.length < 4 then []
    else
      let len := 4 * (beAt d 2 2 + 1)
      if d.length < len || byteAt d 0 / 64 ≠ 2 then []
      else (byteAt d 1, byteAt d 0 % 32, d.take len) :: rtcpParts n (d.drop len)

/-- A report block: on tx_ssrc it updates the round-trip time from LSR and DLSR; on another source it counts. -/
def rtcpBlock (c : Nat) (b : Bytes) (s : State) : State :=
  match rtp? s c with
  | none => s
  | some x =>
    if b.length = 24 && beAt b 0 4 = x.p.txSsrc.toNat then
      let lsr := beAt b 16 4
      if lsr = 0 then s
      else
        let mid := ntpNow s / 65536 % 2 ^ 32
        withRtp c (fun y => { y with rtcp := { y.rtcp with rtt := (BitVec.ofNat 32 mid - BitVec.ofNat 32 lsr -
          BitVec.ofNat 32 (beAt b 20 4)).toNat } }) s
    else bump .rtcpOther c s

/-- One packet of a received compound (R109). -/
def rtcpPart (c : Nat) (e : Nat × Nat × Bytes) (s : State) : State :=
  match rtp? s c with
  | none => s
  | some x =>
    let ssrc := BitVec.ofNat 32 (beAt e.2.2 4 4)
    match e.1 with
    | 200 =>
      let s1 := if x.remote = some ssrc then
          withRtp c (fun y => { y with rtcp := { y.rtcp with lsr := BitVec.ofNat 32 (beAt e.2.2 10 4), lsrAt := now s } }) s
        else s
      (List.range e.2.1).foldl (fun t i => rtcpBlock c (sub e.2.2 (28 + 24 * i) 24) t) s1
    | 201 => (List.range e.2.1).foldl (fun t i => rtcpBlock c (sub e.2.2 (8 + 24 * i) 24) t) s
    | 203 =>
      if (List.range e.2.1).any (fun i => x.remote = some (BitVec.ofNat 32 (beAt e.2.2 (4 + 4 * i) 4))) then
        rtpEvent Ev.rtcpBye c s
      else bump .rtcpOther c s
    | _ => bump .rtcpOther c s

/-- Whether a packet passes check 1 of R87. -/
def srcOk (p : RtpParams) (src : Bytes) (sport dport : Nat) : Bool :=
  !p.srcCheck || (src = addrOf p.ipv6 p.remoteAddr && sport = dport)

/-- Checks 2 and 3 of R87 on a protected RTCP packet (R107, R109): the receive key after it, whether the pending key was
promoted, and the plain packet, or the counter of the check that failed. -/
def openRtcp (x : Rtp) (d : Bytes) : Except Ctr (SrtpKey × Bool × Bytes) :=
  let saw := fun (k : SrtpKey) (i : Nat) =>
    let w := sawIndex k.cHigh k.cSeen i
    { k with cHigh := w.1, cSeen := w.2 }
  match x.rxKey.bind (fun k => (srtcpOpen k d).map (fun o => (k, o))) with
  | some (k, i, pkt) => if replayed (b2n (!k.cSeen.isEmpty)) k.cHigh k.cSeen i then .error .srtpReplay else .ok (saw k i, false, pkt)
  | none =>
    match x.rxKey, x.rxNext.bind (fun k => (srtcpOpen k d).map (fun o => (k, o))) with
    | some _, some (k, i, pkt) => .ok (saw k i, true, pkt)
    | _, _ => .error .srtpAuth

/-- A received RTCP packet of a context (R109). -/
def rtcpReceive (c : Nat) (src : Bytes) (sport : Nat) (d : Bytes) (s : State) : State :=
  match rtp? s c with
  | none => s
  | some x =>
    let run := fun (pkt : Bytes) (t : State) => (rtcpParts 64 pkt).foldl (fun u e => rtcpPart c e u) t
    if !srcOk x.p src sport (if x.p.rtcpMux then x.p.remotePort else x.p.remoteRtcp) then bump .rtpSrc c s
    else if (chanOf s c).isNone then bump .rtpNochan c s
    else if !x.p.srtp then run d s
    else
      match openRtcp x d with
      | .error k => bump k c s
      | .ok (k, promoted, pkt) =>
        let s1 := withRtp c (fun y => { y with rxKey := some k, rxNext := if promoted then none else y.rxNext }) s
        run pkt (if promoted then rtpEvent Ev.srtpKeySwitch c s1 else s1)

/-- RTCP_RX (R109). -/
def execRtcpRx (context : Nat) (src : Bytes) (srcPort : Nat) (udp : Bytes) (t : Ns) (s : State) : Answer :=
  let s1 := advance t s
  .next (onlyIf (alive s1) (rtcpReceive context src srcPort udp s1) s1)

/-! ### Payload lengths (R90) -/

/-- Duration of the frames of an Opus packet in 0.1 ms, by the configuration of its TOC octet (RFC 6716 clause 3.1). -/
def opusFrame (toc : Nat) : Nat :=
  let c := toc / 8
  if c < 12 then [100, 200, 400, 600].getD (c % 4) 0
  else if c < 16 then [100, 200].getD (c % 2) 0
  else [25, 50, 100, 200].getD (c % 4) 0

/-- A frame length of one or two octets (RFC 6716 clause 3.2.1): value and octets read. -/
def opusLen (d : Bytes) : Option (Nat × Nat) :=
  match d with
  | [] => none
  | a :: r =>
    if a.toNat < 252 then some (a.toNat, 1)
    else match r with
      | [] => none
      | b :: _ => some (4 * b.toNat + a.toNat, 2)

/-- Padding octets of a code 3 packet: octets of the length itself and of padding. -/
def opusPad (fuel : Nat) (d : Bytes) : Option (Nat × Nat) :=
  match fuel, d with
  | n + 1, a :: r =>
    if a.toNat = 255 then (opusPad n r).map (fun e => (e.1 + 1, e.2 + 254)) else some (1, a.toNat)
  | _, _ => none

/-- Whether `n` lengths of a VBR code 3 packet fit the data, the last frame taking the rest. -/
def opusVbr (n : Nat) (d : Bytes) (used : Nat) : Bool :=
  match n with
  | 0 => used ≤ d.length && d.length - used ≤ 1275
  | k + 1 =>
    match opusLen d with
    | none => false
    | some (v, o) => opusVbr k (d.drop o) (used + v)

/-- Number of frames of a well-formed Opus packet (RFC 6716 clause 3), `none` where it is malformed. -/
def opusFrames (d : Bytes) : Option Nat :=
  match d with
  | [] => none
  | toc :: r =>
    match toc.toNat % 4 with
    | 0 => if r.length ≤ 1275 then some 1 else none
    | 1 => if r.length % 2 = 0 && r.length ≤ 2550 then some 2 else none
    | 2 => if opusVbr 1 r 0 then some 2 else none
    | _ =>
      match r with
      | [] => none
      | fc :: q =>
        let m := fc.toNat % 64
        let pad := if bit fc.toNat 6 then opusPad q.length q else some (0, 0)
        match pad with
        | none => none
        | some (lo, po) =>
          let body := q.drop lo
          if m = 0 || 1200 < m * opusFrame toc.toNat || body.length < po then none
          else
            let frames := body.take (body.length - po)
            if bit fc.toNat 7 then (if opusVbr (m - 1) frames 0 then some m else none)
            else if frames.length % m = 0 && frames.length ≤ 1275 * m then some m else none

/-- Frames of 10 ms in an accepted payload of audio, in half frames of 5 ms rounded up to whole jitter-buffer frames;
`none` where R90 refuses the length. -/
def audioFrames (codec g726Rate : Nat) (d : Bytes) : Option Nat :=
  let halves := fun (unit n : Nat) => if n % unit = 0 && 1 ≤ n / unit && n / unit ≤ 24 then some (cdiv (n / unit) 2) else none
  match codec with
  | 0 | 1 => halves 40 d.length
  | 2 => halves (10 + 5 * g726Rate) d.length
  | 3 =>
    if d.length % 10 = 0 && 1 ≤ d.length / 10 && d.length / 10 ≤ 12 then some (d.length / 10)
    else if d.length % 10 = 2 && d.length / 10 ≤ 11 then some (d.length / 10 + 1)
    else none
  | 4 => if d.length % 80 = 0 && 1 ≤ d.length / 80 && d.length / 80 ≤ 12 then some (d.length / 80) else none
  | _ =>
    match opusFrames d with
    | some m => if m * opusFrame (byteAt d 0) ≤ 1200 then some (cdiv (m * opusFrame (byteAt d 0)) 100) else none
    | none => none

/-- What a payload is once checks 6 and 7 of R87 have passed. -/
inductive Payload where
  | audio (frames : Nat) (noise : Bool) | events
  deriving DecidableEq, Repr

/-- Whether an audio payload ends in comfort noise: a G.729 SID frame, or an Opus packet of at most two octets, which DTX
sends (RFC 6716; log entry 77). -/
def sidLast (codec : Nat) (d : Bytes) : Bool := (codec = 3 && d.length % 10 = 2) || (codec = 5 && d.length ≤ 2)

/-- The frames of a payload that are audio: those before a SID frame, none of comfort noise. -/
def audioOf (codec frames : Nat) (noise : Bool) : Nat := if !noise then frames else if codec = 3 then frames - 1 else 0

/-- Checks 6 and 7 of R87: the counter of the first that fails. -/
def payloadOf (x : Rtp) (ch : Chan) (pt : Nat) (d : Bytes) : Except Ctr Payload :=
  let len := fun (o : Option Payload) => match o with | some p => .ok p | none => .error .rtpBadLen
  if pt = x.p.audioPt then
    len ((audioFrames ch.codecNow ch.p.g726Rate d).map (fun n => .audio n (sidLast ch.codecNow d)))
  else if pt = ch.p.tePt then
    len (if d.length % 4 = 0 && 4 ≤ d.length && d.length ≤ 64 then some .events else none)
  else if pt = x.p.cnPt && !x.p.cnOff then
    len (if 1 ≤ d.length && d.length ≤ 11 then some (.audio 1 true) else none)
  else if ch.vbd && pt = ch.p.vbdPt then len ((audioFrames 0 0 d).map (fun n => .audio n false))
  else .error .rtpBadPt

/-! ### The jitter buffer (R92 to R96) -/

/-- The 97th percentile of a list of numbers by nearest rank (R94). -/
def percentile97 (l : List Int) : Int :=
  let sorted := sortNums l
  sorted.getD (cdiv (97 * l.length) 100 - 1) 0

/-- The target delay in ms (R94); `frames` is the packet period. -/
def targetDelay (x : Rtp) (frames tickNs : Nat) : Nat :=
  if x.measured < 16 then clampN x.p.jbMin x.p.jbMax x.p.jbNom
  else
    let least := x.delays.foldl min (x.delays.headD 0)
    let rel := percentile97 (x.delays.map (fun d => d - least))
    let ns := rel.toNat * tickNs + frames * 10000000
    clampN x.p.jbMin x.p.jbMax (cdiv ns 10000000 * 10)

/-- Everything that ends with a stream: buffer, anchor, measures and open windows (R96, R102); pending late packets count
late. The figures of RFC 3550 start anew (A.1); the drift correction in use stays until the next estimate (DESIGN CHOICE, log entry 99). -/
def restartStream (c : Nat) (s : State) : State :=
  match rtp? s c with
  | none => s
  | some x =>
    let late := (x.repairs.filter (fun r => r.stage != 0)).length
    bumpN .rtpLate c 0 late (withRtp c (fun y =>
      { y with jb := [], anchor := none, noiseEnd := false, noisePlayed := false, played := none, delays := [], measured := 0
               repairs := [], recent := [], evSeqs := [], highSeq := none, restart := none, driftAt := now s + 10000000000
               delaySum := 0, delayNum := 0, prevMean := none, raw := 0, excess := 0
               rtcp := { y.rtcp with received := 0, expectedPrior := 0, receivedPrior := 0 } }) s)

/-- Close every open window (R102). -/
def closeWindows (c : Nat) (s : State) : State :=
  match rtp? s c with
  | none => s
  | some x =>
    bumpN .rtpLate c 0 (x.repairs.filter (fun r => r.stage != 0)).length (withRtp c (fun y => { y with repairs := [] }) s)

/-- Extend a sequence number against the highest one (R96). The first one starts at 65 536. -/
def extendSeq (high : Option Nat) (seq : BitVec 16) : Nat :=
  match high with
  | none => 65536 + seq.toNat
  | some h => ((h : Int) + (seq - BitVec.ofNat 16 h).toInt).toNat

/-- Count a restart candidate that did not restart the stream (R96). -/
def dropCandidate (c : Nat) (s : State) : State :=
  match (rtp? s c).bind (·.restart) with
  | none => s
  | some (_, behind) => bump (if behind then .rtpStale else .rtpJump) c (withRtp c (fun y => { y with restart := none }) s)

/-- Interarrival jitter of RFC 3550 A.8 with one more packet; `clock` is timestamp units per second. -/
def jitterStep (r : Rtcp) (arrival : Int) (ts : BitVec 32) : Rtcp :=
  let transit := arrival - (ts.toNat : Int)
  let d : Nat := match r.lastTransit with
    | none => 0
    | some l => ((BitVec.ofInt 32 (transit - l)).toInt).natAbs
  { r with lastTransit := some transit, jitter := ((r.jitter : Int) + d - ((r.jitter + 8) / 16 : Nat)).toNat }

/-- The frame that a timestamp falls on, counted from the anchor: that in which the 10 ms it begins lie (DESIGN CHOICE, log entry 99). -/
def frameOf (a : BitVec 32 × Nat) (ts : BitVec 32) (units : Nat) : Int :=
  (a.2 : Int) + Int.fdiv (ts - a.1).toInt units

/-- The tick that a timestamp implies, counted from the anchor (R94). -/
def impliedTick (s : State) (ch : Chan) (a : BitVec 32 × Nat) (ts : BitVec 32) (units : Nat) : Int :=
  (ch.due0 : Int) + a.2 * (frameTicks s : Int) + Int.fdiv ((ts - a.1).toInt * (frameTicks s : Int)) units

/-- The first frame whose boundary lies at or after a tick. -/
def frameAtOrAfter (s : State) (ch : Chan) (tick : Nat) : Nat := cdiv (tick - ch.due0) (frameTicks s)

/-- Put a packet into the buffer in the order of the sequence numbers. -/
def insPacket (p : JbPacket) (l : List JbPacket) : List JbPacket :=
  match l with
  | [] => [p]
  | q :: r => if p.seq < q.seq then p :: q :: r else q :: insPacket p r

/-- An accepted audio or comfort-noise packet enters the jitter buffer; one whose first frame has been decided is late, and
waits for its rebuild where its window allows one (R92, R94, R97, R101). -/
def bufferPacket (c : Nat) (ch : Chan) (ext : Nat) (ts : BitVec 32) (marker : Bool) (frames : Nat) (noise : Bool)
    (d : Bytes) (s : State) : State :=
  match rtp? s c with
  | none => s
  | some x =>
    let units := audioUnits ch.codecNow
    let audio := audioOf ch.codecNow frames noise
    let newest : Bool := x.highSeq = some ext
    let start := x.anchor.isNone || marker || (x.noiseEnd && newest && audio ≠ 0)
    let target := targetDelay x frames (tickNs s)
    let due := max ch.openFrame (frameAtOrAfter s ch (s.clk.tick + cdiv (target * 1000000) (tickNs s)))
    let a := if start then (ts, due) else x.anchor.getD (ts, due)
    let k := frameOf a ts units
    let rel : Int := (s.clk.tick : Int) - impliedTick s ch a ts units
    let y := { x with anchor := some a, noiseEnd := if newest then noise else x.noiseEnd, delay := if start then target else x.delay
                      lastMove := if start then s.clk.tick else x.lastMove
                      delays := if audio = 0 then x.delays else (rel :: x.delays).take 256
                      measured := if audio = 0 then x.measured else x.measured + 1
                      recent := ext :: x.recent }
    if (ch.openFrame : Int) ≤ k then
      let pkt : JbPacket := { seq := ext, ts, frame := k.toNat, frames, audio, at_ := now s, data := d }
      withRtp c (fun _ => { y with jb := insPacket pkt y.jb, repairs := y.repairs.filter (fun r => r.seq != ext) }) s
    else
      match x.repairs.find? (fun r => r.seq == ext && r.stage == 0) with
      | some r =>
        if r.w = 0 then
          bump .rtpLate c (withRtp c (fun _ => { y with repairs := x.repairs.filter (fun r => r.seq != ext) }) s)
        else
          withRtp c (fun _ =>
            { y with repairs := x.repairs.map (fun r => if r.seq = ext then { r with stage := 1, data := d, frames } else r) }) s
      | none => bump .rtpLate c (withRtp c (fun _ => y) s)

/-- Whether an extended number repeats one held, played or counted late, within 16 of the highest (R97). -/
def isDuplicate (x : Rtp) (ext : Nat) : Bool :=
  x.recent.contains ext && (match x.highSeq with | some h => h ≤ ext + 16 | none => false)

/-- Body of the tone event of a received telephone event (R76, R91): its level is −2 × volume in 0.5 dB units. -/
def heardBody (n : Nat) (r : Regen) (duration : Nat) (s : State) : Bytes :=
  padTo 48 (toLE 2 n ++ toLE 1 r.digit ++ toLE 1 1 ++ toLE 8 ((r.start : Int) + s.clk.offset).toNat ++ toLE 4 duration ++
    toLE 1 (enc 8 (-(2 * r.volume : Nat))) ++ toLE 1 0 ++ zeros 2)

/-- Report a received telephone event with the channel's next frame, where tone_events is set (R76, R91). -/
def heardEvent (code n : Nat) (r : Regen) (duration : Nat) (s : State) : State :=
  withChan n (fun c => if c.p.toneEvents then { c with events := c.events ++ [(code, heardBody n r duration s)] } else c) s

/-- One block of a telephone-event payload (R91): a first one begins the event and reports it; an update lengthens it; an end
packet reports its end. What repeats an event that has ended, or does not lengthen it, is discarded. -/
def telephoneBlock (n : Nat) (ts : BitVec 32) (b : Bytes) (s : State) : State :=
  match FMap.get? s.chans n with
  | none => s
  | some ch =>
    let digit := byteAt b 0
    let ended := bit (byteAt b 1) 7
    let dur := beAt b 2 2
    let stopAt := now s + 3 * ch.p.ptime * 10000000
    let is := fun (r : Regen) => r.ts == ts && r.digit == digit
    let close := fun (r : Regen) (t : State) => if ended then heardEvent Ev.toneOff n r dur t else t
    let more := fun (r : Regen) => { r with duration := dur, until_ := stopAt, ended }
    let old := fun (r : Regen) => r.ended || (dur ≤ r.duration && !ended)
    match ch.regen.filter is, ch.heard.find? is with
    | some r, _ => if old r then s else close r (withChan n (fun c => { c with regen := some (more r) }) s)
    | none, some r =>
      if old r then s
      else close r (withChan n (fun c => { c with heard := c.heard.map (fun q => if is q then more q else q) }) s)
    | none, none =>
      let r : Regen := { ts, digit, volume := byteAt b 1 % 64, start := now s, duration := dur, until_ := stopAt, ended }
      let s1 := withChan n (fun c =>
        { c with regen := some r, heard := ((match c.regen with | some q => [q] | none => []) ++ c.heard).take 16 }) s
      close r (heardEvent Ev.toneOn n r 0 s1)

/-- A received telephone-event payload (R91): its blocks of four octets in turn, each beginning where the one before it ends
(RFC 4733 clause 2.5.1.5; log entry 77). -/
def telephoneEvent (n : Nat) (ts : BitVec 32) (d : Bytes) (s : State) : State :=
  ((chunksOf 4 d).foldl (fun (a : BitVec 32 × State) b =>
    (a.1 + BitVec.ofNat 32 (beAt b 2 2), telephoneBlock n a.1 b a.2)) (ts, s)).2

/-- A packet has been accepted: silence ends, the highest number and the RTCP figures follow. -/
def acceptRtp (c ext : Nat) (ts : BitVec 32) (clock : Nat) (s : State) : State :=
  noticeLive Ev.rxTimeout c false none true (withRtp c (fun y =>
    { y with lastRx := now s, timedOut := false, highSeq := some (max ext (y.highSeq.getD 0)), restart := none
             recent := y.recent.filter (fun e => max ext (y.highSeq.getD 0) ≤ e + 16)
             evSeqs := y.evSeqs.filter (fun e => max ext (y.highSeq.getD 0) ≤ e + 64)
             rtcp := jitterStep { y.rtcp with received := y.rtcp.received + 1
                                              baseSeq := if y.highSeq.isNone then ext else y.rtcp.baseSeq }
               ((now s * clock / 1000000000 : Nat) : Int) ts }) s)

/-- A packet that has passed checks 1 to 7: its sequence number (R96, R97) and what becomes of it. A duplicate counts among
the packets received (RFC 3550 A.1) but ends no silence (DESIGN CHOICE, log entry 99). -/
def sequenceRtp (c n : Nat) (ch : Chan) (seq : BitVec 16) (ts : BitVec 32) (marker : Bool) (p : Payload) (d : Bytes)
    (s : State) : State :=
  match rtp? s c with
  | none => s
  | some x =>
    let clock := if ch.codecNow = 5 then 48000 else 8000
    let go := fun (ext : Nat) (mk : Bool) (t : State) =>
      let t1 := acceptRtp c ext ts clock t
      match p with
      | .audio f noise => bufferPacket c ch ext ts mk f noise d t1
      | .events =>
        telephoneEvent n ts d (withRtp c (fun y =>
          { y with recent := ext :: y.recent, evSeqs := ext :: y.evSeqs, repairs := y.repairs.filter (fun r => r.seq != ext) }) t1)
    match x.highSeq with
    | none => go (extendSeq none seq) marker s
    | some h =>
      let diff := (seq - BitVec.ofNat 16 h).toInt
      if diff < -16 || 3000 < diff then
        match x.restart with
        | some (q, _) =>
          if seq = q + 1 then go (extendSeq none seq) true (flowEvent Ev.rxResync c (restartStream c s))
          else withRtp c (fun y => { y with restart := some (seq, diff < 0) }) (dropCandidate c s)
        | none => withRtp c (fun y => { y with restart := some (seq, diff < 0) }) s
      else
        let s1 := dropCandidate c s
        let ext := extendSeq (some h) seq
        if isDuplicate x ext then
          bump .rtpDup c (withRtp c (fun y => { y with rtcp := { y.rtcp with received := y.rtcp.received + 1 } }) s1)
        else go ext marker s1

/-- Check 5 of R87 (R88): the state after it, and whether the packet goes on. A new source raises SSRC_CHANGE and no RX_RESYNC
(DESIGN CHOICE, log entry 99). -/
def ssrcCheck (c : Nat) (x : Rtp) (ssrc : BitVec 32) (seq : BitVec 16) (s : State) : Bool × State :=
  if x.p.ssrcFixed then
    if ssrc = x.p.rxSsrc then (true, withRtp c (fun y => { y with remote := some ssrc }) s) else (false, bump .rtpSsrc c s)
  else
    match x.remote with
    | none => (true, withRtp c (fun y => { y with remote := some ssrc }) s)
    | some r =>
      if ssrc = r then (true, withRtp c (fun y => { y with cand := none }) s)
      else if !x.p.ssrcFollow then (false, bump .rtpSsrc c s)
      else
        let n := match x.cand with | some (q, l, k) => if q = ssrc && seq = l + 1 then k + 1 else 1 | none => 1
        if n = 3 then
          (true, flowEvent Ev.ssrcChange c
            (withRtp c (fun y => { y with remote := some ssrc, cand := none, rtcp := { y.rtcp with received := 0, expectedPrior := 0, receivedPrior := 0, lastTransit := none, jitter := 0, lsr := 0 } })
              (restartStream c (dropCandidate c s))))
        else (false, bump .rtpSsrc c (withRtp c (fun y => { y with cand := some (ssrc, seq, n) }) s))

/-- Checks 4 to 8 of R87 on a plain packet. -/
def plainRtp (c n : Nat) (ch : Chan) (d : Bytes) (s : State) : State :=
  match rtp? s c, rtpHeadLen d with
  | some x, some hl =>
    let pad := if bit (byteAt d 0) 5 then byteAt d (d.length - 1) else 0
    if byteAt d 0 / 64 ≠ 2 || (bit (byteAt d 0) 5 && (pad = 0 || d.length < hl + pad)) then bump .rtpHdr c s
    else
      let seq := BitVec.ofNat 16 (beAt d 2 2)
      let (ok, s1) := ssrcCheck c x (BitVec.ofNat 32 (beAt d 8 4)) seq s
      if !ok then s1
      else
        let payload := (d.take (d.length - pad)).drop hl
        match payloadOf x ch (byteAt d 1 % 128) payload with
        | .error k => bump k c s1
        | .ok p => sequenceRtp c n ch seq (BitVec.ofNat 32 (beAt d 4 4)) (bit (byteAt d 1) 7) p payload s1
  | some _, none => bump .rtpHdr c s
  | none, _ => s

/-- Checks 2 and 3 of R87 on a protected packet: the receive keys after it, whether the pending key was promoted, and
the plain packet, or the counter of the check that failed. -/
def openRtp (x : Rtp) (d : Bytes) : Except Ctr (SrtpKey × Bool × Bytes) :=
  match x.rxKey.bind (fun k => (srtpOpen k d).map (fun o => (k, o))) with
  | some (k, i, pkt) => if replayed k.used k.high k.seen i then .error .srtpReplay else .ok (k.accept i, false, pkt)
  | none =>
    match x.rxKey, x.rxNext.bind (fun k => (srtpOpen k d).map (fun o => (k, o))) with
    | some _, some (k, i, pkt) => .ok (k.accept i, true, pkt)
    | _, _ => .error .srtpAuth

/-- A matched RTP packet (R87). -/
def rtpReceive (c : Nat) (src : Bytes) (sport : Nat) (d : Bytes) (s : State) : State :=
  match rtp? s c with
  | none => s
  | some x =>
    if !srcOk x.p src sport x.p.remotePort then bump .rtpSrc c s
    else
      match chanOf s c with
      | none => bump .rtpNochan c s
      | some (n, ch) =>
        if !x.p.srtp then plainRtp c n ch d s
        else
          match openRtp x d with
          | .error k => bump k c s
          | .ok (k, promoted, pkt) =>
            let s1 := withRtp c (fun y => { y with rxKey := some k, rxNext := if promoted then none else y.rxNext }) s
            let s2 := if promoted then flowEvent Ev.srtpKeySwitch c s1 else s1
            plainRtp c n ch pkt (keyAge c 1 k.used s2)

/-- RTP_RX_PACKET (R87). -/
def execRtpRxPacket (context : Nat) (src : Bytes) (srcPort : Nat) (udp : Bytes) (t : Ns) (s : State) : Answer :=
  let s1 := advance t s
  .next (onlyIf (alive s1) (rtpReceive context src srcPort udp s1) s1)

/-! ### Silence and drift (R99, R103) -/

/-- RX_TIMEOUT_EXPIRY (R99). -/
def execRxTimeoutExpiry (context : Nat) (t : Ns) (s : State) : Answer :=
  let s1 := advance t s
  let due := match rtp? s1 context with
    | some x => x.p.rxTimeout ≠ 0 && !x.timedOut && x.lastRx + x.p.rxTimeout * 100000000 ≤ t && (chanOf s1 context).isSome
    | none => false
  let ms : Int := match rtp? s1 context with | some x => ((t - x.lastRx) / 1000000 : Nat) | none => 0
  .next (onlyIf (alive s1 && due)
    (rtpCrossed Ev.rxTimeout context 0 ms false
      (withRtp context (fun x => { x with timedOut := true }) s1)) s1)

/-- The mean buffer delay since the last estimate in ns (R103): the time from a frame's arrival to the dispatch of its DECODE.
Where nothing was played it is the mean before (log entry 30). -/
def meanDelay (x : Rtp) : Int := if x.delayNum = 0 then x.prevMean.getD 0 else ((x.delaySum / x.delayNum : Nat) : Int)

/-- One drift estimate (R103, R104), in units of 0.01 ppm: the change of the mean delay over 10 s, smoothed with weight
1/4; the correction is 0 within 2 ppm and limited to 300 ppm. -/
def driftStep (c : Nat) (t : Ns) (s : State) : State :=
  match rtp? s c with
  | none => s
  | some x =>
    let mean := meanDelay x
    let x1 := { x with prevMean := some mean, driftAt := t + 10000000000, delaySum := 0, delayNum := 0 }
    match x.prevMean with
    | none => withRtp c (fun _ => x1) s
    | some m =>
      let raw := Int.tdiv (mean - m) 100
      let sm := x.raw + Int.tdiv (raw - x.raw) 4
      let beyond := 30000 < raw.natAbs
      let excess := if beyond then x.excess + 1 else 0
      let s1 := withRtp c (fun _ =>
        { x1 with raw := sm, eps := if 200 < sm.natAbs then clampI (-30000) 30000 sm else 0, excess }) s
      if excess = 3 then rtpCrossed Ev.driftLimit c 0 raw false s1
      else noticeLive Ev.driftLimit c false (some raw) (!beyond) s1

/-- DRIFT_ESTIMATE (R103), for a context and the channel that it serves. -/
def execDriftEstimate (context : Nat) (channel : Nat) (t : Ns) (s : State) : Answer :=
  let s1 := advance t s
  let due := match rtp? s1 context with
    | some x => x.driftAt ≤ t && (chanOf s1 context).any (fun e => e.1 == channel)
    | none => false
  .next (onlyIf (alive s1 && due) (driftStep context t s1) s1)

/-! ### RTP_SETUP, RTP_MODIFY, RTP_RELEASE, SRTP_KEY (R83, R84, R106) -/

/-- Whether two contexts share a classification key (R85): that of RTP or of RTCP. -/
def sameKey (p q : RtpParams) : Bool :=
  let ports := fun (r : RtpParams) => if r.rtcpMux then [r.localPort] else [r.localPort, r.localPort + 1]
  p.ipv6 = q.ipv6 && addrOf p.ipv6 p.localAddr = addrOf q.ipv6 q.localAddr && p.vlanEn = q.vlanEn &&
    (!p.vlanEn || p.vlanId = q.vlanId) && (ports p).any (fun k => (ports q).contains k)

/-- Whether the payload types of a context and its channel are distinct (R83). -/
def typesOk (s : State) (p : RtpParams) : Bool :=
  let l := [p.audioPt, p.cnPt] ++ (match chanOf s p.context with | some (_, ch) => [ch.p.tePt, ch.p.vbdPt] | none => [])
  l.Nodup

/-- Whether a context's key meets that of a teleprotection channel over UDP (R85, R115). -/
def keyMeetsTp (p : RtpParams) (q : TpParams) : Bool :=
  q.transport ≠ 0 && p.ipv6 = (q.transport = 2 : Bool) && addrOf p.ipv6 p.localAddr = addrOf p.ipv6 q.localAddr &&
    (q.localPort = p.localPort || (!p.rtcpMux && q.localPort = p.localPort + 1))

/-- The checks that RTP_SETUP and RTP_MODIFY share. -/
def rtpParamsOk (s : State) (b : Bytes) : Bool :=
  let p := rtpParams b
  rtpBlockOk b && typesOk s p && !s.rtps.any (fun e => e.1 != p.context && sameKey e.2.p p)

/-- RTP_SETUP's own check. -/
def rtpSetupStatus (s : State) (b : Bytes) : Nat :=
  if rtpParamsOk s b && (rtp? s (rtpParams b).context).isNone then St.ok else St.badParam

/-- A context as RTP_SETUP leaves it. -/
def Rtp.fresh (p : RtpParams) (ring : Nat) (t : Ns) : Rtp :=
  { p, ring, txSeq := p.txSeqInit, txTs := p.txTsInit, evTs := p.txTsInit, sentAny := false, remote := none, cand := none
    highSeq := none, restart := none, recent := [], evSeqs := [], jb := [], anchor := none, noiseEnd := false, noisePlayed := false
    played := none, delays := []
    measured := 0, delay := p.jbNom, lastMove := 0, repairs := [], lastRx := t, timedOut := false
    driftAt := t + 10000000000, delaySum := 0, delayNum := 0, prevMean := none, raw := 0, eps := 0, excess := 0, txKey := none
    txNext := none, rxKey := none, rxNext := none
    rtcp := { nextAt := t, sent := 0, octets := 0, received := 0, baseSeq := 0, expectedPrior := 0, receivedPrior := 0
              jitter := 0, lastTransit := none, rtt := 0, lsr := 0, lsrAt := 0 } }

/-- Set a context up. -/
def setupRtp (ring : Nat) (b : Bytes) (s : State) : State :=
  let p := rtpParams b
  rtcpSchedule p.context { s with rtps := FMap.set s.rtps p.context (Rtp.fresh p ring (now s)) }

/-- RTP_SETUP (R83). -/
def execRtpSetup (h : CmdHdr) (s : State) : Answer :=
  .next (runCmd (blockCmd 0x0111 2 128 true) h
    (fun s1 => checked (rtpSetupStatus s1 (blk h)) (setupRtp h.ring (blk h) s1) s1) s)

/-- RTP_MODIFY's own check (R84). -/
def rtpModifyStatus (s : State) (b : Bytes) : Nat :=
  let p := rtpParams b
  match rtp? s p.context with
  | none => St.badParam
  | some x =>
    let q := x.p
    if rtpParamsOk s b && p.ethPort = q.ethPort && p.ipv6 = q.ipv6 && p.localAddr = q.localAddr &&
        p.localPort = q.localPort && p.vlanEn = q.vlanEn && p.vlanId = q.vlanId &&
        (p.srtp = q.srtp || (chanOf s p.context).isNone) then St.ok
    else St.badParam

/-- Take on new parameters (R84): a BYE goes out for an old SSRC, the silence count restarts, and the delay is brought
within new bounds by the moves of R95. The table of R84 does not name rtcp_mux, audio_pt, cn_pt, cn_off, tx_seq_init and
tx_ts_init: the first four apply at once, and the two first values, already used, have no effect (DESIGN CHOICE, log entry 99). -/
def modifyRtp (b : Bytes) (s : State) : State :=
  let p := rtpParams b
  match rtp? s p.context with
  | none => s
  | some x =>
    let s1 := if x.p.txSsrc ≠ p.txSsrc && (chanOf s p.context).isSome then rtcpSend p.context true s else s
    withRtp p.context (fun y =>
      { y with p, lastRx := if x.p.rxTimeout ≠ p.rxTimeout then now s else y.lastRx
               timedOut := if x.p.rxTimeout ≠ p.rxTimeout then false else y.timedOut }) s1

/-- RTP_MODIFY (R84). -/
def execRtpModify (h : CmdHdr) (s : State) : Answer :=
  .next (runCmd (blockCmd 0x0112 2 128 true) h (fun s1 => checked (rtpModifyStatus s1 (blk h)) (modifyRtp (blk h) s1) s1) s)

/-- RTP_RELEASE's own check: not while a channel names the context (R83). -/
def rtpReleaseStatus (s : State) (c : Nat) : Nat :=
  if (rtp? s c).isSome && (chanOf s c).isNone then St.ok else St.badParam

/-- The counters a context keeps (R111). -/
def rtpCtrs : List Ctr :=
  [.rtpSrc, .srtpAuth, .srtpReplay, .rtpHdr, .rtpSsrc, .rtpBadPt, .rtpBadLen, .rtpNochan, .rtpStale, .rtpJump, .rtpRepaired,
   .rtpLate, .rtpDup, .rtpLost, .fecRecover, .rtcpOther]

/-- Release a context: its keys are erased (R106). -/
def releaseRtp (c : Nat) (s : State) : State := dropCounters rtpCtrs c { s with rtps := FMap.del s.rtps c }

/-- RTP_RELEASE (R83). -/
def execRtpRelease (h : CmdHdr) (context : Nat) (s : State) : Answer :=
  .next (runCmd (plainCmd 0x0113 2) h (fun s1 => checked (rtpReleaseStatus s1 context) (releaseRtp context s1) s1) s)

/-- SRTP_KEY's own check. -/
def srtpKeyStatus (s : State) (b : Bytes) : Nat :=
  if srtpKeyBlockOk b && (rtp? s (leAt b 0 2)).isSome then St.ok else St.badParam

/-- Load a key into the slot that its block names (R106). -/
def loadSrtpKey (b : Bytes) (s : State) : State :=
  let k := srtpKeyOf b
  withRtp (leAt b 0 2) (fun x =>
    match bit (byteAt b 2) 0, bit (byteAt b 2) 1 with
    | false, false => { x with txKey := some { k with atSeq := none } }
    | false, true => { x with txNext := some k }
    | true, false => { x with rxKey := some { k with atSeq := none } }
    | true, true => { x with rxNext := some { k with atSeq := none } }) s

/-- SRTP_KEY (R106). -/
def execSrtpKey (h : CmdHdr) (s : State) : Answer :=
  .next (runCmd (blockCmd 0x0114 2 64) h (fun s1 => checked (srtpKeyStatus s1 (blk h)) (loadSrtpKey (blk h) s1) s1) s)

end Sys2Proof.Machine
end

