-- ==== Sys2Proof/Machine/Playout.lean ====
section
/-! DEFINITION. The receive direction of a voice channel up to the line rate: decoding, the playout decision of each frame,
the moves of the jitter buffer, and late-frame repair (R53, R56, R69, R92 to R104, R211). -/

namespace Sys2Proof.Machine

open Sys2Proof

/-! ### Kernels of the Media Image (log entry 4) -/

/-- The kernels whose arithmetic the spec leaves to the Media Image and to the Recommendations it names. -/
abbrev Mk.decode : Nat := 0
abbrev Mk.conceal : Nat := 1
abbrev Mk.comfort : Nat := 2
abbrev Mk.redundancy : Nat := 3
abbrev Mk.adapt : Nat := 4
abbrev Mk.single : Nat := 5
abbrev Mk.noise : Nat := 6
abbrev Mk.envelope : Nat := 7
abbrev Mk.vad : Nat := 8
abbrev Mk.dtmf : Nat := 9
abbrev Mk.ans : Nat := 10
abbrev Mk.fax : Nat := 11
abbrev Mk.v21 : Nat := 12
abbrev Mk.encode : Nat := 13
abbrev Mk.alc : Nat := 14

/-! ### Decoding (R53, R56, R57, R58, R93) -/

/-- The rate of a codec and of a line in kHz (R43, R53). -/
def codecKhz (codec : Nat) : Nat := if codec = 4 || codec = 5 then 16 else 8
def ChanParams.lineKhz (p : ChanParams) : Nat := if p.lineMode = 2 then 16 else 8

/-- The codec and its options, as a kernel sees them (R48). -/
def ChanParams.codecOpts (p : ChanParams) (codec : Nat) : List Nat :=
  [codec, p.g726Rate, b2n p.g726Pack, b2n p.vad, p.opusKbps, b2n p.opusCbr, b2n p.opusFec, p.opusBw, b2n p.opusFrame, p.opusLoss]

/-- Octets as the numbers a kernel takes. -/
def kernelOctets (d : Bytes) : List Int := d.map (fun b => (b.toNat : Int))

/-- The decoder under a codec and options: its state is reset when they change (R50). The noise generator starts from the
channel number. -/
def Decoder.under (d : Decoder) (channel : Nat) (opts : List Nat) : Decoder :=
  if d.opts = opts then d else { opts, st := [], cn := none, noise := [(channel : Int)] }

/-- Comfort noise from SID or CN parameters, at −70 dBm0 without any (R93). -/
def Decoder.comfort (d : Decoder) (n : Nat) (cn : Option Bytes) : List Int × Decoder :=
  let par : List Int := match cn with | some b => 1 :: kernelOctets b | none => [0, -7000]
  let r := Config.media Mk.comfort ((n : Int) :: d.opts.map Int.ofNat ++ par) d.noise []
  (r.1, { d with cn, noise := r.2 })

/-- The j-th 10 ms of an audio payload as its kernel takes them: samples of G.711, codewords of G.726 in their order, else
octets. -/
def pieceOf (p : ChanParams) (codec j : Nat) (d : Bytes) : List Int :=
  let n := codecOctets codec p.g726Rate
  let o := sub d (n * j) n
  match codec with
  | 0 => o.map (g711Expand false)
  | 1 => o.map (g711Expand true)
  | 2 => (g726Words p.g726Pack p.g726Rate o).map (fun (v : Nat) => (v : Int))
  | 5 => (j : Int) :: kernelOctets d
  | _ => kernelOctets o

/-- Ten milliseconds at the codec rate. G.711 octets are their samples; every other codec's decoding, and all concealment, is
its kernel's. A frame of which the payload holds only the first 5 ms is concealed in its second half (R90). -/
def decodeOne (p : ChanParams) (codec : Nat) (d : Decoder) (it : Playout) : List Int × Decoder :=
  let n := 10 * codecKhz codec
  let run := fun (k : Nat) (st inp : List Int) => Config.media k (d.opts.map Int.ofNat) st inp
  let r : List Int × Decoder :=
    match it with
    | .idle => ([], d)
    | .silence => d.comfort n d.cn
    | .frame b _ true => d.comfort n (some (if codec = 3 then b.drop (b.length - 2) else b))
    | .frame b j false =>
      let inp := pieceOf p codec j b
      let a := run Mk.decode d.st inp
      let out := if codec ≤ 1 then inp else a.1
      if codec ≤ 2 && inp.length ≤ 40 then
        let c := run Mk.conceal a.2 []
        (fitTo (n / 2) out ++ c.1, { d with st := c.2 })
      else (out, { d with st := a.2 })
    | .redundancy b =>
      let a := run Mk.redundancy d.st (kernelOctets b)
      (a.1, { d with st := a.2 })
    | .conceal | .growth =>
      let a := run Mk.conceal d.st []
      (a.1, { d with st := a.2 })
  (fitTo n (r.1.map sat18), r.2)

/-- The decoder after a list of plays. -/
def decodeAll (p : ChanParams) (codec : Nat) (d : Decoder) (l : List Playout) : Decoder :=
  l.foldl (fun a it => (decodeOne p codec a it).2) d

/-! ### What a frame plays (R92, R93, R97, R98)

The decision for a frame falls at the end of the round that follows the dispatch of its DECODE op, so that a packet of that
round is there first (R97). -/

/-- The packet of the buffer that covers a frame, and the one with the lowest number that begins after it. -/
def covering (x : Rtp) (k : Nat) : Option JbPacket := x.jb.find? (fun p => p.frame ≤ k && k < p.frame + p.frames)
def nextAfter (x : Rtp) (k : Nat) : Option JbPacket := x.jb.find? (fun p => decide (k < p.frame))

/-- The missing packet that a frame without one belongs to: its number, its first frame and its frames. Missing packets are
taken to be as long as the one played last, and to follow it; after comfort noise they are those just before the next
packet. `none` is a gap between consecutive numbers (R93). -/
def missingAt (x : Rtp) (k : Nat) : Option (Nat × Nat × Nat) :=
  match x.played with
  | none => none
  | some (q, f, e) =>
    match nextAfter x k with
    | none => if x.noisePlayed || f = 0 then none else some (q + 1 + (k - e) / f, e + (k - e) / f * f, f)
    | some p =>
      let miss := ((List.range (p.seq - q - 1)).map (fun i => q + 1 + i)).filter (fun n => !x.evSeqs.contains n)
      let g := if x.noisePlayed then p.frames else f
      let base := if x.noisePlayed then p.frame - g * miss.length else e
      if k < base || g = 0 then none else miss[(k - base) / g]?.map (fun n => (n, base + (k - base) / g * g, g))

/-- What a frame plays. -/
def playoutAt (x : Rtp) (p : ChanParams) (codec k : Nat) : Playout :=
  match x.anchor with
  | none => .idle
  | some a =>
    if k < a.2 && x.played.isNone then .idle
    else
      match covering x k with
      | some q => .frame q.data (k - q.frame) (q.audio ≤ k - q.frame)
      | none =>
        if x.played.isNone then .idle
        else
          match missingAt x k with
          | none => .silence
          | some (n, _, _) =>
            match nextAfter x k with
            | some q => if p.opusFec && codec = 5 && q.seq = n + 1 then .redundancy q.data else .conceal
            | none => .conceal

/-! ### Late-frame repair (R100 to R102) -/

/-- Open the window of a missing packet when its first frame is concealed (R100): the snapshot is the decoder's state before
it. -/
def openWindow (c k : Nat) (snap : Decoder) (s : State) : State :=
  match rtp? s c with
  | none => s
  | some x =>
    match missingAt x k with
    | some (seq, first, f) =>
      if first = k && !x.repairs.any (fun r => r.seq == seq) then
        let r : Repair := { seq, frame := k, frames := f, closeFrame := k + f + x.p.repairFrames, w := x.p.repairFrames, stage := 0
                            snap, plays := [], data := [], rebuilt := none }
        withRtp c (fun y => { y with repairs := y.repairs ++ [r] }) s
      else s
    | none => s

/-- The flow of a channel's rebuild ops, which has no number in the spec (log entry 105). -/
def rebuildFlow (n : Nat) : Nat := 65536 + n

/-- Whether a rebuild of a channel is open: its op has been dispatched, or its state is tethered. -/
def rebuildOpen (s : State) (n : Nat) (x : Rtp) : Bool :=
  x.repairs.any (fun r => 2 ≤ r.stage) ||
    (match flow? s (rebuildFlow n) with | some fl => fl.order.any (fun e => e.2.st == .dispatched && !e.2.stale) | none => false)

/-- The windows at a decision (R97, R101): a rebuild that is open is refuted, once for all of it, and windows whose frame this
is close. -/
def judgeWindows (c n k : Nat) (s : State) : State :=
  match rtp? s c with
  | none => s
  | some x =>
    let stale := fun (o : Op) => if o.st = .dispatched then { o with stale := true } else o
    let s1 := if rebuildOpen s n x then
        withOps (rebuildFlow n) (fun _ o => stale o) (bump .specDiscard n (bump .specDiscardClass 1 s))
      else s
    let closing := x.repairs.filter (fun r => r.closeFrame ≤ k)
    let s2 := bumpN .rtpLost c 0 (closing.filter (fun r => r.stage == 0)).length s1
    let s3 := bumpN .rtpLate c 0 (closing.filter (fun r => r.stage != 0)).length s2
    withRtp c (fun y =>
      { y with repairs := (y.repairs.filter (fun r => k < r.closeFrame)).map (fun r =>
          if r.stage = 0 then r else { r with stage := 1, rebuilt := none }) }) s3

/-- The packets that have come inside their windows, in sequence order. -/
def Rtp.arrived (x : Rtp) : List Repair := x.repairs.filter (fun r => r.stage != 0)

/-- What has been played since the oldest of some repairs opened, with the frames of the packets that have come in place of
their concealment. -/
def repairedPlays (l : List Repair) : List Playout :=
  match l with
  | [] => []
  | r :: _ =>
    let n := r.plays.length
    r.plays.zipIdx.map (fun e =>
      match l.find? (fun q => n - q.plays.length ≤ e.2 && e.2 < n - q.plays.length + q.frames) with
      | some q => .frame q.data (e.2 - (n - q.plays.length)) false
      | none => e.1)

/-- The state that a rebuild leaves (R101, R102): the frames of the packets that have come up to the one in hand and every
frame played since are decoded from the snapshot of the first of them. -/
def rebuiltState (p : ChanParams) (codec : Nat) (x : Rtp) (seq : Nat) : Option Decoder :=
  let l := x.arrived.filter (fun r => r.seq ≤ seq)
  l.head?.map (fun r => decodeAll p codec r.snap (repairedPlays l))

/-- The completion of a rebuild is recorded (R101): its state is tethered. The samples it gave are discarded. -/
def rebuildDone (c : Nat) (s : State) : State :=
  match rtp? s c, chanOf s c with
  | some x, some (_, ch) =>
    match x.arrived.find? (fun r => r.stage == 1) with
    | none => s
    | some q =>
      let d := rebuiltState ch.p ch.codecNow x q.seq
      withRtp c (fun y => { y with repairs := y.repairs.map (fun r => if r.seq = q.seq then { r with stage := 2, rebuilt := d } else r) }) s
  | _, _ => s

/-- Rebuilds whose completions are all recorded, none of them in this round, are confirmed together (R101, R102): the state
of the last becomes the decoder's, and the packets count repaired. Otherwise those recorded in this round are recorded
from now on. -/
def confirmRebuilds (c n : Nat) (s : State) : State :=
  match rtp? s c with
  | none => s
  | some x =>
    let l := x.arrived
    if !l.isEmpty && l.all (fun r => r.stage == 3) then
      let d := (l.getLast?.bind (·.rebuilt))
      let s1 := withChan n (fun ch => { ch with dec := d.getD ch.dec, begun := ch.begun.map (fun f => { f with before := none }) }) s
      bumpN .rtpRepaired c 0 l.length (withRtp c (fun y => { y with repairs := y.repairs.filter (fun r => r.stage == 0) }) s1)
    else withRtp c (fun y => { y with repairs := y.repairs.map (fun r => if r.stage = 2 then { r with stage := 3 } else r) }) s

/-! ### A frame's decision (R92 to R98, R104) -/

/-- Shift the frames not yet played, the anchor and the open windows by one frame. R102 moves a window's closing frame at
growth; the model moves it at every shift (DESIGN CHOICE, log entry 99). -/
def shiftFrames (x : Rtp) (later : Bool) : Rtp :=
  let mv := fun (k : Nat) => if later then k + 1 else k - 1
  { x with jb := x.jb.map (fun p => { p with frame := mv p.frame }), anchor := x.anchor.map (fun a => (a.1, mv a.2))
           played := x.played.map (fun e => (e.1, e.2.1, mv e.2.2))
           repairs := x.repairs.map (fun r => { r with closeFrame := mv r.closeFrame }) }

/-- Change the frame of a channel whose playout is being decided, the one begun last. -/
def lastFrame (n : Nat) (g : VFrame → VFrame) (s : State) : State :=
  withChan n (fun c => match c.begun.getLast? with | some f => { c with begun := c.begun.dropLast ++ [g f] } | none => c) s

/-- Decode a play of the frame being decided: the samples at the codec rate, and the state with the decoder's next state. -/
def playPiece (n : Nat) (it : Playout) (s : State) : List Int × State :=
  match FMap.get? s.chans n with
  | none => ([], s)
  | some ch =>
    match ch.begun.getLast? with
    | none => ([], s)
    | some f =>
      let codec := f.p.codecIn f.vbd
      let r := decodeOne f.p codec (ch.dec.under n (f.p.codecOpts codec)) it
      let concealed : Bool := it = .conceal || it = .growth
      (r.1, lastFrame n (fun g => { g with plays := g.plays ++ [it], recvFlags := if concealed && !bit g.recvFlags 0 then g.recvFlags + 1 else g.recvFlags })
        (withChan n (fun c => { c with dec := r.2 }) s))

/-- Take the decision of a frame of the buffer's time-line (R92 to R98, R100): what is played, what counts and which window
opens. `n` is the channel, `t` the instant of its DECODE's dispatch. -/
def decideFrame (c n k : Nat) (t : Ns) (s : State) : List Int × State :=
  match rtp? s c, FMap.get? s.chans n with
  | some x, some ch =>
    match ch.begun.getLast? with
    | none => ([], s)
    | some f =>
      let it := playoutAt x f.p (f.p.codecIn f.vbd) k
      let s1 :=
        match it, covering x k with
        | .frame _ _ noise, some p =>
          withRtp c (fun y =>
            { y with played := some (p.seq, p.frames, p.frame + p.frames), noisePlayed := noise
                     jb := y.jb.filter (fun q => k + 1 < q.frame + q.frames)
                     delaySum := y.delaySum + (t - p.at_), delayNum := y.delayNum + 1 }) s
        | .redundancy _, _ => bump .fecRecover c s
        | .conceal, _ => openWindow c k (ch.dec.under n (f.p.codecOpts (f.p.codecIn f.vbd))) (bump .conceal n s)
        | _, _ => s
      playPiece n it (withRtp c (fun y => { y with repairs := y.repairs.map (fun r => { r with plays := r.plays ++ [it] }) }) s1)
  | _, _ => ([], s)

/-- Whether a move of the delay may be made, and the target (R94, R95). -/
def moveDue (s : State) (x : Rtp) : Bool × Nat :=
  (x.lastMove + 100000000 / tickNs s ≤ s.clk.tick && x.anchor.isSome,
   targetDelay x (match x.played with | some (_, f, _) => f | none => 1) (tickNs s))

/-- The shrink move of R95: a due frame that decodes below −45 dBm0, or is comfort noise, is dropped once decoded, and the next
one takes its place. -/
def shrinkFrame (c n k : Nat) (t : Ns) (got : List Int) (s : State) : List Int × State :=
  match rtp? s c, (FMap.get? s.chans n).bind (fun ch => ch.begun.getLast?) with
  | some x, some f =>
    let (mayMove, target) := moveDue s x
    let noise : Bool := match f.plays.getLast? with | some (.frame _ _ v) => v | _ => false
    if mayMove && target + 20 ≤ x.delay && x.p.jbMin + 10 ≤ x.delay && (levelOf18 got < -4500 || noise) then
      decideFrame c n k t (bump .jbShrink n (withRtp c (fun y =>
        { shiftFrames y false with delay := y.delay - 10, lastMove := s.clk.tick }) s))
    else (got, s)
  | _, _ => (got, s)

/-- The codec frames of a line frame (R95, R104): a growth move plays one concealment frame; the resampler needs none, one
or two. -/
def playCodec (c n k need : Nat) (t : Ns) (s : State) : List Int × State :=
  match rtp? s c with
  | none => ([], s)
  | some x =>
    let (mayMove, target) := moveDue s x
    if need = 0 then ([], withRtp c (fun y => shiftFrames y true) s)
    else
      let first :=
        if mayMove && x.delay + 10 ≤ target && x.delay + 10 ≤ x.p.jbMax then
          playPiece n .growth (bump .jbGrow n (withRtp c (fun y =>
            { shiftFrames y true with delay := y.delay + 10, lastMove := s.clk.tick }) s))
        else
          let a := decideFrame c n k t s
          shrinkFrame c n k t a.1 a.2
      if need = 1 then first
      else
        let b := decideFrame c n k t (withRtp c (fun y => shiftFrames y false) first.2)
        (first.1 ++ b.1, b.2)

/-- Push-to-talk playout of a frame (R211): its entry is taken; a frame missing at its turn is concealed. -/
def pttPiece (n k : Nat) (s : State) : List Int × State :=
  match FMap.get? s.chans n with
  | none => ([], s)
  | some ch =>
    match FMap.get? s.groups ch.p.pktRef with
    | none => playPiece n .idle s
    | some g =>
      let missing : Bool := g.turn.any (fun t => decide (t ≤ k))
      let s1 := { s with groups := FMap.set s.groups ch.p.pktRef { g with frames := g.frames.filter (fun e => decide (k < e.1)) } }
      match g.frames.find? (fun e => e.1 == k) with
      | some e => playPiece n (.frame e.2 0 (e.2.length = 2)) s1
      | none =>
        if missing then playPiece n .conceal (bump .conceal n s1)
        else playPiece n (if g.turn.isNone && ch.dec.cn.isSome then .silence else .idle) s1

/-- The conversion of the receive direction under a frame's parameters (R69, R104). -/
def recvFilter (p : ChanParams) (vbd : Bool) : FdcFilter := audioFilter p.preset (codecKhz (p.codecIn vbd)) p.lineKhz

/-- The decision of the frame begun last, where it has not been taken (R92 to R104): its codec frames are decoded and
converted to the line rate in one pass. -/
def decidePlay (n : Nat) (s : State) : State :=
  match FMap.get? s.chans n with
  | none => s
  | some ch =>
    match ch.begun.getLast? with
    | none => s
    | some f =>
      if f.decided then s
      else
        let goal : Int := if f.p.pktMode = 0 then (match rtp? s f.p.pktRef with | some x => x.eps | none => 0) else 0
        let filt := recvFilter f.p f.vbd
        let fd := ch.fdcRecv.under filt
        let out := 10 * f.p.lineKhz
        let need := cdiv (fd.need goal out - fd.queue.length) (10 * filt.fromKhz)
        let s1 := lastFrame n (fun g => { g with before := some (ch.dec, ch.fdcRecv) }) s
        let r := if f.p.pktMode = 0 then
            match rtp? s1 f.p.pktRef with
            | some _ => playCodec f.p.pktRef n f.num (min 2 need) f.at_ (judgeWindows f.p.pktRef n f.num s1)
            | none => playPiece n .idle s1
          else pttPiece n f.num s1
        let y := Fdc.run goal out { fd with queue := fd.queue ++ r.1 }
        let unset := if ch.fdcRecv.filter = filt then 0 else filt.unsettled
        lastFrame n (fun g => { g with recv := y.1, unset, decided := true })
          (withChan n (fun c => { c with fdcRecv := y.2 }) r.2)

end Sys2Proof.Machine
end

