-- ==== Sys2Proof/Machine/VoiceSignal.lean ====
section
/-! DEFINITION. The signal of a voice channel at the line rate: the echo canceller, the measurements of the detectors, level
control, and the encoders (R53 to R63, R67 to R71, R78). -/

namespace Sys2Proof.Machine

open Sys2Proof

/-- Run a kernel whose state the channel keeps, for the send direction (0) or the receive direction (1). -/
def Chan.kernel (c : Chan) (k dir : Nat) (par inp : List Int) : List Int × Chan :=
  let r := Config.media k par (FMap.getD c.kst (2 * k + dir) []) inp
  (r.1, { c with kst := FMap.set c.kst (2 * k + dir) r.2 })

/-! ### The echo canceller (R59 to R64) -/

/-- The echo state after a reset (R64): taps and reference are zero as far as they are not listed. -/
def Echo.start (tail : Nat) : Echo :=
  { tail, taps := [], ref := [], st := [], nlp := false, erle := 0, loss := 0, returned := -12000 }

/-- A channel with its echo state reset: it reconverges. -/
def Chan.noEcho (c : Chan) : Chan := { c with echo := Echo.start c.p.tail, ecFrozen := false, ecResume := 0 }

/-- The echo that the taps make of the reference, newest first, narrowed as R230 says (log entry 101). -/
def echoOf (taps ref : List Int) : Int := narrow18 17 ((taps.zip ref).map (fun e => e.1 * e.2)).sum

/-- The residual of samples over a reference of as many, and the reference afterwards, which looks back `len` samples. -/
def cancelEcho (len : Nat) (taps ref : List Int) (send recv : List Int) : List Int × List Int :=
  match send, recv with
  | x :: xs, y :: ys =>
    let h := (y :: ref).take len
    let r := cancelEcho len taps h xs ys
    (sat18 (x - echoOf taps h) :: r.1, r.2)
  | _, _ => ([], ref)

/-- The weight of the new signal at a sample of a cross-fade (R63). -/
def fadeWeight (i n : Nat) : Int := if n ≤ i then 131072 else ((min 131072 (Config.fade i n) : Nat) : Int)

/-- Cross-fade from one signal to another over `n` samples. -/
def crossFade (n : Nat) (old new : List Int) : List Int :=
  (old.zip new).zipIdx.map (fun e => narrow18 17 (e.1.1 * (131072 - fadeWeight e.2 n) + e.1.2 * fadeWeight e.2 n))

/-- The level of the near-end background, between −70 and −30 dBm0, averaged over 250 ms (R63). -/
def Background.level (b : Background) (frame : Nat) : Int := clampI (-7000) (-3000) (levelOfPowers b.powers frame)

/-- What the NLP puts in the place of a residual (R62), and the noise generator afterwards. -/
def nlpSignal (mode : Nat) (bg : Background) (resid : List Int) : List Int × Background :=
  match mode with
  | 1 => (resid.map (fun _ => 0), bg)
  | 2 =>
    let r := Config.media Mk.noise [(resid.length : Int), bg.level resid.length] bg.gen bg.env
    (fitTo resid.length (r.1.map sat18), { bg with gen := r.2 })
  | _ => (resid, bg)

/-- ECHO of a frame (R59 to R64): the echo of the receive signal is taken out of the send signal, the taps adapt unless the
double-talk detector or a quiet reference forbids it, and the NLP replaces the residual in single talk from the far end. Off,
the canceller passes the send signal unchanged and keeps its state (R64, R65). -/
def echoFrame (c : Chan) (f : VFrame) : Chan × VFrame :=
  let p := f.p
  let kz := p.lineKhz
  let fresh : Bool := c.echo.tail != p.tail
  let e := if fresh then Echo.start p.tail else c.echo
  let c0 := if fresh then { c with echo := e, ecFrozen := false, ecResume := 0 } else c
  let done := { f with echoed := true, single := false }
  if p.tail = 0 || c.ecOff then ({ c0 with nlpOn := false, echo := { e with nlp := false } }, done)
  else
    let len := 8 * kz * p.tail
    let ref := levelOf18 (f.recv.drop f.unset)
    let snd := levelOf18 f.send
    let loud : Bool := ref - 300 * (p.erlMin : Int) < snd
    let frozen : Bool := loud || 0 < c0.ecResume
    let r := cancelEcho len e.taps e.ref f.send f.recv
    let look := (f.recv.reverse ++ e.ref).take (len + f.recv.length)
    let a := if frozen || ref < -5000 then (e.taps, e.st)
      else Config.media Mk.adapt [(len : Int), (f.unset : Int)] e.st (fitTo len e.taps ++ look ++ r.1.drop f.unset)
    let talk := c0.kernel Mk.single 0 [] [snd, ref, levelOf18 r.1]
    let single : Bool := !loud && talk.1.any (· != 0)
    let on : Bool := p.nlp != 0 && single && !(p.ansNlpOff && c.ansSeen)
    let y := if on || e.nlp then nlpSignal p.nlp c.bg r.1 else (r.1, c.bg)
    let out := if on then (if e.nlp then y.1 else crossFade (5 * kz) r.1 y.1)
      else if e.nlp then crossFade (5 * kz) y.1 r.1 else r.1
    let lvl := levelOf18 out
    ({ talk.2 with
        ecFrozen := frozen, ecResume := if loud then 3 else c0.ecResume - 1, nlpOn := on, bg := y.2
        echo := { e with taps := (a.1.map sat18).take len, st := a.2, ref := r.2, nlp := on
                         erle := if single then snd - levelOf18 r.1 else e.erle, loss := if single then ref - lvl else e.loss
                         returned := if single then lvl else e.returned } },
     { done with send := out, single })

/-! ### Measurements of the detectors (R71 to R75) -/

/-- The samples of a frame as the detectors take them, at 8 kHz, how many of them at its beginning are unsettled, and the
decimation afterwards (R71). -/
def detectorInput (d : Fdc) (kz unset : Nat) (x : List Int) : List Int × Nat × Fdc :=
  if kz = 8 then (x, unset, d)
  else
    let filt := audioFilter 1 16 8
    let y := Fdc.run 0 80 { d.under filt with queue := (d.under filt).queue ++ x }
    (y.1, max (cdiv unset 2) (if d.filter = filt then 0 else filt.unsettled), y.2)

/-- What the detectors of a direction find in a block; unsettled samples give nothing (R70). -/
def measureBlock (c : Chan) (dir : Nat) (lvl : Int) (settled : Bool) (b : List Int) : BlockObs × Chan :=
  if !settled then ({ level := lvl, block := b, dtmf := none, ans := none, fax := none, v21 := none }, c)
  else
    let d := if dir = 0 then c.kernel Mk.dtmf 0 [] b else ([], c)
    let a := d.2.kernel Mk.ans dir [] b
    let x := a.2.kernel Mk.fax dir [] b
    let v := x.2.kernel Mk.v21 dir [] b
    ({ level := lvl, block := b
       dtmf := match d.1 with | [g, dl, dh, ll, lh, o, s] => some ⟨g.toNat, dl, dh, ll, lh, o, s⟩ | _ => none
       ans := match a.1 with | [f, l] => some ⟨f, l, none⟩ | [f, l, q] => some ⟨f, l, some q⟩ | _ => none
       fax := match x.1 with | [f, l] => some ⟨f, l⟩ | _ => none
       v21 := match v.1 with | dv :: l :: bits => some ⟨dv, l, bits.map (· != 0)⟩ | _ => none }, v.2)

/-- The two blocks of a direction. Its level leaves unsettled samples out (R70). -/
def measureDir (c : Chan) (dir kz unset unset8 : Nat) (line x : List Int) : List BlockObs × Chan :=
  [0, 1].foldl (fun a i =>
    let n := 5 * kz
    let l := levelOf18 (((line.drop (n * i)).take n).drop (unset - n * i))
    let m := measureBlock a.2 dir l (unset8 ≤ 40 * i) ((x.drop (40 * i)).take 40)
    (a.1 ++ [m.1], m.2)) ([], c)

/-- DETECT's measurements of a frame (R71): the echo-cancelled send signal and the decoded receive signal. -/
def detectFrame (c : Chan) (f : VFrame) : Chan × VFrame :=
  let kz := f.p.lineKhz
  let s := detectorInput c.detSend kz 0 f.send
  let r := detectorInput c.detRecv kz f.unset f.recv
  let a := measureDir { c with detSend := s.2.2, detRecv := r.2.2 } 0 kz 0 s.2.1 f.send s.1
  let b := measureDir a.2 1 kz f.unset r.2.1 f.recv r.1
  (b.2, { f with obs := some ⟨a.1, b.1⟩ })

/-! ### Level control (R63, R67, R68, R78) -/

/-- One step of automatic level control in 0.01 dB (R68): towards the target by what the kernel gives, at most 6 dB/s up and
30 dB/s down. The long-term level is the mean over the last 100 frames that adapted (DESIGN CHOICE, log entry 102: the
spec does not define it). -/
def alcStep (target : Nat) (long gain : Int) : Int :=
  let off := -100 * (target : Int) - (long + gain)
  let d := (Config.media Mk.alc [(target : Int)] [] [long, gain]).1.headD 0
  clampI (-1500) 1500 (gain + (if 0 ≤ off then clampI 0 (min 6 off) d else clampI (max (-30) off) 0 d))

/-- Automatic level control of a direction on a frame (R68): the gain, and the powers of the frames that adapted it. -/
def alcFrame (on adapts : Bool) (target : Nat) (gain : Int) (pows : List Nat) (x : List Int) : Int × List Nat :=
  if !on || !adapts || levelOf18 x < -4500 then (gain, pows)
  else
    let l := (energy18 x :: pows).take 100
    (alcStep target (levelOfPowers l x.length) gain, l)

/-- The gains of a direction in the order of R67. -/
def gainsOf (alc : Option Int) (fixed : Int) (x : List Int) : List Int :=
  applyGain (50 * fixed) (match alc with | some g => applyGain g x | none => x)

/-- The near-end background with one more frame of neither speech nor echo: the last 250 ms and the envelope (R63). -/
def Background.add (b : Background) (x : List Int) : Background :=
  { b with powers := (energy18 x :: b.powers).take 25, env := fitTo 10 (Config.media Mk.envelope [] b.env x).1 }

/-- LEVEL of the send direction (R63, R67, R68, R73): VAD, background, gains, and muting, by the switch or of DTMF. -/
def levelSend (muted : Bool) (c : Chan) (f : VFrame) : Chan × VFrame :=
  let p := f.p
  let v := c.kernel Mk.vad 0 [] f.send
  let active : Bool := v.1.any (· != 0)
  let g := alcFrame p.alcSend (active && !c.suspended) p.alcTarget c.alcSend c.powSend f.send
  let out := gainsOf (if p.alcSend then some g.1 else none) p.gainSend f.send
  ({ v.2 with silence := p.vad && !active && !c.suspended, alcSend := g.1, powSend := g.2
              bg := if active || f.single then c.bg else c.bg.add f.send },
   { f with send := if p.muteSend || muted then out.map (fun _ => 0) else out })

/-- The tones of Q.23 for a digit in Hz, low and high group. -/
def q23 (digit : Nat) : Nat × Nat :=
  let rows := [697, 770, 852, 941]
  let cols := [1209, 1336, 1477, 1633]
  let at_ := fun r c => (rows.getD r 0, cols.getD c 0)
  if digit = 0 then at_ 3 1
  else if digit < 10 then at_ ((digit - 1) / 3) ((digit - 1) % 3)
  else if digit = 10 then at_ 3 0 else if digit = 11 then at_ 3 2 else at_ (digit - 12) 3

/-- `n` samples of a regenerated digit (R78): both tones at −(v + 3) dBm0, v held between 3 and 36. -/
def digitTones (digit volume khz start n : Nat) : List Int :=
  let q := q23 digit
  let lvl : Int := -100 * ((clampN 3 36 volume : Nat) + 3)
  tones18 [(100 * q.1, lvl), (100 * q.2, lvl)] khz start n

/-- LEVEL of the receive direction (R67, R68, R78): VAD, gains, a regenerated digit in place of the audio, then muting. -/
def levelRecv (c : Chan) (f : VFrame) : Chan × VFrame :=
  let p := f.p
  let x := f.recv.drop f.unset
  let v := c.kernel Mk.vad 1 [] x
  let active : Bool := v.1.any (· != 0)
  let g := alcFrame p.alcRecv (active && !c.suspended) p.alcTarget c.alcRecv c.powRecv x
  let out := gainsOf (if p.alcRecv then some g.1 else none) p.gainRecv f.recv
  let n := out.length
  let heard := match c.regen with
    | some r => if p.dtmfRegen && !r.ended && r.digit < 16 then digitTones r.digit r.volume p.lineKhz (n * f.num) n else out
    | none => out
  ({ v.2 with alcRecv := g.1, powRecv := g.2 }, { f with recv := if p.muteRecv then heard.map (fun _ => 0) else heard, recvDone := true })

/-! ### Encoders (R53, R55, R57, R58, R69, R80) -/

/-- The conversion of the send direction under a frame's parameters (R69). It follows LEVEL, because ECHO and the recording tap
work at the line rate (log entry 103). -/
def sendFilter (p : ChanParams) (vbd : Bool) : FdcFilter := audioFilter p.preset p.lineKhz (codecKhz (p.codecIn vbd))

/-- Send samples at the codec rate, and the conversion afterwards. -/
def toCodec (d : Fdc) (filt : FdcFilter) (x : List Int) : List Int × Fdc :=
  if filt.fromKhz = filt.toKhz then (x, Fdc.start filt)
  else Fdc.run 0 (10 * filt.toKhz) { d.under filt with queue := (d.under filt).queue ++ x }

/-- The encoder under a codec and options: its state is reset when they change (R50). -/
def Encoder.under (e : Encoder) (opts : List Nat) : Encoder := if e.opts = opts then e else { opts, st := [] }

/-- What ENCODE gives for 10 ms of samples (R53, R58): the octets of G.711, packed codewords of G.726, a voice or SID frame or
nothing for G.729, and an Opus frame or, for the first half of a 20 ms frame, nothing. -/
def codedOf (p : ChanParams) (codec : Nat) (vad : Bool) (x out : List Int) : Bytes :=
  let o := out.map (BitVec.ofInt 8)
  match codec with
  | 0 => x.map (g711Of false)
  | 1 => x.map (g711Of true)
  | 2 => g726Packed p.g726Pack p.g726Rate ((fitTo 80 out).map (fun v => v.toNat))
  | 3 => if !vad || 10 ≤ o.length then padTo 10 o else if 2 ≤ o.length then o.take 2 else []
  | 4 => padTo 80 o
  | _ => o.take 1275

/-- ENCODE of a frame. -/
def encodeFrame (c : Chan) (f : VFrame) : Chan × VFrame :=
  let codec := f.p.codecIn f.vbd
  let x := toCodec c.fdcSend (sendFilter f.p f.vbd) f.send
  let e := c.enc.under (f.p.codecOpts codec)
  let vad : Bool := f.p.vad && !c.suspended
  let a := Config.media Mk.encode ((b2n vad : Int) :: e.opts.map Int.ofNat) e.st x.1
  ({ c with fdcSend := x.2, enc := { e with st := a.2 } }, { f with coded := codedOf f.p codec vad x.1 a.1 })

/-- The first octet of an Opus packet (R57; RFC 6716 clause 3.1): SILK for narrowband and medium band, CELT for wideband. -/
def opusToc (bw : Nat) (long : Bool) (code : Nat) : Nat :=
  8 * ((match bw with | 0 => 0 | 1 => 4 | _ => 22) + b2n long) + code

/-- The length of an Opus frame in one or two octets (RFC 6716 clause 3.2.1). -/
def opusLenOf (n : Nat) : Bytes := if n < 252 then toLE 1 n else toLE 1 (252 + n % 4) ++ toLE 1 ((n - 252 - n % 4) / 4)

/-- An Opus packet of frames of one kind (RFC 6716 clause 3.2). -/
def opusPacket (bw : Nat) (long : Bool) (l : List Bytes) : Bytes :=
  let same : Bool := l.all (fun b => b.length == (l.headD []).length)
  match l with
  | [a] => toLE 1 (opusToc bw long 0) ++ a
  | [a, b] => if same then toLE 1 (opusToc bw long 1) ++ a ++ b else toLE 1 (opusToc bw long 2) ++ opusLenOf a.length ++ a ++ b
  | _ =>
    toLE 1 (opusToc bw long 3) ++ toLE 1 (l.length + 128 * b2n (!same)) ++
      (if same then [] else l.dropLast.flatMap (fun b => opusLenOf b.length)) ++ l.flatten

/-- The payload of a comfort-noise frame (R55; RFC 3389): the noise level in −dBov and the ten coefficients of the envelope (log
entry 104). -/
def noisePayload (bg : Background) (lvl : Int) : Bytes :=
  toLE 1 (clampI 0 127 (Int.fdiv (50 + 615 - lvl) 100)).toNat ++ bg.env.map (fun v => BitVec.ofNat 8 (clampI 0 254 v).toNat)

end Sys2Proof.Machine
end

