-- ==== Sys2Proof/Machine/VoiceOps.lean ====
section
/-! DEFINITION. What the frames of a voice channel do: its flow of six ops and a concealment op, tone detection, the
tone disabler, level control, packets and the end of a channel (R43 to R80, R108, R110, R211, R212). -/

namespace Sys2Proof.Machine

open Sys2Proof

/-! ### The flow of a channel (R45, R46) -/

/-- The nodes of a channel's flow. -/
abbrev Nv.decode : Nat := 0
abbrev Nv.echo : Nat := 1
abbrev Nv.detect : Nat := 2
abbrev Nv.level : Nat := 3
abbrev Nv.encode : Nat := 4
abbrev Nv.pack : Nat := 5
abbrev Nv.miss : Nat := 6

/-- A node of a channel's flow. -/
def voiceNode (d : Nat) (data order : BitVec 12) (fwd : Nat) : Node :=
  { kernel := Config.mediaKernel d, param := 0, inQ := 0xFFFF, outQ := 0xFFFF, dataDeps := data, orderDeps := order
    statePrev := true, fwdNode := fwd, predKind := 0, predSense := false, spec := false, predNode := 0, predTicks := 0 }

/-- The nodes: DECODE, ECHO, DETECT, LEVEL, ENCODE, PACK and the miss node. With dtmf_relay set LEVEL also waits for
the DETECT of the next frame (R46). -/
def voiceNodes (relay : Bool) : List Node :=
  [voiceNode 0 0 0 15, voiceNode 1 1 0 15, voiceNode 2 3 0 15, voiceNode 3 7 0 (if relay then 2 else 15), voiceNode 4 8 0 15,
   voiceNode 5 16 8 15, voiceNode 6 0 0 15]

/-- The deadline of a channel's frames in ticks, which the spec does not give: one frame, two with dtmf_relay (log
entry 27). -/
def voiceDeadline (s : State) (relay : Bool) : Nat := frameTicks s * (1 + b2n relay)

/-- The flow of a channel, in class C1. -/
def voiceFlow (s : State) (p : ChanParams) (ring home : Nat) : Flow :=
  { cls := 1, lateRelease := false, nodes := voiceNodes p.dtmfRelay, miss := some 6, period := frameTicks s
    deadline := voiceDeadline s p.dtmfRelay, opRate := 0, window := 64, report := false, host := false, ring, homeVpe := home
    insts := [], nextNum := 0, stalled := [], releasing := none, committed := [], versions := [], lastPred := [], fresh := true
    owed := [], cluster := home / 16, slack := none }

/-! ### Times, levels and events of a channel -/

/-- The instant at which the line samples of a frame began to enter, on the local timeline. -/
def frameStart (s : State) (ch : Chan) (k : Nat) : Ns := tickStart s (ch.dueOf s k) - 10000000

/-- A level in 0.01 dB as a signed octet of 0.5 dB units, rounded to the nearest. -/
def halfDb (v : Int) : Nat := enc 8 (clampI (-128) 127 (Int.fdiv (v + 25) 50))

/-- Whether the detector of a tone is on (R48): relay needs that of DTMF. -/
def ChanParams.detects (p : ChanParams) (tone : Nat) : Bool :=
  if tone < 16 then p.dtmfDet || p.dtmfRelay else if tone = 0x22 then p.cngDet else if tone = 0x23 then p.v21Det else p.ansDet

/-- Body of the voice events (R76). -/
def toneBody (n tone dirBits start duration level twist : Nat) : Bytes :=
  padTo 48 (toLE 2 n ++ toLE 1 tone ++ toLE 1 dirBits ++ toLE 8 start ++ toLE 4 duration ++ toLE 1 level ++ toLE 1 twist ++ zeros 2)

/-- Report a tone. -/
def toneEvent (code n : Nat) (r : ToneRun) (truncated : Bool) (duration : Nat) (s : State) : State :=
  match FMap.get? s.chans n with
  | none => s
  | some ch =>
    raise code (some ch.ring) (toneBody n r.tone (b2n r.recv + 2 * b2n truncated) (devOf s r.start) duration (halfDb r.level)
      (if r.tone < 16 then halfDb r.twist else 0)) s

/-- EC_DISABLED, EC_ENABLED and VBD_SWITCH name the channel and no tone. R76 does not say what dir and start_time hold in them:
dir is 0 and start_time the present device time (DESIGN CHOICE, log entry 106). -/
def chanEvent (code n : Nat) (s : State) : State :=
  match FMap.get? s.chans n with
  | none => s
  | some ch => raise code (some ch.ring) (toneBody n 0xFF 0 (devTime s) 0 0 0) s

/-! ### Tone detection (R71 to R75) -/

/-- A deviation in 0.01 Hz against the frequency limits of R72. -/
def q23Verdict (f : Nat) (dev : Int) : Verdict :=
  verdict (2 * dev.natAbs ≤ 3 * f + 400) (7 * f < 2 * dev.natAbs)

/-- A tone's level against an always range and a floor, in 0.01 dB. -/
def levelVerdict (lo hi floor v : Int) : Verdict := verdict (lo ≤ v && v ≤ hi) (v < floor)

/-- The limits of a DTMF block (R72). -/
def dtmfVerdict (m : DtmfMeas) : Verdict :=
  let f := q23 m.digit
  let twist := m.lvlHigh - m.lvlLow
  ((q23Verdict f.1 m.devLow).and (q23Verdict f.2 m.devHigh)).and
    (((levelVerdict (-3000) (-300) (-3800) m.lvlLow).and (levelVerdict (-3000) (-300) (-3800) m.lvlHigh)).and
      ((verdict (-800 ≤ twist && twist ≤ 400) (twist < -1000 || 600 < twist)).and (verdict (1200 ≤ m.other) false)))

/-- Settle what a block shows: what the limits leave open depends on the measured values and the samples alone (R79; log
entry 1). -/
def blockSettles (b : BlockObs) (kind : Nat) (v : Verdict) (vals : List Int) : Bool := v.settle (Config.judge kind (vals ++ b.block))

/-- The digit of a candidate block (R72). -/
def candidate (b : BlockObs) : Option DtmfMeas :=
  b.dtmf.filter (fun m => m.digit < 16 &&
    blockSettles b Mk.dtmf (dtmfVerdict m) [(m.digit : Int), m.devLow, m.devHigh, m.lvlLow, m.lvlHigh, m.other])

/-- The answer tone of a block (R74), the fax calling tone and V.21 (R75). -/
def ansVerdict (m : AnsMeas) : Verdict :=
  (verdict (208500 ≤ m.freq && m.freq ≤ 211500) (m.freq < 207000 || 213000 < m.freq)).and (levelVerdict (-3100) (-600) (-4000) m.lvl)
def faxVerdict (m : FaxMeas) : Verdict :=
  (verdict (106200 ≤ m.freq && m.freq ≤ 113800) false).and (levelVerdict (-4300) 0 (-4800) m.lvl)
def v21Verdict (m : V21Meas) : Verdict := (verdict (m.dev ≤ 2500) false).and (verdict (-4300 ≤ m.lvl && m.lvl ≤ 0) false)
def reversalVerdict (p : Int) : Verdict := verdict (1550 ≤ p && p ≤ 2050) (p < 1350 || 2250 < p)

/-- What a block shows of each. -/
def ansShown (b : BlockObs) : Option AnsMeas := b.ans.filter (fun m => blockSettles b Mk.ans (ansVerdict m) [m.freq, m.lvl])
def faxShown (b : BlockObs) : Option FaxMeas := b.fax.filter (fun m => blockSettles b Mk.fax (faxVerdict m) [m.freq, m.lvl])
def v21Shown (b : BlockObs) : Option V21Meas := b.v21.filter (fun m => blockSettles b Mk.v21 (v21Verdict m) [m.dev, m.lvl])
def reversalShown (b : BlockObs) : Bool :=
  match (ansShown b).bind (·.phase) with | some p => blockSettles b Mk.ans (reversalVerdict p) [p] | none => false

/-- The total power of a pair of tones: that of the stronger, raised by at most 3 dB. -/
def pairPower (m : DtmfMeas) : Int := let hi := max m.lvlLow m.lvlHigh; clampI hi (hi + 301) m.pair

/-- The run of a tone in a direction, and a change to a channel's runs. -/
def toneRun (ch : Chan) (tone : Nat) (recv : Bool) : Option ToneRun := ch.tones.find? (fun r => r.tone == tone && r.recv == recv)
def dropRun (n : Nat) (r : ToneRun) (s : State) : State := withChan n (fun c => { c with tones := c.tones.filter (fun e => e != r) }) s
def setRun (n : Nat) (old new : ToneRun) (s : State) : State :=
  withChan n (fun c => { c with tones := c.tones.map (fun e => if e = old then new else e) }) s
def addRun (n : Nat) (r : ToneRun) (s : State) : State := withChan n (fun c => { c with tones := c.tones ++ [r] }) s

/-- A tone ends: TONE_OFF with its duration to the last block that showed it; a digit being sent as an event gets its end
packets unless it is truncated (R51, R76, R77). A run that has not qualified counts where it is a digit (R72). -/
def endRun (n : Nat) (r : ToneRun) (truncated : Bool) (s : State) : State :=
  let s1 := dropRun n r s
  if !r.on then (if r.tone < 16 then bump .dtmfReject n s1 else s1)
  else
    let s2 := if r.tone < 16 then
        let other := fun (e : Relay) => e.ended || e.digit != r.tone
        let close := fun (e : Relay) => if other e then e else { e with ended := true, ends := 3, total := r.run * 40 }
        withChan n (fun c => { c with relay := if truncated then c.relay.filter other else c.relay.map close }) s1
      else s1
    if r.told then toneEvent Ev.toneOff n r truncated (r.run * 40) s2 else s2

/-- The event clock at an instant of a frame, from that of the frame's first sample (R89). -/
def eventStamp (s : State) (ch : Chan) (k : Nat) (t : Ns) : BitVec 32 :=
  match rtp? s ch.p.pktRef with
  | some x => x.evTs + BitVec.ofInt 32 (Int.fdiv ((t : Int) - (frameStart s ch k : Int)) 125000)
  | none => 0

/-- A tone qualifies: TONE_ON where tone_events and its detector are on, and what follows from it for relay and the tone
disabler; quiet blocks before an answer tone do not count (R65). -/
def qualify (n k : Nat) (p : ChanParams) (r : ToneRun) (s : State) : State :=
  let told : Bool := p.toneEvents && p.detects r.tone
  let s0 := addRun n { r with on := true, told } s
  let s1 := if told then toneEvent Ev.toneOn n r false 0 s0 else s0
  match FMap.get? s1.chans n with
  | none => s1
  | some ch =>
    if r.tone < 16 && p.dtmfRelay && p.pktMode = 0 then
      let e : Relay := { digit := r.tone, ts := eventStamp s1 ch k r.start, volume := (clampI 0 63 (Int.fdiv (50 - r.level) 100)).toNat
                         total := r.run * 40, base := 0, sent := false, since := 0, ended := false, ends := 0 }
      withChan n (fun c => { c with relay := c.relay ++ [e] }) s1
    else if r.tone = 0x20 || r.tone = 0x21 then withChan n (fun c => { c with ansSeen := true, quiet := 0 }) s1
    else s1

/-- The limits of a detector in blocks of 5 ms: a run may qualify from `open_` on and does at `qual`; while it forms, gaps of up
to `bridge` blocks are bridged; a tone in progress may end after `offOpen` blocks without it and does after `off`. -/
structure ToneLimits where
  open_   : Nat
  qual    : Nat
  bridge  : Nat
  offOpen : Nat
  off     : Nat
  deriving DecidableEq, Repr

/-- One block for a run of a tone's detector. What the limits leave open is a choice of the run and the block (log entry 1). -/
def stepRun (n k : Nat) (p : ChanParams) (lim : ToneLimits) (b : BlockObs) (hit : Option ToneRun) (r : ToneRun) (s : State) : State :=
  let pick := fun (q : ToneRun) => Config.judge (64 + q.tone) ((q.run : Int) :: (q.gap : Int) :: b.block)
  match hit.filter (fun h => h.tone == r.tone) with
  | some h =>
    let r1 := { r with run := r.run + r.gap + 1, gap := 0, level := h.level, twist := h.twist }
    if r.on then
      withChan n (fun c => { c with relay := c.relay.map (fun e =>
        if e.ended || e.digit != r.tone then e else { e with total := r1.run * 40 }) }) (setRun n r r1 s)
    else if lim.qual ≤ r1.run || (lim.open_ ≤ r1.run && pick r1) then qualify n k p r1 (dropRun n r s)
    else setRun n r r1 s
  | none =>
    let r1 := { r with gap := r.gap + 1 }
    if (if r.on then lim.off ≤ r1.gap || (lim.offOpen ≤ r1.gap && pick r1) else lim.bridge < r1.gap) then endRun n r false s
    else setRun n r r1 s

/-- One block of a detector of the tones below a bound from another: every run of one goes on, and a block that belongs to none
begins one. To the run of a digit another digit's block is a gap (R72). -/
def toneBlock (n k : Nat) (p : ChanParams) (lo hi : Nat) (recv : Bool) (lim : ToneLimits) (b : BlockObs) (hit : Option ToneRun)
    (s : State) : State :=
  match FMap.get? s.chans n with
  | none => s
  | some ch =>
    let runs := ch.tones.filter (fun r => decide (lo ≤ r.tone) && decide (r.tone < hi) && r.recv == recv)
    let s1 := runs.foldl (fun t r => stepRun n k p lim b hit r t) s
    match hit.filter (fun h => !runs.any (fun r => r.tone == h.tone)) with
    | some h => if lim.qual ≤ h.run then qualify n k p h s1 else addRun n h s1
    | none => s1

/-- A run of one block that a block begins. -/
def runFrom (tone : Nat) (recv : Bool) (start : Ns) (blocks : Nat) (level twist : Int) : ToneRun :=
  { tone, recv, start, run := blocks, gap := 0, on := false, told := false, level, twist }

/-! ### The tone disabler and voiceband data (R65, R66) -/

/-- ANS_REV has qualified: the canceller goes off, VAD, CNG and ALC are suspended, and with vbd_auto the channel goes to
voiceband data. Its units fall with the event (R66), but not below those that a CHAN_MODIFY has taken and that wait with it.
R66 does not say what vbd_auto does on a push-to-talk channel, which has G.729 only: nothing (DESIGN CHOICE, log entry 107). -/
def reversed (n : Nat) (p : ChanParams) (s : State) : State :=
  match FMap.get? s.chans n with
  | none => s
  | some ch =>
    let s1 := withChan n (fun c => { c with suspended := true, ansSeen := true }) s
    let s2 := if p.tail ≠ 0 && !ch.ecOff then
        chanEvent Ev.ecDisabled n (bump .ecDisable n (withChan n (fun c => { c with ecOff := true, nlpOn := false }) s1))
      else s1
    if p.vbdAuto && p.pktMode = 0 && !ch.vbd && !ch.vbdPending then
      chanEvent Ev.vbdSwitch n (withChan n (fun c =>
        { c with vbdPending := true, units := if c.next.isSome then c.units else unitsOf { c.p with codec := 0 } }) s2)
    else s2

/-- One block of the answer-tone detector with its reversals (R74): the limits are 350 and 400 ms, gaps up to 20 ms, and 50 ms
without tone. ANS_REV ends with its ANS. -/
def ansBlock (n k : Nat) (p : ChanParams) (recv : Bool) (start : Ns) (b : BlockObs) (s : State) : State :=
  let hit := (ansShown b).map (fun m => runFrom 0x20 recv start 1 m.lvl 0)
  let s1 := toneBlock n k p 0x20 0x21 recv ⟨70, 80, 4, 10, 10⟩ b hit s
  match FMap.get? s1.chans n with
  | none => s1
  | some ch =>
    match toneRun ch 0x20 recv, toneRun ch 0x21 recv with
    | some a, none =>
      if a.on && reversalShown b then reversed n p (qualify n k p (runFrom 0x21 recv start 1 a.level 0) s1) else s1
    | none, some r => endRun n r false s1
    | some a, some r =>
      setRun n r (if hit.isSome then { r with run := r.run + r.gap + 1, gap := 0, level := a.level } else { r with gap := r.gap + 1 }) s1
    | none, none => s1

/-- The flags of one direction after a bit of the line (R75): a flag that ends eight bits after the one before is consecutive. -/
def V21Run.bit (v : V21Run) (b : Bool) : V21Run :=
  let last := (2 * v.last + b2n b) % 256
  if last = 0x7E then { last, since := 0, flags := if v.since + 2 = 16 then v.flags + 1 else 1 }
  else { v with last, since := v.since + 2 }

/-- The flags after a block: its bits, or without a carrier the time of 1.5 bits. -/
def V21Run.block (v : V21Run) (m : Option V21Meas) : V21Run :=
  match m with
  | some m => m.bits.foldl V21Run.bit v
  | none => { last := 0, since := v.since + 3, flags := if v.since + 3 < 32 then v.flags else 0 }

/-- One block of the V.21 detector (R75): it qualifies on three consecutive flags, 80 ms after the first began, and ends when 16
bits pass without a flag. -/
def v21Block (n k : Nat) (p : ChanParams) (recv : Bool) (start : Ns) (b : BlockObs) (s : State) : State :=
  match FMap.get? s.chans n with
  | none => s
  | some ch =>
    let m := (v21Shown b)
    let v := (if recv then ch.v21Recv else ch.v21Send).block m
    let s1 := withChan n (fun c => if recv then { c with v21Recv := v } else { c with v21Send := v }) s
    match toneRun ch 0x23 recv with
    | none => if 3 ≤ v.flags then qualify n k p (runFrom 0x23 recv (start + 5000000 - 80000000) 16 (match m with | some m => m.lvl | none => 0) 0) s1 else s1
    | some r =>
      if 32 ≤ v.since then endRun n r false s1
      else setRun n r (match m with | some m => { r with run := r.run + r.gap + 1, gap := 0, level := m.lvl } | none => { r with gap := r.gap + 1 }) s1

/-- One block of one direction (R71): DTMF in the send direction only, the rest in both. A digit may end after a pause of 10 ms
and does at dtmf_min_off; a fax calling tone ends after 50 ms without it. -/
def detectBlock (n k i : Nat) (p : ChanParams) (recv : Bool) (b : BlockObs) (s : State) : State :=
  let start := match FMap.get? s.chans n with | some ch => frameStart s ch k + 5000000 * i | none => 0
  let digit := (candidate b).map (fun m => runFrom m.digit false start 1 (pairPower m) (m.lvlHigh - m.lvlLow))
  let s1 := if recv || !(p.dtmfDet || p.dtmfRelay) then s
    else toneBlock n k p 0 16 false ⟨cdiv (p.dtmfMinOn - 15) 5, cdiv p.dtmfMinOn 5, 1, 2, cdiv p.dtmfMinOff 5⟩ b digit s
  let s2 := ansBlock n k p recv start b s1
  let s3 := if p.cngDet then
      toneBlock n k p 0x22 0x23 recv ⟨80, 80, 0, 10, 10⟩ b ((faxShown b).map (fun m => runFrom 0x22 recv start 1 m.lvl 0)) s2
    else s2
  if p.v21Det then v21Block n k p recv start b s3 else s3

/-- Tones whose detector a change of parameters has switched off end truncated (R50). Answer tones go on for the tone disabler
(R65). A digit that is still forming is dropped and does not count in CNT_DTMF_REJECT, on which R50 is silent (DESIGN CHOICE,
log entry 106). -/
def switchOff (n : Nat) (p : ChanParams) (s : State) : State :=
  match FMap.get? s.chans n with
  | none => s
  | some ch =>
    (ch.tones.filter (fun r => !p.detects r.tone)).foldl (fun t r =>
      if r.tone = 0x20 || r.tone = 0x21 then
        if r.told then setRun n r { r with told := false } (toneEvent Ev.toneOff n r true (r.run * 40) t) else t
      else if r.on then endRun n r true t
      else dropRun n r t) s

/-- Whether a digit is in progress on a channel. -/
def digitOn (ch : Chan) : Bool := ch.tones.any (fun r => decide (r.tone < 16) && r.on)

/-! ### RFC 4733 packets (R77) -/

/-- One telephone-event packet. -/
def eventPacket (p : ChanParams) (e : Relay) (marker ended : Bool) (duration : Nat) (s : State) : State :=
  rtpSend p.pktRef p.tePt marker (e.ts + BitVec.ofNat 32 e.base)
    (toBE 1 e.digit ++ toBE 1 (128 * b2n ended + e.volume) ++ toBE 2 duration) s

/-- The packets of one digit at the end of a frame, and the digit afterwards, `none` once its end packets are sent. The first
packet counts to the end of the frame, `toEnd` units after the digit's first block, an update no further than the last
candidate block. A segment ends where the duration passes 65 535, and the next one has no marker (RFC 4733 clause 2.5.1.3). -/
def relayStep (p : ChanParams) (toEnd : Nat) (e : Relay) (s : State) : Option Relay × State :=
  let (e0, s0) :=
    if e.sent && 65535 < e.total - e.base then
      ({ e with base := e.base + 65535, since := p.ptime }, eventPacket p e false false 65535 s)
    else (e, s)
  let dur := e0.total - e0.base
  if e0.ended then
    let s1 := if e0.sent then s0 else eventPacket p e0 true false dur s0
    let s2 := eventPacket p e0 false true dur s1
    (if e0.ends ≤ 1 then none else some { e0 with sent := true, ends := e0.ends - 1 }, s2)
  else if !e0.sent then (some { e0 with sent := true, since := 0 }, eventPacket p e0 true false (min 65535 toEnd) s0)
  else if p.ptime ≤ e0.since + 1 then (some { e0 with since := 0 }, eventPacket p e0 false false dur s0)
  else (some { e0 with since := e0.since + 1 }, s0)

/-- The event packets of a frame end; a channel without relay has none. -/
def relayPackets (n : Nat) (p : ChanParams) (s : State) : State :=
  match FMap.get? s.chans n with
  | none => s
  | some ch =>
    if p.pktMode ≠ 0 || !p.dtmfRelay then withChan n (fun c => { c with relay := [] }) s
    else
      let clock := match rtp? s p.pktRef with | some x => x.evTs | none => 0
      let step := fun (acc : List Relay × State) (e : Relay) =>
        let (r, t) := relayStep p (clock + 80 - e.ts).toNat e acc.2
        (acc.1 ++ r.toList, t)
      let (l, s1) := ch.relay.foldl step ([], s)
      withChan n (fun c => { c with relay := l }) s1

/-! ### Frames at DECODE (R50, R66, R92, R97, R101) -/

/-- New parameters take effect at a frame (R50): the relay's dependency, and where codec, options or preset change, the windows
of repair close (R102). Units stay those of G.711 in voiceband data (R66). Codec and echo state, conversions and detectors
follow from the frame's own parameters. -/
def applyParams (n : Nat) (q : ChanParams) (s : State) : State :=
  match FMap.get? s.chans n with
  | none => s
  | some ch =>
    let codecChange : Bool := q.codec ≠ ch.codecNow
    let vbd : Bool := ch.vbd && !codecChange
    let same : Bool := q.codecOpts (q.codecIn vbd) = ch.p.codecOpts ch.codecNow && q.preset = ch.p.preset
    let s1 := withChan n (fun c =>
      { c with p := q, next := none, vbd, vbdPending := c.vbdPending && !codecChange
               units := unitsOf (if vbd then { q with codec := 0 } else q) }) s
    let s2 := if q.pktMode = 0 && !same then closeWindows q.pktRef s1 else s1
    withFlow n (fun fl => { fl with nodes := voiceNodes q.dtmfRelay, deadline := voiceDeadline s q.dtmfRelay }) s2

/-- The switch to voiceband data takes effect at a frame boundary (R66). -/
def applyVbd (n : Nat) (s : State) : State :=
  match FMap.get? s.chans n with
  | none => s
  | some ch =>
    if !ch.vbdPending then s
    else
      let codec := ch.p.codecIn true
      let s1 := withChan n (fun c =>
        { c with vbd := true, vbdPending := false, p := { c.p with codec }, units := unitsOf { c.p with codec := 0 } }) s
      if codec ≠ ch.p.codec then closeWindows ch.p.pktRef s1 else s1

/-- A frame of line octets taken from those that have come, filled up with the idle code (R31, R43). The first frame takes the
newest ones; of a later one, octets that come too late are dropped. -/
def takeLine (c : Chan) : Bytes × Chan :=
  let n := 80 * groupSlots c.p.lineMode
  let idle : Byte := match c.p.lineMode with | 0 => 0xD5 | 1 => 0xFF | _ => 0
  if c.frame = 0 then
    let d := c.line.drop (c.line.length - n)
    (List.replicate (n - d.length) idle ++ d, { c with line := [], lineOwed := 0 })
  else
    let d := c.line.take n
    (d ++ List.replicate (n - d.length) idle, { c with line := c.line.drop n, lineOwed := n - d.length })

/-- Octets of the line come in for a channel. -/
def Chan.lineIn (c : Chan) (d : Bytes) : Chan := { c with line := c.line ++ d.drop c.lineOwed, lineOwed := c.lineOwed - d.length }

/-- A frame begins: it takes its line input and the events that wait for it. `decided` says that nothing is to be played. -/
def beginFrame (n k : Nat) (decided : Bool) (s : State) : State :=
  match FMap.get? s.chans n with
  | none => s
  | some ch =>
    let (d, c1) := takeLine ch
    let f : VFrame :=
      { num := k, p := ch.p, vbd := ch.vbd, at_ := now s, decided, plays := []
        sendFlags := 4 * b2n ch.p.muteSend + 16 * b2n ch.vbd, recvFlags := 4 * b2n ch.p.muteRecv + 16 * b2n ch.vbd
        send := lineSamples ch.p.lineMode d, recv := [], unset := 0, before := none, echoed := false, single := false
        obs := none, digit := false, recvDone := false, coded := [], events := ch.events }
    { s with chans := FMap.set s.chans n { c1 with frame := k + 1, events := [], begun := ch.begun ++ [f] } }

/-- Frames before one whose DECODE is void without having been dispatched begin all the same: their time passes. -/
def passFrames (n k : Nat) (s : State) : State :=
  match FMap.get? s.chans n, flow? s n with
  | some ch, some fl =>
    ((fl.insts.map (·.num)).filter (fun i => decide (ch.frame ≤ i) && decide (i < k))).foldl (fun t i => beginFrame n i true t) s
  | _, _ => s

/-- DECODE of a frame is dispatched: waiting parameters take effect and the frame begins. The playout's decision follows (R97);
that of a push-to-talk channel is taken at once. -/
def decodeStart (n k : Nat) (s : State) : State :=
  let s0 := passFrames n k s
  let s1 := applyVbd n (match (FMap.get? s0.chans n).bind (·.next) with | some q => applyParams n q s0 | none => s0)
  let s2 := beginFrame n k false s1
  if (FMap.get? s2.chans n).any (fun ch => ch.p.pktMode != 0) then decidePlay n s2 else s2

/-- A frame of a channel, and a change to it. -/
def Chan.frame? (c : Chan) (k : Nat) : Option VFrame := c.begun.find? (fun f => f.num == k)
def Chan.putFrame (c : Chan) (f : VFrame) : Chan := { c with begun := c.begun.map (fun g => if g.num = f.num then f else g) }

/-- A step of a channel on one of its frames. -/
def onFrame (n k : Nat) (g : Chan → VFrame → Chan × VFrame) (s : State) : State :=
  withChan n (fun c => match c.frame? k with | some f => let r := g c f; r.1.putFrame r.2 | none => c) s

/-- A DECODE that ended void without a result leaves the decoder as it was before (R241, R265): the state of a frame that has
been decided on is put back, unless a later one has been. -/
def settleDecode (n k : Nat) (s : State) : State :=
  match (FMap.get? s.chans n).bind (·.frame? k), opAt s n k 0 with
  | some f, some o =>
    if o.voided && o.out.isNone && o.st != .dispatched then
      withChan n (fun c =>
        match f.before with
        | some (d, x) => ({ c with dec := d, fdcRecv := x }).putFrame { f with before := none }
        | none => c) s
    else s
  | _, _ => s

/-- The playout's decision for the frame begun last, on what the frames before it have left (R97). -/
def decideNow (n : Nat) (s : State) : State :=
  match (FMap.get? s.chans n).bind (fun c => c.begun.getLast?) with
  | some f => if f.decided then s else decidePlay n (settleDecode n (f.num - 1) s)
  | none => s

/-! ### Releases of a frame's ops (R61 to R78) -/

/-- ECHO of a frame, once (R46: with dtmf_relay it may be needed before the op releases). -/
def echoStep (n k : Nat) (s : State) : State := onFrame n k (fun c f => if f.echoed then (c, f) else echoFrame c f) s

/-- ECHO and the measurements of a frame, once. -/
def measureStep (n k : Nat) (s : State) : State :=
  onFrame n k (fun c f => if f.obs.isSome then (c, f) else detectFrame c f) (echoStep n k s)

/-- Both directions below −36 dBm0: the blocks of it so far (R65). -/
def quietBlock (n : Nat) (o : VoiceObs) (i : Nat) (s : State) : State :=
  let low := fun (l : List BlockObs) => match l[i]? with | some b => decide (b.level < -3600) | none => true
  withChan n (fun c => { c with quiet := if low o.send && low o.recv then c.quiet + 1 else 0 }) s

/-- One of the two blocks of a frame, both directions of it. -/
def detectStep (n k : Nat) (p : ChanParams) (o : VoiceObs) (s : State) (i : Nat) : State :=
  let s0 := quietBlock n o i s
  let s1 := match o.send[i]? with | some b => detectBlock n k i p false b s0 | none => s0
  match o.recv[i]? with | some b => detectBlock n k i p true b s1 | none => s1

/-- A frame of line output goes to the port's crossing (R43): one octet, or for LIN16W four, of each 125 µs. -/
def lineOut (n : Nat) (x : List Int) (s : State) : State :=
  match FMap.get? s.chans n with
  | none => s
  | some c =>
    let d := lineOctets c.p.lineMode x
    let w := groupSlots c.p.lineMode
    (List.range w).foldl (fun t j => pushSlot c.p.port (c.p.slot + j) ((List.range 80).map (fun f => d.getD (w * f + j) 0)) t) s

/-- LEVEL of the receive direction of a frame, once: the line output. -/
def receiveStep (n k : Nat) (s : State) : State :=
  match (FMap.get? s.chans n).bind (·.frame? k) with
  | none => s
  | some f =>
    if f.recvDone then s
    else
      let s1 := onFrame n k levelRecv s
      match (FMap.get? s1.chans n).bind (·.frame? k) with | some g => lineOut n g.recv s1 | none => s1

/-- DETECT of a frame: detectors that are off now, the blocks in order, then the event packets that fall at its end. With
dtmf_relay the receive direction, which is not delayed, goes on to the line here (R46). -/
def detectDone (n k : Nat) (s : State) : State :=
  let s1 := measureStep n k s
  match FMap.get? s1.chans n, (FMap.get? s1.chans n).bind (·.frame? k) with
  | some c, some f =>
    match f.obs with
    | none => s1
    | some o =>
      let s2 := [0, 1].foldl (detectStep n k f.p o) (switchOff n f.p s1)
      let s3 := onFrame n k (fun d g => (d, { g with digit := digitOn c || digitOn d || o.send.any (fun b => (candidate b).isSome) })) s2
      let s4 := relayPackets n f.p s3
      if f.p.dtmfRelay then receiveStep n k s4 else s4
  | _, _ => s1

/-- Whether the send samples of a frame are muted under R73: a candidate block or a digit in progress in the frame or in
the next one, whose DETECT has completed. -/
def dtmfMuted (c : Chan) (f : VFrame) : Bool :=
  f.p.dtmfRelay && (f.digit || digitOn c ||
    (match (c.frame? (f.num + 1)).bind (·.obs) with
     | some o => o.send.any (fun b => (candidate b).isSome)
     | none => false))

/-- Whether the DETECT of a frame has ended with a result. -/
def detected (s : State) (n k : Nat) : Bool :=
  match opAt s n k 2 with | some o => o.ended && !o.voided && o.status ≠ 2 | none => false

/-- The record of a frame (R110, R336): its samples of both directions where its parameters record it, else an open segment
closes. -/
def recordStep (n k : Nat) (f : VFrame) (sendFlags recvFlags : Nat) (send recv : List Int) (s : State) : State :=
  match FMap.get? s.chans n with
  | none => s
  | some ch =>
    let len := 10 * f.p.lineKhz
    if f.p.record then
      recordFrame n (ch.dueOf s k) (devOf s (frameStart s ch k))
        { sendFlags, recvFlags, send := fitTo len send, recv := fitTo len recv } s
    else if ch.segData.isEmpty then s else closeSegment n true s

/-- LEVEL of a frame, and the record of it (R67, R68, R73, R110). -/
def levelDone (n k : Nat) (s : State) : State :=
  let relay : Bool := ((FMap.get? s.chans n).bind (·.frame? k)).any (fun f => f.p.dtmfRelay)
  let s1 := if relay && detected s n (k + 1) then measureStep n (k + 1) s else s
  match FMap.get? s1.chans n, (FMap.get? s1.chans n).bind (·.frame? k) with
  | some c, some f =>
    let muted := dtmfMuted c f
    let s2 := receiveStep n k (onFrame n k (levelSend muted) s1)
    match (FMap.get? s2.chans n).bind (·.frame? k) with
    | none => s2
    | some g =>
      let filt := sendFilter f.p f.vbd
      let unset : Bool := c.fdcSend.filter != filt && filt.unsettled != 0
      recordStep n k g (g.sendFlags + 2 * b2n unset + 8 * b2n muted) (g.recvFlags + 2 * b2n (g.unset != 0)) g.send g.recv s2
  | _, _ => s1

/-- ENCODE of a frame; frames gathered under another codec are dropped (log entry 103). -/
def encodeDone (n k : Nat) (s : State) : State :=
  onFrame n k (fun c f =>
    let c1 := if c.enc.opts.head? = some (f.p.codecIn f.vbd) then c else { c with acc := [], dtx := 0 }
    encodeFrame c1 f) s

/-! ### Packets (R54, R55, R57, R89, R212) -/

/-- Send gathered frames as audio packets of a packet period each (R54), the last frame being the one in hand; what is left over
stays gathered. -/
def sendPeriods (n : Nat) (f : VFrame) (x : Rtp) (fuel : Nat) (l : List Bytes) (s : State) : State :=
  match fuel, FMap.get? s.chans n with
  | k + 1, some c =>
    if l.length < f.p.ptime || f.p.ptime = 0 then withChan n (fun d => { d with acc := l }) s
    else
      let codec := f.p.codecIn f.vbd
      let ts := x.txTs - BitVec.ofNat 32 ((l.length - 1) * audioUnits codec)
      let frames := l.take f.p.ptime
      let half : Bool := f.p.opusFrame
      let d := if codec = 5 then
          opusPacket f.p.opusBw half (if half then (frames.zipIdx.filter (fun e => e.2 % 2 == 1)).map (·.1) else frames)
        else frames.flatten
      sendPeriods n f x k (l.drop f.p.ptime) (withChan n (fun d => { d with mark := false })
        (rtpSend f.p.pktRef (if f.vbd then f.p.vbdPt else x.p.audioPt) c.mark ts d s))
  | _, _ => s

/-- Send the frames gathered so far, a period or less, with what ends a talkspurt after them; `back` is how many frames the
last of them lies before the one in hand. -/
def flushAudio (f : VFrame) (x : Rtp) (mark : Bool) (l : List Bytes) (back : Nat) (s : State) : State :=
  if l.isEmpty then s
  else
    let codec := f.p.codecIn f.vbd
    let whole := if codec = 5 && f.p.opusFrame then (l.zipIdx.filter (fun e => e.2 % 2 == 1)).map (·.1) else l
    let ts := x.txTs - BitVec.ofNat 32 ((l.length - 1 + back) * audioUnits codec)
    if whole.isEmpty then s
    else rtpSend f.p.pktRef (if f.vbd then f.p.vbdPt else x.p.audioPt) mark ts
      (if codec = 5 then opusPacket f.p.opusBw f.p.opusFrame whole else whole.flatten) s

/-- A silence begins: the frames gathered before the frame in hand go out, and the next audio packet carries the marker. -/
def beginSilence (n : Nat) (c : Chan) (f : VFrame) (x : Rtp) (s : State) : State :=
  if c.mark && c.acc.isEmpty then s
  else withChan n (fun d => { d with mark := true, acc := [], dtx := 0 }) (flushAudio f x c.mark c.acc 1 s)

/-- A comfort-noise frame of G.711 Appendix II (R55): at the start of a silence and when the noise level has changed by
3 dB or more, unless cn_off is set. -/
def noiseFrame (n : Nat) (c : Chan) (f : VFrame) (x : Rtp) (starts : Bool) (s : State) : State :=
  let lvl := c.bg.level (10 * f.p.lineKhz)
  if !x.p.cnOff && (starts || 300 ≤ (lvl - c.noiseSent).natAbs) then
    withChan n (fun d => { d with noiseSent := lvl }) (rtpSend f.p.pktRef x.p.cnPt false x.txTs (noisePayload c.bg lvl) s)
  else s

/-- A frame of Opus in silence (R55): every 400 ms one is sent, with no marker. -/
def opusSilence (n : Nat) (c : Chan) (f : VFrame) (x : Rtp) (s : State) : State :=
  let t := c.dtx + 1
  if 40 ≤ t && !f.coded.isEmpty then
    withChan n (fun d => { d with dtx := 0 })
      (rtpSend f.p.pktRef x.p.audioPt false (x.txTs - BitVec.ofNat 32 (480 * b2n f.p.opusFrame)) (opusPacket f.p.opusBw f.p.opusFrame [f.coded]) s)
  else withChan n (fun d => { d with dtx := t }) s

/-- PACK of a frame of an RTP channel (R54, R55). -/
def packRtp (n : Nat) (c : Chan) (f : VFrame) (s : State) : State :=
  match rtp? s f.p.pktRef with
  | none => s
  | some x =>
    let codec := f.p.codecIn f.vbd
    let silent : Bool := f.p.vad && c.silence && !f.vbd
    let full := fun (t : State) => sendPeriods n f x (c.acc.length + 2) (c.acc ++ [f.coded]) t
    if codec ≤ 1 && silent then noiseFrame n c f x (!c.mark) (beginSilence n c f x s)
    else if codec = 5 && silent then
      match FMap.get? (beginSilence n c f x s).chans n with
      | some d => opusSilence n d f x (beginSilence n c f x s)
      | none => s
    else if codec = 3 && f.coded.isEmpty then beginSilence n c f x s
    else if codec = 3 && f.coded.length = 2 then
      withChan n (fun d => { d with mark := true, acc := [] }) (flushAudio f x (c.mark && !c.acc.isEmpty) (c.acc ++ [f.coded]) 0 s)
    else full s

/-- PACK of a frame of a push-to-talk channel (R212): one frame for each packet period with what was coded in it. -/
def packPtt (n k : Nat) (c : Chan) (f : VFrame) (s : State) : State :=
  let acc := c.acc ++ (if f.coded.isEmpty then [] else [f.coded])
  if (k + 1) % f.p.ptime ≠ 0 then withChan n (fun c => { c with acc }) s
  else
    let voice := (acc.filter (fun b => b.length == 10)).flatten
    let sid := match acc.getLast? with | some b => if b.length = 2 then b else [] | none => []
    let s1 := withChan n (fun c => { c with acc := [] }) s
    if (voice ++ sid).isEmpty then s1 else pttSend f.p.pktRef (voice ++ sid) s1

/-- The clocks of an RTP channel go on by a frame (R89). -/
def stepClocks (f : VFrame) (s : State) : State :=
  if f.p.pktMode = 0 then
    withRtp f.p.pktRef (fun x =>
      { x with txTs := x.txTs + BitVec.ofNat 32 (audioUnits (f.p.codecIn f.vbd)), evTs := x.evTs + 80 }) s
  else s

/-- PACK of a frame; a void one sends nothing and drops what was gathered (R30). -/
def packDone (n k : Nat) (good : Bool) (s : State) : State :=
  match FMap.get? s.chans n, (FMap.get? s.chans n).bind (·.frame? k) with
  | some c, some f =>
    stepClocks f
      (if !good then withChan n (fun c => { c with acc := [] }) s
       else if f.p.pktMode = 0 then packRtp n c f s else packPtt n k c f s)
  | _, _ => s

/-- Concealment samples of the miss node at the line rate (R30, R56). -/
def missSamples (c : Chan) (f : VFrame) : List Int :=
  fitTo (10 * f.p.lineKhz) ((Config.media Mk.conceal [(f.p.lineKhz : Int)] c.dec.st []).1.map sat18)

/-- The miss node of a frame (R30, R31, R110): it plays concealment where LEVEL was void, a gap in the packets counts, and the
frame is recorded as it was sent to the line, with no send samples. -/
def missDone (n k : Nat) (ran levelVoid packVoid : Bool) (s : State) : State :=
  match FMap.get? s.chans n, (FMap.get? s.chans n).bind (·.frame? k) with
  | some c, some f =>
    let s1 := if packVoid && f.p.pktMode = 0 then bump .conceal n s else s
    if !levelVoid then s1
    else if f.recvDone then recordStep n k f (f.sendFlags + 32) (f.recvFlags + 2 * b2n (f.unset != 0)) [] f.recv s1
    else if ran then
      let x := if f.p.muteRecv then [] else missSamples c f
      recordStep n k f (f.sendFlags + 32) (f.recvFlags + b2n (!bit f.recvFlags 0)) [] x
        (lineOut n (fitTo (10 * f.p.lineKhz) x) (bump .conceal n s1))
    else recordStep n k f (f.sendFlags + 32) (f.recvFlags + 32) [] [] s1
  | _, _ => s

/-- The events that wait for a frame reach the host (R111). -/
def frameEvents (n k : Nat) (s : State) : State :=
  match FMap.get? s.chans n, (FMap.get? s.chans n).bind (·.frame? k) with
  | some c, some f =>
    f.events.foldl (fun t e => raise e.1 (some c.ring) e.2 t) (onFrame n k (fun d g => (d, { g with events := [] })) s)
  | _, _ => s

/-- A frame is over: its last op has released. -/
def frameOver (n k : Nat) (s : State) : State :=
  withChan n (fun c => { c with begun := c.begun.filter (fun f => f.num != k) }) (settleDecode n k s)

/-! ### The end of a channel (R51, R108, R335) -/

/-- The counters of a voice channel and its flow. -/
def chanCtrs : List Ctr :=
  [.dtmfReject, .ecDisable, .conceal, .jbGrow, .jbShrink, .recSeg, .recDrop, .ecStateLost, .opCancel, .voidDrop, .windowStall,
   .specDiscard]

/-- The parameters a channel will have once what waits has taken effect. -/
def Chan.ahead (c : Chan) : ChanParams := c.next.getD c.p

/-- Whether parameters hold a place of a long tail, and one of Opus (R3, R57, R59). -/
def ChanParams.longTail (p : ChanParams) : Bool := 16 < p.tail
def ChanParams.opus (p : ChanParams) : Bool := p.pktMode = 0 && p.codec = 5

/-- Channel units and places of a long tail and of Opus that the channels hold. -/
def unitsHeld (s : State) : Nat × Nat × Nat :=
  ((s.chans.map (fun e => e.2.units)).sum, (s.chans.filter (fun e => e.2.ahead.longTail)).length,
   (s.chans.filter (fun e => e.2.ahead.opus)).length)

/-- Entries of a CPL ring whose write fails (R399). -/
def waitingCpl (s : State) (n : Nat) : List Bytes := match ring? s n with | some r => r.pendW | none => []

/-- Capacity that a command gave up counts as in use until its completion is written (R5). -/
def holdFreed (cpl : Nat) (before after : State) : State :=
  let a := unitsHeld before
  let b := unitsHeld after
  let l := waitingCpl after cpl
  let f : Freed := ⟨cpl, l.getLast?.getD [], a.1 - b.1, a.2.1 - b.2.1, a.2.2 - b.2.2⟩
  if (waitingCpl before cpl).length < l.length && (f.units, f.long, f.opus) != (0, 0, 0) then
    { after with freed := after.freed ++ [f] }
  else after

/-- A channel has stopped: tones in progress end truncated, RTCP says BYE, the recording segment closes, and number, units
and flow are free. -/
def closeChannel (n : Nat) (s : State) : State :=
  match FMap.get? s.chans n with
  | none => s
  | some ch =>
    let s0 := (ch.begun.flatMap (·.events) ++ ch.events).foldl (fun t e => raise e.1 (some ch.ring) e.2 t) s
    let s1 := (ch.tones.filter (·.on)).foldl (fun t r => endRun n r true t) s0
    let s2 := if ch.p.pktMode = 0 then restartStream ch.p.pktRef (dropCandidate ch.p.pktRef (rtcpSend ch.p.pktRef true s1)) else s1
    let s3 := closeSegment n true s2
    let s4 := dropMisses n (dropCounters chanCtrs n { s3 with
      chans := FMap.del s3.chans n, fsc := { s3.fsc with flows := FMap.del s3.fsc.flows (rebuildFlow n) } })
    finishFlushes (match ch.releasing with | some (r, h) => holdFreed h.cpl s (completeHeld r h St.ok [] s4) | none => s4)

end Sys2Proof.Machine
end

