-- ==== Sys2Proof/Machine/FscRounds.lean ====
section
/-! DEFINITION. The ordering point: confirmations and refutations, completions, releases, cancellations, arrivals and
readiness, in the order of one arbitration round (R253, R258 to R292). -/

namespace Sys2Proof.Machine

open Sys2Proof

/-! ### Staged items (R261, R299) -/

/-- Whether a staged item is that of an op. -/
def Staged.of (e : Staged) (f i d : Nat) : Bool := e.flow == f && e.inst == i && e.node == d

/-- The staged item of an op is discarded and its cells freed. -/
def freeStaged (f i d : Nat) (s : State) : State :=
  let mine := s.qmg.staged.filter (fun e => e.of f i d)
  mine.foldl (fun t e => returnCells (queueClass t e.queue) e.item.cells e.item.ext e.item.tether t)
    (withQmg (fun q => { q with staged := q.staged.filter (fun e => !e.of f i d) }) s)

/-- The staged item of an op loses its tether bit: its cells count for the queue's class (R284, R285). -/
def untether (f i d : Nat) (s : State) : State :=
  let mine := s.qmg.staged.filter (fun e => e.of f i d && e.item.tether)
  mine.foldl (fun t e =>
    let c := queueClass t e.queue
    allocCells c e.item.cells e.item.ext false (returnCells c e.item.cells e.item.ext true t))
    (withQmg (fun q => { q with staged := q.staged.map (fun e =>
      if e.of f i d then { e with item := { e.item with tether := false } } else e) }) s)

/-- The staged item of an op is linked at the tail of its queue (R299). -/
def linkStaged (f i d : Nat) (s : State) : State :=
  let mine := s.qmg.staged.filter (fun e => e.of f i d)
  mine.foldl (fun t e => linkItem e.queue e.item t) (withQmg (fun q => { q with staged := q.staged.filter (fun e => !e.of f i d) }) s)

/-! ### Missed instances and faults (R30, R241, R265) -/

/-- An instance misses its deadline: it counts once, for its class and for its flow. -/
def missInstance (f i : Nat) (s : State) : State :=
  match (flow? s f).bind (fun fl => (fl.inst? i).map (fun x => (fl, x))) with
  | none => s
  | some (fl, x) =>
    if x.missed then s
    else bumpN .deadlineMiss f 1 1 (bump .deadlineMiss fl.cls (withInst f i (fun y => { y with missed := true }) s))

/-- A fault takes effect: it counts and is reported, the op is void, and its instance is handled as missed. -/
def applyFault (f i d n : Nat) (k : FaultKind) (pc : Nat) (s : State) : State :=
  match flow? s f, opAt s f i d with
  | some fl, some o =>
    let s1 := noteFault n k (fl.node d).kernel pc s
    let s2 := withOp f i d (fun o =>
      { o with st := .void, status := if o.voided then o.status else 4, heldFault := none, out := none }) s1
    if fl.deadline = 0 || o.voided then s2 else missInstance f i s2
  | _, _ => s

/-! ### Confirmation and refutation (R285, R286, R289) -/

/-- Versions of a node after a root is confirmed: those at the front without roots become the committed state. -/
def settleVersions (f d : Nat) (s : State) : State :=
  withFlow f (fun fl =>
    let l := FMap.getD fl.versions d []
    let front := l.takeWhile (fun v => v.roots.isEmpty)
    let rest := l.dropWhile (fun v => v.roots.isEmpty)
    { fl with committed := match front.getLast? with | some v => FMap.set fl.committed d v.lines | none => fl.committed
              versions := if rest.isEmpty then FMap.del fl.versions d else FMap.set fl.versions d rest }) s

/-- A root is confirmed (R285): it leaves every set, items and versions left without roots are no longer tethered, and a
fault held only by it takes effect. -/
def confirmRoot (f : Nat) (r : Root) (s : State) : State :=
  match flow? s f with
  | none => s
  | some fl =>
    let freed := fl.order.filter (fun e => e.2.roots.contains r && e.2.roots.all (fun q => q == r))
    let s1 := withOps f (fun x o =>
      { o with roots := o.roots.filter (fun q => q != r), isRoot := o.isRoot && !(x.num == r.inst && o.node == r.node) }) s
    let s2 := withFlow f (fun g => { g with versions := FMap.mapV g.versions (fun _ l =>
      l.map (fun v => { v with roots := v.roots.filter (fun q => q != r) })) }) s1
    let s3 := (List.range 12).foldl (fun t d => settleVersions f d t) s2
    freed.foldl (fun t e =>
      let u := untether f e.1.num e.2.node t
      match e.2.heldFault with
      | some (k, pc) => applyFault f e.1.num e.2.node e.2.vpe k pc u
      | none => u) s3

/-- One op after its root set has been refuted (R286, R291): the root is skipped, or, at a missed deadline, waits again; a
carrier waits again; what still runs is discarded when it completes; a void op stays void. -/
def refutedOp (r : Root) (back : Bool) (x : Inst) (o : Op) : Op :=
  if !o.roots.contains r then o
  else
    let own : Bool := x.num = r.inst && o.node = r.node
    let clean := { o with roots := [], out := none, heldFault := none, wait := none, limited := false
                          isRoot := o.isRoot && !own }
    if o.voided then clean
    else if own && !back then { clean with st := .skipped, status := 2, ran := false, loc := .none }
    else if o.st = .dispatched then { o with stale := true, isRoot := o.isRoot && !own }
    else { clean with st := .pending, ran := false, loc := .none }

/-- A root is refuted (R286): every carrier is discarded in one step with one count. -/
def refuteRoot (f : Nat) (r : Root) (back : Bool) (s : State) : State :=
  match flow? s f with
  | none => s
  | some fl =>
    let carriers := fl.order.filter (fun e => e.2.roots.contains r)
    let held : Bool := carriers ≠ [] || fl.versions.any (fun e => e.2.any (fun v => v.roots.contains r))
    if !held then s
    else
      let s1 := bump .specDiscardClass fl.cls (bump .specDiscard f s)
      let s2 := carriers.foldl (fun t e => freeStaged f e.1.num e.2.node t) s1
      let s3 := withFlow f (fun g => { g with versions := (FMap.mapV g.versions (fun _ l =>
        l.takeWhile (fun v => !v.roots.contains r))).filter (fun e => !e.2.isEmpty) }) s2
      withOps f (refutedOp r back) s3

/-- Step 1 of a round. -/
def judgeEvent (s : State) (e : Presented) : State :=
  match e with
  | .confirm f r => confirmRoot f r s
  | .refute f r => refuteRoot f r false s
  | _ => s

/-! ### Completions (R246, R258, R280) -/

/-- Reserve the cells of an op's output and stage it; `none` when the reservation is refused. The item of a voice channel's op holds its
cells while the op is complete and not released (`voiceCells`). -/
def stageOutput (f i d : Nat) (out : Bytes) (tether : Bool) (s : State) : Option State :=
  match flow? s f with
  | none => some s
  | some fl =>
    let q := (fl.node d).outQ
    let own := match FMap.get? s.chans f with | some c => voiceItem c.p d | none => 0
    if (txOfFlow f).isSome then
      (match (txOfFlow f).bind (fun n => (txc? s n).bind (fun c => (toBuild s n).map (symbolCells c.preamble))) with
       | some n => if (choosePool s 2 0 n tether).isNone then none else some s
       | none => some s)
    else if 0 < own then (if (choosePool s 1 0 (cellsOf own) tether).isNone then none else some s)
    else if q = 0xFFFF || out.isEmpty then some s
    else
      match queue? s q with
      | none => some s
      | some k =>
        let n := cellsOf out.length
        if overLimit s q n then none
        else
          match choosePool s k.cls k.placement n tether with
          | none => none
          | some ext =>
            let e : Staged := { flow := f, inst := i, node := d, queue := q, item := ⟨out, ext, tether⟩ }
            some (withQmg (fun m => { m with staged := m.staged ++ [e] }) (allocCells k.cls n ext tether s))

/-- State written back: the committed lines, or a new version with the op's roots. -/
def writeBack (f d : Nat) (lines : List (BitVec 72)) (roots : List Root) (s : State) : State :=
  if lines.isEmpty then s
  else
    withFlow f (fun fl =>
      if roots.isEmpty then { fl with committed := FMap.set fl.committed d lines, versions := FMap.del fl.versions d }
      else { fl with versions := FMap.set fl.versions d (FMap.getD fl.versions d [] ++ [⟨roots, lines⟩]) }) s

/-- An op that has run with a result ends: output staged, state written back; without cells for its output it waits
(R20), and a refusal by max_cells counts once. -/
def finishOp (f i d : Nat) (res : OpRes) (s : State) : State :=
  match flow? s f, opAt s f i d with
  | some fl, some o =>
    if o.voided then
      withOp f i d (fun p => { p with st := .completed, wait := none, out := none, roots := [] }) (freeStaged f i d s)
    else
      match stageOutput f i d res.out (!o.roots.isEmpty) s with
      | none =>
        let q := (fl.node d).outQ
        let counts : Bool := !o.limited && overLimit s q (cellsOf res.out.length)
        withOp f i d (fun p => { p with wait := some res, limited := p.limited || counts }) (bumpN .qLimit q 0 (b2n counts) s)
      | some s1 =>
        writeBack f d res.state o.roots (withOp f i d (fun p =>
          { p with st := .completed, wait := none, out := some res.out, predOut := res.pred }) s1)
  | _, _ => s

/-- A completion is recorded (R258): a discarded op waits again or is gone, a fault takes effect or is held (R289). -/
def completeEvent (s : State) (e : Presented) : State :=
  match e with
  | .complete n f i d res =>
    match opAt s f i d with
    | none => s
    | some o =>
      if o.st ≠ .dispatched || o.vpe ≠ n then s
      else if o.stale then
        withOp f i d (fun p => { p with st := .pending, ran := false, stale := false, roots := [], loc := .none, out := none
                                        heldFault := none, wait := none }) s
      else
        match res.fault with
        | none => finishOp f i d res s
        | some k =>
          let pc := (vpeAt s n).pc
          if o.roots.isEmpty || k = .memUe || (k = .illegal && (vpeAt s n).progBad) then applyFault f i d n k pc (freeStaged f i d s)
          else withOp f i d (fun p => { p with st := .completed, heldFault := some (k, pc), out := none }) s
  | _ => s

/-- Ops whose output waits for cells try again. -/
def retryOutputs (s : State) : State :=
  ((allOps s).filter (fun e => e.2.2.2.wait.isSome)).foldl (fun t e =>
    match e.2.2.2.wait with
    | some res => finishOp e.1 e.2.2.1.num e.2.2.2.node res t
    | none => t) s

/-! ### Releases (R260 to R263, R266, R275, R276) -/

/-- Whether the other ops of an instance have ended with nothing tethered, so that a miss node is not needed (R266). -/
def othersDone (fl : Flow) (x : Inst) : Bool :=
  x.ops.all (fun o => fl.miss == some o.node || (o.ended && o.roots.isEmpty))

/-- Whether the op at the head of the release order can release, given as its state then. -/
def releasable (fl : Flow) (x : Inst) (o : Op) : Option Op :=
  if o.st = .skipped then some o
  else if o.st = .void || (o.st = .completed && o.voided) then some o
  else if o.st = .completed && o.roots.isEmpty && o.heldFault.isNone then
    some { o with status := if fl.miss = some o.node then 7 else if x.missed then 6 else 0 }
  else if fl.miss = some o.node && o.waiting && !x.missed && othersDone fl x then some { o with st := .skipped, status := 2 }
  else none

/-- The item of a void or skipped op is dropped, or owed to it until it arrives (R263). -/
def dropInput (f i d : Nat) (s : State) : State :=
  match flow? s f, opAt s f i d with
  | some fl, some o =>
    let q := (fl.node d).inQ
    if q = 0xFFFF then s
    else if o.item.isSome then (if o.ran then s else bump .voidDrop f s)
    else
      let at_ := claimsBefore fl i d q
      match (queue? s q).bind (fun k => k.items[at_]?) with
      | some _ => dropItem f q at_ s
      | none => withFlow f (fun g => { g with owed := FMap.set g.owed q (FMap.getD g.owed q 0 + 1) }) s
  | _, _ => s

/-- Body of INSTANCE_DONE (R276). -/
def instanceBody (f : Nat) (x : Inst) (tick : Nat) : Bytes :=
  padTo 48 (toLE 2 f ++ zeros 2 ++ toLE 4 x.num ++ toLE 4 x.due ++ toLE 4 tick ++
    padTo 12 (x.ops.map (fun o => BitVec.ofNat 8 (o.status + 16 * b2n o.ran))))

/-- What a released op of a voice channel's flow does (R45): its work on the frame, or what follows from its being void. -/
def voiceRelease (n i d : Nat) (o : Op) (s : State) : State :=
  let good : Bool := !o.voided && o.status ≠ 2
  let void := fun (j : Nat) => match opAt s n i j with | some p => p.voided | none => false
  match d with
  | 0 => frameEvents n i (if good then decideNow n s else passFrames n (i + 1) s)
  | 1 => if good then echoStep n i s else s
  | 2 => if good then detectDone n i s else s
  | 3 => if good then levelDone n i s else s
  | 4 => if good then encodeDone n i s else s
  | 5 => if o.status = 1 then s else packDone n i good s
  | _ => frameOver n i (if o.status = 1 then s else missDone n i good (void 3) (void 5) s)

/-- A rebuild op has released: its completion is recorded (R101). -/
def rebuildEnd (n : Nat) (good : Bool) (s : State) : State :=
  match FMap.get? s.chans n with | some ch => if good then rebuildDone ch.p.pktRef s else s | none => s

/-- The last op of an instance has released: its report, and the end of the instance. -/
def endInstance (f i : Nat) (s : State) : State :=
  match (flow? s f).bind (fun fl => (fl.inst? i).map (fun x => (fl, x))) with
  | none => s
  | some (fl, x) =>
    if x.ops.all (fun o => o.st == .released) then
      let s1 := if fl.host && fl.report then raise Ev.instanceDone (some fl.ring) (instanceBody f x s.clk.tick) s else s
      withFlow f (fun g => { g with insts := g.insts.filter (fun y => y.num != i) }) s1
    else s

/-- Release one op (R260): a good one crosses the tether line, of a void or skipped one everything is dropped. -/
def releaseOp (f i d : Nat) (o : Op) (s : State) : State :=
  let good : Bool := !o.voided && o.status ≠ 2
  let s1 := if good then linkStaged f i d s else dropInput f i d (freeStaged f i d s)
  let s2 := withOp f i d (fun p => { p with st := .released, status := o.status, loc := .none }) s1
  endInstance f i
    (if FMap.has s2.chans f then voiceRelease f i d o s2
     else
      match txOfFlow f with
      | some n => buildEnd n good s2
      | none => if 65536 ≤ f then rebuildEnd (f - 65536) good s2 else s2)

/-- The head of a flow's release order advances over every consecutive op that can release. -/
def releaseHead (f fuel : Nat) (s : State) : State :=
  match fuel with
  | 0 => s
  | n + 1 =>
    match flow? s f with
    | none => s
    | some fl =>
      match fl.order.find? (fun e => e.2.st != .released) with
      | none => s
      | some (x, o) =>
        match releasable fl x o with
        | some p => releaseHead f n (releaseOp f x.num o.node p s)
        | none => s

/-- A flow whose release has been taken ends when nothing of it is left (R271). -/
def finishFlow (f : Nat) (s : State) : State :=
  match flow? s f with
  | none => s
  | some fl =>
    match fl.releasing with
    | none => s
    | some (r, h) =>
      if !fl.insts.isEmpty then s
      else
        let s1 := withFsc (fun c => { c with flows := FMap.del c.flows f }) s
        if FMap.has s1.chans f then closeChannel f s1
        else completeHeld r h St.ok [] (dropMisses f (dropCounters [.opCancel, .voidDrop, .windowStall, .specDiscard] f s1))

/-- Step 3 of a round. -/
def releaseAll (s : State) : State :=
  (FMap.keys s.fsc.flows).foldl (fun t f =>
    finishFlow f (releaseHead f (match flow? t f with | some fl => fl.order.length | none => 0) t)) s

/-! ### Cancellation (R270, R273) -/

/-- Cancel one op: whether it became void, and the state. -/
def cancelOp (f i d : Nat) (s : State) : Bool × State :=
  match flow? s f, opAt s f i d with
  | some fl, some o =>
    if o.st = .released || o.st = .skipped || o.voided then (false, s)
    else
      let s1 := bump .opCancel f s
      let held : Bool := o.st = .completed && !o.roots.isEmpty
      let cut := fun (l : List Version) => l.takeWhile (fun v => v.roots != o.roots)
      let trim := fun (g : Flow) => { g with versions := (FMap.adj g.versions d cut).filter (fun e => !e.2.isEmpty) }
      let s2 := if held then
          withFlow f trim (freeStaged f i d (bump .specDiscardClass fl.cls (bump .specDiscard f s1)))
        else s1
      (true, withOp f i d (fun p =>
        { p with status := 1, st := if p.waiting then .void else p.st, loc := .none, heldFault := none
                 roots := if held then [] else p.roots, wait := none
                 stale := false }) (if o.wait.isSome then withOp f i d (fun p => { p with st := .completed }) s2 else s2))
  | _, _ => (false, s)

/-- Cancel the ops of an instance that a mask names; a mask of 0 names every node. -/
def cancelMask (f i : Nat) (mask : BitVec 12) (s : State) : Bool × State :=
  (List.range 12).foldl (fun a d =>
    if mask = 0 || mask.getLsbD d then
      let r := cancelOp f i d a.2
      (a.1 || r.1, r.2)
    else a) (false, s)

/-- Step 4 of a round. -/
def cancelEvent (s : State) (e : Presented) : State :=
  match e with
  | .cancel r h f i mask =>
    let c := cancelMask f i mask s
    completeHeld r h (if c.1 then St.ok else St.notPending) [] c.2
  | .cancelFlow f =>
    match flow? s f with
    | none => s
    | some fl => fl.insts.foldl (fun t x => (cancelMask f x.num 0 t).2) (stopIssue f s)
  | _ => s

/-! ### Arrivals and readiness (R253 to R256, R263, R268) -/

/-- An item that arrives for a void or skipped op that has released is dropped. -/
def dropOwed (f q fuel : Nat) (s : State) : State :=
  match fuel with
  | 0 => s
  | n + 1 =>
    match flow? s f, queue? s q with
    | some fl, some k =>
      if FMap.getD fl.owed q 0 = 0 || k.items.isEmpty then s
      else dropOwed f q n (withFlow f (fun g => { g with owed := FMap.set g.owed q (FMap.getD g.owed q 0 - 1) }) (dropItem f q 0 s))
    | _, _ => s

/-- Step 5 of a round. -/
def arrivals (s : State) : State :=
  let s1 := withFsc (fun c => { c with presented := c.presented.filter (fun e => match e with | .arrival _ => false | _ => true) }) s
  s1.fsc.flows.foldl (fun t e => e.2.owed.foldl (fun u o => dropOwed e.1 o.1 o.2 u) t) s1

/-- The conditions of R253 other than the predicate. -/
def inputsMet (s : State) (fl : Flow) (x : Inst) (o : Op) : Bool :=
  let nd := fl.node o.node
  let ended := fun (y : Inst) (d : Nat) => match y.op? d with | some p => p.ended | none => true
  itemThere s fl x.num o && (List.range 12).all (fun d => !(nd.dataDeps.getLsbD d || nd.orderDeps.getLsbD d) || ended x d) &&
  (!nd.statePrev || x.num = 0 || (match fl.inst? (x.num - 1) with | some y => ended y o.node | none => true)) &&
  (nd.fwdNode = 15 || (match fl.inst? (x.num + 1) with | some y => ended y nd.fwdNode | none => false))

/-- The value that a predicate has resolved to by now, with a draw where the spec names none: the predicate of a producer
that was skipped. -/
def resolveNow (s : State) (fl : Flow) (x : Inst) (o : Op) : Option Bool × State :=
  let nd := fl.node o.node
  if nd.predKind = 1 then
    match x.op? nd.predNode with
    | none => (some false, s)
    | some p =>
      if p.voided then (some false, s)
      else if p.st = .skipped then let d := drawBool s; (some d.1, d.2)
      else if p.ended && p.roots.isEmpty then (some p.predOut, s)
      else (none, s)
  else if itemThere s fl x.num o then (some true, s) else (none, s)

/-- A predicate resolves: the node remembers it, and an op dispatched before is confirmed or refuted in the next
round. -/
def resolvePred (f i d : Nat) (v : Bool) (s : State) : State :=
  match flow? s f, opAt s f i d with
  | some fl, some o =>
    let s1 := withFlow f (fun g => { g with lastPred := FMap.set g.lastPred d v })
      (withOp f i d (fun p => { p with pred := some v }) s)
    if o.isRoot then present (if v = (fl.node d).predSense then .confirm f ⟨i, d⟩ else .refute f ⟨i, d⟩) s1 else s1
  | _, _ => s

/-- Judge the open predicate of an op. -/
def judgePred (f i d : Nat) (s : State) : State :=
  match (flow? s f).bind (fun fl => (fl.inst? i).bind (fun x => (x.op? d).map (fun o => (fl, x, o)))) with
  | none => s
  | some (fl, x, o) =>
    if o.st = .released || !o.open_ (fl.node d) || (o.voided && !o.isRoot) then s
    else
      match resolveNow s fl x o with
      | (some v, t) => resolvePred f i d v t
      | (none, _) => s

/-- Whether a producer of an op's data is void. -/
def upstreamVoid (fl : Flow) (x : Inst) (o : Op) : Bool :=
  (dataNodes (fl.node o.node)).any (fun d => match x.op? d with | some p => p.voided | none => false)

/-- Whether an op may be dispatched before its predicate resolves (R254). -/
def maySpeculate (s : State) (fl : Flow) (x : Inst) (o : Op) : Bool :=
  let nd := fl.node o.node
  nd.spec && FMap.getD fl.lastPred o.node nd.predSense = nd.predSense && !x.missed && (fl.cls = 0 || inFlight s < 3584)

/-- Whether a waiting op is ready, skipped or neither: the state that R253 gives it. -/
def standing (s : State) (fl : Flow) (x : Inst) (o : Op) : OpSt :=
  let nd := fl.node o.node
  if nd.predKind ≠ 0 && o.pred.any (fun v => v != nd.predSense) then .skipped
  else if fl.miss = some o.node then (if x.missed && inputsMet s fl x o then .ready else .pending)
  else if !inputsMet s fl x o then .pending
  else if !o.open_ nd || maySpeculate s fl x o then .ready
  else .pending

/-- The list a newly ready op enters (R256, R266): its home VPE's, or the global one for a miss node and for a flow that
has too little slack. The spare's lists are not used. -/
def entryList (s : State) (fl : Flow) (o : Op) : OpLoc :=
  let low : Bool := fl.slack.any (fun v => decide (v < (paceThrNs s : Int)))
  if fl.miss = some o.node || low || !clusterRuns s (fl.homeVpe / 16) then .global else .vpe fl.homeVpe

/-- Whether a ready list has room for another entry (R268). -/
def entryRoom (s : State) (cls : Nat) : Bool := readyEntries s < (if cls = 0 then 262144 else 253952)

/-- One waiting op at the readiness step. -/
def readyStep (f i d : Nat) (s : State) : State :=
  match (flow? s f).bind (fun fl => (fl.inst? i).bind (fun x => (x.op? d).map (fun o => (fl, x, o)))) with
  | none => s
  | some (fl, x, o) =>
    if o.st = .released || o.st = .skipped || o.voided then s
    else if upstreamVoid fl x o then
      withOp f i d (fun p => { p with status := 5, st := if p.waiting then .void else p.st, loc := .none }) s
    else if !o.waiting then s
    else
      match standing s fl x o with
      | .skipped => withOp f i d (fun p => { p with st := .skipped, status := 2, loc := .none }) s
      | .ready =>
        if o.st = .ready && o.loc != .none then s
        else if entryRoom s fl.cls then
          withOp f i d (fun p => { p with st := .ready, loc := entryList s fl o, readyAt := if p.st = .ready then p.readyAt else now s }) s
        else if o.st = .ready then s
        else withOp f i d (fun p => { p with st := .ready, loc := .none, readyAt := now s }) (bump .readyFull 0 s)
      | _ => if o.st = .ready then withOp f i d (fun p => { p with st := .pending, loc := .none, aged := false }) s else s

/-- One pass over the ops of a flow in release order. -/
def readyPass (f : Nat) (s : State) : State :=
  match flow? s f with
  | none => s
  | some fl => fl.order.foldl (fun t e => readyStep f e.1.num e.2.node (judgePred f e.1.num e.2.node t)) s

/-- Step 6 of a round: passes until nothing can change any more. -/
def readiness (s : State) : State :=
  s.fsc.flows.foldl (fun t e => (List.range (e.2.insts.length + 1)).foldl (fun u _ => readyPass e.1 u) t) s

/-- A round in which the limits hold back a ready op of a class counts once for the class (R268, R277, R290). -/
def countStalls (s : State) : State :=
  let held := (allOps s).filter (fun e => e.2.2.2.st = .ready && heldBack s e.2.1 e.2.2.2)
  [0, 1, 2, 3].foldl (fun t c => if held.any (fun e => e.2.1.cls == c) then bump .inflightStall c t else t) s

/-! ### Rebuilds of late packets (R97, R101, R102) -/

/-- The instances of a channel's rebuild flow (R101): one runs while a packet that has come in its window waits for it, and the
flow goes when none does. -/
def rebuildRound (c n : Nat) (s : State) : State :=
  let f := rebuildFlow n
  let waits : Bool := match rtp? s c with | some x => x.repairs.any (fun r => r.stage == 1) | none => false
  match flow? s f with
  | none =>
    if !waits then s
    else
      match FMap.get? s.chans n, flow? s n with
      | some ch, some own =>
        let fl : Flow := { voiceFlow s ch.p ch.ring own.homeVpe with nodes := [voiceNode 7 0 0 15], miss := none, period := 0
                                                                     deadline := 0, nextNum := 1 }
        readyPass f (issueInst f 0 s.clk.tick (addFlow f fl s))
      | _, _ => s
  | some fl =>
    if !fl.insts.isEmpty then s
    else if waits then readyPass f (issueInst f fl.nextNum s.clk.tick (withFlow f (fun g => { g with nextNum := g.nextNum + 1 }) s))
    else withFsc (fun z => { z with flows := FMap.del z.flows f }) s

/-- The end of a round for the channel of a context: the decision for a frame whose DECODE has been dispatched, the rebuilds
that are complete, and those that are to run (R97, R101). -/
def repairRound (c : Nat) (s : State) : State :=
  match chanOf s c with
  | none => s
  | some (n, _) => rebuildRound c n (confirmRebuilds c n (decideNow n s))

/-! ### The build ops of transmit channels (R207) -/

/-- The flow of a transmit channel's build ops, in class C2 with VOID (R265). -/
def txFlow (ring home : Nat) : Flow :=
  { cls := 2, lateRelease := false, nodes := [voiceNode 9 0 0 15], miss := none, period := 0, deadline := 0
    opRate := 0, window := 64, report := false, host := false, ring, homeVpe := home, insts := [], nextNum := 1, stalled := []
    releasing := none, committed := [], versions := [], lastPred := [], fresh := true, owed := [], cluster := home / 16
    slack := none }

/-- The instances of a transmit channel's flow: one runs while a request waits to be built, and the flow goes when none does. -/
def buildRound (n : Nat) (s : State) : State :=
  let f := txFlowKey n
  let waits := (toBuild s n).isSome
  match flow? s f with
  | none =>
    if !waits then s
    else
      let (home, s1) := chooseHome s 31
      readyPass f (issueInst f 0 s1.clk.tick (addFlow f (txFlow ((txc? s n).elim 0 (·.ringCmd)) home) s1))
  | some fl =>
    if !fl.insts.isEmpty then s
    else if waits then readyPass f (issueInst f fl.nextNum s.clk.tick (withFlow f (fun g => { g with nextNum := g.nextNum + 1 }) s))
    else withFsc (fun z => { z with flows := FMap.del z.flows f }) s

/-- The build ops of every transmit channel. -/
def buildRounds (s : State) : State :=
  (FMap.keys s.txcs ++ (FMap.keys s.fsc.flows).filterMap txOfFlow).foldl (fun t n => buildRound n t) s

/-! ### A round (R272, R287) -/

/-- Whether anything is presented. -/
def roundDue (s : State) : Bool := !s.fsc.presented.isEmpty

/-- Steps 1 to 6 of a round on everything presented before it began; dispatch and the tick are commands of their own. -/
def round (s : State) : State :=
  let evs := s.fsc.presented
  let s1 := evs.foldl judgeEvent (withFsc (fun c => { c with presented := [] }) s)
  let s2 := retryOutputs (evs.foldl completeEvent s1)
  let s3 := releaseAll s2
  let s4 := evs.foldl cancelEvent s3
  let s5 := readiness (arrivals s4)
  let s6 := (FMap.keys s5.rtps).foldl (fun t c => repairRound c t) s5
  pressure (countStalls (buildRounds s6))

/-- A round runs where something is presented. -/
def roundIf (s : State) : State := if roundDue s then round s else s

/-- What R287 treats as already settled when deadlines are tested: confirmations and refutations that wait, and the
releases that follow. -/
def settleNow (s : State) : State :=
  let evs := s.fsc.presented
  let isJudge := fun (e : Presented) => match e with | .confirm _ _ => true | .refute _ _ => true | _ => false
  releaseAll (evs.foldl judgeEvent (withFsc (fun c => { c with presented := evs.filter (fun e => !isJudge e) }) s))

end Sys2Proof.Machine
end

