-- ==== Sys2Proof/Machine/TbuOps.lean ====
section
/-! DEFINITION. The timebase: corrections of device time and the choice of references (R357, R380 to R382). -/

namespace Sys2Proof.Machine

open Sys2Proof

/-- Change the clock. -/
def withClk (f : Clock → Clock) (s : State) : State := { s with clk := f s.clk }

/-- Device time is corrected by an offset (R380): slewed below 1 ms, else stepped at once with TIME_STEP. -/
def correctTime (offset : Int) (s : State) : State :=
  if offset.natAbs < 1000000 then withClk (fun c => { c with slewLeft := offset }) s
  else
    raise Ev.timeStep none (padTo 48 (Config.eventBody Ev.timeStep [offset]))
      (withClk (fun c => { c with offset := c.offset + offset, slewLeft := 0 }) s)

/-- The TDM port that a reference code names, if its enable is set (R357). -/
def tdmRefPort (s : State) (code : Nat) : Option Nat :=
  if code = 4 then (if flag s .tdmRef 0 16 then some (fld s .tdmRef 0 7 0) else none)
  else (if flag s .tdmRef 0 17 then some (fld s .tdmRef 0 15 8) else none)

/-- Whether a reference can be followed now: it has been found good, and nothing makes it unavailable (R357, R381). -/
def refAvail (s : State) (code : Nat) : Bool :=
  s.clk.avail.contains code &&
  (match code with
   | 1 => s.clk.ptpMaster.isSome
   | 4 | 5 =>
     (match tdmRefPort s code with
      | some t => tdmMode s t ≠ 0 && !(tdmPort s t).failed && FMap.getD s.clk.tdmHold t 0 ≤ now s
      | none => false)
   | 6 => (ethPort s (fld s .tbuRefCfg 0 26 24)).linkUp
   | _ => true)

/-- The priority list of TBU_REF_CFG, highest first. -/
def refList (s : State) : List Nat := ((List.range 6).map (fun i => fld s .tbuRefCfg 0 (4 * i + 3) (4 * i))).filter (· != 0)

/-- The references available now, each with since when. -/
def refTimes (s : State) : FMap Ns :=
  ([1, 2, 3, 4, 5, 6] : List Nat).filterMap (fun c => if refAvail s c then some (c, FMap.getD s.clk.refSince c (now s)) else none)

/-- The reference to follow among some codes (R381): the present one while it is available, or with revertive set the first above it
that has been available for 10 s; else the highest available one. -/
def chooseRef (s : State) (cur : Nat) (p : Nat → Bool) : Nat :=
  let l := (refList s).filter (fun c => p c && refAvail s c)
  let ripe := fun (c : Nat) => decide (FMap.getD (refTimes s) c (now s) + 10000000000 ≤ now s)
  if !l.contains cur then l.headD 0
  else if flag s .tbuRefCfg 0 27 then ((l.takeWhile (fun c => c != cur)).find? ripe).getD cur
  else cur

/-- The phase and the frequency reference to follow. -/
def chosenRefs (s : State) : Nat × Nat :=
  (chooseRef s s.clk.phaseRef (fun c => c = 1 || c = 2), chooseRef s s.clk.freqRef (fun _ => true))

/-- A change of reference is reported (R382). -/
def refChanged (kind old new : Nat) (s : State) : State :=
  if old = new then s
  else raise Ev.timeRefChange none (padTo 48 (Config.eventBody Ev.timeRefChange [(kind : Int), (old : Int), (new : Int)])) s

/-- Follow two references (R381, R382): LOCKED with one, HOLDOVER or FREERUN without. -/
def followRefs (ph fr : Nat) (s : State) : State :=
  let locked : Bool := ph ≠ 0 || fr ≠ 0
  let st := if locked then 1 else if s.clk.everLocked then 2 else 0
  let d := drawNat s
  let s1 := withClk (fun c =>
    { c with phaseRef := ph, freqRef := fr, tbuState := st, everLocked := c.everLocked || locked
             freqCorr := if locked then (d.1 : Int) else c.freqCorr }) (if locked then d.2 else s)
  let s2 := refChanged 1 s.clk.freqRef fr (refChanged 0 s.clk.phaseRef ph s1)
  if st = 2 && s.clk.tbuState ≠ 2 then crossed Ev.timeHoldover 0 0 s2.clk.freqCorr none false s2
  else noticeLive Ev.timeHoldover 0 false (some s2.clk.freqCorr) locked s2

/-- The round in which the last reference failed is over: none has come (R382). -/
def settleRefs (s : State) : State :=
  if s.clk.refGone.isSome then followRefs 0 0 (withClk (fun c => { c with refGone := none }) s) else s

/-- Choose the references anew. Where the last one has failed, another that becomes available in the same round is taken without
HOLDOVER (R382). -/
def updateRefs (s0 : State) : State :=
  let s := if s0.clk.refGone.any (fun t => decide (t < now s0)) then settleRefs s0 else s0
  let n := chosenRefs s
  let s1 := withClk (fun c => { c with refSince := refTimes s }) s
  if n = (0, 0) && s.clk.tbuState = 1 then withClk (fun c => { c with refGone := some (c.refGone.getD (now s)) }) s1
  else followRefs n.1 n.2 (withClk (fun c => { c with refGone := none }) s1)

/-- The references at a tick: a round that is over, and time that has made a reference available or ripe (R357, R381). -/
def tickRefs (s : State) : State :=
  let s1 := settleRefs s
  if chosenRefs s1 = (s1.clk.phaseRef, s1.clk.freqRef) && FMap.keys (refTimes s1) = FMap.keys s1.clk.refSince then s1 else updateRefs s1

end Sys2Proof.Machine
end

