-- ==== Sys2Proof/Machine/TpOps.lean ====
section
/-! DEFINITION. Operations of the teleprotection channels: frames and their release, balls, the sink, and what a
decision of the TTU finds (R112 to R137, R552). -/

namespace Sys2Proof.Machine

open Sys2Proof

/-- A channel, and a change to it. -/
def tp? (s : State) (n : Nat) : Option Tp := FMap.get? s.tps n
def withTp (n : Nat) (f : Tp → Tp) (s : State) : State := { s with tps := FMap.adj s.tps n f }

/-- The ring of a channel's events. -/
def tpRing (s : State) (n : Nat) : Option Nat := (tp? s n).map (·.ring)

/-- Milliseconds in ns. -/
def msNs (n : Nat) : Nat := 1000000 * n

/-! ### Balls (R121, R131, R529) -/

/-- Put a bit of a 32-bit word. -/
def putBit32 (w : BitVec 32) (i : Nat) (v : Bool) : BitVec 32 :=
  let m := BitVec.ofNat 32 (2 ^ i)
  if v then w ||| m else w &&& ~~~ m

/-- Drive the sink balls of every channel: the active level while the command is asserted, else, and on a MIRROR (R511),
the inactive level; a ball that no sink names is not driven. -/
def driveBalls (s : State) : State :=
  let l := s.tps.flatMap (fun e => e.2.p.sinkBalls.map (fun c => (c.2, e.2.sinkCmd.getLsbD c.1)))
  let io := l.foldl (fun (t : TpIo) e =>
    { t with driven := putBit32 t.driven e.1 true, level := putBit32 t.level e.1 (flag s .tpioPolarity 0 e.1 == (e.2 && s.twin.role != 1)) })
    { s.tpio with driven := 0, level := 0 }
  { s with tpio := io }

/-- The balls that sources name. -/
def sourceBalls (s : State) : List Nat := s.tps.flatMap (fun e => e.2.p.srcBalls.map (·.2))

/-- One sample of one source ball: eight samples in a row at the other level change its state (R121). -/
def sampleBall (levels : BitVec 32) (s : State) (ball : Nat) : State :=
  let raw := levels.getLsbD ball == flag s .tpioPolarity 0 ball
  let io := s.tpio
  if raw = io.active.getLsbD ball then { s with tpio := { io with runs := FMap.del io.runs ball } }
  else
    let n := FMap.getD io.runs ball 0 + 1
    if 8 ≤ n then { s with tpio := { io with runs := FMap.del io.runs ball, active := putBit32 io.active ball raw } }
    else { s with tpio := { io with runs := FMap.set io.runs ball n } }

/-! ### Frames (R122 to R128) -/

/-- The payload of a frame (R126), with its tag where a key is given (R122). -/
def tpPayload (p : TpParams) (key : Option Bytes) (test guardFail closing : Bool) (seq : BitVec 32) (cmd : BitVec 4)
    (changes : BitVec 8) (txTime : BitVec 64) : Bytes :=
  let flags := b2n test + 2 * b2n guardFail + 4 * b2n closing + 8 * b2n p.auth
  let head := toBE 1 0x11 ++ toBE 1 flags ++ toBE 2 p.txLink ++ toBE 4 seq.toNat ++ toBE 1 cmd.toNat ++ toBE 1 changes.toNat ++
    zeros 2 ++ toBE 8 txTime.toNat
  head ++ (match p.auth, key with | true, some k => (hmacSha256 k head).take 16 | _, _ => zeros 16)

/-- The Ethernet frame around a payload (R125). -/
def tpFrame (p : TpParams) (payload : Bytes) (s : State) : Bytes :=
  let port := if p.prpPair = 0xFF then p.ethPort else prpPortA s p.prpPair
  let v6 : Bool := p.transport = 2
  let src := addrOf v6 p.localAddr
  let dst := addrOf v6 p.remoteAddr
  let body := if p.transport = 0 then payload
    else ipPacket v6 src dst p.dscp p.hopLimit (udpDatagram v6 src dst p.localPort p.remotePort payload)
  ethFrame p.destMac (macOf s port) (if p.vlanEn then some ⟨p.pcp, p.vlanId⟩ else none)
    (if p.transport = 0 then p.etherType else ipType v6) body

/-- Send a payload on TC7: on both ports of the pair, or on one port alone (R125, R128). A pair that is not enabled sends
nothing (log entry 26). -/
def tpTransmit (p : TpParams) (payload : Bytes) (s : State) : State :=
  let frame := tpFrame p payload s
  if p.prpPair = 0xFF then ethSend p.ethPort 7 frame none false s
  else if prpEnabled s p.prpPair then pairSend p.prpPair 7 frame none false s
  else s

/-- Whether the send side sends: it is used, and authenticates only with a key (R122). -/
def Tp.sends (x : Tp) : Bool := x.p.src ≠ 0 && (!x.p.auth || x.txKey.isSome)

/-- The commands in frames: test state in the on phase of a test, else the active set. -/
def Tp.testing (x : Tp) : Bool := x.test.any (·.on)
def Tp.frameCmd (x : Tp) : BitVec 4 := match x.test with | some u => if u.on then u.cmd else x.cmd | none => x.cmd

/-- Commands set in one and not in the other. -/
def cmdsOf (w : BitVec 4) : List Nat := (List.range 4).filter (fun i => w.getLsbD i)

/-- The number of a channel's flow, for the flow table and for the counters kept per flow; the spec gives teleprotection channels
no flow number (R112; DESIGN CHOICE, log entry 105). -/
def tpFlowKey (n : Nat) : Nat := 32768 + n

/-- The ordered flow of a channel in class C0 (R112): one op builds a frame, which is never dropped for lateness (R30, R124). -/
def tpFlow (s : State) (ring home : Nat) : Flow :=
  { cls := 0, lateRelease := true
    nodes := [{ kernel := Config.mediaKernel 8, param := 0, inQ := 0xFFFF, outQ := 0xFFFF, dataDeps := 0, orderDeps := 0
                statePrev := false, fwdNode := 15, predKind := 0, predSense := false, spec := true, predNode := 0, predTicks := 0 }]
    miss := none, period := 0, deadline := cdiv 62500 (tickNs s), opRate := 0, window := 64, report := false, host := false, ring
    homeVpe := home, insts := [], nextNum := 0, stalled := [], releasing := none, committed := [], versions := [], lastPred := []
    fresh := true, owed := [], cluster := home / 16, slack := none }

/-- The instance of a held frame: its op is complete, tethered on the confirmation of the dwell (R123, R254). -/
def heldInst (num tick : Nat) : Inst :=
  { num, due := tick, deadline := none, missed := false, fresh := false
    ops := [{ Op.fresh 0 with st := .completed, ran := true, roots := [⟨num, 0⟩], isRoot := true }] }

/-- An instance of a channel's flow has run and been released; a frame that is held takes the next place after it. -/
def tpInstance (n : Nat) (s : State) : State :=
  bump .fscDispatch 0 (withFlow (tpFlowKey n) (fun fl =>
    { fl with nextNum := fl.nextNum + 1, fresh := false, insts := fl.insts.map (fun x => heldInst (fl.nextNum + 1) x.due) }) s)

/-- Hold a frame, where the pool has tethered cells for it; else the next decision tries again (R123, R308). -/
def holdFrame (n : Nat) (q : TpHeld) (s : State) : State :=
  if (choosePool s 0 0 q.cells true).isNone then s
  else
    bump .fscDispatch 0 (bump .fscSpecDispatch 0 (withFlow (tpFlowKey n) (fun fl => { fl with insts := [heldInst fl.nextNum s.clk.tick] })
      (allocCells 0 q.cells false true (withTp n (fun y => { y with held := some q }) s))))

/-- A held frame is held no longer, and its cells are free (R123). -/
def unhold (n : Nat) (s : State) : State :=
  match (tp? s n).bind (·.held) with
  | none => s
  | some q =>
    withFlow (tpFlowKey n) (fun fl => { fl with insts := [] })
      (returnCells 0 q.cells false true (withTp n (fun y => { y with held := none }) s))

/-- Send one frame; a held frame is re-stamped to follow it (R123, R126, R127). -/
def tpSend (n : Nat) (cmd : BitVec 4) (closing : Bool) (txTime : BitVec 64) (s : State) : State :=
  match tp? s n with
  | none => s
  | some x =>
    if !x.sends then s
    else
      let d := tpPayload x.p x.txKey x.testing (x.st = .alarm) closing x.seq cmd x.changes txTime
      let s1 := tpTransmit x.p d (tpInstance n (withTp n (fun y =>
        { y with seq := x.seq + 1, sentCmd := cmd, held := y.held.map (fun q => { q with seq := x.seq + 1 }) }) s))
      if x.testing then s1
      else (cmdsOf (cmd &&& ~~~ x.sentCmd)).foldl (fun t i => bumpSub .tpCmdTx n i t) s1

/-- Body of TP_CMD (R552). -/
def tpCmdBody (n side : Nat) (guardFail late : Bool) (cmd prev : BitVec 4) (seq : BitVec 32) (txTime : BitVec 64)
    (time : Nat) (changes : BitVec 8) : Bytes :=
  padTo 48 (toLE 2 n ++ toLE 1 (side + 2 * b2n guardFail + 4 * b2n late) ++ toLE 1 (cmd.toNat + 16 * prev.toNat) ++
    toLE 4 seq.toNat ++ toLE 8 txTime.toNat ++ toLE 8 time ++ toLE 1 changes.toNat)

/-- The deadline of a change frame (R124): the first tick at or after its decision and 62.5 µs. -/
def tpDeadline (s : State) (t : Ns) : Ns := tickStart s (tickFrom s (t + 62500))

/-- Send a change frame for a decision at an instant, with the tx_time of the frame that was held for it, if any (R123, R124, R127,
R552). When it releases within the limits of R135 is a free value. -/
def tpChange (n : Nat) (t : Ns) (held : Option TpHeld) (s : State) : State :=
  match tp? s n with
  | none => s
  | some x =>
    if !x.sends then s
    else
      let d := drawNat s
      let releaseAt := t + d.1 % (if held.isSome then 25001 else 135001)
      let txTime := match held with | some q => q.txTime | none => BitVec.ofNat 64 (devOf s t)
      let late : Bool := tpDeadline s t < releaseAt
      let s1 := tpSend n x.frameCmd false txTime d.2
      let s2 := if late then bump .tpLate n (bumpN .deadlineMiss (tpFlowKey n) 1 1 (bump .deadlineMiss 0 s1)) else s1
      if x.frameCmd = x.sentCmd then s2
      else
        raise Ev.tpCmd (some x.ring)
          (tpCmdBody n 0 (x.st = .alarm) late x.frameCmd x.sentCmd x.seq txTime (devOf s releaseAt)
            x.changes) s2

/-- A held frame is discarded (R123). -/
def tpDiscard (n : Nat) (s : State) : State :=
  if (tp? s n).any (·.held.isSome) then
    bump .specDiscard (tpFlowKey n) (bump .specDiscardClass 0 (unhold n s))
  else s

/-- The set sent changes: `changes` counts it, and a change frame follows. -/
def tpSetCmd (n : Nat) (cmd : BitVec 4) (st : TpState) (t : Ns) (held : Option TpHeld) (s : State) : State :=
  match tp? s n with
  | none => s
  | some x =>
    let flagMoved : Bool := (x.st = .alarm) != (st = .alarm)
    let s1 := withTp n (fun y =>
      { y with st, cmd, changes := if cmd = x.cmd then y.changes else y.changes + 1, toneGone := none }) s
    if cmd = x.cmd && !flagMoved then s1 else tpChange n t held s1

/-! ### The sink (R131 to R134) -/

/-- The sink takes a new command set: balls follow, rises count and TP_CMD is raised for a change. `info` is what the
frame says; where no frame made the change its fields are free values. -/
def tpSink (n : Nat) (cmd : BitVec 4) (info : Option TpInfo) (t : Ns) (s : State) : State :=
  match tp? s n with
  | none => s
  | some x =>
    if cmd = x.sinkCmd then s
    else
      let rises := cmdsOf (cmd &&& ~~~ x.sinkCmd)
      let s1 := driveBalls (withTp n (fun y =>
        { y with sinkCmd := cmd, riseAt := rises.foldl (fun m i => FMap.set m i t) y.riseAt
                 pendFall := y.pendFall &&& cmd }) s)
      let s2 := rises.foldl (fun u i => bumpSub .tpCmdRx n i u) s1
      let d := drawNat s2
      let (f, s3) := match info with
        | some f => (f, s2)
        | none => ((⟨BitVec.ofNat 32 d.1, BitVec.ofNat 64 (d.1 / 2 ^ 32), d.1.testBit 96, BitVec.ofNat 8 (d.1 / 2 ^ 97)⟩ : TpInfo), d.2)
      raise Ev.tpCmd (some x.ring) (tpCmdBody n 1 f.guardFail false cmd x.sinkCmd f.seq f.txTime (devOf s t) f.changes) s3

/-- The transmission time of a sink change made by a frame (R136), for the commands that changed. -/
def tpTimed (n : Nat) (old cmd : BitVec 4) (txTime : BitVec 64) (t : Ns) (s : State) : State :=
  match tp? s n with
  | none => s
  | some x =>
    if old = cmd then s
    else
      let tt : Int := (devOf s t : Int) - (txTime.toNat : Int)
      let s1 := withTp n (fun y => (cmdsOf (old ^^^ cmd)).foldl (fun z i =>
        { z with ttLast := FMap.set z.ttLast i tt
                 ttMax := FMap.set z.ttMax i (match FMap.get? z.ttMax i with | some m => if m < tt then tt else m | none => tt) }) y) s
      if (msNs x.p.ttLimit : Int) < tt then bump .tpTtOver n s1 else s1

/-- A frame's commands drive the sink (R131, R134): rises at once, falls at once or when out_min has run out. -/
def tpDrive (n : Nat) (cmd : BitVec 4) (info : TpInfo) (t : Ns) (s : State) : State :=
  match tp? s n with
  | none => s
  | some x =>
    let falls := cmdsOf (x.sinkCmd &&& ~~~ cmd)
    let keep := (falls.filter (fun i => t < FMap.getD x.riseAt i 0 + msNs x.p.outMin)).foldl
      (fun (w : BitVec 4) i => w ||| BitVec.ofNat 4 (2 ^ i)) 0
    let new := cmd ||| keep
    let s1 := withTp n (fun y => { y with pendFall := keep, fallInfo := if keep = 0 then y.fallInfo else some info }) s
    tpTimed n x.sinkCmd new info.txTime t (tpSink n new (some info) t s1)

/-- The fail states of a channel's commands (R133). -/
def tpFail (n : Nat) (info : Option TpInfo) (t : Ns) (s : State) : State :=
  match tp? s n with
  | none => s
  | some x =>
    let w := (List.range 4).foldl (fun (w : BitVec 4) i =>
      match x.p.fail.getD i 0 with
      | 0 => w &&& ~~~ BitVec.ofNat 4 (2 ^ i)
      | 1 => if x.p.toned && x.p.cmdHz.getD i 0 = 0 then w else w ||| BitVec.ofNat 4 (2 ^ i)
      | _ => w) x.sinkCmd
    tpSink n w info t (withTp n (fun y => { y with pendFall := y.pendFall &&& w }) s)

/-- Body of LINK_CLOSED (R552). -/
def linkClosedBody (n : Nat) (seq : BitVec 32) (txTime : BitVec 64) (cmd : BitVec 4) : Bytes :=
  padTo 48 (toLE 2 n ++ zeros 2 ++ toLE 4 seq.toNat ++ toLE 8 txTime.toNat ++ toLE 1 cmd.toNat)

/-- Checks 1 to 4 of R130: the counter of the first that fails, or the frames missing. -/
def tpCheck (x : Tp) (d : Bytes) : Except Ctr Nat :=
  if d.length < 36 || byteAt d 0 ≠ 0x11 || byteAt d 1 / 16 ≠ 0 || byteAt d 8 / 16 ≠ 0 || beAt d 10 2 ≠ 0 then .error .tpBadFrame
  else if x.p.auth && !(bit (byteAt d 1) 3 &&
      (match x.rxKey with | some k => (hmacSha256 k (d.take 20)).take 16 = sub d 20 16 | none => false)) then .error .tpAuthFail
  else if beAt d 2 2 ≠ x.p.rxLink then .error .tpBadFrame
  else
    match x.rxSeq with
    | none => .ok 0
    | some l =>
      let g := (BitVec.ofNat 32 (beAt d 4 4) - l).toNat
      if g = 0 || 2 ^ 31 ≤ g then .error .tpSeqOld else .ok (g - 1)

/-- A frame that matches a channel's receive key (R130 to R134). -/
def tpReceive (n : Nat) (d : Bytes) (t : Ns) (s : State) : State :=
  match tp? s n with
  | none => s
  | some x =>
    match tpCheck x d with
    | .error c => bump c n s
    | .ok lost =>
      let seq := BitVec.ofNat 32 (beAt d 4 4)
      let cmd := BitVec.ofNat 4 (byteAt d 8)
      let info : TpInfo := ⟨seq, BitVec.ofNat 64 (beAt d 12 8), bit (byteAt d 1) 1, BitVec.ofNat 8 (byteAt d 9)⟩
      let closing := bit (byteAt d 1) 2
      let s1 := bumpN .tpLost n 0 lost (withTp n (fun y =>
        { y with rxSeq := some seq, lastRx := t, linkFail := false, closed := closing
                 failNs := if y.linkFail then y.failNs + (t - y.failSince) else y.failNs }) s)
      let s2 := noticeLive Ev.linkFail n false none true s1
      if bit (byteAt d 1) 0 then (cmdsOf cmd).foldl (fun u i => bumpSub .tpTestRx n i u) s2
      else if closing then
        let s3 := tpFail n (some info) t s2
        raise Ev.linkClosed (some x.ring)
          (linkClosedBody n seq info.txTime (match tp? s3 n with | some y => y.sinkCmd | none => 0)) s3
      else tpDrive n cmd info t s2

/-! ### The TTU input (R117, R118) -/

/-- The kernel by which the TTU measures tones (log entry 31). -/
abbrev Mk.ttu : Nat := 15

/-- The conversion of a source to 32 kHz with SWIFT. -/
def ttuFilter (law : Nat) : FdcFilter := audioFilter 2 (lawKhz law) 32

/-- The octets of a source's group in one frame come in: settled samples reach the TTU input (R117). -/
def Tp.sourceIn (x : Tp) (d : Bytes) : Tp :=
  let y := lineSamples x.p.srcLaw d
  let r := if lawKhz x.p.srcLaw = 32 then (y, x.ttu)
    else Fdc.run 0 (y.length * (32 / lawKhz x.p.srcLaw)) { x.ttu with queue := x.ttu.queue ++ y }
  { x with ttu := r.2, ttuSkip := x.ttuSkip - r.1.length, ttuIn := ((r.1.drop x.ttuSkip).reverse ++ x.ttuIn).take 256 }

/-- The samples of a decision's window, newest first: the most recent w_det (R118). -/
def Tp.window (x : Tp) : List Int := x.ttuIn.take (64 * 2 ^ x.p.wDet)

/-- Pairs of a list's elements in turn. -/
def pairsOf (l : List Int) : List (Int × Int) :=
  match l with
  | a :: b :: r => (a, b) :: pairsOf r
  | _ => []

/-- What the TTU measures over the window of a decision: the energy outside the set tones, then each tone with its level. How a
tone is measured is the Control Image's, a function of the samples (log entry 31). -/
def ttuObs (x : Tp) : TtuObs :=
  let v := (Config.media Mk.ttu [(x.p.wDet : Int)] [] x.window).1
  { tones := (pairsOf (v.drop 1)).map (fun e => ⟨e.1, e.2⟩), other := v.headD 0 }

/-! ### What a decision finds (R118, R119) -/

/-- A measured tone is at a set frequency: within 1 % always, further than a quarter of the least spacing never. -/
def freqVerdict (p : TpParams) (hz : Nat) (m : ToneMeas) : Verdict :=
  let off := (m.hz - 100 * (hz : Int)).natAbs
  verdict (off ≤ hz) (25 * p.spacing < off)

/-- The strongest measured tone. -/
def strongest (o : TtuObs) : Int := o.tones.foldl (fun m x => if m < x.lvl then x.lvl else m) (-100000)

/-- A set tone is present: frequency, level and energy outside the set tones. -/
def toneVerdict (p : TpParams) (o : TtuObs) (hz : Nat) (lvl : Int) : Verdict :=
  o.tones.foldl (fun v m =>
    let l := verdict (50 * lvl - 1000 ≤ m.lvl && m.lvl ≤ 50 * lvl + 600) (m.lvl < 50 * lvl - 1600)
    let below := o.other - (strongest o - m.lvl)
    v.or ((freqVerdict p hz m).and (l.and (verdict (1200 ≤ below) (below < 600))))) .never

/-- The guard is absent. -/
def guardGone (p : TpParams) (o : TtuObs) : Verdict :=
  o.tones.foldl (fun v m =>
    let at_ := freqVerdict p p.guardHz m
    let low := verdict (m.lvl < 50 * p.guardLvl - 2000) (50 * p.guardLvl - 1500 < m.lvl)
    v.and (match at_ with
      | .never => .always
      | .always => low
      | .open_ => if low = .always then .always else .open_)) .always

/-- What a decision finds: command tones present, guard present and absent, whether it is ambiguous, and the candidate
set. -/
structure Decision where
  present : BitVec 4
  guardOn : Bool
  guardOff : Bool
  ambiguous : Bool
  cand : Option (BitVec 4)
  deriving DecidableEq, Repr

/-- The set that present tones make, with or without parallel commands (R119). -/
def candidateOf (parallel : Bool) (present : BitVec 4) : Bool × Option (BitVec 4) :=
  match cmdsOf present with
  | [] => (false, none)
  | [_] => (false, some present)
  | _ => if parallel then (false, some present) else (true, none)

/-- A decision on a TDM source. Without parallel, another command tone 20 dB or more below the strongest does not count,
and one less than 15 dB below it, even where it is not accepted itself, leaves no candidate. `d` gives the free
choices. -/
def toneDecision (p : TpParams) (o : TtuObs) (d : Nat) : Decision :=
  let set := (List.range 4).filter (fun i => p.cmdHz.getD i 0 != 0)
  let lvlOf := fun (i : Nat) => (o.tones.filter (fun m => freqVerdict p (p.cmdHz.getD i 0) m != .never)).foldl
    (fun (a : Int) m => if a < m.lvl then m.lvl else a) (-100000)
  let top := set.foldl (fun (a : Int) i => if a < lvlOf i then lvlOf i else a) (-100000)
  let faint := fun (i : Nat) => !p.parallel && decide (lvlOf i ≤ top - 2000)
  let on := set.filter (fun i =>
    !faint i && (toneVerdict p o (p.cmdHz.getD i 0) p.cmdLvl).settle (d.testBit i))
  let present := on.foldl (fun (w : BitVec 4) i => w ||| BitVec.ofNat 4 (2 ^ i)) 0
  let others := set.filter (fun i => !on.contains i)
  let spoiled := !p.parallel && others.any (fun i => (verdict (top - 1500 < lvlOf i) (lvlOf i ≤ top - 2000)).settle (d.testBit (8 + i)))
  let guardOff := (guardGone p o).settle (d.testBit 4)
  let guardOn := !guardOff && (toneVerdict p o p.guardHz p.guardLvl).settle (d.testBit 5)
  let c := candidateOf p.parallel present
  { present, guardOn, guardOff, ambiguous := c.1, cand := if guardOff && !spoiled then c.2 else none }

/-- A decision on a TP_IO source: its balls are the command tones, and the guard is absent (R121). -/
def ballDecision (p : TpParams) (active : BitVec 32) : Decision :=
  let present := (p.srcBalls.filter (fun e => active.getLsbD e.2)).foldl
    (fun (w : BitVec 4) e => w ||| BitVec.ofNat 4 (2 ^ e.1)) 0
  let c := candidateOf p.parallel present
  { present, guardOn := false, guardOff := true, ambiguous := c.1, cand := c.2 }

end Sys2Proof.Machine
end

