-- ==== Sys2Proof/Machine/Fsc.lean ====
section
/-! DEFINITION. The commands of the flow scheduler: host flows, the tick, issue, deadlines, rounds, dispatch and
completion (R250 to R274, R23, R24). -/

namespace Sys2Proof.Machine

open Sys2Proof

/-! ### FLOW_SETUP (R249, R250) -/

/-- A node entry of a descriptor. -/
def nodeOf (b : Bytes) (j : Nat) : Node :=
  let o := 0x40 + 16 * j
  { kernel := leAt b o 2, param := leAt b (o + 2) 2, inQ := leAt b (o + 4) 2, outQ := leAt b (o + 6) 2
    dataDeps := BitVec.ofNat 12 (leAt b (o + 8) 2), orderDeps := BitVec.ofNat 12 (leAt b (o + 0x0A) 2)
    statePrev := bit (leAt b (o + 0x0A) 2) 12, fwdNode := fieldAt b (o + 0x0C) 3 0, predKind := fieldAt b (o + 0x0C) 5 4
    predSense := bit (byteAt b (o + 0x0C)) 6, spec := bit (byteAt b (o + 0x0C)) 7, predNode := fieldAt b (o + 0x0D) 3 0
    predTicks := leAt b (o + 0x0E) 2 }

/-- The flow of a descriptor. -/
def flowOf (ring home : Nat) (b : Bytes) : Flow :=
  { cls := fieldAt b 2 1 0, lateRelease := bit (byteAt b 2) 2, nodes := (List.range (fieldAt b 3 3 0)).map (nodeOf b)
    miss := if fieldAt b 3 7 4 = 15 then none else some (fieldAt b 3 7 4), period := leAt b 4 2, deadline := leAt b 6 2
    opRate := leAt b 8 4, window := orDefault (fieldAt b 0x0D 6 0) 64, report := bit (byteAt b 0x0E) 0, host := true, ring
    homeVpe := home, insts := [], nextNum := 0, stalled := [], releasing := none, committed := [], versions := [], lastPred := []
    fresh := true, owed := [], cluster := home / 16, slack := none }

/-- Whether a queue is one that the host owns (R297). -/
def flowQueueOk (s : State) (q : Nat) : Bool := q = 0xFFFF || (8192 ≤ q && q ≤ 16383 && FMap.has s.qmg.queues q)

/-- One bit for each node set in a mask. -/
def depCount (m : BitVec 12) : Nat := ((List.range 12).filter (fun i => m.getLsbD i)).length

/-- The checks of R250 on node j. -/
def nodeOk (s : State) (fl : Flow) (b : Bytes) (j : Nat) : Bool :=
  let o := 0x40 + 16 * j
  let nd := nodeOf b j
  bits (leAt b (o + 8) 2) 15 12 = 0 && bits (leAt b (o + 0x0A) 2) 15 13 = 0 && fieldAt b (o + 0x0D) 7 4 = 0 &&
  (userKernel s nd.kernel).any (fun k => k.classes.getLsbD fl.cls) && nd.dataDeps.toNat < 2 ^ j && nd.orderDeps.toNat < 2 ^ j &&
  (nd.fwdNode = 15 || nd.fwdNode < fl.nodes.length) && b2n (nd.inQ != 0xFFFF) + depCount nd.dataDeps ≤ 4 &&
  flowQueueOk s nd.inQ && flowQueueOk s nd.outQ && nd.predKind ≤ 2 && (nd.predKind ≠ 1 || nd.predNode < j) &&
  (fl.miss ≠ some j || (nd.inQ = 0xFFFF && nd.dataDeps = 0 && nd.predKind = 0))

/-- The checks of R250 on a descriptor. -/
def flowBlockOk (s : State) (b : Bytes) : Bool :=
  let fl := flowOf 0 0 b
  let n := fl.nodes.length
  let f := leAt b 0 2
  let home := fieldAt b 0x0C 4 0
  fieldAt b 2 7 3 = 0 && fieldAt b 0x0C 7 5 = 0 && fieldAt b 0x0D 7 7 = 0 && bits (leAt b 0x0E 2) 15 1 = 0 && zeroIn b 0x10 48 &&
  zeroIn b (0x40 + 16 * n) (192 - 16 * n) && 57344 ≤ f && (flow? s f).isNone && (fl.cls = 1 || fl.cls = 3) && !fl.lateRelease &&
  (fl.cls = 3 || fl.deadline ≠ 0) && 1 ≤ n && n ≤ 12 && (match fl.miss with | some m => decide (m < n) | none => true) &&
  (home ≤ 16 || home = 31) && (if fl.nodes.any (fun d => d.fwdNode != 15) then 2 * n else n) ≤ fl.window &&
  (List.range n).all (nodeOk s fl b)

/-- The charge of a flow against the reserve of R247: the cost of its dearest kernel at its declared op rate. -/
def flowCharge (s : State) (fl : Flow) : Nat :=
  (fl.nodes.foldl (fun m d => max m (match userKernel s d.kernel with | some k => k.cost | none => 0)) 0) * fl.opRate

/-- The reserve: 8 % of the guaranteed bundle rate of the active clusters (R247, R504). -/
def flowReserve (s : State) : Nat := (activeClusters s).length * 16 * 800000000 * 8 / 100

/-- FLOW_SETUP's own checks. -/
def flowSetupStatus (s : State) (b : Bytes) : Nat :=
  if !flowBlockOk s b then St.badParam
  else if flowReserve s <
      flowCharge s (flowOf 0 0 b) + ((s.fsc.flows.filter (fun e => e.2.host)).map (fun e => flowCharge s e.2)).sum then
    St.noCapacity
  else St.ok

/-- Set a host flow up. -/
def setupFlow (ring : Nat) (b : Bytes) (s : State) : State :=
  let (home, s1) := chooseHome s (fieldAt b 0x0C 4 0)
  addFlow (leAt b 0 2) (flowOf ring home b) s1

/-- FLOW_SETUP (R250). -/
def execFlowSetup (h : CmdHdr) (s : State) : Answer :=
  .next (runCmd (blockCmd 0x0151 2 256 true) h
    (fun s1 => checked (flowSetupStatus s1 (blk h)) (setupFlow h.ring (blk h) s1) s1) s)

/-! ### FLOW_RELEASE, OP_SUBMIT and OP_CANCEL (R264, R270, R271) -/

/-- Whether a host flow is set up and its release has not been taken. -/
def flowLive (s : State) (f : Nat) : Bool :=
  match flow? s f with | some fl => fl.host && fl.releasing.isNone | none => false

/-- FLOW_RELEASE's own part: issue stops, and every op is cancelled at the ordering point. -/
def flowReleaseOwn (h : CmdHdr) (f : Nat) (s : State) : CmdRes :=
  if !flowLive s f then .done St.badParam [] s
  else
    .wait (present (.cancelFlow f) (stopIssue f
      (withFlow f (fun fl => { fl with releasing := some (h.ring, heldOf 0x0152 h s) }) s)))

/-- FLOW_RELEASE (R271). -/
def execFlowRelease (h : CmdHdr) (flow : Nat) (s : State) : Answer := .next (runCmd (plainCmd 0x0152 2) h (flowReleaseOwn h flow) s)

/-- How far ahead a start tick lies (R264). -/
def startAhead (s : State) (start : BitVec 32) : Int := (start - BitVec.ofNat 32 s.clk.tick).toInt

/-- OP_SUBMIT's own check. -/
def opSubmitStatus (s : State) (f : Nat) (start : BitVec 32) : Nat :=
  if !flowLive s f || (flow? s f).any (fun fl => fl.period != 0) || (start ≠ 0 && 2 ^ 24 < startAhead s start) then St.badParam
  else if start ≠ 0 && 0 < startAhead s start && 131072 ≤ s.fsc.delay.length then St.noCapacity
  else St.ok

/-- OP_SUBMIT's effect: the next instance is issued now, late, or at its tick. -/
def submitOp (f : Nat) (start : BitVec 32) (num : Nat) (s : State) : State :=
  let s1 := withFlow f (fun fl => { fl with nextNum := num + 1 }) s
  let a := startAhead s start
  if start = 0 then offerInst f num s.clk.tick s1
  else if a ≤ 0 then offerInst f num ((s.clk.tick : Int) + a).toNat (bump .delayLate 0 s1)
  else withFsc (fun c => { c with delay := c.delay ++ [(s.clk.tick + a.toNat, f, num)] }) s1

/-- OP_SUBMIT (R264): its result is the instance number. -/
def execOpSubmit (h : CmdHdr) (flow : Nat) (startTick : BitVec 32) (s : State) : Answer :=
  .next (runCmd (plainCmd 0x0153 2) h (fun s1 =>
    let st := opSubmitStatus s1 flow startTick
    let num := match flow? s1 flow with | some fl => fl.nextNum | none => 0
    if st ≠ St.ok then .done st [] s1 else .done St.ok (toLE 4 num) (submitOp flow startTick num s1)) s)

/-- OP_CANCEL's own part: presented to the ordering point, where it completes. An instance not issued holds no op. -/
def opCancelOwn (h : CmdHdr) (f : Nat) (mask : BitVec 12) (inst : BitVec 32) (s : State) : CmdRes :=
  if !flowLive s f then .done St.badParam [] s
  else
    match (flow? s f).bind (fun fl => fl.insts.find? (fun x => x.num % 2 ^ 32 == inst.toNat)) with
    | none => .done St.notPending [] s
    | some x => .wait (present (.cancel h.ring (heldOf 0x0154 h s) f x.num mask) s)

/-- OP_CANCEL (R270). -/
def execOpCancel (h : CmdHdr) (flow : Nat) (mask : BitVec 12) (inst : BitVec 32) (s : State) : Answer :=
  .next (runCmd (plainCmd 0x0154 2) h (opCancelOwn h flow mask inst) s)

/-! ### The tick (R23, R24, R36, R264) -/

/-- The lesser of two slacks, where there are any. -/
def minSlack (a b : Option Int) : Option Int :=
  match a, b with
  | some x, some y => some (if y < x then y else x)
  | some x, none => some x
  | none, y => y

/-- Bundles that the unreleased ops of an instance are expected to take: the costs of their kernels (R23, R245). -/
def costLeft (s : State) (fl : Flow) (x : Inst) : Nat :=
  ((x.ops.filter (fun o => o.st ≠ .released)).map (fun o =>
    (kernelAt s (16 * fl.cluster) (fl.node o.node).kernel).elim 0 (·.cost))).sum

/-- Slack of an instance in ns: the time to its deadline, less the expected duration of its unreleased ops at the cluster's measured
pace, in bundles per tick; that of a cluster without a pace is free (log entry 82). -/
def instSlack (s : State) (fl : Flow) (x : Inst) : Option Int :=
  x.deadline.map (fun d =>
    let n := costLeft s fl x
    let pace := (fig s .paceRate fl.cluster).toNat
    let spent := if n = 0 then 0 else if pace = 0 then Config.unstated 23 n else n * tickNs s / pace
    ((d : Int) - (s.clk.tick : Int)) * (tickNs s : Int) - (spent : Int))

/-- Slack of a flow with a frame deadline (R23): that of the instance which has the least. -/
def flowSlack (s : State) (fl : Flow) : Option Int := fl.insts.foldl (fun m x => minSlack m (instSlack s fl x)) none

/-- Slack of a cluster: the least of the C0 and C1 flows placed there (R23). -/
def clusterSlack (s : State) (c : Nat) : Option Int :=
  (FMap.vals s.fsc.flows).foldl (fun m fl => if fl.cluster = c ∧ fl.cls ≤ 1 then minSlack m fl.slack else m) none

/-- The pace-monitor window of a cluster closes, and the slack of every flow placed there and of the cluster is taken (R23, R24). The
busy fraction behind the pace is free (log entry 82). -/
def closeWindow (s : State) (c : Nat) : State :=
  let d := drawNat s
  let n := FMap.getD s.fsc.pace c 0
  let old := FMap.get? s.fsc.slack c
  let s0 := putFig .paceRate c 0 (d.1 : Int) (putFig .paceCount c 0 (n : Int) d.2)
  let s1 := withFsc (fun f => { f with flows := FMap.mapV f.flows (fun _ fl =>
    if fl.cluster = c then { fl with slack := flowSlack s0 fl } else fl) }) s0
  match clusterSlack s1 c with
  | none => noticeLive Ev.paceWarning c false none true (withFsc (fun f => { f with slack := FMap.del f.slack c }) s1)
  | some v =>
    let thr : Int := (paceThrNs s : Int)
    let s2 := putFig .minSlack c 0 v (withFsc (fun f => { f with slack := FMap.set f.slack c v }) s1)
    let live : Bool := (releaseThrNs s : Int) ≤ v
    if v < thr && !(old.any (fun o => decide (o < thr))) then
      crossed Ev.paceWarning c (b2n (decide (avsMaxMv s ≤ s.avs.voutMv))) v none live s2
    else noticeLive Ev.paceWarning c false (some v) live s2

/-- Device time slews towards a small correction by at most 200 ppm of the tick (R380). -/
def slewTick (s : State) : State :=
  let lim : Int := ((tickNs s / 5000 : Nat) : Int)
  let v := clampI (-lim) lim s.clk.slewLeft
  { s with clk := { s.clk with offset := s.clk.offset + v, slewLeft := s.clk.slewLeft - v } }

/-- Channels that are to stop do so at their frame boundary (R51). -/
def stopChannels (s : State) : State :=
  s.chans.foldl (fun t e =>
    if e.2.releasing.isSome && (t.clk.tick - e.2.due0) % frameTicks t = 0 && (flow? t e.1).any (fun fl => fl.releasing.isNone) then
      present (.cancelFlow e.1) (stopIssue e.1 (withFlow e.1 (fun fl => { fl with releasing := e.2.releasing }) t))
    else t) s

/-- Whether the minimum slack of an active cluster is below the pace threshold (R26). -/
def slackLow (s : State) : Bool := s.fsc.slack.any (fun e => clusterActive s e.1 && decide (e.2 < (paceThrNs s : Int)))

/-- Whether the minimum slack of every active cluster is at or above the release threshold (R26). -/
def slackCalm (s : State) : Bool := s.fsc.slack.all (fun e => !clusterActive s e.1 || decide ((releaseThrNs s : Int) ≤ e.2))

/-- The AVS loop follows its two conditions at the end of a tick (R26). -/
def followSlack (s : State) : State :=
  let calm : Bool := s.avs.run && slackCalm s && !slackLow s
  { s with avs := { s.avs with
      calmSince := if calm then some (s.avs.calmSince.getD (now s)) else none
      lastUp := if slackLow s then s.avs.lastUp else none } }

/-- The octets of a group of timeslots in each of some frames. -/
def groupOctets (slot law : Nat) (l : List Bytes) : List Bytes := l.map (fun f => sub f slot (groupSlots law))

/-- The frames in a port's receive crossing reach the channels whose timeslots they carry (R32, R43, R117). -/
def takeFrames (t : Nat) (s : State) : State :=
  let l := (tdmPort s t).rxFifo
  if l.isEmpty then s
  else
    let s1 := withTdm t (fun p => { p with rxFifo := [] }) s
    { s1 with
      chans := FMap.mapV s.chans (fun _ c => if c.p.port = t then c.lineIn (groupOctets c.p.slot c.p.lineMode l).flatten else c)
      tps := FMap.mapV s.tps (fun _ x =>
        if x.p.src = 1 && x.p.srcPort = t then (groupOctets x.p.srcSlot x.p.srcLaw l).foldl Tp.sourceIn x else x) }

/-- The local instant at which the next tick begins (R35, R38): a period after the last one, slewed by at most 500 ppm towards the
alignment in which ticks begin at whole multiples of the period of device time. -/
def nextTickAt (s : State) : Ns :=
  let b := s.clk.tickAt + tickNs s
  let p : Int := (tickNs s : Nat)
  let e := Int.emod ((b : Int) + s.clk.offset) p
  let lim : Int := ((tickNs s / 2000 : Nat) : Int)
  ((b : Int) - clampI (-lim) lim (if 2 * e ≤ p then e else e - p)).toNat

/-- Gate cycles and switch instants lie on the timeline of the ticks and slew with them (R371). -/
def shiftGates (d : Int) (s : State) : State :=
  if d = 0 then s
  else
    let move := fun (t : Ns) => ((t : Int) + d).toNat
    { s with eth := FMap.mapV s.eth (fun _ e => { e with gateBase := move e.gateBase, pending := e.pending.map (fun p => (p.1, move p.2)) }) }

/-- A tick is processed: what is presented is settled first, time goes on by a tick, due instances are issued and every
pace-monitor window closes. A MIRROR issues nothing: its objects come from checkpoints alone (R511). -/
def runTick (s : State) : State :=
  let s1 := roundIf s
  let n := s1.clk.tick + 1
  let b := nextTickAt s1
  let shift : Int := (b : Int) - ((s1.clk.tickAt + tickNs s1 : Nat) : Int)
  let s2 := shiftGates shift { s1 with clk := { s1.clk with tick := n, tickAt := b, localNs := max s1.clk.localNs b } }
  let s3 := tickRefs (slewTick s2)
  let s4 := (FMap.keys s3.eth).foldl (fun t p => wireDone p (now t) t) s3
  let s4a := (FMap.keys s4.tdm).foldl (fun t p => takeFrames p t) s4
  let s5 := if s.twin.role = 1 then s4a else stopChannels (issueTick n s4a)
  let s6 := (activeClusters s5).foldl closeWindow s5
  followSlack (withFsc (fun c => { c with pace := [] }) s6)

/-- TICK (R264). -/
def execTick (s : State) : Answer := .next (onlyIf (alive s) (runTick s) s)

/-- INSTANCE_ISSUE (R251). -/
def execInstanceIssue (flow : Nat) (s : State) : Answer := .next (onlyIf (alive s) (issueStalled flow s) s)

/-! ### Deadlines and predicates (R253, R265, R288) -/

/-- The open roots of an instance. -/
def openRoots (x : Inst) : List Root := (x.ops.filter (fun o => o.isRoot && o.pred.isNone)).map (fun o => ⟨x.num, o.node⟩)

/-- An op of a VOID flow at its missed deadline (R265). -/
def lateVoid (miss : Option Nat) (o : Op) : Op :=
  if miss = some o.node || o.st = .released || o.st = .skipped || o.voided then o
  else { o with status := 3, st := if o.waiting then .void else o.st, loc := .none }

/-- An instance has missed its deadline: its ops are void, or go on without speculation (R265, R288). -/
def expire (f i : Nat) (s : State) : State :=
  match (flow? s f).bind (fun fl => (fl.inst? i).map (fun x => (fl, x))) with
  | none => s
  | some (fl, x) =>
    let s1 := missInstance f i s
    if fl.lateRelease then (openRoots x).foldl (fun t r => refuteRoot f r true t) s1
    else
      (openRoots x).foldl (fun t r => refuteRoot f r false t)
        (withInst f i (fun y => { y with ops := y.ops.map (lateVoid fl.miss) }) s1)

/-- DEADLINE_EXPIRY (R265): at the deadline tick, after everything that the tick's round settles (R287). -/
def execDeadlineExpiry (flow : Nat) (inst : Nat) (s : State) : Answer :=
  let s1 := settleNow (roundIf s)
  let due := match (flow? s1 flow).bind (fun fl => fl.inst? inst) with
    | some x => x.deadline.any (fun d => decide (d ≤ s1.clk.tick))
    | none => false
  .next (onlyIf (alive s && due) (expire flow inst s1) s)

/-- PRED_TICKS_EXPIRY (R253): an item that has not come by its tick resolves the predicate to 0. -/
def execPredTicksExpiry (flow : Nat) (inst : Nat) (node : Nat) (s : State) : Answer :=
  let s1 := judgePred flow inst node (roundIf s)
  let due := match (flow? s1 flow).bind (fun fl => (fl.inst? inst).bind (fun x => (x.op? node).map (fun o => (fl, x, o)))) with
    | some (fl, x, o) =>
      let nd := fl.node node
      nd.predKind = 2 && o.pred.isNone && !(o.st = .released) && x.due + nd.predTicks ≤ s1.clk.tick
    | none => false
  .next (onlyIf (alive s && due) (resolvePred flow inst node false s1) s)

/-- ARBITRATION_ROUND (R272). -/
def execArbitrationRound (s : State) : Answer := .next (onlyIf (alive s) (radioRound (round s)) s)

/-! ### Dispatch and completion (R254 to R258) -/

/-- A list of roots with another added. -/
def addRoot (l : List Root) (r : Root) : List Root := if l.contains r then l else l ++ [r]

/-- The roots an op takes on at its dispatch (R279): its own, those of its inputs, and those of the state it starts
from. -/
def rootsFor (fl : Flow) (x : Inst) (o : Op) : List Root :=
  let nd := fl.node o.node
  let own := if o.open_ nd then [(⟨x.num, o.node⟩ : Root)] else []
  let ins := (dataNodes nd).flatMap (fun d => match x.op? d with | some p => p.roots | none => [])
  (ins ++ (stateFor fl o.node).2).foldl addRoot own

/-- Load a VPE with an op: a user kernel with its areas; of a kernel of the Media Image the op alone is kept. -/
def startVpe (n f : Nat) (fl : Flow) (x : Inst) (o : Op) (s : State) : State :=
  let nd := fl.node o.node
  match kernelAt s n nd.kernel with
  | some k =>
    if k.user then
      let d := drawNat s
      let w := d.1 % (30720 - k.window + 1)
      let old := { vpeAt s n with mem := withConsts (codeAt s n).consts (vpeAt s n).mem }
      putVpe n (loadVpe old k w s.clk.tick f x.num o.node (opWord fl x o) (inputsOf fl x o) (stateFor fl o.node).1) d.2
    else putVpe n { Vpe.initial with mem := (vpeAt s n).mem, kernelId := nd.kernel, op := some (f, x.num, o.node) } s
  | none => putVpe n { Vpe.initial with mem := (vpeAt s n).mem, kernelId := nd.kernel, op := some (f, x.num, o.node) } s

/-- The counts of a dispatch (R258, R277). -/
def countDispatch (n : Nat) (fl : Flow) (spec : Bool) (s : State) : State :=
  let s1 := bump .fscDispatch fl.cls (bumpN .fscSpecDispatch fl.cls 0 (b2n spec) s)
  if fl.homeVpe = n then s1
  else if fl.homeVpe / 16 = n / 16 then bump .affVpeMiss (n / 16) s1
  else bump .affClusterMiss (n / 16) s1

/-- A VPE takes an op: the dispatch is recorded, the VPE becomes the flow's home, and the op is loaded (R258). -/
def dispatch (n f i d : Nat) (s : State) : State :=
  match flow? s f, opAt s f i d with
  | some fl, some o =>
    let spec := o.open_ (fl.node d)
    let s1 := takeFor f i d (countDispatch n fl spec s)
    let s2 := withFlow f (fun g => { g with homeVpe := n, cluster := n / 16 }) s1
    match (flow? s2 f).bind (fun g => (g.inst? i).bind (fun x => (x.op? d).map (fun p => (g, x, p)))) with
    | none => s2
    | some (g, x, p) =>
      let s3 := startVpe n f g x p s2
      let s4 := withOp f i d (fun q =>
        { q with st := .dispatched, loc := .none, ran := true, vpe := n, roots := rootsFor g x p, isRoot := q.isRoot || spec
                 stale := false }) s3
      pressure (if d = 0 && FMap.has s4.chans f then decodeStart f i s4 else s4)
  | _, _ => s

/-- OP_DISPATCH (R258): an idle VPE of an active cluster takes the best entry of its lists. -/
def execOpDispatch (vpe : Nat) (flow : Nat) (inst : Nat) (node : Nat) (s : State) : Answer :=
  let s1 := roundIf s
  .next (onlyIf (alive s && vpeFree s1 vpe && bestFor s1 vpe flow inst node) (dispatch vpe flow inst node s1) s)

/-- The result of the op on a VPE: what the VPE holds where it ran a user kernel's bundles, else what is given. -/
def resultOf (s : State) (n : Nat) (res : OpRes) : OpRes :=
  let v := vpeAt s n
  vpeResult v ((kernelAt s n v.kernelId).filter (fun k => k.user)) res

/-- OP_COMPLETE (R258): the op on a VPE ends and is presented to the ordering point. -/
def execOpComplete (vpe : Nat) (res : OpRes) (s : State) : Answer :=
  match (vpeAt s vpe).op with
  | some (f, i, d) =>
    .next (onlyIf (alive s && vpe < 272)
      (present (.complete vpe f i d (resultOf s vpe res)) (putVpe vpe { vpeAt s vpe with op := none, run := .idle } s)) s)
  | none => .next s

/-! ### Patience, age and stealing (R255 to R257, R259) -/

/-- PATIENCE_EXPIRY (R256): a ready op moves on to its cluster's list and then to the global one. -/
def execPatienceExpiry (flow : Nat) (inst : Nat) (node : Nat) (t : Ns) (s : State) : Answer :=
  let s1 := advance t s
  match flow? s1 flow, opAt s1 flow inst node with
  | some fl, some o =>
    let move := fun (l : OpLoc) => withOp flow inst node (fun p => { p with loc := l }) s1
    let s2 :=
      if o.st ≠ .ready then s1
      else
        match o.loc with
        | .vpe n => if o.readyAt + vpePatNs s1 fl.cls ≤ t then move (.cluster (n / 16)) else s1
        | .cluster _ => if o.readyAt + clPatNs s1 fl.cls ≤ t then move .global else s1
        | _ => s1
    .next (onlyIf (alive s1) s2 s1)
  | _, _ => .next s1

/-- OP_AGED (R257): a C2 or C3 op that has been ready beyond its age ranks as C1. -/
def execOpAged (flow : Nat) (inst : Nat) (node : Nat) (t : Ns) (s : State) : Answer :=
  let s1 := advance t s
  match flow? s1 flow, opAt s1 flow inst node with
  | some fl, some o =>
    let old := match ageNs s1 fl.cls with | some a => decide (o.readyAt + a ≤ t) | none => false
    .next (onlyIf (alive s1 && o.st = .ready && !o.aged && old)
      (bump .fscAged fl.cls (withOp flow inst node (fun p => { p with aged := true }) s1)) s1)
  | _, _ => .next s1

/-- STEAL_AGE_EXPIRY (R257). -/
def execStealAgeExpiry (vpe : Nat) (t : Ns) (s : State) : Answer :=
  let s1 := roundIf (advance t s)
  match stealFor s1 vpe t with
  | some (f, i, d) => .next (onlyIf (alive s1 && vpeFree s1 vpe) (dispatch vpe f i d (bump .fscSteal (vpe / 16) s1)) (advance t s))
  | none => .next (advance t s)

end Sys2Proof.Machine
end

