-- ==== Sys2Proof/Machine/Avs.lean ====
section
/-! DEFINITION. The AVS loop (R26, R27, R526, R550). -/

namespace Sys2Proof.Machine

open Sys2Proof

/-- The voltage that requests start from: the one last acknowledged, and before any the regulator's power-up voltage,
which the board sets (log entry 5). -/
def avsBase (s : State) : Nat := if s.avs.voutMv = 0 then Config.unstated 26 0 else s.avs.voutMv

/-- The voltage of the upward request that is due: +10 mV at once and then every 1 ms while the condition holds. -/
def upDue (s : State) (t : Ns) : Option Nat :=
  if slackLow s && (match s.avs.lastUp with | some a => decide (a + 1000000 ≤ t) | none => true) then
    some (max (avsBase s + 10) (avsMinMv s))
  else none

/-- The upward request that is sent: never past AVS_VMAX. -/
def upRequest (s : State) (t : Ns) : Option Nat := (upDue s t).filter (fun v => decide (v ≤ avsMaxMv s))

/-- A request that would pass AVS_VMAX is not sent: the outstanding PACE_WARNING of every cluster below the pace threshold records
that the limit was reached. -/
def limitReached (s : State) : State :=
  withNotices (fun l => l.map (fun n =>
    if n.code == Ev.paceWarning && (FMap.get? s.fsc.slack n.object).any (fun v => decide (v < (paceThrNs s : Int))) then
      { n with reason := 1 }
    else n)) s

/-- The downward request that is due: −5 mV after 100 ms without a break, and again every 100 ms, kept within AVS_VMIN and
AVS_VMAX; none while the junction is above 110 °C or an AVS_FAULT is not acknowledged. -/
def downRequest (s : State) (tempDeciC : Int) (t : Ns) : Option Nat :=
  let v := max (min (avsBase s - 5) (avsMaxMv s)) (avsMinMv s)
  let calm : Bool := match s.avs.calmSince with | some a => a + 100000000 ≤ t | none => false
  let paced : Bool := match s.avs.lastDown with | some a => a + 100000000 ≤ t | none => true
  if calm && paced && tempDeciC ≤ 1100 && (notice? s Ev.avsFault 0).isNone && v ≠ avsBase s then some v else none

/-- A PMBus transaction: acknowledged with the value read back, or to be retried after 100 µs. An alert is a failed
transaction (R550). -/
def transact (v : Nat) (acked : Bool) (t : Ns) (s : State) : State :=
  if acked then { s with avs := { s.avs with voutMv := v, request := none, retryAt := none } }
  else { s with avs := { s.avs with request := some v, retryAt := some (t + 100000) } }

/-- One step of the loop: the upward request wins. -/
def avsStep (tempDeciC : Int) (acked : Bool) (t : Ns) (s : State) : State :=
  match upRequest s t with
  | some v => transact v acked t { s with avs := { s.avs with lastUp := some t } }
  | none =>
    if slackLow s then (if (upDue s t).isSome then limitReached s else s)
    else
      match downRequest s tempDeciC t with
      | some v => transact v acked t { s with avs := { s.avs with lastDown := some t } }
      | none => s

/-- AVS_STEP (R26): from READY on, while no transaction waits for its retry. -/
def execAvsStep (t : Ns) (tempDeciC : Int) (acked : Bool) (s : State) : Answer :=
  let s1 := advance t s
  .next (onlyIf (alive s1 && s1.avs.run && s1.avs.request.isNone) (avsStep tempDeciC acked t s1) s1)

/-- The retry: a second failure counts and raises AVS_FAULT. -/
def avsRetry (acked : Bool) (s : State) : State :=
  match s.avs.request with
  | none => s
  | some v =>
    let s1 : State := { s with avs := { s.avs with request := none, retryAt := none } }
    if acked then { s1 with avs := { s1.avs with voutMv := v } }
    else crossed Ev.avsFault 0 0 (v : Int) none false (bump .avsFault 0 s1)

/-- AVS_RETRY (R26): 100 µs after the failed transaction. -/
def execAvsRetry (t : Ns) (acked : Bool) (s : State) : Answer :=
  let s1 := advance t s
  .next (onlyIf (alive s1 && (match s1.avs.retryAt with | some a => decide (a ≤ t) | none => false)) (avsRetry acked s1) s1)

end Sys2Proof.Machine
end

