-- ==== Sys2Proof/Machine/Ethernet.lean ====
section
/-! DEFINITION. The commands of the Ethernet ports: receive and transmit, gate lists, low-power idle, PRP, PTP, the
timebase's references and wake patterns (R361 to R386). -/

namespace Sys2Proof.Machine

open Sys2Proof

/-! ### GATE_LIST_SET and GATE_LIST_SWITCH (R369 to R372, R553) -/

/-- The gate list of a block. -/
def gateListOf (b : Bytes) : GateList :=
  { cycle := leAt b 4 4, base := leAt b 8 8
    entries := (List.range (fieldAt b 1 6 0)).map (fun i => (BitVec.ofNat 8 (byteAt b (0x20 + 8 * i)), leAt b (0x24 + 8 * i) 4)) }

/-- GATE_LIST_SET's own check (R370). -/
def gateListStatus (s : State) (b : Bytes) : Nat :=
  let g := gateListOf b
  let n := fieldAt b 1 6 0
  if fieldAt b 0 7 5 = 0 && fieldAt b 1 7 7 = 0 && leAt b 2 2 = 0 && zeroIn b 0x10 16 && n ≤ 64 &&
      (List.range n).all (fun i => zeroIn b (0x21 + 8 * i) 3) && 1000 ≤ g.cycle && g.cycle ≤ 1000000000 &&
      g.entries.all (fun e => decide (1000 ≤ e.2)) && (n = 0 || (g.entries.map (·.2)).sum = g.cycle) &&
      ethMode s (fieldAt b 0 4 0) ≠ 0 then St.ok
  else St.badParam

/-- The switch instant of a list, in device time (R372). -/
def switchTime (s : State) (g : GateList) : Nat :=
  let t := devTime s + 1000000
  if t ≤ g.base then g.base else g.base + cdiv (t - g.base) g.cycle * g.cycle

/-- A list waits for its switch instant; a list that waits already is replaced. -/
def setGates (b : Bytes) (s : State) : State :=
  let g := gateListOf b
  let at_ := ((switchTime s g : Int) - s.clk.offset).toNat
  withPort (fieldAt b 0 4 0) (fun e => { e with pending := some (if g.entries.isEmpty then none else some g, at_) }) s

/-- GATE_LIST_SET (R372). -/
def execGateListSet (h : CmdHdr) (s : State) : Answer :=
  let spec : CmdSpec := ⟨0x0191, 2, fun l => 32 ≤ l && l = 32 + 8 * fieldAt (blk h) 1 6 0, true, false⟩
  .next (runCmd spec h (fun s1 => checked (gateListStatus s1 (blk h)) (setGates (blk h) s1) s1) s)

/-- Body of GATE_LIST_ACTIVE (R553). -/
def gateActiveBody (p : Nat) (g : Option GateList) (time : Nat) : Bytes :=
  padTo 48 (toLE 1 p ++ toLE 1 (match g with | some l => l.entries.length | none => 0) ++ zeros 2 ++
    toLE 4 (match g with | some l => l.cycle | none => 0) ++ toLE 8 time)

/-- GATE_LIST_SWITCH (R372). -/
def execGateListSwitch (port : Nat) (t : Ns) (s : State) : Answer :=
  let s1 := advance t s
  match (ethPort s1 port).pending with
  | some (g, at_) =>
    .next (onlyIf (alive s1 && at_ ≤ t)
      (raise Ev.gateListActive none (gateActiveBody port g (devOf s1 at_))
        (withPort port (fun e => { e with gates := g, gateBase := at_, pending := none }) s1)) s1)
  | none => .next s1

/-! ### WAKE_PATTERN_SET (R383) -/

/-- WAKE_PATTERN_SET's own check. -/
def wakePatternStatus (b : Bytes) : Nat :=
  if 8 ≤ fieldAt b 0 4 0 && byteAt b 1 ≤ 128 && zeroIn b 2 14 then St.ok else St.badParam

/-- Set or delete a pattern. -/
def setWakePattern (b : Bytes) (s : State) : State :=
  let w : WakePattern := { value := sub b 0x20 128, mask := sub b 0x10 16, len := byteAt b 1 }
  let i := fieldAt b 0 7 5
  withPort (fieldAt b 0 4 0) (fun e => { e with wake := if w.len = 0 then FMap.del e.wake i else FMap.set e.wake i w }) s

/-- WAKE_PATTERN_SET (R383). -/
def execWakePatternSet (h : CmdHdr) (s : State) : Answer :=
  .next (runCmd (blockCmd 0x0192 2 160) h (fun s1 => checked (wakePatternStatus (blk h)) (setWakePattern (blk h) s1) s1) s)

/-! ### Receive (R364 to R366, R375, R376) -/

/-- The Ethernet check value of six octets gives the hash bucket of a group address (R365). -/
def hashBucket (dst : Bytes) : Nat := (crc32 dst).toNat % 512

/-- Whether a destination address passes the filter of a port (R365). -/
def addrPasses (s : State) (p : Nat) (dst : Bytes) : Bool :=
  let a := beNat dst
  let k := hashBucket dst
  a = ethMac s p || (a = 0xFFFFFFFFFFFF && flag s .ethPortCfg p 21) ||
  (bit (byteAt dst 0) 0 && flag s .ethHash (16 * p + k / 32) (k % 32)) || flag s .ethPortCfg p 20 ||
  (flag s .ethPortCfg p 22 && (a = 0x011B19000000 || a = 0x0180C200000E)) || ((pairOf s p).isSome && a = 0x01154E000100)

/-- Whether a frame on a pair port is a PRP frame: its trailer's suffix and size match (R376). -/
def hasTrailer (d : Bytes) : Bool :=
  headLen d + 6 ≤ d.length && beAt d (d.length - 2) 2 = 0x88FB && beAt d (d.length - 4) 2 % 4096 = (d.length - headLen d) % 4096

/-- The least recently used source of a table. -/
def oldestSource (m : FMap PrpEntry) : Option Nat :=
  (m.foldl (fun (a : Option (Nat × Ns)) e => match a with
    | some (_, t) => if e.2.last < t then some (e.1, e.2.last) else a
    | none => some (e.1, e.2.last)) none).map (·.1)

/-- A PRP frame at the table of its pair (R376): whether it is accepted, and the state. -/
def prpCheck (n p : Nat) (d : Bytes) (t : Ns) (s : State) : Bool × State :=
  let seq := BitVec.ofNat 16 (beAt d (d.length - 6) 2)
  let lan := byteAt d (d.length - 4) / 16
  let mac := beAt d 6 6
  let s1 := if lan = (if prpPortA s n = p then 0xA else 0xB) then s else bump .prpWrongLan p s
  let put := fun (e : PrpEntry) (u : State) => withPair n (fun q => { q with table := FMap.set q.table mac e }) u
  match FMap.get? (prpPair s n).table mac with
  | none =>
    let room := fun (q : PrpPair) =>
      if q.table.length < 4096 then q.table else match oldestSource q.table with | some k => FMap.del q.table k | none => q.table
    (true, put { high := seq, seen := [seq], lone := [(seq, p, t)], last := t } (withPair n (fun q => { q with table := room q }) s1))
  | some e =>
    let ahead := (seq - e.high).toNat
    let behind := (e.high - seq).toNat
    let lone := e.lone ++ [(seq, p, t)]
    if 1 ≤ ahead && ahead ≤ 32767 then
      (true, put { high := seq, seen := seq :: e.seen.filter (fun x => (seq - x).toNat < 256), lone, last := t } s1)
    else if behind < 256 then
      if e.seen.contains seq then
        (false, bump .prpDup n (put { e with lone := e.lone.filter (fun x => !(x.1 == seq && x.2.1 != p)), last := t } s1))
      else (true, put { e with seen := seq :: e.seen, lone, last := t } s1)
    else (true, bump .prpOutOfWindow n (put { e with last := t, lone } s1))

/-- Whether a context's stream has a datagram's address and tag (R85). -/
def rtpMatches (p : RtpParams) (f : ParsedFrame) (u : UdpIn) : Bool :=
  p.ipv6 = u.v6 && addrOf p.ipv6 p.localAddr = u.dst && f.vid = (if p.vlanEn then some p.vlanId else none)

/-- The context a datagram is for, and whether it is RTCP: by port, or with rtcp_mux by packet type. -/
def rtpFor (s : State) (f : ParsedFrame) (u : UdpIn) : Option (Nat × Bool) :=
  s.rtps.findSome? (fun e =>
    let p := e.2.p
    if !rtpMatches p f u then none
    else if p.localPort = u.dport then some (e.1, p.rtcpMux && 192 ≤ byteAt u.payload 1 && byteAt u.payload 1 ≤ 223)
    else if !p.rtcpMux && u.dport = p.localPort + 1 then some (e.1, true)
    else none)

/-- The teleprotection channel whose Ethernet key, or UDP key, a frame meets (R85, R115: the UDP key has no 802.1Q tag). -/
def tpForEth (s : State) (f : ParsedFrame) : Option Nat :=
  (s.tps.find? (fun e => let p := e.2.p
    p.transport == 0 && f.etherType != 0x88A8 && p.etherType == f.etherType && f.vid == (if p.vlanEn then some p.vlanId else none) &&
    decide (4 ≤ f.payload.length) && beAt f.payload 2 2 == p.rxLink)).map (·.1)
def tpForUdp (s : State) (u : UdpIn) : Option Nat :=
  (s.tps.find? (fun e => let p := e.2.p
    p.transport != 0 && ((p.transport == 2) == u.v6) && addrOf u.v6 p.localAddr == u.dst && p.localPort == u.dport)).map (·.1)

/-- The source field of a receive descriptor (R416). -/
def ethSource (s : State) (p : Nat) : Nat := match pairOf s p with | some n => p + 32 + 64 * n | none => p

/-- The receive time-stamp (R378). -/
def rxStamp (s : State) (p : Nat) (t : Ns) : Nat := devOf s t - tsAdj s p false

/-- A frame nothing else takes goes to the port's default ring (R366). -/
def deliverDefault (p : Nat) (d : Bytes) (fr : EthFrame) (s : State) : State :=
  if flag s .ethRxCfg p 9 then
    deliverItem (fld s .ethRxCfg p 8 0)
      { kind := 0, source := ethSource s p, data := d, tsValid := true, time := BitVec.ofNat 64 (rxStamp s p fr.time), frac := fr.frac
        ext := choosePool s 1 1 (cellsOf d.length) false = some true } s
  else bump .rxUnclaimed p s

/-- Delivery of a frame that has passed the checks (R366, R86). -/
def deliverFrame (p : Nat) (d : Bytes) (fr : EthFrame) (s : State) : State :=
  let f := parseFrame d
  if f.etherType = 0x88F7 && flag s .ethPortCfg p 22 then s
  else if f.etherType = 0x88FB && (pairOf s p).isSome && beNat f.dst = 0x01154E000100 then bump .prpSvRx p s
  else
    match tpForEth s f with
    | some n => tpReceive n f.payload fr.time s
    | none =>
      match parseIp f with
      | none => deliverDefault p d fr s
      | some u =>
        match tpForUdp s u, rtpFor s f u with
        | some n, _ => if u.sumOk then tpReceive n u.payload fr.time s else bump .udpCsum p s
        | none, some (c, rtcp) =>
          if !u.sumOk then bump .udpCsum p s
          else if rtcp then rtcpReceive c u.src u.sport u.payload s
          else rtpReceive c u.src u.sport u.payload s
        | none, none => deliverDefault p d fr s

/-- The counter of the first of checks 2 to 6 of R364 that a frame fails. -/
def rxHeadFault (s : State) (p : Nat) (fr : EthFrame) : Option Ctr :=
  let len := fr.data.length + 4
  if len < 64 then some .rxRunt
  else if maxFrame s p < len then some .rxOversize
  else if fr.codeErr || crc32 fr.data ≠ fr.fcs then some .rxFcs
  else if (parseFrame fr.data).etherType = 0x8808 then some .rxCtrl
  else if !addrPasses s p (fr.data.take 6) then some .rxFilter
  else none

/-- The counter of the first of checks 1 to 6 of R364 that a frame fails: cells for MAX_FRAME are reserved first, as SPILL (R20, R309;
class C1, log entry 80). -/
def rxRefusal (s : State) (p : Nat) (fr : EthFrame) : Option Ctr :=
  if (choosePool s 1 1 (cdiv (maxFrame s p) 64) false).isNone then some .rxNocell else rxHeadFault s p fr

/-- A received frame (R364): its class, which the spec leaves open on receive, is free in the figures. -/
def receiveFrame (p : Nat) (fr : EthFrame) (s : State) : State :=
  match rxRefusal s p fr with
  | some c => bump c p s
  | none =>
    let d := drawNat s
    let s1 := addFig .ethRxOctets p (d.1 % 8) (fr.data.length + 4) (addFig .ethRxFrames p (d.1 % 8) 1 d.2)
    match pairOf s p with
    | none => deliverFrame p fr.data fr s1
    | some n =>
      if !hasTrailer fr.data then deliverFrame p fr.data fr (bump .prpNonPrp n s1)
      else
        let (ok, s2) := prpCheck n p fr.data fr.time s1
        if ok then deliverFrame p (fr.data.take (fr.data.length - 6)) fr s2 else s2

/-- ETH_RX_FRAME (R364): while the link is down no frame is received. -/
def execEthRxFrame (port : Nat) (frame : EthFrame) (s : State) : Answer :=
  let s1 := advance frame.time s
  .next (onlyIf (alive s1 && port < 32 && ethMode s1 port ≠ 0 && (ethPort s1 port).linkUp) (receiveFrame port frame s1) s1)

/-! ### Transmit and the link (R362, R368, R371) -/

/-- A free port whose wake has ended starts a frame. -/
def portStart (p : Nat) (t : Ns) (s : State) : State :=
  let s1 := dropTooLong p (wireDone p t s)
  let e := ethPort s1 p
  if e.linkUp && e.onWire.isNone && !e.lpiTx && (match e.wakeAt with | some w => decide (w ≤ t) | none => true) then
    startFrame p t (withPort p (fun q => { q with wakeAt := none }) s1)
  else s1

/-- ETH_TX_START (R368). -/
def execEthTxStart (port : Nat) (t : Ns) (s : State) : Answer :=
  let s1 := advance t s
  .next (onlyIf (alive s1 && port < 32) (portStart port t s1) s1)

/-- The link of a port goes up or down. -/
def changeLink (p : Nat) (up : Bool) (s : State) : State :=
  let s1 := wireDone p (now s) s
  if up = (ethPort s1 p).linkUp then s1
  else if up then updateRefs (noticeLive Ev.ethLinkDown p false none true (withPort p (fun e => { e with linkUp := true }) s1))
  else updateRefs (crossed Ev.ethLinkDown p 0 0 none false (loseLink p s1))

/-- Whether a port keeps its link in STANDBY, with the committed settings (R383). -/
def wakePort (s : State) (p : Nat) : Bool :=
  let v := { s with regs := s.endp.committed.regs }
  8 ≤ p && p < 32 && flag v .ethPortCfg p 24 && ethMode v p ≠ 0

/-- ETH_LINK_CHANGE (R362): a port in mode DISABLED keeps its link down. In STANDBY only the links of wake ports are left, and nothing
tells of them (R383, R384). -/
def execEthLinkChange (port : Nat) (up : Bool) (s : State) : Answer :=
  .next (if alive s then onlyIf (port < 32 && ethMode s port ≠ 0) (changeLink port up s) s
    else onlyIf (s.avl.power = 1 && !s.avl.porHeld && wakePort s port) (withPort port (fun e => { e with linkUp := up }) s) s)

/-! ### Low-power idle (R373, R374) -/

/-- Whether a mode has low-power idle, and the wake time of a port (R373). -/
def eeeMode (s : State) (p : Nat) : Bool := ethMode s p = 1 || ethMode s p = 2 || ethMode s p = 4
def wakeTime (s : State) (p : Nat) : Nat := max (fld s .ethEee p 15 0) (if ethMode s p = 4 then 16500 else 4480)

/-- The conditions of R374. -/
def mayIdle (s : State) (p : Nat) (t : Ns) : Bool :=
  let e := ethPort s p
  flag s .ethPortCfg p 23 && eeeMode s p && e.linkUp && !e.lpiTx && e.wakeAt.isNone && e.idle &&
  e.lastTx + 1000 * fld s .ethEee p 31 16 ≤ t && openSpan e 7 t = some 0 &&
  (match untilOpen e 7 t with | some n => decide (2 * wakeTime s p ≤ n) | none => true)

/-- LPI_ENTER (R374). -/
def execLpiEnter (port : Nat) (t : Ns) (s : State) : Answer :=
  let s1 := advance t s
  let s2 := wireDone port t s1
  .next (onlyIf (alive s1 && port < 32 && mayIdle s2 port t)
    (withPort port (fun e => { e with lpiTx := true, lpiTw := wakeTime s2 port, lpiAt := t }) s2) s1)

/-- LPI_WAKE (R374): tw_tx before the next TC7 opening. -/
def execLpiWake (port : Nat) (t : Ns) (s : State) : Answer :=
  let s1 := advance t s
  let e := ethPort s1 port
  let due := e.lpiTx && (match untilOpen e 7 t with | some n => decide (n ≤ e.lpiTw) | none => false)
  .next (onlyIf (alive s1 && port < 32 && due) (beginWake port t s1) s1)

/-! ### PRP (R376, R377) -/

/-- A supervision frame of a pair; the sequence number inside its TLV is free (log entry 13). -/
def supervision (s : State) (n seq : Nat) : Bytes :=
  let mac := macOf s (prpPortA s n)
  ethFrame (toBE 6 0x01154E000100) mac none 0x88FB (toBE 2 1 ++ toBE 2 seq ++ toBE 1 20 ++ toBE 1 6 ++ mac ++ zeros 2)

/-- PRP_SV_SEND (R377). -/
def execPrpSvSend (pair : Nat) (t : Ns) (s : State) : Answer :=
  let s1 := advance t s
  let d := drawNat s1
  .next (onlyIf (alive s1 && prpEnabled s1 pair && flag s1 .prpPairCfg pair 17 && (prpPair s1 pair).svAt + 2000000000 ≤ t)
    (pairSend pair 6 (supervision s1 pair d.1) none false (withPair pair (fun q => { q with svAt := t }) d.2)) s1)

/-- What has passed 400 ms at a source entry (R376): copies that did not arrive count, and an entry is forgotten. -/
def prpTimeout (n mac : Nat) (t : Ns) (s : State) : State :=
  match FMap.get? (prpPair s n).table mac with
  | none => s
  | some e =>
    let old := e.lone.filter (fun x => decide (x.2.2 + 400000000 ≤ t))
    let e1 := { e with lone := e.lone.filter (fun x => decide (t < x.2.2 + 400000000)) }
    old.foldl (fun u x => bump .prpUnique x.2.1 u)
      (withPair n (fun q => { q with table := if e.last + 400000000 ≤ t then FMap.del q.table mac else FMap.set q.table mac e1 }) s)

/-- PRP_ENTRY_TIMEOUT (R376). -/
def execPrpEntryTimeout (pair : Nat) (mac : Nat) (t : Ns) (s : State) : Answer :=
  let s1 := advance t s
  .next (onlyIf (alive s1 && prpEnabled s1 pair) (prpTimeout pair mac t s1) s1)

/-! ### PTP and the timebase (R379 to R382) -/

/-- Put octets over a string from an offset. -/
def overlay (b : Bytes) (off : Nat) (v : Bytes) : Bytes := b.take off ++ v ++ b.drop (off + v.length)

/-- Octets of a PTP message of a type: Announce 64, Sync and Follow_Up 44, peer delay 54 (log entry 13). -/
def ptpLen (type : Nat) : Nat := if type = 0xB then 64 else if type = 0 || type = 8 then 44 else 54

/-- Whether a port sends two steps (R379): Sync and Pdelay_Resp are then followed by a message of their own. -/
def twoStep (s : State) (p : Nat) : Bool := !(p < 8 && flag s .ptpCfg 0 9)

/-- A PTP message of a type: its header with the domain, priority1 and priority2 in an Announce; the other octets are free (log entry
13). -/
def ptpOctets (s : State) (p type : Nat) (free : Bytes) : Bytes :=
  let n := ptpLen type
  let b := overlay (padTo n free) 0 (toBE 1 type ++ toBE 1 0x12 ++ toBE 2 n ++ toBE 1 (fld s .ptpCfg 0 7 0))
  let b1 := overlay b 6 (toBE 1 (if twoStep s p && (type = 0 || type = 3) then 2 else 0))
  if type = 0xB then overlay (overlay b1 47 (toBE 1 (fld s .ptpCfg 0 23 16))) 52 (toBE 1 (fld s .ptpCfg 0 31 24)) else b1

/-- Whether a type is of the peer delay mechanism, and whether it carries a time-stamp. -/
def ptpPeer (type : Nat) : Bool := type = 2 || type = 3 || type = 0xA
def ptpEvent (type : Nat) : Bool := type ≤ 3

/-- The Control Image sends a PTP message on a port, and in two steps the one that follows it. Peer delay messages have an address of
their own. -/
def ptpOne (p type : Nat) (s : State) : State :=
  let d := drawBytes (ptpLen type) s
  ethSend p 6 (ethFrame (toBE 6 (if ptpPeer type then 0x0180C200000E else 0x011B19000000)) (macOf s p) none 0x88F7
    (ptpOctets s p type d.1)) none (ptpEvent type) d.2
def ptpSend (p type : Nat) (s : State) : State :=
  let s1 := ptpOne p type s
  if !twoStep s p then s1 else if type = 0 then ptpOne p 8 s1 else if type = 3 then ptpOne p 0xA s1 else s1

/-- Whether a rank comes before another in the order of the best master clock algorithm. -/
def rankBefore : List Nat → List Nat → Bool
  | [], [] => false
  | [], _ => true
  | _, [] => false
  | a :: r, b :: q => a < b || (a == b && rankBefore r q)

/-- The device's own rank: priority1 and priority2 of PTP_CFG; the rest is not stated (log entry 13). -/
def ownRank (s : State) : List Nat :=
  [fld s .ptpCfg 0 23 16, Config.unstated 379 0, Config.unstated 379 1, Config.unstated 379 2, fld s .ptpCfg 0 31 24, Config.unstated 379 3]

/-- An Announce on a port (R379): the best master is followed that comes before the device itself, which a slave-only clock never
prefers. News of the master followed replaces what was known of it. -/
def announced (p : Nat) (rank : List Nat) (s : State) : State :=
  let fits : Bool := flag s .ptpCfg 0 8 || rankBefore rank (ownRank s)
  let follow := updateRefs (withClk (fun c => { c with ptpMaster := if fits then some (p, rank) else none }) s)
  match s.clk.ptpMaster with
  | none => if fits then follow else s
  | some (q, r) =>
    if q = p && r.getLast? == rank.getLast? then follow else if rankBefore rank r then follow else s

/-- Whether a port runs PTP. -/
def ptpPort (s : State) (p : Nat) : Bool := p < 32 && flag s .ethPortCfg p 22 && (ethPort s p).linkUp

/-- Whether a port is the one in SLAVE state. -/
def ptpSlaveOn (s : State) (p : Nat) : Bool := s.clk.ptpMaster.any (fun m => m.1 == p)

/-- A PTP message has been parsed: a Sync from the master corrects device time while PTP is followed, an Announce takes part in the
choice of the master, and a Pdelay_Req is answered. -/
def ptpMessage (p : Nat) (m : PtpMsg) (s : State) : State :=
  if m.domain ≠ fld s .ptpCfg 0 7 0 then s
  else
    match m.kind with
    | 0 => if ptpSlaveOn s p && s.clk.phaseRef = 1 then correctTime m.offset s else s
    | 2 => announced p m.rank s
    | 3 => ptpSend p 3 s
    | _ => s

/-- PTP_MESSAGE_RX (R379). -/
def execPtpMessageRx (port : Nat) (msg : PtpMsg) (t : Ns) (s : State) : Answer :=
  let s1 := advance t s
  .next (onlyIf (alive s1 && ptpPort s1 port) (ptpMessage port msg s1) s1)

/-- An interval of a PTP port has expired: 0 Sync and 2 Announce are sent by a port that is master, which in a boundary clock are all
but the slave; 1 Pdelay_Req by every port; 3 is the receipt timeout of Announce, after which the slave's master is followed no more. -/
def ptpInterval (p kind : Nat) (t : Ns) (s : State) : State :=
  let s1 := withClk (fun c => { c with ptpSent := FMap.set c.ptpSent (4 * p + kind) t }) s
  match kind with
  | 1 => ptpSend p 2 s1
  | 3 => if ptpSlaveOn s p then updateRefs (withClk (fun c => { c with ptpMaster := none }) s1) else s1
  | k => if flag s .ptpCfg 0 8 || ptpSlaveOn s p then s1 else ptpSend p (if k = 0 then 0 else 0xB) s1

/-- PTP_INTERVAL (R379): 1 s for each message, 3 s for the receipt timeout. -/
def execPtpInterval (port : Nat) (kind : Nat) (t : Ns) (s : State) : Answer :=
  let s1 := advance t s
  let due := FMap.getD s1.clk.ptpSent (4 * port + kind) 0 + (if kind = 3 then 3000000000 else 1000000000) ≤ t
  .next (onlyIf (alive s1 && ptpPort s1 port && kind ≤ 3 && due) (ptpInterval port kind t s1) s1)

/-- PPS_EDGE (R381): the edge corrects device time while PPS is followed. -/
def execPpsEdge (t : Ns) (offset : Int) (s : State) : Answer :=
  let s1 := advance t s
  .next (onlyIf (alive s1 && s1.clk.phaseRef = 2) (correctTime offset s1) s1)

/-- TBU_REF_UPDATE (R381, R382). -/
def execTbuRefUpdate (code : Nat) (available : Bool) (s : State) : Answer :=
  .next (onlyIf (alive s && 1 ≤ code && code ≤ 6)
    (updateRefs (withClk (fun c =>
      { c with avail := if available then insNat code c.avail else c.avail.filter (· != code) }) s)) s)

/-- TBU_TIME_SET (R381): device time is set; ticks go on. -/
def execTbuTimeSet (h : CmdHdr) (time : Nat) (s : State) : Answer :=
  .next (runCmd (plainCmd 0x0193 2) h (fun s1 =>
    .done St.ok [] (withClk (fun c => { c with offset := (time : Int) - (c.localNs : Int), slewLeft := 0 }) s1)) s)

end Sys2Proof.Machine
end

