-- ==== Sys2Proof/Machine/Radio.lean ====
section
/-! DEFINITION. Radio links, gain control and receive channels (R138 to R202), and radio capture (R343). -/

namespace Sys2Proof.Machine

open Sys2Proof

/-! ### Links (R139 to R147, R528) -/

/-- The link starts: the pairs that its lanes use are powered (R140), and each antenna takes the start entry of its table, which
goes to the transceiver (R168). -/
def startLink (n : Nat) (s : State) : State :=
  let s1 := withLink n (fun l =>
    { l with state := 1, periodic := false, sysrefAt := none, rate := none, rxPairs := rxPairsUsed s n, txPairs := txPairsUsed s n }) s
  (List.range 2).foldl (fun t a =>
    let x := antAt t n a
    let e := match x.table with | some g => g.start | none => 0
    let t1 := withAnt n a (fun y => { y with entry := e, lowRun := 0, lastClip := false, writing := none, manual := none }) t
    match x.table.bind (fun g => g.entries[e]?) with
    | some w => spiSend n (spiWordBits s n) w.2.toNat t1
    | none => t1) s1

/-- A write of enable 1 (R139, R528): the checks across registers, then SYNC; a refused configuration stays DISABLED. -/
def linkEnable (n : Nat) (s : State) : State :=
  if linkEnabled s n then s
  else if linkConfigOk s n then startLink n (putFld s .rlCtrl n 0 0 1)
  else refuse s .rlCtrl n

/-- A write of enable 0: the link is DISABLED at once, with the effects of R147. -/
def linkDisable (n : Nat) (s : State) : State :=
  if linkEnabled s n then
    withLink n (fun l => { l with state := 0, periodic := false, sysrefAt := none, rate := none, rxPairs := [], txPairs := [] })
      (noticeLive Ev.rlLinkDown n false none false (leaveData n (putFld s .rlCtrl n 0 0 0)))
  else s

/-- A write to a register of retained settings: served, kept out while setup is locked and counted if it would have
changed a field (R522), and applied. -/
def lockedWrite (changes : Bool) (f : State → State) (s : State) : State :=
  if !barOpen s then s else if setupLocked s then onlyIf changes (bump .setupLockedWr 0 s) s else f s

/-- RL_ENABLE (R528). -/
def execRlEnable (link : Nat) (s : State) : Answer := .next (onlyIf (link < 8) (lockedWrite (!linkEnabled s link) (linkEnable link) s) s)

/-- RL_DISABLE (R147). -/
def execRlDisable (link : Nat) (s : State) : Answer := .next (onlyIf (link < 8) (lockedWrite (linkEnabled s link) (linkDisable link) s) s)

/-- RL_REALIGN (R143, R145): the link restarts. -/
def realign (n : Nat) (s : State) : State :=
  if (linkAt s n).state = 0 then s
  else withLink n (fun l => { l with state := 1 }) (noticeLive Ev.rlLinkDown n false none false (leaveData n s))

/-- RL_REALIGN. -/
def execRlRealign (h : CmdHdr) (link : Nat) (s : State) : Answer :=
  .next (runCmd (plainCmd 0x0137 2) h (fun s1 => checked (if link < 8 then St.ok else St.badParam) (realign link s1) s1) s)

/-- Fs as an edge measures it: between two periodic edges at most 1 ms apart, the nanoseconds and the nearest whole number of
samples of fs_hz (R144). -/
def measuredRate (fs : Nat) (l : Link) (periodic : Bool) (t : Ns) : Option (Nat × Nat) :=
  match l.sysrefAt with
  | some a =>
    let k := ((t - a) * fs + 500000000) / 1000000000
    if periodic && l.periodic && a < t && t ≤ a + 1000000 && 0 < k then some (t - a, k) else none
  | none => none

/-- SYSREF_EDGE (R142, R144, R145): the edge is dated, and two periodic ones measure Fs; a periodic edge more than one device clock
off counts and raises a notice. -/
def execSysrefEdge (link : Nat) (t : Ns) (offsetPs : Int) (periodic : Bool) (s : State) : Answer :=
  let s1 := advance t s
  if alive s1 && link < 8 && (linkAt s1 link).state ≠ 0 then
    let s2 := withLink link (fun l =>
      { l with sysrefAt := some (devOf s1 t), periodic, rate := measuredRate (fsHz s1 link) l periodic (devOf s1 t) }) s1
    let clockPs := 2 ^ fld s1 .rlCfg link 22 21 * 10 ^ 12 / fsHz s1 link
    if periodic && clockPs < offsetPs.natAbs then
      .next (crossed Ev.sysrefSlip link 0 offsetPs none false (bump .rlSysrefSlip link s2))
    else .next s2
  else .next s1

/-- The link falls back to SYNC (R146): reason 1 sync-header lock, 2 code-group sync, 3 ILAS mismatch, 4 skew. -/
def linkDown (n reason : Nat) (value : Int) (s : State) : State :=
  let s1 := if inData s n then leaveData n s else s
  let s2 := crossed Ev.rlLinkDown n reason 0 none false (withLink n (fun l => { l with state := 1 }) s1)
  if reason = 4 then crossed Ev.linkSkew n 0 value none false s2 else s2

/-- Whether a reason can take a link of a standard back from a state. -/
def downReasonOk (s : State) (n reason : Nat) : Bool :=
  let b := flag s .rlCfg n 0
  match reason with
  | 1 => !b
  | 2 => b
  | 3 => b && (linkAt s n).state = 2
  | 4 => true
  | _ => false

/-- A link moves between SYNC, LOCK and DATA (R144, R146, R147). In DATA the state 3 counts code errors. -/
def linkMove (n state reason : Nat) (value : Int) (s : State) : State :=
  match (linkAt s n).state, state with
  | 1, 2 => withLink n (fun l => { l with state := 2 }) s
  | 2, 3 => reachData n (noticeLive Ev.rlLinkDown n false none true (withLink n (fun l => { l with state := 3 }) s))
  | 3, 3 => bumpN .rlCodeErr n 0 value.toNat s
  | 2, 1 => if downReasonOk s n reason then linkDown n reason value s else s
  | 3, 1 => if downReasonOk s n reason then linkDown n reason value s else s
  | _, _ => s

/-- RL_LINK_STATE (R146). -/
def execRlLinkState (link : Nat) (state : Nat) (reason : Nat) (value : Int) (s : State) : Answer :=
  .next (onlyIf (alive s && link < 8) (linkMove link state reason value s) s)

/-! ### SPI and gain tables (R149, R150, R168) -/

/-- Whether a link's SPI must fit the slot after a gain decision: it is in DATA with an antenna in AUTO (R150). -/
def spiSlotted (s : State) (n : Nat) : Bool :=
  inData s n && (List.range (rxAntennas s n)).any (fun a => !flag s .rlAgc (2 * n + a) 0)

/-- RL_SPI's own check: a slotted transaction fits in 5 µs. -/
def rlSpiStatus (s : State) (link wlen rlen : Nat) : Nat :=
  if 8 ≤ link || 8 < wlen || 8 < rlen then St.badParam
  else if spiSlotted s link && 5000000 < spiPs (spiMhz s link) (8 * (wlen + rlen)) then St.badLength
  else St.ok

/-- RL_SPI's own part (R150): a transaction that must keep to the slots waits for one, any other runs at once. -/
def rlSpiOwn (h : CmdHdr) (link wlen rlen : Nat) (wbytes answer : Bytes) (s : State) : CmdRes :=
  let st := rlSpiStatus s link wlen rlen
  let back := padTo 8 (answer.take rlen)
  let value := beNat (padTo wlen wbytes)
  if st ≠ St.ok then .done st [] s
  else if spiSlotted s link then
    .wait (withLink link (fun l => { l with spiWait := l.spiWait ++
      [{ ring := h.ring, held := heldOf 0x0134 h s, bitsN := 8 * wlen, value, allN := 8 * (wlen + rlen), answer := back }] }) s)
  else .done St.ok back (spiSend link (8 * wlen) value s)

/-- RL_SPI (R150). -/
def execRlSpi (h : CmdHdr) (link : Nat) (wlen : Nat) (rlen : Nat) (wbytes : Bytes) (answer : Bytes) (s : State) : Answer :=
  .next (runCmd (plainCmd 0x0134 2) h (rlSpiOwn h link wlen rlen wbytes answer) s)

/-- RL_GAIN_TABLE's own check. -/
def gainTableStatus (s : State) (b : Bytes) : Nat :=
  if gainTableOk b && (linkAt s (fieldAt b 0 2 0)).state = 0 then St.ok else St.badParam

/-- RL_GAIN_TABLE (R168): loaded while the link is DISABLED. -/
def loadGainTable (b : Bytes) (s : State) : State :=
  withAnt (fieldAt b 0 2 0) (fieldAt b 0 3 3) (fun a => { a with table := some (gainTableOf b) }) s

/-- RL_GAIN_TABLE. -/
def execRlGainTable (h : CmdHdr) (s : State) : Answer :=
  .next (runCmd ⟨0x0135, 2, fun n => n == 8 + 8 * byteAt (blk h) 1, true, false⟩ h
    (fun s1 => checked (gainTableStatus s1 (blk h)) (loadGainTable (blk h) s1) s1) s)

/-! ### The fast gain loop (R169 to R171) -/

/-- RL_GAIN_SET's own check: MANUAL, an antenna of the link and an entry of its table (log entry 24). -/
def gainSetStatus (s : State) (link antenna entry : Nat) : Nat :=
  if link < 8 && antenna < rxAntennas s link && flag s .rlAgc (2 * link + antenna) 0 &&
      (match (antAt s link antenna).table with | some g => entry < g.entries.length | none => false) then St.ok
  else St.badParam

/-- RL_GAIN_SET (R170). -/
def execRlGainSet (h : CmdHdr) (link : Nat) (antenna : Nat) (entry : Nat) (s : State) : Answer :=
  .next (runCmd (plainCmd 0x0136 2) h (fun s1 =>
    checked (gainSetStatus s1 link antenna entry) (withAnt link antenna (fun a => { a with manual := some entry }) s1) s1) s)

/-- The largest component of a window of link samples, and how many lie at −32 768 or +32 767 (R170). -/
def windowPeak (l : List (BitVec 16 × BitVec 16)) : Nat :=
  (l.map (fun x => max (sint 16 x.1.toNat).natAbs (sint 16 x.2.toNat).natAbs)).foldl max 0
def windowClipped (l : List (BitVec 16 × BitVec 16)) : Nat :=
  (l.map (fun x => b2n (x.1 = 0x8000) + b2n (x.1 = 0x7FFF) + b2n (x.2 = 0x8000) + b2n (x.2 = 0x7FFF))).sum

/-- GAIN_WINDOW_DECISION (R170): the link samples of a window, the first at a position after T_L, have reached the FDC. They pass the
chains of the antenna's channels, as zeros while the link is not in DATA (R147), and the window is presented for its decision. -/
def execGainWindowDecision (link : Nat) (antenna : Nat) (t : Ns) (iq : List (BitVec 16 × BitVec 16)) (first : Nat) (unsettled : Bool) (s : State) : Answer :=
  let s1 := advance t s
  if alive s1 && link < 8 && antenna < rxAntennas s1 link then
    if inData s1 link then
      let clipped := windowClipped iq
      .next (presentRadio (.window link antenna (windowPeak iq) (clipped != 0) unsettled)
        (bumpN .rlClip (2 * link + antenna) 0 clipped (feedAntenna link antenna first unsettled (iq.map linkSample) s1)))
    else .next (feedAntenna link antenna first true (iq.map (fun _ => (0, 0))) s1)
  else .next s1

/-- gain_latency_ns of an antenna (R169). -/
def gainLatency (s : State) (n a : Nat) : Nat := if a = 0 then fld s .rlGainLat n 13 0 else fld s .rlGainLat n 29 16

/-- A gain write has completed (R171): its gain is in the link samples that reach the release from gain_latency_ns later, and every
channel of the antenna is compensated from the antenna time of the first of them. -/
def gainWritten (n a : Nat) (t : Ns) (s : State) : State :=
  match (antAt s n a).writing with
  | some ⟨e, d, none⟩ =>
    let at_ := t + gainLatency s n a
    let ant := match linkDate? s n with
      | some x => x.antenna (releasedFrom s n x (devOf s at_)) 1
      | none => 65536 * (devOf s at_ : Int)
    let s1 := withAnt n a (fun y => { y with writing := some ⟨e, d, some at_⟩ }) s
    { s1 with rxcs := FMap.mapV s1.rxcs (fun _ c =>
        if c.hears n a then { c with comp := c.comp ++ [(ant, d)] } else c) }
  | _ => s

/-- GAIN_WRITE_DONE (R171). -/
def execGainWriteDone (link : Nat) (antenna : Nat) (t : Ns) (s : State) : Answer :=
  let s1 := advance t s
  .next (onlyIf (alive s1 && link < 8 && antenna < 2) (gainWritten link antenna t s1) s1)

/-- The channel gain after 64 settled samples of a mean power in 0.01 dB (R172), to the nearest 0.25 dB. -/
def gainUpdate (g power : Int) : Int := clampGain (g + clampI (-24) 24 (Int.fdiv (-1500 - power + 25) 50))

/-- CHANNEL_GAIN_UPDATE (R172): 64 settled samples have passed the gain stage while the channel gain is unfrozen. -/
def execChannelGainUpdate (rx : Nat) (t : Ns) (s : State) : Answer :=
  let s1 := advance t s
  match rxc? s1 rx with
  | some c =>
    .next (onlyIf (alive s1 && c.recs.isEmpty && c.recent.length = 64)
      (withRxc rx (fun d => { d with gain := gainUpdate d.gain (meanDb c.recent.sum 64), recent := [] }) s1) s1)
  | none => .next s1

/-! ### Detection and reception -/

/-- The CRE's pass over a channel (R162, R164): the search takes its next window at each SF named, and the receptions in progress take
theirs. -/
def detect (n : Nat) (sfs : List Nat) (s : State) : State := stepReceptions n (sfs.foldl (fun t sf => searchSf n sf t) s)

/-- DETECT_WINDOW (R162). -/
def execDetectWindow (rx : Nat) (sfs : List Nat) (t : Ns) (s : State) : Answer :=
  let s1 := advance t s
  .next (onlyIf (alive s1) (detect rx sfs s1) s1)

/-- The lowest and the highest SF of a mask. -/
def lowSf (m : Nat) : Nat := ((List.range 8).find? (fun i => m.testBit i)).getD 0 + 5
def highSf (m : Nat) : Nat := ((List.range 8).reverse.find? (fun i => m.testBit i)).getD 0 + 5

/-- Windows of energy in one second (R166). -/
def Rxc.floorWindows (c : Rxc) : Nat := cdiv 1000000000 (symbolNs (lowSf c.p.sfMask) c.p.bw)

/-- The noise floor, the 10th percentile by nearest rank of the window powers of 1 s; `none` until 1 s of them exists. -/
def Rxc.noiseFloor (c : Rxc) : Option Int :=
  let n := c.floorWindows
  let l := c.powers.take n
  if l.length < n then none else (sortNums l)[cdiv n 10 - 1]?

/-- The place of the next energy window. -/
def Rxc.energyAt (c : Rxc) : Nat :=
  let n := winLen (lowSf c.p.sfMask)
  if c.eNext < c.base then cdiv c.base n * n else c.eNext

/-- The next energy window of Mode E (R166), referred to the antenna: one that reaches the noise floor plus e_thr triggers, and one
outside every reception joins those of the noise floor. A window with an unsettled sample is left out. -/
def energy (n : Nat) (w : List OutSample) (s : State) : State :=
  match rxc? s n with
  | none => s
  | some c =>
    let start := c.energyAt
    let s0 := withRxc n (fun d => { d with eNext := start + winLen (lowSf c.p.sfMask) }) s
    if w.any (·.unsettled) || !inData s c.p.link then s0
    else
      let p := meanDb (powerSum w) w.length - 25 * (c.gain + (antAt s c.p.link c.p.antenna).gain)
      let s1 := match c.noiseFloor with
        | some f =>
          if f + 25 * c.p.eThr ≤ p then
            bump .detETrig n (withRxc n (fun d =>
              { d with trig := some ((d.trig.elim [] (·.1)) ++ [start], d.trig.any (·.2)) }) s0)
          else s0
        | none => s0
      if c.recs.isEmpty then withRxc n (fun d => { d with powers := (p :: d.powers).take c.floorWindows }) s1 else s1

/-- ENERGY_WINDOW (R166): the window at a place, with the length of one symbol of the lowest SF, has left the chain. -/
def execEnergyWindow (rx : Nat) (place : Nat) (len : Nat) (t : Ns) (s : State) : Answer :=
  let s1 := advance t s
  match rxc? s1 rx with
  | none => .next s1
  | some c =>
    match c.samples place len with
    | none => .next s1
    | some w =>
      .next (onlyIf (alive s1 && c.p.modeE && place = c.energyAt && len = winLen (lowSf c.p.sfMask)) (energy rx w s1) s1)

/-- ENERGY_SPAN_EXPIRY (R166): the span of the last trigger has ended at every SF. -/
def execEnergySpanExpiry (rx : Nat) (t : Ns) (s : State) : Answer :=
  let s1 := advance t s
  match rxc? s1 rx with
  | none => .next s1
  | some c =>
    match c.trig with
    | none => .next s1
    | some (l, confirmed) =>
      let s2 := withRxc rx (fun d => { d with trig := none }) (if confirmed then s1 else bump .detENoconfirm rx s1)
      .next (onlyIf (alive s1 && l.getLastD 0 + c.p.eq_ * winLen (highSf c.p.sfMask) ≤ c.top) s2 s1)

/-- The reception of an instance on a channel. -/
def reception? (s : State) (rx inst : Nat) : Option Reception := (rxc? s rx).bind (fun c => c.recs.find? (fun e => e.id == inst))

/-- HEADER_RESULT (R192, R194): the header block of a reception that has taken all its header symbols is decoded, with the scale of
its metrics, and presented at the ordering point. -/
def execHeaderResult (rx : Nat) (inst : Nat) (scale : Nat) (t : Ns) (s : State) : Answer :=
  let s1 := advance t s
  match reception? s1 rx inst with
  | none => .next s1
  | some e =>
    let n := headerSymbols e.sf
    .next (onlyIf (alive s1 && e.phase = .header && n ≤ e.soft.length)
      (presentRadio (.header rx inst (decodeBlock e.sf 0 scale 6 (e.soft.take n))) s1) s1)

/-- Coded bits whose hard decision differed from the decoded path (R196). -/
def corrected (sf cr : Nat) (d : Bytes) (l : List (List Int)) : Nat :=
  ((List.zip (punctured cr (convCode (bitsMsb d))) (deinterleave sf 1 l)).filter (fun e => e.1 != decide (e.2 < 0))).length

/-- RX_FRAME_END (R192, R194, R195): the payload block of a reception that has taken every symbol of its frame, of the SF and length
named, is decoded and presented at the ordering point. The weaker of a pair lags by at most two symbols (R199); more than two
symbols and 200 µs after the end of frame has left the chain the result is late (R30, R194). -/
def execRxFrameEnd (rx : Nat) (inst : Nat) (scale : Nat) (sf : Nat) (quality : Nat) (len : Nat) (lag : Nat) (t : Ns) (s : State) : Answer :=
  let s1 := advance t s
  match reception? s1 rx inst with
  | none => .next s1
  | some e =>
    let h := e.soft.take (headerSymbols e.sf)
    let p := (e.soft.drop (headerSymbols e.sf)).take (payloadSymbols e.sf e.cr e.len)
    let d := decodeBlock e.sf e.cr scale (e.len + 4) p
    let until_ := match rxc? s1 rx with
      | some c => c.stampAt e.next + 65536 * ((chainDelayPs (fsHz s1 c.p.link) c.p.bw c.p.preset / 1000 + (2 + lag) * symbolNs e.sf c.p.bw + 200000 : Nat) : Int)
      | none => 0
    let done := fun (l : List Reception) => l.map (fun x => if x.id = inst then { x with phase := .over } else x)
    .next (onlyIf (alive s1 && e.phase = .payload && e.taken && sf = e.sf && len = e.len && lag ≤ 2)
      (presentRadio (.frameEnd rx inst d quality (corrected e.sf 0 e.header h + corrected e.sf e.cr d p)
          (decide (until_ < 65536 * (devOf s1 t : Int))) t)
        (withRxc rx (fun c => { c with recs := done c.recs }) s1)) s1)

/-! ### Receive channel commands (R153, R154) -/

/-- Whether a ring exists and has a type. -/
def ringIs (s : State) (n : Nat) (ty : RingType) : Bool := (ring? s n).any (fun r => r.ctx.ty == ty)

/-- The channel's band lies in the link's (R153, R204). -/
def bandOk (fs bw : Nat) (centre : Int) : Bool := 10 * centre.natAbs + 5 * bwHz bw ≤ 4 * fs && 4 * bwHz bw ≤ fs

/-- The parts of R153 that set-up and modification share. -/
def rxcParamsOk (s : State) (b : Bytes) : Bool :=
  let p := rxcParams b
  rxcBlockOk b && linkEnabled s p.link && p.antenna < rxAntennas s p.link && bandOk (fsHz s p.link) p.bw p.centreHz &&
  (s.rxcs.filter (fun e => e.1 != p.rx && e.2.p.link == p.link && e.2.p.antenna == p.antenna)).length < 128 &&
  ringIs s p.ring .prx

/-- RXC_SETUP's own check. -/
def rxcSetupStatus (s : State) (b : Bytes) : Nat :=
  if rxcParamsOk s b && !FMap.has s.rxcs (rxcParams b).rx then St.ok else St.badParam

/-- A receive channel before its first sample on a link of a rate: its chain has just started (R158), and the channel gain is 0 dB
(R172). -/
def Rxc.fresh (fs ring : Nat) (p : RxcParams) : Rxc :=
  { p, ringCmd := ring, gain := 0, comp := [], chain := Chain.start fs p, unsettled := (presetTaps p.preset).2.2, forming := []
    formStamp := 0, blocks := [], blockN := 0, recent := [], runs := [], recs := [], nextId := 0, eNext := 0, trig := none, powers := [] }

/-- A receive channel is set up. -/
def setupRxc (ring : Nat) (b : Bytes) (s : State) : State :=
  let p := rxcParams b
  { dropCounters [.recSeg, .recDrop] (65536 + p.rx) s with rxcs := FMap.set s.rxcs p.rx (Rxc.fresh (fsHz s p.link) ring p) }

/-- RXC_SETUP (R153). -/
def execRxcSetup (h : CmdHdr) (s : State) : Answer :=
  .next (runCmd (blockCmd 0x0131 2 64 true) h (fun s1 => checked (rxcSetupStatus s1 (blk h)) (setupRxc h.ring (blk h) s1) s1) s)

/-- RXC_MODIFY's own check. -/
def rxcModifyStatus (s : State) (b : Bytes) : Nat :=
  let p := rxcParams b
  match rxc? s p.rx with
  | some c =>
    if rxcParamsOk s b && c.p.link = p.link && c.p.antenna = p.antenna && c.p.bw = p.bw then St.ok else St.badParam
  | none => St.badParam

/-- RXC_MODIFY's effect (R154): a reception in progress finishes under the values it began with. -/
def modifyRxc (b : Bytes) (s : State) : State :=
  let p := rxcParams b
  match rxc? s p.rx with
  | none => s
  | some c =>
    let s1 := withRxc p.rx (fun d => { d with p := p }) s
    if c.p.centreHz ≠ p.centreHz ∨ c.p.preset ≠ p.preset then restartChain p.rx (abandonAll p.rx .modify s1)
    else s1

/-- RXC_MODIFY (R154). -/
def execRxcModify (h : CmdHdr) (s : State) : Answer :=
  .next (runCmd (blockCmd 0x0132 2 64 true) h (fun s1 => checked (rxcModifyStatus s1 (blk h)) (modifyRxc (blk h) s1) s1) s)

/-- The counters of a receive channel. -/
def rxcCtrs : List Ctr :=
  [.detQual, .detPreLost, .detSyncMismatch, .detETrig, .detENoconfirm, .detAbandonLink, .detHdrCrc, .detHdrBad, .detFalse,
   .rxFrame, .rxCrcFail, .ovlIgnored, .ovlSwitch, .ovlRecover, .ovlNoinst, .ovlThird, .secFormat, .secUnknown, .secReplay,
   .secMic]

/-- RXC_RELEASE's effect (R154, R343). -/
def releaseRxc (n : Nat) (s : State) : State :=
  let s1 := abandonAll n .release s
  let s2 := { s1 with rxcs := FMap.del s1.rxcs n, radio := s1.radio.filter (fun e => e.channel? != some n) }
  dropCounters [.recSeg, .recDrop] (65536 + n) <| dropCounters rxcCtrs n { s2 with bce := { s2.bce with captures := FMap.adj s2.bce.captures n (fun k => { k with ending := true }) } }

/-- RXC_RELEASE (R154). -/
def execRxcRelease (h : CmdHdr) (rx : Nat) (s : State) : Answer :=
  .next (runCmd (plainCmd 0x0133 2) h (fun s1 =>
    checked (if FMap.has s1.rxcs rx then St.ok else St.badParam) (releaseRxc rx s1) s1) s)

/-! ### Radio capture (R343) -/

/-- RL_CAPTURE's own check. -/
def captureStatus (s : State) (rx ring ratio samples : Nat) : Nat :=
  if !(FMap.has s.rxcs rx && ringIs s ring .recording && 1 ≤ ratio && ratio ≤ 3 && 1 ≤ samples && samples ≤ 16777216) then
    St.badParam
  else if FMap.has s.bce.captures rx then St.busy
  else St.ok

/-- RL_CAPTURE (R343). -/
def execRlCapture (h : CmdHdr) (rx : Nat) (ring : Nat) (ratio : Nat) (samples : Nat) (s : State) : Answer :=
  .next (runCmd (plainCmd 0x0138 2) h (fun s1 =>
    acceptLong 0x0138 h samples (captureStatus s1 rx ring ratio samples) (fun id t =>
      let k : Capture :=
        { opId := id, ring, ratio, left := samples, done := 0, segNo := 0, gap := 0, first := true, ending := false
          stamp := 0, buf := [] }
      withBce (fun b => { b with captures := FMap.set b.captures rx k }) t) s1) s)

/-- A RADIO segment (R336): samples in the order I0, Q0, I1, Q1 …, with the time-stamp of the first (R161). -/
def radioSegment (rx : Nat) (k : Capture) (last : Bool) (l : List OutSample) : Bytes :=
  let a := fEncode k.ratio (l.flatMap (fun o => [o.iq.1, o.iq.2]))
  toLE 1 2 ++ toLE 1 1 ++ toLE 2 rx ++ toLE 4 k.segNo ++ toLE 8 (enc 64 (Int.fdiv k.stamp 65536)) ++ zeros 5 ++
    toLE 1 (k.ratio + 8 * b2n k.first + 16 * b2n last + 32 * b2n (k.gap != 0) + 64 * b2n (l.any (·.unsettled))) ++
    toLE 2 (min 65535 k.gap) ++ toLE 4 a.length ++ zeros 4 ++ a

/-- A segment of `n` samples of a capture closes; the capture ends with its last one. -/
def captureSegment (rx n : Nat) (k : Capture) (s : State) : State :=
  let last := k.ending || k.left ≤ n
  let e : BacklogSeg := { ring := k.ring, source := rx, data := radioSegment rx k last (k.buf.take n), need := [] }
  let (s1, dropped) := enterBacklog e s
  let s2 := progress k.opId (k.done + n) s1
  if last then
    endLong k.opId (if k.left ≤ n then St.ok else St.aborted) [] (withBce (fun b => { b with captures := FMap.del b.captures rx }) s2)
  else
    let per := match rxc? s rx with | some c => 65536 * sampleNs c.p.bw | none => 0
    let k1 : Capture :=
      { k with left := k.left - n, done := k.done + n, segNo := k.segNo + 1, first := false
               gap := if dropped then k.gap + 1 else 0, stamp := k.stamp + per * n, buf := k.buf.drop n }
    withBce (fun b => { b with captures := FMap.set b.captures rx k1 }) s2

/-- CAPTURE_SEGMENT (R343): the segment named closes with 2 048 complex samples, the remainder, or what it holds at an early end. -/
def execCaptureSegment (rx : Nat) (segNo : Nat) (count : Nat) (t : Ns) (s : State) : Answer :=
  let s1 := advance t s
  match FMap.get? s1.bce.captures rx with
  | none => .next s1
  | some k =>
    let full := min 2048 k.left
    let ok := segNo = k.segNo && count ≤ k.buf.length && (if k.ending then count = min full k.buf.length else count = full)
    .next (onlyIf (alive s1 && ok) (captureSegment rx count k s1) s1)

end Sys2Proof.Machine
end

