-- ==== Sys2Proof/Machine/Queues.lean ====
section
/-! DEFINITION. The commands of the queue manager (R297 to R315). -/

namespace Sys2Proof.Machine

open Sys2Proof

/-! ### QUEUE_SETUP and QUEUE_MODIFY (R297, R298) -/

/-- The fields of a queue parameter block, in order: class, placement, max_cells, high_mark, low_mark, hyst, enables. -/
structure QueueBlock where
  queue : Nat
  cls   : Nat
  place : Nat
  maxCells : Nat
  high  : Nat
  low   : Nat
  hyst  : Nat
  highEn : Bool
  lowEn : Bool

/-- The queue parameter block (R297). -/
def queueBlock (b : Bytes) : QueueBlock :=
  { queue := leAt b 0 2, cls := bits (byteAt b 2) 1 0, place := bits (byteAt b 2) 3 2, maxCells := leAt b 4 3,
    high := leAt b 8 3, low := leAt b 0x0C 3, hyst := leAt b 0x10 2, highEn := bit (byteAt b 0x12) 0,
    lowEn := bit (byteAt b 0x12) 1 }

/-- Reserved fields, ranges and marks of R298. -/
def queueBlockOk (s : State) (b : Bytes) : Bool :=
  let q := queueBlock b
  bits (byteAt b 2) 7 4 = 0 && byteAt b 3 = 0 && byteAt b 7 = 0 && byteAt b 0x0B = 0 && byteAt b 0x0F = 0 &&
  bits (leAt b 0x12 2) 15 2 = 0 && zeroIn b 0x14 12 && 8192 ≤ q.queue && q.queue ≤ 16383 && (q.cls = 1 || q.cls = 3) &&
  q.place ≤ 2 && 1024 ≤ q.maxCells && 1 ≤ q.hyst && (!q.highEn || (q.high ≠ 0 && q.high ≤ q.maxCells)) &&
  (!q.lowEn || q.low < q.maxCells) && !(q.highEn && q.lowEn && q.high < q.low + q.hyst) &&
  (q.place = 0 || s.qmg.extSize ≠ 0)

/-- QUEUE_SETUP's own check. -/
def queueSetupStatus (s : State) (b : Bytes) : Nat :=
  if queueBlockOk s b && !FMap.has s.qmg.queues (queueBlock b).queue then St.ok else St.badParam

/-- A queue as QUEUE_SETUP leaves it: both marks armed (R313). -/
def Queue.fresh (q : QueueBlock) (ring : Nat) : Queue :=
  { cls := q.cls, placement := q.place, maxCells := q.maxCells, hyst := q.hyst, high := ⟨q.high, q.highEn, true, 0, 0⟩,
    low := ⟨q.low, q.lowEn, true, 0, 0⟩, items := [], taken := none, inProg := none, discarding := false, ring,
    releasing := none }

/-- Set a queue up. -/
def setupQueue (ring : Nat) (b : Bytes) (s : State) : State :=
  withQmg (fun q => { q with queues := FMap.set q.queues (queueBlock b).queue (Queue.fresh (queueBlock b) ring) }) s

/-- QUEUE_SETUP (R298). -/
def execQueueSetup (h : CmdHdr) (s : State) : Answer :=
  .next (runCmd (blockCmd 0x0161 2 32 true) h
    (fun s1 => checked (queueSetupStatus s1 (blk h)) (setupQueue h.ring (blk h) s1) s1) s)

/-- A queue that is set up and whose release has not been taken (R555). -/
def liveQueue (s : State) (n : Nat) : Option Queue :=
  match queue? s n with
  | some q => if q.releasing.isNone then some q else none
  | none => none

/-- QUEUE_MODIFY's own check. -/
def queueModifyStatus (s : State) (b : Bytes) : Nat :=
  let k := queueBlock b
  match liveQueue s k.queue with
  | none => St.badParam
  | some q => if queueBlockOk s b && q.cls = k.cls && q.placement = k.place then St.ok else St.badParam

/-- A mark after QUEUE_MODIFY: re-armed where its value, enable or hysteresis changes (R298). -/
def Mark.modify (m : Mark) (value : Nat) (enable rearm : Bool) : Mark :=
  { m with value, enable, armed := m.armed || rearm || m.value != value || m.enable != enable }

/-- Change a queue's limits, marks and enables at once. The live bits of its notices follow. -/
def modifyQueue (b : Bytes) (s : State) : State :=
  let k := queueBlock b
  let s1 := withQueue k.queue (fun q =>
    { q with maxCells := k.maxCells, hyst := k.hyst, high := q.high.modify k.high k.highEn (q.hyst != k.hyst)
             low := q.low.modify k.low k.lowEn (q.hyst != k.hyst) }) s
  match queue? s1 k.queue with
  | none => s1
  | some q =>
    noticeLive Ev.queueMark k.queue true none (k.low < q.level)
      (noticeLive Ev.queueMark k.queue false none (q.level < k.high) s1)

/-- QUEUE_MODIFY (R298). -/
def execQueueModify (h : CmdHdr) (s : State) : Answer :=
  .next (runCmd (blockCmd 0x0162 2 32 true) h
    (fun s1 => checked (queueModifyStatus s1 (blk h)) (modifyQueue (blk h) s1) s1) s)

/-! ### QUEUE_RELEASE, QUEUE_FLUSH, QUEUE_QUERY -/

/-- Whether a set-up flow names a queue as in_q or out_q. -/
def flowNames (s : State) (n : Nat) : Bool := s.fsc.flows.any (fun e => e.2.nodes.any (fun d => d.inQ == n || d.outQ == n))

/-- Whether a PTX or PRX ring names a queue. -/
def ringNames (s : State) (n : Nat) : Bool := s.hif.rings.any (fun e => e.2.ctx.namesQueue n)

/-- Whether a number names a live host queue (R555). -/
def hostQueue (s : State) (n : Nat) : Bool := 8192 ≤ n && n ≤ 16383 && (liveQueue s n).isSome

/-- QUEUE_RELEASE's own check. -/
def queueReleaseStatus (s : State) (n : Nat) : Nat :=
  if !hostQueue s n then St.badParam else if flowNames s n || ringNames s n then St.busy else St.ok

/-- QUEUE_RELEASE's own part: the queue is flushed; a taken item is waited for (R298). -/
def queueReleaseOwn (h : CmdHdr) (n : Nat) (s : State) : CmdRes :=
  let st := queueReleaseStatus s n
  if st ≠ St.ok then .done st [] s
  else
    let s1 := flushQueue n s
    match queue? s1 n with
    | none => .done St.ok [] s1
    | some q =>
      if q.taken.isNone then .done St.ok [] (removeQueue n s1)
      else .wait (withQueue n (fun r => { r with releasing := some (h.ring, heldOf 0x0163 h s) }) s1)

/-- QUEUE_RELEASE (R298). -/
def execQueueRelease (h : CmdHdr) (queue : Nat) (s : State) : Answer :=
  .next (runCmd (plainCmd 0x0163 2) h (queueReleaseOwn h queue) s)

/-- QUEUE_FLUSH's own check. -/
def queueFlushStatus (s : State) (n : Nat) : Nat :=
  if !hostQueue s n then St.badParam else if flowNames s n then St.busy else St.ok

/-- QUEUE_FLUSH's own part: items and cells freed (R305). -/
def queueFlushOwn (n : Nat) (s : State) : CmdRes :=
  let st := queueFlushStatus s n
  match queue? s n with
  | some q =>
    if st = St.ok then .done St.ok (toLE 4 q.items.length ++ toLE 4 (flushCells q)) (flushQueue n s) else .done st [] s
  | none => .done st [] s

/-- QUEUE_FLUSH (R305). -/
def execQueueFlush (h : CmdHdr) (queue : Nat) (s : State) : Answer :=
  .next (runCmd (plainCmd 0x0164 2) h (queueFlushOwn queue) s)

/-- The twelve octets of one mark in the result of QUEUE_QUERY (R404, R314). -/
def markResult (s : State) (n : Nat) (q : Queue) (low : Bool) : Bytes :=
  let m := q.mark low
  let live := if low then m.value < q.level else q.level < m.value
  let nt := notice? s Ev.queueMark n low
  let count := match nt with | some x => min x.count 65535 | none => 0
  toLE 2 (b2n nt.isSome + 2 * b2n live) ++ toLE 2 count ++ toLE 4 m.first ++ toLE 4 m.extreme

/-- The result of QUEUE_QUERY. -/
def queryResult (s : State) (n : Nat) (q : Queue) : Bytes :=
  toLE 4 q.level ++ toLE 4 q.itemCount ++ markResult s n q false ++ markResult s n q true

/-- QUEUE_QUERY's own check. -/
def queueQueryStatus (s : State) (n : Nat) : Nat := if (liveQueue s n).isSome then St.ok else St.badParam

/-- QUEUE_QUERY's own part. -/
def queueQueryOwn (n : Nat) (s : State) : CmdRes :=
  match liveQueue s n with
  | some q => .done St.ok (queryResult s n q) s
  | none => .done St.badParam [] s

/-- QUEUE_QUERY (R314). -/
def execQueueQuery (h : CmdHdr) (queue : Nat) (s : State) : Answer :=
  .next (runCmd (plainCmd 0x0165 1) h (queueQueryOwn queue) s)

/-! ### Producers (R301, R303, R304) -/

/-- CELL_RESERVE: the first reservation of an item or a further step of a streaming producer. A step that would make
the item 1 025 cells severs it; words that follow a severing reserve nothing. -/
def cellReserve (n cells : Nat) (streaming : Bool) (s : State) : State :=
  match queue? s n with
  | none => s
  | some q =>
    let held := match q.inProg with | some p => p.1 | none => 0
    if q.discarding || cells = 0 || (streaming && 64 < cells) then s
    else if 1024 < held + cells then (if q.inProg.isSome then sever n s else s)
    else if overLimit s n cells then bump .qLimit n s
    else
      match reserveAt s n cells with
      | none => s
      | some ext => allocCells q.cls cells ext false (withQueue n (fun r => { r with inProg := some (held + cells, ext) }) s)

/-- CELL_RESERVE (R301). -/
def execCellReserve (queue : Nat) (cells : Nat) (streaming : Bool) (s : State) : Answer :=
  .next (cellReserve queue cells streaming s)

/-- ITEM_END_MARK: unused cells return and the item is linked; the end mark after a severing ends the discard. -/
def itemEndMark (n : Nat) (data : Bytes) (s : State) : State :=
  match queue? s n with
  | none => s
  | some q =>
    if q.discarding then withQueue n (fun r => { r with discarding := false }) s
    else
      match q.inProg with
      | none => s
      | some (c, ext) =>
        if data.isEmpty || c < cellsOf data.length then s
        else
          linkItem n ⟨data, ext, false⟩
            (returnCells q.cls (c - cellsOf data.length) ext false (withQueue n (fun r => { r with inProg := none }) s))

/-- ITEM_END_MARK (R301). -/
def execItemEndMark (queue : Nat) (data : Bytes) (s : State) : Answer := .next (itemEndMark queue data s)

/-! ### Consumers (R302) -/

/-- TAKE: unlinks the head item whole; fails if the queue holds no linked item with tether clear. -/
def takeItem (n : Nat) (s : State) : State :=
  match queue? s n with
  | none => s
  | some q =>
    match q.taken, q.items with
    | none, i :: rest =>
      if i.tether then s else moveQueue n (fun r => { r with items := rest, taken := some (i, 0) }) s
    | _, _ => s

/-- TAKE (R302). -/
def execTake (queue : Nat) (s : State) : Answer := .next (takeItem queue s)

/-- READ: the next words of the taken item; a cell is freed once its last word has been passed. -/
def readWords (n words : Nat) (s : State) : State :=
  match queue? s n with
  | none => s
  | some q =>
    match q.taken with
    | none => s
    | some (i, w) =>
      let w1 := min (cdiv i.data.length 4) (w + words)
      returnCells q.cls (takenLeft (i, w) - takenLeft (i, w1)) i.ext false
        (withQueue n (fun r => { r with taken := some (i, w1) }) s)

/-- READ (R302). -/
def execRead (queue : Nat) (words : Nat) (s : State) : Answer := .next (readWords queue words s)

/-- FINISH: follows the read of the end word. -/
def finishItem (n : Nat) (s : State) : State :=
  match queue? s n with
  | none => s
  | some q =>
    match q.taken with
    | none => s
    | some t => if takenLeft t = 0 then endTaken n s else s

/-- FINISH (R302). -/
def execFinish (queue : Nat) (s : State) : Answer := .next (finishItem queue s)

/-- DROP_REST: frees every remaining cell of the taken item. -/
def dropRest (n : Nat) (s : State) : State :=
  match queue? s n with
  | none => s
  | some q => if q.taken.isNone then s else endTaken n (bump .dropRest n s)

/-- DROP_REST (R302). -/
def execDropRest (queue : Nat) (s : State) : Answer := .next (dropRest queue s)

/-! ### Integrity and sweep (R311, R312) -/

/-- The staged item of an op is abandoned, and the op is void at release with status FAULT. -/
def abandonStaged (f i d : Nat) (s : State) : State :=
  let gone := s.qmg.staged.filter (fun e => e.flow == f && e.inst == i && e.node == d)
  let s1 := gone.foldl (fun t e => orphanCells (queueClass s e.queue) e.item.cells e.item.ext t) s
  let s2 := withQmg (fun q => { q with staged := q.staged.filter (fun e => !(e.flow == f && e.inst == i && e.node == d)) }) s1
  { s2 with fsc := { s2.fsc with flows := FMap.adj s2.fsc.flows f (fun fl =>
    { fl with insts := fl.insts.map (fun x => if x.num = i then
        { x with ops := x.ops.map (fun o => if o.node = d then { o with status := 4, out := none } else o) }
      else x) }) } }

/-- The free list is discarded: every cell on it becomes an orphan, and allocation is refused until a sweep that
begins after this ends. -/
def discardFreeList (s : State) : State :=
  let s1 := orphanCells 9 (freeCells s) false s
  let s2 := orphanCells 9 (freeExt s) true s1
  withQmg (fun q => { q with
    extUsed := q.extSize, freeRebuild := q.freeRebuild || !q.sweep, freeLate := q.freeLate || q.sweep }) s2

/-- QUEUE_INTEGRITY: the action of R311 for the pointer that disagrees. -/
def queueIntegrity (n : Nat) (place : IntegWhere) (cell : Nat) (s : State) : State :=
  let lost := match queue? s n with | some q => q.items.length | none => 0
  let lvl := match queue? s n with | some q => q.level | none => 0
  wantSweep (match place with
    | .head => integrityEvent n 0 cell lost lvl (resetQueue n s)
    | .tail => integrityEvent n 1 cell lost lvl (resetQueue n s)
    | .linked => integrityEvent n 2 cell lost lvl (resetQueue n s)
    | .staged f i d => integrityEvent n 3 cell 1 lvl (abandonStaged f i d s)
    | .taken =>
      match queue? s n with
      | none => s
      | some q =>
        match q.taken with
        | none => s
        | some t =>
          finishRelease n (integrityEvent n 4 cell 1 lvl
            (orphanCells q.cls (takenLeft t) t.1.ext (withQueue n (fun r => { r with taken := none }) s)))
    | .freeList => integrityEvent n 5 cell 0 lvl (discardFreeList s))

/-- QUEUE_INTEGRITY (R311). -/
def execQueueIntegrity (queue : Nat) (place : IntegWhere) (cell : Nat) (s : State) : Answer :=
  .next (queueIntegrity queue place cell s)

/-- PROGRESS of a sweep counts to twice the pool's cells. -/
def sweepTotal (s : State) : Nat := 2 * (262144 + s.qmg.extSize)

/-- SWEEP_START: a sweep that R311 wants begins, as a long operation without a command (log entry 17). -/
def sweepStart (s : State) : State :=
  if s.qmg.sweep || !s.qmg.sweepDue then s
  else
    match beginLong 0x0166 0 0xFFFF (sweepTotal s) s with
    | none => withQmg (fun q => { q with sweep := true, sweepDue := false, sweepOp := none }) s
    | some (id, t) => withQmg (fun q => { q with sweep := true, sweepDue := false, sweepOp := some id }) t

/-- SWEEP_START (R312). -/
def execSweepStart (s : State) : Answer := .next (sweepStart s)

/-- QMG_SWEEP's own check (R312). -/
def qmgSweepStatus (s : State) : Nat := if s.qmg.sweep then St.busy else St.ok

/-- QMG_SWEEP (R312). -/
def execQmgSweep (h : CmdHdr) (s : State) : Answer :=
  .next (runCmd (plainCmd 0x0166 2) h
    (fun s1 => acceptLong 0x0166 h (sweepTotal s1) (qmgSweepStatus s1)
      (fun id t => withQmg (fun q => { q with sweep := true, sweepOp := some id }) t) s1) s)

/-- Cells that the sweep in progress reclaims. -/
def reclaimed (q : Qmg) : Nat := (FMap.vals q.orphans).sum + q.orphansExt

/-- SWEEP_DONE: the orphans of the sweep return to the free list; a queued cause starts one further sweep. -/
def sweepDone (s : State) : State :=
  if !s.qmg.sweep then s
  else
    let n := reclaimed s.qmg
    let s1 := withQmg (fun q =>
      { q with
        occ := FMap.mapV q.occ (fun c v => v - FMap.getD q.orphans c 0)
        extUsed := q.extUsed - q.orphansExt
        orphans := q.late, orphansExt := q.lateExt, late := [], lateExt := 0
        freeRebuild := q.freeLate, freeLate := false
        sweep := false, sweepDue := q.sweepDue || q.sweepQueued, sweepQueued := false, sweepOp := none }) s
    match s.qmg.sweepOp with
    | none => s1
    | some id => endLong id St.ok (toLE 4 n) (withLong id (fun o => { o with position := o.total }) s1)

/-- SWEEP_DONE (R312). -/
def execSweepDone (s : State) : Answer := .next (sweepDone s)

end Sys2Proof.Machine
end

