-- ==== Sys2Proof/Machine/Sessions.lean ====
section
/-! DEFINITION. Sessions, keys, the setup lock, the mailbox, attestation and user kernels (R426 to R454, R530). -/

namespace Sys2Proof.Machine

open Sys2Proof

/-! ### Keys and proofs -/

/-- The access key of a privilege. -/
def Sec.key (c : Sec) (p : Nat) : Bytes :=
  match p with
  | 1 => c.viewKey | 2 => c.operKey | _ => c.ownerKey

/-- Change the Security Unit. -/
def withSec (f : Sec → Sec) (s : State) : State := { s with sec := f s.sec }

/-- Whether a back-off runs for a privilege (R433). -/
def backoffRuns (s : State) (p : Nat) : Bool :=
  match FMap.get? s.sec.backoff p with
  | some e => now s < e
  | none => false

/-- d(f) of R433 in ns. -/
def backoffNs (f : Nat) : Nat :=
  if f ≤ 2 then 0 else if f ≤ 14 then 2 ^ (f - 3) * 1000000000 else 3600 * 1000000000

/-- The remaining time of a back-off in ms (R429), a part of a ms counted as one (log entry 14). -/
def backoffLeft (s : State) (p : Nat) : Bytes :=
  toLE 4 (cdiv (FMap.getD s.sec.backoff p 0 - now s) 1000000)

/-- The nonce that a proof may use: of this ring and privilege, drawn within 10 s (R430). -/
def usableNonce (s : State) (ring p : Nat) : Option Bytes :=
  match FMap.get? s.sec.nonces ring with
  | some n => if n.privilege = p && now s ≤ n.drawn + 10000000000 then some n.value else none
  | none => none

/-- The 35-octet string m of R432. -/
def proofInput (device host : Bytes) (ring p : Nat) : Bytes := device ++ host ++ toLE 2 ring ++ toLE 1 p

/-! ### SESSION_OPEN, SESSION_PROVE, SESSION_CLOSE -/

/-- SESSION_OPEN's own checks (R430). -/
def sessionOpenStatus (s : State) (ring p : Nat) : Nat :=
  if !s.sec.enrolled then St.notEnrolled
  else if p < 1 || 3 < p then St.badParam
  else if FMap.has s.sec.sessions ring then St.busy
  else if backoffRuns s p then St.backoff
  else St.ok

/-- A nonce is drawn and bound to the ring and the privilege (R430). -/
def drawNonce (ring p : Nat) (s : State) : Bytes × State :=
  let d := drawBytes 16 s
  (d.1, withSec (fun c => { c with nonces := FMap.set c.nonces ring ⟨p, d.1, now s⟩ }) d.2)

/-- SESSION_OPEN's own part. -/
def sessionOpenOwn (ring p : Nat) (s : State) : CmdRes :=
  let st := sessionOpenStatus s ring p
  if st = St.backoff then .done st (backoffLeft s p) s
  else if st ≠ St.ok then .done st [] s
  else .done St.ok (drawNonce ring p s).1 (drawNonce ring p s).2

/-- SESSION_OPEN (R430). -/
def execSessionOpen (h : CmdHdr) (privilege : Nat) (s : State) : Answer :=
  .next (runCmd (plainCmd 0x0401 0) h (sessionOpenOwn h.ring privilege) s)

/-- A wrong proof: f rises, a back-off may start, and AUTH_FAIL follows the threshold rule (R433). -/
def proofFailed (p : Nat) (s : State) : State :=
  let f := FMap.getD s.sec.fails p 0 + 1
  let s1 := withSec (fun c => { c with
    fails := FMap.set c.fails p f
    backoff := if backoffNs f = 0 then FMap.del c.backoff p else FMap.set c.backoff p (now s + backoffNs f) }) s
  let s2 := withLife (fun l => { l with authFail := l.authFail + 1 }) (endpWrite s1)
  crossed Ev.authFail p 0 f none (backoffNs f == 0) s2

/-- A right proof: f is 0 and the session opens (R432, R433). -/
def openSession (ring p : Nat) (ks : Bytes) (s : State) : State :=
  let s1 := withSec (fun c => { c with
    fails := FMap.del c.fails p
    sessions := FMap.set c.sessions ring
      { privilege := p, key := ks, lastCmd := now s, commands := 0, ivHigh := 0, ivUsed := false } }) s
  if FMap.getD s.sec.fails p 0 = 0 then s1 else endpWrite s1

/-- The nonce of a ring is used up. -/
def useNonce (ring : Nat) (s : State) : State := withSec (fun c => { c with nonces := FMap.del c.nonces ring }) s

/-- SESSION_PROVE's checks 2 to 6 (R432). -/
def sessionProveStatus (s : State) (ring : Nat) (b : Bytes) : Nat :=
  let p := byteAt b 0
  if !s.sec.enrolled then St.notEnrolled
  else if p < 1 || 3 < p || !zeroIn b 1 15 then St.badParam
  else if backoffRuns s p then St.backoff
  else
    match usableNonce s ring p with
    | none => St.noNonce
    | some v =>
      if hmacSha256 (s.sec.key p) (proofInput v (sub b 0x10 16) ring p) = sub b 0x20 32 then St.ok else St.badProof

/-- SESSION_PROVE's own part. -/
def sessionProveOwn (ring : Nat) (b : Bytes) (s : State) : CmdRes :=
  let p := byteAt b 0
  let st := sessionProveStatus s ring b
  if st = St.backoff then .done st (backoffLeft s p) s
  else if st = St.noNonce then .done st [] (useNonce ring s)
  else if st = St.badProof then .done st [] (proofFailed p (useNonce ring s))
  else if st ≠ St.ok then .done st [] s
  else
    let m := proofInput ((usableNonce s ring p).getD []) (sub b 0x10 16) ring p
    let k := s.sec.key p
    .done St.ok ((hmacSha256 k (m ++ [0x44])).take 16)
      (openSession ring p (hmacSha256 k (m ++ [0x4B])) (useNonce ring s))

/-- SESSION_PROVE (R432). -/
def execSessionProve (h : CmdHdr) (s : State) : Answer :=
  .next (runCmd (blockCmd 0x0402 0 64) h (sessionProveOwn h.ring (blk h)) s)

/-- SESSION_CLOSE (R434). -/
def execSessionClose (h : CmdHdr) (s : State) : Answer :=
  .next (runCmd (plainCmd 0x0403 4) h
    (fun s1 => checked (if s1.sec.enrolled then St.ok else St.notEnrolled) (endSession h.ring 1 s1) s1) s)

/-- SESSION_IDLE_TIMEOUT (R434): the session has been idle for idle_s. -/
def execSessionIdleTimeout (ring : Nat) (t : Ns) (s : State) : Answer :=
  let s1 := advance t s
  .next (match FMap.get? s1.sec.sessions ring with
    | some c => onlyIf (c.lastCmd + idleNs s1 ≤ now s1) (endSession ring 4 s1) s1
    | none => s1)

/-- NONCE_EXPIRY (R430): 10 s have passed. -/
def execNonceExpiry (ring : Nat) (t : Ns) (s : State) : Answer :=
  let s1 := advance t s
  .next (match FMap.get? s1.sec.nonces ring with
    | some n => onlyIf (n.drawn + 10000000000 ≤ now s1) (useNonce ring s1) s1
    | none => s1)

/-- BACKOFF_EXPIRY (R433): proofs of the privilege are taken again, and AUTH_FAIL shows it. -/
def execBackoffExpiry (privilege : Nat) (t : Ns) (s : State) : Answer :=
  let s1 := advance t s
  .next (match FMap.get? s1.sec.backoff privilege with
    | some e =>
      onlyIf (e ≤ now s1)
        (noticeLive Ev.authFail privilege false none true
          (withSec (fun c => { c with backoff := FMap.del c.backoff privilege }) s1)) s1
    | none => s1)

/-! ### Enrolment, keys and the setup lock (R435 to R438) -/

/-- Whether three keys may be held: none zero, no two equal (R426). -/
def keysOk (a b c : Bytes) : Bool :=
  !a.all (· == 0) && !b.all (· == 0) && !c.all (· == 0) && a != b && b != c && a != c

/-- OWNER_ENROL's own checks (R436, R483). -/
def ownerEnrolStatus (s : State) (b : Bytes) : Nat :=
  if s.sec.enrolled then St.enrolled
  else if byteAt b 0 ≠ 1 || !zeroIn b 1 15 || !keysOk (sub b 0x10 32) (sub b 0x30 32) (sub b 0x50 32) then St.badParam
  else if s.endp.degraded then St.endpaperFail
  else St.ok

/-- The owner is enrolled, and setup locks (R435, R436, R437). -/
def enrol (ring : Nat) (b : Bytes) (s : State) : State :=
  lockChange true 5 ring 0 (withSec (fun c => { c with
    enrolled := true, viewKey := sub b 0x10 32, operKey := sub b 0x30 32, ownerKey := sub b 0x50 32
    signHash := sub b 0x70 32, fails := [], backoff := [], unlock := none }) (endpWrite s))

/-- OWNER_ENROL (R436). -/
def execOwnerEnrol (h : CmdHdr) (s : State) : Answer :=
  .next (runCmd (blockCmd 0x0410 5 144) h
    (fun s1 => checked (ownerEnrolStatus s1 (blk h)) (enrol h.ring (blk h) s1) s1) s)

/-- What KEY_SET carries: the decrypted value. -/
def keySetValue (k : Bytes) (b : Bytes) : Bytes := gcmCrypt k (zeros 4 ++ sub b 8 8) (sub b 0x10 32)

/-- The keys after one is replaced. -/
def Sec.withKey (c : Sec) (which : Nat) (v : Bytes) : Sec :=
  match which with
  | 0 => { c with viewKey := v } | 1 => { c with operKey := v } | 2 => { c with ownerKey := v }
  | _ => { c with signHash := v }

/-- KEY_SET's own checks (R438). A ring without a session has no session key, so its tag fails (log entry 15). -/
def keySetStatus (s : State) (ring : Nat) (b : Bytes) : Nat :=
  match FMap.get? s.sec.sessions ring with
  | none => St.badParam
  | some ses =>
    let w := byteAt b 0
    let iv := beAt b 8 8
    let c := s.sec.withKey w (keySetValue ses.key b)
    if !zeroIn b 1 7 || 3 < w || (ses.ivUsed && iv ≤ ses.ivHigh) ||
      gcmTag ses.key (zeros 4 ++ sub b 8 8) (b.take 16) (sub b 0x10 32) ≠ sub b 0x30 16 ||
      !keysOk c.viewKey c.operKey c.ownerKey then St.badParam
    else if s.endp.degraded then St.endpaperFail
    else St.ok

/-- The value is committed, f of its privilege is 0, and other sessions of that privilege end (R438). -/
def setKey (ring : Nat) (b : Bytes) (s : State) : State :=
  match FMap.get? s.sec.sessions ring with
  | none => s
  | some ses =>
    let w := byteAt b 0
    let s1 := withSec (fun c => { c.withKey w (keySetValue ses.key b) with
      sessions := FMap.set c.sessions ring { ses with ivHigh := beAt b 8 8, ivUsed := true }
      fails := if w ≤ 2 then FMap.del c.fails (w + 1) else c.fails
      backoff := if w ≤ 2 then FMap.del c.backoff (w + 1) else c.backoff }) (endpWrite s)
    if w ≤ 2 then
      let others := (s.sec.sessions.filter (fun e => e.1 != ring && e.2.privilege == w + 1)).map (·.1)
      others.foldl (fun t r => endSession r 6 t) (noticeLive Ev.authFail (w + 1) false none true s1)
    else s1

/-- KEY_SET (R438). -/
def execKeySet (h : CmdHdr) (s : State) : Answer :=
  .next (runCmd (blockCmd 0x0411 3 64) h
    (fun s1 => checked (keySetStatus s1 h.ring (blk h)) (setKey h.ring (blk h) s1) s1) s)

/-- The checks that SETUP_UNLOCK and SETUP_LOCK share (R427, R437). -/
def unlockStatus (s : State) (ring : Nat) : Nat :=
  if !s.sec.enrolled then St.notEnrolled
  else match s.sec.unlock with
    | some (r, _) => if r = ring || !unlockHeld s then St.ok else St.busy
    | none => St.ok

/-- An unlock whose time has run out ends (R437). -/
def expireUnlock (s : State) : State :=
  match s.sec.unlock with
  | some (r, e) => onlyIf (e ≤ now s) (relock r 4 s) s
  | none => s

/-- Setup is unlocked for the ring's session until unlock_max has passed (R437). -/
def unlockSetup (ring : Nat) (s : State) : State :=
  let s1 := withSec (fun c => { c with unlock := some (ring, now s + unlockMaxNs s) }) s
  if s.sec.unlock.isSome then s1 else lockChange false 1 ring (devTime s + unlockMaxNs s) s1

/-- SETUP_UNLOCK's own part: the result is the expiry. -/
def setupUnlockOwn (ring : Nat) (s0 : State) : CmdRes :=
  let s := expireUnlock s0
  let st := unlockStatus s ring
  if st = St.ok then .done St.ok (toLE 8 (devTime s + unlockMaxNs s)) (unlockSetup ring s) else .done st [] s

/-- SETUP_UNLOCK (R437). -/
def execSetupUnlock (h : CmdHdr) (s : State) : Answer :=
  .next (runCmd (plainCmd 0x0412 3) h (setupUnlockOwn h.ring) s)

/-- Setup locks again, if this ring's session holds the unlock. -/
def lockSetup (ring : Nat) (s : State) : State := relock ring 2 s

/-- SETUP_LOCK (R437). -/
def execSetupLock (h : CmdHdr) (s : State) : Answer :=
  .next (runCmd (plainCmd 0x0413 3) h (fun s1 => let s2 := expireUnlock s1; checked (unlockStatus s2 h.ring) (lockSetup h.ring s2) s2) s)

/-- UNLOCK_EXPIRY (R437): unlock_max has passed. -/
def execUnlockExpiry (t : Ns) (s : State) : Answer :=
  .next (expireUnlock (advance t s))

/-! ### Identity and attestation (R449 to R453) -/

/-- The block of R453. -/
def idKeysBlock (s : State) : Bytes :=
  toLE 8 s.sec.identity.toNat ++ padTo 8730 Config.identityKeys ++ zeros 3550

/-- The device writes the block of a command. -/
def writeBlock (b : Bytes) (s : State) : State := { s with hif := { s.hif with wrote := b } }

/-- ID_KEYS (R453). -/
def execIdKeys (h : CmdHdr) (s : State) : Answer :=
  .next (runCmd (blockCmd 0x0404 0 12288) h (fun s1 => .done St.ok [] (writeBlock (idKeysBlock s1) s1)) s)

/-- Version and digest of an image that may be absent. -/
def verOf (i : Option Image) : Nat := match i with | some m => m.version.toNat | none => 0
def digOf (i : Option Image) : Bytes := match i with | some m => padTo 64 m.digest | none => zeros 64

/-- The level that the running Media Image runs at: BL1 or none, since J1 holds BL1 alone (R495). -/
def behaviourLevel (s : State) : Nat := match runMim s with | some m => b2n (m.blMask.testBit 1) | none => 0

/-- Octets 0x000 to 0x1FF of the report (R451). -/
def attestHead (s : State) (challenge : Bytes) : Bytes :=
  let l := lifeNow s
  let flags := b2n s.sec.enrolled + 2 * b2n (setupLocked s) + 4 * b2n s.avl.behaviourLock +
    8 * b2n s.avl.acceptUntested.isSome + 16 * s.sec.revoked.toNat + 64 * b2n s.avl.userLoaded.isSome
  padTo 512 (toLE 4 0x5454414A ++ [1, BitVec.ofNat 8 (behaviourLevel s)] ++ toLE 2 0x9640 ++
    toLE 8 s.sec.identity.toNat ++ toLE 2 0x4A31 ++ toLE 2 flags ++ zeros 4 ++ toLE 8 (devTime s) ++
    padTo 32 challenge ++ digOf (runCim s) ++ digOf (runMim s) ++ digOf s.avl.userLoaded ++
    toLE 4 (verOf (runCim s)) ++ toLE 4 (verOf (runMim s)) ++ toLE 4 (verOf s.avl.userLoaded) ++
    toLE 2 (hifLevels s) ++ zeros 2 ++ padTo 32 s.sec.signHash ++ toLE 8 l.powerOnS ++ toLE 8 l.por ++
    toLE 8 l.factory ++ toLE 8 l.authFail ++ toLE 8 l.imageActivate ++ toLE 8 l.endpaperWrite)

/-- The report with both signatures. -/
def attestReport (s : State) (challenge : Bytes) : Bytes :=
  let a := attestHead s challenge
  let d := sha512 a
  padTo 4096 (a ++ padTo 64 (Config.ed25519Sign d) ++ padTo 3309 (Config.mlDsaSign d))

/-- ATTEST (R451). -/
def execAttest (h : CmdHdr) (challenge : Bytes) (s : State) : Answer :=
  .next (runCmd (blockCmd 0x0405 1 4096) h (fun s1 => .done St.ok [] (writeBlock (attestReport s1 challenge) s1)) s)

/-! ### The mailbox (R440, R530) -/

/-- Whether the Control Image takes a mailbox command now. -/
def mbxTakeable (s : State) : Bool :=
  alive s && s.avl.power = 0 && (s.avl.stage = 7 || s.avl.stage = 8 || s.avl.stage = 10) && !s.hif.mbxBusy

/-- A mailbox command has ended with a status; the mailbox is passed after ring 511 (R403). -/
def mbxEnd (status : Nat) (s : State) : State := { s with hif := { s.hif with mbxStatus := status, lastTurn := 512 } }

/-- MBX_ID_KEYS (R530). -/
def execMbxIdKeys (writable : Bool) (s : State) : Answer :=
  .next (onlyIf (mbxTakeable s)
    (if writable then
      mbxEnd St.ok { s with hif := { s.hif with mbxAnswer := idKeysBlock s } }
     else mbxEnd St.badDesc s) s)

/-- OWNER_ENROL through the mailbox. -/
def mbxEnrolStatus (s : State) (b : Option Bytes) : Nat :=
  match b with
  | some d => if d.length = 144 then ownerEnrolStatus s d else St.badDesc
  | none => St.badDesc

/-- MBX_OWNER_ENROL (R530). -/
def execMbxOwnerEnrol (block : Option Bytes) (s : State) : Answer :=
  .next (onlyIf (mbxTakeable s)
    (mbxEnd (mbxEnrolStatus s block) (onlyIf (mbxEnrolStatus s block == St.ok) (enrol 0xFFFF (block.getD []) s) s)) s)

/-! ### User kernels (R446 to R448) -/

/-- Whether any host flow is set up. -/
def anyHostFlow (s : State) : Bool := s.fsc.flows.any (fun e => e.2.host)

/-- USER_KERNELS_LOAD's own checks (R448). -/
def userLoadStatus (s : State) : Nat :=
  if !s.sec.enrolled then St.notEnrolled
  else if anyHostFlow s then St.busy
  else St.ok

/-- USER_KERNELS_LOAD (R448): the device reads block_len bytes (R428). -/
def execUserKernelsLoad (h : CmdHdr) (s : State) : Answer :=
  .next (runCmd ⟨0x0420, 3, fun _ => true, true, false⟩ h
    (fun s1 => acceptLong 0x0420 h (blk h).length (userLoadStatus s1)
      (fun id s2 => { s2 with avl := { s2.avl with ukLoading := s2.avl.ukLoading ++ [(id, blk h)] } }) s1) s)

/-- Put a set of user kernels, or none, into every loaded image's code. -/
def putUser (uk : Option Image) (s : State) : State :=
  { s with
    avl := { s.avl with userLoaded := uk }
    code := FMap.mapV s.code (fun _ c =>
      match uk with
      | some u => loadKernels (imageKernels u.raw) 3584 32512 c.noUser
      | none => c.noUser) }

/-- The detail octet that R429 puts into a result. -/
def imageDetail (st d : Nat) : Bytes := if st = St.imgSig || st = St.imgDigest then toLE 1 d else []

/-- USER_KERNELS_LOAD_DONE (R448): the oldest load ends: the checks, the flash and every VPE, or FAILED (log entry 16). -/
def userLoadDone (s : State) : State :=
  match s.avl.ukLoading with
  | [] => s
  | (id, raw) :: rest =>
    let s1 := { s with avl := { s.avl with ukLoading := rest } }
    match checkUser s1 (runMim s1) raw with
    | .error (st, d) => endLong id st (imageDetail st d) s1
    | .ok i =>
      endLong id St.ok []
        (withLong id (fun o => { o with position := o.total })
          (putUser (some i) { s1 with avl := { s1.avl with userStored := some i } }))

/-- USER_KERNELS_LOAD_DONE (R448). -/
def execUserKernelsLoadDone (s : State) : Answer := .next (userLoadDone s)

/-- USER_KERNELS_CLEAR's own check (R448). -/
def userClearStatus (s : State) : Nat := if anyHostFlow s then St.busy else St.ok

/-- USER_KERNELS_CLEAR (R448). -/
def execUserKernelsClear (h : CmdHdr) (s : State) : Answer :=
  .next (runCmd (plainCmd 0x0421 3) h
    (fun s1 => checked (userClearStatus s1) (putUser none { s1 with avl := { s1.avl with userStored := none } }) s1) s)

end Sys2Proof.Machine
end

