-- ==== Sys2Proof/Machine/Memory.lean ====
section
/-! DEFINITION. The endpoint directory's commands, scrub and repair of memories, uncorrectable errors, DRAM timing and the
lifetime counters (R457, R463 to R474, R482, R483). -/

namespace Sys2Proof.Machine

open Sys2Proof

/-! ### EPD_PUT, EPD_DELETE and EPD_GET (R471, R472) -/

/-- The reserved and refused values of an entry block (R467, R472). -/
def epdBlockOk (b : Bytes) : Bool :=
  fieldAt b 8 0 0 = 1 && fieldAt b 8 1 1 = 0 && fieldAt b 8 5 4 ≠ 3 && fieldAt b 8 7 7 = 0 && zeroIn b 9 3 &&
  fieldAt b 0x4A 7 4 = 0 && zeroIn b 0x5A 6 && !(fieldAt b 8 5 4 = 1 && zeroIn b 0x10 16)

/-- The address of an entry block. -/
def epdAddr (b : Bytes) : BitVec 64 := BitVec.ofNat 64 (leAt b 0 8)

/-- EPD_PUT's own check (R469, R472). -/
def epdPutStatus (s : State) (b : Bytes) : Nat :=
  if !epdBlockOk b then St.badParam
  else if (slotOf s (epdAddr b)).isSome then St.ok
  else if (FMap.firstFree s.epd.entries 8388608).isNone then St.epdNoroom
  else if (placeRef s.epd.kIdx s.epd.refs (epdAddr b) 0).isNone then St.epdNoroom
  else St.ok

/-- An entry after EPD_PUT: the block's first half with key and counters by key_op and ctr_op, and its host_data_b; the
device keeps last_time to reg_time. A loaded dl_fcnt is raised by the guard and holds at its highest value (R473). -/
def putEntryBlock (b : Bytes) (guard : Nat) (e : EpdEntry) : EpdEntry :=
  let keyOp := fieldAt b 8 5 4
  let ctr : Bool := bit (byteAt b 8) 6
  { e with
    damaged := e.damaged && !(keyOp = 1 && ctr)
    hasKey := if keyOp = 1 then true else if keyOp = 2 then false else e.hasKey
    key := if keyOp = 1 then sub b 0x10 16 else if keyOp = 2 then [] else e.key
    group := bit (byteAt b 8) 3, hostTag := BitVec.ofNat 32 (leAt b 0x0C 4)
    ulFcnt := if ctr then BitVec.ofNat 32 (leAt b 0x20 4) else e.ulFcnt
    dlFcnt := if ctr then BitVec.ofNat 32 (min 0xFFFFFFFF (leAt b 0x24 4 + guard)) else e.dlFcnt
    rxOk := BitVec.ofNat 32 (leAt b 0x28 4), rxSecFail := BitVec.ofNat 32 (leAt b 0x2C 4)
    hostA := sub b 0x30 16, hostB := sub b 0x68 24 }

/-- The slot that EPD_PUT writes: that of the address, or the lowest free one. -/
def putSlot (s : State) (b : Bytes) : Nat :=
  match slotOf s (epdAddr b) with
  | some n => n
  | none => (FMap.firstFree s.epd.entries 8388608).getD 0

/-- Insert an address, or replace its entry; the checks have passed. -/
def putBlock (b : Bytes) (guard : Nat) (s : State) : State :=
  let a := epdAddr b
  match slotOf s a with
  | some n => withEntry n (putEntryBlock b guard) s
  | none =>
    let n := putSlot s b
    withEpd (fun e => { e with
      entries := FMap.set e.entries n (putEntryBlock b guard (EpdEntry.fresh a))
      refs := (placeRef e.kIdx e.refs a n).getD e.refs }) s

/-- EPD_PUT's own part: the result is the slot. -/
def epdPutOwn (b : Bytes) (s : State) : CmdRes :=
  if epdPutStatus s b = St.ok then .done St.ok (toLE 4 (putSlot s b)) (putBlock b 0 s) else .done (epdPutStatus s b) [] s

/-- EPD_PUT (R472). -/
def execEpdPut (h : CmdHdr) (s : State) : Answer := .next (runCmd (blockCmd 0x0501 2 128) h (epdPutOwn (blk h)) s)

/-- Remove an entry; a directory that becomes empty takes a new directory key (R468). -/
def deleteEntry (n : Nat) (s : State) : State :=
  let s1 := withEpd (fun e => { e with entries := FMap.del e.entries n, refs := e.refs.filter (fun r => r.slot != n) }) s
  if s1.epd.entries.isEmpty then emptyEpd s1 else s1

/-- EPD_DELETE's own part. -/
def epdDeleteOwn (addr : BitVec 64) (s : State) : CmdRes :=
  match slotOf s addr with
  | none => .done St.epdAbsent [] s
  | some n => .done St.ok [] (deleteEntry n s)

/-- EPD_DELETE (R472). -/
def execEpdDelete (h : CmdHdr) (addr : BitVec 64) (s : State) : Answer :=
  .next (runCmd (plainCmd 0x0502 2) h (epdDeleteOwn addr) s)

/-- EPD_GET's own part: the entry goes to the block, its key zeroed. -/
def epdGetOwn (addr : BitVec 64) (s : State) : CmdRes :=
  match (slotOf s addr).bind (epdEntry? s) with
  | none => .done St.epdAbsent [] s
  | some e => .done St.ok [] (writeBlock (entryBytes e) s)

/-- EPD_GET (R472). -/
def execEpdGet (h : CmdHdr) (addr : BitVec 64) (s : State) : Answer :=
  .next (runCmd (blockCmd 0x0503 1 128) h (epdGetOwn addr) s)

/-! ### EPD_LOAD and EPD_EXPORT (R473) -/

/-- Whether a count is in its range. -/
def countStatus (count : Nat) : Nat := if 1 ≤ count && count ≤ 8388608 then St.ok else St.badParam

/-- EPD_LOAD (R473): accepted; the entries are put as the operation runs. -/
def execEpdLoad (h : CmdHdr) (count : Nat) (s : State) : Answer :=
  .next (runCmd ⟨0x0504, 2, (· == 128 * count), true, false⟩ h
    (fun s1 => acceptLong 0x0504 h count (countStatus count)
      (fun id t => withEpd (fun e => { e with load := e.load ++ [(id, blk h)] }) t) s1) s)

/-- Raise of loaded downlink counters (R487). -/
def dlGuard (s : State) : Nat := (regVal s .epdCfg).toNat

/-- Put the entries of a block in order, from one on: the status and index at which it stops. -/
def loadEntries (n i : Nat) (b : Bytes) (s : State) : Nat × Nat × State :=
  match n with
  | 0 => (St.ok, i, s)
  | k + 1 =>
    let e := b.take 128
    let st := epdPutStatus s e
    if st = St.ok then loadEntries k (i + 1) (b.drop 128) (putBlock e (dlGuard s) s) else (st, i, s)

/-- A load ends with DONE, or with FAILED at the first refused entry, whose index is its position. -/
def loadDone (s : State) : State :=
  match s.epd.load with
  | [] => s
  | (id, b) :: rest =>
    let (st, i, s1) := loadEntries (b.length / 128) 0 b (withEpd (fun e => { e with load := rest }) s)
    endLong id st [] (withLong id (fun o => { o with position := i }) s1)

/-- EPD_LOAD_DONE (R473). -/
def execEpdLoadDone (s : State) : Answer := .next (onlyIf (alive s) (loadDone s) s)

/-- EPD_EXPORT (R473). -/
def execEpdExport (h : CmdHdr) (count : Nat) (s : State) : Answer :=
  .next (runCmd ⟨0x0505, 2, (· == 128 * count), true, false⟩ h
    (fun s1 => acceptLong 0x0505 h count (countStatus count)
      (fun id t => withEpd (fun e => { e with export_ := e.export_ ++ [(id, count)] }) t) s1) s)

/-- An export ends: valid entries in slot order with zeroed keys, and their number (R473). -/
def exportDone (s : State) : State :=
  match s.epd.export_ with
  | [] => s
  | (id, count) :: rest =>
    let l := (FMap.vals s.epd.entries).take count
    let s1 := writeBlock (l.flatMap entryBytes) (withEpd (fun e => { e with export_ := rest }) s)
    endLong id St.ok (toLE 4 l.length) (withLong id (fun o => { o with position := l.length }) s1)

/-- EPD_EXPORT_DONE (R473). -/
def execEpdExportDone (s : State) : Answer := .next (onlyIf (alive s) (exportDone s) s)

/-! ### EPD_REBUILD and EPD_CLEAR (R474) -/

/-- A rebuild starts under a new directory key, for a long operation or for the device itself. -/
def startRebuild (op : Option Nat) (s : State) : State :=
  let k := drawBytes 16 s
  withEpd (fun e => { e with rebuild := some (op, k.1) }) k.2

/-- EPD_REBUILD's own check. -/
def rebuildStatus (s : State) : Nat := if s.epd.rebuild.isSome then St.busy else St.ok

/-- EPD_REBUILD (R474). -/
def execEpdRebuild (h : CmdHdr) (s : State) : Answer :=
  .next (runCmd (plainCmd 0x0506 2) h
    (fun s1 => acceptLong 0x0506 h s1.epd.entries.length (rebuildStatus s1) (fun id t => startRebuild (some id) t) s1) s)

/-- The new index, built of every valid entry, takes the place of the old one. -/
def rebuildSwitch (s : State) : State :=
  match s.epd.rebuild with
  | none => s
  | some (op, k) =>
    let s1 := withEpd (fun e => { e with rebuild := none, kIdx := k, refs := rebuildRefs k e.entries, badBuckets := [] }) s
    match op with
    | none => s1
    | some id => endLong id St.ok [] (withLong id (fun o => { o with position := o.total }) s1)

/-- EPD_REBUILD_SWITCH (R474). -/
def execEpdRebuildSwitch (s : State) : Answer := .next (onlyIf (alive s) (rebuildSwitch s) s)

/-- EPD_CLEAR (R474). -/
def execEpdClear (h : CmdHdr) (s : State) : Answer :=
  .next (runCmd (plainCmd 0x0507 3) h (fun s1 => .done St.ok [] (emptyEpd s1)) s)

/-! ### Scrub and repair (R463, R464) -/

/-- Change the DRAM controller. -/
def withDmc (f : Dmc → Dmc) (s : State) : State := { s with dmc := f s.dmc }

/-- Bytes that a pass over a region reads (R456, R461). -/
def regionBytes (s : State) (region : Nat) : Nat :=
  match region with
  | 0 => s.dmc.capacity * 2 ^ 30 / 8 * 7
  | 1 => 17 * 4 * 2 ^ 20
  | 2 => 272 * (288 + 64) * 1024
  | 3 => 262144 * 16 * 36 / 8
  | _ => 8 * 2 ^ 20

/-- MEM_SCRUB's own check. -/
def memScrubStatus (s : State) (region : Nat) : Nat :=
  if 4 < region then St.badParam else if s.dmc.scrubbing.any (fun e => e.1 == region) then St.busy else St.ok

/-- MEM_SCRUB (R463). -/
def execMemScrub (h : CmdHdr) (region : Nat) (s : State) : Answer :=
  .next (runCmd (plainCmd 0x0511 2) h
    (fun s1 => acceptLong 0x0511 h (regionBytes s1 region) (memScrubStatus s1 region)
      (fun id t => withDmc (fun d => { d with scrubbing := d.scrubbing ++ [(region, some id)] }) t) s1) s)

/-- Raise DRAM_UE (R465). -/
def dramUeNotice (chan reason addr : Nat) (s : State) : State := crossed Ev.dramUe chan reason (addr : Int) none false s

/-- A repair candidate is remapped to a spare row at once, or raises DRAM_UE where the 16 are taken (R464). -/
def repairRow (chan row addr : Nat) (s : State) : State :=
  let l := FMap.getD s.dmc.remaps chan []
  if l.contains row then s
  else if l.length < 16 then endpWrite (withDmc (fun d => { d with remaps := FMap.set d.remaps chan (l ++ [row]) }) s)
  else dramUeNotice chan 2 addr s

/-- The row that holds a usable address, and a usable address of a row, which the spec does not lay out (log entry 5). -/
def rowOf (addr : Nat) : Nat := Config.unstated 464 addr
def rowAddr (row : Nat) : Nat := Config.unstated 465 row

/-- A row has yielded a corrected error in one more scrub pass; the third makes it a candidate. -/
def correctedRow (s : State) (e : Nat × Nat) : State :=
  let n := match s.dmc.ceRows.find? (fun r => r.1 == e.1 && r.2.1 == e.2) with | some r => r.2.2 + 1 | none => 1
  let s1 := withDmc (fun d => { d with
    ceRows := (e.1, e.2, n) :: d.ceRows.filter (fun r => !(r.1 == e.1 && r.2.1 == e.2)) }) s
  if n = 3 then repairRow e.1 e.2 (rowAddr e.2) s1 else s1

/-- A corrected error in a VPE's data memory counts, and the op that it runs has it in its status (R225, R232). -/
def correctedVpe (n : Nat) (s : State) : State :=
  let s1 := bump .vpeMemCe n s
  if n < 272 && (vpeAt s n).run = .running then putVpe n { vpeAt s n with vst := (vpeAt s n).vst ||| 0x200 } s1 else s1

/-- The counter of a corrected error by region, and its object. -/
def correctedAt (region : Nat) (s : State) (e : Nat × Nat) : State :=
  match region with
  | 0 => bump .dramCe e.1 s
  | 1 => bump .cmemCe e.1 s
  | 2 => correctedVpe e.1 s
  | 3 => bump .poolCe 0 s
  | _ => bump .endpCe 0 s

/-- A scrub pass over a region ends: corrected errors count, DRAM rows that repeat them are repaired, and the operation
that asked for the pass ends. -/
def scrubPass (region : Nat) (corrected : List (Nat × Nat)) (s : State) : State :=
  let s1 := corrected.foldl (correctedAt region) s
  let s2 := if region = 0 then corrected.eraseDups.foldl correctedRow s1 else s1
  let mine := s.dmc.scrubbing.find? (fun e => e.1 == region)
  let s3 := withDmc (fun d => { d with scrubbing := d.scrubbing.filter (fun e => e.1 != region) }) s2
  match mine.bind (·.2) with
  | none => s3
  | some id => endLong id St.ok [] (withLong id (fun o => { o with position := o.total }) s3)

/-- SCRUB_PASS (R463). -/
def execScrubPass (region : Nat) (corrected : List (Nat × Nat)) (s : State) : Answer :=
  .next (onlyIf (alive s && region ≤ 4) (scrubPass region corrected s) s)

/-- DRAM_TIMING_CORRECT (R457): the correction of a channel in 1/1000 of a unit interval; beyond one eighth of one from
the cached value, the cache entry is rewritten. -/
def timingCorrect (chan : Nat) (c : Int) (s : State) : State :=
  let s1 := withDmc (fun d => { d with dqs := FMap.set d.dqs chan c }) s
  if 125 < (c - FMap.getD s.dmc.cached chan 0).natAbs then
    endpWrite (withDmc (fun d => { d with cached := FMap.set d.cached chan c }) s1)
  else s1

/-- DRAM_TIMING_CORRECT (R457). -/
def execDramTimingCorrect (channel : Nat) (correction : Int) (s : State) : Answer :=
  .next (onlyIf (alive s && channel < 4 && s.dmc.chOk.getLsbD channel) (timingCorrect channel correction s) s)

/-! ### Uncorrectable errors (R465) -/

/-- An uncorrectable error in DRAM: counted, reported, and its row repaired (R464, R465). -/
def dramUe (chan addr : Nat) (s : State) : State :=
  let s1 := withLife (fun l => { l with dramUe := l.dramUe + 1 }) (bump .dramUe chan (withDmc (fun d => { d with lastUe := some (now s) }) s))
  repairRow chan (rowOf addr) addr (dramUeNotice chan 1 addr s1)

/-- The op on a VPE ends in a fault that describes the VPE: MEM_UE of its data, ILLEGAL of its program (R289). -/
def vpeFaulted (n : Nat) (k : FaultKind) (s : State) : State :=
  if (vpeAt s n).op.isSome then putVpe n { (vpeAt s n).fault k with progBad := (vpeAt s n).progBad || k = .illegal } s else s

/-- A channel's echo state is reset and reconverges. -/
def echoLost (n : Nat) (s : State) : State :=
  if FMap.has s.chans n then
    bump .ecStateLost n { s with chans := FMap.adj s.chans n Chan.noEcho }
  else s

/-- One op becomes void with status FAULT (R274, R465). A tethered result is discarded with one count. -/
def voidOp (f i d : Nat) (s : State) : State :=
  match flow? s f, opAt s f i d with
  | some fl, some o =>
    if o.st = .released || o.st = .skipped || o.voided then s
    else
      let s1 := if o.roots.isEmpty then s else bump .specDiscardClass fl.cls (bump .specDiscard f s)
      withOp f i d (fun p =>
        { p with st := .void, status := 4, loc := .none, heldFault := none, out := none, wait := none, roots := []
                 isRoot := false, stale := false, ran := p.ran || p.st = .dispatched }) (freeStaged f i d s1)
  | _, _ => s

/-- VPEs that hold ops of a flow are free again. -/
def freeVpesOf (f : Nat) (s : State) : State :=
  { s with vpes := FMap.mapV s.vpes (fun _ v =>
      match v.op with
      | some (g, _, _) => if g = f then { v with op := none, run := .idle } else v
      | none => v) }

/-- The flow's unreleased ops become void with status FAULT; the entry is rebuilt. -/
def flowFault (f : Nat) (s : State) : State :=
  match flow? s f with
  | none => s
  | some fl => round (fl.order.foldl (fun t e => voidOp f e.1.num e.2.node t) (freeVpesOf f s))

/-- A segment of the recording backlog is dropped; the next one of its source carries gap (R338, R465). The place in the
backlog that an address stands for is open. -/
def backlogLost (s : State) : State :=
  let d := drawNat s
  match s.bce.backlog[d.1 % max 1 s.bce.backlog.length]? with
  | none => s
  | some e =>
    let s1 := withBce (fun b => { b with backlog := dropFirst b.backlog e }) d.2
    let s2 := if byteAt e.data 0 = 1 then
        { s1 with chans := FMap.adj s1.chans e.source (fun c => { c with gap := c.gap + byteAt e.data 0x14 }) }
      else withBce (fun b => { b with captures := FMap.adj b.captures e.source (fun k => { k with gap := k.gap + 1 }) }) s1
    finishFlushes (countRecDrop e (backlogMoved (backlogBytes s) s2))

/-- An event of a ring's backlog is dropped and counted; which one the address stands for is open. The next event
raised to the ring carries lost. -/
def eventLost (n : Nat) (s : State) : State :=
  match ring? s n with
  | none => s
  | some r =>
    if r.backlog.isEmpty then s
    else
      let d := drawNat s
      bump .evtDrop n (withRing n (fun q =>
        { q with backlog := q.backlog.eraseIdx (d.1 % r.backlog.length), lostFlag := true }) d.2)

/-- A directory entry is marked damaged (R468). -/
def entryLost (slot : Nat) (s : State) : State :=
  match epdEntry? s slot with
  | none => s
  | some e =>
    raise Ev.epdDamaged none (padTo 48 (Config.eventBody Ev.epdDamaged [(slot : Int), (e.addr.toNat : Int)]))
      (withEntry slot (fun e => { e with damaged := true }) s)

/-- A bucket of the index is damaged, and a rebuild starts at once (R474). -/
def indexLost (addr : Nat) (s : State) : State :=
  let s1 := withEpd (fun e => { e with badBuckets := (addr - 1536 * 2 ^ 20) / 64 % 2097152 :: e.badBuckets }) s
  if s1.epd.rebuild.isSome then s1 else startRebuild none s1

/-- Both copies of a record have failed: its area takes its factory state (R483). Areas in the order of R477. -/
def areaLost (area : Nat) (s : State) : State :=
  match area with
  | 0 => { s with avl := { s.avl with bootCim := 0, bootMim := 0, knownGood := none, userStored := none } }
  | 1 => { s with sec := { s.sec with enrolled := false, viewKey := [], operKey := [], ownerKey := [], signHash := [], fails := [] } }
  | 2 => { s with avl := { s.avl with behaviourLock := false, acceptUntested := none } }
  | 3 => { s with endp := { s.endp with epoch := 0, committed := { regs := [], gates := [], wake := [], gains := [] } } }
  | 4 => { s with dmc := { s.dmc with remaps := [], cached := [] } }
  | 5 => { s with endp := { s.endp with life := Lifetime.reset, lifeStored := Lifetime.reset, lifeAt := now s } }
  | _ => s

/-- A record of Endpaper fails: the reader takes the other copy, or the area is lost and ENDPAPER_LOST follows READY. -/
def endpaperUe (area : Nat) (both : Bool) (s : State) : State :=
  if both then
    let body := padTo 48 (Config.eventBody Ev.endpaperLost [(area : Int)])
    let s1 := areaLost area s
    if s.avl.stage < 7 then { s1 with avl := { s1.avl with atReady := s1.avl.atReady ++ [(Ev.endpaperLost, body)] } }
    else raiseStart Ev.endpaperLost body s1
  else s

/-- The cluster that a channel's flow runs on. -/
def chanCluster (s : State) (n : Nat) : Nat := match flow? s n with | some fl => fl.cluster | none => 0

/-- MEMORY_UE: the outcome of R465 by place. -/
def memoryUe (place : UeWhere) (s : State) : State :=
  match place with
  | .vpeData v => vpeFaulted v .memUe s
  | .vpeProg v => vpeFaulted v .illegal s
  | .clusterEcho c => bump .cmemUe (chanCluster s c) (echoLost c s)
  | .cellWord q => let d := drawNat s; queueIntegrity q .taken d.1 d.2
  | .fscEntry f => flowFault f s
  | .dramEcho ch a c => echoLost c (dramUe ch a s)
  | .dramEntry ch a n => entryLost n (dramUe ch a s)
  | .dramIndex ch a => indexLost a (dramUe ch a s)
  | .dramBacklog ch a => backlogLost (dramUe ch a s)
  | .dramEvent ch a n => eventLost n (dramUe ch a s)
  | .dramResume ch a h => withBce (fun b => { b with resumes := b.resumes.filter (fun r => r.handle != h) }) (dramUe ch a s)
  | .endpaper area both => endpaperUe area both s

/-- MEMORY_UE (R465). -/
def execMemoryUe (place : UeWhere) (s : State) : Answer := .next (onlyIf (alive s) (memoryUe place s) s)

/-! ### Lifetime counters and wear (R482, R483) -/

/-- Write the lifetime counters to Endpaper, unless its reserve is exhausted. -/
def storeLife (s : State) : State :=
  let l := lifeNow s
  let s1 := { s with endp := { s.endp with life := l, lifeAt := s.endp.lifeAt + (now s - s.endp.lifeAt) / 1000000000 * 1000000000 } }
  if s.endp.degraded then s1
  else
    let s2 := endpWrite s1
    { s2 with endp := { s2.endp with lifeStored := s2.endp.life } }

/-- What a write finds of Endpaper's wear, which is open: a line at 10^14 writes, a reserve below 64 KiB, or an exhausted
reserve (R483). -/
def wearCheck (s : State) : State :=
  let hit := drawBool s
  if !hit.1 then hit.2
  else
    let low := drawBool hit.2
    let value := drawNat low.2
    let dead := drawBool value.2
    let s1 := dead.2
    crossed Ev.endpaperWear 0 (if low.1 then 2 else 1) (if low.1 then (value.1 : Int) else 100000000000000) none false
      { s1 with endp := { s1.endp with wear := true, degraded := s1.endp.degraded || (low.1 && dead.1) } }

/-- LIFETIME_WRITE (R482): every 60 s. -/
def execLifetimeWrite (t : Ns) (s : State) : Answer :=
  let s1 := advance t s
  .next (onlyIf (alive s1 && s1.endp.lifeAt + 60000000000 ≤ now s1) (wearCheck (storeLife s1)) s1)

end Sys2Proof.Machine
end

