-- ==== Sys2Proof/Machine/RegRead.lean ====
section
/-! DEFINITION. What a read of BAR0 returns: stored fields, live fields and the committed-configuration window (R390,
R518, R519, R524, R531). -/

namespace Sys2Proof.Machine

open Sys2Proof

/-- A word from fields: value and lowest bit. -/
def word32 (l : List (Nat × Nat)) : BitVec 32 := BitVec.ofNat 32 ((l.map (fun e => e.1 * 2 ^ e.2)).sum)

/-- Whether the pair that runs is an accepted untested one (R497). -/
def acceptRuns (s : State) : Bool :=
  match runCim s, runMim s with
  | some c, some m => s.avl.acceptUntested = some (c.version, m.version) && !testedPair c m
  | _, _ => false

/-- BOOT_STATUS (R517). -/
def bootStatus (s : State) : BitVec 32 :=
  word32 [(s.avl.stage, 0), (s.avl.cimSlot, 4), (s.avl.mimSlot, 5), (b2n s.avl.fallback, 6),
    (b2n s.avl.comboUntested, 7), (b2n (acceptRuns s), 8), (b2n s.avl.factoryRestored, 9), (b2n s.avl.recovBusy, 10),
    (s.avl.recovResult, 11)]

/-- The privileges whose back-off runs, as bits (R454). -/
def backoffBits (s : State) : Nat := ((List.range 3).map (fun i => 2 ^ i * b2n (FMap.has s.sec.backoff (i + 1)))).sum

/-- SEC_STATUS but for refused (R454). -/
def secStatus (s : State) : BitVec 32 :=
  word32 [(b2n s.sec.enrolled, 0), (b2n (setupLocked s), 1), (match s.sec.unlock with | some (r, _) => b2n (unlockHeld s) * r | none => 0, 2),
    (s.sec.revoked.toNat, 11), (backoffBits s, 13)]

/-- DMC_STATUS (R487). -/
def dmcStatus (s : State) : BitVec 32 :=
  word32 [(s.dmc.capacity, 0), (s.dmc.chOk.toNat, 6), (b2n s.dmc.trainedCache, 10), (b2n s.dmc.pprCapable, 11),
    ((s.dmc.remaps.map (fun e => e.2.length)).foldl max 0, 12), (b2n s.dmc.mapRefused, 17)]

/-- EPD_STATUS (R487): valid entries, whether a rebuild runs, stash references in units of 64. -/
def epdStatus (s : State) : BitVec 32 :=
  word32 [(s.epd.entries.length, 0), (b2n s.epd.rebuild.isSome, 24), (stashUse s.epd.refs / 64, 25)]

/-- AVL_STATUS but for refused (R517). -/
def avlStatus (s : State) : BitVec 32 :=
  word32 [(s.avl.spare.getD 31, 0), ((s.avl.retired.map (fun c => 2 ^ c)).sum, 5), (b2n s.avl.standbyReady, 22),
    (b2n (s.avl.rolling.isSome || s.avl.handover.isSome), 23),
    (b2n (s.avl.migrating.isSome || s.avl.selfTesting.isSome), 24)]

/-- Whether the recording backlog is at or above its high mark (R342). -/
def backlogHigh (s : State) : Bool :=
  s.bce.sizeMib * 2 ^ 20 * fld s .recBacklog 0 19 13 / 100 ≤ (s.bce.backlog.map (fun e => e.data.length)).sum

/-- Balls that teleprotection channels name (R529). -/
def ballsInUse (s : State) : BitVec 32 := (sourceBalls s).foldl (fun w b => putBit32 w b true) s.tpio.driven

/-- TPIO_STATE: a source ball's debounced state, a sink ball's command (R121, R529). -/
def tpioStateBits (s : State) : BitVec 32 :=
  let pol := regVal s .tpioPolarity 0
  (s.tpio.driven &&& ~~~ (s.tpio.level ^^^ pol)) |||
    ((sourceBalls s).foldl (fun w b => if s.tpio.active.getLsbD b then putBit32 w b true else w) 0)

/-- The live fields of a register instance. -/
def liveVal (s : State) (r : RegName) (i : Nat) : BitVec 32 :=
  match r with
  | .idDevice => 0x4A319640
  | .idIdentityLo => s.sec.identity.extractLsb' 0 32
  | .idIdentityHi => s.sec.identity.extractLsb' 32 32
  | .strapStatus => word32 [(s.avl.straps.toNat, 0), (b2n s.avl.factoryReq, 4)]
  | .bootStatus => bootStatus s
  | .secStatus => secStatus s
  | .mbxStatus => word32 [(b2n s.hif.mbxBusy, 0), (s.hif.mbxStatus, 16)]
  | .ringStatus => word32 [(b2n s.hif.busy, 0), (s.hif.result, 1)]
  | .hifLevels => BitVec.ofNat 32 (hifLevels s)
  | .tbuStatus => word32 [(s.clk.tbuState, 0), (s.clk.phaseRef, 2), (s.clk.freqRef, 6)]
  | .tbuTimeLo => BitVec.ofNat 32 (devTime s)
  | .tbuTimeHi => BitVec.ofNat 32 (devTime s / 2 ^ 32)
  | .avsStatus => word32 [(s.avs.voutMv, 0), (b2n s.avs.run, 10)]
  | .dmcStatus => dmcStatus s
  | .qmgStatus => word32 [(b2n s.qmg.sweep, 0), (b2n s.qmg.sweepQueued, 1), (b2n s.qmg.freeRebuild, 2)]
  | .epdStatus => epdStatus s
  | .recStatus => word32 [(b2n (backlogHigh s), 1)]
  | .avlStatus => avlStatus s
  | .twinStatus => word32 [(s.twin.link, 0), (s.twin.role, 2), (b2n s.twin.alive, 3), (s.twin.reason, 4)]
  | .endpStatus => word32 [(b2n (uncommitted s), 0), (b2n s.endp.wear, 2), (b2n s.endp.degraded, 3)]
  | .epochLo => BitVec.ofNat 32 s.endp.epoch
  | .epochHi => BitVec.ofNat 32 (s.endp.epoch / 2 ^ 32)
  | .firstDiff => word32 [(firstDiff s, 0), (b2n (otherDiff s), 24)]
  | .ethPortStatus =>
    let e := ethPort s i
    let lpiRx := e.linkUp && Config.freeBool (Config.unstated 385 (now s * 32 + i))
    word32 [(b2n e.linkUp, 0), (b2n e.lpiTx, 1), (b2n lpiRx, 2), (b2n e.pending.isSome, 3)]
  | .tdmPortStatus =>
    let p := tdmPort s i
    word32 [(b2n p.los, 0), (b2n p.ais, 1), (b2n p.lof, 2), (b2n p.lomf, 3), (b2n p.rai, 4), (b2n p.crc4Off, 5),
      (p.saRx, 6), (b2n (tdmInUse s i), 11)]
  | .rlStatus => word32 [((linkAt s i).state, 0), (b2n (linkAt s i).periodic, 2)]
  | .tpioState => tpioStateBits s
  | .tpioUse => ballsInUse s
  | _ => 0

/-- A register instance as a read finds it: stored fields and live ones. -/
def regRead (s : State) (r : RegName) (i : Nat) : BitVec 32 := regVal s r i ||| liveVal s r i

/-- Registers served in RECOVERY (R524). -/
def inRecovery : RegName → Bool
  | .idDevice => true | .idIdentityLo => true | .idIdentityHi => true | .strapStatus => true | .bootStatus => true
  | .recovAddrLo => true | .recovAddrHi => true | .recovCtrl => true
  | _ => false

/-- Whether BAR0 serves a register now (R524). -/
def regServed (s : State) (r : RegName) : Bool := barOpen s || (alive s && s.avl.stage = 9 && inRecovery r)

/-- A vector's pending bit (R418). -/
def msixPendingBits (s : State) (first : Nat) : BitVec 32 :=
  BitVec.ofNat 32 (((List.range 32).map (fun i =>
    2 ^ i * b2n (match FMap.get? s.hif.msix (first + i) with | some m => m.pending | none => false))).sum)

/-- The MSI-X table and pending bit array (R390, R418). -/
def msixRead (s : State) (off : Nat) : BitVec 32 :=
  if off < 0xF0400 then
    let w := (off - 0xF0000) / 4
    FMap.getD s.hif.msixTable w (if w % 4 = 3 then 1 else 0)
  else if off = 0xF8000 then msixPendingBits s 0
  else if off = 0xF8004 then msixPendingBits s 32
  else 0

/-- An aligned 32-bit read of BAR0; offsets that hold nothing, or are not served, read 0. -/
def barRead (s : State) (off : Nat) : BitVec 32 :=
  if 0xF0000 ≤ off then (if barOpen s then msixRead s off else 0)
  else if 0x80000 ≤ off then (if barOpen s then committedAt s (off - 0x80000) else 0)
  else
    match regAt off with
    | none => 0
    | some (r, i) =>
      if !regServed s r then 0
      else
        match pairLo r, FMap.get? s.hif.hiCapture off with
        | some _, some c => c
        | _, _ => regRead s r i

/-- A 32-bit read of the LO half of a pair captures HI; the next read of HI uses that capture up (R519). -/
def captureHi (s : State) (off : Nat) : State :=
  match regAt off with
  | none => s
  | some (r, i) =>
    match pairHi r with
    | none => if regServed s r then { s with hif := { s.hif with hiCapture := FMap.del s.hif.hiCapture off } } else s
    | some h =>
      if regServed s r then
        { s with hif := { s.hif with hiCapture := FMap.set s.hif.hiCapture (regOff h i) (regRead s h i) } }
      else s

/-- LO_READ_CAPTURE (R519): what the read returns, and what it captures. -/
def execLoReadCapture (offset : Nat) (s : State) : Answer :=
  let s1 := captureHi s offset
  .next { s1 with hif := { s1.hif with barAnswer := (barRead s offset).setWidth 64 } }

end Sys2Proof.Machine
end

