-- ==== Sys2Proof/Machine/RegWrite.lean ====
section
/-! DEFINITION. Writes of BAR0: the checks of a register as a whole, the setup lock, LO and HI pairs, and the effects of
each register (R37, R141, R310, R342, R359, R385, R424, R454, R487, R517 to R529). -/

namespace Sys2Proof.Machine

open Sys2Proof

/-! ### Write conditions -/

/-- Whether any flow exists (R37): the device's own, or a host flow. -/
def anyFlow (s : State) : Bool :=
  !s.chans.isEmpty || !s.tps.isEmpty || !s.rxcs.isEmpty || !s.txcs.isEmpty || !s.fsc.flows.isEmpty

/-- Ports with wake_en set other than one port (R383). -/
def wakePorts (s : State) (p : Nat) : Nat := ((List.range 32).filter (fun q => q != p && flag s .ethPortCfg q 24)).length

/-- The conditions of R385 on ETH_PORT_CFG. -/
def ethCfgOk (s : State) (p : Nat) (old new : Nat) : Bool :=
  let mode := bits new 2 0
  let lineKept : Bool := bits new 5 0 = bits old 5 0
  (mode = 0 || bits old 2 0 = 0 || lineKept) && (if p < 8 then mode ≤ 2 else mode = 0 || mode = 3 || mode = 4) &&
  (!bit new 24 || (8 ≤ p && wakePorts s p < 4))

/-- The conditions of R375 on PRP_PAIR_CFG. -/
def prpCfgOk (s : State) (n new : Nat) : Bool :=
  let a := bits new 4 0
  let b := bits new 12 8
  let free := fun p => !(List.range 16).any (fun m => m != n && prpEnabled s m && (prpPortA s m == p || prpPortB s m == p))
  !bit new 16 || (a ≠ b && ethMode s a = ethMode s b && ethMac s a = ethMac s b && free a && free b)

/-- Bits in a frame of a TDM port (R345). -/
def frameBits (mode rate : Nat) : Nat := match mode with | 2 => 256 | 3 => 193 | _ => 256 * 2 ^ rate

/-- The conditions of R359 on TDM_PORT_CFG. -/
def tdmCfgOk (s : State) (t new : Nat) : Bool :=
  let mode := bits new 1 0
  !tdmInUse s t && (mode < 2 || (t < 64 && bits new 3 2 = 0)) && bits new 19 10 < frameBits mode (bits new 3 2)

/-- A port that TDM_REF may name (R357). -/
def refPortOk (s : State) (t : Nat) : Bool := framed s t || (tdmMode s t = 1 && !flag s .tdmPortCfg t 4)

/-- The conditions of R424 on the two statistics registers taken together. -/
def statsCfgOk (s : State) (cfg ctrl : Nat) : Bool :=
  bits cfg 25 16 = 0 || (16 ≤ bits cfg 13 0 && bits cfg 13 0 ≤ 8192 && levelOffered s (bits ctrl 7 0))

/-- Whether a map of lanes names no physical lane twice (R528). -/
def laneMapOk (m : Nat) : Bool :=
  (List.range 4).all (fun i => (List.range i).all (fun j => m / 4 ^ i % 4 != m / 4 ^ j % 4))

/-- The conditions of R528 on the registers of a link that is DISABLED. -/
def linkRegOk (r : RegName) (new : Nat) : Bool :=
  match r with
  | .rlSpi => bits new 11 7 = 0 || spiPs (bits new 11 7) (16 + bits new 6 2) ≤ 2000000
  | .rlAgc => bits new 19 16 + bits new 4 1 + 3 ≤ bits new 10 5
  | .rlLane => laneMapOk (bits new 7 0) && laneMapOk (bits new 15 8)
  | _ => true

/-- Whether rings all are REC rings. -/
def recRingsOk (s : State) (base n : Nat) : Bool :=
  (List.range n).all (fun i => match ring? s (base + i) with | some r => r.ctx.ty = .recording | none => false)

/-- A register's own write condition, over its old and new stored value (R521). -/
def regCondOk (s : State) (r : RegName) (i : Nat) (old new : BitVec 32) : Bool :=
  let o := old.toNat
  let v := new.toNat
  match r with
  | .tbuCfg => !anyFlow s
  | .tbuRefCfg => (List.range 6).all (fun k => bits v (4 * k + 3) (4 * k) ≤ 6)
  | .avsCfg => bits v 5 0 ≤ bits v 13 8
  | .fscPace => bits v 7 0 ≤ bits v 15 8
  | .fscVpe01 => bits v 9 0 ≤ fld s .fscCl01 0 13 0 && bits v 25 16 ≤ fld s .fscCl01 0 29 16
  | .fscVpe23 => bits v 9 0 ≤ fld s .fscCl23 0 13 0 && bits v 25 16 ≤ fld s .fscCl23 0 29 16
  | .fscCl01 => fld s .fscVpe01 0 9 0 ≤ bits v 13 0 && fld s .fscVpe01 0 25 16 ≤ bits v 29 16
  | .fscCl23 => fld s .fscVpe23 0 9 0 ≤ bits v 13 0 && fld s .fscVpe23 0 25 16 ≤ bits v 29 16
  | .ballast01 => bits v 15 0 + bits v 31 16 + ballast s 2 + ballast s 3 ≤ 131072
  | .ballast23 => ballast s 0 + ballast s 1 + bits v 15 0 + bits v 31 16 ≤ 131072
  | .recCtrl => bits v 24 16 + bits v 12 8 ≤ 512 && recRingsOk s (bits v 24 16) (bits v 12 8)
  | .avlCfg => bits v 10 0 = 0 || 10 ≤ bits v 10 0
  | .evtGlobal => !bit v 9 || (match ring? s (bits v 8 0) with | some q => q.ctx.ty = .evt | none => false)
  | .statsCfg => statsCfgOk s v (regVal s .statsCtrl 0).toNat
  | .statsCtrl => statsCfgOk s (regVal s .statsCfg 0).toNat v
  | .ethPortCfg => ethCfgOk s i o v
  | .prpPairCfg => prpCfgOk s i v
  | .tdmPortCfg => tdmCfgOk s i v
  | .tdmFramerCfg => !tdmInUse s i
  | .tdmRef => (!bit v 16 || refPortOk s (bits v 7 0)) && (!bit v 17 || refPortOk s (bits v 15 8))
  | .rlCfg => (linkAt s i).state = 0 && bits v 2 1 ≤ 2 && bits v 5 4 ≤ 2 && bits v 7 6 ≤ 2 && bits v 11 9 ≤ 4
  | .rlFs => (linkAt s i).state = 0
  | .rlLane => (linkAt s i).state = 0 && linkRegOk r v
  | .rlExtLat => (linkAt s i).state = 0
  | .rlSpi => (linkAt s i).state = 0 && linkRegOk r v
  | .rlAgc => (linkAt s (i / 2)).state = 0 && linkRegOk r v
  | .rlGainLat => (linkAt s i).state = 0
  | _ => true

/-! ### Effects after a register has its new value -/

/-- A port goes to mode DISABLED (R362, R385): the frame in transmission ends, queued frames are dropped, and its link
is down without ETH_LINK_DOWN. -/
def stopPort (p : Nat) (s : State) : State :=
  let s1 := beginWake p (now s) (wireDone p (now s) s)
  updateRefs (noticeLive Ev.ethLinkDown p false none false
    (dropQueued p (withPort p (fun e => { e with linkUp := false, wakeAt := none }) s1)))

/-- A pair comes into use with a fresh counter and table, or goes out of use (R375). -/
def pairChanged (n : Nat) (old new : BitVec 32) (s : State) : State :=
  if !new.getLsbD 16 then { s with prp := FMap.del s.prp n }
  else if old.getLsbD 16 then s
  else { s with prp := FMap.set s.prp n { PrpPair.fresh with svAt := now s } }

/-- A TDM port whose mode changes begins anew; out of DISABLED it is no reference for 10 s (R357). -/
def tdmModeChanged (t old new : Nat) (s : State) : State :=
  if old = new then s
  else
    let s1 := noticeLive Ev.tdmAlarm t false none true { s with tdm := FMap.del s.tdm t }
    if old = 0 then withClk (fun c => { c with tdmHold := FMap.set c.tdmHold t (now s + 10000000000) }) s1 else s1

/-- The twin link goes DOWN when it is no longer in use (R510). -/
def twinChanged (s : State) : State :=
  if flag s .twinCfg 0 0 then s
  else noticeLive Ev.twinLink 0 false none false { s with twin := { s.twin with link := 0, reason := 0, role := 0, lostAt := none } }

/-- Every session that has already been idle for the present idle_s ends (R434). -/
def endIdle (s : State) : State :=
  ((s.sec.sessions.filter (fun e => decide (e.2.lastCmd + idleNs s ≤ now s))).map (·.1)).foldl (fun t r => endSession r 4 t) s

/-- What a register does once its fields have changed. -/
def regAfter (r : RegName) (i : Nat) (old new : BitVec 32) (s : State) : State :=
  match r with
  | .evtGlobal => flushGlobal s
  | .ethPortCfg => if bits new.toNat 2 0 = 0 && bits old.toNat 2 0 ≠ 0 then stopPort i s else s
  | .prpPairCfg => pairChanged i old new s
  | .tdmPortCfg => updateRefs (tdmModeChanged i (bits old.toNat 1 0) (bits new.toNat 1 0) s)
  | .tdmFramerCfg =>
    if bits old.toNat 2 1 = bits new.toNat 2 1 then s else withTdm i (fun p => { p with crc4Off := false }) s
  | .tdmRef => updateRefs s
  | .tbuRefCfg => updateRefs s
  | .twinCfg => twinChanged s
  | .secCfg => endIdle s
  | _ => s

/-! ### The write of one register (R521 to R523) -/

/-- Bits of a register that a write changes while setup is unlocked, and while it is locked. -/
def writeMask (r : RegName) (locked : Bool) : BitVec 32 := accMask r .rw ||| (if locked then 0 else accMask r .rwl)

/-- The stored value after a write: fields written, W1C bits cleared, everything else kept (R13). -/
def mergeWrite (r : RegName) (locked : Bool) (old v : BitVec 32) : BitVec 32 :=
  let m := writeMask r locked
  ((old &&& ~~~ m) ||| (v &&& m)) &&& ~~~ (v &&& accMask r .w1c)

/-- TPIO_POLARITY applies to the balls not in use; refused if a ball in use would change (R529). -/
def writePolarity (v : BitVec 32) (s : State) : State :=
  let old := regVal s .tpioPolarity 0
  let use := ballsInUse s
  let s1 := setReg s .tpioPolarity 0 ((v &&& ~~~ use) ||| (old &&& use))
  if (v ^^^ old) &&& use = 0 then s1 else refuse s1 .tpioPolarity 0

/-- Check a register as a whole, and change it or set refused (R521). -/
def checkedWrite (r : RegName) (i : Nat) (locked : Bool) (v : BitVec 32) (s : State) : State :=
  let old := regVal s r i
  let new := mergeWrite r locked old v
  if inRange r (new ||| (v &&& accMask r .wo)) && regCondOk s r i old new then
    regAfter r i old new (setReg s r i new)
  else refuse s r i

/-- Whether a write would change a field kept back by the setup lock (R522). -/
def lockedChange (r : RegName) (old v : BitVec 32) : Bool := (old ^^^ v) &&& accMask r .rwl != 0

/-- A write of a register with stored fields, under the setup lock (R522): the RWL fields keep their values and the
write is counted; a register with no other field is then left as it is. -/
def storedWrite (r : RegName) (i : Nat) (v : BitVec 32) (s : State) : State :=
  let locked : Bool := setupLocked s && accMask r .rwl != 0
  let s1 := onlyIf (locked && lockedChange r (regVal s r i) v) (bump .setupLockedWr 0 s) s
  if locked && (accMask r .rw ||| accMask r .w1c) = 0 then s1
  else if r = .tpioPolarity then writePolarity v s1
  else checkedWrite r i locked v s1

/-! ### Registers whose write starts something -/

/-- The result code of a recovery load (R517). -/
def recovCode (st : Nat) : Nat :=
  if st = St.imgFormat then 2 else if st = St.imgKey then 3 else if st = St.imgRevoked then 4
  else if st = St.imgSig then 5 else if st = St.imgDigest then 6 else 7

/-- The boot ROM checks the image; a passing one goes to CIM slot A and start-up runs again from step 2 (R492). -/
def recoveryLoad (image : Bytes) (s : State) : State :=
  match checkCim s image with
  | .error (st, _) => { s with avl := { s.avl with recovResult := recovCode st } }
  | .ok i => { s with avl := { s.avl with recovResult := 1, cimA := some i, stage := 0 } }

/-- RECOVERY_LOAD (R492): ignored outside RECOVERY. -/
def execRecoveryLoad (image : Bytes) (s : State) : Answer :=
  .next (onlyIf (alive s && s.avl.stage = 9) (recoveryLoad image s) s)

/-- A write of BOOT_RECOV_CTRL: the length, and a load where go is set in RECOVERY. The image of a load stands in
RECOVERY_LOAD; one that only the register write starts finds none (log entry 28). -/
def writeRecov (v : BitVec 32) (s : State) : State :=
  let s1 := storedWrite .recovCtrl 0 v s
  if v.getLsbD 31 && s.avl.stage = 9 && inRange .recovCtrl v then recoveryLoad [] s1 else s1

/-- A write of MBX_CMD (R530): refused while busy; an opcode other than its two ends at once. -/
def writeMbxCmd (v : BitVec 32) (s : State) : State :=
  let op := bits v.toNat 15 0
  if s.hif.mbxBusy then refuse s .mbxCmd 0
  else if op = 0x0404 then onlyIf (mbxTakeable s) (mbxEnd St.badDesc s) s
  else if op = 0x0410 then onlyIf (mbxTakeable s) (mbxEnd (mbxEnrolStatus s none) s) s
  else mbxEnd St.unknownOp s

/-- A write of HIF_RING_CMD (R394, R424): refused while busy and for an operation above 2. The context block of an
operation stands in its own row; one that only the register write starts finds none (log entry 28). -/
def writeRingCmd (v : BitVec 32) (s : State) : State :=
  let n := bits v.toNat 8 0
  if s.hif.busy then refuse s .ringCmd 0
  else
    match bits v.toNat 10 9 with
    | 0 => ringCreate n none s
    | 1 => ringReset n none s
    | 2 => ringDestroy n s
    | _ => refuse s .ringCmd 0

/-- A write of RL_CTRL (R522, R528). -/
def writeRlCtrl (n : Nat) (v : BitVec 32) (s : State) : State :=
  if setupLocked s then onlyIf (v.getLsbD 0 != linkEnabled s n) (bump .setupLockedWr 0 s) s
  else if v.getLsbD 0 then linkEnable n s else linkDisable n s

/-- Whether a pair's own condition holds (R424, R530): alignment, no ring for the page bases, no mailbox command. -/
def pairOk (s : State) (lo : RegName) (v : Nat) : Bool :=
  v % pairAlign lo = 0 &&
  (match lo with
   | .dbBaseLo => s.hif.rings.isEmpty
   | .idxBaseLo => s.hif.rings.isEmpty
   | .mbxAddrLo => !s.hif.mbxBusy
   | _ => true)

/-- Apply the whole value of a pair (R519). A pair without writable fields takes none. -/
def writePair (lo hi : RegName) (v : Nat) (s : State) : State :=
  let s1 := { s with hif := { s.hif with loHeld := FMap.del s.hif.loHeld (regOff lo 0) } }
  if accMask lo .rw = 0 then s1
  else if pairOk s1 lo v then
    setReg (setReg s1 lo 0 (BitVec.ofNat 32 v)) hi 0 (BitVec.ofNat 32 (v / 2 ^ 32))
  else refuse s1 lo 0

/-- A 32-bit write of a register that is served: pairs wait for their HI half (R519). -/
def writeReg (r : RegName) (i : Nat) (v : BitVec 32) (s : State) : State :=
  match pairHi r, pairLo r with
  | some _, _ => { s with hif := { s.hif with loHeld := FMap.set s.hif.loHeld (regOff r i) v } }
  | none, some lo =>
    let low := FMap.getD s.hif.loHeld (regOff lo 0) (regVal s lo 0)
    writePair lo r (low.toNat + 2 ^ 32 * v.toNat) s
  | none, none =>
    match r with
    | .recovCtrl => writeRecov v s
    | .mbxCmd => writeMbxCmd v s
    | .ringCmd => writeRingCmd v s
    | .hifKick => kick s
    | .rlCtrl => writeRlCtrl i v s
    | _ => if (accMask r .rw ||| accMask r .rwl ||| accMask r .w1c) = 0 then s else storedWrite r i v s

/-- A write of the MSI-X table; of a vector control word only the mask bit is held (R390, R418). -/
def msixWrite (off : Nat) (v : BitVec 32) (s : State) : State :=
  if 0xF0000 ≤ off && off < 0xF0400 then
    let w := (off - 0xF0000) / 4
    let x := if w % 4 = 3 then v &&& 1 else v
    { s with hif := { s.hif with msixTable :=
        if x = (if w % 4 = 3 then 1 else 0) then FMap.del s.hif.msixTable w else FMap.set s.hif.msixTable w x } }
  else s

/-- An aligned 32-bit write of BAR0; one to an offset that holds nothing, or is not served, is ignored (R518, R524). -/
def barWrite (off : Nat) (v : BitVec 32) (s : State) : State :=
  if 0xF0000 ≤ off then onlyIf (barOpen s) (msixWrite off v s) s
  else
    match regAt off with
    | none => s
    | some (r, i) => if regServed s r then writeReg r i v s else s

/-- A 64-bit write reaches both halves of a pair at once; elsewhere it is two 32-bit writes, the lower first (R519). -/
def barWriteWide (off : Nat) (v : BitVec 64) (s : State) : State :=
  let low := v.extractLsb' 0 32
  let high := v.extractLsb' 32 32
  match regAt off with
  | some (r, _) =>
    match pairHi r with
    | some h => if regServed s r then writePair r h v.toNat s else s
    | none => barWrite (off + 4) high (barWrite off low s)
  | none => barWrite (off + 4) high (barWrite off low s)

/-- Whether an access of a width is aligned and lies in BAR0 (R390). -/
def barAligned (off : Nat) (wide : Bool) : Bool := if wide then off % 8 = 0 && off + 8 ≤ 0x100000 else off % 4 = 0 && off + 4 ≤ 0x100000

/-- REGISTER_WRITE (R519 to R523). -/
def execRegisterWrite (offset : Nat) (wide : Bool) (value : BitVec 64) (s : State) : Answer :=
  .next (if !barAligned offset wide then bump .barBad 0 s
    else if wide then barWriteWide offset value s
    else barWrite offset (value.extractLsb' 0 32) s)

/-- ETH_PORT_DISABLE (R385): a write of ETH_PORT_CFG with mode 0. -/
def execEthPortDisable (port : Nat) (value : BitVec 32) (s : State) : Answer :=
  .next (onlyIf (port < 32 && bits value.toNat 2 0 = 0) (barWrite (regOff .ethPortCfg port) value s) s)

end Sys2Proof.Machine
end

