-- ==== Sys2Proof/Machine/Retained.lean ====
section
/-! DEFINITION. The committed configuration: COMMIT and REVERT (R479 to R481), and the values that start-up loads. -/

namespace Sys2Proof.Machine

open Sys2Proof

/-- A snapshot of every value of R479. -/
def snapshot (s : State) : Config479 :=
  { regs := snapRegs s.regs, gates := curGates s, wake := curWake s, gains := curGains s }

/-- A new epoch, one above the last, holds a configuration. -/
def putEpoch (c : Config479) (s : State) : State :=
  endpWrite { s with endp := { s.endp with epoch := s.endp.epoch + 1, committed := c } }

/-- COMMIT's own part (R480, R483): its result is the new epoch. -/
def commitOwn (s : State) : CmdRes :=
  if s.endp.degraded then .done St.endpaperFail [] s
  else .doneThen St.ok (toLE 8 (s.endp.epoch + 1)) (putEpoch (snapshot s) s) wearCheck

/-- COMMIT (R480). -/
def execCommit (h : CmdHdr) (s : State) : Answer := .next (runCmd (plainCmd 0x0521 3) h commitOwn s)

/-- One register goes back to its committed value, unless its write would now be ignored (R480). -/
def revertReg (s : State) (off : Nat) : State :=
  match regAt off with
  | none => s
  | some (r, i) =>
    let old := regVal s r i
    let new := (old &&& ~~~ accMask r .rwl) ||| committedAt s off
    if r = .rlCtrl then (if new.getLsbD 0 then linkEnable i s else linkDisable i s)
    else if inRange r new && regCondOk s r i old new then regAfter r i old new (setReg s r i new)
    else s

/-- A cycle start of a gate list on the local timeline, given an instant: the first at or after it (R372). -/
def firstCycle (g : GateList) (s : State) (t : Ns) : Ns :=
  let d := devOf s t
  let c := if d ≤ g.base then g.base else g.base + cdiv (d - g.base) (max 1 g.cycle) * g.cycle
  ((c : Int) - s.clk.offset).toNat

/-- A port takes a gate list and wake patterns at once. -/
def loadPort (p : Nat) (c : Config479) (s : State) : State :=
  let g := FMap.get? c.gates p
  let start := match g with | some l => firstCycle l s (now s) | none => 0
  withPort p (fun e => { e with gates := g, gateBase := start, wake := FMap.getD c.wake p [] }) s

/-- An antenna takes its committed gain table. -/
def loadGains (c : Config479) (s : State) (k : Nat) : State :=
  withAnt (k / 2) (k % 2) (fun a => { a with table := FMap.get? c.gains k }) s

/-- Ports whose lists or patterns differ from the committed ones. -/
def portsToRevert (s : State) : List Nat :=
  let c := s.endp.committed
  (List.range 32).filter (fun p =>
    (FMap.get? (curGates s) p != FMap.get? c.gates p || FMap.get? (curWake s) p != FMap.get? c.wake p) && ethMode s p != 0)

/-- Antennas whose gain table differs from the committed one, of links that are DISABLED (R168). -/
def gainsToRevert (s : State) : List Nat :=
  (List.range 16).filter (fun k =>
    FMap.get? (curGains s) k != FMap.get? s.endp.committed.gains k && (linkAt s (k / 2)).state = 0)

/-- Every value of R479 goes back to the current epoch: registers in rising order of address, then the lists, patterns and
tables. -/
def revertAll (s : State) : State :=
  let s1 := (diffOffsets s).foldl revertReg s
  let s2 := (portsToRevert s1).foldl (fun t p => loadPort p t.endp.committed t) s1
  (gainsToRevert s2).foldl (fun t k => loadGains t.endp.committed t k) s2

/-- REVERT (R480): its result is the current epoch. -/
def execRevert (h : CmdHdr) (s : State) : Answer :=
  .next (runCmd (plainCmd 0x0522 3) h (fun s1 => .done St.ok (toLE 8 s1.endp.epoch) (revertAll s1)) s)

end Sys2Proof.Machine
end

