-- ==== Sys2Proof/Machine/Voice.lean ====
section
/-! DEFINITION. The commands of voice channels (R49 to R51, R65, R78). -/

namespace Sys2Proof.Machine

open Sys2Proof

/-! ### Checks (R3, R4, R49, R210, R504) -/

/-- Whether another channel names the same context or talk group. -/
def refTaken (s : State) (p : ChanParams) : Bool :=
  s.chans.any (fun e => e.1 != p.channel && e.2.p.pktMode == p.pktMode && e.2.p.pktRef == p.pktRef)

/-- R210 on a push-to-talk channel: its group is set up, and one frame of ptime G.729 frames takes less than the packet
period on the air. -/
def pttFits (s : State) (p : ChanParams) : Bool :=
  p.pktMode ≠ 1 ||
    (match FMap.get? s.groups p.pktRef with
     | some g => airNs 7 2 8 0 (10 * p.ptime + (if g.sec then 16 else 0)) < p.ptime * 10000000
     | none => false)

/-- R81 on an RTP channel: its context has been set up before (log entry 80). -/
def contextThere (s : State) (p : ChanParams) : Bool := p.pktMode ≠ 0 || (rtp? s p.pktRef).isSome

/-- The checks of R49 that set-up and modification share. -/
def chanParamsOk (s : State) (b : Bytes) : Bool :=
  let p := chanParams b
  chanBlockOk b && groupFits s p.port p.slot p.lineMode && groupFree s p.channel p.port p.slot p.lineMode && !refTaken s p &&
  contextThere s p && pttFits s p

/-- An admission limit with the clusters that are active (R504). -/
def limitOf (s : State) (full : Nat) : Nat :=
  if s.avl.retired.length ≤ 1 then full else full * (17 - s.avl.retired.length) / 16

/-- Capacity given up whose completion has not been written (R5). -/
def stillFreed (s : State) : List Freed := s.freed.filter (fun f => (waitingCpl s f.cpl).contains f.entry)

/-- The capacity check of R4 on a channel's new parameters. -/
def capacityOk (s : State) (p : ChanParams) : Bool :=
  let others := s.chans.filter (fun e => e.1 != p.channel)
  let held := stillFreed s
  let count := fun (f : ChanParams → Bool) => (others.filter (fun e => f e.2.ahead)).length + b2n (f p)
  (others.map (fun e => e.2.units)).sum + (held.map (·.units)).sum + unitsOf p ≤ limitOf s 32768 &&
  count ChanParams.longTail + (held.map (·.long)).sum ≤ limitOf s 8192 &&
  count ChanParams.opus + (held.map (·.opus)).sum ≤ limitOf s 4096

/-! ### CHAN_SETUP -/

/-- A channel as CHAN_SETUP leaves it. -/
def Chan.fresh (p : ChanParams) (ring due0 : Nat) : Chan :=
  { p, next := none, releasing := none, ring, frame := 0, due0, units := unitsOf p, vbd := false, vbdPending := false
    ecOff := false, ecFrozen := false, ecResume := 0, nlpOn := false, echo := Echo.start p.tail
    bg := { powers := [], env := [], gen := [(p.channel : Int)] }, ansSeen := false, suspended := false, quiet := 0
    alcSend := 0, alcRecv := 0, powSend := [], powRecv := [], enc := ⟨[], []⟩, dec := ⟨[], [], none, [(p.channel : Int)]⟩
    fdcSend := Fdc.start FdcFilter.none, fdcRecv := Fdc.start FdcFilter.none, detSend := Fdc.start FdcFilter.none
    detRecv := Fdc.start FdcFilter.none, kst := [], v21Send := ⟨0, 0, 0⟩, v21Recv := ⟨0, 0, 0⟩, line := [], lineOwed := 0
    tones := [], relay := [], regen := none, heard := [], silence := false, noiseSent := 0, acc := [], mark := false, dtx := 0
    begun := [], events := [], segNo := 0, segTick := 0, segStart := 0, segData := [], segFirst := true, segRatio := 1, gap := 0
    segClose := [] }

/-- CHAN_SETUP's own checks (R49, R4). -/
def chanSetupStatus (s : State) (b : Bytes) : Nat :=
  let p := chanParams b
  if !chanParamsOk s b || FMap.has s.chans p.channel then St.badParam
  else if !capacityOk s p then St.noCapacity else St.ok

/-- Establish a channel with its flow, whose number is the channel's (log entry 27). -/
def setupChan (ring : Nat) (b : Bytes) (s : State) : State :=
  let p := chanParams b
  let (home, s1) := chooseHome s 31
  let due0 := cdiv (s.clk.tick + 1) (frameTicks s) * frameTicks s
  addFlow p.channel (voiceFlow s p ring home) { dropCounters [.recSeg, .recDrop] p.channel s1 with chans := FMap.set s1.chans p.channel (Chan.fresh p ring due0) }

/-- CHAN_SETUP (R49). -/
def execChanSetup (h : CmdHdr) (s : State) : Answer :=
  .next (runCmd (blockCmd 0x0101 2 64 true) h
    (fun s1 => checked (chanSetupStatus s1 (blk h)) (setupChan h.ring (blk h) s1) s1) s)

/-! ### CHAN_MODIFY -/

/-- CHAN_MODIFY's own checks (R49, R50, R4). -/
def chanModifyStatus (s : State) (b : Bytes) : Nat :=
  let p := chanParams b
  match FMap.get? s.chans p.channel with
  | none => St.badParam
  | some c =>
    if !chanParamsOk s b || c.releasing.isSome || p.lineMode ≠ c.p.lineMode || p.port ≠ c.p.port || p.slot ≠ c.p.slot ||
        p.pktMode ≠ c.p.pktMode || p.pktRef ≠ c.p.pktRef then St.badParam
    else if !capacityOk s p then St.noCapacity else St.ok

/-- The CPL ring of a CMD ring. -/
def cplOf (s : State) (n : Nat) : Nat := match ring? s n with | some r => r.ctx.cplRing | none => 512

/-- The new parameters wait for the next frame whose DECODE has not been dispatched. Its units count from its completion on
(R5). -/
def modifyChan (b : Bytes) (s : State) : State :=
  let p := chanParams b
  withChan p.channel (fun c => { c with next := some p, units := unitsOf p }) s

/-- CHAN_MODIFY (R50). -/
def execChanModify (h : CmdHdr) (s : State) : Answer :=
  .next (holdFreed (cplOf s h.ring) s
    (runCmd (blockCmd 0x0102 2 64 true) h (fun s1 => checked (chanModifyStatus s1 (blk h)) (modifyChan (blk h) s1) s1) s))

/-! ### CHAN_RELEASE -/

/-- CHAN_RELEASE's own part: the channel stops at its next frame boundary, and the command completes when it has. -/
def chanReleaseOwn (h : CmdHdr) (n : Nat) (s : State) : CmdRes :=
  match FMap.get? s.chans n with
  | none => .done St.badParam [] s
  | some c =>
    if c.releasing.isSome then .done St.badParam [] s
    else .wait (withChan n (fun d => { d with releasing := some (h.ring, heldOf 0x0103 h s) }) s)

/-- CHAN_RELEASE (R51). -/
def execChanRelease (h : CmdHdr) (channel : Nat) (s : State) : Answer :=
  .next (runCmd (plainCmd 0x0103 2) h (chanReleaseOwn h channel) s)

/-! ### Timers -/

/-- Regeneration stops; the event stays known, so that a repeated packet of it begins no new one (R91). -/
def Chan.hush (c : Chan) : Chan := { c with regen := none, heard := (c.regen.toList ++ c.heard).take 16 }

/-- DTMF_REGEN_TIMEOUT (R78): three packet periods after the last update without an end packet. -/
def execDtmfRegenTimeout (channel : Nat) (t : Ns) (s : State) : Answer :=
  let s1 := advance t s
  let due := match (FMap.get? s1.chans channel).bind (·.regen) with | some r => !r.ended && decide (r.until_ ≤ t) | none => false
  .next (onlyIf (alive s1 && due) (withChan channel Chan.hush s1) s1)

/-- The tone disabler lets go (R65): canceller, NLP, VAD and ALC resume. -/
def releaseDisabler (n : Nat) (s : State) : State :=
  let off := match FMap.get? s.chans n with | some c => c.ecOff | none => false
  let s1 := withChan n (fun c => { c with ansSeen := false, suspended := false, ecOff := false }) s
  if off then chanEvent Ev.ecEnabled n s1 else s1

/-- TONE_DISABLER_RELEASE (R65): both directions have been below −36 dBm0 for 250 ms after an answer tone. -/
def execToneDisablerRelease (channel : Nat) (t : Ns) (s : State) : Answer :=
  let s1 := advance t s
  let due := match FMap.get? s1.chans channel with
    | some c => decide (50 ≤ c.quiet) && (c.ansSeen || c.ecOff || c.suspended)
    | none => false
  .next (onlyIf (alive s1 && due) (releaseDisabler channel s1) s1)

end Sys2Proof.Machine
end

