-- ==== Sys2Proof/Machine/Boot.lean ====
section
/-! DEFINITION. Resets, the power states and start-up (R383, R455 to R460, R484 to R486, R490 to R498, R504, R538 to R543). -/

namespace Sys2Proof.Machine

open Sys2Proof

/-! ### What a reset leaves (R485) -/

/-- What outlives every reset of the availability unit: straps, images, the boot record and the locks. -/
def Avail.cold (a : Avail) : Avail :=
  { Avail.reset with
    porHeld := a.porHeld, power := a.power, straps := a.straps, factoryReq := a.factoryReq, thermTrip := a.thermTrip
    tempDeciC := a.tempDeciC, cimA := a.cimA, cimB := a.cimB, mimA := a.mimA, mimB := a.mimB, userStored := a.userStored
    cimSlot := a.bootCim, mimSlot := a.bootMim, bootCim := a.bootCim, bootMim := a.bootMim, knownGood := a.knownGood
    fallbackFlag := a.fallbackFlag, acceptUntested := a.acceptUntested, behaviourLock := a.behaviourLock
    retired := a.retired, spare := none, wakeInfo := a.wakeInfo, afterPor := false }

/-- The timebase without references: device time and the tick go on. -/
def Clock.coast (c : Clock) : Clock :=
  { c with slewLeft := 0, tbuState := if c.everLocked then 2 else 0, phaseRef := 0, freqRef := 0, avail := [], tdmHold := []
           refSince := [], refGone := none, ptpMaster := none, ptpSent := [] }

/-- Everything that is lost is lost: what stays is Endpaper, the fuses, the flash and device time (R485). -/
def coldState (s : State) : State :=
  { State.reset with
    pending := s.pending, free := s.free, clk := s.clk.coast
    sec := { s.sec with sessions := [], nonces := [], unlock := none, backoff := [] }
    avl := s.avl.cold, hif := { Hif.reset with subsys := s.hif.subsys }
    dmc := { Dmc.reset with remaps := s.dmc.remaps, cached := s.dmc.cached }
    endp := s.endp }

/-- The state after a POR or a PIN reset: device time from 0, the lifetime counters as last written and one more counted
(R482), HIF_SUBSYS taken anew (R424). -/
def powerLoss (f : Lifetime → Lifetime) (s : State) : State :=
  let c := coldState s
  { c with clk := Clock.reset, hif := { c.hif with subsys := committedAt s (regOff .hifSubsys 0) }
           endp := { c.endp with life := f c.endp.lifeStored, lifeAt := 0 }, avl := { c.avl with wakeInfo := none, power := 0 } }

/-- POWER_ON_RESET asserted (R538): also the end of STANDBY and of a thermal trip (R543). -/
def porAssert (s : State) : State :=
  let c := powerLoss (fun l => { l with por := l.por + 1 }) s
  { c with avl := { c.avl with porHeld := true, thermTrip := false, afterPor := true } }

/-- POWER_ON_RESET released: straps and FACTORY_N are sampled (R525, R541). -/
def porRelease (factoryLow : Bool) (straps : BitVec 4) (s : State) : State :=
  { s with avl := { s.avl with porHeld := false, straps := straps, factoryReq := factoryLow } }

/-- POWER_ON_RESET (R538). -/
def execPowerOnReset (asserted : Bool) (factoryLow : Bool) (straps : BitVec 4) (s : State) : Answer :=
  .next (if asserted then onlyIf (!s.avl.porHeld) (porAssert s) s
    else onlyIf s.avl.porHeld (porRelease factoryLow straps s) s)

/-- A PIN reset: FACTORY_N has no effect (R439). -/
def pinReset (straps : BitVec 4) (s : State) : State :=
  let c := powerLoss (fun l => { l with pin := l.pin + 1 }) s
  { c with avl := { c.avl with straps := straps, factoryReq := false } }

/-- PIN_RESET (R539): from 10 µs on; whether a shorter pulse counts is open. -/
def execPinReset (lowNs : Ns) (straps : BitVec 4) (s : State) : Answer :=
  .next (if s.avl.porHeld then s
    else if 10000 ≤ lowNs then pinReset straps s
    else
      let d := drawBool s
      onlyIf d.1 (pinReset straps d.2) d.2)

/-- A SOFT reset: the directory is marked clean and kept, the lifetime counters are written (R475, R482, R498). -/
def softReset (s : State) : State :=
  let s1 := storeLife (withLife (fun l => { l with soft := l.soft + 1 }) s)
  let c := coldState s1
  { c with avl := { c.avl with dirClean := true }
           epd := { s1.epd with rebuild := none, load := [], export_ := [] } }

/-- RESET with kind 1 (R498). -/
def execResetSoft (h : CmdHdr) (s : State) : Answer :=
  .next (runCmd (plainCmd 0x0606 3) h (fun s1 => .doneThen St.ok [] s1 softReset) s)

/-! ### DOMAIN resets (R486, R498) -/

/-- Objects of the domains of RESET. -/
def domainRange (domain : Nat) : Nat :=
  match domain with
  | 0 => 17 | 1 => 32 | 2 => 192 | 3 => 8 | _ => 0

/-- A cluster's own reset: its dispatched ops are void with ran 1, its ready ops go to the global list (R274). -/
def resetCluster (c : Nat) (s : State) : State :=
  let mine := fun (v : Nat) => v / 16 == c
  let l := allOps s
  let s1 := l.foldl (fun (t : State) e =>
    let o := e.2.2.2
    if o.st = .dispatched && mine o.vpe then voidOp e.1 e.2.2.1.num o.node t
    else
      let here : Bool := match o.loc with | .vpe n => mine n | .cluster k => k == c | _ => false
      if o.st = .ready && here then withOp e.1 e.2.2.1.num o.node (fun p => { p with loc := .global }) t else t) s
  round { s1 with vpes := FMap.keep s1.vpes (fun n _ => !mine n) }

/-- An Ethernet port's own reset: it keeps its setup and loses its frames in flight (R486). -/
def resetEth (p : Nat) (s : State) : State :=
  let s1 := wireDone p (now s) s
  let s2 := match (ethPort s1 p).onWire with
    | some w => dropDown p w.frame (withPort p (fun e => { e with onWire := none }) s1)
    | none => s1
  dropQueued p s2

/-- A TDM port's own reset: it loses the octets in its FIFOs. -/
def resetTdm (t : Nat) (s : State) : State :=
  withTdm t (fun p => { p with
    txFifo := [], rxSlots := [], rxFifo := [], txPay := [], txOut := [], txBit := none, candAbcd := [], txAbcdNext := [] }) s

/-- The notices about an object of a domain of RESET, which its own DOMAIN reset loses (R485). -/
def noticeOfDomain (domain object : Nat) (n : Notice) : Bool :=
  match domain with
  | 0 => (n.code == Ev.paceWarning && n.object == object) || (n.code == Ev.vpeFault && n.object / 16 == object)
  | 1 => n.code == Ev.ethLinkDown && n.object == object
  | 2 => (n.code == Ev.tdmSlip || n.code == Ev.tdmAlarm) && n.object == object
  | 3 => (n.code == Ev.rlLinkDown || n.code == Ev.linkSkew || n.code == Ev.sysrefSlip) && n.object == object
  | _ => false

/-- A DOMAIN reset. -/
def resetDomain (domain object : Nat) (s0 : State) : State :=
  let s := withNotices (fun l => l.filter (fun n => !noticeOfDomain domain object n)) s0
  match domain with
  | 0 => resetCluster object s
  | 1 => resetEth object s
  | 2 => resetTdm object s
  | 3 => realign object s
  | _ => s

/-- RESET with kind 2 (R498). -/
def execResetDomain (h : CmdHdr) (domain : Nat) (object : Nat) (s : State) : Answer :=
  .next (runCmd (plainCmd 0x0606 3) h (fun s1 =>
    if object < domainRange domain then .doneThen St.ok [] s1 (resetDomain domain object) else .done St.badParam [] s1) s)

/-! ### IMAGE restart (R509) -/

/-- A command that has been completed with RESTARTED answers nothing more: its effect goes on. -/
def Held.mute (h : Held) : Held := { h with cpl := 512 }

/-- The waiting commands of every block are muted. -/
def muteHeld (s : State) : State :=
  let m := fun (r : Option (Nat × Held)) => r.map (fun e => (e.1, e.2.mute))
  let ev := fun (e : Presented) => match e with
    | .cancel r h f i k => Presented.cancel r h.mute f i k
    | e => e
  { s with
    chans := FMap.mapV s.chans (fun _ c => { c with releasing := m c.releasing })
    fsc := { s.fsc with flows := FMap.mapV s.fsc.flows (fun _ f => { f with releasing := m f.releasing })
                        presented := s.fsc.presented.map ev }
    qmg := { s.qmg with queues := FMap.mapV s.qmg.queues (fun _ q => { q with releasing := m q.releasing }) }
    bce := { s.bce with flushes := s.bce.flushes.map (fun f => { f with held := f.held.mute }) } }

/-- An IMAGE restart (R509): commands taken and not completed complete with RESTARTED, applied whole; a fault starts the
known-good time again (R496). -/
def imageRestart (cause : Nat) (s : State) : State :=
  let s1 := s.hif.rings.foldl (fun (t : State) e =>
    match e.2.held with
    | some h => completeHeld e.1 h St.restarted [1] t
    | none => t) s
  let s2 := muteHeld s1
  let s3 : State := { s2 with avl := { s2.avl with
    standbyReady := false, runSince := if cause = 2 then now s2 else s2.avl.runSince } }
  raise Ev.imageRestart none (padTo 48 (Config.eventBody Ev.imageRestart [(cause : Int)])) s3

/-- RESET with kind 3 (R498, R509). -/
def execResetImage (h : CmdHdr) (s : State) : Answer :=
  .next (runCmd (plainCmd 0x0606 3) h (fun s1 => .doneThen St.ok [] s1 (imageRestart 1)) s)

/-- Whether the Control Image runs: start-up has ended in a state that takes commands. -/
def serving (s : State) : Bool :=
  alive s && s.avl.power = 0 && (s.avl.stage = 7 || s.avl.stage = 8 || s.avl.stage = 10)

/-- WATCHDOG_RESTART (R509). -/
def execWatchdogRestart (s : State) : Answer := .next (onlyIf (serving s) (imageRestart 2 s) s)

/-! ### STANDBY and SHUTDOWN (R484) -/

/-- STANDBY: the lifetime counters are written and everything but Endpaper, the timebase, the wake detectors and the links of their
ports is off. -/
def enterStandby (s : State) : State :=
  let c := coldState (storeLife s)
  { c with avl := { c.avl with power := 1 }
           eth := FMap.mapV ((s.eth).filter (fun e => wakePort c e.1)) (fun _ e => { EthPort.fresh with linkUp := e.linkUp }) }

/-- STANDBY_ENTER. -/
def execStandbyEnter (h : CmdHdr) (s : State) : Answer :=
  .next (runCmd (plainCmd 0x0531 3) h (fun s1 => .doneThen St.ok [] s1 enterStandby) s)

/-- Media stop: channels close, and everything that carries media goes. -/
def endMedia (s : State) : State :=
  let s1 := (FMap.keys s.chans).foldl (fun t n => closeChannel n t) s
  let s2 := s.fsc.flows.foldl (fun (t : State) e =>
    match e.2.releasing with
    | some (r, h) => if FMap.has s.chans e.1 then t else completeHeld r h St.ok [] t
    | none => t) s1
  driveBalls { s2 with chans := [], rtps := [], tps := [], rxcs := [], txcs := [], radio := [], groups := [], fsc := Fsc.reset, vpes := [] }

/-- SHUTDOWN's own part: after it the device takes no command until a reset. -/
def shutdownOwn (s : State) : CmdRes :=
  let s1 := storeLife (endMedia s)
  .doneThen St.ok [] s1 (fun t => { t with avl := { t.avl with power := 2 } })

/-- SHUTDOWN. -/
def execShutdown (h : CmdHdr) (s : State) : Answer := .next (runCmd (plainCmd 0x0532 3) h shutdownOwn s)

/-- Whether a pattern matches a frame: every masked octet is there and equal (R383). -/
def wakeHit (w : WakePattern) (d : Bytes) : Bool :=
  (List.range w.len).all (fun j =>
    !bit (byteAt w.mask (j / 8)) (j % 8) || (decide (j < d.length) && byteAt d j == byteAt w.value j))

/-- The pattern of a port that a frame matches in STANDBY, with the committed settings. -/
def wakeFor (s : State) (p : Nat) (fr : EthFrame) : Option Nat :=
  let v := { s with regs := s.endp.committed.regs }
  if (ethPort s p).linkUp && wakePort s p && (rxHeadFault v p fr).isNone then
    ((FMap.getD s.endp.committed.wake p []).find? (fun e => wakeHit e.2 fr.data)).map (·.1)
  else none

/-- The device leaves STANDBY: start-up begins, and the match is kept for WAKE. -/
def wakeUp (p i : Nat) (fr : EthFrame) (s : State) : State :=
  let info := BitVec.ofNat 8 p :: BitVec.ofNat 8 i :: fr.data.take 64
  { s with eth := [], avl := { s.avl with power := 0, stage := 0, wakeInfo := some info }, endp := { s.endp with lifeAt := now s } }

/-- WAKE_MATCH (R383): of two matches only the first is taken. -/
def execWakeMatch (port : Nat) (frame : EthFrame) (s : State) : Answer :=
  .next (if s.avl.power = 1 && !s.avl.porHeld then
    match wakeFor s port frame with
    | some i => wakeUp port i frame (advance frame.time s)
    | none => s
    else s)

/-! ### Junction temperature (R543, R544) -/

/-- A sample of the junction sensor: the reading, its extremes, and the trip at 130 °C, kept until the next POR. -/
def thermalSample (t : Int) (s : State) : State :=
  let first := !s.figs.any (fun e => e.1 = ⟨.tempLow, 0, 0⟩)
  let low := if first then t else min t (fig s .tempLow 0)
  let high := if first then t else max t (fig s .tempHigh 0)
  let s1 := putFig .tempLow 0 0 low (putFig .tempHigh 0 0 high s)
  { s1 with avl := { s1.avl with tempDeciC := t, thermTrip := s.avl.thermTrip || 1300 ≤ t } }

/-- THERMAL_SAMPLE (R543). -/
def execThermalSample (tempDeciC : Int) (s : State) : Answer := .next (onlyIf (alive s) (thermalSample tempDeciC s) s)

/-! ### Slot selection (R496) -/

/-- The image of a slot of each kind: 0 A, 1 B. -/
def slotCim (s : State) (n : Nat) : Option Image := if n = 0 then s.avl.cimA else s.avl.cimB
def slotMim (s : State) (n : Nat) : Option Image := if n = 0 then s.avl.mimA else s.avl.mimB

/-- The status of the Control Image of a slot by itself; an empty slot has no image that passes. -/
def cimStatus (s : State) (n : Nat) : Nat :=
  match slotCim s n with
  | none => St.imgFormat
  | some i => match checkCim s i.raw with | .ok _ => St.ok | .error e => e.1

/-- The status of the Media Image of a slot together with a Control Image. -/
def mimStatus (s : State) (c n : Nat) : Nat :=
  match slotCim s c, slotMim s n with
  | some ci, some i =>
    match checkMim s i.raw with
    | .ok _ => if rule3 s ci i then St.ok else St.comboUntested
    | .error e => e.1
  | _, _ => St.imgFormat

/-- Step 3: the slot of the Control Image, the named one first. -/
def pickCim (s : State) (c : Nat) : Option Nat :=
  if cimStatus s c = St.ok then some c else if cimStatus s (1 - c) = St.ok then some (1 - c) else none

/-- Step 6 with the Control Image of slot c and the Media Image of slot m named: the slot that runs, if any, or
`some none` where start-up is to run again with the known-good pair. -/
def pickMim (s : State) (c m : Nat) (again : Bool) : Option (Option Nat) :=
  if mimStatus s c m = St.ok then some (some m)
  else
    match s.avl.knownGood with
    | none => none
    | some (kc, km) =>
      if (kc = c && km = m) || again then none
      else if kc = c then (if mimStatus s c km = St.ok then some (some km) else none)
      else some none

/-! ### The steps of start-up (R490) -/

/-- An event of start-up with a body whose layout the spec does not give (log entry 18). -/
def bootEvent (code : Nat) (l : List Int) (s : State) : State := raiseStart code (padTo 48 (Config.eventBody code l)) s

/-- What slot selection reports: SLOT_FALLBACK where the slots that run are not those that the boot record names, with
the status of the failure, and COMBO_UNTESTED for every pair tried that rule 3 refused. -/
def slotEvents (c m bad : Nat) (tried : List (Nat × Nat)) (s : State) : State :=
  let s1 : State := if c = s.avl.bootCim && m = s.avl.bootMim then s
    else bootEvent Ev.slotFallback [(c : Int), (m : Int), (bad : Int)] { s with avl := { s.avl with fallback := true } }
  tried.foldl (fun (t : State) p =>
    match slotCim t p.1, slotMim t p.2 with
    | some ci, some mi =>
      if mimStatus t p.1 p.2 = St.comboUntested then
        bootEvent Ev.comboUntested [(ci.version.toNat : Int), (mi.version.toNat : Int)]
          { t with avl := { t.avl with comboUntested := true } }
      else t
    | _, _ => t) s1

/-- Factory restore (R439): keys, counts, committed configuration and locks are erased. -/
def factoryRestore (s : State) : State :=
  let s1 := endpWrite (withLife (fun l => { l with factory := l.factory + 1 }) s)
  { s1 with
    sec := { s1.sec with enrolled := false, viewKey := [], operKey := [], ownerKey := [], signHash := [], fails := [] }
    endp := { s1.endp with committed := { regs := [], gates := [], wake := [], gains := [] } }
    hif := { s1.hif with subsys := regDflt .hifSubsys }
    avl := { s1.avl with behaviourLock := false, acceptUntested := none, factoryRestored := true } }

/-- Step 4: the factory restore where it is due, and every retained value from the current epoch (R479). -/
def loadConfig (factoryLow : Bool) (s : State) : State :=
  let s1 := if s.avl.afterPor && s.avl.factoryReq && factoryLow then factoryRestore s else s
  let c := s1.endp.committed
  let s2 : State := { s1 with regs := c.regs, hif := { s1.hif with cfgOpen := true }, avl := { s1.avl with afterPor := false } }
  let s3 := (FMap.keys c.gates ++ FMap.keys c.wake).eraseDups.foldl (fun t p => loadPort p c t) s2
  (FMap.keys c.gains).foldl (fun t k => loadGains c t k) s3

/-- Step 5: the DRAM; false where it fails (R455, R457, R464). -/
def bringUpDram (env : BootEnv) (s : State) : Bool × State :=
  let total := env.density.sum
  let same : Bool := env.density.length = 4 && env.density.all (fun d => d == env.density.headD 0)
  let cached : Bool := env.identOk && env.writeReadOk
  if !(same && [8, 12, 16, 24, 32].contains total) then (false, withDmc (fun d => { d with capacity := total, chOk := 0 }) s)
  else if !cached && !env.trainOk then
    let d := drawNat s
    (false, withDmc (fun e => { e with capacity := total, chOk := BitVec.ofNat 4 (d.1 % 15) }) d.2)
  else
    let s1 := if cached then s else endpWrite (withDmc (fun d => { d with cached := [] }) s)
    let s2 := withDmc (fun d =>
      { d with capacity := total, chOk := 15, trainedCache := cached, pprCapable := env.pprCapable, dqs := d.cached }) s1
    let rows := ((FMap.vals s2.dmc.remaps).map List.length).sum
    if flag s2 .dmcCfg 0 8 && env.pprCapable && rows ≠ 0 then
      (true, endpWrite (withLife (fun l => { l with ppr := l.ppr + rows }) (withDmc (fun d => { d with remaps := [] }) s2)))
    else (true, s2)

/-- The body of USER_KERNELS_REFUSED (R558). -/
def refusedBody (st detail version cause : Nat) : Bytes := padTo 48 (toLE 2 st ++ toLE 2 detail ++ toLE 4 version ++ toLE 1 cause)

/-- The version in the colophon of an image that can be read that far, else 0. -/
def versionIn (b : Bytes) : Nat := if imageFormatOk 3 b then leAt b (leAt b 0x0C 4 + 8) 4 else 0

/-- The stored user kernels are loaded again beside a Media Image, or USER_KERNELS_REFUSED says why not (R448). -/
def reloadUser (m : Image) (cause : Nat) (s : State) : State :=
  match s.avl.userStored with
  | none => putUser none s
  | some u =>
    match checkUser s (some m) u.raw with
    | .ok i => putUser (some i) s
    | .error (st, d) => raiseStart Ev.userKernelsRefused (refusedBody st d (versionIn u.raw) cause) (putUser none s)

/-- Step 6: the Media Image and the user kernels. -/
def loadMedia (m : Nat) (s : State) : State :=
  match slotMim s m with
  | none => s
  | some i => reloadUser i 1 { s with code := [(m, codeOf i none)] }

/-- Sizes of R459 in units of 64 KiB: the start of the extension, its end, and the end of the map. -/
def mapStart (s : State) : Nat := max (regVal s .poolBase).toNat 0x9800
def mapEnd (s : State) : Nat := mapStart s + 80 * fld s .poolSize 0 8 0 + 16 * fld s .recBacklog 0 12 0
def mapRoom (s : State) : Nat := s.dmc.capacity * 16384 * 7 / 8

/-- Whether the map is refused (R460). -/
def mapRefused (s : State) : Bool :=
  let b := (regVal s .poolBase).toNat
  mapRoom s < mapEnd s || (b ≠ 0 && b < 0x9800)

/-- Step 7: the DRAM map, the directory and the spare (R459, R460, R475, R504). -/
def placeMemory (headerOk : Bool) (s : State) : State :=
  let refused := mapRefused s
  let units := if refused then 64 else fld s .poolSize 0 8 0
  let mib := if refused then 256 else fld s .recBacklog 0 12 0
  let s1 : State := { s with
    qmg := { s.qmg with extSize := units * 65536 }, bce := { s.bce with sizeMib := mib }
    avl := { s.avl with spare := if s.avl.retired.isEmpty then some 16 else none } }
  let s2 := withDmc (fun d => { d with mapRefused := refused }) s1
  let s3 := if refused then bootEvent Ev.dramMapRefused [(cdiv (mapEnd s) 16 : Nat), (mapRoom s / 16 : Nat)] s2 else s2
  if s.avl.dirClean && headerOk then { s3 with avl := { s3.avl with dirClean := false } }
  else
    let lost := padTo 48 (Config.eventBody Ev.dirLost [])
    let late := if s.avl.dirClean then s3.avl.atReady ++ [(Ev.dirLost, lost)] else s3.avl.atReady
    withEpd (fun e => { e with badBuckets := [] }) (emptyEpd { s3 with avl := { s3.avl with dirClean := false, atReady := late } })

/-- Step 8: ports, links and the timebase from the committed configuration. -/
def startPorts (s : State) : State :=
  let s1 := (List.range 8).foldl (fun t n =>
    if linkEnabled t n then (if linkConfigOk t n then startLink n t else refuse (putFld t .rlCtrl n 0 0 0) .rlCtrl n) else t) s
  let s2 := (List.range 16).foldl (fun t n =>
    if prpEnabled t n then { t with prp := FMap.set t.prp n { PrpPair.fresh with svAt := now t } } else t) s1
  let s3 := (List.range 192).foldl (fun t n =>
    if tdmMode t n ≠ 0 then withClk (fun c => { c with tdmHold := FMap.set c.tdmHold n (now t + 10000000000) }) t else t) s2
  updateRefs s3

/-- A stage of start-up is reached. -/
def atStage (n : Nat) (s : State) : State := { s with avl := { s.avl with stage := n } }

/-- Back-offs of non-zero counts run in full again (R433, R486). -/
def restartBackoffs (s : State) : State :=
  withSec (fun c => { c with backoff := c.fails.filterMap (fun e =>
    if backoffNs e.2 = 0 then none else some (e.1, now s + backoffNs e.2)) }) s

/-- Steps 6 to 8 with the pair that runs; no Media Image is MEDIA_HALT (R492). -/
def bootMedia (env : BootEnv) (c : Nat) (m : Option Nat) (bad : Nat) (tried : List (Nat × Nat)) (s : State) : State :=
  let s1 : State := { s with avl := { s.avl with fallbackFlag := false, cimSlot := c, mimSlot := m.getD s.avl.bootMim } }
  let s2 := slotEvents c s1.avl.mimSlot bad tried s1
  match m with
  | none => restartBackoffs (atStage 8 s2)
  | some n => atStage 6 (startPorts (placeMemory env.headerOk (loadMedia n s2)))

/-- RECOVERY: no Control Image runs (R388, R492). -/
def recovery (s : State) : State := { s with avl := { s.avl with stage := 9 }, hif := { s.hif with cfgOpen := true } }

/-- Step 6's choice of the Media Image beside the Control Image of slot c (R496), and what follows. -/
def bootChoose (env : BootEnv) (c bad : Nat) (s : State) : State :=
  let kg := s.avl.knownGood.getD (s.avl.bootCim, s.avl.bootMim)
  let m := if s.avl.fallbackFlag then kg.2 else s.avl.bootMim
  let why := if bad = St.ok then mimStatus s c s.avl.bootMim else bad
  match pickMim s c m s.avl.fallbackFlag with
  | none => bootMedia env c none why ((c, m) :: if kg.1 = c && kg.2 ≠ m then [(c, kg.2)] else []) s
  | some (some n) => bootMedia env c (some n) why [(c, m)] s
  | some none =>
    match pickCim s kg.1 with
    | none => recovery s
    | some d => bootMedia env d (if mimStatus s d kg.2 = St.ok then some kg.2 else none) why [(c, m), (d, kg.2)] s

/-- Start-up from step 2 (R490, R492). -/
def startUp (env : BootEnv) (s : State) : State :=
  let named := if s.avl.fallbackFlag then (s.avl.knownGood.getD (s.avl.bootCim, s.avl.bootMim)).1 else s.avl.bootCim
  match pickCim s named with
  | none => recovery s
  | some c =>
    let (ok, s1) := bringUpDram env (loadConfig env.factoryLow { s with avl := { s.avl with cimSlot := c } })
    if ok then bootChoose env c (cimStatus s named) s1
    else restartBackoffs (atStage 10 (slotEvents c s1.avl.bootMim (cimStatus s named) [] s1))

/-- START_UP (R490): after the release of a reset, or a wake. -/
def execStartUp (env : BootEnv) (s : State) : Answer :=
  .next (onlyIf (s.avl.stage = 0 && !s.avl.porHeld && s.avl.power = 0) (startUp env s) s)

/-! ### READY (R490, R491) -/

/-- A running image that names the other vendor pair blows its revocation bit (R444). -/
def revokeBy (i : Option Image) (s : State) : State :=
  match i with
  | none => s
  | some m =>
    let new := s.sec.revoked ||| m.revoke
    if new = s.sec.revoked then s
    else bootEvent Ev.keyRevoked [(m.revoke.toNat / 2 : Nat)] (withSec (fun c => { c with revoked := new }) s)

/-- The events that wait for READY. -/
def readyEvents (s : State) : State :=
  let s1 := s.avl.atReady.foldl (fun t e => raiseStart e.1 e.2 t) { s with avl := { s.avl with atReady := [] } }
  let s2 := match s.avl.wakeInfo with
    | none => s1
    | some d => bootEvent Ev.wake (d.map (fun b => (b.toNat : Int))) { s1 with avl := { s1.avl with wakeInfo := none } }
  let s3 := if s.avl.factoryRestored then bootEvent Ev.factoryRestored [] s2 else s2
  if 2 ≤ s.avl.retired.length then bootEvent Ev.capacityReduced [(limitOf s 32768 : Nat)] s3 else s3

/-- READY: commands of every chapter are taken, and the times of R433, R496 and R502 start. -/
def ready (s : State) : State :=
  let s1 := restartBackoffs { s with
    avl := { s.avl with stage := 7, runSince := now s, rotateAt := now s }, avs := { s.avs with run := true } }
  readyEvents (revokeBy (runMim s1) (revokeBy (runCim s1) s1))

/-- STARTUP_READY (R490). -/
def execStartupReady (t : Ns) (s : State) : Answer :=
  let s1 := advance t s
  .next (onlyIf (s1.avl.stage = 6 && alive s1 && s1.avl.power = 0) (ready s1) s1)

end Sys2Proof.Machine
end

