-- ==== Sys2Proof/Machine/RadioTx.lean ====
section
/-! DEFINITION. Transmit channels, radio requests and talk groups (R203 to R212). -/

namespace Sys2Proof.Machine

open Sys2Proof

/-! ### Transmit channel commands (R204, R208) -/

/-- The parts of R204 that set-up and modification share. -/
def txcParamsOk (s : State) (b : Bytes) : Bool :=
  let c := txcOf 0 b
  txcBlockOk b && linkEnabled s c.link && txEnable s c.link && bandOk (fsHz s c.link) c.bw c.centreHz &&
  (s.txcs.filter (fun e => e.1 != c.tx && e.2.link == c.link)).length < 32 && ringIs s c.ptxRing .ptx

/-- TXC_SETUP's own check. -/
def txcSetupStatus (s : State) (b : Bytes) : Nat :=
  if txcParamsOk s b && !FMap.has s.txcs (txcOf 0 b).tx then St.ok else St.badParam

/-- TXC_SETUP (R204). -/
def execTxcSetup (h : CmdHdr) (s : State) : Answer :=
  .next (runCmd (blockCmd 0x0141 2 64 true) h (fun s1 =>
    let c := txcOf h.ring (blk h)
    checked (txcSetupStatus s1 (blk h)) { s1 with txcs := FMap.set s1.txcs c.tx c } s1) s)

/-- TXC_MODIFY's own check. -/
def txcModifyStatus (s : State) (b : Bytes) : Nat :=
  let c := txcOf 0 b
  match txc? s c.tx with
  | some d => if txcParamsOk s b && !d.releasing && d.link = c.link && d.bw = c.bw then St.ok else St.badParam
  | none => St.badParam

/-- TXC_MODIFY's effect: from the next transmission (R204, R208). -/
def modifyTxc (b : Bytes) (s : State) : State :=
  let c := txcOf 0 b
  withTxc c.tx (fun d =>
    { c with ringCmd := d.ringCmd, waiting := d.waiting, active := d.active, releasing := d.releasing }) s

/-- TXC_MODIFY (R204). -/
def execTxcModify (h : CmdHdr) (s : State) : Answer :=
  .next (runCmd (blockCmd 0x0142 2 64 true) h (fun s1 => checked (txcModifyStatus s1 (blk h)) (modifyTxc (blk h) s1) s1) s)

/-- TXC_RELEASE's own check. -/
def txcReleaseStatus (s : State) (n : Nat) : Nat :=
  if (txc? s n).any (fun c => !c.releasing) then St.ok else St.badParam

/-- TXC_RELEASE's effect (R208): waiting requests end, and a transmission in progress ends at its next symbol boundary. -/
def releaseTxc (n : Nat) (s : State) : State :=
  match txc? s n with
  | none => s
  | some c =>
    let s1 := c.waiting.foldl (fun t q => endTx n q 0 St.txAborted t) (withTxc n (fun d => { d with waiting := [] }) s)
    if c.active.isSome then withTxc n (fun d => { d with releasing := true }) s1 else txcGone n s1

/-- TXC_RELEASE (R208). -/
def execTxcRelease (h : CmdHdr) (tx : Nat) (s : State) : Answer :=
  .next (runCmd (plainCmd 0x0143 2) h (fun s1 => checked (txcReleaseStatus s1 tx) (releaseTxc tx s1) s1) s)

/-! ### Requests (R203, R205, R206) -/

/-- The checks of R205 on a request taken from a ring. -/
def requestStatus (s : State) (ring : Nat) (d : Bytes) : Nat :=
  let q := txRecord d
  let len := byteAt d 3
  if d.length < 32 || len = 0 || 256 ≤ q.payload.length || q.payload.length ≠ len || (q.sec && 239 < len) then St.badLength
  else if !((txc? s (leAt d 0 2)).any (fun c => !c.releasing && c.ptxRing = ring)) || q.sf < 5 || 12 < q.sf ||
      !(q.preamble = 0 || (6 ≤ q.preamble && q.preamble ≤ 1023)) || !zeroIn d 0x18 8 ||
      (match q.launch with | some l => devTime s + 60000000000 < l | none => false) then St.badParam
  else St.ok

/-- A request that asks for security needs the key of its endpoint (R203); one that is taken waits behind the requests of its
channel until the build op has made its symbol item (R206, R207). -/
def queueRequest (ring : Nat) (index : BitVec 32) (d : Bytes) (s : State) : State :=
  let q := { txRecord d with ring := some (ring, index) }
  let put := fun (t : State) => withTxc (leAt d 0 2) (fun c => { c with waiting := c.waiting ++ [q] }) t
  if !q.sec then put s
  else
    let (slot, s1) := epdLookup q.addr s
    if (nextDl s1 slot).isNone then endPtx (some (ring, index)) 0 St.secNokey s1 else put s1

/-- A radio request is taken and checked (R205). -/
def radioRequest (ring : Nat) (index : BitVec 32) (d : Bytes) (s : State) : State :=
  let st := requestStatus s ring d
  if st ≠ St.ok then endPtx (some (ring, index)) 0 st s else queueRequest ring index d s

/-- RADIO_TX_REQUEST (R205). -/
def execRadioTxRequest (ring : Nat) (index : BitVec 32) (item : Bytes) (t : Ns) (s : State) : Answer :=
  let s1 := advance t s
  .next (onlyIf (alive s1 && (ring? s1 ring).any (fun r => r.ctx.ty == .ptx && r.ctx.target == 1))
    (radioRequest ring index item s1) s1)

/-! ### Transmissions (R206, R207) -/

/-- How much later than on its way to the link a sample of a transmission is at the antenna, in ns: the delay of the chain with the
BALANCED filter, and the transceiver's latency (R207). -/
def txLead (s : State) (c : Txc) : Nat := chainDelayPs (fsHz s c.link) c.bw 1 / 1000 + c.latency

/-- A transmission starts at an instant: its symbols and its end are fixed (R190, R207). -/
def startTx (n : Nat) (c : Txc) (q : TxReq) (rest : List TxReq) (t : Ns) (s : State) : State :=
  let p := if q.preamble = 0 then c.preamble else q.preamble
  let sym := frameSymbols q.sf p q.cr c.sync q.sec q.ptt q.stream q.payload
  let o : OnAir := { req := q, start := t, stop := t + symbolNs q.sf c.bw * sym.length, syms := sym, lead := txLead s c
                     centreHz := c.centreHz, level := c.level }
  withTxc n (fun d => { d with waiting := rest, active := some o }) s

/-- Samples in two multiblocks (or multiframes) of a link's transmit direction (R139, R207). -/
def twoBlocks (s : State) (n : Nat) : Nat :=
  2 * (if flag s .rlCfg n 0 then 16 * 2 ^ (fld s .rlCfg n 11 9 - 3) * (1 + fld s .rlCfg n 8 8) else 256 * 2 ^ fld s .rlCfg n 7 6 / 4)

/-- Whether the first sample of a request can go to the link (R206, R207): the channel is free, the link is in DATA, the symbol item
is complete, and two multiblocks of samples stand in the crossing FIFO. -/
def mayStart (s : State) (c : Txc) (q : TxReq) (ready : Bool) (standing : Nat) : Bool :=
  c.active.isNone && inData s c.link && q.built && ready && decide (twoBlocks s c.link ≤ standing)

/-- Whether a launch time lies within one link sample period of an antenna time. -/
def onTime (fs l a : Nat) : Bool := decide (((l : Int) - a).natAbs * fs ≤ 1000000000)

/-- The head request of a channel at an instant: launched, late, or left waiting. -/
def launch (n : Nat) (t : Ns) (ready : Bool) (standing : Nat) (s : State) : State :=
  match txc? s n with
  | none => s
  | some c =>
    match c.waiting with
    | [] => s
    | q :: rest =>
      let may := mayStart s c q ready standing
      let a := devOf s t + txLead s c
      match q.launch with
      | none => if may then startTx n c q rest t s else s
      | some l =>
        if may && onTime (fsHz s c.link) l a then startTx n c q rest t s
        else if l ≤ a then endTx n q 0 St.txLate (withTxc n (fun d => { d with waiting := rest }) s)
        else s

/-- TX_LAUNCH (R207): the synthesiser has taken the symbol item (`ready`), and so many samples stand in the link's crossing FIFO. A
MIRROR sends zero samples (R511). -/
def execTxLaunch (tx : Nat) (t : Ns) (ready : Bool) (standing : Nat) (s : State) : Answer :=
  let s1 := advance t s
  match txc? s1 tx with
  | none => .next s1
  | some c => .next (onlyIf (alive s1 && !c.releasing && s1.twin.role != 1) (launch tx t ready standing (sendSamples c.link t s1)) s1)

/-- TX_COMPLETE (R207, R208): the last sample has been sent, the synthesiser ran empty, or a release ends the frame at a
symbol boundary. -/
def txEnds (n : Nat) (t : Ns) (underrun : Bool) (s : State) : State :=
  match txc? s n with
  | none => s
  | some c =>
    match c.active with
    | none => s
    | some o =>
      let s1 := sendSamples c.link t s
      if underrun && t < o.stop then endOnAir n St.txAborted (bump .portUnderrun (1024 + c.link) s1)
      else if c.releasing && t < o.stop then
        if (t - o.start) % symbolNs o.req.sf c.bw = 0 then endOnAir n St.txAborted s1 else s1
      else if o.stop ≤ t then endOnAir n St.ok s1
      else s1

/-- TX_COMPLETE. -/
def execTxComplete (tx : Nat) (t : Ns) (underrun : Bool) (s : State) : Answer :=
  let s1 := advance t s
  .next (onlyIf (alive s1) (txEnds tx t underrun s1) s1)

/-! ### Talk groups (R209, R211) -/

/-- Whether a receive channel suits a talk group. -/
def groupRxOk (s : State) (n : Nat) : Bool := (rxc? s n).any (fun c => c.p.bw = 2 && c.p.sfMask.testBit 2)

/-- PTT_GROUP_SETUP's own check. -/
def groupSetupStatus (s : State) (b : Bytes) : Nat :=
  let g := groupOf 0 b
  if groupBlockOk b && (txc? s g.tx).any (fun c => c.bw = 2) && g.rxs.all (groupRxOk s) && !FMap.has s.groups g.group then St.ok
  else St.badParam

/-- PTT_GROUP_SETUP (R209). -/
def execPttGroupSetup (h : CmdHdr) (s : State) : Answer :=
  .next (runCmd (blockCmd 0x0144 2 32 true) h (fun s1 =>
    let g := groupOf h.ring (blk h)
    checked (groupSetupStatus s1 (blk h)) { s1 with groups := FMap.set s1.groups g.group g } s1) s)

/-- PTT_GROUP_RELEASE's own check: no channel names the group. -/
def groupReleaseStatus (s : State) (g : Nat) : Nat :=
  if FMap.has s.groups g && (pttChan s g).isNone then St.ok else St.badParam

/-- PTT_GROUP_RELEASE (R209). -/
def execPttGroupRelease (h : CmdHdr) (group : Nat) (s : State) : Answer :=
  .next (runCmd (plainCmd 0x0145 2) h (fun s1 =>
    checked (groupReleaseStatus s1 group)
      (dropCounters [.pttBlocked, .pttNogroup, .pttTxDrop] group { s1 with groups := FMap.del s1.groups group }) s1) s)

/-- PTT_HANG_EXPIRY (R211): hang_ms have passed without a frame of the talker. -/
def execPttHangExpiry (group : Nat) (t : Ns) (s : State) : Answer :=
  let s1 := advance t s
  match FMap.get? s1.groups group with
  | none => .next s1
  | some g =>
    match g.talker with
    | none => .next s1
    | some (_, last) =>
      .next (onlyIf (alive s1 && last + g.hangMs * 1000000 ≤ t)
        { s1 with groups := FMap.set s1.groups group { g with talker := none, turn := none } } s1)

end Sys2Proof.Machine
end

