-- ==== Sys2Proof/Machine/HostData.lean ====
section
/-! DEFINITION. Items between rings and the device: packet transmit and the writing of received items (R412 to R416). -/

namespace Sys2Proof.Machine

open Sys2Proof

/-! ### Packet transmit (R412, R413) -/

/-- Whether descriptors form one item: eop in the last alone, or 65 without eop. -/
def isItem (l : List PtxDesc) : Bool :=
  !l.isEmpty && l.dropLast.all (fun d => !d.eop) && l.length ≤ 65 &&
    (l.length = 65 || match l.getLast? with | some d => d.eop | none => false)

/-- The octets of an item, `none` when a read of its data fails. -/
def itemData (l : List PtxDesc) : Option Bytes :=
  l.foldl (fun (a : Option Bytes) d => match a, d.data with
    | some b, some e => some (b ++ e.take d.len)
    | _, _ => none) (some [])

/-- The check of an item's descriptors (R413): reserved fields, lengths, the end of the item and its target. -/
def descsOk (s : State) (target : Nat) (l : List PtxDesc) : Bool :=
  l.all (fun d => d.clean && 1 ≤ d.len && d.len ≤ 65535) && (match l.getLast? with | some d => d.eop | none => false) &&
  (match l.head?, target with
   | some d, 0 => if d.toPair then prpEnabled s d.target else d.target < 32
   | some d, 1 => d.target = 0 && d.tc = 0 && !d.toPair
   | some _, _ => true
   | none, _ => false)

/-- Whether a frame of L octets is too long for a port (R363): padded, with the trailer of a pair and the FCS. -/
def tooLong (s : State) (p l : Nat) (pair : Bool) : Bool := maxFrame s p < max 60 l + (if pair then 10 else 4)

/-- An item for an Ethernet port or pair (R363, R367, R375). -/
def ptxEth (n : Nat) (i : BitVec 32) (d : PtxDesc) (data : Bytes) (s : State) : State :=
  let tc := classFor d.tc
  if d.toPair then
    if tooLong s (prpPortA s d.target) data.length true || tooLong s (prpPortB s d.target) data.length true then
      endPtx (some (n, i)) 0 St.badLength s
    else pairSend d.target tc data (some (n, i)) d.tsReq s
  else if tooLong s d.target data.length false then endPtx (some (n, i)) 0 St.badLength s
  else ethSend d.target tc data (some (n, i)) d.tsReq s

/-- Cells already reserved at the tail of a queue for the item that its ring writes go over to that item (R299, R301). -/
def ownReserve (n : Nat) (s : State) : State :=
  match queue? s n with
  | none => s
  | some q =>
    match q.inProg with
    | none => s
    | some (c, ext) => returnCells q.cls c ext false (withQueue n (fun r => { r with inProg := none }) s)

/-- Whether the item that a ring writes to a queue has been severed (R298, R303). -/
def itemSevered (s : State) (n : Nat) : Bool := (queue? s n).any (·.discarding)

/-- An item for a host queue is linked whole (R413). An item that a flush severed while it was being written is discarded up to
its end, and completes with SEVERED (R298, R304). -/
def ptxQueue (n : Nat) (i : BitVec 32) (q : Nat) (data : Bytes) (s : State) : State :=
  if 65536 < data.length then endPtx (some (n, i)) 0 St.badLength s
  else if itemSevered s q then endPtx (some (n, i)) 0 St.severed (withQueue q (fun r => { r with discarding := false }) s)
  else
    let s1 := ownReserve q s
    match reserveAt s1 q (cellsOf data.length) with
    | none => s1
    | some ext =>
      endPtx (some (n, i)) (devTime s1) St.ok
        (linkItem q ⟨data, ext, false⟩ (allocCells (queueClass s1 q) (cellsOf data.length) ext false s1))

/-- Whether a queue item waits, holding its ring: the reservation is refused (R413, R20). -/
def ptxWaits (s : State) (r : Ring) (l : List PtxDesc) : Bool :=
  match itemData l with
  | some d =>
    let s1 := ownReserve r.ctx.queue s
    r.ctx.target = 2 && descsOk s 2 l && d.length ≤ 65536 && !itemSevered s r.ctx.queue &&
      (overLimit s1 r.ctx.queue (cellsOf d.length) || (reserveAt s1 r.ctx.queue (cellsOf d.length)).isNone)
  | none => false

/-- The item that waits counts once where max_cells refuses it (R413). -/
def ptxRefused (n : Nat) (r : Ring) (l : List PtxDesc) (s : State) : State :=
  let k := cellsOf ((itemData l).getD []).length
  if overLimit (ownReserve r.ctx.queue s) r.ctx.queue k && !r.starved then
    bump .qLimit r.ctx.queue (withRing n (fun q => { q with starved := true }) s)
  else s

/-- The item is taken: the ring moves on, and the item goes to its target or ends with BAD_DESC. -/
def ptxTake (n : Nat) (r : Ring) (l : List PtxDesc) (s : State) : State :=
  let i := r.devIdx + BitVec.ofNat 32 (l.length - 1)
  let s1 := withRing n (fun q =>
    { q with devIdx := q.devIdx + BitVec.ofNat 32 l.length, items := q.items ++ [(i, false)], starved := false }) s
  match itemData l, l.head? with
  | some data, some d =>
    if !descsOk s r.ctx.target l then endPtx (some (n, i)) 0 St.badDesc s1
    else
      match r.ctx.target with
      | 0 => ptxEth n i d data s1
      | 1 => radioRequest n i data s1
      | _ => ptxQueue n i r.ctx.queue data s1
  | _, _ => endPtx (some (n, i)) 0 St.badDesc s1

/-- Whether the device can take an item from a PTX ring: the whole item is covered and no transfer of it fails. -/
def ptxReady (s : State) (n : Nat) (l : List PtxDesc) : Bool :=
  match ring? s n with
  | some r => alive s && s.avl.power = 0 && r.ctx.ty = .ptx && !r.stopped && !r.readFail && !r.dmaFail && isItem l && l.length ≤ r.avail
  | none => false

/-- PTX_ITEM's effect. -/
def ptxItem (n : Nat) (l : List PtxDesc) (s : State) : State :=
  match ring? s n with
  | some r => if ptxWaits s r l then ptxRefused n r l s else ptxTake n r l s
  | none => s

/-- PTX_ITEM (R413). -/
def execPtxItem (ring : Nat) (descs : List PtxDesc) (t : Ns) (s : State) : Answer :=
  let s1 := advance t s
  .next (onlyIf (ptxReady s1 ring descs) (ptxItem ring descs s1) s1)

/-! ### Packet receive (R415, R416) -/

/-- The item that a PRX ring writes next: a queue item is taken only now (R414); `none` while its queue's consumer has
another item in hand. -/
def nextItem (s : State) (i : PrxItem) : Option PrxItem :=
  if i.kind ≠ 2 then some i
  else
    match queue? s i.source with
    | some q =>
      match q.taken, q.items with
      | none, x :: _ => if x.tether then none else some { i with data := x.data }
      | _, _ => none
    | none => none

/-- Take a queue item and pass every word of it (R302). -/
def consumeQueue (n : Nat) (s : State) : State := endTaken n (takeItem n s)

/-- The oldest waiting item is written into its buffers. -/
def prxWrite (n : Nat) (i x : PrxItem) (s : State) : State :=
  let s1 := writeItem n x s
  popWaiting n (if i.kind = 2 then consumeQueue i.source s1 else s1)

/-- Whether a ring has buffers for its oldest item and may write. -/
def prxReady (s : State) (n : Nat) : Bool :=
  match ring? s n, oldestNeed s n with
  | some r, some k => alive s && r.ctx.ty = .prx && !r.stopped && !r.dmaFail && k ≤ r.avail
  | _, _ => false

/-- Whether the oldest item of a queue, whose turn it is, holds words with the tether bit set. -/
def tetheredHead (s : State) (n : Nat) : Bool :=
  (queue? s n).any (fun q => q.taken.isNone && q.items.head?.any (·.tether))

/-- The check of a crossing point (R282): an item with the tether bit set is dropped whole, counted and reported. -/
def guardDrop (n : Nat) (s : State) : State :=
  integrityEvent n 6 0 1 (match queue? s n with | some q => q.level | none => 0) (bump .tetherGuard 0 (pullItem n 0 s))

/-- PRX_ITEM_WRITE's effect. -/
def prxItemWrite (n : Nat) (ok : Bool) (s : State) : State :=
  match (ring? s n).bind (fun r => r.waiting.head?) with
  | none => s
  | some i =>
    match nextItem s i with
    | none => if i.kind = 2 && tetheredHead s i.source then popWaiting n (guardDrop i.source s) else s
    | some x =>
      if ok then prxWrite n i x s
      else bump .hifDmaErr 0 (withRing n (fun q => { q with dmaFail := true }) s)

/-- PRX_ITEM_WRITE (R415). -/
def execPrxItemWrite (ring : Nat) (ok : Bool) (t : Ns) (s : State) : Answer :=
  let s1 := advance t s
  .next (onlyIf (prxReady s1 ring) (prxItemWrite ring ok s1) s1)

end Sys2Proof.Machine
end

