-- ==== Sys2Proof/Machine/Service.lean ====
section
/-! DEFINITION. Images in service, migration, rotation, self-test, the rolling Media Image update and the hitless Control
Image update (R496 to R509, R515, R516). -/

namespace Sys2Proof.Machine

open Sys2Proof

/-- Change the availability unit. -/
def withAvl (f : Avail → Avail) (s : State) : State := { s with avl := f s.avl }

/-! ### IMG_WRITE (R500) -/

/-- Put an image, or nothing, into the slot of its kind that does not run. -/
def putSpareSlot (kind : Nat) (i : Option Image) (s : State) : State :=
  withAvl (fun a =>
    if kind = 1 then (if a.cimSlot = 0 then { a with cimB := i } else { a with cimA := i })
    else (if a.mimSlot = 0 then { a with mimB := i } else { a with mimA := i })) s

/-- Whether an IMG_ACTIVATE of a kind runs. -/
def activating (s : State) (kind : Nat) : Bool := if kind = 1 then s.avl.handover.isSome else s.avl.rolling.isSome

/-- IMG_WRITE's own check. -/
def imgWriteStatus (s : State) (kind : Nat) : Nat :=
  if kind ≠ 1 && kind ≠ 2 then St.badParam else if activating s kind then St.busy else St.ok

/-- IMG_WRITE (R500): the running slot is never written. -/
def execImgWrite (h : CmdHdr) (kind : Nat) (s : State) : Answer :=
  .next (runCmd ⟨0x0601, 3, fun _ => true, true, false⟩ h
    (fun s1 => acceptLong 0x0601 h (blk h).length (imgWriteStatus s1 kind) (fun id t =>
      withAvl (fun a => { a with imgWriting := a.imgWriting ++ [(id, kind, blk h)] }) (putSpareSlot kind none t)) s1) s)

/-- What the checks and the read-back find: status with its detail, or the image. -/
def writeResult (s : State) (kind : Nat) (b : Bytes) (readBackOk : Bool) : Except (Nat × Nat) Image :=
  match checkImage s.sec kind b with
  | .error e => .error e
  | .ok i =>
    if rules12 s i ≠ St.ok then .error (rules12 s i, 0)
    else if readBackOk then .ok i
    else .error (St.imgDigest, Config.freeNat s.free % max 1 (byteAt b 7))

/-- The oldest image write ends: the slot holds the image, or is empty. -/
def imgWriteDone (readBackOk : Bool) (s : State) : State :=
  match s.avl.imgWriting with
  | [] => s
  | (id, kind, b) :: rest =>
    let s1 := withAvl (fun a => { a with imgWriting := rest }) { s with free := s.free + 1 }
    match writeResult s kind b readBackOk with
    | .error (st, d) => endLong id st (imageDetail st d) (putSpareSlot kind none s1)
    | .ok i => endLong id St.ok [] (withLong id (fun o => { o with position := o.total }) (putSpareSlot kind (some i) s1))

/-- IMG_WRITE_DONE (R500). -/
def execImgWriteDone (readBackOk : Bool) (s : State) : Answer := .next (onlyIf (serving s) (imgWriteDone readBackOk s) s)

/-! ### IMG_ACCEPT_UNTESTED, IMG_STATUS and BEHAVIOUR_LOCK (R497, R498, R515) -/

/-- IMG_ACCEPT_UNTESTED (R497): one pair, durable at completion (R483 where it cannot be). -/
def execImgAcceptUntested (h : CmdHdr) (cim : BitVec 32) (mim : BitVec 32) (s : State) : Answer :=
  .next (runCmd (plainCmd 0x0603 3) h (fun s1 =>
    checked (if s1.endp.degraded then St.endpaperFail else St.ok)
      (endpWrite (withAvl (fun a => { a with acceptUntested := some (cim, mim) }) s1)) s1) s)

/-- The result of IMG_STATUS. -/
def imgStatus (s : State) : Bytes :=
  let a := s.avl
  let kg := a.knownGood.getD (0, 0)
  let pair := a.acceptUntested.getD (0, 0)
  toLE 4 (verOf a.cimA) ++ toLE 4 (verOf a.cimB) ++ toLE 4 (verOf a.mimA) ++ toLE 4 (verOf a.mimB) ++
    toLE 4 (a.cimSlot + 2 * a.mimSlot + 4 * kg.1 + 8 * kg.2 + 16 * b2n a.acceptUntested.isSome + 32 * b2n a.behaviourLock) ++
    toLE 4 pair.1.toNat ++ toLE 4 pair.2.toNat

/-- IMG_STATUS (R498). -/
def execImgStatus (h : CmdHdr) (s : State) : Answer :=
  .next (runCmd (plainCmd 0x0604 1) h (fun s1 => .done St.ok (imgStatus s1) s1) s)

/-- Whether an image that runs implements BL1. -/
def hasBl1 (i : Option Image) : Bool := match i with | some m => m.blMask.testBit 1 | none => true

/-- BEHAVIOUR_LOCK with lock 1: its own check. -/
def lockSetStatus (s : State) : Nat :=
  if !(hasBl1 (runCim s) && hasBl1 (runMim s)) then St.blLocked else if s.endp.degraded then St.endpaperFail else St.ok

/-- BEHAVIOUR_LOCK with lock 1 (R515). -/
def execBehaviourLockSet (h : CmdHdr) (s : State) : Answer :=
  .next (runCmd (plainCmd 0x0605 3) h (fun s1 =>
    checked (lockSetStatus s1) (endpWrite (withAvl (fun a => { a with behaviourLock := true }) s1)) s1) s)

/-- BEHAVIOUR_LOCK with lock 0 (R515). -/
def execBehaviourLockClear (h : CmdHdr) (s : State) : Answer :=
  .next (runCmd (plainCmd 0x0605 3) h (fun s1 =>
    checked (if s1.endp.degraded then St.endpaperFail else St.ok)
      (endpWrite (withAvl (fun a => { a with behaviourLock := false }) s1)) s1) s)

/-! ### Migration (R501) -/

/-- Flows whose home lies in a cluster. -/
def flowsOf (s : State) (c : Nat) : List Nat := (s.fsc.flows.filter (fun e => e.2.cluster == c)).map (·.1)

/-- A migration has moved every flow: the source is the spare, the operation ends, and a rotation goes on with the
self-test (R502). -/
def moveDone (s : State) : State :=
  match s.avl.migrating with
  | none => s
  | some (src, _) =>
    let s1 := withAvl (fun a => { a with
      migrating := none, migrateOp := none, spare := some src
      selfTesting := if a.migrateOp.isNone && a.rolling.isNone then some none else a.selfTesting }) s
    match s.avl.migrateOp with
    | some id => endLong id St.ok [] (withLong id (fun o => { o with position := o.total }) s1)
    | none => s1

/-- A migration begins; one without flows ends at once. -/
def startMove (src dst : Nat) (op : Option Nat) (s : State) : State :=
  let s1 := withAvl (fun a => { a with migrating := some (src, dst), migrateOp := op }) s
  if (flowsOf s src).isEmpty then moveDone s1 else s1

/-- Where a list entry goes with its flow. -/
def OpLoc.moved (src dst : Nat) : OpLoc → OpLoc
  | .vpe n => if n / 16 = src then .vpe (16 * dst + n % 16) else .vpe n
  | .cluster c => if c = src then .cluster dst else .cluster c
  | l => l

/-- A flow moves: its home becomes a VPE of the destination, its ready ops go along, its state is what was written
back. -/
def moveFlow (f src dst : Nat) (s : State) : State :=
  let s1 := withOps f (fun _ o => { o with loc := o.loc.moved src dst }) s
  withFlow f (fun fl => { fl with cluster := dst, homeVpe := 16 * dst + fl.homeVpe % 16 }) s1

/-- Whether no op of a flow is dispatched. -/
def flowAtRest (fl : Flow) : Bool := fl.order.all (fun e => e.2.st != .dispatched)

/-- FLOW_MIGRATE's effect. -/
def flowMigrate (f : Nat) (s : State) : State :=
  match s.avl.migrating, flow? s f with
  | some (src, dst), some fl =>
    if fl.cluster ≠ src || !flowAtRest fl then s
    else
      let s1 := moveFlow f src dst s
      let s2 := match s.avl.migrateOp with
        | some id => progress id ((match longOp? s id with | some o => o.position | none => 0) + 1) s1
        | none => s1
      if (flowsOf s2 src).isEmpty then moveDone s2 else s2
  | _, _ => s

/-- FLOW_MIGRATE (R501). -/
def execFlowMigrate (flow : Nat) (s : State) : Answer := .next (onlyIf (serving s) (flowMigrate flow s) s)

/-- Whether the spare is in use. -/
def spareBusy (s : State) : Bool := s.avl.migrating.isSome || s.avl.selfTesting.isSome || s.avl.rolling.isSome

/-- CLUSTER_MIGRATE's own check. -/
def migrateStatus (s : State) (c : Nat) : Nat :=
  if !clusterActive s c then St.badParam else if s.avl.spare.isNone then St.noSpare
  else if spareBusy s then St.busy else St.ok

/-- CLUSTER_MIGRATE (R501): its position counts flows moved, its total is the flows of the source. -/
def execClusterMigrate (h : CmdHdr) (cluster : Nat) (s : State) : Answer :=
  .next (runCmd (plainCmd 0x0607 2) h (fun s1 =>
    acceptLong 0x0607 h (flowsOf s1 cluster).length (migrateStatus s1 cluster)
      (fun id t => startMove cluster (s1.avl.spare.getD 16) (some id) t) s1) s)

/-! ### Rotation and self-test (R502, R503) -/

/-- The next cluster that rotation takes: one whose VPE has raised MEM_UE, else the next active one in cyclic order. -/
def nextRotated (s : State) : Option Nat :=
  match s.avl.nextTest.find? (clusterActive s) with
  | some c => some c
  | none => ((List.range 17).map (fun i => (s.avl.lastTested + 1 + i) % 17)).find? (clusterActive s)

/-- Whether rotation is due and nothing holds it up. -/
def rotationDue (s : State) : Bool :=
  let m := fld s .avlCfg 0 10 0
  m ≠ 0 && s.avl.rotateAt + m * 60000000000 ≤ now s && !spareBusy s && s.avl.handover.isNone && s.avl.spare.isSome

/-- ROTATION_TIMER (R502). -/
def execRotationTimer (t : Ns) (s : State) : Answer :=
  let s1 := advance t s
  match nextRotated s1 with
  | none => .next s1
  | some c =>
    .next (onlyIf (serving s1 && s1.avl.stage = 7 && rotationDue s1)
      (startMove c (s1.avl.spare.getD 16) none (withAvl (fun a => { a with rotateAt := now s1 }) s1)) s1)

/-- SELF_TEST's own check. -/
def selfTestStatus (s : State) : Nat := if s.avl.spare.isNone then St.noSpare else if spareBusy s then St.busy else St.ok

/-- SELF_TEST (R503). -/
def execSelfTest (h : CmdHdr) (s : State) : Answer :=
  .next (runCmd (plainCmd 0x0608 2) h (fun s1 =>
    acceptLong 0x0608 h 1 (selfTestStatus s1) (fun id t => withAvl (fun a => { a with selfTesting := some (some id) }) t) s1) s)

/-- A cluster that fails is retired: the boot record, CLUSTER_RETIRED and LT_CLUSTER_RETIRE. -/
def retire (c failure : Nat) (s : State) : State :=
  let s1 := endpWrite (withLife (fun l => { l with clusterRetire := l.clusterRetire + 1 }) s)
  raise Ev.clusterRetired none (padTo 48 (Config.eventBody Ev.clusterRetired [(c : Int), (failure : Int)]))
    (withAvl (fun a => { a with retired := insNat c a.retired, spare := none }) s1)

/-- A self-test ends: the cluster stays the spare, or is retired. -/
def selfTestDone (failure : Option Nat) (s : State) : State :=
  match s.avl.selfTesting, s.avl.spare with
  | some op, some c =>
    let s1 := withAvl (fun a => { a with selfTesting := none, lastTested := c, nextTest := a.nextTest.filter (· != c) }) s
    let s2 := match failure with | some f => retire c f s1 | none => s1
    match op with
    | none => s2
    | some id =>
      endLong id (if failure.isSome then St.failed else St.ok) [] (withLong id (fun o => { o with position := o.total }) s2)
  | _, _ => s

/-- SELF_TEST_DONE (R503). -/
def execSelfTestDone (failure : Option Nat) (s : State) : Answer := .next (onlyIf (serving s) (selfTestDone failure s) s)

/-- KNOWN_GOOD_TIMER (R496): the pair has run for known_good_min. -/
def execKnownGoodTimer (t : Ns) (s : State) : Answer :=
  let s1 := advance t s
  let pair := (s1.avl.cimSlot, s1.avl.mimSlot)
  .next (onlyIf (serving s1 && s1.avl.stage = 7 && s1.avl.runSince + fld s1 .avlCfg 0 22 12 * 60000000000 ≤ now s1 &&
      s1.avl.knownGood != some pair)
    (endpWrite (withAvl (fun a => { a with knownGood := some pair }) s1)) s1)

/-! ### The rolling update (R505 to R507) -/

/-- IMG_ACTIVATE with kind 2: the checks of R505 in their order. -/
def activateMimStatus (s : State) : Nat × Nat :=
  match slotMim s (1 - s.avl.mimSlot) with
  | none => (St.slotActive, 0)
  | some i =>
    match checkMim s i.raw with
    | .error e => e
    | .ok n =>
      let r3 : Bool := match runCim s with | some c => rule3 s c n | none => false
      let r4 : Bool := match runMim s with | some m => rule4 n m | none => false
      let r6 : Bool := match s.avl.userLoaded with | some u => rule6 u n | none => true
      if !r3 then (St.comboUntested, 0) else if !r4 then (St.notCoexist, 0) else if !r6 then (St.comboUntested, 0)
      else if s.avl.spare.isNone then (St.noSpare, 0)
      else if spareBusy s || s.avl.handover.isSome then (St.busy, 0) else (St.ok, 0)

/-- The new image is loaded beside the running one, for the clusters that will hold it. -/
def beginRolling (id : Nat) (s : State) : State :=
  let n := 1 - s.avl.mimSlot
  match slotMim s n with
  | none => s
  | some i => withAvl (fun a => { a with rolling := some ⟨id, n, [], false⟩ })
      { s with code := FMap.set s.code n (codeOf i s.avl.userLoaded) }

/-- IMG_ACTIVATE with kind 2 (R505, R506). -/
def execImgActivateMim (h : CmdHdr) (s : State) : Answer :=
  .next (runCmd (plainCmd 0x0602 3) h (fun s1 =>
    let e := activateMimStatus s1
    if e.1 ≠ St.ok then .done e.1 (imageDetail e.1 e.2) s1
    else acceptLong 0x0602 h 16 St.ok beginRolling s1) s)

/-- The record of an accepted pair is erased once a tested pair is activated (R497). -/
def eraseAccept (s : State) : State :=
  match runCim s, runMim s with
  | some c, some m => if testedPair c m then withAvl (fun a => { a with acceptUntested := none }) s else s
  | _, _ => s

/-- An activation names its slot in the boot record: LT_IMAGE_ACTIVATE, and the known-good time starts (R482, R496). -/
def activated (s : State) : State :=
  eraseAccept (withAvl (fun a => { a with runSince := now s })
    (endpWrite (withLife (fun l => { l with imageActivate := l.imageActivate + 1 }) s)))

/-- Versions of the images that run, for an event. -/
def runVersions (s : State) : List Int := [((verOf (runCim s) : Nat) : Int), ((verOf (runMim s) : Nat) : Int)]

/-- Every cluster holds the new image: it is the running one (R506, R448). -/
def rollingDone (r : Rolling) (s : State) : State :=
  let s1 : State := withAvl (fun a => { a with rolling := none, mimSlot := r.slot, bootMim := r.slot, clusterMim := [] })
    { s with code := FMap.keep s.code (fun k _ => k == r.slot) }
  let s2 := activated s1
  let s3 := raise Ev.imageActive none (padTo 48 (Config.eventBody Ev.imageActive (runVersions s2))) s2
  let s4 := match runMim s3 with | some m => reloadUser m 2 s3 | none => s3
  endLong r.opId St.ok [] s4

/-- A cluster holds the new image: the next active one that does not moves to it, or the update is complete. -/
def rollForward (c : Nat) (r : Rolling) (s : State) : State :=
  let r1 : Rolling := { r with changed := c :: r.changed }
  let s1 := withAvl (fun a => { a with rolling := some r1, clusterMim := FMap.set a.clusterMim c r.slot }) s
  let s2 := raiseProgress r.opId (withLong r.opId (fun o => { o with position := r.changed.length }) s1)
  match (activeClusters s2).find? (fun k => !r1.changed.contains k) with
  | some k => startMove k c none s2
  | none => rollingDone r1 s2

/-- The update is taken back whole: the operation ends with RESTARTED. -/
def rollingFailed (r : Rolling) (s : State) : State :=
  endLong r.opId St.restarted [] (withAvl (fun a => { a with rolling := none, clusterMim := [] })
    { s with code := FMap.del s.code r.slot })

/-- A cluster holds the old image again: the one changed last moves back to it, or the update has been taken back. -/
def rollBack (c : Nat) (r : Rolling) (s : State) : State :=
  let l := r.changed.filter (· != c)
  let s1 := withAvl (fun a => { a with rolling := some { r with changed := l }, clusterMim := FMap.del a.clusterMim c }) s
  match l with
  | k :: _ => startMove k c none s1
  | [] => rollingFailed r s1

/-- A cluster that was to load its image has done so, or has failed: then the clusters already changed go back in reverse
order (R506). -/
def mimLoaded (c : Nat) (ok : Bool) (s : State) : State :=
  match s.avl.rolling with
  | none => s
  | some r =>
    if s.avl.spare ≠ some c || s.avl.migrating.isSome then s
    else if r.back then onlyIf ok (rollBack c r s) s
    else if r.changed.contains c then s
    else if ok then rollForward c r s
    else if r.changed.isEmpty then rollingFailed r s
    else withAvl (fun a => { a with rolling := some { r with back := true } }) s

/-- CLUSTER_MIM_LOADED (R506). -/
def execClusterMimLoaded (cluster : Nat) (ok : Bool) (s : State) : Answer :=
  .next (onlyIf (serving s) (mimLoaded cluster ok s) s)

/-! ### The hitless Control Image update (R508) -/

/-- IMG_ACTIVATE with kind 1: its own checks. -/
def activateCimStatus (s : State) : Nat × Nat :=
  match slotCim s (1 - s.avl.cimSlot) with
  | none => (St.slotActive, 0)
  | some i =>
    match checkCim s i.raw with
    | .error e => e
    | .ok n =>
      let r3 : Bool := match runMim s with | some m => rule3 s n m | none => false
      if !r3 then (St.comboUntested, 0) else if !rule5 s n then (St.levelInUse, 0)
      else if !s.avl.standbyReady || s.avl.handover.isSome || s.avl.rolling.isSome then (St.busy, 0) else (St.ok, 0)

/-- IMG_ACTIVATE with kind 1 (R508): the standby pair starts the new image. -/
def execImgActivateCim (h : CmdHdr) (s : State) : Answer :=
  .next (runCmd (plainCmd 0x0602 3) h (fun s1 =>
    let e := activateCimStatus s1
    if e.1 ≠ St.ok then .done e.1 (imageDetail e.1 e.2) s1
    else acceptLong 0x0602 h 6 St.ok
      (fun id t => withAvl (fun a => { a with handover := some id, standbyReady := false }) t) s1) s)

/-- The standby pair has started the new Control Image and followed the journal (PROGRESS of steps 2 and 3), and takes over. -/
def handover (s : State) : State :=
  match s.avl.handover with
  | none => s
  | some id =>
    let n := 1 - s.avl.cimSlot
    let s0 := progress id 3 (progress id 2 s)
    let s1 := activated (withAvl (fun a => { a with handover := none, cimSlot := n, bootCim := n }) s0)
    let s2 := raise Ev.cimHandover none (padTo 48 (Config.eventBody Ev.cimHandover (runVersions s1))) s1
    endLong id St.ok [] (withLong id (fun o => { o with position := o.total }) s2)

/-- CIM_HANDOVER (R508). -/
def execCimHandover (s : State) : Answer := .next (onlyIf (serving s) (handover s) s)

/-- STANDBY_READY (R508): not while a handover runs. -/
def execStandbyReady (s : State) : Answer :=
  .next (onlyIf (serving s && s.avl.handover.isNone) (withAvl (fun a => { a with standbyReady := true }) s) s)

end Sys2Proof.Machine
end

