-- ==== Sys2Proof/Machine/Stats.lean ====
section
/-! DEFINITION. The statistics blocks (R419, R420): sections, entries and words. The order of words follows R420 as far as
it states one; figures that the model does not follow are free values (log entry 29). -/

namespace Sys2Proof.Machine

open Sys2Proof

/-! ### Words -/

/-- Counters of one object, one word each. -/
def cw (s : State) (obj : Nat) (l : List Ctr) : List Nat := l.map (fun c => (counter s c obj).toNat)

/-- A counter kept per class, SF, command or kind, in ascending order. -/
def cwSub (s : State) (c : Ctr) (obj first n : Nat) : List Nat :=
  (List.range n).map (fun i => (counter s c obj (first + i)).toNat)

/-- A counter kept per class for the device. -/
def cwClass (s : State) (c : Ctr) : List Nat := (List.range 4).map (fun i => (counter s c i).toNat)

/-- A figure as a 64-bit word. -/
def fw (s : State) (f : Fig) (obj sub : Nat) : Nat := enc 64 (fig s f obj sub)

/-- A figure that the model does not follow (log entry 29). -/
def freeWord (s : State) (k : Nat) : Nat := Config.freeNat (s.free + k) % 2 ^ 64

/-- The device entry: classes, pools, rings, memories and supplies, in the order of the rules. -/
def deviceWords (s : State) : List Nat :=
  cw s 0 [.avsFault] ++ cwClass s .deadlineMiss ++
  [poolUsed s, fw s .overlapHigh 0 0] ++
  cwClass s .fscDispatch ++ cwClass s .fscSpecDispatch ++ cwClass s .fscAged ++ cw s 0 [.slotStall, .readyFull, .delayLate] ++
  cwClass s .inflightStall ++
  [inFlight s, fw s .fscFlight 0 0, readyEntries s, fw s .fscReady 0 0, slotsUsed s, fw s .fscSlots 0 0] ++
  cwClass s .specDiscardClass ++ cw s 0 [.tetherGuard, .qIntegrity] ++
  (List.range 4).map (heldCells s) ++ (List.range 4).map (fun c => unusedBallast s c) ++
  [freeCells s, freeWord s 1, enc 64 (sharedFree s), freeWord s 2, s.qmg.extUsed, freeWord s 3, reclaimed s.qmg, freeWord s 4] ++
  cw s 0 [.bceJobOk, .bceJobShort, .bceJobFail] ++ [backlogBytes s, fw s .backlogHigh 0 0, s.bce.resumes.length] ++
  [enc 64 s.clk.offset, enc 64 s.clk.freqCorr] ++ cw s 0 [.evtDropDevice, .barBad, .hifDmaErr, .setupLockedWr] ++
  (List.range 4).map (fun c => (counter s .dramCe c).toNat) ++ (List.range 4).map (fun c => (counter s .dramUe c).toNat) ++
  cw s 0 [.poolCe, .endpCe, .epdLookup, .epdMiss] ++ [s.epd.entries.length, stashUse s.epd.refs] ++
  (List.range 4).map (fun c => (FMap.getD s.dmc.remaps c []).length) ++
  [b2n (match runCim s, runMim s with
    | some c, some m => s.avl.acceptUntested = some (c.version, m.version) && !testedPair c m | _, _ => false)] ++
  [enc 64 s.avl.tempDeciC, fw s .tempLow 0 0, fw s .tempHigh 0 0, freeWord s 5, freeWord s 6, freeWord s 7]

/-- A cluster. -/
def clusterWords (s : State) (c : Nat) : List Nat :=
  [fw s .paceCount c 0, fw s .paceRate c 0, fw s .minSlack c 0] ++ cw s c [.affVpeMiss, .affClusterMiss, .fscSteal, .cmemCe, .cmemUe]

/-- A VPE. -/
def vpeWords (s : State) (v : Nat) : List Nat := cw s v [.vpeMemCe] ++ cwSub s .vpeFault v 0 5

/-- A voice channel. -/
def chanWords (s : State) (n : Nat) : List Nat :=
  cw s n [.conceal] ++ (counter s .deadlineMiss n 1).toNat :: cw s n [.ecDisable, .dtmfReject] ++
  [match FMap.get? s.chans n with | some c => c.codecNow | none => 0] ++ cw s n [.recSeg, .recDrop, .ecStateLost]

/-- An RTP context with its RTCP figures. -/
def rtpWords (s : State) (n : Nat) : List Nat :=
  cw s n [.rtpBadLen, .rtpBadPt, .rtpHdr, .rtpNochan, .rtpSrc, .rtpSsrc, .srtpAuth, .srtpReplay] ++
  (match chanOf s n with | some e => cw s e.1 [.jbGrow, .jbShrink] | none => [0, 0]) ++
  cw s n [.rtpJump, .rtpStale, .rtpDup, .rtpLate, .rtpLost, .rtpRepaired, .fecRecover, .rtcpOther] ++
  (match FMap.get? s.rtps n with
   | some x =>
     let r := lossOf x
     [x.rtcp.sent, x.rtcp.octets, x.rtcp.received, r.fraction, r.lost, r.high, x.rtcp.jitter, x.rtcp.rtt]
   | none => List.replicate 8 0)

/-- A teleprotection channel; its failed time in ms. -/
def tpWords (s : State) (n : Nat) : List Nat :=
  (counter s .deadlineMiss (tpFlowKey n) 1).toNat :: cwSub s .tpCmdTx n 0 4 ++ cwSub s .tpCmdRx n 0 4 ++ cwSub s .tpTestRx n 0 4 ++
  cw s n [.tpDwellAbort, .tpAmbiguous, .tpBadFrame, .tpAuthFail, .tpSeqOld, .tpLost, .tpLinkFail] ++
  [match FMap.get? s.tps n with
   | some x => (x.failNs + (if x.linkFail then now s - x.failSince else 0)) / 1000000
   | none => 0] ++
  cw s n [.tpTtOver, .tpLate] ++ cw s (tpFlowKey n) [.specDiscard] ++
  (match FMap.get? s.tps n with
   | some x => (List.range 4).flatMap (fun i => [enc 64 (FMap.getD x.ttLast i 0), enc 64 (FMap.getD x.ttMax i 0)])
   | none => List.replicate 8 0)

/-- A radio link with its antennas; frozen time in µs. -/
def linkWords (s : State) (n : Nat) : List Nat :=
  cw s (1024 + n) [.portUnderrun] ++ cw s n [.rlCodeErr, .rlDown, .rlSysrefSlip] ++
  (List.range 2).flatMap (fun a =>
    let x := antAt s n a
    cw s (2 * n + a) [.rlClip, .rlGainWr, .rlOvlStep] ++
      [x.entry, (x.frozenNs + (if x.frozen then now s - x.frozenAt else 0)) / 1000]) ++ cw s n [.txClip]

/-- A receive channel; its noise floor in 0.25 dB, which is a free value where there is none (log entry 22). -/
def rxWords (s : State) (n : Nat) : List Nat :=
  cwSub s .detQual n 5 8 ++ cwSub s .detPreLost n 5 8 ++ cwSub s .detSyncMismatch n 5 8 ++
  cw s n [.detETrig, .detENoconfirm, .detAbandonLink] ++ [match (rxc? s n).bind (fun c => if c.p.modeE then c.noiseFloor else none) with
   | some f => enc 64 (Int.fdiv (f + 12) 25)
   | none => freeWord s (16 + n)] ++
  cwSub s .detHdrCrc n 5 8 ++ cwSub s .detHdrBad n 5 8 ++ cwSub s .detFalse n 5 8 ++ cwSub s .rxFrame n 5 8 ++
  cwSub s .rxCrcFail n 5 8 ++
  cw s n [.ovlIgnored, .ovlSwitch, .ovlRecover, .ovlNoinst, .ovlThird, .secFormat, .secUnknown, .secReplay, .secMic]

/-- A transmit channel, and a talk group. -/
def txWords (s : State) (n : Nat) : List Nat := cw s n [.txFrame, .txLate, .txAborted]
def groupWords (s : State) (n : Nat) : List Nat := cw s n [.pttBlocked, .pttNogroup, .pttTxDrop]

/-- A flow. -/
def flowWords (s : State) (n : Nat) : List Nat :=
  (counter s .deadlineMiss n 1).toNat :: cw s n [.opCancel, .voidDrop, .windowStall, .specDiscard]

/-- The words of one mark (R314). -/
def markWords (s : State) (n : Nat) (q : Queue) (low : Bool) : List Nat :=
  let m := q.mark low
  let live : Bool := if low then m.value < q.level else q.level < m.value
  let nt := notice? s Ev.queueMark n low
  [b2n nt.isSome, (match nt with | some x => min x.count 65535 | none => 0), m.first, m.extreme, b2n live]

/-- A queue: counters, level, item counter, pool in use and both marks. -/
def queueWords (s : State) (n : Nat) : List Nat :=
  match queue? s n with
  | none => []
  | some q =>
    markWords s n q false ++ markWords s n q true ++ cw s n [.severed, .qFlushed, .dropRest, .qLimit] ++
      [q.level, q.itemCount, b2n (q.items.any (·.ext))]

/-- An Ethernet port. -/
def ethWords (s : State) (p : Nat) : List Nat :=
  cw s p [.udpCsum, .rxNocell, .rxRunt, .rxOversize, .rxFcs, .rxCtrl, .rxFilter, .rxUnclaimed, .txLinkDown, .txNoWindow,
    .prpWrongLan, .prpUnique, .prpSvRx] ++
  (List.range 8).flatMap (fun c =>
    [fw s .ethRxFrames p c, fw s .ethRxOctets p c, fw s .ethTxFrames p c, fw s .ethTxOctets p c]) ++
  [let e := ethPort s p
   enc 64 (fig s .lpiNs p + (if e.lpiTx then ((now s - e.lpiAt : Nat) : Int) else 0))]

/-- A PRP pair. -/
def pairWords (s : State) (n : Nat) : List Nat := cw s n [.prpDup, .prpNonPrp, .prpOutOfWindow]

/-- A TDM port. -/
def tdmWords (s : State) (t : Nat) : List Nat :=
  cw s t [.portUnderrun, .xingOverrun, .slipRxRep, .slipRxDel, .slipTxRep, .slipTxDel, .tdmFasErr, .tdmCrc, .tdmEbit, .tdmLof, .tdmLos] ++
  [fw s .tdmAlarmS t 0, fw s .tdmCrcS t 0]

/-- A ring. -/
def ringWords (s : State) (n : Nat) : List Nat :=
  match ring? s n with
  | none => []
  | some r =>
    cw s n [.dbStale, .ringFault, .evtDrop, .rxNobuf, .rxRingToobig, .rxRingGone] ++
      [r.hostIdx.toNat, r.devIdx.toNat, r.waiting.length, r.waitHigh]

/-- The live bit of a notice; that of DRAM_UE is set while no error has occurred for 24 h (R465). -/
def noticeNow (s : State) (n : Notice) : Bool :=
  if n.code = Ev.dramUe then (match s.dmc.lastUe with | some t => t + 86400000000000 ≤ now s | none => true) else n.live

/-- An outstanding notice (R409). -/
def noticeWords (s : State) (n : Notice) : List Nat :=
  [n.code, b2n n.mark, n.object, n.count, enc 64 n.value, enc 64 n.extreme, b2n (noticeNow s n)]

/-! ### Sections (R420) -/

/-- The sections in order: id, and the entries as object number and words. -/
def sections (s : State) : List (Nat × List (Nat × List Nat)) :=
  let each := fun (l : List Nat) (f : State → Nat → List Nat) => l.map (fun n => (n, f s n))
  [(1, [(0, deviceWords s)]), (2, each (List.range 17) clusterWords), (3, each (List.range 272) vpeWords),
   (4, each (FMap.keys s.chans) chanWords), (5, each (FMap.keys s.rtps) rtpWords), (6, each (FMap.keys s.tps) tpWords),
   (7, each ((List.range 8).filter (linkEnabled s)) linkWords), (8, each (FMap.keys s.rxcs) rxWords),
   (9, each (FMap.keys s.txcs) txWords), (10, each (FMap.keys s.groups) groupWords),
   (11, each ((FMap.keys s.fsc.flows).filter (· < 65536)) flowWords), (12, each (FMap.keys s.qmg.queues) queueWords),
   (13, each (List.range 32) ethWords), (14, each ((List.range 16).filter (prpEnabled s)) pairWords),
   (15, each (List.range 192) tdmWords), (16, each (FMap.keys s.hif.rings) ringWords),
   (17, s.hif.notices.map (fun n => (n.object, noticeWords s n)))]

/-- The octets of an entry. -/
def entryOctets (e : Nat × List Nat) : Bytes := toLE 8 e.1 ++ e.2.flatMap (toLE 8)

/-- The octets of a section. -/
def sectionOctets (id : Nat) (l : List (Nat × List Nat)) : Bytes :=
  let size := match l with | e :: _ => 8 + 8 * e.2.length | [] => 0
  toLE 2 id ++ toLE 2 size ++ toLE 4 l.length ++ zeros 8 ++ l.flatMap entryOctets

/-- Octets of a section. -/
def sectionLen (l : List (Nat × List Nat)) : Nat := 16 + (l.map (fun e => 8 + 8 * e.2.length)).sum

/-- Sections and entries in order until the block is full: their octets, how many sections, and whether any were
left out. -/
def fillBlock (room : Nat) (l : List (Nat × List (Nat × List Nat))) : Bytes × Nat × Bool :=
  match l with
  | [] => ([], 0, false)
  | (id, es) :: r =>
    if room < 16 then ([], 0, true)
    else if sectionLen es ≤ room then
      let (b, n, t) := fillBlock (room - sectionLen es) r
      (sectionOctets id es ++ b, n + 1, t)
    else
      let one := match es with | e :: _ => 8 + 8 * e.2.length | [] => 8
      (sectionOctets id (es.take ((room - 16) / one)), 1, true)

/-- Octets of a buffer, and of the whole block if it had room. -/
def statsSize (s : State) : Nat := 4096 * fld s .statsCfg 0 13 0
def statsNeed (s : State) : Nat := 64 + ((sections s).map (fun e => sectionLen e.2)).sum + 8

/-- The block of a number: header, body and trailer (R419). -/
def statsBlock (s : State) (seq : Nat) : Bytes :=
  let (body, n, cut) := fillBlock (statsSize s - 72) (sections s)
  toLE 4 0x53544231 ++ toLE 1 (fld s .statsCtrl 0 7 0) ++ toLE 1 (b2n cut + 2 * b2n s.hif.statsBuf) ++ toLE 2 n ++ toLE 8 seq ++
    toLE 8 (devTime s) ++ toLE 4 (64 + body.length + 8) ++ zeros 36 ++ body ++ toLE 8 seq

/-- Extremes begin again with the block (R277, R344, R425, R544). -/
def resetHighs (s : State) : State :=
  let s1 := { s with
    figs := s.figs.filter (fun e => !([Fig.fscFlight, .fscReady, .fscSlots, .overlapHigh, .backlogHigh].contains e.1.fig))
    hif := { s.hif with rings := FMap.mapV s.hif.rings (fun _ r => { r with waitHigh := r.waiting.length }) }
    free := s.free + 4096 }
  putFig .tempLow 0 0 s.avl.tempDeciC (putFig .tempHigh 0 0 s.avl.tempDeciC
    (keepHigh .fscFlight (inFlight s) (keepHigh .fscReady (readyEntries s) (keepHigh .fscSlots (slotsUsed s)
      (keepHigh .overlapHigh (poolUsed s) (keepHigh .backlogHigh (backlogBytes s) s1))))))

/-- STATS_TRUNCATED follows the threshold rule (R409, R411). -/
def truncated (s : State) : State :=
  let cut : Bool := statsSize s < statsNeed s
  let s1 := { s with hif := { s.hif with statsFit := !cut } }
  if cut && s.hif.statsFit then crossed Ev.statsTruncated 0 0 (statsNeed s) none false s1
  else noticeLive Ev.statsTruncated 0 false (some (statsNeed s)) (!cut) s1

/-- A block is written into the next buffer, and its vector counts it. -/
def writeStats (s : State) : State :=
  let seq := s.hif.statsSeq + 1
  let s1 := { s with hif := { s.hif with
      statsSeq := seq, statsBuf := !s.hif.statsBuf, stats := some (b2n s.hif.statsBuf, statsBlock s seq) } }
  resetHighs (truncated (if flag s .statsCtrl 0 8 then msixCount (fld s .statsCtrl 0 14 9) s1 else s1))

/-- Whether a block is due (R419). -/
def statsDue (s : State) : Bool :=
  let p := fld s .statsCfg 0 25 16
  barOpen s && p ≠ 0 && s.hif.statsAt + 10000000 * p ≤ now s

/-- STATS_BLOCK (R419): a block whose write fails is abandoned, and the next follows at its period (R399). -/
def execStatsBlock (t : Ns) (ok : Bool) (s : State) : Answer :=
  let s1 := advance t s
  let s2 := { s1 with hif := { s1.hif with statsAt := now s1 } }
  .next (onlyIf (statsDue s1) (if ok then writeStats s2 else bump .hifDmaErr 0 s2) s1)

end Sys2Proof.Machine
end

