-- ==== Sys2Proof/Machine/TdmLine.lean ====
section
/-! DEFINITION. The frames of E1 and T1 lines: framing words and bits, CRC-4 and CRC-6, E bits, robbed-bit and TS16 signalling, the
remote alarm (R352, R353, R355, R356). -/

namespace Sys2Proof.Machine

open Sys2Proof

/-! ### Check bits -/

/-- One more bit under the polynomials of G.704, x⁴ + x + 1 and x⁶ + x + 1 (log entry 113); `n` is the degree. -/
def crcBit (n acc : Nat) (b : Bool) : Nat := (acc * 2 % 2 ^ n) ^^^ (if acc.testBit (n - 1) != b then 3 else 0)

/-- The octets of a frame, each most significant bit first. -/
def crcOctets (n acc : Nat) (l : Bytes) : Nat :=
  l.foldl (fun a o => ([7, 6, 5, 4, 3, 2, 1, 0] : List Nat).foldl (fun c i => crcBit n c (o.toNat.testBit i)) a) acc

/-- CRC-4 goes on over an E1 frame; the check bits themselves, bit 1 of the frames with FAS, count as 0. -/
def crc4Frame (acc : Nat) (fas : Bool) (l : Bytes) : Nat :=
  crcOctets 4 acc (match l with | o :: r => (if fas then o &&& 0x7F else o) :: r | [] => [])

/-- CRC-6 goes on over a T1 frame; frame bits count as 1. -/
def crc6Frame (acc : Nat) (l : Bytes) : Nat := crcOctets 6 (crcBit 6 acc true) l

/-! ### Patterns -/

/-- Bit 1 of the E1 frames without FAS that carry the CRC-4 multiframe alignment: 0 0 1 0 1 1 in frames 1 to 11. -/
def mfasBit (k : Nat) : Bool := k == 5 || k == 9 || k == 11

/-- The 12 frame bits of D4 from frame 1: Ft in the odd frames, Fs in the even ones. -/
def d4Bits : List Bool := [true, false, false, false, true, true, false, true, true, true, false, false]

/-- The FPS bits of ESF, in frames 4, 8 … 24. -/
def fpsBits : List Bool := [false, false, true, false, true, true]

/-- Whether the T1 frame at place `k`, from 0, carries a framing bit that is checked, and that bit. -/
def t1Framing (esf : Bool) (k : Nat) : Option Bool :=
  if esf then (if k % 4 = 3 then fpsBits[k / 4]? else none) else if k % 2 = 0 then d4Bits[k]? else none

/-- Frames of a signalling multiframe. -/
def mfLen (s : State) (t : Nat) : Nat := if isE1 s t then 16 else if t1Esf s t then 24 else 12

/-! ### What a framer sends -/

/-- Transmit ABCD of a timeslot: 0b1101 at port set-up. -/
def txAbcdOf (p : TdmPort) (slot : Nat) : Nat := FMap.getD p.txAbcd slot 0b1101

/-- Whether the remote alarm is sent, and the y bit of E1 CAS (R355). -/
def raiSent (s : State) (t : Nat) : Bool := flag s .tdmFramerCfg t 6 && (tdmPort s t).failed
def ySent (s : State) (t : Nat) : Bool := flag s .tdmFramerCfg t 6 && (tdmPort s t).lomf

/-- An E bit: 0 for an errored submultiframe, and while the port has no CRC-4 multiframe to check (log entry 113). -/
def eBit (p : TdmPort) (err : Bool) : Bool := !p.crc4Off && p.rx.place.isSome && !err

/-- Bit 1 of an E1 frame's TS0: a check bit, the multiframe alignment, an E bit, or 1 without CRC-4. -/
def e1Bit1 (s : State) (t k : Nat) : Bool :=
  let p := tdmPort s t
  if fld s .tdmFramerCfg t 2 1 = 0 then true
  else if k % 2 = 0 then p.tx.check.testBit (3 - k / 2 % 4)
  else if k = 13 then eBit p p.tx.err1
  else if k = 15 then eBit p p.tx.err2
  else mfasBit k

/-- TS0 of an E1 frame: FAS in alternate frames, else the NFAS bits. -/
def e1Ts0 (s : State) (t k : Nat) : Byte :=
  BitVec.ofNat 8 (128 * b2n (e1Bit1 s t k) +
    (if k % 2 = 0 then 0x1B else 0x40 + 32 * b2n (raiSent s t) + fld s .tdmFramerCfg t 11 7))

/-- TS16 of an E1 frame with CAS: the multiframe alignment word, or the ABCD of two timeslots. -/
def e1Ts16 (s : State) (t k : Nat) : Byte :=
  let p := tdmPort s t
  BitVec.ofNat 8 (if k = 0 then 0x0B + 4 * b2n (ySent s t) else 16 * txAbcdOf p k + txAbcdOf p (k + 16))

/-- A timeslot of a T1 frame on the line: bit 8 is robbed in signalling frames, and bit 2 is 0 for the remote alarm of
D4. -/
def t1Byte (s : State) (t slot k : Nat) (b : Byte) : Byte :=
  let p := tdmPort s t
  let v := txAbcdOf p slot
  let i := if (k + 1) % 6 = 0 then (k + 1) / 6 - 1 else 4
  let b1 := if t1Rbs s t && i < 4 then (b &&& 0xFE) ||| BitVec.ofNat 8 (b2n (v.testBit (3 - i))) else b
  if raiSent s t && !t1Esf s t then b1 &&& 0xBF else b1

/-- The frame bit of a T1 frame: a framing bit, a CRC-6 bit, or the data link with its remote alarm. -/
def t1Bit (s : State) (t k : Nat) : Bool :=
  let x := (tdmPort s t).tx
  if !t1Esf s t then d4Bits.getD k false
  else if k % 4 = 3 then fpsBits.getD (k / 4) false
  else if k % 4 = 1 then x.check.testBit (5 - k / 4)
  else if raiSent s t then x.fdl < 8 else true

/-- The timeslots of a frame on the line, made of what the fabric gives. -/
def onLine (s : State) (t k : Nat) (pay : List (Option Byte)) : List (Option Byte) :=
  pay.zipIdx.map (fun e =>
    if isE1 s t && e.2 = 0 then some (e1Ts0 s t k)
    else if e1Cas s t && e.2 = 16 then some (e1Ts16 s t k)
    else if isT1 s t then e.1.map (t1Byte s t e.2 k) else e.1)

/-- The framer after a frame has been sent. -/
def txFramed (s : State) (t : Nat) (out : List (Option Byte)) : TxFramer :=
  let x := (tdmPort s t).tx
  let k := x.place
  let l := out.map (fun b => b.getD 0)
  let acc := if isE1 s t then crc4Frame x.acc (k % 2 = 0) l else crc6Frame x.acc l
  let ends : Bool := if isE1 s t then k % 8 = 7 else k + 1 = mfLen s t
  { place := (k + 1) % mfLen s t, acc := if ends then 0 else acc, check := if ends then acc else x.check
    fdl := if !raiSent s t then 0 else if k % 2 = 0 then (x.fdl + 1) % 16 else x.fdl
    err1 := x.err1 && k ≠ 13, err2 := x.err2 && k ≠ 15 }

/-- A frame leaves on the line. ABCD values set since the last multiframe go into a new one (R356); all ones go out under tx_ais
(R355). A MIRROR leaves every timeslot at high impedance (R511). -/
def sendLine (t : Nat) (pay : List (Option Byte)) (s0 : State) : State :=
  let k := (tdmPort s0 t).tx.place
  let s := if k = 0 then
      withTdm t (fun p => { p with txAbcd := p.txAbcdNext.foldl (fun m e => FMap.set m e.1 e.2) p.txAbcd, txAbcdNext := [] }) s0
    else s0
  let l := onLine s t k pay
  let ais := framed s t && flag s .tdmFramerCfg t 12
  let mirror := s.twin.role = 1
  withTdm t (fun p => { p with
    txOut := if mirror then l.map (fun _ => none) else if ais then l.map (fun _ => some 0xFF) else l
    txBit := if mirror || !isT1 s t then none else some (ais || t1Bit s t k)
    tx := if framed s t then txFramed s t l else p.tx }) s

end Sys2Proof.Machine
end

