-- ==== Sys2Proof/Machine/Tdm.lean ====
section
/-! DEFINITION. TDM frames, slips, alarms and signalling (R347 to R360). -/

namespace Sys2Proof.Machine

open Sys2Proof

/-! ### Slip buffers (R349, R350) -/

/-- Whether a port has a slip buffer in use in a direction (R349). -/
def slipBuffer (s : State) (t : Nat) (tx : Bool) : Bool :=
  match tdmMode s t with
  | 1 => !flag s .tdmPortCfg t 4
  | 2 | 3 => !tx || flag s .tdmFramerCfg t 0
  | _ => false

/-- The slip of a buffer whose delay, in ns, would leave its bounds of 1/8 and 15/8 frame: repeat or delete. -/
def slipKind (delay : Int) : Option Bool := if 234375 < delay then some true else if delay < 15625 then some false else none

/-- The delay after a slip: deletion takes a frame away, repetition adds one. -/
def delayAfter (delay : Int) : Int :=
  match slipKind delay with
  | some true => delay - frameNs
  | some false => delay + frameNs
  | none => delay

/-- What the receive buffer gains with a frame: a frame of the grid less the time since the last frame began, in device time. A
time step moves the grid by whole frames for this purpose (log entry 113). -/
def rxGain (s : State) (p : TdmPort) (f : TdmFrame) : Int :=
  match p.rxStart with
  | some a => Int.emod (frameNs - ((devOf s f.start : Int) - a) + frameNs / 2) frameNs - frameNs / 2
  | none => 0

/-- The delay that a frame would give a buffer; it is held at one frame while the line has failed (R358) and where it is not in
use. -/
def nextDelay (s : State) (t : Nat) (tx : Bool) (old gain : Int) : Int :=
  if slipBuffer s t tx && !(tdmPort s t).failed then old + gain else frameNs

/-- A slip counts and raises TDM_SLIP: direction × 2 + kind, receive 0 and transmit 1 (log entry 25). -/
def slip (t : Nat) (tx del : Bool) (s : State) : State :=
  let c := match tx, del with
    | false, false => Ctr.slipRxRep | false, true => Ctr.slipRxDel | true, false => Ctr.slipTxRep | true, true => Ctr.slipTxDel
  crossed Ev.tdmSlip t (2 * b2n tx + b2n del) 0 none false
    (bump c t (withTdm t (fun p => { p with slipAt := some (now s) }) s))

/-- The live bit of TDM_SLIP: no slip in the last 10 s. -/
def slipLive (t : Nat) (s : State) : State :=
  match (tdmPort s t).slipAt with
  | some a => if a + 10000000000 ≤ now s then noticeLive Ev.tdmSlip t false none true s else s
  | none => s

/-! ### Alarms (R354, R355, R357) -/

/-- Whether an alarm holds, and a change to it. -/
def alarmOf (p : TdmPort) : TdmAlarm → Bool
  | .los => p.los | .ais => p.ais | .lof => p.lof | .lomf => p.lomf | .rai => p.rai
def setAlarm (p : TdmPort) (v : Bool) : TdmAlarm → TdmPort
  | .los => { p with los := v } | .ais => { p with ais := v } | .lof => { p with lof := v }
  | .lomf => { p with lomf := v } | .rai => { p with rai := v }

/-- The code of an alarm in TDM_ALARM (R409). -/
def alarmCode : TdmAlarm → Nat
  | .los => 1 | .ais => 2 | .lof => 3 | .lomf => 4 | .rai => 5

/-- An alarm is declared or clears: the notice, the counters, the seconds in alarm, and the TDM reference, which stays
unavailable for 10 s after the line has come back. A framer that has lost its alignment begins again. -/
def alarmChange (t : Nat) (a : TdmAlarm) (v : Bool) (at_ : Ns) (s : State) : State :=
  let p := tdmPort s t
  if alarmOf p a = v then s
  else
    let q := setAlarm p v a
    let q1 := { q with lastAlarm := if v then alarmCode a else q.lastAlarm, candAbcd := []
                       rx := if v && a = .lof then RxFramer.initial
                             else if v && a = .lomf then { q.rx with place := none, first := none, seen := [], cas := none } else q.rx
                       crc4Off := if v && a = .lof then false else q.crc4Off
                       alarmSince := if !q.alarmed then none else if p.alarmed then q.alarmSince else some at_ }
    let s1 := withTdm t (fun _ => q1) s
    let s2 := match p.alarmSince with
      | some b => if q.alarmed then s1 else addFig .tdmAlarmS t 0 ((at_ - b) / 1000000000 : Nat) s1
      | none => s1
    let s3 := match v, a with
      | true, .lof => bump .tdmLof t s2
      | true, .los => bump .tdmLos t s2
      | _, _ => s2
    let s4 := if p.failed && !q.failed then
        { s3 with clk := { s3.clk with tdmHold := FMap.set s3.clk.tdmHold t (at_ + 10000000000) } }
      else s3
    updateRefs (crossed Ev.tdmAlarm t q1.lastAlarm 0 none (!q.alarmed) s4)

/-! ### Signalling (R356) -/

/-- Received ABCD of a timeslot; before the first change it is a free value (log entry 5). -/
def rxAbcdOf (s : State) (t slot : Nat) : Nat :=
  FMap.getD (tdmPort s t).rxAbcd slot (Config.unstated 356 (t * 32 + slot) % 16)

/-- Body of CAS_CHANGE. -/
def casBody (t slot abcd prev time : Nat) : Bytes :=
  padTo 48 (toLE 1 t ++ toLE 1 slot ++ toLE 1 (abcd + 16 * prev) ++ zeros 1 ++ toLE 8 time)

/-- One received ABCD value of a multiframe: a new value seen in two consecutive multiframes is the change. -/
def casStep (t : Nat) (mf : Ns) (e : Nat × Nat) (s : State) : State :=
  let v := e.2 % 16
  let old := rxAbcdOf s t e.1
  if !slotAvail s t e.1 then s
  else if v = old then withTdm t (fun p => { p with candAbcd := FMap.del p.candAbcd e.1 }) s
  else if FMap.get? (tdmPort s t).candAbcd e.1 = some v then
    raise Ev.casChange none (casBody t e.1 v old (devOf s mf))
      (withTdm t (fun p => { p with rxAbcd := FMap.set p.rxAbcd e.1 v, candAbcd := FMap.del p.candAbcd e.1 }) s)
  else withTdm t (fun p => { p with candAbcd := FMap.set p.candAbcd e.1 v }) s

/-- TDM_CAS_SET's own check. -/
def casSetStatus (s : State) (port slot : Nat) : Nat :=
  if port < 64 && (e1Cas s port || t1Rbs s port) && slotAvail s port slot then St.ok else St.badParam

/-- TDM_CAS_SET (R356). -/
def execTdmCasSet (h : CmdHdr) (port : Nat) (slot : Nat) (abcd : BitVec 4) (s : State) : Answer :=
  .next (runCmd (plainCmd 0x0181 2) h (fun s1 =>
    checked (casSetStatus s1 port slot)
      (withTdm port (fun p => { p with txAbcdNext := FMap.set p.txAbcdNext slot abcd.toNat }) s1) s1) s)

/-! ### The framer (R352, R353, R355) -/

/-- Change what the framer of a port knows. -/
def withRx (t : Nat) (f : RxFramer → RxFramer) (s : State) : State := withTdm t (fun p => { p with rx := f p.rx }) s

/-- Whether CRCs are checked on a port. -/
def crcChecked (s : State) (t : Nat) : Bool :=
  if isE1 s t then fld s .tdmFramerCfg t 2 1 ≠ 0 && !(tdmPort s t).crc4Off else isT1 s t && t1Esf s t

/-- CRC errors count, and so does the second that holds them. -/
def countCrc (t n : Nat) (s : State) : State :=
  if n = 0 then s
  else
    let sec := devTime s / 1000000000
    let s1 := bumpN .tdmCrc t 0 n s
    if (tdmPort s t).crcSecond = some sec then s1
    else addFig .tdmCrcS t 0 1 (withTdm t (fun p => { p with crcSecond := some sec }) s1)

/-- Whether alignment is lost: three FAS in a row, or two of four framing bits of T1, in error. -/
def alignmentLost (e1 : Bool) (errs : List Bool) : Bool := if e1 then errs.take 3 == [true, true, true] else 2 ≤ errs.count true

/-- A FAS word or a framing bit has been read. -/
def framingRead (t : Nat) (err : Bool) (s : State) : State :=
  let l := (err :: (tdmPort s t).rx.errs).take 4
  let s1 := bumpN .tdmFasErr t 0 (b2n err) (withRx t (fun r => { r with errs := l }) s)
  if alignmentLost (isE1 s t) l then alarmChange t .lof true (now s) s1 else s1

/-- A block of the check ends, with the check bits received in it: they answer for the block before. An errored CRC-4 block is
reported in an E bit, and 915 of 1 000 lose the alignment. -/
def blockRead (t k got : Nat) (acc : Option Nat) (s : State) : State :=
  let r := (tdmPort s t).rx
  let err : Bool := acc.isSome && r.want.any (fun w => w != got)
  let s1 := countCrc t (b2n err) (withRx t (fun q => { q with want := acc, acc := none, got := 0 }) s)
  if !isE1 s t then s1
  else
    let s2 := withTdm t (fun p => { p with
      rx := { p.rx with blocks := (r.blocks + 1) % 1000, bad := if r.blocks + 1 = 1000 then 0 else r.bad + b2n err }
      tx := if k < 8 then { p.tx with err1 := p.tx.err1 || err } else { p.tx with err2 := p.tx.err2 || err } }) s1
    if 915 ≤ r.bad + b2n err then alarmChange t .lof true (now s) s2 else s2

/-- Look for the CRC-4 multiframe: two alignment signals within 8 ms, a whole number of multiframes apart. -/
def RxFramer.seekCrc4 (r : RxFramer) (fas b1 : Bool) : RxFramer :=
  let first := r.first.bind (fun n => if n < 64 then some (n + 1) else none)
  if fas then { r with first }
  else
    let l := (b1 :: r.seen).take 6
    if l.reverse ≠ [false, false, true, false, true, true] then { r with seen := l, first }
    else if first.any (fun n => n % 16 = 0) then { r with seen := [], first := none, place := some 12, acc := none, want := none, got := 0 }
    else { r with seen := l, first := some 0 }

/-- CRC-4 and the E bits of a received frame. -/
def crc4In (t : Nat) (slots : Bytes) (fas : Bool) (s : State) : State :=
  let b1 := (byteAt slots 0).testBit 7
  let r := (tdmPort s t).rx
  match r.place with
  | none => withRx t (fun q => q.seekCrc4 fas b1) s
  | some k =>
    let acc := (if k % 8 = 0 then some 0 else r.acc).map (fun a => crc4Frame a fas slots)
    let got := if fas then 2 * r.got + b2n b1 else r.got
    let s1 := withRx t (fun q => { q with place := some ((k + 1) % 16), acc, got }) s
    let s2 := bumpN .tdmEbit t 0 (b2n ((k == 13 || k == 15) && !b1)) s1
    if k % 8 = 7 then blockRead t k got acc s2 else s2

/-- The signalling multiframe of TS16 in a received frame. -/
def ts16In (t : Nat) (f : TdmFrame) (s : State) : State :=
  let o := byteAt f.slots 16
  let r := (tdmPort s t).rx
  let begin_ := withRx t (fun q => { q with cas := some 1, start := f.start, abcd := [] }) s
  match r.cas with
  | none => if o / 16 = 0 then begin_ else s
  | some 0 => begin_
  | some k =>
    let l := FMap.set (FMap.set r.abcd k (o / 16)) (k + 16) (o % 16)
    let s1 := withRx t (fun q => { q with cas := some ((k + 1) % 16), abcd := l }) s
    if k = 15 then l.foldl (fun u e => casStep t r.start e u) s1 else s1

/-- A received E1 frame. -/
def e1In (t : Nat) (f : TdmFrame) (s : State) : State :=
  let o := byteAt f.slots 0
  let fas := (tdmPort s t).rx.fas.getD (!o.testBit 6)
  let s0 := withRx t (fun r => { r with fas := some (!fas) }) s
  let s1 := if fas then framingRead t (o % 128 != 0x1B) s0 else s0
  if (tdmPort s1 t).failed then s1
  else
    let s2 := if fas then s1 else withTdm t (fun p => { p with saRx := o % 32 }) s1
    let s3 := if crcChecked s t then crc4In t f.slots fas s2 else s2
    if e1Cas s t && !(tdmPort s3 t).failed then ts16In t f s3 else s3

/-- Look for the multiframe of T1 in the frame bits. -/
def RxFramer.seekT1 (r : RxFramer) (esf b : Bool) : RxFramer :=
  let l := (b :: r.seen).take (if esf then 24 else 12)
  let old := l.reverse
  let found : Bool := if esf then old.length == 24 && (List.range 6).map (fun i => old.getD (4 * i + 3) false) == fpsBits else old == d4Bits
  if found then { r with seen := [], place := some 0, errs := [], acc := none, want := none, got := 0, abcd := [] } else { r with seen := l }

/-- Check bits and robbed bits of a T1 frame at place `k`; in D4 the values of C and D are those of A and B. -/
def t1Body (t k : Nat) (f : TdmFrame) (s : State) : State :=
  let esf := t1Esf s t
  let r := (tdmPort s t).rx
  let acc := (if k = 0 then some 0 else r.acc).map (fun a => crc6Frame a f.slots)
  let got := if k % 4 = 1 then 2 * r.got + b2n f.fbit else r.got
  let rob := if t1Rbs s t && (k + 1) % 6 = 0 then
      (List.range 24).foldl (fun m i => FMap.set m i (2 * FMap.getD m i 0 + byteAt f.slots i % 2)) r.abcd
    else r.abcd
  let last : Bool := k + 1 = mfLen s t
  let s1 := withRx t (fun q => { q with acc, got, abcd := if last then [] else rob }) s
  if !last then s1
  else
    let s2 := if esf then blockRead t k got acc s1 else s1
    if t1Rbs s t then rob.foldl (fun u e => casStep t r.start (e.1, if esf then e.2 else 5 * e.2) u) s2 else s2

/-- A received T1 frame. -/
def t1In (t : Nat) (f : TdmFrame) (s : State) : State :=
  let esf := t1Esf s t
  match (tdmPort s t).rx.place with
  | none => withRx t (fun r => r.seekT1 esf f.fbit) s
  | some k =>
    let s0 := withRx t (fun r => { r with place := some ((k + 1) % mfLen s t), start := if k = 0 then f.start else r.start }) s
    let s1 := match t1Framing esf k with
      | some b => framingRead t (f.fbit != b) s0
      | none => s0
    if (tdmPort s1 t).failed then s1 else t1Body t k f s1

/-- What the framer finds in a frame, ahead of the slip buffer (R351); without frame alignment it finds nothing. -/
def framerIn (t : Nat) (f : TdmFrame) (s : State) : State :=
  if !framed s t || (tdmPort s t).lof then s else if isE1 s t then e1In t f s else t1In t f s

/-! ### Received frames (R347, R350, R355) -/

/-- A frame enters the crossing to the fabric (R32); the fifth that waits is dropped whole and counts (R33). -/
def crossIn (t : Nat) (d : Bytes) (s : State) : State :=
  if 4 ≤ (tdmPort s t).rxFifo.length then bump .xingOverrun t s
  else withTdm t (fun p => { p with rxFifo := p.rxFifo ++ [d] }) s

/-- A received frame is presented: whole, or as idle bytes while the line has failed (R355). A slip presents the last whole frame
once more before it, or takes the frame away (R350). -/
def tdmIn (t : Nat) (f : TdmFrame) (s : State) : State :=
  let s1 := slipLive t (framerIn t f s)
  let n := slotCount s t
  let p := tdmPort s1 t
  let d := nextDelay s1 t false p.rxDelay (rxGain s1 p f)
  let take := fun (x : Bytes) (u : State) => crossIn t x (withTdm t (fun q => { q with rxSlots := x }) u)
  let s2 := withTdm t (fun q => { q with rxStart := some (devOf s1 f.start : Int), rxDelay := delayAfter d }) s1
  if p.failed then take (List.replicate n (idleByte s t)) s2
  else
    match slipKind d with
    | some true => slip t false true s2
    | some false => take (padTo n f.slots) (crossIn t p.rxSlots (slip t false false s2))
    | none => take (padTo n f.slots) s2

/-- TDM_RX_FRAME (R348). -/
def execTdmRxFrame (port : Nat) (frame : TdmFrame) (s : State) : Answer :=
  .next (onlyIf (alive s && port < 192 && tdmMode s port ≠ 0) (tdmIn port frame s) s)

/-! ### Transmitted frames (R31, R347, R352, R353, R355) -/

/-- What the fabric gives one timeslot of a transmit frame, and whether it is an underrun. -/
def slotOut (s : State) (t slot : Nat) : Option Byte × Bool :=
  match toneOctet s t slot with
  | some b => (some b, false)
  | none =>
    if slotHeld s t slot then
      match FMap.getD (tdmPort s t).txFifo slot [] with
      | b :: _ => (some b, false)
      | [] => (some (idleByte s t), true)
    else if tdmMode s t = 1 && flag s .tdmPortCfg t 9 then (none, false)
    else (some (idleByte s t), false)

/-- A port takes a transmit frame (R348): timeslots whose byte is not there are underruns. It leaves in line timing: after the last
one once more, or not at all, at a slip (R350, R351). `drift` is what the slip buffer's delay has changed by since the last frame, in
ns. -/
def tdmOut (t : Nat) (drift : Int) (s : State) : State :=
  let p := tdmPort s t
  let l := (List.range (slotCount s t)).map (slotOut s t)
  let pay := l.map (·.1)
  let d := nextDelay s t true p.txDelay drift
  let s1 := tonesSent t (slipLive t (bumpN .portUnderrun t 0 (l.filter (·.2)).length s))
  let s2 := withTdm t (fun q => { q with txFifo := FMap.mapV q.txFifo (fun _ x => x.drop 1), txPay := pay, txDelay := delayAfter d }) s1
  match slipKind d with
  | some true => slip t true true s2
  | some false => sendLine t pay (sendLine t p.txPay (slip t true false s2))
  | none => sendLine t pay s2

/-- TDM_TX_FRAME (R348). -/
def execTdmTxFrame (port : Nat) (drift : Int) (s : State) : Answer :=
  .next (onlyIf (alive s && port < 192 && tdmMode s port ≠ 0) (tdmOut port drift s) s)

/-! ### Events of the framer (R352, R354) -/

/-- TDM_ALARM (R354). -/
def execTdmAlarm (port : Nat) (alarm : TdmAlarm) (declared : Bool) (t : Ns) (s : State) : Answer :=
  let s1 := advance t s
  .next (onlyIf (alive s1 && port < 64 && framed s1 port && !(alarm = .lomf && isT1 s1 port))
    (alarmChange port alarm declared t s1) s1)

/-- CRC4_AUTO_TIMEOUT (R352): no CRC-4 multiframe alignment within 400 ms of frame alignment. -/
def execCrc4AutoTimeout (port : Nat) (s : State) : Answer :=
  .next (onlyIf (alive s && port < 64 && isE1 s port && fld s .tdmFramerCfg port 2 1 = 2 && !(tdmPort s port).lof)
    (withTdm port (fun p => { p with crc4Off := true }) s) s)

end Sys2Proof.Machine
end

