-- ==== Sys2Proof/Machine/Tp.lean ====
section
/-! DEFINITION. The commands and steps of the teleprotection channels (R112 to R137). -/

namespace Sys2Proof.Machine

open Sys2Proof

/-! ### Set-up, change and release (R115, R116) -/

/-- Whether two channels share a receive key (R85). -/
def sameTpKey (p q : TpParams) : Bool :=
  p.transport = q.transport &&
  (if p.transport = 0 then
     p.etherType = q.etherType && p.vlanEn = q.vlanEn && (!p.vlanEn || p.vlanId = q.vlanId) && p.rxLink = q.rxLink
   else
     addrOf (p.transport = 2) p.localAddr = addrOf (q.transport = 2) q.localAddr && p.localPort = q.localPort)

/-- The balls that a channel uses, and those that parameters waiting for its next decision name (R115, R116). -/
def Tp.balls (x : Tp) : List Nat := x.p.balls ++ (match x.next with | some q => q.balls | none => [])

/-- The checks that TP_SETUP and TP_MODIFY share (R115). -/
def tpParamsOk (s : State) (b : Bytes) : Bool :=
  let p := tpParams b
  tpBlockOk b &&
  (p.src ≠ 1 || (groupFits s p.srcPort p.srcSlot p.srcLaw && groupFree s (65536 + p.tp) p.srcPort p.srcSlot p.srcLaw)) &&
  (p.sink ≠ 1 || (groupFits s p.sinkPort p.sinkSlot p.sinkLaw && groupFree s (65536 + p.tp) p.sinkPort p.sinkSlot p.sinkLaw)) &&
  !s.tps.any (fun e => e.1 != p.tp && (e.2.balls.any (fun i => p.balls.contains i) || sameTpKey e.2.p p)) &&
  !s.rtps.any (fun e => keyMeetsTp e.2.p p)

/-- TP_SETUP's own check. -/
def tpSetupStatus (s : State) (b : Bytes) : Nat :=
  if tpParamsOk s b && (tp? s (tpParams b).tp).isNone then St.ok else St.badParam

/-- A channel as TP_SETUP leaves it: QUIET, no command, a random first sequence number (R127). -/
def Tp.fresh (p : TpParams) (ring : Nat) (seq : BitVec 32) (t : Ns) : Tp :=
  { p, next := none, ring, txKey := none, rxKey := none, st := .quiet, cmd := 0, dwellSet := 0, dwellAt := 0
    absentSince := none, presentSince := none, toneGone := none, hostCmd := none, held := none, seq, changes := 0
    confirmedAt := none, sentCmd := 0, test := none, rxSeq := none, sinkCmd := 0, riseAt := [], pendFall := 0
    fallInfo := none, lastRx := t, linkFail := false, closed := false, failNs := 0, failSince := 0, ttLast := [], ttMax := []
    ttu := Fdc.start (ttuFilter p.srcLaw), ttuSkip := (ttuFilter p.srcLaw).unsettled, ttuIn := [], sinkPhase := [] }

/-- Set a channel up with its flow (R112); its sink balls take their inactive level (R529). -/
def setupTp (ring : Nat) (b : Bytes) (s : State) : State :=
  let p := tpParams b
  let (home, s1) := chooseHome s 31
  let d := drawBytes 4 s1
  addFlow (tpFlowKey p.tp) (tpFlow s ring home)
    (driveBalls { d.2 with tps := FMap.set d.2.tps p.tp (Tp.fresh p ring (BitVec.ofNat 32 (leNat d.1)) (now s)) })

/-- TP_SETUP (R115). -/
def execTpSetup (h : CmdHdr) (s : State) : Answer :=
  .next (runCmd (blockCmd 0x0121 2 128 true) h
    (fun s1 => checked (tpSetupStatus s1 (blk h)) (setupTp h.ring (blk h) s1) s1) s)

/-- Whether a change keeps what R116 fixes: source, sink, their ports, slots and laws, transport and receive key. -/
def tpKeeps (p q : TpParams) : Bool :=
  p.src = q.src && p.sink = q.sink && p.srcPort = q.srcPort && p.srcSlot = q.srcSlot && p.srcLaw = q.srcLaw &&
  p.sinkPort = q.sinkPort && p.sinkSlot = q.sinkSlot && p.sinkLaw = q.sinkLaw && sameTpKey p q

/-- TP_MODIFY's own check (R116). -/
def tpModifyStatus (s : State) (b : Bytes) : Nat :=
  match tp? s (tpParams b).tp with
  | none => St.badParam
  | some x => if tpParamsOk s b && tpKeeps (tpParams b) x.p then St.ok else St.badParam

/-- TP_MODIFY (R116): the parameters wait for the next decision. -/
def execTpModify (h : CmdHdr) (s : State) : Answer :=
  .next (runCmd (blockCmd 0x0122 2 128 true) h (fun s1 =>
    checked (tpModifyStatus s1 (blk h))
      (withTp (tpParams (blk h)).tp (fun x => { x with next := some (tpParams (blk h)) }) s1) s1) s)

/-- Parameters that wait are taken on: a held frame is discarded and a dwell starts afresh (R116). -/
def tpTakeNext (n : Nat) (s : State) : State :=
  match tp? s n with
  | none => s
  | some x =>
    match x.next with
    | none => s
    | some p =>
      driveBalls (withTp n (fun y =>
        { y with p, next := none, st := if y.st = .dwell then (if y.cmd = 0 then .quiet else .command) else y.st })
        (tpDiscard n s))

/-- The counters a channel keeps (R137). -/
def tpCtrs : List Ctr :=
  [.tpCmdTx, .tpCmdRx, .tpTestRx, .tpDwellAbort, .tpAmbiguous, .tpBadFrame, .tpAuthFail, .tpSeqOld, .tpLost, .tpLinkFail,
   .tpTtOver, .tpLate]

/-- Release a channel: the held frame is discarded, one frame with closing set goes out, and its balls are freed
(R116). -/
def releaseTp (n : Nat) (s : State) : State :=
  let s1 := withTp n (fun y => { y with test := none }) (tpDiscard n s)
  let s2 := tpSend n (match tp? s1 n with | some x => x.cmd | none => 0) true (BitVec.ofNat 64 (devTime s1)) s1
  driveBalls <| withFsc (fun c => { c with flows := FMap.del c.flows (tpFlowKey n) }) <| dropMisses (tpFlowKey n) <|
    dropCounters [.specDiscard] (tpFlowKey n) <| dropCounters tpCtrs n { s2 with tps := FMap.del s2.tps n }

/-- The status of a command that names a channel. -/
def tpNamed (s : State) (n : Nat) : Nat := if (tp? s n).isSome then St.ok else St.badParam

/-- TP_RELEASE (R116). -/
def execTpRelease (h : CmdHdr) (tp : Nat) (s : State) : Answer :=
  .next (runCmd (plainCmd 0x0123 2) h (fun s1 => checked (tpNamed s1 tp) (releaseTp tp s1) s1) s)

/-- TP_KEY (R122): a link key of 32 octets for one direction. -/
def execTpKey (h : CmdHdr) (tp : Nat) (rx : Bool) (key : Bytes) (s : State) : Answer :=
  let k := padTo 32 key
  .next (runCmd (plainCmd 0x0124 2) h (fun s1 =>
    checked (tpNamed s1 tp)
      (withTp tp (fun x => if rx then { x with rxKey := some k } else { x with txKey := some k }) s1) s1) s)

/-- TP_COMMAND's own check: a HOST source (R113). -/
def tpCommandStatus (s : State) (n : Nat) : Nat :=
  if (tp? s n).any (fun x => x.p.src = 3) then St.ok else St.badParam

/-- TP_COMMAND (R121): it applies at the next decision. -/
def execTpCommand (h : CmdHdr) (tp : Nat) (cmd : BitVec 4) (s : State) : Answer :=
  .next (runCmd (plainCmd 0x0125 2) h (fun s1 =>
    checked (tpCommandStatus s1 tp) (withTp tp (fun x => { x with hostCmd := some cmd }) s1) s1) s)

/-- TP_TEST's own check (R132). -/
def tpTestStatus (s : State) (n durationMs count : Nat) : Nat :=
  match tp? s n with
  | none => St.badParam
  | some x =>
    if x.p.src = 0 || durationMs = 0 || 1000 < durationMs || count = 0 || 65535 < count then St.badParam
    else if x.st ≠ .quiet || x.test.isSome then St.busy
    else St.ok

/-- Begin a series of test frames. -/
def startTest (n : Nat) (cmd : BitVec 4) (durationMs count : Nat) (s : State) : State :=
  tpChange n (now s) none (withTp n (fun x =>
    { x with test := some { cmd, durNs := msNs durationMs, left := count - 1, on := true
                            endsAt := now s + msNs durationMs } }) s)

/-- TP_TEST (R132). -/
def execTpTest (h : CmdHdr) (tp : Nat) (cmd : BitVec 4) (durationMs : Nat) (count : Nat) (s : State) : Answer :=
  .next (runCmd (plainCmd 0x0126 2) h (fun s1 =>
    checked (tpTestStatus s1 tp durationMs count) (startTest tp cmd durationMs count s1) s1) s)

/-! ### The send side (R118 to R124) -/

/-- Since when a condition has held. -/
def sinceOf (c : Bool) (old : Option Ns) (t : Ns) : Option Ns := if c then some (old.getD t) else none

/-- Whether a condition has held for a time. -/
def heldFor (since : Option Ns) (d t : Ns) : Bool := match since with | some a => a + d ≤ t | none => false

/-- The transition to ALARM raises GUARD_FAIL, and frames carry guard_fail from now on (R120, R127). -/
def enterAlarm (n : Nat) (t : Ns) (s : State) : State :=
  match tp? s n with
  | none => s
  | some x =>
    let us : Int := ((t - x.absentSince.getD t) / 1000 : Nat)
    crossed Ev.guardFail n 0 us (some x.ring) false (tpSetCmd n x.cmd .alarm t none s)

/-- A candidate decision in DWELL: the dwell is confirmed, or goes on, with pre-arm from half dwell (R120, R123). -/
def dwellOn (n : Nat) (x : Tp) (t : Ns) (s : State) : State :=
  let d := msNs x.p.dwell
  if x.dwellAt + d ≤ t then
    tpSetCmd n x.dwellSet .command t x.held (withTp n (fun y => { y with confirmedAt := some t }) (unhold n s))
  else if x.p.prearm && x.sends && x.held.isNone && 2 * x.dwellAt + d ≤ 2 * t then
    let len := (tpFrame x.p (zeros 36) s).length
    holdFrame n { cmd := x.dwellSet, seq := x.seq, txTime := BitVec.ofNat 64 (devOf s (x.dwellAt + d)), cells := cellsOf len } s
  else s

/-- Any other decision in DWELL: the dwell aborts, and a set still active ends with it (R120). -/
def dwellAbort (n : Nat) (t : Ns) (s : State) : State :=
  tpSetCmd n 0 .quiet t none (bump .tpDwellAbort n (tpDiscard n s))

/-- A dwell starts for a set. -/
def startDwell (n : Nat) (w : BitVec 4) (t : Ns) (s : State) : State :=
  withTp n (fun y => { y with st := .dwell, dwellSet := w, dwellAt := t, toneGone := none }) s

/-- The states of R120 at one decision. -/
def sendStep (n : Nat) (f : Decision) (t : Ns) (s : State) : State :=
  match tp? s n with
  | none => s
  | some x =>
    match x.st with
    | .quiet =>
      match f.cand with
      | some w => startDwell n w t s
      | none => if x.p.src = 1 && heldFor x.absentSince (msNs x.p.guardAlarm) t then enterAlarm n t s else s
    | .dwell => if f.cand = some x.dwellSet then dwellOn n x t s else dwellAbort n t s
    | .command =>
      if heldFor x.presentSince 1000000 t || heldFor x.toneGone 500000 t then tpSetCmd n 0 .quiet t none s
      else
        match f.cand with
        | some w => if w = x.cmd then s else startDwell n w t s
        | none => s
    | .alarm => if heldFor x.presentSince 50000000 t then tpSetCmd n 0 .quiet t none s else s

/-- A real candidate ends a test at once: frames go back to the normal state (R132). -/
def endTest (n : Nat) (t : Ns) (s : State) : State :=
  match tp? s n with
  | none => s
  | some x =>
    let s1 := withTp n (fun y => { y with test := none }) s
    if x.testing then tpChange n t none s1 else s1

/-- A decision on a TDM or TP_IO source. -/
def decide118 (n : Nat) (f : Decision) (t : Ns) (s : State) : State :=
  let s1 := if f.ambiguous then bump .tpAmbiguous n s else s
  let s2 := withTp n (fun y =>
    { y with absentSince := sinceOf (f.guardOff && f.cand.isNone) y.absentSince t
             presentSince := sinceOf f.guardOn y.presentSince t
             toneGone := sinceOf (y.st = .command && (y.cmd &&& f.present) = 0) y.toneGone t }) s1
  let s3 := noticeLive Ev.guardFail n false none f.guardOn s2
  let s4 := if f.cand.isSome && (tp? s3 n).any (fun x => x.test.isSome && x.st ≠ .alarm) then endTest n t s3 else s3
  sendStep n f t s4

/-- A decision on a HOST source: the command is taken on, without dwell (R121). -/
def hostDecision (n : Nat) (t : Ns) (s : State) : State :=
  match tp? s n with
  | none => s
  | some x =>
    match x.hostCmd with
    | none => s
    | some w =>
      let s1 := if w ≠ 0 && x.test.isSome then endTest n t s else s
      tpSetCmd n w (if w = 0 then .quiet else .command) t none (withTp n (fun y => { y with hostCmd := none }) s1)

/-- One decision (R118). -/
def ttuStep (n : Nat) (t : Ns) (s : State) : State :=
  let s1 := tpTakeNext n s
  match tp? s1 n with
  | none => s1
  | some x =>
    match x.p.src with
    | 1 => let d := drawNat s1; decide118 n (toneDecision x.p (ttuObs x) d.1) t d.2
    | 2 => decide118 n (ballDecision x.p s1.tpio.active) t s1
    | 3 => hostDecision n t s1
    | _ => s1

/-- TTU_DECISION (R118): decision `k` of a second, at the instant of device time 125 µs × k after the second boundary. -/
def execTtuDecision (tp : Nat) (k : Nat) (t : Ns) (s : State) : Answer :=
  let s1 := advance t s
  .next (onlyIf (alive s1 && devOf s1 t % 1000000000 = 125000 * k) (ttuStep tp t s1) s1)

/-- GUARD_ALARM_EXPIRY (R120). -/
def execGuardAlarmExpiry (tp : Nat) (t : Ns) (s : State) : Answer :=
  let s1 := advance t s
  let due := (tp? s1 tp).any (fun x => x.p.src = 1 && x.st = .quiet && heldFor x.absentSince (msNs x.p.guardAlarm) t)
  .next (onlyIf (alive s1 && due) (enterAlarm tp t s1) s1)

/-- TPIO_SAMPLE (R121). -/
def execTpioSample (levels : BitVec 32) (t : Ns) (s : State) : Answer :=
  let s1 := advance t s
  .next (onlyIf (alive s1) ((sourceBalls s1).foldl (sampleBall levels) s1) s1)

/-- TP_HEARTBEAT (R127): not in the decision that confirmed a dwell, where the command frame stands in its place
(R123). -/
def execTpHeartbeat (tp : Nat) (t : Ns) (s : State) : Answer :=
  let s1 := advance t s
  let due := devOf s1 t % 1000000 = (tp % 4) * 250000 && (tp? s1 tp).any (fun x => x.confirmedAt ≠ some t)
  let cmd := match tp? s1 tp with | some x => x.frameCmd | none => 0
  .next (onlyIf (alive s1 && due) (tpSend tp cmd false (BitVec.ofNat 64 (devOf s1 t)) s1) s1)

/-- The phase of a test ends: a gap, the next test state, or the end (R132). -/
def testPhase (n : Nat) (t : Ns) (s : State) : State :=
  match tp? s n with
  | none => s
  | some x =>
    match x.test with
    | none => s
    | some u =>
      let next := if u.on then (if u.left = 0 then none else some { u with on := false, endsAt := u.endsAt + u.durNs })
        else some { u with on := true, left := u.left - 1, endsAt := u.endsAt + u.durNs }
      tpChange n t none (withTp n (fun y => { y with test := next }) s)

/-- TP_TEST_PHASE (R132). -/
def execTpTestPhase (tp : Nat) (t : Ns) (s : State) : Answer :=
  let s1 := advance t s
  let due := (tp? s1 tp).any (fun x => x.test.any (fun u => u.endsAt ≤ t))
  .next (onlyIf (alive s1 && due) (testPhase tp t s1) s1)

/-! ### The receive side (R130 to R134) -/

/-- TP_RX_FRAME (R130). -/
def execTpRxFrame (tp : Nat) (payload : Bytes) (t : Ns) (s : State) : Answer :=
  let s1 := advance t s
  .next (onlyIf (alive s1) (tpReceive tp payload t s1) s1)

/-- The release of a command that waited for out_min. -/
def outMin (n i : Nat) (t : Ns) (s : State) : State :=
  match tp? s n with
  | none => s
  | some x =>
    let cmd := x.sinkCmd &&& ~~~ BitVec.ofNat 4 (2 ^ i)
    tpTimed n x.sinkCmd cmd (match x.fallInfo with | some f => f.txTime | none => 0) t (tpSink n cmd x.fallInfo t s)

/-- TP_OUT_MIN_EXPIRY (R131). -/
def execTpOutMinExpiry (tp : Nat) (cmd : Nat) (t : Ns) (s : State) : Answer :=
  let s1 := advance t s
  let due := (tp? s1 tp).any (fun x => x.pendFall.getLsbD cmd && FMap.getD x.riseAt cmd 0 + msNs x.p.outMin ≤ t)
  .next (onlyIf (alive s1 && due) (outMin tp cmd t s1) s1)

/-- LINK_FAIL (R133): the notice carries the silence in µs, and every command goes to its fail state. -/
def linkFailed (n : Nat) (t : Ns) (s : State) : State :=
  match tp? s n with
  | none => s
  | some x =>
    let us : Int := ((t - x.lastRx) / 1000 : Nat)
    tpFail n none t (crossed Ev.linkFail n 0 us (some x.ring) false
      (bump .tpLinkFail n (withTp n (fun y => { y with linkFail := true, failSince := t, rxSeq := none }) s)))

/-- TP_LINK_TIMEOUT (R133). -/
def execTpLinkTimeout (tp : Nat) (t : Ns) (s : State) : Answer :=
  let s1 := advance t s
  let due := (tp? s1 tp).any (fun x => !x.linkFail && !x.closed && x.lastRx + msNs x.p.hbTimeout ≤ t)
  .next (onlyIf (alive s1 && due) (linkFailed tp t s1) s1)

end Sys2Proof.Machine
end

