-- ==== Sys2Proof/Machine/Twin.lean ====
section
/-! DEFINITION. The twin link: roles, checkpoints and takeovers (R510 to R514). -/

namespace Sys2Proof.Machine

open Sys2Proof

/-- Change the twin link. -/
def withTwin (f : Twin → Twin) (s : State) : State := { s with twin := f s.twin }

/-! ### TWIN_CTRL (R498, R510, R513) -/

/-- Whether a change of Endpaper can be written (R483). -/
def endpStatusOf (s : State) : Nat := if s.endp.degraded then St.endpaperFail else St.ok

/-- PAIR: enable is set and committed in a new epoch, with no other uncommitted change. -/
def twinPair (s : State) : State :=
  let off := regOff .twinCfg 0
  let c := s.endp.committed
  putEpoch { c with regs := FMap.set c.regs off (committedAt s off ||| 1) } (setReg s .twinCfg 0 (regVal s .twinCfg ||| 1))

/-- TWIN_CTRL with op 1. -/
def execTwinPair (h : CmdHdr) (s : State) : Answer :=
  .next (runCmd (plainCmd 0x0609 3) h (fun s1 => checked (endpStatusOf s1) (twinPair s1) s1) s)

/-- UNPAIR: enable is clear. -/
def twinUnpair (s : State) : State := twinChanged (putFld s .twinCfg 0 0 0 0)

/-- TWIN_CTRL with op 2. -/
def execTwinUnpair (h : CmdHdr) (s : State) : Answer :=
  .next (runCmd (plainCmd 0x0609 3) h (fun s1 => .done St.ok [] (twinUnpair s1)) s)

/-- A takeover of a kind (1 planned, 2 unplanned) has happened (R513). -/
def takeoverEvent (kind : Nat) (s : State) : State :=
  raise Ev.twinTakeover none
    (padTo 48 (Config.eventBody Ev.twinTakeover [(kind : Int), ((s.twin.applied.getD 0 : Nat) : Int)])) s

/-- A planned takeover: outputs start from the boundary of the last checkpoint. -/
def plannedTakeover (s : State) : State := takeoverEvent 1 (driveBalls (withTwin (fun w => { w with role := 0 }) s))

/-- TWIN_CTRL with op 3, on a MIRROR whose link is SYNCED. -/
def execTwinTakeover (h : CmdHdr) (s : State) : Answer :=
  .next (runCmd (plainCmd 0x0609 3) h (fun s1 =>
    if s1.twin.role = 1 && s1.twin.link = 3 then .doneThen St.ok [] s1 plannedTakeover else .done St.twinState [] s1) s)

/-- COPY_CONFIG's own check. -/
def copyStatus (s : State) : Nat := if s.twin.role = 1 && 1 ≤ s.twin.link then endpStatusOf s else St.twinState

/-- TWIN_CTRL with op 4: the twin's committed configuration is a new epoch of this device. -/
def execTwinCopyConfig (h : CmdHdr) (config : Config479) (s : State) : Answer :=
  .next (runCmd (plainCmd 0x0609 3) h (fun s1 => checked (copyStatus s1) (putEpoch config s1) s1) s)

/-! ### The link (R510, R511) -/

/-- State and reason of the link as training and the peer's credentials give them. -/
def linkOutcome (lanesOk : Bool) (peer : TwinPeer) (synced : Bool) : Nat × Nat :=
  if !lanesOk then (0, 4) else if !peer.sameKey then (1, 1) else if !peer.sameLock then (1, 3)
  else if !peer.mimOk then (1, 2) else (if synced then 3 else 2, 0)

/-- The role of R511: by preference, and by the lower identity where both prefer the same. -/
def roleFor (s : State) (peer : TwinPeer) : Nat :=
  let mine := flag s .twinCfg 0 1
  if mine = peer.prefMirror then (if s.sec.identity.toNat < peer.identity then 0 else 1) else b2n mine

/-- A device takes a role; one that becomes the MIRROR stops its outputs. -/
def takeRole (r : Nat) (s : State) : State :=
  let s1 := withTwin (fun w => { w with role := r }) s
  driveBalls (if r = 1 && s.twin.role = 0 then s1.txcs.foldl (fun t e => endOnAir e.1 St.txAborted t) s1 else s1)

/-- Age of the last checkpoint in µs. -/
def checkpointAge (s : State) : Nat :=
  (now s - (if s.twin.role = 1 then s.twin.applied else s.twin.sent).getD (now s)) / 1000

/-- The link's state changes: TWIN_LINK follows SYNCED, and the time since both link and heartbeat are lost is kept
(R513). -/
def twinLinkState (lanesOk heartbeat : Bool) (peer : TwinPeer) (synced : Bool) (t : Ns) (s : State) : State :=
  let old := s.twin.link
  let (link, reason) := linkOutcome lanesOk peer synced
  let s1 := if old < 2 && 2 ≤ link then takeRole (roleFor s peer) s else s
  let lost := if link = 0 && !heartbeat then some (s.twin.lostAt.getD t) else none
  let s2 := withTwin (fun w => { w with link, reason, alive := heartbeat, lostAt := lost }) s1
  if (2 ≤ old && link = 0) || (old = 3 && link < 3) then crossed Ev.twinLink 0 reason (checkpointAge s2 : Int) none false s2
  else noticeLive Ev.twinLink 0 false none (link == 3) s2

/-- TWIN_LINK_STATE (R510): with the link in use. -/
def execTwinLinkState (lanesOk : Bool) (heartbeat : Bool) (peer : TwinPeer) (synced : Bool) (t : Ns) (s : State) : Answer :=
  let s1 := advance t s
  .next (onlyIf (serving s1 && flag s1 .twinCfg 0 0) (twinLinkState lanesOk heartbeat peer synced t s1) s1)

/-! ### Checkpoints (R512) -/

/-- Whether an instant is a 10 ms boundary of device time. -/
def atBoundary (s : State) (t : Ns) : Bool := devOf s t % 10000000 = 0

/-- TWIN_CHECKPOINT: the ACTIVE has sent one. -/
def execTwinCheckpoint (t : Ns) (s : State) : Answer :=
  let s1 := advance t s
  .next (onlyIf (serving s1 && s1.twin.role = 0 && s1.twin.link = 3 && atBoundary s1 t)
    (withTwin (fun w => { w with sent := some t }) s1) s1)

/-- A directory entry of a checkpoint, or its removal. -/
def applyEntry (s : State) (e : Nat × Option EpdEntry) : State :=
  let s1 := withEpd (fun d => { d with entries := FMap.del d.entries e.1, refs := d.refs.filter (fun r => r.slot != e.1) }) s
  match e.2 with
  | none => s1
  | some n => withEpd (fun d => { d with
      entries := FMap.set d.entries e.1 n, refs := (placeRef d.kIdx d.refs n.addr e.1).getD d.refs }) s1

/-- An op of a checkpoint: one that was running on the ACTIVE is ready here. -/
def Op.carried (o : Op) : Op := if o.st = .dispatched then { o with st := .ready, loc := .global, stale := false } else o

/-- The objects of a checkpoint take the place of the MIRROR's; echo state is not carried. -/
def applyObjects (d : Checkpoint) (s : State) : State :=
  let own := fun (n : Nat) (d : Chan) => match FMap.get? s.chans n with
    | some c => { d with echo := c.echo, ecFrozen := c.ecFrozen, ecResume := c.ecResume }
    | none => d.noEcho
  let fsc : Fsc := { d.fsc with
    presented := []
    flows := FMap.mapV d.fsc.flows (fun _ f => { f with
      insts := f.insts.map (fun x => { x with ops := x.ops.map Op.carried }) }) }
  let s1 : State := { s with
    chans := FMap.mapV d.chans own, rtps := d.rtps, tps := d.tps, rxcs := d.rxcs
    txcs := d.txcs, radio := [], groups := d.groups, fsc := fsc, qmg := { d.qmg with extSize := s.qmg.extSize } }
  let mine := fun (n : Notice) => n.code == Ev.twinLink
  driveBalls (d.entries.foldl applyEntry
    (withNotices (fun l => d.notices.filter (fun n => !mine n) ++ l.filter mine) s1))

/-- A checkpoint arrives: it is applied whole or not at all; one not applied within 20 ms of its boundary raises
TWIN_LINK. -/
def checkpointApply (boundary : Ns) (whole : Bool) (d : Checkpoint) (t : Ns) (s : State) : State :=
  let s1 := if whole then withTwin (fun w => { w with applied := some boundary }) (applyObjects d s) else s
  if boundary + 20000000 < t then crossed Ev.twinLink 0 s1.twin.reason (checkpointAge s1 : Int) none true s1 else s1

/-- TWIN_CHECKPOINT_APPLY (R512): on the MIRROR, while the link is SYNCED. -/
def execTwinCheckpointApply (boundary : Ns) (whole : Bool) (data : Checkpoint) (t : Ns) (s : State) : Answer :=
  let s1 := advance t s
  .next (onlyIf (serving s1 && s1.twin.role = 1 && s1.twin.link = 3) (checkpointApply boundary whole data t s1) s1)

/-! ### Unplanned takeover (R513, R514) -/

/-- An SRTP key after a takeover: the SRTCP index goes on by 64, and the roll-over counter follows the sequence number. -/
def SrtpKey.resumed (k : SrtpKey) (seq : BitVec 16) : SrtpKey :=
  { k with cIndex := k.cIndex + 64, roc := if 65536 < seq.toNat + 64 then k.roc + 1 else k.roc }

/-- An RTP context resumes: numbers advanced by 64, timestamps from device time in a way that is open, its buffer
resynchronised (R96). -/
def resumeRtp (s : State) (c : Nat) : State :=
  let a := drawNat s
  let b := drawNat a.2
  restartStream c (withRtp c (fun x => { x with
    txSeq := x.txSeq + 64, txTs := BitVec.ofNat 32 a.1, evTs := BitVec.ofNat 32 b.1
    txKey := x.txKey.map (fun k => k.resumed x.txSeq), txNext := x.txNext.map (fun k => k.resumed x.txSeq) }) b.2)

/-- A paced flow resumes at its next due instant to come; a voice channel's frames move with it. -/
def resumeEntry (s : State) (e : Nat × Nat × Nat) : State :=
  match flow? s e.2.1 with
  | none => s
  | some fl =>
    let shift := if fl.period = 0 || s.clk.tick < e.1 then 0 else cdiv (s.clk.tick + 1 - e.1) fl.period * fl.period
    let s1 := withFsc (fun c => { c with delay := c.delay.map (fun d => if d = e then (e.1 + shift, e.2) else d) }) s
    { s1 with chans := FMap.adj s1.chans e.2.1 (fun c => { c with due0 := c.due0 + shift }) }

/-- A downlink counter with the guard of EPD_CFG, at most its highest value (R473). -/
def guardedFcnt (f : BitVec 32) (guard : Nat) : BitVec 32 := BitVec.ofNat 32 (min 0xFFFFFFFF (f.toNat + guard))

/-- State resumes from the last applied checkpoint with the guards of R514. -/
def resumeAll (s : State) : State :=
  let s1 := s.fsc.delay.foldl resumeEntry s
  let s2 : State := { s1 with
    chans := FMap.mapV s1.chans (fun _ c => { c.noEcho with segFirst := true })
    tps := FMap.mapV s1.tps (fun _ x => { x with seq := x.seq + 256 })
    txcs := FMap.mapV s1.txcs (fun _ c => { c with waiting := [], active := none }) }
  let s3 := (FMap.keys s2.rtps).foldl resumeRtp s2
  let s4 := (FMap.keys s3.rxcs).foldl (fun t c => abandonAll c .link t) s3
  withEpd (fun d => { d with entries := FMap.mapV d.entries (fun _ e => { e with dlFcnt := guardedFcnt e.dlFcnt (dlGuard s) }) }) s4

/-- Whether an unplanned takeover is due: link and heartbeat lost for takeover_ms, and a checkpoint to start from. -/
def takeoverDue (s : State) (t : Ns) : Bool :=
  s.twin.role = 1 && flag s .twinCfg 0 0 && flag s .twinCfg 0 2 && s.twin.applied.isSome && atBoundary s t &&
    (match s.twin.lostAt with | some a => a + fld s .twinCfg 0 12 3 * 1000000 ≤ t | none => false)

/-- TWIN_AUTO_TAKEOVER (R513, R514): at a 10 ms boundary. -/
def execTwinAutoTakeover (t : Ns) (s : State) : Answer :=
  let s1 := advance t s
  .next (onlyIf (serving s1 && takeoverDue s1 t)
    (takeoverEvent 2 (driveBalls (resumeAll (withTwin (fun w => { w with role := 0 }) s1)))) s1)

end Sys2Proof.Machine
end

