-- ==== Sys2Proof/Machine/Dispatch.lean ====
section
/-! DEFINITION. The dispatch: one arm for each command, in the order of spec/opcode_table.json. -/

namespace Sys2Proof.Machine

/-- The effect of a command on everything but the queue. -/
def exec (i : Instr) (s : State) : Host.Outcome State Fault Refusal :=
  match i with
  | .chanSetup h => Sys2Proof.Machine.execChanSetup h s
  | .chanModify h => Sys2Proof.Machine.execChanModify h s
  | .chanRelease h channel => Sys2Proof.Machine.execChanRelease h channel s
  | .rtpSetup h => Sys2Proof.Machine.execRtpSetup h s
  | .rtpModify h => Sys2Proof.Machine.execRtpModify h s
  | .rtpRelease h context => Sys2Proof.Machine.execRtpRelease h context s
  | .srtpKey h => Sys2Proof.Machine.execSrtpKey h s
  | .tpSetup h => Sys2Proof.Machine.execTpSetup h s
  | .tpModify h => Sys2Proof.Machine.execTpModify h s
  | .tpRelease h tp => Sys2Proof.Machine.execTpRelease h tp s
  | .tpKey h tp rx key => Sys2Proof.Machine.execTpKey h tp rx key s
  | .tpCommand h tp cmd => Sys2Proof.Machine.execTpCommand h tp cmd s
  | .tpTest h tp cmd durationMs count => Sys2Proof.Machine.execTpTest h tp cmd durationMs count s
  | .rxcSetup h => Sys2Proof.Machine.execRxcSetup h s
  | .rxcModify h => Sys2Proof.Machine.execRxcModify h s
  | .rxcRelease h rx => Sys2Proof.Machine.execRxcRelease h rx s
  | .rlSpi h link wlen rlen wbytes answer => Sys2Proof.Machine.execRlSpi h link wlen rlen wbytes answer s
  | .rlGainTable h => Sys2Proof.Machine.execRlGainTable h s
  | .rlGainSet h link antenna entry => Sys2Proof.Machine.execRlGainSet h link antenna entry s
  | .rlRealign h link => Sys2Proof.Machine.execRlRealign h link s
  | .rlCapture h rx ring ratio samples => Sys2Proof.Machine.execRlCapture h rx ring ratio samples s
  | .txcSetup h => Sys2Proof.Machine.execTxcSetup h s
  | .txcModify h => Sys2Proof.Machine.execTxcModify h s
  | .txcRelease h tx => Sys2Proof.Machine.execTxcRelease h tx s
  | .pttGroupSetup h => Sys2Proof.Machine.execPttGroupSetup h s
  | .pttGroupRelease h group => Sys2Proof.Machine.execPttGroupRelease h group s
  | .flowSetup h => Sys2Proof.Machine.execFlowSetup h s
  | .flowRelease h flow => Sys2Proof.Machine.execFlowRelease h flow s
  | .opSubmit h flow startTick => Sys2Proof.Machine.execOpSubmit h flow startTick s
  | .opCancel h flow mask inst => Sys2Proof.Machine.execOpCancel h flow mask inst s
  | .queueSetup h => Sys2Proof.Machine.execQueueSetup h s
  | .queueModify h => Sys2Proof.Machine.execQueueModify h s
  | .queueRelease h queue => Sys2Proof.Machine.execQueueRelease h queue s
  | .queueFlush h queue => Sys2Proof.Machine.execQueueFlush h queue s
  | .queueQuery h queue => Sys2Proof.Machine.execQueueQuery h queue s
  | .qmgSweep h => Sys2Proof.Machine.execQmgSweep h s
  | .bceJob h input => Sys2Proof.Machine.execBceJob h input s
  | .bceAbort h opId => Sys2Proof.Machine.execBceAbort h opId s
  | .recFlush h => Sys2Proof.Machine.execRecFlush h s
  | .tdmCasSet h port slot abcd => Sys2Proof.Machine.execTdmCasSet h port slot abcd s
  | .gateListSet h => Sys2Proof.Machine.execGateListSet h s
  | .wakePatternSet h => Sys2Proof.Machine.execWakePatternSet h s
  | .tbuTimeSet h time => Sys2Proof.Machine.execTbuTimeSet h time s
  | .noticeAck h code mark object => Sys2Proof.Machine.execNoticeAck h code mark object s
  | .sessionOpen h privilege => Sys2Proof.Machine.execSessionOpen h privilege s
  | .sessionProve h => Sys2Proof.Machine.execSessionProve h s
  | .sessionClose h => Sys2Proof.Machine.execSessionClose h s
  | .idKeys h => Sys2Proof.Machine.execIdKeys h s
  | .attest h challenge => Sys2Proof.Machine.execAttest h challenge s
  | .ownerEnrol h => Sys2Proof.Machine.execOwnerEnrol h s
  | .keySet h => Sys2Proof.Machine.execKeySet h s
  | .setupUnlock h => Sys2Proof.Machine.execSetupUnlock h s
  | .setupLock h => Sys2Proof.Machine.execSetupLock h s
  | .userKernelsLoad h => Sys2Proof.Machine.execUserKernelsLoad h s
  | .userKernelsClear h => Sys2Proof.Machine.execUserKernelsClear h s
  | .epdPut h => Sys2Proof.Machine.execEpdPut h s
  | .epdDelete h addr => Sys2Proof.Machine.execEpdDelete h addr s
  | .epdGet h addr => Sys2Proof.Machine.execEpdGet h addr s
  | .epdLoad h count => Sys2Proof.Machine.execEpdLoad h count s
  | .epdExport h count => Sys2Proof.Machine.execEpdExport h count s
  | .epdRebuild h => Sys2Proof.Machine.execEpdRebuild h s
  | .epdClear h => Sys2Proof.Machine.execEpdClear h s
  | .memScrub h region => Sys2Proof.Machine.execMemScrub h region s
  | .commit h => Sys2Proof.Machine.execCommit h s
  | .revert h => Sys2Proof.Machine.execRevert h s
  | .standbyEnter h => Sys2Proof.Machine.execStandbyEnter h s
  | .shutdown h => Sys2Proof.Machine.execShutdown h s
  | .imgWrite h kind => Sys2Proof.Machine.execImgWrite h kind s
  | .imgActivateMim h => Sys2Proof.Machine.execImgActivateMim h s
  | .imgActivateCim h => Sys2Proof.Machine.execImgActivateCim h s
  | .imgAcceptUntested h cim mim => Sys2Proof.Machine.execImgAcceptUntested h cim mim s
  | .imgStatus h => Sys2Proof.Machine.execImgStatus h s
  | .behaviourLockSet h => Sys2Proof.Machine.execBehaviourLockSet h s
  | .behaviourLockClear h => Sys2Proof.Machine.execBehaviourLockClear h s
  | .resetSoft h => Sys2Proof.Machine.execResetSoft h s
  | .resetDomain h domain object => Sys2Proof.Machine.execResetDomain h domain object s
  | .resetImage h => Sys2Proof.Machine.execResetImage h s
  | .clusterMigrate h cluster => Sys2Proof.Machine.execClusterMigrate h cluster s
  | .selfTest h => Sys2Proof.Machine.execSelfTest h s
  | .twinPair h => Sys2Proof.Machine.execTwinPair h s
  | .twinUnpair h => Sys2Proof.Machine.execTwinUnpair h s
  | .twinTakeover h => Sys2Proof.Machine.execTwinTakeover h s
  | .twinCopyConfig h config => Sys2Proof.Machine.execTwinCopyConfig h config s
  | .mbxIdKeys writable => Sys2Proof.Machine.execMbxIdKeys writable s
  | .mbxOwnerEnrol block => Sys2Proof.Machine.execMbxOwnerEnrol block s
  | .ringCreate ring ctx => Sys2Proof.Machine.execRingCreate ring ctx s
  | .ringReset ring ctx => Sys2Proof.Machine.execRingReset ring ctx s
  | .ringDestroy ring => Sys2Proof.Machine.execRingDestroy ring s
  | .hifKick value => Sys2Proof.Machine.execHifKick value s
  | .recoveryLoad image => Sys2Proof.Machine.execRecoveryLoad image s
  | .rlEnable link => Sys2Proof.Machine.execRlEnable link s
  | .rlDisable link => Sys2Proof.Machine.execRlDisable link s
  | .ethPortDisable port value => Sys2Proof.Machine.execEthPortDisable port value s
  | .registerWrite offset wide value => Sys2Proof.Machine.execRegisterWrite offset wide value s
  | .barBadAccess write offset => Sys2Proof.Machine.execBarBadAccess write offset s
  | .powerOnReset asserted factoryLow straps => Sys2Proof.Machine.execPowerOnReset asserted factoryLow straps s
  | .pinReset lowNs straps => Sys2Proof.Machine.execPinReset lowNs straps s
  | .startUp env => Sys2Proof.Machine.execStartUp env s
  | .startupReady t => Sys2Proof.Machine.execStartupReady t s
  | .hifDomainReset => Sys2Proof.Machine.execHifDomainReset s
  | .thermalSample tempDeciC => Sys2Proof.Machine.execThermalSample tempDeciC s
  | .wakeMatch port frame => Sys2Proof.Machine.execWakeMatch port frame s
  | .tick => Sys2Proof.Machine.execTick s
  | .instanceIssue flow => Sys2Proof.Machine.execInstanceIssue flow s
  | .deadlineExpiry flow inst => Sys2Proof.Machine.execDeadlineExpiry flow inst s
  | .predTicksExpiry flow inst node => Sys2Proof.Machine.execPredTicksExpiry flow inst node s
  | .arbitrationRound => Sys2Proof.Machine.execArbitrationRound s
  | .opDispatch vpe flow inst node => Sys2Proof.Machine.execOpDispatch vpe flow inst node s
  | .opComplete vpe res => Sys2Proof.Machine.execOpComplete vpe res s
  | .patienceExpiry flow inst node t => Sys2Proof.Machine.execPatienceExpiry flow inst node t s
  | .opAged flow inst node t => Sys2Proof.Machine.execOpAged flow inst node t s
  | .bundleIssue vpe => Sys2Proof.Machine.execBundleIssue vpe s
  | .nop vpe p => Sys2Proof.Machine.execNop vpe p s
  | .mul vpe p f => Sys2Proof.Machine.execMul vpe p f s
  | .mac vpe p f => Sys2Proof.Machine.execMac vpe p f s
  | .msu vpe p f => Sys2Proof.Machine.execMsu vpe p f s
  | .cmac vpe p f => Sys2Proof.Machine.execCmac vpe p f s
  | .cmacj vpe p f => Sys2Proof.Machine.execCmacj vpe p f s
  | .acclr vpe p acd => Sys2Proof.Machine.execAcclr vpe p acd s
  | .acadd vpe p acd acs sat => Sys2Proof.Machine.execAcadd vpe p acd acs sat s
  | .acsub vpe p acd acs sat => Sys2Proof.Machine.execAcsub vpe p acd acs sat s
  | .acsh vpe p acd acs cnt sat => Sys2Proof.Machine.execAcsh vpe p acd acs cnt sat s
  | .acins vpe p acd va q => Sys2Proof.Machine.execAcins vpe p acd va q s
  | .spl vpe p vd acs q => Sys2Proof.Machine.execSpl vpe p vd acs q s
  | .nrw vpe p acs vd sh sat => Sys2Proof.Machine.execNrw vpe p acs vd sh sat s
  | .expa vpe p acs vd => Sys2Proof.Machine.execExpa vpe p acs vd s
  | .norma vpe p acs acd => Sys2Proof.Machine.execNorma vpe p acs acd s
  | .vadd vpe p f => Sys2Proof.Machine.execVadd vpe p f s
  | .vsub vpe p f => Sys2Proof.Machine.execVsub vpe p f s
  | .vmax vpe p f => Sys2Proof.Machine.execVmax vpe p f s
  | .vmin vpe p f => Sys2Proof.Machine.execVmin vpe p f s
  | .vabs vpe p f => Sys2Proof.Machine.execVabs vpe p f s
  | .vneg vpe p f => Sys2Proof.Machine.execVneg vpe p f s
  | .vshl vpe p f => Sys2Proof.Machine.execVshl vpe p f s
  | .vshr vpe p f => Sys2Proof.Machine.execVshr vpe p f s
  | .vand vpe p f => Sys2Proof.Machine.execVand vpe p f s
  | .vor vpe p f => Sys2Proof.Machine.execVor vpe p f s
  | .vxor vpe p f => Sys2Proof.Machine.execVxor vpe p f s
  | .exp vpe p f => Sys2Proof.Machine.execExp vpe p f s
  | .norm vpe p f => Sys2Proof.Machine.execNorm vpe p f s
  | .bexp vpe p f => Sys2Proof.Machine.execBexp vpe p f s
  | .vshlv vpe p f => Sys2Proof.Machine.execVshlv vpe p f s
  | .vcmpgt vpe p f => Sys2Proof.Machine.execVcmpgt vpe p f s
  | .vcmpeq vpe p f => Sys2Proof.Machine.execVcmpeq vpe p f s
  | .vsel vpe p f => Sys2Proof.Machine.execVsel vpe p f s
  | .vmov vpe p f => Sys2Proof.Machine.execVmov vpe p f s
  | .ld vpe p f => Sys2Proof.Machine.execLd vpe p f s
  | .st vpe p f => Sys2Proof.Machine.execSt vpe p f s
  | .ld2 vpe p f => Sys2Proof.Machine.execLd2 vpe p f s
  | .ldst vpe p f => Sys2Proof.Machine.execLdst vpe p f s
  | .lds vpe p f => Sys2Proof.Machine.execLds vpe p f s
  | .sts vpe p f => Sys2Proof.Machine.execSts vpe p f s
  | .movi vpe p d imm => Sys2Proof.Machine.execMovi vpe p d imm s
  | .aluAdd vpe p f => Sys2Proof.Machine.execAluAdd vpe p f s
  | .aluSub vpe p f => Sys2Proof.Machine.execAluSub vpe p f s
  | .aluAnd vpe p f => Sys2Proof.Machine.execAluAnd vpe p f s
  | .aluOr vpe p f => Sys2Proof.Machine.execAluOr vpe p f s
  | .aluXor vpe p f => Sys2Proof.Machine.execAluXor vpe p f s
  | .aluShl vpe p f => Sys2Proof.Machine.execAluShl vpe p f s
  | .aluShr vpe p f => Sys2Proof.Machine.execAluShr vpe p f s
  | .aluShru vpe p f => Sys2Proof.Machine.execAluShru vpe p f s
  | .aluMul vpe p f => Sys2Proof.Machine.execAluMul vpe p f s
  | .aluMin vpe p f => Sys2Proof.Machine.execAluMin vpe p f s
  | .aluMax vpe p f => Sys2Proof.Machine.execAluMax vpe p f s
  | .aluMov vpe p d a => Sys2Proof.Machine.execAluMov vpe p d a s
  | .addi vpe p d a imm => Sys2Proof.Machine.execAddi vpe p d a imm s
  | .br vpe p target => Sys2Proof.Machine.execBr vpe p target s
  | .loop vpe p f => Sys2Proof.Machine.execLoop vpe p f s
  | .vbc vpe p vd a => Sys2Proof.Machine.execVbc vpe p vd a s
  | .vext vpe p d va lane => Sys2Proof.Machine.execVext vpe p d va lane s
  | .valn vpe p vd va vb j => Sys2Proof.Machine.execValn vpe p vd va vb j s
  | .cmv vpe p a => Sys2Proof.Machine.execCmv vpe p a s
  | .waitm vpe p => Sys2Proof.Machine.execWaitm vpe p s
  | .stop vpe p => Sys2Proof.Machine.execStop vpe p s
  | .fail vpe p code => Sys2Proof.Machine.execFail vpe p code s
  | .pset vpe p d imm => Sys2Proof.Machine.execPset vpe p d imm s
  | .itemEndMark queue data => Sys2Proof.Machine.execItemEndMark queue data s
  | .cellReserve queue cells streaming => Sys2Proof.Machine.execCellReserve queue cells streaming s
  | .take queue => Sys2Proof.Machine.execTake queue s
  | .read queue words => Sys2Proof.Machine.execRead queue words s
  | .finish queue => Sys2Proof.Machine.execFinish queue s
  | .dropRest queue => Sys2Proof.Machine.execDropRest queue s
  | .queueIntegrity queue place cell => Sys2Proof.Machine.execQueueIntegrity queue place cell s
  | .sweepStart => Sys2Proof.Machine.execSweepStart s
  | .sweepDone => Sys2Proof.Machine.execSweepDone s
  | .tdmRxFrame port frame => Sys2Proof.Machine.execTdmRxFrame port frame s
  | .tdmTxFrame port delay => Sys2Proof.Machine.execTdmTxFrame port delay s
  | .tdmAlarm port alarm declared t => Sys2Proof.Machine.execTdmAlarm port alarm declared t s
  | .crc4AutoTimeout port => Sys2Proof.Machine.execCrc4AutoTimeout port s
  | .ethRxFrame port frame => Sys2Proof.Machine.execEthRxFrame port frame s
  | .ethTxStart port t => Sys2Proof.Machine.execEthTxStart port t s
  | .ethLinkChange port up => Sys2Proof.Machine.execEthLinkChange port up s
  | .gateListSwitch port t => Sys2Proof.Machine.execGateListSwitch port t s
  | .lpiEnter port t => Sys2Proof.Machine.execLpiEnter port t s
  | .lpiWake port t => Sys2Proof.Machine.execLpiWake port t s
  | .prpSvSend pair t => Sys2Proof.Machine.execPrpSvSend pair t s
  | .prpEntryTimeout pair mac t => Sys2Proof.Machine.execPrpEntryTimeout pair mac t s
  | .ptpMessageRx port msg t => Sys2Proof.Machine.execPtpMessageRx port msg t s
  | .ptpInterval port kind t => Sys2Proof.Machine.execPtpInterval port kind t s
  | .ppsEdge t offset => Sys2Proof.Machine.execPpsEdge t offset s
  | .tbuRefUpdate code available => Sys2Proof.Machine.execTbuRefUpdate code available s
  | .sysrefEdge link t offsetPs periodic => Sys2Proof.Machine.execSysrefEdge link t offsetPs periodic s
  | .rlLinkState link state reason value => Sys2Proof.Machine.execRlLinkState link state reason value s
  | .gainWindowDecision link antenna t iq first unsettled => Sys2Proof.Machine.execGainWindowDecision link antenna t iq first unsettled s
  | .gainWriteDone link antenna t => Sys2Proof.Machine.execGainWriteDone link antenna t s
  | .channelGainUpdate rx t => Sys2Proof.Machine.execChannelGainUpdate rx t s
  | .detectWindow rx sfs t => Sys2Proof.Machine.execDetectWindow rx sfs t s
  | .energyWindow rx place len t => Sys2Proof.Machine.execEnergyWindow rx place len t s
  | .energySpanExpiry rx t => Sys2Proof.Machine.execEnergySpanExpiry rx t s
  | .headerResult rx inst scale t => Sys2Proof.Machine.execHeaderResult rx inst scale t s
  | .rxFrameEnd rx inst scale sf quality len lag t => Sys2Proof.Machine.execRxFrameEnd rx inst scale sf quality len lag t s
  | .radioTxRequest ring index item t => Sys2Proof.Machine.execRadioTxRequest ring index item t s
  | .txLaunch tx t ready standing => Sys2Proof.Machine.execTxLaunch tx t ready standing s
  | .txComplete tx t underrun => Sys2Proof.Machine.execTxComplete tx t underrun s
  | .pttHangExpiry group t => Sys2Proof.Machine.execPttHangExpiry group t s
  | .ttuDecision tp k t => Sys2Proof.Machine.execTtuDecision tp k t s
  | .guardAlarmExpiry tp t => Sys2Proof.Machine.execGuardAlarmExpiry tp t s
  | .tpioSample levels t => Sys2Proof.Machine.execTpioSample levels t s
  | .tpHeartbeat tp t => Sys2Proof.Machine.execTpHeartbeat tp t s
  | .tpRxFrame tp payload t => Sys2Proof.Machine.execTpRxFrame tp payload t s
  | .tpOutMinExpiry tp cmd t => Sys2Proof.Machine.execTpOutMinExpiry tp cmd t s
  | .tpLinkTimeout tp t => Sys2Proof.Machine.execTpLinkTimeout tp t s
  | .tpTestPhase tp t => Sys2Proof.Machine.execTpTestPhase tp t s
  | .rtpRxPacket context src srcPort udp t => Sys2Proof.Machine.execRtpRxPacket context src srcPort udp t s
  | .rtcpRx context src srcPort udp t => Sys2Proof.Machine.execRtcpRx context src srcPort udp t s
  | .rtcpReportTimer context t => Sys2Proof.Machine.execRtcpReportTimer context t s
  | .rxTimeoutExpiry context t => Sys2Proof.Machine.execRxTimeoutExpiry context t s
  | .driftEstimate context channel t => Sys2Proof.Machine.execDriftEstimate context channel t s
  | .dtmfRegenTimeout channel t => Sys2Proof.Machine.execDtmfRegenTimeout channel t s
  | .toneDisablerRelease channel t => Sys2Proof.Machine.execToneDisablerRelease channel t s
  | .avsStep t tempDeciC acked => Sys2Proof.Machine.execAvsStep t tempDeciC acked s
  | .avsRetry t acked => Sys2Proof.Machine.execAvsRetry t acked s
  | .doorbellPoll slots ok t => Sys2Proof.Machine.execDoorbellPoll slots ok t s
  | .ptxItem ring descs t => Sys2Proof.Machine.execPtxItem ring descs t s
  | .prxItemWrite ring ok t => Sys2Proof.Machine.execPrxItemWrite ring ok t s
  | .rxHoldExpiry ring t => Sys2Proof.Machine.execRxHoldExpiry ring t s
  | .eventWrite ring ok => Sys2Proof.Machine.execEventWrite ring ok s
  | .indexSlotWrite ring ok t => Sys2Proof.Machine.execIndexSlotWrite ring ok t s
  | .dmaRetry ring ok => Sys2Proof.Machine.execDmaRetry ring ok s
  | .msixSend vector t => Sys2Proof.Machine.execMsixSend vector t s
  | .statsBlock t ok => Sys2Proof.Machine.execStatsBlock t ok s
  | .progressTimer opId position t => Sys2Proof.Machine.execProgressTimer opId position t s
  | .bceJobDone opId => Sys2Proof.Machine.execBceJobDone opId s
  | .resumeHandleExpiry handle t => Sys2Proof.Machine.execResumeHandleExpiry handle t s
  | .recSegmentWrite ok t => Sys2Proof.Machine.execRecSegmentWrite ok t s
  | .sessionIdleTimeout ring t => Sys2Proof.Machine.execSessionIdleTimeout ring t s
  | .nonceExpiry ring t => Sys2Proof.Machine.execNonceExpiry ring t s
  | .unlockExpiry t => Sys2Proof.Machine.execUnlockExpiry t s
  | .backoffExpiry privilege t => Sys2Proof.Machine.execBackoffExpiry privilege t s
  | .scrubPass region corrected => Sys2Proof.Machine.execScrubPass region corrected s
  | .dramTimingCorrect channel correction => Sys2Proof.Machine.execDramTimingCorrect channel correction s
  | .memoryUe place => Sys2Proof.Machine.execMemoryUe place s
  | .epdRebuildSwitch => Sys2Proof.Machine.execEpdRebuildSwitch s
  | .lifetimeWrite t => Sys2Proof.Machine.execLifetimeWrite t s
  | .rotationTimer t => Sys2Proof.Machine.execRotationTimer t s
  | .flowMigrate flow => Sys2Proof.Machine.execFlowMigrate flow s
  | .selfTestDone failure => Sys2Proof.Machine.execSelfTestDone failure s
  | .knownGoodTimer t => Sys2Proof.Machine.execKnownGoodTimer t s
  | .cimHandover => Sys2Proof.Machine.execCimHandover s
  | .watchdogRestart => Sys2Proof.Machine.execWatchdogRestart s
  | .twinLinkState lanesOk heartbeat peer synced t => Sys2Proof.Machine.execTwinLinkState lanesOk heartbeat peer synced t s
  | .twinCheckpoint t => Sys2Proof.Machine.execTwinCheckpoint t s
  | .twinCheckpointApply boundary whole data t => Sys2Proof.Machine.execTwinCheckpointApply boundary whole data t s
  | .twinAutoTakeover t => Sys2Proof.Machine.execTwinAutoTakeover t s
  | .stealAgeExpiry vpe t => Sys2Proof.Machine.execStealAgeExpiry vpe t s
  | .configurationRequest offset => Sys2Proof.Machine.execConfigurationRequest offset s
  | .loReadCapture offset => Sys2Proof.Machine.execLoReadCapture offset s
  | .imgWriteDone readBackOk => Sys2Proof.Machine.execImgWriteDone readBackOk s
  | .userKernelsLoadDone => Sys2Proof.Machine.execUserKernelsLoadDone s
  | .epdLoadDone => Sys2Proof.Machine.execEpdLoadDone s
  | .epdExportDone => Sys2Proof.Machine.execEpdExportDone s
  | .captureSegment rx segNo count t => Sys2Proof.Machine.execCaptureSegment rx segNo count t s
  | .clusterMimLoaded cluster ok => Sys2Proof.Machine.execClusterMimLoaded cluster ok s
  | .standbyReady => Sys2Proof.Machine.execStandbyReady s

end Sys2Proof.Machine
end

