-- ==== Sys2Proof/Safety.lean ====
section
/-! DEFINITION. What counts as a safe run, and the words that claims use: runs, commands that answer, what a completed
command leaves behind, and the invariants. -/

namespace Sys2Proof.Machine

open Sys2Proof

/-! ### Runs -/

/-- A state from which the block goes on: its next step is neither a fault nor a refusal. -/
def Live (s : State) : Prop := ∃ t, step s = .next t

/-- Reachability by steps. -/
inductive Reaches : State → State → Prop where
  | here (s : State) : Reaches s s
  | more {s t u : State} (first : step s = .next t) (rest : Reaches t u) : Reaches s u

/-- A run is safe when every state it reaches can go on. -/
def SafeRun (s : State) : Prop := ∀ t, Reaches s t → Live t

/-! ### What a command answers -/

/-- A command answers a next state with a property. -/
def Answers (i : Instr) (s : State) (P : State → Prop) : Prop := ∃ t, exec i s = .next t ∧ P t

/-- `t` is `u` but for the host interface, the sessions and the counters: what a completion, an event, a notice and
the count of a session's commands may touch (R402, R407, R409, R425, R434). -/
def HostOnly (u t : State) : Prop := t = { u with hif := t.hif, sec := t.sec, counters := t.counters }

/-- A command answers a state that is `u` but for the host interface, the sessions and the counters. -/
def Yields (i : Instr) (s u : State) : Prop := Answers i s (HostOnly u)

/-- A command of a CMD ring can be taken and passes checks 1 to 4 of R405. -/
def Ready (c : CmdSpec) (h : CmdHdr) (s : State) : Prop := takeable s h.ring = true ∧ preStatus c h s = St.ok

/-- The state that a command leaves which completes: its completion entry follows its effect `u`, and the session's
count closes it at 2^32 commands (R402, R434). -/
def finish (c : CmdSpec) (h : CmdHdr) (s : State) (status : Nat) (result : Bytes) (u : State) : State :=
  countOut h.ring (complete h.ring c.opcode h.tag (headIndex s h.ring) status result u)

/-- The state that a command leaves which waits and holds its ring (R403). -/
def waits (c : CmdSpec) (h : CmdHdr) (s u : State) : State :=
  countOut h.ring (hold h.ring (heldOf c.opcode h (take h.ring s)) u)

end Sys2Proof.Machine
end

