-- ==== Sys2Proof/Certificates/Slice0/Obligations.lean ====
section
/-! DEFINITION. The statements about the model, family by family. A statement ranges over every state, reachable or not.
`Answers`, `Yields`, `Ready` and `finish` are the words of Sys2Proof.Safety; `begun` and `accepted` say how a long
operation starts. -/

open Sys2Proof Sys2Proof.Machine

namespace Sys2Proof.Machine
/-- A state in which a long operation has been taken up by the command at the head of a ring: it has the next identifier, at
position 0 of `total` (R406). -/
def begun (opcode total : Nat) (h : CmdHdr) (s : State) : State :=
  let s1 := take h.ring s
  let op : LongOp := { opId := s.hif.nextOpId, opcode, tag := h.tag, ring := h.ring, position := 0, total, lastMille := 0, lastTime := now s }
  { s1 with hif := { s1.hif with longOps := s1.hif.longOps ++ [op], nextOpId := s.hif.nextOpId + 1 } }

/-- A command answers ACCEPTED with the identifier of the operation that it has begun, and leaves the effect `u` (R406). -/
def accepted (c : CmdSpec) (h : CmdHdr) (s u : State) : State := finish c h s St.accepted (toLE 4 s.hif.nextOpId) u
end Sys2Proof.Machine

/-! ### Words: VPE operations -/

namespace Sys2Proof.Machine

open Sys2Proof

/-- A VPE of number `n` runs a kernel within its code and its bundles, and the loader accepts the operation (R240, R243,
R244). -/
def VpeAble (s : State) (n : Nat) (p : BitVec 4) (op : VOp) : Prop :=
  n < 272 ∧ p ≠ 8 ∧ opOk op = true ∧ (vpeAt s n).run = .running ∧ (vpeAt s n).kBase ≤ (vpeAt s n).pc ∧
    (vpeAt s n).pc < (vpeAt s n).kBase + (vpeAt s n).kLen ∧ (vpeAt s n).issued < (vpeAt s n).maxBundles

/-- A command answers a state in which VPE `n` is `w` and the pace monitor of its cluster has counted a bundle (R23);
nothing else has changed but the model's counter of draws. -/
def VpeBecomes (i : Instr) (s : State) (n : Nat) (w : Vpe) : Prop :=
  Answers i s (fun t =>
    t = { s with
      vpes := FMap.set s.vpes n w, free := t.free,
      fsc := { s.fsc with pace := FMap.set s.fsc.pace (n / 16) (FMap.getD s.fsc.pace (n / 16) 0 + 1) } })

/-- What a value of `w` bits holds of an exact result: the result itself where it fits; the nearest end of the range or
the value modulo 2^w otherwise, with an event (R229, R230, R231). -/
def Narrowed (w : Nat) (sat : Bool) (exact : Int) (x : BitVec w) (event : Bool) : Prop :=
  x.toInt = (if sat then max (-(2 ^ (w - 1))) (min (2 ^ (w - 1) - 1) exact) else exact.bmod (2 ^ w)) ∧
    (event = true ↔ exact < -(2 ^ (w - 1)) ∨ 2 ^ (w - 1) - 1 < exact)

/-- `u` is `r` after one more bundle in which an operation has written the lanes of `lanes` that predicate `p` enables
of accumulator `acd`, bits [7:4] of VST recording the events (R218, R229, R232): no other register is written. -/
def AccOf (r u : Vpe) (p : BitVec 4) (acd : BitVec 3) (lanes : BitVec 4) (sat : Bool) (val : Nat → Int) : Prop :=
  u = { r with ac := u.ac, vst := u.vst, issued := r.issued + 1 } ∧ (∀ k, k ≠ acd → u.getAC k = r.getAC k) ∧
    ∃ ev : Nat → Bool,
      (∀ i, i < 4 →
        if (r.mask p &&& lanes).getLsbD i then Narrowed 48 sat (val i) ((u.getAC acd).lane i) (ev i)
        else (u.getAC acd).lane i = (r.getAC acd).lane i ∧ ev i = false) ∧
      ∀ j, j < 16 → u.vst.getLsbD j = (r.vst.getLsbD j || (decide (4 ≤ j ∧ j < 8) && ev (j - 4)))

/-- The same of a vector register, which the rotation base may rename (R217), with bits [3:0] of VST. -/
def VecOf (r u : Vpe) (m : BitVec 4) (vd : BitVec 5) (sat : Bool) (val : Nat → Int) : Prop :=
  u = { r with v := u.v, vst := u.vst, issued := r.issued + 1 } ∧
    (∀ k, physV r.rot k ≠ physV r.rot vd → u.getV k = r.getV k) ∧
    ∃ ev : Nat → Bool,
      (∀ i, i < 4 →
        if m.getLsbD i then Narrowed 18 sat (val i) ((u.getV vd).lane i) (ev i)
        else (u.getV vd).lane i = (r.getV vd).lane i ∧ ev i = false) ∧
      ∀ j, j < 16 → u.vst.getLsbD j = (r.vst.getLsbD j || (decide (j < 4) && ev j))

/-- A command runs an accumulator operation and goes on to the next bundle. -/
def AccStep (i : Instr) (s : State) (n : Nat) (p : BitVec 4) (acd : BitVec 3) (lanes : BitVec 4) (sat : Bool)
    (val : Nat → Int) : Prop :=
  ∃ u : Vpe, VpeBecomes i s n u.advance ∧ AccOf (vpeAt s n) u p acd lanes sat val

/-- A command runs a vector operation and goes on to the next bundle. -/
def VecStep (i : Instr) (s : State) (n : Nat) (m : BitVec 4) (vd : BitVec 5) (sat : Bool) (val : Nat → Int) : Prop :=
  ∃ u : Vpe, VpeBecomes i s n u.advance ∧ VecOf (vpeAt s n) u m vd sat val

/-- A command runs an operation that leaves the VPE as `u` and goes on to the next bundle. -/
def XStep (i : Instr) (s : State) (n : Nat) (u : Vpe) : Prop := VpeBecomes i s n u.advance

/-- The VPE after one more bundle, before what the bundle writes. -/
def Vpe.counted (r : Vpe) : Vpe := { r with issued := r.issued + 1 }

/-- The VPE after a scalar result has been written under a register code, bit 8 of VST recording a wrap (R232, R235). -/
def Vpe.scalar (r : Vpe) (d : BitVec 6) (x : BitVec 36) (wrapped : Bool) : Vpe :=
  let u := r.counted.setCode d x
  { u with vst := u.vst ||| (if wrapped then 0x100 else 0) }

/-- A scalar result in 36 bits and whether it wrapped (R235). -/
def Wrapped (exact : Int) (x : BitVec 36) (w : Bool) : Prop := Narrowed 36 false exact x w

end Sys2Proof.Machine

open Sys2Proof Sys2Proof.Machine

/-- R229, R234, R239: every accumulator operation but NORMA completes on a VPE that can issue it, writes its exact value,
wrapped or saturated, to the enabled lanes of its accumulator, and writes no other register but VST. -/
def Obligations.VpeAccumulatorOpsWriteTheirLanes : Prop :=
  ∀ (s : State) (n : Nat) (p : BitVec 4),
    let r := vpeAt s n
    (∀ f : MF, VpeAble s n p (.mul f) →
      AccStep (.mul n p f) s n p f.acd 15 f.sat (fun i =>
        ((r.getV f.va).lane i).toInt * ((r.getV f.vb).lane (bselLane f.bsel i)).toInt)) ∧
    (∀ f : MF, VpeAble s n p (.mac f) →
      AccStep (.mac n p f) s n p f.acd 15 f.sat (fun i =>
        ((r.getAC f.acd).lane i).toInt + ((r.getV f.va).lane i).toInt * ((r.getV f.vb).lane (bselLane f.bsel i)).toInt)) ∧
    (∀ f : MF, VpeAble s n p (.msu f) →
      AccStep (.msu n p f) s n p f.acd 15 f.sat (fun i =>
        ((r.getAC f.acd).lane i).toInt - ((r.getV f.va).lane i).toInt * ((r.getV f.vb).lane (bselLane f.bsel i)).toInt)) ∧
    (∀ f : CF, VpeAble s n p (.cmac f) →
      let q := if f.pair then 2 else 0
      let re := fun v => ((r.getV v).lane q).toInt
      let im := fun v => ((r.getV v).lane (q + 1)).toInt
      AccStep (.cmac n p f) s n p f.acd (if f.pair then 12 else 3) f.sat (fun i =>
        ((r.getAC f.acd).lane i).toInt +
          (if i = q then re f.va * re f.vb - im f.va * im f.vb else re f.va * im f.vb + im f.va * re f.vb))) ∧
    (∀ f : CF, VpeAble s n p (.cmacj f) →
      let q := if f.pair then 2 else 0
      let re := fun v => ((r.getV v).lane q).toInt
      let im := fun v => ((r.getV v).lane (q + 1)).toInt
      AccStep (.cmacj n p f) s n p f.acd (if f.pair then 12 else 3) f.sat (fun i =>
        ((r.getAC f.acd).lane i).toInt +
          (if i = q then re f.va * re f.vb + im f.va * im f.vb else im f.va * re f.vb - re f.va * im f.vb))) ∧
    (∀ a, VpeAble s n p (.acclr a) → AccStep (.acclr n p a) s n p a 15 false (fun _ => 0)) ∧
    (∀ a b sat, VpeAble s n p (.acadd a b sat) →
      AccStep (.acadd n p a b sat) s n p a 15 sat (fun i => ((r.getAC a).lane i).toInt + ((r.getAC b).lane i).toInt)) ∧
    (∀ a b sat, VpeAble s n p (.acsub a b sat) →
      AccStep (.acsub n p a b sat) s n p a 15 sat (fun i => ((r.getAC a).lane i).toInt - ((r.getAC b).lane i).toInt)) ∧
    (∀ a b (c : BitVec 7) sat, VpeAble s n p (.acsh a b c sat) →
      AccStep (.acsh n p a b c sat) s n p a 15 sat (fun i =>
        if 0 ≤ c.toInt then ((r.getAC b).lane i).toInt * 2 ^ c.toInt.toNat
        else Int.fdiv ((r.getAC b).lane i).toInt (2 ^ (-c.toInt).toNat))) ∧
    (∀ a va (q : BitVec 2), VpeAble s n p (.acins a va q) →
      AccStep (.acins n p a va q) s n p a 15 false (fun i => (acInsert q ((r.getAC a).lane i) ((r.getV va).lane i)).toInt))

/-- R230, R231, R233, R239: every operation of the M slot with a vector result completes on a VPE that can issue it,
writes its exact value, wrapped or saturated, to the enabled lanes of its register, and writes no other register but VST. -/
def Obligations.VpeVectorOpsWriteTheirLanes : Prop :=
  ∀ (s : State) (n : Nat) (p : BitVec 4),
    let r := vpeAt s n
    let m := r.mask p
    let a := fun (f : VF) (i : Nat) => (r.getV f.va).lane i
    let b := fun (f : VF) (i : Nat) => (r.getV f.vb).lane i
    (∀ f, VpeAble s n p (.vadd f) → VecStep (.vadd n p f) s n m f.vd f.sat (fun i => (a f i).toInt + (b f i).toInt)) ∧
    (∀ f, VpeAble s n p (.vsub f) → VecStep (.vsub n p f) s n m f.vd f.sat (fun i => (a f i).toInt - (b f i).toInt)) ∧
    (∀ f, VpeAble s n p (.vmax f) → VecStep (.vmax n p f) s n m f.vd f.sat (fun i => max (a f i).toInt (b f i).toInt)) ∧
    (∀ f, VpeAble s n p (.vmin f) → VecStep (.vmin n p f) s n m f.vd f.sat (fun i => min (a f i).toInt (b f i).toInt)) ∧
    (∀ f, VpeAble s n p (.vabs f) → VecStep (.vabs n p f) s n m f.vd f.sat (fun i => ((a f i).toInt.natAbs : Int))) ∧
    (∀ f, VpeAble s n p (.vneg f) → VecStep (.vneg n p f) s n m f.vd f.sat (fun i => -(a f i).toInt)) ∧
    (∀ f, VpeAble s n p (.vshl f) → VecStep (.vshl n p f) s n m f.vd f.sat (fun i => (a f i).toInt * 2 ^ f.imm.toNat)) ∧
    (∀ f, VpeAble s n p (.vshr f) → VecStep (.vshr n p f) s n m f.vd f.sat (fun i => shrRound f.rnd (a f i).toInt f.imm.toNat)) ∧
    (∀ f, VpeAble s n p (.vand f) → VecStep (.vand n p f) s n m f.vd f.sat (fun i => (a f i &&& b f i).toInt)) ∧
    (∀ f, VpeAble s n p (.vor f) → VecStep (.vor n p f) s n m f.vd f.sat (fun i => (a f i ||| b f i).toInt)) ∧
    (∀ f, VpeAble s n p (.vxor f) → VecStep (.vxor n p f) s n m f.vd f.sat (fun i => (a f i ^^^ b f i).toInt)) ∧
    (∀ f, VpeAble s n p (.exp f) → VecStep (.exp n p f) s n m f.vd f.sat (fun i => (expOf 18 (a f i) : Int))) ∧
    (∀ f, VpeAble s n p (.norm f) → VecStep (.norm n p f) s n m f.vd f.sat (fun i =>
      if a f i = 0 ∨ a f i = -1 then (a f i).toInt else (a f i).toInt * 2 ^ expOf 18 (a f i))) ∧
    (∀ f, VpeAble s n p (.bexp f) → VecStep (.bexp n p f) s n m f.vd f.sat (fun _ =>
      ((min (min (expOf 18 (a f 0)) (expOf 18 (a f 1))) (min (expOf 18 (a f 2)) (expOf 18 (a f 3))) : Nat) : Int))) ∧
    (∀ f, VpeAble s n p (.vshlv f) → VecStep (.vshlv n p f) s n m f.vd f.sat (fun i =>
      shiftBy f.rnd (a f i).toInt (b f i).toInt)) ∧
    (∀ f, VpeAble s n p (.vmov f) → VecStep (.vmov n p f) s n m f.vd f.sat (fun i => (a f i).toInt)) ∧
    (∀ f, VpeAble s n p (.vsel f) → VecStep (.vsel n p f) s n m f.vd f.sat (fun i =>
      if (r.getK (f.imm.toNat % 8)).getLsbD i then (a f i).toInt else (b f i).toInt)) ∧
    (∀ vd ac q, VpeAble s n p (.spl vd ac q) → VecStep (.spl n p vd ac q) s n m vd false (fun i =>
      (acField q ((r.getAC ac).lane i)).toInt)) ∧
    (∀ ac vd sh sat, VpeAble s n p (.nrw ac vd sh sat) → VecStep (.nrw n p ac vd sh sat) s n m vd sat (fun i =>
      shrRound true ((r.getAC ac).lane i).toInt sh.toNat)) ∧
    (∀ ac vd, VpeAble s n p (.expa ac vd) → VecStep (.expa n p ac vd) s n m vd false (fun i =>
      (expOf 48 ((r.getAC ac).lane i) : Int)))

/-- R215, R218, R239: a compare writes the enabled lanes of its predicate register, and nothing else. -/
def Obligations.VpeComparesWriteTheirPredicate : Prop :=
  ∀ (s : State) (n : Nat) (p : BitVec 4) (f : VF),
    let r := vpeAt s n
    let wrote := fun (i : Instr) (c : Nat → Bool) =>
      ∃ u : Vpe, VpeBecomes i s n u.advance ∧ u = { r with k := u.k, issued := r.issued + 1 } ∧
        (∀ j, j ≠ f.vd.toNat → u.getK j = r.getK j) ∧
        ∀ j, j < 4 → (u.getK f.vd.toNat).getLsbD j =
          (if (r.mask p).getLsbD j then c j else (r.getK f.vd.toNat).getLsbD j)
    (VpeAble s n p (.vcmpgt f) →
      wrote (.vcmpgt n p f) (fun j => decide (((r.getV f.vb).lane j).toInt < ((r.getV f.va).lane j).toInt))) ∧
    (VpeAble s n p (.vcmpeq f) → wrote (.vcmpeq n p f) (fun j => decide ((r.getV f.va).lane j = (r.getV f.vb).lane j)))

/-- R222, R223, R226, R239: the loads. An enabled load that addresses the window or the constant region reads its lines
as they stood before the bundle, updates its pointers, and leaves memory and every other register as they were. A pointer
moves by its step, linearly or around its circular buffer. -/
def Obligations.VpeLoadsReadTheirLines : Prop :=
  ∀ (s : State) (n : Nat) (p : BitVec 4) (f : LF),
    let r := vpeAt s n
    let at_ := fun (i : Nat) => lanesOf (FMap.getD r.mem i 0)
    let nextA := r.next f.pa (r.getP f.pa) f.ma
    let ptrB := if f.pb = f.pa then nextA else r.getP f.pb
    let nextB := r.next f.pb ptrB f.mb
    let steps : List Int := [0, 1, -1, 2, -2, 4, ((r.getS 14).extractLsb' 0 16).toInt, ((r.getS 15).extractLsb' 0 16).toInt]
    (∀ (k : BitVec 3) (q : BitVec 15) (c : BitVec 3), r.amode.getLsbD k.toNat = false →
      let size : Int := (r.getN k).toNat
      (c = 0 → r.next k q c = q) ∧
      (c ≠ 0 → size = 0 → ((r.next k q c).toNat : Int) = ((q.toNat : Int) + steps.getD c.toNat 0) % 32768) ∧
      (c ≠ 0 → size ≠ 0 → r.next k q c = BitVec.ofInt 15
        (((r.getB k).toNat : Int) + ((q.toNat : Int) - ((r.getB k).toNat : Int) + steps.getD c.toNat 0) % size))) ∧
    (r.enabled p = true →
      (VpeAble s n p (.ld f) → r.loadable (r.getP f.pa).toNat = true →
      XStep (.ld n p f) s n ((r.counted.putV r.rot f.ra 15 (at_ (r.getP f.pa).toNat) 0).setP f.pa nextA)) ∧
      (VpeAble s n p (.ld2 f) → r.loadable (r.getP f.pa).toNat = true → r.loadable ptrB.toNat = true →
      XStep (.ld2 n p f) s n
        ((((r.counted.putV r.rot f.ra 15 (at_ (r.getP f.pa).toNat) 0).putV r.rot f.rb 15 (at_ ptrB.toNat) 0).setP f.pa
          nextA).setP f.pb nextB)) ∧
      (VpeAble s n p (.lds f) → r.loadable (r.getP f.pa).toNat = true →
      XStep (.lds n p f) s n
        (((r.counted.setS (f.ra.truncate 4) ((FMap.getD r.mem (r.getP f.pa).toNat 0).extractLsb' 0 36)).setS
          (f.ra.truncate 4 + 1) ((FMap.getD r.mem (r.getP f.pa).toNat 0).extractLsb' 36 36)).setP f.pa nextA)))

/-- R222, R223, R226, R239: the stores. An enabled store into the window writes the line that its pointer addressed
before the post-modify (for LDST, the line of access B); every other line reads as before, and no register is written but
its pointers and, for LDST, the register it loads. -/
def Obligations.VpeStoresWriteOneLine : Prop :=
  ∀ (s : State) (n : Nat) (p : BitVec 4) (f : LF),
    let r := vpeAt s n
    let nextA := r.next f.pa (r.getP f.pa) f.ma
    let ptrB := if f.pb = f.pa then nextA else r.getP f.pb
    let stored := fun (i : Instr) (line : Nat) (x : BitVec 72) (regs : Vpe) =>
      ∃ u : Vpe, VpeBecomes i s n u.advance ∧ u = { regs with mem := u.mem } ∧
        ∀ a, FMap.getD u.mem a 0 = if a = line then x else FMap.getD r.mem a 0
    r.enabled p = true →
    (VpeAble s n p (.st f) → r.inWindow (r.getP f.pa).toNat = true →
      stored (.st n p f) (r.getP f.pa).toNat (lineOf (r.getV f.ra)) (r.counted.setP f.pa nextA)) ∧
    (VpeAble s n p (.sts f) → r.inWindow (r.getP f.pa).toNat = true →
      stored (.sts n p f) (r.getP f.pa).toNat (r.getS (f.ra.truncate 4 + 1) ++ r.getS (f.ra.truncate 4))
        (r.counted.setP f.pa nextA)) ∧
    (VpeAble s n p (.ldst f) → r.loadable (r.getP f.pa).toNat = true → r.inWindow ptrB.toNat = true →
      stored (.ldst n p f) ptrB.toNat (lineOf (r.getV f.rb))
        (((r.counted.putV r.rot f.ra 15 (lanesOf (FMap.getD r.mem (r.getP f.pa).toNat 0)) 0).setP f.pa nextA).setP f.pb
          (r.next f.pb ptrB f.mb)))

/-- R222, R240, R241: an enabled access outside the window (for a load, outside the constant region too) ends the op with
a BOUNDS fault; nothing of the bundle is written. -/
def Obligations.VpeAccessOutOfBoundsFaults : Prop :=
  ∀ (s : State) (n : Nat) (p : BitVec 4) (f : LF),
    let r := vpeAt s n
    let ptrB := if f.pb = f.pa then r.next f.pa (r.getP f.pa) f.ma else r.getP f.pb
    let load := fun (i : Nat) => (r.wLo ≤ i ∧ i ≤ r.wHi) ∨ 30720 ≤ i
    let store := fun (i : Nat) => r.wLo ≤ i ∧ i ≤ r.wHi
    let bounds := fun (i : Instr) => VpeBecomes i s n { r.counted with run := .faulted .bounds 0 }
    r.enabled p = true →
    (VpeAble s n p (.ld f) → ¬ load (r.getP f.pa).toNat → bounds (.ld n p f)) ∧
    (VpeAble s n p (.lds f) → ¬ load (r.getP f.pa).toNat → bounds (.lds n p f)) ∧
    (VpeAble s n p (.st f) → ¬ store (r.getP f.pa).toNat → bounds (.st n p f)) ∧
    (VpeAble s n p (.sts f) → ¬ store (r.getP f.pa).toNat → bounds (.sts n p f)) ∧
    (VpeAble s n p (.ld2 f) → ¬ (load (r.getP f.pa).toNat ∧ load ptrB.toNat) → bounds (.ld2 n p f)) ∧
    (VpeAble s n p (.ldst f) → ¬ (load (r.getP f.pa).toNat ∧ store ptrB.toNat) → bounds (.ldst n p f))

/-- R219, R235, R239: the scalar operations, the moves between files and PSET complete on a VPE that can issue them and
write their destination, with ovf_s for a wrap; no other register is written. A pointer, base or length keeps the bits of the
value written to it that it has. -/
def Obligations.VpeScalarOpsWriteTheirRegister : Prop :=
  ∀ (s : State) (n : Nat) (p : BitVec 4),
    let r := vpeAt s n
    let a := fun (f : XF) => r.getCode f.a
    let b := fun (f : XF) => r.getCode f.b
    let exactly := fun (i : Instr) (d : BitVec 6) (e : Int) =>
      ∃ x w, Wrapped e x w ∧ XStep i s n (r.scalar d x w)
    r.enabled p = true →
    (∀ (w : Vpe) (c : BitVec 6) (x : BitVec 36),
      (16 ≤ c.toNat → c.toNat < 32 → (w.setCode c x).getCode c = (x.truncate 15).zeroExtend 36) ∧
      (32 ≤ c.toNat → c.toNat < 40 → ((w.setCode c x).getCode c).toNat = min 32768 (x.toNat % 65536))) ∧
    (∀ d (imm : BitVec 16), VpeAble s n p (.movi d imm) → exactly (.movi n p d imm) d imm.toInt) ∧
    (∀ f, VpeAble s n p (.aluAdd f) → exactly (.aluAdd n p f) f.d ((a f).toInt + (b f).toInt)) ∧
    (∀ f, VpeAble s n p (.aluSub f) → exactly (.aluSub n p f) f.d ((a f).toInt - (b f).toInt)) ∧
    (∀ f, VpeAble s n p (.aluMul f) → exactly (.aluMul n p f) f.d ((a f).toInt * (b f).toInt)) ∧
    (∀ f, VpeAble s n p (.aluMin f) → exactly (.aluMin n p f) f.d (min (a f).toInt (b f).toInt)) ∧
    (∀ f, VpeAble s n p (.aluMax f) → exactly (.aluMax n p f) f.d (max (a f).toInt (b f).toInt)) ∧
    (∀ f, VpeAble s n p (.aluAnd f) → XStep (.aluAnd n p f) s n (r.scalar f.d (a f &&& b f) false)) ∧
    (∀ f, VpeAble s n p (.aluOr f) → XStep (.aluOr n p f) s n (r.scalar f.d (a f ||| b f) false)) ∧
    (∀ f, VpeAble s n p (.aluXor f) → XStep (.aluXor n p f) s n (r.scalar f.d (a f ^^^ b f) false)) ∧
    (∀ f, VpeAble s n p (.aluShl f) → XStep (.aluShl n p f) s n
      (r.scalar f.d (BitVec.ofNat 36 ((a f).toNat * 2 ^ (min (b f).toNat 36))) false)) ∧
    (∀ f, VpeAble s n p (.aluShru f) → XStep (.aluShru n p f) s n
      (r.scalar f.d (BitVec.ofNat 36 ((a f).toNat / 2 ^ (min (b f).toNat 36))) false)) ∧
    (∀ f, VpeAble s n p (.aluShr f) → XStep (.aluShr n p f) s n
      (r.scalar f.d (BitVec.ofInt 36 (Int.fdiv (a f).toInt (2 ^ (min (b f).toNat 36)))) false)) ∧
    (∀ d e, VpeAble s n p (.aluMov d e) → XStep (.aluMov n p d e) s n (r.scalar d (r.getCode e) false)) ∧
    (∀ d e (imm : BitVec 10), VpeAble s n p (.addi d e imm) → exactly (.addi n p d e imm) d ((r.getCode e).toInt + imm.toInt)) ∧
    (∀ d (imm : BitVec 16), VpeAble s n p (.pset d imm) → XStep (.pset n p d imm) s n (r.scalar d (imm.zeroExtend 36) false)) ∧
    (∀ d va (lane : BitVec 2), VpeAble s n p (.vext d va lane) → XStep (.vext n p d va lane) s n
      (r.scalar (d.zeroExtend 6) (BitVec.ofInt 36 ((r.getV va).lane lane.toNat).toInt) false)) ∧
    (∀ vd e, VpeAble s n p (.vbc vd e) →
      VecStep (.vbc n p vd e) s n 15 vd false (fun _ => ((r.getS e).truncate 18 : BitVec 18).toInt)) ∧
    (∀ vd va vb (j : BitVec 4), VpeAble s n p (.valn vd va vb j) → VecStep (.valn n p vd va vb j) s n 15 vd false (fun i =>
      if i + j.toNat < 4 then ((r.getV va).lane (i + j.toNat)).toInt else ((r.getV vb).lane (i + j.toNat - 4)).toInt))

/-- R215, R219, R232, R235: what a write under a register code leaves, file by file, and that it touches no other
register of any file. -/
def Obligations.VpeRegisterCodesReachOneRegister : Prop :=
  ∀ (w : Vpe) (c : BitVec 6) (x : BitVec 36),
    let u := w.setCode c x
    (c.toNat < 16 → u.getCode c = x) ∧
    (16 ≤ c.toNat → c.toNat < 32 → u.getCode c = (x.truncate 15).zeroExtend 36) ∧
    (32 ≤ c.toNat → c.toNat < 40 → (u.getCode c).toNat = min 32768 (x.toNat % 65536)) ∧
    (c.toNat = 40 → u = w) ∧
    (41 ≤ c.toNat → c.toNat < 44 → u.getCode c = (x.truncate 4).zeroExtend 36) ∧
    (44 ≤ c.toNat → c.toNat < 48 → u.getCode c = (x.truncate 1).zeroExtend 36) ∧
    (c.toNat = 0x30 ∨ c.toNat = 0x31 → u.getCode c = (x.truncate 16).zeroExtend 36) ∧
    (c.toNat = 0x32 → u.getCode c = (x.truncate 4).zeroExtend 36) ∧
    (c.toNat = 0x33 → u.getCode c = w.getCode c &&& ~~~ (x.truncate 16).zeroExtend 36) ∧
    (c.toNat = 0x34 → u.getCode c = (x.truncate 8).zeroExtend 36) ∧
    (w.getCode 0x28 = 15) ∧
    (∀ e : BitVec 6, codeOk c = true → codeOk e = true → e ≠ c → u.getCode e = w.getCode e) ∧
    u = { w with s := u.s, p := u.p, b := u.b, n := u.n, k := u.k, stage := u.stage, lc0 := u.lc0, lc1 := u.lc1,
                 rot := u.rot, vst := u.vst, amode := u.amode }

/-- R236, R238, R239, R240: control. NOP only counts and goes on; BR goes to its target and ends the loops it leaves; LOOP with
a count of 0 passes the body, and otherwise starts it; STOP ends the op, with OVERRUN when S1 exceeds the kernel's output;
FAIL ends it with its code; WAITM completes every move; CMV begins one, which may change the window. NORMA of the M slot is
here too: it shifts every lane left by its own exponent. The model's own choices in it are log entries 10 and 11. -/
def Obligations.VpeControlOpsGoWhereTheySay : Prop :=
  ∀ (s : State) (n : Nat) (p : BitVec 4),
    let r := vpeAt s n
    (VpeAble s n p .nop → XStep (.nop n p) s n r.counted) ∧
    (∀ a b, VpeAble s n p (.norma a b) →
      AccStep (.norma n p a b) s n p b 15 false (fun i =>
        ((r.getAC a).lane i).toInt * 2 ^ expOf 48 ((r.getAC a).lane i))) ∧
    (r.enabled p = true →
      (∀ t : BitVec 12, VpeAble s n p (.br t) → ∃ w : Vpe, VpeBecomes (.br n p t) s n w ∧
        w = { r.counted with pc := t.toNat, loop0 := w.loop0, loop1 := w.loop1, lc0 := w.lc0, lc1 := w.lc1 } ∧
        ∀ c, match r.getLoop c with
          | some l => if l.first ≤ t.toNat ∧ t.toNat ≤ l.last then w.getLoop c = some l ∧ w.getLC c = r.getLC c
                      else w.getLoop c = none ∧ w.getLC c = 0
          | none => w.getLoop c = none ∧ w.getLC c = r.getLC c) ∧
      (∀ f : LoopF, VpeAble s n p (.loop f) →
        let c := (r.getS f.cnt).toNat % 65536
        (c = 0 → VpeBecomes (.loop n p f) s n { r.counted with pc := f.endB.toNat + 1 }) ∧
        (0 < c → ∃ w : Vpe, VpeBecomes (.loop n p f) s n w ∧
          w = { r.counted with pc := r.pc + 1, loop0 := w.loop0, loop1 := w.loop1, lc0 := w.lc0, lc1 := w.lc1,
                               stage := if f.pipelined then #v[true, false, false, false] else r.stage } ∧
          w.getLoop f.ctr = some { first := r.pc + 1, last := f.endB.toNat, begun := 1, c, pipelined := f.pipelined } ∧
          (w.getLC f.ctr).toNat = (if f.pipelined then c + f.stages.toNat else c) ∧
          w.getLoop (!f.ctr) = r.getLoop (!f.ctr) ∧ w.getLC (!f.ctr) = r.getLC (!f.ctr))) ∧
      (VpeAble s n p .stop →
        VpeBecomes (.stop n p) s n
          { r.counted with run := if r.maxOut < (r.getS 1).toNat then .faulted .overrun 0 else .stopped }) ∧
      (∀ code : BitVec 16, VpeAble s n p (.fail code) →
        VpeBecomes (.fail n p code) s n { r.counted with run := .faulted .kernelFail code.toNat }) ∧
      (VpeAble s n p .waitm → XStep (.waitm n p) s n { r.counted with moves := 0 }) ∧
      (∀ a, VpeAble s n p (.cmv a) → ∃ u : Vpe, VpeBecomes (.cmv n p a) s n u.advance ∧
        u = { r.counted with moves := r.moves + 1, mem := u.mem } ∧
        ∀ i, i < r.wLo ∨ r.wHi < i → FMap.getD u.mem i 0 = FMap.getD r.mem i 0))

/-- R236, R237: an iteration boundary. The bundle that ends a loop lowers its count of remaining iterations; at 0 the loop
is over and the next bundle follows, otherwise the body begins again. A pipelined loop advances ROT and the stage
predicates at every boundary, a plain one changes neither. -/
def Obligations.VpeIterationBoundary : Prop :=
  ∀ (w : Vpe) (c : Bool) (l : Loop), w.getLoop c = some l → w.pc = l.last →
    (∀ k, w.getLoop (!c) = some k → k.last ≠ w.pc) → 1 ≤ (w.getLC c).toNat →
    let u := w.advance
    u = { w with pc := u.pc, loop0 := u.loop0, loop1 := u.loop1, lc0 := u.lc0, lc1 := u.lc1, rot := u.rot, stage := u.stage } ∧
    (u.getLC c).toNat = (w.getLC c).toNat - 1 ∧ u.getLoop (!c) = w.getLoop (!c) ∧ u.getLC (!c) = w.getLC (!c) ∧
    (if (w.getLC c).toNat = 1 then u.getLoop c = none ∧ u.pc = w.pc + 1
     else u.getLoop c = some { l with begun := l.begun + 1 } ∧ u.pc = l.first) ∧
    (if l.pipelined then
       u.rot = w.rot - 1 ∧ u.stage = #v[decide (l.begun < l.c), w.stage[0], w.stage[1], w.stage[2]]
     else u.rot = w.rot ∧ u.stage = w.stage)

/-- R218: an operation of the X or L slot that its predicate disables writes nothing, accesses nothing and raises no
fault; the VPE goes on. -/
def Obligations.VpeDisabledSlotDoesNothing : Prop :=
  ∀ (s : State) (n : Nat) (p : BitVec 4), (vpeAt s n).enabled p = false →
    (∀ f, VpeAble s n p (.ld f) → XStep (.ld n p f) s n (vpeAt s n).counted) ∧
    (∀ f, VpeAble s n p (.st f) → XStep (.st n p f) s n (vpeAt s n).counted) ∧
    (∀ f, VpeAble s n p (.ldst f) → XStep (.ldst n p f) s n (vpeAt s n).counted) ∧
    (∀ f, VpeAble s n p (.aluAdd f) → XStep (.aluAdd n p f) s n (vpeAt s n).counted) ∧
    (∀ d imm, VpeAble s n p (.movi d imm) → XStep (.movi n p d imm) s n (vpeAt s n).counted) ∧
    (∀ t, VpeAble s n p (.br t) → XStep (.br n p t) s n (vpeAt s n).counted) ∧
    (∀ f, VpeAble s n p (.loop f) → XStep (.loop n p f) s n (vpeAt s n).counted) ∧
    (VpeAble s n p .stop → XStep (.stop n p) s n (vpeAt s n).counted) ∧
    (∀ code, VpeAble s n p (.fail code) → XStep (.fail n p code) s n (vpeAt s n).counted)

/-- R240, R243: a running VPE whose bundle lies outside its kernel's code ends with ILLEGAL, one that has issued all its
kernel's bundles with OVERRUN, and one whose program word is no bundle with ILLEGAL. The model's own choice in it is log
entry 12. -/
def Obligations.VpeBundleFaults : Prop :=
  ∀ (s : State) (n : Nat), n < 272 → (vpeAt s n).run = .running →
    let r := vpeAt s n
    let word := FMap.getD (codeAt s n).prog r.pc 0
    let ends := fun (k : FaultKind) => VpeBecomes (.bundleIssue n) s n { r with run := .faulted k 0 }
    (r.pc < r.kBase ∨ r.kBase + r.kLen ≤ r.pc → r.issued < r.maxBundles → ends .illegal) ∧
    (r.kBase ≤ r.pc → r.pc < r.kBase + r.kLen → r.maxBundles ≤ r.issued → ends .overrun) ∧
    (r.issued < r.maxBundles → decodeBundle word = none → ends .illegal)

/-- R219, R220, R239: a bundle that holds one operation in its slot and NOP in the others does what the operation's own
command does; and a bundle reads all its operands before any slot writes, so that two moves in the two M slots of one bundle
exchange their registers. -/
def Obligations.BundlesReadThenWrite : Prop :=
  (∀ (s : State) (n : Nat) (p : BitVec 4) (op : VOp), p ≠ 8 → opOk op = true →
      let nop : SlotWord := (0, .nop)
      let bundle := match slotKind op with
        | .x => encodeBundle nop nop (p, op) nop
        | .l => encodeBundle nop nop nop (p, op)
        | _ => encodeBundle (p, op) nop nop nop
      FMap.getD (codeAt s n).prog (vpeAt s n).pc 0 = bundle →
      Answers (.bundleIssue n) s (fun t => t = runOp n p op s)) ∧
  ∀ (s : State) (n : Nat) (a b : BitVec 5), VpeAble s n 0 .nop → physV (vpeAt s n).rot a ≠ physV (vpeAt s n).rot b →
    FMap.getD (codeAt s n).prog (vpeAt s n).pc 0 =
      encodeBundle (0, .vmov ⟨a, b, 0, 0, false, false⟩) (0, .vmov ⟨b, a, 0, 0, false, false⟩) (0, .nop) (0, .nop) →
    ∃ u : Vpe, VpeBecomes (.bundleIssue n) s n u.advance ∧ u.getV a = (vpeAt s n).getV b ∧ u.getV b = (vpeAt s n).getV a ∧
      u = { (vpeAt s n).counted with v := u.v } ∧
      ∀ k, physV (vpeAt s n).rot k ≠ physV (vpeAt s n).rot a → physV (vpeAt s n).rot k ≠ physV (vpeAt s n).rot b →
        u.getV k = (vpeAt s n).getV k

/-- R219, R239: no bit of a slot word is dropped. Decoding the encoding of a bundle gives its four slots back, for every
operation that the loader accepts in its slot and every value of its fields. The model's own choice in it is log entry 84.
-/
def Obligations.BundleDecodesAsEncoded : Prop :=
  ∀ m0 m1 x l : SlotWord,
    (m0.1 ≠ 8 ∧ opOk m0.2 = true ∧ slotFits .m m0.2 = true) → (m1.1 ≠ 8 ∧ opOk m1.2 = true ∧ slotFits .m m1.2 = true) →
    (x.1 ≠ 8 ∧ opOk x.2 = true ∧ slotFits .x x.2 = true) → (l.1 ≠ 8 ∧ opOk l.2 = true ∧ slotFits .l l.2 = true) →
    decodeBundle (encodeBundle m0 m1 x l) = some (m0, m1, x, l)

/-- R219, R239, R244: the other direction. Every bundle that decodes holds only operations that the loader accepts in their
slots, under predicates that it accepts. The model's own choice in it is log entry 84. -/
def Obligations.DecodedBundleIsLoadable : Prop :=
  ∀ (b : BitVec 128) (m0 m1 x l : SlotWord), decodeBundle b = some (m0, m1, x, l) →
    m0.1 ≠ 8 ∧ m1.1 ≠ 8 ∧ x.1 ≠ 8 ∧ l.1 ≠ 8 ∧ opOk m0.2 = true ∧ opOk m1.2 = true ∧ opOk x.2 = true ∧ opOk l.2 = true ∧
    slotFits .m m0.2 = true ∧ slotFits .m m1.2 = true ∧ slotFits .x x.2 = true ∧ slotFits .l l.2 = true

/-! ### The flow scheduler -/

/-- R250, R251, R264, R270, R271: the commands of host flows. FLOW_SETUP puts the flow with its graph and, where it is paced,
its first entry on the delay list; FLOW_RELEASE stops issue, presents the cancellation of every op and waits; OP_SUBMIT at
tick 0 offers the next instance number at once and returns it; OP_CANCEL is presented and waits. Each touches the scheduler,
and the host interface through its completion, and nothing else. The model's own choice in it is log entry 83. -/
def Obligations.FlowCommandsReachTheScheduler : Prop :=
  ∀ (h : CmdHdr) (s : State),
    let s1 := take h.ring s
    let touched := fun (t : State) =>
      t = { s with fsc := t.fsc, free := t.free, hif := t.hif, sec := t.sec, counters := t.counters }
    (Ready (blockCmd 0x0151 2 256 true) h s → flowSetupStatus s1 (blk h) = St.ok →
      let f := leAt (blk h) 0 2
      let fl := flowOf h.ring 0 (blk h)
      Answers (.flowSetup h) s (fun t => touched t ∧ ∃ home, home < 272 ∧
        flow? t f = some { fl with homeVpe := home, cluster := home / 16, nextNum := if fl.period = 0 then 0 else 1 } ∧
        (∀ g, g ≠ f → flow? t g = flow? s g) ∧
        t.fsc.delay = (if fl.period = 0 then s.fsc.delay
          else s.fsc.delay ++ [(cdiv (s.clk.tick + 1) fl.period * fl.period, f, 0)]))) ∧
    (∀ f, Ready (plainCmd 0x0152 2) h s → flowLive s f = true →
      exec (.flowRelease h f) s = .next (waits (plainCmd 0x0152 2) h s (present (.cancelFlow f) (stopIssue f
        (withFlow f (fun fl => { fl with releasing := some (h.ring, heldOf 0x0152 h s1) }) s1))))) ∧
    (∀ f fl, Ready (plainCmd 0x0153 2) h s → flowLive s f = true → flow? s f = some fl → fl.period = 0 →
      exec (.opSubmit h f 0) s = .next (finish (plainCmd 0x0153 2) h s St.ok (toLE 4 fl.nextNum)
        (offerInst f fl.nextNum s.clk.tick (withFlow f (fun g => { g with nextNum := fl.nextNum + 1 }) s1)))) ∧
    (∀ f fl x mask (i : BitVec 32), Ready (plainCmd 0x0154 2) h s → flowLive s f = true → flow? s f = some fl →
      fl.insts.find? (fun y => y.num % 2 ^ 32 == i.toNat) = some x →
      exec (.opCancel h f mask i) s = .next (waits (plainCmd 0x0154 2) h s
        (present (.cancel h.ring (heldOf 0x0154 h s1) f x.num mask) s1)))

/-- R251, R262, R265: the oldest instance that waits is issued whole once window and slots have room: its ops are
pending, its deadline is its due tick plus the flow's (none for C3), and it stands in order of instance numbers. Nothing but
the flow changes. -/
def Obligations.InstanceIsIssuedWhole : Prop :=
  ∀ (s : State) (f num due : Nat) (fl : Flow) (r : List (Nat × Nat)),
    alive s = true → flow? s f = some fl → fl.stalled = (num, due) :: r → windowRoom fl = true → slotRoom s fl = true →
    Answers (.instanceIssue f) s (fun t =>
      t = { s with fsc := { s.fsc with flows := t.fsc.flows } } ∧ (∀ g, g ≠ f → flow? t g = flow? s g) ∧
      ∃ g x, flow? t f = some g ∧ g = { fl with stalled := r, insts := g.insts, fresh := false } ∧
        x ∈ g.insts ∧ g.insts.length = fl.insts.length + 1 ∧ (∀ y, y ∈ fl.insts → y ∈ g.insts) ∧
        x.num = num ∧ x.due = due ∧ x.missed = false ∧
        x.deadline = (if fl.deadline = 0 ∨ fl.cls = 3 then none else some (due + fl.deadline)) ∧
        x.ops.map (·.node) = List.range fl.nodes.length ∧ ∀ o, o ∈ x.ops → o.st = .pending ∧ o.ran = false ∧ o.roots = [])

/-- R256, R257, R258: what time and a VPE's end do to a ready or running op. Patience moves a ready op from its VPE's list to
the cluster's and then to the global one; age makes a C2 or C3 op rank as C1; the end of an op is presented to the ordering
point and leaves its VPE idle. The model's own choice in it is log entry 31. -/
def Obligations.ReadyOpsMoveWithTime : Prop :=
  ∀ (s : State) (f i d t : Nat) (fl : Flow) (o : Op), alive s = true → flow? s f = some fl → opAt s f i d = some o →
    let s1 := advance t s
    (∀ n, o.st = .ready → o.loc = .vpe n → o.readyAt + vpePatNs s fl.cls ≤ t →
      exec (.patienceExpiry f i d t) s = .next (withOp f i d (fun p => { p with loc := .cluster (n / 16) }) s1)) ∧
    (∀ c, o.st = .ready → o.loc = .cluster c → o.readyAt + clPatNs s fl.cls ≤ t →
      exec (.patienceExpiry f i d t) s = .next (withOp f i d (fun p => { p with loc := .global }) s1)) ∧
    (∀ a, o.st = .ready → o.aged = false → ageNs s fl.cls = some a → o.readyAt + a ≤ t →
      exec (.opAged f i d t) s =
        .next (bump .fscAged fl.cls (withOp f i d (fun p => { p with aged := true }) s1))) ∧
    (∀ n res, n < 272 → (vpeAt s n).op = some (f, i, d) →
      Answers (.opComplete n res) s (fun u =>
        u = { s with vpes := FMap.set s.vpes n { vpeAt s n with op := none, run := .idle },
                     fsc := { s.fsc with presented := s.fsc.presented ++ [.complete n f i d (resultOf s n res)] } }))

/-- R257, R258: an idle VPE of a running cluster takes the best entry of its lists: the VPE then holds that op and is the home
of its flow; an idle VPE with empty lists steals the op that R257 names, with a count. The model's own choice in it is log
entry 94. -/
def Obligations.DispatchLoadsTheVpe : Prop :=
  ∀ (s : State) (n f i d : Nat),
    (∀ o, alive s = true → vpeFree (roundIf s) n = true → bestFor (roundIf s) n f i d = true →
      opAt (roundIf s) f i d = some o →
      Answers (.opDispatch n f i d) s (fun t => t = dispatch n f i d (roundIf s) ∧ (vpeAt t n).op = some (f, i, d))) ∧
    (∀ t o, alive (roundIf (advance t s)) = true → vpeFree (roundIf (advance t s)) n = true →
      stealFor (roundIf (advance t s)) n t = some (f, i, d) → opAt (roundIf (advance t s)) f i d = some o →
      Answers (.stealAgeExpiry n t) s (fun u =>
        u = dispatch n f i d (bump .fscSteal (n / 16) (roundIf (advance t s))) ∧ (vpeAt u n).op = some (f, i, d)))

/-- R23, R35, R36, R38, R253, R264, R265, R272, R287: the round in its six steps, after which radio events are taken, and the two
timers that follow one. With nothing presented, a tick raises the tick number by one, brings the local timeline to the tick's edge
at the least, and closes every pace-monitor window. The edge lies a period after the last one, where ticks are aligned to device
time, and departs from that by at most 500 ppm otherwise. DEADLINE_EXPIRY of a VOID flow without open roots marks the instance missed and voids its ops as
LATE_VOID; PRED_TICKS_EXPIRY resolves the predicate to 0. The model's own choices in it are log entries 31, 76, 94 and 110. -/
def Obligations.RoundsDeadlinesAndTicks : Prop :=
  ∀ (s : State), alive s = true →
    (exec .arbitrationRound s = .next (
      let evs := s.fsc.presented
      let judged := evs.foldl judgeEvent (withFsc (fun c => { c with presented := [] }) s)
      let completed := retryOutputs (evs.foldl completeEvent judged)
      let cancelled := evs.foldl cancelEvent (releaseAll completed)
      let ready := readiness (arrivals cancelled)
      radioRound (pressure (countStalls (buildRounds ((FMap.keys ready.rtps).foldl (fun t c => repairRound c t) ready)))))) ∧
    (∀ f i fl x dl, let s1 := settleNow (roundIf s)
      flow? s1 f = some fl → fl.inst? i = some x → x.deadline = some dl → dl ≤ s1.clk.tick → fl.lateRelease = false →
      openRoots x = [] → x.missed = false →
      exec (.deadlineExpiry f i) s = .next
        (withInst f i (fun y => { y with ops := y.ops.map (lateVoid fl.miss) })
          (bumpN .deadlineMiss f 1 1 (bump .deadlineMiss fl.cls (withInst f i (fun y => { y with missed := true }) s1))))) ∧
    (∀ f i d fl x o, let s1 := judgePred f i d (roundIf s)
      flow? s1 f = some fl → fl.inst? i = some x → x.op? d = some o → (fl.node d).predKind = 2 → o.pred = none →
      o.st ≠ .released → x.due + (fl.node d).predTicks ≤ s1.clk.tick →
      exec (.predTicksExpiry f i d) s = .next (resolvePred f i d false s1)) ∧
    (s.fsc.presented = [] → Answers .tick s (fun t =>
      t.clk.tick = s.clk.tick + 1 ∧ t.clk.tickAt = nextTickAt s ∧ t.clk.localNs = max s.clk.localNs (nextTickAt s) ∧ t.fsc.pace = [] ∧
      t.clk.offset + t.clk.slewLeft = s.clk.offset + s.clk.slewLeft)) ∧
    (((s.clk.tickAt : Int) + s.clk.offset) % (tickNs s : Nat) = 0 → nextTickAt s = s.clk.tickAt + tickNs s) ∧
    2000 * ((nextTickAt s : Int) - ((s.clk.tickAt + tickNs s : Nat) : Int)).natAbs ≤ tickNs s

/-! ### Voice channels and packet voice -/

/-- R4, R5, R49, R50, R51: the commands of voice channels. CHAN_SETUP establishes the channel with its flow of class C1 whose period
is one frame; CHAN_MODIFY keeps the new parameters for the next frame and counts its units at once, but what it gives up only when its
completion is written (R5); CHAN_RELEASE marks the channel and waits. A channel number that is established is refused, and the channel units never exceed 32 768. The model's
own choices in it are log entries 27 and 80. -/
def Obligations.ChannelCommandsEstablishAndRelease : Prop :=
  ∀ (h : CmdHdr) (s : State),
    let s1 := take h.ring s
    let p := chanParams (blk h)
    (Ready (blockCmd 0x0101 2 64 true) h s → chanSetupStatus s1 (blk h) = St.ok →
      Answers (.chanSetup h) s (fun t =>
        t = { s with chans := t.chans, fsc := t.fsc, free := t.free, hif := t.hif, sec := t.sec, counters := t.counters } ∧
        (∃ c, FMap.get? t.chans p.channel = some c ∧ c.p = p ∧ c.ring = h.ring ∧ c.units = unitsOf p ∧ c.next = none ∧
          c.releasing = none ∧ c.frame = 0) ∧
        (∀ n, n ≠ p.channel → FMap.get? t.chans n = FMap.get? s.chans n) ∧
        ∃ fl, flow? t p.channel = some fl ∧ fl.cls = 1 ∧ fl.period = frameTicks s ∧ fl.ring = h.ring ∧ fl.insts = [])) ∧
    (Ready (blockCmd 0x0101 2 64 true) h s → FMap.has s.chans p.channel = true →
      exec (.chanSetup h) s = .next (finish (blockCmd 0x0101 2 64 true) h s St.badParam [] s1)) ∧
    (Ready (blockCmd 0x0101 2 64 true) h s → chanParamsOk s1 (blk h) = true → FMap.has s.chans p.channel = false →
      32768 < (((s.chans.filter (fun e => e.1 != p.channel)).map (fun e => e.2.units)).sum + unitsOf p) →
      exec (.chanSetup h) s = .next (finish (blockCmd 0x0101 2 64 true) h s St.noCapacity [] s1)) ∧
    (Ready (blockCmd 0x0102 2 64 true) h s → chanModifyStatus s1 (blk h) = St.ok →
      let u := finish (blockCmd 0x0102 2 64 true) h s St.ok []
        { s1 with chans := FMap.adj s.chans p.channel (fun c => { c with next := some p, units := unitsOf p }) }
      exec (.chanModify h) s = .next (holdFreed (cplOf s h.ring) s u) ∧
      (waitingCpl u (cplOf s h.ring) = waitingCpl s (cplOf s h.ring) → exec (.chanModify h) s = .next u)) ∧
    (∀ n c, Ready (plainCmd 0x0103 2) h s → FMap.get? s.chans n = some c → c.releasing = none →
      exec (.chanRelease h n) s = .next (waits (plainCmd 0x0103 2) h s
        { s1 with chans := FMap.adj s.chans n (fun c => { c with releasing := some (h.ring, heldOf 0x0103 h s1) }) }))

/-- R83, R84, R106: the commands of RTP contexts. RTP_SETUP leaves a fresh context, without keys, whose first report is due
within 0.5 to 1.5 times its interval; RTP_MODIFY takes on the new parameters; RTP_RELEASE erases the context with its keys,
and is refused while a channel names it; SRTP_KEY loads the slot and direction that its block names. No other context
changes. The model's own choices in it are log entries 77 and 99. -/
def Obligations.RtpContextCommands : Prop :=
  ∀ (h : CmdHdr) (s : State),
    let s1 := take h.ring s
    let p := rtpParams (blk h)
    (Ready (blockCmd 0x0111 2 128 true) h s → rtpSetupStatus s1 (blk h) = St.ok →
      Answers (.rtpSetup h) s (fun t =>
        t = { s with rtps := t.rtps, free := t.free, hif := t.hif, sec := t.sec, counters := t.counters } ∧
        (∀ n, n ≠ p.context → FMap.get? t.rtps n = FMap.get? s.rtps n) ∧
        ∃ x, FMap.get? t.rtps p.context = some x ∧ x.p = p ∧ x.ring = h.ring ∧ x.txSeq = p.txSeqInit ∧ x.jb = [] ∧
          x.delay = p.jbNom ∧ x.txKey = none ∧ x.txNext = none ∧ x.rxKey = none ∧ x.rxNext = none ∧
          now s + p.rtcpInterval * 1000000000 / 2 ≤ x.rtcp.nextAt ∧
          x.rtcp.nextAt ≤ now s + p.rtcpInterval * 1000000000 / 2 + p.rtcpInterval * 1000000000)) ∧
    (Ready (blockCmd 0x0112 2 128 true) h s → rtpModifyStatus s1 (blk h) = St.ok →
      Answers (.rtpModify h) s (fun t =>
        (∀ n, n ≠ p.context → FMap.get? t.rtps n = FMap.get? s.rtps n) ∧ t.chans = s.chans ∧ t.fsc = s.fsc ∧
        ∃ x y, FMap.get? s.rtps p.context = some x ∧ FMap.get? t.rtps p.context = some y ∧ y.p = p ∧ y.jb = x.jb ∧
          y.txSeq = x.txSeq ∧ y.txTs = x.txTs ∧ y.rxKey = x.rxKey ∧ y.delay = x.delay)) ∧
    (∀ n, Ready (plainCmd 0x0113 2) h s → (rtp? s n).isSome = true → chanOf s n = none →
      Yields (.rtpRelease h n) s { s with rtps := FMap.del s.rtps n }) ∧
    (∀ n, Ready (plainCmd 0x0113 2) h s → (chanOf s n).isSome = true →
      exec (.rtpRelease h n) s = .next (finish (plainCmd 0x0113 2) h s St.badParam [] s1)) ∧
    (Ready (blockCmd 0x0114 2 64) h s → srtpKeyBlockOk (blk h) = true → (rtp? s (leAt (blk h) 0 2)).isSome = true →
      let k := srtpKeyOf (blk h)
      let rx := bit (byteAt (blk h) 2) 0
      let next := bit (byteAt (blk h) 2) 1
      exec (.srtpKey h) s = .next (finish (blockCmd 0x0114 2 64) h s St.ok [] { s1 with
        rtps := FMap.adj s.rtps (leAt (blk h) 0 2) (fun x =>
          if rx then (if next then { x with rxNext := some { k with atSeq := none } } else { x with rxKey := some { k with atSeq := none } })
          else (if next then { x with txNext := some k } else { x with txKey := some { k with atSeq := none } })) }))

/-- R87, R88, R97, R99: a received packet. The checks drop it in their order: the first that fails drops the packet whole with
one count against the context, and nothing else changes but time; a packet for a context without a channel is counted after
check 1. The first packet of a source that passes every check is accepted: the context notes the source, its sequence number
and the instant, the silence ends, and no other context or channel changes. The model's own choice in it is log entry 77. -/
def Obligations.RtpPacketsAreCheckedAndAccepted : Prop :=
  (∀ (s : State) (c t sport : Nat) (src d : Bytes) (x : Rtp), alive s = true → rtp? s c = some x →
      let s1 := advance t s
      let dropped := fun (k : Ctr) => exec (.rtpRxPacket c src sport d t) s = .next (bump k c s1)
      let srcFails := x.p.srcCheck = true ∧ ¬ (src = addrOf x.p.ipv6 x.p.remoteAddr ∧ sport = x.p.remotePort)
      (srcFails → dropped .rtpSrc) ∧
      (¬ srcFails → chanOf s c = none → dropped .rtpNochan) ∧
      (¬ srcFails → (chanOf s c).isSome = true → x.p.srtp = true → x.rxKey = none → dropped .srtpAuth) ∧
      (¬ srcFails → (chanOf s c).isSome = true → x.p.srtp = false → rtpHeadLen d = none → dropped .rtpHdr) ∧
      (∀ hl, ¬ srcFails → (chanOf s c).isSome = true → x.p.srtp = false → rtpHeadLen d = some hl → byteAt d 0 / 64 ≠ 2 →
        dropped .rtpHdr) ∧
      (∀ hl, ¬ srcFails → (chanOf s c).isSome = true → x.p.srtp = false → rtpHeadLen d = some hl → byteAt d 0 / 64 = 2 →
        bit (byteAt d 0) 5 = false → x.p.ssrcFixed = true → BitVec.ofNat 32 (beAt d 8 4) ≠ x.p.rxSsrc → dropped .rtpSsrc)) ∧
  ∀ (s : State) (c t sport hl n f : Nat) (src d : Bytes) (x : Rtp) (ch : Chan) (noise : Bool),
    alive s = true → rtp? s c = some x → chanOf s c = some (n, ch) → x.p.srcCheck = false → x.p.srtp = false →
    rtpHeadLen d = some hl → byteAt d 0 / 64 = 2 → bit (byteAt d 0) 5 = false → x.p.ssrcFixed = false → x.remote = none →
    x.highSeq = none → payloadOf x ch (byteAt d 1 % 128) (d.drop hl) = .ok (.audio f noise) →
    Answers (.rtpRxPacket c src sport d t) s (fun u =>
      u = { advance t s with rtps := u.rtps, hif := u.hif, sec := u.sec, counters := u.counters, free := u.free } ∧
      (∀ m, m ≠ c → FMap.get? u.rtps m = FMap.get? s.rtps m) ∧
      ∃ y, FMap.get? u.rtps c = some y ∧ y.remote = some (BitVec.ofNat 32 (beAt d 8 4)) ∧
        y.highSeq = some (extendSeq none (BitVec.ofNat 16 (beAt d 2 2))) ∧ y.lastRx = now (advance t s) ∧
        y.timedOut = false ∧ y.p = x.p ∧ y.txSeq = x.txSeq)

/-- R108, R109: RTCP. A packet never touches playout: whatever arrives, a context keeps its parameters, its jitter buffer and
its delay, and only its keys and RTCP figures change; a BYE from the remote source raises RTCP_BYE, and another one is counted. A report that is due goes out and the
next one falls 0.5 to 1.5 intervals later. The model's own choice in it is log entry 77. -/
def Obligations.RtcpNeverTouchesPlayout : Prop :=
  ∀ (s : State) (c t : Nat) (x : Rtp), alive s = true → rtp? s c = some x →
    (∀ (src d : Bytes) (sport : Nat), Answers (.rtcpRx c src sport d t) s (fun u =>
      u = { advance t s with rtps := u.rtps, hif := u.hif, sec := u.sec, counters := u.counters } ∧
      (∀ m, m ≠ c → FMap.get? u.rtps m = FMap.get? s.rtps m) ∧
      ∃ y, FMap.get? u.rtps c = some y ∧ y = { x with rtcp := y.rtcp, rxKey := y.rxKey, rxNext := y.rxNext })) ∧
    (∀ (src d part : Bytes) (sport : Nat), x.p.srcCheck = false → (chanOf s c).isSome = true → x.p.srtp = false →
      rtcpParts 64 d = [(203, 1, part)] →
      exec (.rtcpRx c src sport d t) s = .next
        (if x.remote = some (BitVec.ofNat 32 (beAt part 4 4)) then rtpEvent Ev.rtcpBye c (advance t s)
         else bump .rtcpOther c (advance t s))) ∧
    ((chanOf s c).isSome = true → x.rtcp.nextAt ≤ t → Answers (.rtcpReportTimer c t) s (fun u =>
      u.chans = s.chans ∧ u.fsc = s.fsc ∧ (∀ m, m ≠ c → FMap.get? u.rtps m = FMap.get? s.rtps m) ∧
      ∃ y, FMap.get? u.rtps c = some y ∧ y = { x with rtcp := y.rtcp, txKey := y.txKey } ∧
        now (advance t s) + x.p.rtcpInterval * 1000000000 / 2 ≤ y.rtcp.nextAt ∧
        y.rtcp.nextAt ≤ now (advance t s) + x.p.rtcpInterval * 1000000000 / 2 + x.p.rtcpInterval * 1000000000))

/-- R65, R78, R99, R103: the timers of a voice channel and its context. The generated tone stops three packet periods after its
last update; the tone disabler lets go after 250 ms (50 blocks of 5 ms) of quiet in both directions, so that the canceller,
the NLP, the VAD and the ALC run again. RX_TIMEOUT crosses once when nothing has been accepted for rx_timeout; a drift
estimate takes the change of the mean buffer delay and smooths it with weight 1/4 (log entry 30), gives no correction within 2 ppm and at most 300 ppm. The
model's own choices in it are log entries 30 and 31. -/
def Obligations.VoiceTimers : Prop :=
  (∀ (s : State) (n t : Nat) (c : Chan), alive s = true → FMap.get? s.chans n = some c →
    (∀ r, c.regen = some r → r.ended = false → r.until_ ≤ t →
      exec (.dtmfRegenTimeout n t) s = .next (withChan n Chan.hush (advance t s)) ∧ c.hush.regen = none) ∧
    (50 ≤ c.quiet → c.ansSeen = true ∨ c.ecOff = true ∨ c.suspended = true →
      Yields (.toneDisablerRelease n t) s (withChan n (fun c => { c with ansSeen := false, suspended := false, ecOff := false })
        (advance t s)))) ∧
  ∀ (s : State) (c t : Nat) (x : Rtp), alive s = true → rtp? s c = some x → (chanOf s c).isSome = true →
    (x.p.rxTimeout ≠ 0 → x.timedOut = false → x.lastRx + x.p.rxTimeout * 100000000 ≤ t →
      Yields (.rxTimeoutExpiry c t) s (withRtp c (fun y => { y with timedOut := true }) (advance t s))) ∧
    (∀ (n : Nat) (ch : Chan) (m : Int), x.driftAt ≤ t → chanOf s c = some (n, ch) → x.prevMean = some m →
      Answers (.driftEstimate c n t) s (fun u =>
      ∃ y, u = { withRtp c (fun _ => y) (advance t s) with hif := u.hif, sec := u.sec, counters := u.counters } ∧
        y = { x with prevMean := some (meanDelay x), driftAt := t + 10000000000, raw := y.raw, eps := y.eps, excess := y.excess
                     delaySum := 0, delayNum := 0 } ∧
        (x.delayNum ≠ 0 → meanDelay x = ((x.delaySum / x.delayNum : Nat) : Int)) ∧
        y.raw = x.raw + Int.tdiv (Int.tdiv (meanDelay x - m) 100 - x.raw) 4 ∧
        (y.raw.natAbs ≤ 200 → y.eps = 0) ∧ (200 < y.raw.natAbs → y.eps = max (-30000) (min 30000 y.raw))))

/-! ### Teleprotection -/

/-- R112, R115, R116, R121, R122, R132: the commands of teleprotection channels. TP_SETUP leaves a fresh channel (QUIET, no command,
no keys) with its ordered flow of class C0, and drives its balls; TP_MODIFY keeps the parameters for the next decision; TP_RELEASE takes the channel and its flow away;
TP_KEY loads one key; TP_COMMAND waits for the next decision; TP_TEST begins the on phase of its series at once. No other
channel changes. The model's own choices in it are log entries 66 and 105. -/
def Obligations.TeleprotectionCommands : Prop :=
  ∀ (h : CmdHdr) (s : State),
    let s1 := take h.ring s
    let p := tpParams (blk h)
    (Ready (blockCmd 0x0121 2 128 true) h s → tpSetupStatus s1 (blk h) = St.ok →
      Answers (.tpSetup h) s (fun t =>
        t = { s with tps := t.tps, tpio := t.tpio, fsc := t.fsc, free := t.free, hif := t.hif, sec := t.sec, counters := t.counters } ∧
        (∀ n, n ≠ p.tp → tp? t n = tp? s n) ∧ (∃ q, tp? t p.tp = some (Tp.fresh p h.ring q (now s))) ∧
        (∀ f, f ≠ tpFlowKey p.tp → flow? t f = flow? s f) ∧
        (∃ fl, flow? t (tpFlowKey p.tp) = some fl ∧ fl.cls = 0 ∧ fl.lateRelease = true ∧ fl.ring = h.ring ∧ fl.insts = []) ∧
        t.tpio = (driveBalls { s with tps := t.tps }).tpio)) ∧
    (Ready (blockCmd 0x0122 2 128 true) h s → tpModifyStatus s1 (blk h) = St.ok →
      exec (.tpModify h) s = .next (finish (blockCmd 0x0122 2 128 true) h s St.ok []
        { s1 with tps := FMap.adj s.tps p.tp (fun x => { x with next := some p }) })) ∧
    (∀ n, Ready (plainCmd 0x0123 2) h s → (tp? s n).isSome = true →
      Answers (.tpRelease h n) s (fun t =>
        t = { s with tps := FMap.del s.tps n, tpio := t.tpio, fsc := t.fsc, qmg := t.qmg, eth := t.eth, prp := t.prp, figs := t.figs
                     hif := t.hif, sec := t.sec, counters := t.counters } ∧
        flow? t (tpFlowKey n) = none ∧ (∀ f, f ≠ tpFlowKey n → flow? t f = flow? s f) ∧
        t.tpio = (driveBalls { s with tps := t.tps }).tpio)) ∧
    (∀ n rx k, Ready (plainCmd 0x0124 2) h s → (tp? s n).isSome = true →
      exec (.tpKey h n rx k) s = .next (finish (plainCmd 0x0124 2) h s St.ok [] { s1 with
        tps := FMap.adj s.tps n (fun x =>
          if rx then { x with rxKey := some (padTo 32 k) } else { x with txKey := some (padTo 32 k) }) })) ∧
    (∀ n cmd x, Ready (plainCmd 0x0125 2) h s → tp? s n = some x → x.p.src = 3 →
      exec (.tpCommand h n cmd) s = .next (finish (plainCmd 0x0125 2) h s St.ok []
        { s1 with tps := FMap.adj s.tps n (fun y => { y with hostCmd := some cmd }) })) ∧
    (∀ n cmd ms k x, Ready (plainCmd 0x0126 2) h s → tp? s n = some x → tpTestStatus s1 n ms k = St.ok →
      Answers (.tpTest h n cmd ms k) s (fun t =>
        (∀ m, m ≠ n → tp? t m = tp? s m) ∧ t.tpio = s.tpio ∧ t.regs = s.regs ∧ t.chans = s.chans ∧ t.rtps = s.rtps ∧
        ∃ y, tp? t n = some y ∧ y.st = x.st ∧ y.cmd = x.cmd ∧
          y.test = some { cmd, durNs := 1000000 * ms, left := k - 1, on := true, endsAt := now s + 1000000 * ms }))

/-- R118 to R123, R127, R132: the send side of a teleprotection channel. A decision moves the states of R120; the guard alarm is
entered when guard and candidate have been absent for guard_alarm; a source ball follows eight samples in a row; a heartbeat
is one frame with the next sequence number; the phases of a test follow each other. The model's own choices in it are log
entries 31 and 66. -/
def Obligations.TeleprotectionSendSide : Prop :=
  ∀ (s : State) (n t : Nat) (x : Tp), alive s = true → tp? (advance t s) n = some x →
    (∀ (k : Nat) (z : Tp), devOf s t % 1000000000 = 125000 * k → tp? (tpTakeNext n (advance t s)) n = some z →
      z.p.src = 1 ∨ z.p.src = 2 →
      Answers (.ttuDecision n k t) s (fun u =>
        u = { advance t s with tps := u.tps, tpio := u.tpio, eth := u.eth, prp := u.prp, figs := u.figs, free := u.free,
                               fsc := u.fsc, qmg := u.qmg, hif := u.hif, counters := u.counters } ∧
        (∀ m, m ≠ n → tp? u m = tp? s m) ∧
        ∃ y f, tp? u n = some y ∧ y.p = z.p ∧ y.sinkCmd = z.sinkCmd ∧
          (z.p.src = 1 → ∃ d, f = toneDecision z.p (ttuObs z) d) ∧ (z.p.src = 2 → f = ballDecision z.p s.tpio.active) ∧
          (∀ w, z.st = .quiet → f.cand = some w → y.st = .dwell ∧ y.dwellSet = w ∧ y.dwellAt = t ∧ y.cmd = z.cmd) ∧
          (z.st = .quiet → f.cand = none → z.p.src = 1 →
            heldFor (sinceOf f.guardOff z.absentSince t) (1000000 * z.p.guardAlarm) t = true → y.st = .alarm) ∧
          (z.st = .dwell → f.cand = some z.dwellSet → z.dwellAt + 1000000 * z.p.dwell ≤ t →
            y.st = .command ∧ y.cmd = z.dwellSet ∧ y.confirmedAt = some t) ∧
          (z.st = .dwell → f.cand ≠ some z.dwellSet → y.st = .quiet ∧ y.cmd = 0 ∧ y.held = none) ∧
          (z.st = .dwell → f.cand = some z.dwellSet → t < z.dwellAt + 1000000 * z.p.dwell → z.p.prearm = true → z.sends = true →
            2 * z.dwellAt + 1000000 * z.p.dwell ≤ 2 * t → z.held = none →
            y.held = none ∨ ∃ q, y.held = some q ∧ q.cmd = z.dwellSet ∧ q.seq = z.seq ∧
              q.txTime = BitVec.ofNat 64 (devOf (advance t s) (z.dwellAt + 1000000 * z.p.dwell))) ∧
          (z.st = .command → heldFor (sinceOf f.guardOn z.presentSince t) 1000000 t = true → y.st = .quiet ∧ y.cmd = 0) ∧
          (z.st = .alarm → heldFor (sinceOf f.guardOn z.presentSince t) 50000000 t = true → y.st = .quiet ∧ y.cmd = 0))) ∧
    (∀ (k : Nat) (z : Tp) (w : BitVec 4), devOf s t % 1000000000 = 125000 * k → tp? (tpTakeNext n (advance t s)) n = some z →
      z.p.src = 3 → z.hostCmd = some w →
      Answers (.ttuDecision n k t) s (fun u => ∃ y, tp? u n = some y ∧ y.cmd = w ∧ y.hostCmd = none ∧
        y.st = if w = 0 then .quiet else .command)) ∧
    (∀ a, x.p.src = 1 → x.st = .quiet → x.absentSince = some a → a + 1000000 * x.p.guardAlarm ≤ t →
      Answers (.guardAlarmExpiry n t) s (fun u => (∀ m, m ≠ n → tp? u m = tp? s m) ∧ (notice? u Ev.guardFail n).isSome = true ∧
        ∃ y, tp? u n = some y ∧ y.st = .alarm ∧ y.cmd = x.cmd ∧ y.changes = x.changes)) ∧
    (∀ levels : BitVec 32, Answers (.tpioSample levels t) s (fun u =>
      u = { advance t s with tpio := u.tpio } ∧ u.tpio.driven = s.tpio.driven ∧ u.tpio.level = s.tpio.level ∧
      ∀ b, let raw : Bool := levels.getLsbD b == flag s .tpioPolarity 0 b
        (b ∉ sourceBalls s ∨ raw = s.tpio.active.getLsbD b → u.tpio.active.getLsbD b = s.tpio.active.getLsbD b) ∧
        (b < 32 → b ∈ sourceBalls s → raw ≠ s.tpio.active.getLsbD b → 7 ≤ FMap.getD s.tpio.runs b 0 →
          u.tpio.active.getLsbD b = raw))) ∧
    (devOf s t % 1000000 = (n % 4) * 250000 → x.confirmedAt ≠ some t →
      Answers (.tpHeartbeat n t) s (fun u => (∀ m, m ≠ n → tp? u m = tp? s m) ∧ u.tpio = s.tpio ∧ u.regs = s.regs ∧
        ∃ y, tp? u n = some y ∧ y = { x with seq := y.seq, sentCmd := y.sentCmd, held := y.held } ∧
          (x.sends = true → y.seq = x.seq + 1 ∧ y.sentCmd = x.frameCmd) ∧ (x.sends = false → u = advance t s))) ∧
    (∀ v, x.test = some v → v.endsAt ≤ t →
      Answers (.tpTestPhase n t) s (fun u => (∀ m, m ≠ n → tp? u m = tp? s m) ∧ u.tpio = s.tpio ∧
        ∃ y, tp? u n = some y ∧ y.cmd = x.cmd ∧ y.st = x.st ∧
          y.test = if v.on = true ∧ v.left = 0 then none
            else some { v with on := !v.on, left := if v.on then v.left else v.left - 1, endsAt := v.endsAt + v.durNs }))

/-- R130 to R133: the receive side of a teleprotection channel. A frame that fails a check is counted and has no other effect;
one that passes restores the link and, unless it is a test frame or closes the channel, drives the commands: rises at once,
falls once out_min has passed since their rise. A silence of hb_timeout takes every command to its fail state. The model's
own choice in it is log entry 67. -/
def Obligations.TeleprotectionReceiveSide : Prop :=
  ∀ (s : State) (n t : Nat) (x : Tp), alive s = true → tp? s n = some x →
    let held := fun (u : State) => u = { advance t s with tps := u.tps, tpio := u.tpio, free := u.free, hif := u.hif, counters := u.counters } ∧
      ∀ m, m ≠ n → tp? u m = tp? s m
    (∀ d c, tpCheck x d = .error c → exec (.tpRxFrame n d t) s = .next (bump c n (advance t s))) ∧
    (∀ d lost, tpCheck x d = .ok lost →
      Answers (.tpRxFrame n d t) s (fun u => held u ∧ ∃ y, tp? u n = some y ∧ y.p = x.p ∧ y.st = x.st ∧ y.cmd = x.cmd ∧
        y.rxSeq = some (BitVec.ofNat 32 (beAt d 4 4)) ∧ y.lastRx = t ∧ y.linkFail = false ∧ y.closed = bit (byteAt d 1) 2 ∧
        (bit (byteAt d 1) 0 = true → y.sinkCmd = x.sinkCmd) ∧
        (bit (byteAt d 1) 0 = false → bit (byteAt d 1) 2 = false → ∀ i, i < 4 →
          y.sinkCmd.getLsbD i = (bit (byteAt d 8) i ||
            (x.sinkCmd.getLsbD i && decide (t < FMap.getD x.riseAt i 0 + 1000000 * x.p.outMin)))))) ∧
    (∀ i, x.pendFall.getLsbD i = true → FMap.getD x.riseAt i 0 + 1000000 * x.p.outMin ≤ t →
      Answers (.tpOutMinExpiry n i t) s (fun u => held u ∧ ∃ y, tp? u n = some y ∧ y.p = x.p ∧ y.rxSeq = x.rxSeq ∧
        y.sinkCmd.getLsbD i = false ∧ ∀ j, j ≠ i → y.sinkCmd.getLsbD j = x.sinkCmd.getLsbD j)) ∧
    (x.linkFail = false → x.closed = false → x.lastRx + 1000000 * x.p.hbTimeout ≤ t →
      Answers (.tpLinkTimeout n t) s (fun u => held u ∧ (notice? u Ev.linkFail n).isSome = true ∧
        ∃ y, tp? u n = some y ∧ y.linkFail = true ∧ y.failSince = t ∧ y.rxSeq = none ∧ ∀ i, i < 4 →
          (x.p.fail.getD i 0 = 0 → y.sinkCmd.getLsbD i = false) ∧
          (x.p.fail.getD i 0 = 1 → x.p.toned = false ∨ x.p.cmdHz.getD i 0 ≠ 0 → y.sinkCmd.getLsbD i = true) ∧
          (2 ≤ x.p.fail.getD i 0 → y.sinkCmd.getLsbD i = x.sinkCmd.getLsbD i)))

/-! ### Radio -/

/-- R139, R140, R142, R144, R146, R147, R150, R168, R528: radio links. RL_ENABLE starts a link in SYNC when its configuration
passes and powers the pairs its lanes use; RL_DISABLE and RL_REALIGN take it out of DATA with its receptions; RL_SPI sends one
transaction and returns what it read, and waits for a slot while a gain loop runs; RL_GAIN_TABLE and RL_GAIN_SET keep what they
are given; a SYSREF edge is dated and two periodic ones measure Fs to the nearest sample; a link moves between SYNC, LOCK and DATA
and its falls raise RL_LINK_DOWN with their reason. The model's own choices in it are log entries 21, 68 and 109. -/
def Obligations.RadioLinks : Prop :=
  ∀ (h : CmdHdr) (s : State) (n : Nat), n < 8 →
    let s1 := take h.ring s
    let tableCmd : CmdSpec := ⟨0x0135, 2, fun k => k == 8 + 8 * byteAt (blk h) 1, true, false⟩
    let others := fun (u : State) => ∀ m, m ≠ n → linkAt u m = linkAt s m
    let stay := fun (u : State) => ∀ m, m ≠ n → linkAt u m = { linkAt s m with ants := (linkAt u m).ants }
    (barOpen s = true → setupLocked s = false → linkEnabled s n = false →
      (linkConfigOk s n = false → exec (.rlEnable n) s = .next (refuse s .rlCtrl n)) ∧
      (linkConfigOk s n = true → Answers (.rlEnable n) s (fun u => u = { s with regs := u.regs, links := u.links } ∧
        others u ∧ linkEnabled u n = true ∧ (linkAt u n).state = 1 ∧
        (linkAt u n).rxPairs = rxPairsUsed s n ∧ (linkAt u n).txPairs = txPairsUsed s n))) ∧
    (barOpen s = true → setupLocked s = false → linkEnabled s n = true →
      exec (.rlEnable n) s = .next s ∧
      Answers (.rlDisable n) s (fun u => stay u ∧ linkEnabled u n = false ∧ (linkAt u n).state = 0 ∧ (linkAt u n).spiWait = [] ∧
        (linkAt u n).rxPairs = [] ∧ (linkAt u n).txPairs = [] ∧ ∀ c x, rxc? u c = some x → x.p.link = n → x.recs = [])) ∧
    (barOpen s = true → setupLocked s = true →
      exec (.rlEnable n) s = .next (if linkEnabled s n then s else bump .setupLockedWr 0 s) ∧
      exec (.rlDisable n) s = .next (if linkEnabled s n then bump .setupLockedWr 0 s else s)) ∧
    (Ready (plainCmd 0x0137 2) h s →
      Answers (.rlRealign h n) s (fun u => stay u ∧ u.regs = s.regs ∧
        (linkAt u n).state = (if (linkAt s n).state = 0 then 0 else 1) ∧
        ((linkAt s n).state ≠ 0 → ∀ c x, rxc? u c = some x → x.p.link = n → x.recs = []))) ∧
    (∀ wlen rlen wbytes answer, Ready (plainCmd 0x0134 2) h s → rlSpiStatus s1 n wlen rlen = St.ok →
      let value := beNat (padTo wlen wbytes)
      let back := padTo 8 (answer.take rlen)
      let sent := { linkAt s n with spiOut := (linkAt s n).spiOut ++ [(8 * wlen, value)] }
      let kept := { linkAt s n with spiWait := (linkAt s n).spiWait ++
        [{ ring := h.ring, held := heldOf 0x0134 h s1, bitsN := 8 * wlen, value, allN := 8 * (wlen + rlen), answer := back }] }
      exec (.rlSpi h n wlen rlen wbytes answer) s = .next (
        if spiSlotted s n then waits (plainCmd 0x0134 2) h s { s1 with links := FMap.set s.links n kept }
        else finish (plainCmd 0x0134 2) h s St.ok back { s1 with links := FMap.set s.links n sent })) ∧
    (Ready tableCmd h s → gainTableStatus s1 (blk h) = St.ok →
      exec (.rlGainTable h) s = .next (finish tableCmd h s St.ok [] (withAnt (fieldAt (blk h) 0 2 0) (fieldAt (blk h) 0 3 3)
        (fun a => { a with table := some (gainTableOf (blk h)) }) s1))) ∧
    (∀ a e, Ready (plainCmd 0x0136 2) h s → gainSetStatus s1 n a e = St.ok →
      exec (.rlGainSet h n a e) s = .next (finish (plainCmd 0x0136 2) h s St.ok []
        (withAnt n a (fun x => { x with manual := some e }) s1))) ∧
    (∀ t off p, alive s = true → (linkAt s n).state ≠ 0 →
      let at_ := devOf s t
      Answers (.sysrefEdge n t off p) s (fun u =>
        u = { advance t s with links := u.links, hif := u.hif, counters := u.counters } ∧ others u ∧
        linkAt u n = { linkAt s n with sysrefAt := some at_, periodic := p, rate := (linkAt u n).rate } ∧
        (p = false ∨ (linkAt s n).periodic = false → (linkAt u n).rate = none) ∧
        (∀ a, p = true → (linkAt s n).periodic = true → (linkAt s n).sysrefAt = some a → a < at_ → at_ ≤ a + 1000000 →
          500000000 ≤ (at_ - a) * fsHz s n →
          ∃ k : Nat, (linkAt u n).rate = some (at_ - a, k) ∧ 2 * ((k * 1000000000 : Int) - ((at_ - a) * fsHz s n : Nat)).natAbs ≤ 1000000000) ∧
        (p = true → 2 ^ fld s .rlCfg n 22 21 * 10 ^ 12 / fsHz s n < off.natAbs → (notice? u Ev.sysrefSlip n).isSome = true))) ∧
    (∀ state reason value, alive s = true →
      ((linkAt s n).state = 1 ∧ state = 2 ∨ (linkAt s n).state = 2 ∧ state = 3 →
        Answers (.rlLinkState n state reason value) s (fun u =>
          u = { s with links := u.links, rxcs := u.rxcs, radio := u.radio, hif := u.hif } ∧ others u ∧
          linkAt u n = { linkAt s n with state := state })) ∧
      ((linkAt s n).state = 3 → state = 3 →
        exec (.rlLinkState n state reason value) s = .next (bumpN .rlCodeErr n 0 value.toNat s)) ∧
      ((linkAt s n).state = 2 ∨ (linkAt s n).state = 3 → state = 1 → downReasonOk s n reason = true →
        Answers (.rlLinkState n state reason value) s (fun u => stay u ∧ u.regs = s.regs ∧ (linkAt u n).state = 1 ∧
          (notice? u Ev.rlLinkDown n).any (fun x => x.reason == reason) = true)))

/-- R147, R169, R170, R171, R172: gain control. A window of link samples passes the chains of the channels that hear its antenna and
is presented for its decision. In AUTO a window above the high mark, or one that clipped, writes the entry below by the down step;
a low window only counts until its run is long enough; a window while a write is on its way, or an unsettled one, starts the run
again; in MANUAL the entry named is written. When the write is done its gain reaches the link samples gain_latency_ns later, and
every channel on the antenna is compensated from their antenna time on, with the receptions in progress marked. The channel gain
follows the mean power while nothing is received. The model's own choices in it are log entries 69, 110 and 111. -/
def Obligations.GainControl : Prop :=
  ∀ (s : State) (n a t : Nat) (x : Antenna), alive s = true → n < 8 → (linkAt s n).ants[a]? = some x →
    let s1 := advance t s
    (∀ iq first unsettled, a < rxAntennas s n →
      Answers (.gainWindowDecision n a t iq first unsettled) s (fun u =>
        u = { s1 with radio := u.radio, rxcs := u.rxcs, bce := u.bce, counters := u.counters } ∧
        u.radio = (if inData s n then s.radio ++ [.window n a (windowPeak iq) (windowClipped iq != 0) unsettled] else s.radio) ∧
        (∀ m c, rxc? s m = some c → c.p.link ≠ n ∨ c.p.antenna ≠ a → rxc? u m = some c) ∧
        (∀ m c d, rxc? s m = some c → c.p.link = n → c.p.antenna = a → linkDate? s n = some d →
          rxc? u m = some (c.feed d (fsHz s n) first (unsettled || !inData s n)
            (if inData s n then iq.map linkSample else iq.map (fun _ => (0, 0)))).1))) ∧
    (∀ (peak : Nat) (clipped unsettled : Bool),
      let hi : Int := -100 * (fld s .rlAgc (2 * n + a) 4 1 : Nat)
      let lo : Int := -100 * (fld s .rlAgc (2 * n + a) 10 5 : Nat)
      let low := entryAtMost x (x.gain - 4 * (fld s .rlAgc (2 * n + a) 15 11 : Nat))
      let auto : Prop := flag s .rlAgc (2 * n + a) 0 = false
      let u := gainDecision n a peak clipped unsettled s
      u = { s with links := u.links, counters := u.counters } ∧ (∀ m, m ≠ n → linkAt u m = linkAt s m) ∧
      ∃ y, (linkAt u n).ants[a]? = some y ∧
        y = { x with entry := y.entry, lowRun := y.lowRun, writing := y.writing, manual := y.manual, lastClip := clipped } ∧
        (∀ e d r, x.writing = some ⟨e, d, some r⟩ → r ≤ now s → flag s .rlAgc (2 * n + a) 0 = true → x.manual = none →
          y.entry = e ∧ y.writing = none) ∧
        (∀ e d r, auto → x.writing = some ⟨e, d, r⟩ → (∀ v, r = some v → now s < v) →
          y.lowRun = 0 ∧ y.writing = x.writing ∧ y.entry = x.entry) ∧
        (auto → x.writing = none → unsettled = true → y.lowRun = 0 ∧ y.writing = none) ∧
        (∀ w, auto → x.writing = none → unsettled = false → x.frozen = false → hi ≤ peakDb peak ∨ clipped = true →
          x.table.bind (fun g => g.entries[low]?) = some w →
          y.lowRun = 0 ∧ y.writing = if low = x.entry then none else some ⟨low, w.1 - x.gain, none⟩) ∧
        (auto → x.writing = none → unsettled = false → x.frozen = false → peakDb peak < hi → clipped = false → peakDb peak < lo →
          x.lowRun + 1 < fld s .rlAgc (2 * n + a) 27 20 → y.lowRun = x.lowRun + 1 ∧ y.writing = none) ∧
        (∀ e w, flag s .rlAgc (2 * n + a) 0 = true → x.manual = some e → x.writing = none →
          x.table.bind (fun g => g.entries[e]?) = some w →
          y.manual = none ∧ y.writing = if e = x.entry then none else some ⟨e, w.1 - x.gain, none⟩)) ∧
    (∀ e d, a < 2 → x.writing = some ⟨e, d, none⟩ →
      let reach := t + gainLatency s n a
      Answers (.gainWriteDone n a t) s (fun u =>
        u = { s1 with links := u.links, rxcs := u.rxcs } ∧
        (linkAt u n).ants[a]? = some { x with writing := some ⟨e, d, some reach⟩ } ∧
        ∃ from_ : Int, (∀ g, linkDate? s n = some g → from_ = g.antenna (releasedFrom s n g (devOf s reach)) 1) ∧
          u.rxcs = FMap.mapV s.rxcs (fun _ c => if c.hears n a then { c with comp := c.comp ++ [(from_, d)] } else c))) ∧
    (∀ (c : Rxc) (at_ stamp d : Int), c.comp = [(at_, d)] →
      (stamp < at_ → c.compensate stamp = c) ∧
      (at_ ≤ stamp → c.compensate stamp = { c with gain := clampGain (c.gain - d), comp := []
                                                   recs := c.recs.map (fun r => { r with gainStep := r.gainStep || decide (r.detectAt < at_) }) })) ∧
    (∀ rx c, rxc? s rx = some c → c.recs = [] → c.recent.length = 64 →
      let d := { c with gain := gainUpdate c.gain (meanDb c.recent.sum 64), recent := [] }
      exec (.channelGainUpdate rx t) s = .next { s1 with rxcs := FMap.set s.rxcs rx d })

/-- R153, R154, R155, R157, R158, R343: the commands of receive channels. RXC_SETUP leaves a channel without a reception whose chain
has just started: the NCO at minus the centre, the half-band stages and the ratio of the rates, and N unsettled samples to come;
RXC_MODIFY takes on the parameters and, where the centre or the preset moves, restarts the chain and abandons what is being
received; RXC_RELEASE takes the channel away and ends its capture; RL_CAPTURE begins one as a long operation. The model's own
choices in it are log entries 21 and 71. -/
def Obligations.ReceiveChannelCommands : Prop :=
  ∀ (h : CmdHdr) (s : State),
    let s1 := take h.ring s
    let p := rxcParams (blk h)
    (Ready (blockCmd 0x0131 2 64 true) h s → rxcSetupStatus s1 (blk h) = St.ok →
      let c := Rxc.fresh (fsHz s p.link) h.ring p
      c.recs = [] ∧ c.gain = 0 ∧ c.unsettled = (presetTaps p.preset).2.2 ∧ c.chain.step = ncoStep (fsHz s p.link) p.centreHz ∧
      c.chain.ratio = radioRatio (fsHz s p.link) p.bw ∧ c.chain.halves.length = halfBands (fsHz s p.link) p.bw ∧
      exec (.rxcSetup h) s = .next (finish (blockCmd 0x0131 2 64 true) h s St.ok []
        { dropCounters [.recSeg, .recDrop] (65536 + p.rx) s1 with rxcs := FMap.set s.rxcs p.rx c })) ∧
    (∀ c, Ready (blockCmd 0x0132 2 64 true) h s → rxcModifyStatus s1 (blk h) = St.ok → rxc? s p.rx = some c →
      Answers (.rxcModify h) s (fun t =>
        t = { s with rxcs := t.rxcs, radio := t.radio, links := t.links, hif := t.hif, sec := t.sec, counters := t.counters } ∧
        (∀ n, n ≠ p.rx → rxc? t n = rxc? s n) ∧
        ∃ d, rxc? t p.rx = some d ∧ d.p = p ∧ d.gain = c.gain ∧
          (c.p.centreHz = p.centreHz ∧ c.p.preset = p.preset → d = { c with p := p } ∧ t.links = s.links) ∧
          (c.p.centreHz ≠ p.centreHz ∨ c.p.preset ≠ p.preset → d.recs = [] ∧ (∀ r, r ∈ d.runs → r.wins = []) ∧
            d.chain = Chain.start (fsHz s p.link) p ∧ d.unsettled = (presetTaps p.preset).2.2))) ∧
    (∀ n, Ready (plainCmd 0x0133 2) h s → FMap.has s.rxcs n = true →
      Answers (.rxcRelease h n) s (fun t =>
        t = { s with rxcs := FMap.del s.rxcs n, radio := s.radio.filter (fun e => e.channel? != some n), links := t.links, bce := t.bce, hif := t.hif, sec := t.sec, counters := t.counters } ∧
        t.bce = { s.bce with captures := FMap.adj s.bce.captures n (fun k => { k with ending := true }) })) ∧
    (∀ n ring ratio k, Ready (plainCmd 0x0138 2) h s → captureStatus s1 n ring ratio k = St.ok → s.hif.longOps.length < 256 →
      let c : Capture :=
        { opId := s.hif.nextOpId, ring, ratio, left := k, done := 0, segNo := 0, gap := 0, first := true, ending := false,
          stamp := 0, buf := [] }
      exec (.rlCapture h n ring ratio k) s = .next (accepted (plainCmd 0x0138 2) h s
        { begun 0x0138 k h s with bce := { s.bce with captures := FMap.set s.bce.captures n c } }))

/-- R162, R164, R165, R166, R172, R175, R186, R188, R191, R192, R194, R195, R197, R343: reception. The search takes a window at an SF
that has left the chain: one that is unsettled, under pk_thr or out of DATA begins the run anew, a hit joins it, and p_q of them that
agree are presented as a qualified preamble. A round takes header results before detections and detections before gain decisions; a
preamble that qualifies where nothing is received becomes a reception with the final step of the channel gain, and abandons one whose
header has not passed. An energy window above the noise floor triggers Mode E and the span's end forgets it; the soft decisions of a
header or a payload are decoded and presented; a good header makes the reception a payload and a bad one ends it; a frame with a bad
CRC counts and is dropped; a capture segment moves its capture on. Deinterleaving takes back interleaving. The model's own choices
in it are log entries 22, 70, 110 and 111. -/
def Obligations.ReceptionGoesByItsWindows : Prop :=
  ∀ (s : State) (n t : Nat), alive s = true →
    let s1 := advance t s
    (∀ c sfs, rxc? s n = some c →
      Answers (.detectWindow n sfs t) s (fun u => u = { s1 with rxcs := u.rxcs, radio := u.radio } ∧
        (∀ m, m ≠ n → rxc? u m = rxc? s m) ∧
        ∃ d, rxc? u n = some d ∧ d = { c with runs := d.runs, trig := d.trig, recs := d.recs } ∧ d.recs.map (·.id) = c.recs.map (·.id) ∧
          (∀ sf w, c.recs = [] → sfs = [sf] → 5 ≤ sf → sf ≤ 12 → c.p.sfMask.testBit (sf - 5) = true →
            c.samples (runOf c sf).next (winLen sf) = some w →
            let r := runNext c (inData s c.p.link) sf w
            u.radio = (if r.qualifies c.p.pq then s.radio ++ [.qualified n (r.qualified c.p.pq)] else s.radio)))) ∧
    (∀ (c : Rxc) data sf w,
      let bins := searchBins sf false (w.map (·.iq))
      let r := runNext c data sf w
      let hit := data = true ∧ (∀ o, o ∈ w → o.unsettled = false) ∧ c.armed sf (runOf c sf).next = true ∧
        reaches (peakRatio bins) c.p.pkThr = true
      r.next = (runOf c sf).next + winLen sf ∧ (¬hit → r.wins = []) ∧
      (hit → r.wins.head? = some ⟨peakOf bins, peakRatio bins, powerSum w, (runOf c sf).next⟩ ∧
        (∀ v rest, (runOf c sf).wins = v :: rest → binsAgree sf v.bin (peakOf bins) = true → r.wins.tail = (v :: rest).take 7)) ∧
      (∀ k, r.qualifies k = true ↔ r.done = false ∧ k ≤ r.wins.length ∧
        ∀ x y, x ∈ r.wins.take k → y ∈ r.wins.take k → binsAgree sf x.bin y.bin = true)) ∧
    (∀ c q, rxc? s n = some c → FMap.wf s.rxcs = true →
      (∀ i h, s.radio = [.qualified n q, .header n i h] →
        radioRound s = detection n [q] (headerStep n i h { s with radio := [] })) ∧
      (∀ l a peak clip uns, s.radio = [.window l a peak clip uns, .qualified n q] → l < 8 → inData s l = true →
        radioRound s = spiSlot l (gainDecision l a peak clip uns (detection n [q] { s with radio := [] }))) ∧
      (c.recs = [] ∨ (∃ e, c.recs = [e] ∧ e.phase = .header ∧ e.sf ≠ q.sf) →
        let u := preambleQualified n q s
        u = { s with rxcs := u.rxcs, links := u.links, counters := u.counters, free := s.free + 1 } ∧
        ∃ d e, rxc? u n = some d ∧ d = { c with recs := [e], nextId := c.nextId + 1, gain := finalStep c.gain q, recent := [] } ∧
          e.id = c.nextId ∧ e.sf = q.sf ∧ e.phase = .delimiter 0 0 ∧ e.overlap = false ∧ e.old = c.p ∧
          e.next = q.stop + 2 * ((2 ^ q.sf - q.bin) % 2 ^ q.sf))) ∧
    (∀ c f w, rxc? s n = some c → c.p.modeE = true → inData s c.p.link = true → c.noiseFloor = some f →
      let len := winLen (lowSf c.p.sfMask)
      c.samples c.energyAt len = some w → (∀ o, o ∈ w → o.unsettled = false) →
      let p := meanDb (powerSum w) w.length - 25 * (c.gain + (antAt s c.p.link c.p.antenna).gain)
      Answers (.energyWindow n c.energyAt len t) s (fun u => u = { s1 with rxcs := u.rxcs, counters := u.counters } ∧
        (∀ m, m ≠ n → rxc? u m = rxc? s m) ∧
        rxc? u n = some { c with
          eNext := c.energyAt + len
          trig := if f + 25 * c.p.eThr ≤ p then some ((c.trig.elim [] (·.1)) ++ [c.energyAt], c.trig.any (·.2)) else c.trig
          powers := if c.recs = [] then (p :: c.powers).take c.floorWindows else c.powers } ∧
        u.counters = (if f + 25 * c.p.eThr ≤ p then bump .detETrig n s else s).counters)) ∧
    (∀ c l b, rxc? s n = some c → c.trig = some (l, b) → l.getLastD 0 + c.p.eq_ * winLen (highSf c.p.sfMask) ≤ c.top →
      let s2 := if b then s1 else bump .detENoconfirm n s1
      exec (.energySpanExpiry n t) s = .next { s2 with rxcs := FMap.set s.rxcs n { c with trig := none } }) ∧
    (∀ i e scale, reception? s n i = some e → e.phase = .header → headerSymbols e.sf ≤ e.soft.length →
      exec (.headerResult n i scale t) s = .next { s1 with radio := s.radio ++
        [.header n i (octetsOfBits 6 (viterbi (depuncture 0 54 (deinterleave e.sf scale (e.soft.take (headerSymbols e.sf))))))] }) ∧
    (∀ c e i header, rxc? s n = some c → c.recs.find? (fun x => x.id == i && x.phase = .header) = some e →
      c.recs.find? (fun x => x.id == i) = some e →
      let u := headerStep n i header s
      u = { s with rxcs := u.rxcs, links := u.links, counters := u.counters } ∧ (∀ m, m ≠ n → rxc? u m = rxc? s m) ∧
      ∃ d, rxc? u n = some d ∧ d = { c with recs := d.recs } ∧
        (headerVerdict header ≠ 0 → d.recs = c.recs.filter (fun x => x.id != i)) ∧
        (headerVerdict header = 0 → u.counters = s.counters ∧ d.recs.length = c.recs.length ∧
          ∃ y, y ∈ d.recs ∧
            y = { e with phase := .payload, len := y.len, cr := y.cr, sec := y.sec, ptt := y.ptt, stream := y.stream, header := header } ∧
            y.len = byteAt header 0 ∧ y.stream = beAt header 2 2)) ∧
    (∀ c e i scale q lag, rxc? s n = some c → c.recs.find? (fun x => x.id == i) = some e → e.phase = .payload → e.taken = true →
      lag ≤ 2 →
      Answers (.rxFrameEnd n i scale e.sf q e.len lag t) s (fun u => u = { s1 with rxcs := u.rxcs, radio := u.radio } ∧
        rxc? u n = some { c with recs := c.recs.map (fun x => if x.id = i then { x with phase := .over } else x) } ∧
        ∃ corr late, u.radio = s.radio ++ [.frameEnd n i (decodeBlock e.sf e.cr scale (e.len + 4)
          ((e.soft.drop (headerSymbols e.sf)).take (payloadSymbols e.sf e.cr e.len))) q corr late t])) ∧
    (∀ c e i d q corr, rxc? s n = some c → c.recs.find? (fun x => x.id == i) = some e →
      (crc32 (d.take e.len)).toNat ≠ beAt d e.len 4 → e.old.errored = false →
      endReception n i d q corr false t s = bumpSub .rxCrcFail n e.sf (withRecs n (fun l => l.filter (fun x => x.id != i)) s)) ∧
    (∀ k count, FMap.get? s.bce.captures n = some k → count ≤ k.buf.length →
      count = (if k.ending then min (min 2048 k.left) k.buf.length else min 2048 k.left) →
      Answers (.captureSegment n k.segNo count t) s (fun u =>
        (∀ m, m ≠ n → FMap.get? u.bce.captures m = FMap.get? s.bce.captures m) ∧ u.rxcs = s.rxcs ∧ u.links = s.links ∧
        (k.ending = true ∨ k.left ≤ count → FMap.get? u.bce.captures n = none ∧ longOp? u k.opId = none) ∧
        (k.ending = false → count < k.left → ∃ g stamp, FMap.get? u.bce.captures n =
          some { k with left := k.left - count, done := k.done + count, segNo := k.segNo + 1, first := false, gap := g,
                        stamp := stamp, buf := k.buf.drop count }))) ∧
    (∀ sf (l : List Bool), 5 ≤ sf → sf ≤ 12 → l.length % (sf * sf) = 0 →
      let value : Bool → Int := fun b => if b then -1 else 1
      deinterleave sf 1 ((interleave sf l).map (fun v => (v.map value).reverse)) = l.map value)

/-- R204, R208, R209: the commands of transmit channels and talk groups. Set-up and modification leave the channel or group that
the block describes, with nothing waiting or what was waiting; a release ends what waits, and a channel in transmission goes
only when its frame has ended. The model's own choice in it is log entry 73. -/
def Obligations.TransmitChannelCommands : Prop :=
  ∀ (h : CmdHdr) (s : State),
    let s1 := take h.ring s
    let c := txcOf h.ring (blk h)
    let g := groupOf h.ring (blk h)
    (Ready (blockCmd 0x0141 2 64 true) h s → txcSetupStatus s1 (blk h) = St.ok →
      exec (.txcSetup h) s = .next (finish (blockCmd 0x0141 2 64 true) h s St.ok []
        { s1 with txcs := FMap.set s.txcs c.tx { c with waiting := [], active := none, releasing := false } })) ∧
    (∀ d, Ready (blockCmd 0x0142 2 64 true) h s → txcModifyStatus s1 (blk h) = St.ok → txc? s c.tx = some d →
      let e := { c with ringCmd := d.ringCmd, waiting := d.waiting, active := d.active, releasing := d.releasing }
      exec (.txcModify h) s = .next (finish (blockCmd 0x0142 2 64 true) h s St.ok []
        { s1 with txcs := FMap.set s.txcs c.tx e })) ∧
    (∀ n d, Ready (plainCmd 0x0143 2) h s → txc? s n = some d → d.releasing = false →
      (d.active = none → Yields (.txcRelease h n) s { s with txcs := FMap.del s.txcs n }) ∧
      (d.active.isSome = true → Yields (.txcRelease h n) s
        { s with txcs := FMap.set s.txcs n { d with waiting := [], releasing := true } })) ∧
    (Ready (blockCmd 0x0144 2 32 true) h s → groupSetupStatus s1 (blk h) = St.ok →
      exec (.pttGroupSetup h) s = .next (finish (blockCmd 0x0144 2 32 true) h s St.ok []
        { s1 with groups := FMap.set s.groups g.group g })) ∧
    (∀ n, Ready (plainCmd 0x0145 2) h s → FMap.has s.groups n = true → pttChan s n = none →
      Yields (.pttGroupRelease h n) s { s with groups := FMap.del s.groups n })

/-- R203, R205, R206, R207, R208, R211: transmission. A request that fails a check ends with its status; one that passes joins
its channel's queue, and its build op secures it with the endpoint's next downlink counter where it asks for it. The head request
starts when the channel is free, its symbol item is complete and two multiblocks of samples stand in the crossing FIFO, a timed one
so that its first sample is at the antenna within one link sample period of its launch time; it ends TX_LATE once that has passed,
which is a missed deadline; a transmission ends with its last sample and reports its antenna time; a talker loses the floor after
hang_ms. The model's own choices in it are log entries 72, 73, 74, 105 and 112. -/
def Obligations.TransmissionsRunInOrder : Prop :=
  ∀ (s : State) (t : Nat), alive s = true →
    let s1 := advance t s
    (∀ r ring i item, ring? s ring = some r → r.ctx.ty = .ptx → r.ctx.target = 1 →
      let q := { txRecord item with ring := some (ring, i) }
      let queued := fun (u : State) => withTxc (leAt item 0 2) (fun c => { c with waiting := c.waiting ++ [q] }) u
      (requestStatus s1 ring item ≠ St.ok →
        exec (.radioTxRequest ring i item t) s = .next (endPtx (some (ring, i)) 0 (requestStatus s1 ring item) s1)) ∧
      (requestStatus s1 ring item = St.ok → q.sec = false → exec (.radioTxRequest ring i item t) s = .next (queued s1)) ∧
      (requestStatus s1 ring item = St.ok → q.sec = true → ∀ slot s2, epdLookup (BitVec.ofNat 64 (leAt item 8 8)) s1 = (slot, s2) →
        (nextDl s2 slot = none → exec (.radioTxRequest ring i item t) s = .next (endPtx (some (ring, i)) 0 St.secNokey s2)) ∧
        (nextDl s2 slot ≠ none → exec (.radioTxRequest ring i item t) s = .next (queued s2)))) ∧
    (∀ n c q, txc? s n = some c → toBuild s n = some q →
      (q.sec = true → nextDl s (epdFind s q.addr) = none → ∃ u, buildEnd n true s = endTx n q 0 St.secNokey u ∧ u.epd = s.epd) ∧
      (∀ k f key, q.sec = true → nextDl s (epdFind s q.addr) = some (k, f, key) →
        let sealed := securePayload key (chirpHeader (q.payload.length + 16) q.cr true q.ptt q.stream) q.ptt q.addr f q.payload
        ∃ d w, FMap.get? (buildEnd n true s).txcs n = some d ∧ w ∈ d.waiting ∧
          w = { q with built := true, payload := sealed, cells := symbolCells c.preamble q } ∧ d.active = c.active ∧
          (buildEnd n true s).epd = (withEntry k (fun e => { e with dlFcnt := f }) s).epd)) ∧
    (∀ n c q rest ready standing, txc? s n = some c → c.releasing = false → s.twin.role ≠ 1 → c.waiting = q :: rest →
      let lead := chainDelayPs (fsHz s c.link) c.bw 1 / 1000 + c.latency
      let after := fun (d : Txc) => Answers (.txLaunch n t ready standing) s (fun u =>
        u = { s1 with txcs := FMap.set s.txcs n d, hif := u.hif, counters := u.counters, links := u.links })
      let startable := c.active = none ∧ inData s c.link = true ∧ q.built = true ∧ ready = true ∧ twoBlocks s c.link ≤ standing
      let near := fun (l : Nat) => ((l : Int) - (devOf s t + lead : Nat)).natAbs * fsHz s c.link ≤ 1000000000
      (∀ l, q.launch = none ∨ q.launch = some l ∧ near l → startable →
        let pre := if q.preamble = 0 then c.preamble else q.preamble
        let sym := frameSymbols q.sf pre q.cr c.sync q.sec q.ptt q.stream q.payload
        after { c with waiting := rest, active := some ⟨q, t, t + symbolNs q.sf c.bw * sym.length, sym, lead, c.centreHz, c.level⟩ }) ∧
      (∀ l, q.launch = some l → l ≤ devOf s t + lead → ¬ (startable ∧ near l) → after { c with waiting := rest }) ∧
      (∀ l, q.launch = some l → devOf s t + lead < l → ¬ (startable ∧ near l) →
        exec (.txLaunch n t ready standing) s = .next (sendSamples c.link t s1))) ∧
    (∀ n c o underrun, txc? s n = some c → c.active = some o → o.stop ≤ t →
      Answers (.txComplete n t underrun) s (fun u =>
        u = { s1 with hif := u.hif, counters := u.counters, txcs := u.txcs, links := u.links } ∧
        u.txcs = (if c.releasing then FMap.del s.txcs n else FMap.set s.txcs n { c with active := none }) ∧
        ∀ m i r, o.req.ring = some (m, i) → ring? s m = some r → ∃ g, ring? u m = some g ∧
          FMap.get? g.written (r.pos i) = some (ptxBack (devOf s o.start + o.lead) St.ok))) ∧
    (∀ n c o, txc? s n = some c → c.active = some o → t < o.stop → c.releasing = false →
      exec (.txComplete n t false) s = .next (sendSamples c.link t s1) ∧
      Answers (.txComplete n t true) s (fun u =>
        u = { s1 with hif := u.hif, counters := u.counters, links := u.links, txcs := FMap.set s.txcs n { c with active := none } })) ∧
    (∀ n g id last, FMap.get? s.groups n = some g → g.talker = some (id, last) → last + g.hangMs * 1000000 ≤ t →
      exec (.pttHangExpiry n t) s = .next { s1 with groups := FMap.set s.groups n { g with talker := none, turn := none } })

/-! ### Queues, and the block compression engine with the recorder -/

/-- R297, R298, R305, R312, R314: the commands of the queue manager. QUEUE_SETUP leaves an empty queue with both marks
armed; QUEUE_MODIFY changes limits and marks at once; QUEUE_RELEASE and QUEUE_FLUSH free every linked item and sever the
item in progress, and a release waits for the taken item; QUEUE_QUERY changes nothing; QMG_SWEEP begins a sweep. -/
def Obligations.QueueCommands : Prop :=
  ∀ (h : CmdHdr) (s : State),
    let s1 := take h.ring s
    let k := queueBlock (blk h)
    let others := fun (n : Nat) (t : State) => t.fsc = s.fsc ∧ t.regs = s.regs ∧ ∀ m, m ≠ n → queue? t m = queue? s m
    (Ready (blockCmd 0x0161 2 32 true) h s → queueSetupStatus s1 (blk h) = St.ok →
      exec (.queueSetup h) s = .next (finish (blockCmd 0x0161 2 32 true) h s St.ok []
        { s1 with qmg := { s.qmg with queues := FMap.set s.qmg.queues k.queue (Queue.fresh k h.ring) } })) ∧
    (∀ q, Ready (blockCmd 0x0162 2 32 true) h s → queueModifyStatus s1 (blk h) = St.ok → queue? s k.queue = some q →
      let moved : Bool := q.hyst != k.hyst
      let r := { q with maxCells := k.maxCells, hyst := k.hyst, high := q.high.modify k.high k.highEn moved,
                        low := q.low.modify k.low k.lowEn moved }
      Yields (.queueModify h) s { s with qmg := { s.qmg with queues := FMap.set s.qmg.queues k.queue r } }) ∧
    (∀ n q, Ready (plainCmd 0x0163 2) h s → queueReleaseStatus s1 n = St.ok → queue? s n = some q →
      Answers (.queueRelease h n) s (fun t => others n t ∧
        (q.taken = none → queue? t n = none) ∧
        (q.taken.isSome = true → ∃ r, queue? t n = some r ∧ r.items = [] ∧ r.inProg = none ∧ r.taken = q.taken ∧
          r.releasing = some (h.ring, heldOf 0x0163 h s1)))) ∧
    (∀ n q, Ready (plainCmd 0x0164 2) h s → queueFlushStatus s1 n = St.ok → queue? s n = some q →
      ∃ u, exec (.queueFlush h n) s = .next (finish (plainCmd 0x0164 2) h s St.ok
          (toLE 4 q.items.length ++ toLE 4 ((q.items.map Item.cells).sum + (match q.inProg with | some p => p.1 | none => 0))) u) ∧
        others n u ∧ ∃ r, queue? u n = some r ∧ r.items = [] ∧ r.inProg = none ∧ r.taken = q.taken) ∧
    (∀ n q, Ready (plainCmd 0x0165 1) h s → liveQueue s n = some q →
      exec (.queueQuery h n) s = .next (finish (plainCmd 0x0165 1) h s St.ok
        (toLE 4 q.level ++ toLE 4 q.itemCount ++ markResult s1 n q false ++ markResult s1 n q true) s1)) ∧
    (Ready (plainCmd 0x0166 2) h s → s.qmg.sweep = false → s.hif.longOps.length < 256 →
      exec (.qmgSweep h) s = .next (accepted (plainCmd 0x0166 2) h s
        { begun 0x0166 (2 * (262144 + s.qmg.extSize)) h s with
          qmg := { s.qmg with sweep := true, sweepOp := some s.hif.nextOpId } }))

/-- R301, R302, R303: producers and consumers. A reservation that the pool grants joins the item in progress; the end mark links
the item at the tail and presents its arrival; TAKE unlinks the head item, READ passes its words, FINISH and DROP_REST let
it go. The model's own choice in it is log entry 86. -/
def Obligations.QueueProducersAndConsumers : Prop :=
  ∀ (s : State) (n : Nat) (q : Queue), queue? s n = some q →
    let only := fun (t : State) => ∀ m, m ≠ n → queue? t m = queue? s m
    (∀ cells streaming, q.discarding = false → 0 < cells → streaming = false ∨ cells ≤ 64 →
      let held := match q.inProg with | some p => p.1 | none => 0
      held + cells ≤ 1024 →
      (overLimit s n cells = true → exec (.cellReserve n cells streaming) s = .next (bump .qLimit n s)) ∧
      (overLimit s n cells = false → reserveAt s n cells = none → exec (.cellReserve n cells streaming) s = .next s) ∧
      (∀ ext, overLimit s n cells = false → reserveAt s n cells = some ext →
        Answers (.cellReserve n cells streaming) s (fun t => t = { s with qmg := t.qmg } ∧ only t ∧
          queue? t n = some { q with inProg := some (held + cells, ext) } ∧
          t.qmg.extUsed = (if ext then s.qmg.extUsed + cells else s.qmg.extUsed) ∧
          FMap.getD t.qmg.occ q.cls 0 = (if ext then FMap.getD s.qmg.occ q.cls 0 else FMap.getD s.qmg.occ q.cls 0 + cells)))) ∧
    (∀ c ext data, q.discarding = false → q.inProg = some (c, ext) → data ≠ [] → cellsOf data.length ≤ c →
      (∀ r g, ring? s r = some g → needed g.ctx.bufSize data.length ≤ g.size) →
      Answers (.itemEndMark n data) s (fun t => t = { s with qmg := t.qmg, fsc := t.fsc, hif := t.hif, counters := t.counters } ∧
        only t ∧ t.fsc = { s.fsc with presented := s.fsc.presented ++ [.arrival n] } ∧
        ∃ r, queue? t n = some r ∧
          r = { q with inProg := none, items := q.items ++ [⟨data, ext, false⟩], high := r.high, low := r.low })) ∧
    (q.discarding = true → ∀ data, exec (.itemEndMark n data) s = .next (withQueue n (fun r => { r with discarding := false }) s)) ∧
    (∀ i rest, q.taken = none → q.items = i :: rest → i.tether = false →
      Answers (.take n) s (fun t => t = { s with qmg := t.qmg, hif := t.hif, counters := t.counters } ∧ only t ∧
        ∃ r, queue? t n = some r ∧ r = { q with items := rest, taken := some (i, 0), high := r.high, low := r.low })) ∧
    (∀ i w words, q.taken = some (i, w) →
      Answers (.read n words) s (fun t => t = { s with qmg := t.qmg } ∧ only t ∧
        queue? t n = some { q with taken := some (i, min (cdiv i.data.length 4) (w + words)) })) ∧
    (∀ i w, q.taken = some (i, w) →
      (takenLeft (i, w) = 0 → q.releasing = none →
        Answers (.finish n) s (fun t => t = { s with qmg := t.qmg } ∧ only t ∧ queue? t n = some { q with taken := none })) ∧
      (takenLeft (i, w) = 0 → q.releasing.isSome = true → Answers (.finish n) s (fun t => only t ∧ queue? t n = none)) ∧
      (takenLeft (i, w) ≠ 0 → exec (.finish n) s = .next s) ∧
      (q.releasing = none → Answers (.dropRest n) s (fun t =>
        t = { bump .dropRest n s with qmg := t.qmg } ∧ only t ∧ queue? t n = some { q with taken := none })))

/-- R311, R312: integrity and the sweep. Where a pointer of the list of a queue disagrees, its linked items are gone and its
item in progress is severed; a taken item that disagrees is gone; a free list that disagrees refuses allocation. Each asks
for a sweep. A sweep starts when one is due and, when it is done, gives its orphans back. The model's own choice in it is
log entry 17. -/
def Obligations.IntegrityAndSweep : Prop :=
  ∀ (s : State) (n cell : Nat),
    let asks := fun (t : State) => (s.qmg.sweep = true → t.qmg.sweepQueued = true) ∧ (s.qmg.sweep = false → t.qmg.sweepDue = true)
    (∀ q place, queue? s n = some q → place = .head ∨ place = .tail ∨ place = .linked →
      Answers (.queueIntegrity n place cell) s (fun t => asks t ∧ t.fsc = s.fsc ∧ (∀ m, m ≠ n → queue? t m = queue? s m) ∧
        ∃ r, queue? t n = some r ∧ r.items = [] ∧ r.inProg = none ∧ r.taken = q.taken)) ∧
    (∀ f i d, Answers (.queueIntegrity n (.staged f i d) cell) s (fun t => asks t ∧ (∀ m, queue? t m = queue? s m) ∧
      t.qmg.staged = s.qmg.staged.filter (fun e => !(e.flow == f && e.inst == i && e.node == d)))) ∧
    (∀ q t0, queue? s n = some q → q.taken = some t0 → q.releasing = none →
      Answers (.queueIntegrity n .taken cell) s (fun t => asks t ∧ (∀ m, m ≠ n → queue? t m = queue? s m) ∧
        queue? t n = some { q with taken := none })) ∧
    Answers (.queueIntegrity n .freeList cell) s (fun t => asks t ∧ (∀ m, queue? t m = queue? s m) ∧
      (t.qmg.freeRebuild = true ∨ t.qmg.freeLate = true) ∧ t.qmg.extUsed = s.qmg.extSize) ∧
    (s.qmg.sweep = false → s.qmg.sweepDue = true → Answers .sweepStart s (fun t => t = { s with qmg := t.qmg, hif := t.hif } ∧
      t.qmg = { s.qmg with sweep := true, sweepDue := false, sweepOp := t.qmg.sweepOp } ∧
      (s.hif.longOps.length < 256 → t.qmg.sweepOp = some s.hif.nextOpId))) ∧
    (s.qmg.sweep = true → Answers .sweepDone s (fun t => t = { s with qmg := t.qmg, hif := t.hif, counters := t.counters } ∧
      t.qmg.occ = FMap.mapV s.qmg.occ (fun c v => v - FMap.getD s.qmg.orphans c 0) ∧ t.qmg.extUsed = s.qmg.extUsed - s.qmg.orphansExt ∧
      t.qmg.orphans = s.qmg.late ∧ t.qmg.orphansExt = s.qmg.lateExt ∧ t.qmg.late = [] ∧ t.qmg.lateExt = 0 ∧ t.qmg.sweep = false ∧
      t.qmg.freeRebuild = s.qmg.freeLate ∧ t.qmg.freeLate = false ∧ t.qmg.sweepDue = (s.qmg.sweepDue || s.qmg.sweepQueued) ∧
      ∀ m, queue? t m = queue? s m))

/-- R331, R332, R333, R334, R338, R341: compression jobs and the recorder. BCE_JOB joins the jobs as a long operation and uses
up its handle; BCE_ABORT marks the job; a job that ends leaves its output in host memory and its operation; a handle lives
60 s; the oldest ready segment of the backlog is written to its ring; REC_FLUSH waits for what is held. The model's own
choices in it are log entries 78 and 79. -/
def Obligations.CompressionJobsAndRecorder : Prop :=
  ∀ (h : CmdHdr) (s : State),
    let s1 := take h.ring s
    (∀ input, Ready (blockCmd 0x0171 2 64) h s → bceJobStatus s1 (blk h) = St.ok → s.hif.longOps.length < 256 →
      let again := bit (byteAt (blk h) 1) 7
      let cont := if again then (resumeOf s (blk h)).bind (·.cont) else none
      let job := { jobOf (blk h) input cont with opId := s.hif.nextOpId }
      let left := if again then s.bce.resumes.filter (fun r => r.handle != leAt (blk h) 0x28 8) else s.bce.resumes
      exec (.bceJob h input) s = .next (accepted (blockCmd 0x0171 2 64) h s
        { begun 0x0171 (leAt (blk h) 4 4) h s with bce := { s.bce with jobs := s.bce.jobs ++ [job], resumes := left } })) ∧
    (∀ i, Ready (plainCmd 0x0172 2) h s → bceAbortStatus s1 i = St.ok →
      let marked := s.bce.jobs.map (fun j => if j.opId = i then { j with abort := true } else j)
      exec (.bceAbort h i) s = .next (finish (plainCmd 0x0172 2) h s St.ok [] { s1 with bce := { s.bce with jobs := marked } })) ∧
    (∀ i j, alive s = true → (s.bce.jobs.take 4).find? (fun k => k.opId == i) = some j →
      Answers (.bceJobDone i) s (fun t =>
        t = { s with bce := t.bce, hif := t.hif, counters := t.counters, free := t.free } ∧
        t.bce.jobs = s.bce.jobs.filter (fun k => k.opId != i) ∧ longOp? t i = none ∧
        (j.abort = false → t.hif.wrote = (bceRun j none).out ∧ ((bceRun j none).result ≠ Br.outShort → t.bce.resumes = s.bce.resumes)))) ∧
    (∀ n t, exec (.resumeHandleExpiry n t) s = .next { advance t s with bce :=
      { s.bce with resumes := s.bce.resumes.filter (fun r => !(r.handle == n && r.issued + 60000000000 ≤ t)) } }) ∧
    (∀ ok t, alive s = true →
      (readySegment (advance t s) = none → exec (.recSegmentWrite ok t) s = .next (advance t s)) ∧
      (∀ n e, readySegment (advance t s) = some (n, e) →
        (ok = false → exec (.recSegmentWrite ok t) s = .next (writeFailed n (advance t s))) ∧
        (ok = true → Answers (.recSegmentWrite ok t) s (fun u => u.bce.backlog = s.bce.backlog.erase e ∧ u.chans = s.chans ∧
          u.bce.jobs = s.bce.jobs)))) ∧
    (Ready (plainCmd 0x0173 2) h s →
      (s.bce.backlog = [] → s.chans.all (fun e => e.2.segData.isEmpty) = true →
        exec (.recFlush h) s = .next (finish (plainCmd 0x0173 2) h s St.ok (toLE 4 0) s1)) ∧
      (s.bce.backlog ≠ [] ∨ s.chans.all (fun e => e.2.segData.isEmpty) = false →
        let f := s.bce.nextFlush
        let kept := s.bce.backlog.map (fun e => { e with need := f :: e.need })
        exec (.recFlush h) s = .next (waits (plainCmd 0x0173 2) h s { s1 with
          bce := { s.bce with nextFlush := f + 1, backlog := kept, flushes := s.bce.flushes ++ [⟨f, h.ring, heldOf 0x0173 h s1, 0⟩] }
          chans := FMap.mapV s.chans (fun _ c => if c.segData.isEmpty then c else { c with segClose := f :: c.segClose }) })))

/-! ### TDM, Ethernet and time -/

/-- R347, R350, R352, R353, R354, R355, R356: the TDM ports. TDM_CAS_SET waits for the next multiframe. A received frame reaches the
fabric whole, or as idle bytes while the line has failed; above 15/8 frame the slip buffer deletes it, below 1/8 the last one is
repeated before it; the third FAS in error loses the alignment. A transmit frame has one place per timeslot, all ones under AIS and
at high impedance on a MIRROR, with FAS in alternate E1 frames and the frame bits of D4 in T1. An alarm that changes is kept and
noticed; CRC-4 falls off in automatic mode. The model's own choices in it are log entries 25, 90 and 113. -/
def Obligations.TdmPorts : Prop :=
  (∀ (h : CmdHdr) (s : State) (n slot : Nat) (abcd : BitVec 4), Ready (plainCmd 0x0181 2) h s →
    casSetStatus (take h.ring s) n slot = St.ok →
    exec (.tdmCasSet h n slot abcd) s = .next (finish (plainCmd 0x0181 2) h s St.ok []
      (withTdm n (fun p => { p with txAbcdNext := FMap.set p.txAbcdNext slot abcd.toNat }) (take h.ring s)))) ∧
  ∀ (s : State) (n : Nat), alive s = true →
    let only := fun (u : State) => ∀ m, m ≠ n → tdmPort u m = tdmPort s m
    let p := tdmPort s n
    (∀ f, n < 192 → tdmMode s n ≠ 0 → Answers (.tdmRxFrame n f) s (fun u =>
      let q := tdmPort u n
      let whole := padTo (slotCount s n) f.slots
      let d := p.rxDelay + rxGain s p f
      let inUse : Prop := q.failed = false ∧ slipBuffer s n false = true
      u = { s with tdm := u.tdm, hif := u.hif, counters := u.counters, figs := u.figs, clk := u.clk, free := u.free } ∧ only u ∧
      (q.failed = true → q.rxSlots = List.replicate (slotCount s n) (idleByte s n) ∧ q.rxDelay = 125000) ∧
      (q.failed = false → slipBuffer s n false = false → q.rxSlots = whole ∧ q.rxDelay = 125000) ∧
      (q.failed = true ∨ slipBuffer s n false = false ∨ 15625 ≤ d ∧ d ≤ 234375 →
        q.rxFifo = if 4 ≤ p.rxFifo.length then p.rxFifo else p.rxFifo ++ [q.rxSlots]) ∧
      (inUse → 15625 ≤ d ∧ d ≤ 234375 → q.rxSlots = whole ∧ q.rxDelay = d) ∧
      (inUse → 234375 < d → q.rxSlots = p.rxSlots ∧ q.rxFifo = p.rxFifo ∧ q.rxDelay = d - 125000 ∧ q.slipAt = some (now s) ∧
        (notice? u Ev.tdmSlip n).isSome = true) ∧
      (inUse → d < 15625 → q.rxSlots = whole ∧ q.rxDelay = d + 125000 ∧ q.slipAt = some (now s) ∧
        (notice? u Ev.tdmSlip n).isSome = true ∧ (p.rxFifo.length < 3 → q.rxFifo = p.rxFifo ++ [p.rxSlots, whole])) ∧
      (isE1 s n = true → p.lof = false → p.rx.fas = some true → byteAt f.slots 0 % 128 ≠ 0x1B → p.rx.errs.take 2 = [true, true] →
        q.lof = true) ∧
      (isE1 s n = true → p.failed = false → p.rx.fas = some false → q.failed = false → q.saRx = byteAt f.slots 0 % 32))) ∧
    (∀ drift, n < 192 → tdmMode s n ≠ 0 → Answers (.tdmTxFrame n drift) s (fun u =>
      let q := tdmPort u n
      let d := p.txDelay + drift
      let sent : Prop := slipBuffer s n true = false ∨ p.failed = true ∨ d ≤ 234375
      u = { s with tdm := u.tdm, tps := u.tps, hif := u.hif, counters := u.counters } ∧ only u ∧
      u.tps = FMap.mapV s.tps (fun _ x => if x.sinksOn n = true then { x with sinkPhase := (sinkFrame x).2 } else x) ∧
      q.txFifo = FMap.mapV p.txFifo (fun _ x => x.drop 1) ∧ q.rxSlots = p.rxSlots ∧ q.rxFifo = p.rxFifo ∧ q.rx = p.rx ∧
      (sent → q.txOut.length = slotCount s n ∧
        (s.twin.role = 1 → ∀ b, b ∈ q.txOut → b = none) ∧
        (s.twin.role ≠ 1 → framed s n = true → flag s .tdmFramerCfg n 12 = true → ∀ b, b ∈ q.txOut → b = some 0xFF)) ∧
      (slipBuffer s n true = false ∨ p.failed = true ∨ 15625 ≤ d ∧ d ≤ 234375 →
        (framed s n = true → q.tx.place = (p.tx.place + 1) % mfLen s n) ∧
        (isE1 s n = true → s.twin.role ≠ 1 → flag s .tdmFramerCfg n 12 = false →
          q.txOut.head? = some (some (e1Ts0 s n p.tx.place)) ∧
          (p.tx.place % 2 = 0 → (e1Ts0 s n p.tx.place).toNat % 128 = 0x1B)) ∧
        (isT1 s n = true → s.twin.role ≠ 1 → flag s .tdmFramerCfg n 12 = false → t1Esf s n = false →
          q.txBit = some ([true, false, false, false, true, true, false, true, true, true, false, false].getD p.tx.place false))) ∧
      (slipBuffer s n true = true → p.failed = false → 234375 < d →
        q.txOut = p.txOut ∧ q.tx = p.tx ∧ q.txDelay = d - 125000 ∧ (notice? u Ev.tdmSlip n).isSome = true) ∧
      (slipBuffer s n true = true → p.failed = false → d < 15625 →
        q.txDelay = d + 125000 ∧ (notice? u Ev.tdmSlip n).isSome = true))) ∧
    (∀ a v t, n < 64 → framed s n = true → a ≠ .lomf ∨ isT1 s n = false →
      (alarmOf p a = v → exec (.tdmAlarm n a v t) s = .next (advance t s)) ∧
      (alarmOf p a ≠ v → Answers (.tdmAlarm n a v t) s (fun u =>
        u = { advance t s with tdm := u.tdm, clk := u.clk, hif := u.hif, counters := u.counters, figs := u.figs, free := u.free } ∧
        only u ∧ alarmOf (tdmPort u n) a = v ∧ (∀ b, b ≠ a → alarmOf (tdmPort u n) b = alarmOf p b) ∧
        (tdmPort u n).rxSlots = p.rxSlots ∧ (notice? u Ev.tdmAlarm n).isSome = true))) ∧
    (n < 64 → isE1 s n = true → fld s .tdmFramerCfg n 2 1 = 2 → p.lof = false →
      exec (.crc4AutoTimeout n) s = .next (withTdm n (fun q => { q with crc4Off := true }) s))

/-- R362, R370, R372, R383, R385: settings of Ethernet ports. GATE_LIST_SET waits for its switch instant and GATE_LIST_SWITCH
takes the list on; WAKE_PATTERN_SET keeps or deletes one pattern; a port that goes to mode DISABLED loses its frames and its
link; a frame that matches a wake pattern ends STANDBY. The model's own choices in it are log entries 75 and 89. -/
def Obligations.EthernetSettings : Prop :=
  (∀ (h : CmdHdr) (s : State),
    let s1 := take h.ring s
    let c : CmdSpec := ⟨0x0191, 2, fun l => 32 ≤ l && l = 32 + 8 * fieldAt (blk h) 1 6 0, true, false⟩
    let g := gateListOf (blk h)
    let w : WakePattern := { value := sub (blk h) 0x20 128, mask := sub (blk h) 0x10 16, len := byteAt (blk h) 1 }
    let i := fieldAt (blk h) 0 7 5
    (Ready c h s → gateListStatus s1 (blk h) = St.ok →
      let at_ := ((switchTime s g : Int) - s.clk.offset).toNat
      exec (.gateListSet h) s = .next (finish c h s St.ok [] (withPort (fieldAt (blk h) 0 4 0)
        (fun e => { e with pending := some (if g.entries = [] then none else some g, at_) }) s1))) ∧
    (Ready (blockCmd 0x0192 2 160) h s → wakePatternStatus (blk h) = St.ok →
      exec (.wakePatternSet h) s = .next (finish (blockCmd 0x0192 2 160) h s St.ok [] (withPort (fieldAt (blk h) 0 4 0)
        (fun e => { e with wake := if w.len = 0 then FMap.del e.wake i else FMap.set e.wake i w }) s1)))) ∧
  ∀ (s : State) (n : Nat),
    (∀ t g at_, alive s = true → (ethPort s n).pending = some (g, at_) → at_ ≤ t →
      Yields (.gateListSwitch n t) s
        (withPort n (fun e => { e with gates := g, gateBase := at_, pending := none }) (advance t s))) ∧
    (∀ v : BitVec 32, n < 32 → barOpen s = true → setupLocked s = false → ethMode s n ≠ 0 → bits v.toNat 2 0 = 0 →
      inRange .ethPortCfg (mergeWrite .ethPortCfg false (regVal s .ethPortCfg n) v) = true →
      regCondOk s .ethPortCfg n (regVal s .ethPortCfg n) (mergeWrite .ethPortCfg false (regVal s .ethPortCfg n) v) = true →
      Answers (.ethPortDisable n v) s (fun u => ethMode u n = 0 ∧ (ethPort u n).linkUp = false ∧ (ethPort u n).fifos = [] ∧
        (∀ m, m ≠ n → ethPort u m = ethPort s m) ∧ u.chans = s.chans ∧ u.prp = s.prp)) ∧
    (∀ f i, s.avl.power = 1 → s.avl.porHeld = false → wakeFor s n f = some i →
      Answers (.wakeMatch n f) s (fun u => u = { advance f.time s with eth := [], avl := u.avl, endp := { s.endp with lifeAt := u.endp.lifeAt } } ∧
        u.avl = { s.avl with power := 0, stage := 0, wakeInfo := some (BitVec.ofNat 8 n :: BitVec.ofNat 8 i :: f.data.take 64) }))

/-- R362, R364, R366, R367, R368, R373, R374, R386: Ethernet traffic. A received frame that fails a check is counted and has no
other effect; one that nothing takes and that has no default ring is counted. A free port with its gates open starts the
head of its highest class; a frame ends when its gap has passed; a link that goes down takes its frames along; low-power
idle is entered and left. The model's own choice in it is log entry 75. -/
def Obligations.EthernetTraffic : Prop :=
  ∀ (s : State) (n t : Nat), alive s = true → n < 32 →
    let e := ethPort s n
    let only := fun (u : State) => ∀ m, m ≠ n → ethPort u m = ethPort s m
    (∀ f : EthFrame, ethMode s n ≠ 0 → e.linkUp = true →
      let s1 := advance f.time s
      let p := parseFrame f.data
      (∀ c, rxRefusal s1 n f = some c → exec (.ethRxFrame n f) s = .next (bump c n s1)) ∧
      (rxRefusal s1 n f = none → Answers (.ethRxFrame n f) s (fun u => u.eth = s.eth ∧ u.regs = s.regs ∧ u.fsc = s.fsc ∧
        (pairOf s n = none → p.etherType ≠ 0x88F7 → p.etherType ≠ 0x88FB → tpForEth s p = none → parseIp p = none →
          flag s .ethRxCfg n 9 = false → u.hif = s.hif ∧ u.rtps = s.rtps ∧ u.tps = s.tps ∧ u.counters = (bump .rxUnclaimed n s).counters)))) ∧
    (∀ c f r, c < 8 → e.linkUp = true → e.lpiTx = false → e.wakeAt = none → e.onWire = none → e.gates = none →
      FMap.getD e.fifos c [] = f :: r → (∀ k, c < k → k < 8 → FMap.getD e.fifos k [] = []) →
      Answers (.ethTxStart n t) s (fun u => only u ∧ (∃ w, (ethPort u n).onWire = some w ∧ w.frame = f ∧ w.tc = c ∧ w.start = t ∧
          w.stop = t + cdiv (framePs s n f.data.length) 1000) ∧ FMap.getD (ethPort u n).fifos c [] = r ∧
        ∀ k, k < 8 → k ≠ c → FMap.getD (ethPort u n).fifos k [] = FMap.getD e.fifos k [])) ∧
    (∀ w, e.onWire = some w →
      (t < w.stop → Answers (.ethTxStart n t) s (fun u => only u ∧ (ethPort u n).onWire = some w ∧ (ethPort u n).sent = e.sent)) ∧
      (w.stop ≤ t → Answers (.ethTxStart n t) s (fun u => only u ∧ (ethPort u n).lastTx = w.stop ∧
        (ethPort u n).sent = (w.start, w.tc, w.frame.data) :: e.sent))) ∧
    (∀ up, ethMode s n ≠ 0 → Answers (.ethLinkChange n up) s (fun u => only u ∧ u.regs = s.regs ∧ (ethPort u n).linkUp = up ∧
      (e.linkUp = true → up = false → (ethPort u n).fifos = [] ∧ (ethPort u n).onWire = none ∧
        (notice? u Ev.ethLinkDown n).isSome = true))) ∧
    (mayIdle (wireDone n t (advance t s)) n t = true →
      exec (.lpiEnter n t) s = .next (withPort n
        (fun q => { q with lpiTx := true, lpiTw := wakeTime s n, lpiAt := t }) (wireDone n t (advance t s)))) ∧
    (∀ d, e.lpiTx = true → untilOpen e 7 t = some d → d ≤ e.lpiTw →
      Answers (.lpiWake n t) s (fun u => only u ∧
        ethPort u n = { e with lpiTx := false, wakeAt := some (t + e.lpiTw) }))

/-- R38, R375, R376, R377, R379, R380, R381: PRP and time. A supervision frame takes the pair's next sequence number; an entry
of the table is forgotten 400 ms after its last frame; a correction below 1 ms is slewed in and a larger one is a step;
TBU_TIME_SET sets device time; references come and go; PTP follows the better master until its timeout. The model's own
choices in it are log entries 13 and 76. -/
def Obligations.PrpAndTime : Prop :=
  (∀ (h : CmdHdr) (s : State) (v : Nat), Ready (plainCmd 0x0193 2) h s →
    exec (.tbuTimeSet h v) s = .next (finish (plainCmd 0x0193 2) h s St.ok []
      { take h.ring s with clk := { s.clk with offset := (v : Int) - (s.clk.localNs : Int), slewLeft := 0 } })) ∧
  ∀ (s : State) (n t : Nat), alive s = true →
    let s1 := advance t s
    let corrected := fun (off : Int) (u : State) => u = { s1 with clk := u.clk, hif := u.hif, counters := u.counters } ∧
      u.clk = if off.natAbs < 1000000 then { s1.clk with slewLeft := off } else { s1.clk with offset := s.clk.offset + off, slewLeft := 0 }
    (prpEnabled s n = true → flag s .prpPairCfg n 17 = true → (prpPair s n).svAt + 2000000000 ≤ t →
      Answers (.prpSvSend n t) s (fun u => u.regs = s.regs ∧ (∀ m, m ≠ n → prpPair u m = prpPair s m) ∧
        prpPair u n = { prpPair s n with seq := (prpPair s n).seq + 1, svAt := t })) ∧
    (∀ mac x, prpEnabled s n = true → FMap.get? (prpPair s n).table mac = some x →
      Answers (.prpEntryTimeout n mac t) s (fun u => u = { s1 with prp := u.prp, counters := u.counters } ∧
        (x.last + 400000000 ≤ t → FMap.get? (prpPair u n).table mac = none) ∧
        (t < x.last + 400000000 → FMap.get? (prpPair u n).table mac =
          some { x with lone := x.lone.filter (fun y => decide (t < y.2.2 + 400000000)) }) ∧
        ∀ k, k ≠ mac → FMap.get? (prpPair u n).table k = FMap.get? (prpPair s n).table k)) ∧
    (∀ m : PtpMsg, ptpPort s n = true →
      (m.kind = 0 → m.domain = fld s .ptpCfg 0 7 0 → ptpSlaveOn s n = true → s.clk.phaseRef = 1 →
        Answers (.ptpMessageRx n m t) s (corrected m.offset)) ∧
      (m.kind = 2 → m.domain = fld s .ptpCfg 0 7 0 → flag s .ptpCfg 0 8 = true ∨ rankBefore m.rank (ownRank s) = true →
        (∀ r, s.clk.ptpMaster = some r → rankBefore m.rank r.2 = true) →
        Answers (.ptpMessageRx n m t) s (fun u => u.clk.ptpMaster = some (n, m.rank) ∧ u.clk.localNs = s1.clk.localNs ∧
          u.clk.offset = s.clk.offset ∧ u.eth = s.eth)) ∧
      (m.domain ≠ fld s .ptpCfg 0 7 0 → exec (.ptpMessageRx n m t) s = .next s1) ∧
      (m.kind = 3 → Answers (.ptpMessageRx n m t) s (fun u => u.clk = s1.clk ∧ ∀ k, k ≠ n → ethPort u k = ethPort s k)) ∧
      (m.kind ≠ 0 → m.kind ≠ 2 → m.kind ≠ 3 → exec (.ptpMessageRx n m t) s = .next s1)) ∧
    (∀ k, ptpPort s n = true → k ≤ 3 →
      FMap.getD s.clk.ptpSent (4 * n + k) 0 + (if k = 3 then 3000000000 else 1000000000) ≤ t →
      Answers (.ptpInterval n k t) s (fun u => u.clk.ptpSent = FMap.set s.clk.ptpSent (4 * n + k) t ∧ u.clk.offset = s.clk.offset ∧
        u.clk.ptpMaster = (if k = 3 ∧ ptpSlaveOn s n = true then none else s.clk.ptpMaster) ∧ ∀ m, m ≠ n → ethPort u m = ethPort s m)) ∧
    (∀ off, s.clk.phaseRef = 2 → Answers (.ppsEdge t off) s (corrected off)) ∧
    (∀ k v, 1 ≤ k → k ≤ 6 → Answers (.tbuRefUpdate k v) s (fun u =>
      u = { s with clk := u.clk, hif := u.hif, counters := u.counters, free := u.free } ∧
      u.clk.localNs = s.clk.localNs ∧ u.clk.offset = s.clk.offset ∧ u.clk.tick = s.clk.tick ∧
      u.clk.avail = if v then insNat k s.clk.avail else s.clk.avail.filter (· != k)))

/-! ### The host interface -/

/-- R389, R394, R395, R398: rings come and go. A ring operation reports its result; CREATE and RESET that pass leave a ring of
the context given, its host index 0; DESTROY leaves none; a DOMAIN reset of the interface leaves no ring, no session and no
nonce; HIF_KICK sets the poll interval to 0.5 µs. The model's own choices in it are log entries 28 and 62. -/
def Obligations.RingsComeAndGo : Prop :=
  ∀ (s : State) (n : Nat) (b : Option Bytes),
    (barOpen s = true → n < 512 →
      let made := fun (c : RingCtx) (u : State) => u.hif.result = Rr.ok ∧ u.hif.busy = false ∧ u.regs = s.regs ∧ u.chans = s.chans ∧
        ∃ r, ring? u n = some r ∧ r.ctx = c ∧ r.hostIdx = 0 ∧ r.stopped = false ∧ (c.ty ≠ .prx → globalRing u ≠ some n → r.devIdx = 0)
      (ringCreateStatus s n b ≠ Rr.ok → exec (.ringCreate n b) s = .next (ringResult (ringCreateStatus s n b) s)) ∧
      (∀ c, ringCreateStatus s n b = Rr.ok → b.bind (parseCtx n) = some c → Answers (.ringCreate n b) s (made c)) ∧
      (ringResetStatus s n b ≠ Rr.ok → exec (.ringReset n b) s = .next (ringResult (ringResetStatus s n b) s)) ∧
      (∀ c, ringResetStatus s n b = Rr.ok → b.bind (parseCtx n) = some c → Answers (.ringReset n b) s (made c)) ∧
      (ringDestroyStatus s n ≠ Rr.ok → exec (.ringDestroy n) s = .next (ringResult (ringDestroyStatus s n) s)) ∧
      (ringDestroyStatus s n = Rr.ok → Answers (.ringDestroy n) s (fun u => ring? u n = none ∧ u.hif.result = Rr.ok ∧
        u.regs = s.regs ∧ u.chans = s.chans))) ∧
    Answers .hifDomainReset s (fun u => u.hif.rings = [] ∧ u.sec.sessions = [] ∧ u.sec.nonces = [] ∧ u.hif.pollNs = 500 ∧
      u.hif.msix = [] ∧ u.hif.msixTable = [] ∧ u.chans = s.chans ∧ u.fsc = s.fsc ∧ u.endp = s.endp ∧ u.avl = s.avl ∧
      u.sec.enrolled = s.sec.enrolled ∧ u.sec.identity = s.sec.identity) ∧
    (∀ v, barOpen s = true → exec (.hifKick v) s = .next { s with hif := { s.hif with pollNs := 500, pollAt := now s } })

/-- R397, R398, R399, R413, R414, R415: transfers between rings and the device. A doorbell that is in bounds moves the host's
index and one that is not stops the ring; an item taken from a PTX ring passes its descriptors; a received item fills its
buffers, or is dropped when the hold of its ring has run out; a failed transfer holds the ring until it is made again. An item
severed while it was written to its queue is not linked. The
model's own choice in it is log entry 62. -/
def Obligations.RingTransfers : Prop :=
  ∀ (s : State) (n t : Nat) (r : Ring), ring? s n = some r →
    let s1 := advance t s
    (barOpen s = true → s.hif.pollAt ≤ now s1 → s.hif.rings ≠ [] →
      (∀ l, exec (.doorbellPoll l false t) s = .next (pollFailed s1)) ∧
      (∀ i, r.stopped = false → doorbellOk r i = true → Answers (.doorbellPoll [⟨n, i, r.ctx.gen⟩] true t) s (fun u =>
        u = { s1 with hif := u.hif } ∧ ring? u n = some { r with hostIdx := i } ∧
        (∀ m, m ≠ n → ring? u m = ring? s m) ∧
        u.hif.pollNs = if i = r.hostIdx then min (pollMaxNs s) (2 * s.hif.pollNs) else 500)) ∧
      (∀ i, r.stopped = false → doorbellOk r i = false → Answers (.doorbellPoll [⟨n, i, r.ctx.gen⟩] true t) s (fun u =>
        ∃ q, ring? u n = some q ∧ q.stopped = true ∧ q.hostIdx = r.hostIdx ∧ q.ctx = r.ctx))) ∧
    (∀ l, ptxReady s1 n l = true →
      (ptxWaits s1 r l = true → exec (.ptxItem n l t) s = .next (ptxRefused n r l s1)) ∧
      (ptxWaits s1 r l = false → r.ctx.target < 2 → Answers (.ptxItem n l t) s (fun u => u.regs = s.regs ∧ u.fsc = s.fsc ∧
        ∃ q, ring? u n = some q ∧ q.ctx = r.ctx ∧ q.hostIdx = r.hostIdx ∧ q.devIdx = r.devIdx + BitVec.ofNat 32 l.length)) ∧
      (∀ d, r.ctx.target = 2 → itemData l = some d → descsOk s1 2 l = true → d.length ≤ 65536 →
        (ptxWaits s1 r l = false → itemSevered s1 r.ctx.queue = false → Answers (.ptxItem n l t) s (fun u => u.regs = s.regs ∧
          u.fsc = { s.fsc with presented := s.fsc.presented ++ [.arrival r.ctx.queue] })) ∧
        (itemSevered s1 r.ctx.queue = true → Answers (.ptxItem n l t) s (fun u => u.regs = s.regs ∧ u.fsc = s.fsc ∧
          (∃ q, queue? s1 r.ctx.queue = some q ∧ queue? u r.ctx.queue = some { q with discarding := false }) ∧
          (∀ m, m ≠ r.ctx.queue → queue? u m = queue? s m))))) ∧
    (∀ i rest x, prxReady s1 n = true → r.waiting = i :: rest → nextItem s1 i = some x →
      (exec (.prxItemWrite n false t) s = .next (bump .hifDmaErr 0 (withRing n (fun q => { q with dmaFail := true }) s1))) ∧
      (i.kind ≠ 2 → Answers (.prxItemWrite n true t) s (fun u => u = { s1 with hif := u.hif } ∧
        ∃ q, ring? u n = some q ∧ q.waiting = rest ∧ q.itemSeq = r.itemSeq + 1 ∧ q.hostIdx = r.hostIdx ∧
          q.devIdx = r.devIdx + BitVec.ofNat 32 (max 1 (cdiv x.data.length r.ctx.bufSize)))) ∧
      (∀ y more p, i.kind = 2 → queue? s i.source = some p → p.releasing = none → p.items = y :: more →
        Answers (.prxItemWrite n true t) s (fun u => ∃ q, queue? u i.source = some q ∧ q.items = more ∧ q.taken = none))) ∧
    (holdOver s1 n (now s1) = true → Answers (.rxHoldExpiry n t) s (fun u => u = { s1 with hif := u.hif, counters := u.counters } ∧
      (notice? u Ev.ringStarved n).isSome = true ∧ ∃ q, ring? u n = some q ∧
        (starvedReason r = 0 → q.waiting = r.waiting.drop 1) ∧ (starvedReason r ≠ 0 → q.waiting = r.waiting ∧ q.starved = true))) ∧
    (r.stopped = false →
      (r.dmaFail = true → exec (.dmaRetry n false) s = .next (bump .hifDmaErr 0 s)) ∧
      (r.dmaFail = true → Answers (.dmaRetry n true) s (fun u => u = { s with hif := u.hif } ∧
        ∃ q, ring? u n = some q ∧ q.dmaFail = false ∧ q.pendW = [] ∧ q.devIdx = r.devIdx + BitVec.ofNat 32 r.pendW.length)) ∧
      (r.dmaFail = false → exec (.dmaRetry n true) s = .next (withRing n (fun q => { q with readFail := false }) s)) ∧
      (r.dmaFail = false → r.ctx.ty ≠ .cpl → r.ctx.ty ≠ .evt → r.avail ≠ 0 → r.readFail = false →
        exec (.dmaRetry n false) s = .next (withRing n (fun q => { q with readFail := true }) (bump .hifDmaErr 0 s))) ∧
      (r.dmaFail = false → r.ctx.ty ≠ .cpl → r.ctx.ty ≠ .evt → r.avail ≠ 0 → r.readFail = true →
        Answers (.dmaRetry n false) s (fun u => ∃ q, ring? u n = some q ∧ q.stopped = true ∧ q.ctx = r.ctx)))

/-- R399, R406, R407, R410, R418, R419: what the device writes on its own. The oldest event of a backlog is written at the
ring's index with its phase bit; an index slot is written with the current value; a message clears its vector's count or
stays pending under the mask; a statistics block takes the next number and the other buffer; PROGRESS moves on; NOTICE_ACK
returns the count and ends the notice. The model's own choices in it are log entries 60, 63 and 92. -/
def Obligations.DeviceWrites : Prop :=
  ∀ (s : State) (n t : Nat),
    let s1 := advance t s
    (∀ r e rest, ring? s n = some r → r.backlog = e :: rest → backlogReady s n = true →
      exec (.eventWrite n false) s = .next (writeFailed n s) ∧
      Answers (.eventWrite n true) s (fun u => u = { s with hif := u.hif } ∧ ∃ q, ring? u n = some q ∧ q.backlog = rest ∧
        q.devIdx = r.devIdx + 1 ∧ q.seq = r.seq ∧
        FMap.get? q.written (r.pos r.devIdx) = some (setPhase (phaseBit r.ctx.log2 r.devIdx) (eventEntry e)))) ∧
    (∀ r, ring? s n = some r → slotDue s1 n (now s1) = true →
      exec (.indexSlotWrite n false t) s = .next (writeFailed n s1) ∧
      exec (.indexSlotWrite n true t) s =
        .next (withRing n (fun q => { q with slotIdx := if q.ctx.ty = .ptx then q.endIdx else q.devIdx, slotTime := now s1 }) s1)) ∧
    (∀ m, n < 64 → slotsWritten s1 n = true → msixDue s1 n (now s1) = true → FMap.get? s.hif.msix n = some m →
      let masked := msixMasked s n
      let q := { m with count := 0, sent := if masked then m.sent else m.sent + 1, pending := masked }
      exec (.msixSend n t) s = .next { s1 with hif := { s.hif with msix := FMap.set s.hif.msix n q } }) ∧
    (statsDue s1 = true →
      let s2 := { s1 with hif := { s1.hif with statsAt := now s1 } }
      exec (.statsBlock t false) s = .next (bump .hifDmaErr 0 s2) ∧
      Answers (.statsBlock t true) s (fun u => u.hif.statsSeq = s.hif.statsSeq + 1 ∧ u.hif.statsBuf = !s.hif.statsBuf ∧
        u.hif.statsAt = now s1 ∧ u.hif.stats = some (b2n s.hif.statsBuf, statsBlock s2 (s.hif.statsSeq + 1)) ∧ u.regs = s.regs)) ∧
    (∀ o pos, longOp? s n = some o → Answers (.progressTimer n pos t) s (fun u => u = { s1 with hif := u.hif, counters := u.counters } ∧
      ∃ p, longOp? u n = some p ∧ p.position = max o.position pos ∧ p.total = o.total ∧ p.tag = o.tag)) ∧
    (∀ (h : CmdHdr) code mark obj x, Ready (plainCmd 0x01A1 2) h s → notice? s code obj mark = some x →
      let left := s.hif.notices.filter (fun m => !(m.code == code && m.object == obj && m.mark == mark))
      exec (.noticeAck h code mark obj) s = .next (finish (plainCmd 0x01A1 2) h s St.ok
        (toLE 4 (if code = Ev.queueMark then min x.count 65535 else x.count)) (withNotices (fun _ => left) (take h.ring s))))

/-- R387, R388, R390, R518, R519, R521, R522: registers. A misaligned access only counts; an access to what is not served
changes nothing; a write changes the fields it may and keeps every other register, sets refused where its value is out of
range, and is kept out by the setup lock; a LO read captures HI; a configuration read finds what R387 states, and Retry
Status before step 4 of start-up has ended. The model's own choices in it are log entries 28, 59 and 63. -/
def Obligations.RegisterAccess : Prop :=
  ∀ (s : State) (off : Nat) (v : BitVec 64),
    (∀ wide, barAligned off wide = false → exec (.registerWrite off wide v) s = .next (bump .barBad 0 s)) ∧
    (barAligned off false = true → off < 0xF0000 → regAt off = none → exec (.registerWrite off false v) s = .next s) ∧
    (∀ r i, barAligned off false = true → off < 0xF0000 → regAt off = some (r, i) →
      let w := v.extractLsb' 0 32
      let new := mergeWrite r false (regVal s r i) w
      (regServed s r = false → exec (.registerWrite off false v) s = .next s) ∧
      (regServed s r = true → pairHi r = none → pairLo r = none →
        r ∉ [RegName.recovCtrl, .mbxCmd, .ringCmd, .hifKick, .rlCtrl, .tpioPolarity] →
        (setupLocked s = true → accMask r .rwl ≠ 0 → (accMask r .rw ||| accMask r .w1c) = 0 → exec (.registerWrite off false v) s =
          .next (if (regVal s r i ^^^ w) &&& accMask r .rwl = 0 then s else bump .setupLockedWr 0 s)) ∧
        ((accMask r .rw ||| accMask r .rwl ||| accMask r .w1c) = 0 → exec (.registerWrite off false v) s = .next s) ∧
        ((accMask r .rw ||| accMask r .rwl ||| accMask r .w1c) ≠ 0 → setupLocked s = false →
          (inRange r (new ||| (w &&& accMask r .wo)) = false ∨ regCondOk s r i (regVal s r i) new = false →
            exec (.registerWrite off false v) s = .next (refuse s r i)) ∧
          (inRange r (new ||| (w &&& accMask r .wo)) = true → regCondOk s r i (regVal s r i) new = true →
            Answers (.registerWrite off false v) s (fun u => regVal u r i = new ∧ u.chans = s.chans ∧ u.endp = s.endp ∧
              ∀ r2 j, regOff r2 j ≠ regOff r i → regVal u r2 j = regVal s r2 j))))) ∧
    (∀ r hi, barAligned off true = true → regAt off = some (r, 0) → pairHi r = some hi → regServed s r = true →
      accMask r .rw ≠ 0 → pairOk s r v.toNat = true → regOff r 0 ≠ regOff hi 0 →
      Answers (.registerWrite off true v) s (fun u => regVal u r 0 = v.extractLsb' 0 32 ∧ regVal u hi 0 = v.extractLsb' 32 32)) ∧
    (exec (.barBadAccess true off) s = .next (bump .barBad 0 s)) ∧
    (exec (.barBadAccess false off) s = .next (bump .barBad 0 { s with hif := { s.hif with barAnswer := BitVec.allOnes 64 } })) ∧
    (exec (.configurationRequest off) s = .next (if s.hif.cfgOpen then
        { s with free := s.free + 1, hif := { s.hif with cfgAnswer := some (cfgWord s off) } }
      else { s with hif := { s.hif with cfgAnswer := none } }) ∧
      (off = 0x00 → cfgWord s off = 0x96401F4C) ∧ (off = 0x08 → cfgWord s off = 0x0B400001) ∧
      (off = 0x10 → cfgWord s off &&& 0x000FFFFF = 0x4)) ∧
    (∀ r i hi, regAt off = some (r, i) → pairHi r = some hi → regServed s r = true →
      exec (.loReadCapture off) s = .next { s with hif := { s.hif with
        hiCapture := FMap.set s.hif.hiCapture (regOff hi i) (regRead s hi i), barAnswer := (barRead s off).setWidth 64 } }) ∧
    (∀ r i, regAt off = some (r, i) → pairHi r = none ∨ regServed s r = false →
      exec (.loReadCapture off) s = .next { s with hif := { s.hif with barAnswer := (barRead s off).setWidth 64 } })

/-! ### Security -/

/-- R426, R430, R432, R433, R434, R436, R437, R438: sessions, proofs, keys and the setup lock. SESSION_OPEN answers a fresh
nonce bound to ring and privilege; a right proof opens the session and a wrong one raises the count of its privilege;
SESSION_CLOSE and the idle time end it; OWNER_ENROL takes the keys of its block and KEY_SET replaces one; SETUP_UNLOCK and
SETUP_LOCK move the lock. The model's own choices in it are log entries 15 and 64. -/
def Obligations.SessionsAndKeys : Prop :=
  ∀ (h : CmdHdr) (s : State) (p t : Nat),
    let s1 := take h.ring s
    let secOnly := fun (u : State) => u = { s with sec := u.sec, hif := u.hif, counters := u.counters, endp := u.endp, free := u.free }
    (Ready (plainCmd 0x0401 0) h s → sessionOpenStatus s1 h.ring p = St.ok → ∃ v, v.length = 16 ∧
      exec (.sessionOpen h p) s = .next (finish (plainCmd 0x0401 0) h s St.ok v
        { s1 with free := s.free + 1, sec := { s1.sec with nonces := FMap.set s.sec.nonces h.ring ⟨p, v, now s⟩ } })) ∧
    (Ready (blockCmd 0x0402 0 64) h s → sessionProveStatus s1 h.ring (blk h) = St.ok →
      Answers (.sessionProve h) s (fun u => secOnly u ∧ FMap.get? u.sec.nonces h.ring = none ∧
        FMap.get? u.sec.fails (byteAt (blk h) 0) = none ∧ ∃ c, FMap.get? u.sec.sessions h.ring = some c ∧
          c.privilege = byteAt (blk h) 0 ∧ c.commands = 0 ∧ c.lastCmd = now s)) ∧
    (Ready (blockCmd 0x0402 0 64) h s → sessionProveStatus s1 h.ring (blk h) = St.badProof →
      Answers (.sessionProve h) s (fun u => secOnly u ∧ FMap.get? u.sec.nonces h.ring = none ∧
        FMap.getD u.sec.fails (byteAt (blk h) 0) 0 = FMap.getD s.sec.fails (byteAt (blk h) 0) 0 + 1 ∧
        (notice? u Ev.authFail (byteAt (blk h) 0)).isSome = true ∧ u.endp.life.authFail = s.endp.life.authFail + 1)) ∧
    (Ready (plainCmd 0x0403 4) h s → s.sec.enrolled = true →
      Answers (.sessionClose h) s (fun u => secOnly u ∧ FMap.get? u.sec.sessions h.ring = none ∧
        ∀ e, u.sec.unlock ≠ some (h.ring, e))) ∧
    (Ready (blockCmd 0x0410 5 144) h s → ownerEnrolStatus s1 (blk h) = St.ok →
      Answers (.ownerEnrol h) s (fun u => secOnly u ∧ u.sec = { u.sec with
        enrolled := true, viewKey := sub (blk h) 0x10 32, operKey := sub (blk h) 0x30 32, ownerKey := sub (blk h) 0x50 32,
        signHash := sub (blk h) 0x70 32, fails := [], backoff := [], unlock := none, identity := s.sec.identity,
        revoked := s.sec.revoked })) ∧
    (∀ c, Ready (blockCmd 0x0411 3 64) h s → keySetStatus s1 h.ring (blk h) = St.ok → FMap.get? s1.sec.sessions h.ring = some c →
      Answers (.keySet h) s (fun u => secOnly u ∧ u.sec.enrolled = s.sec.enrolled ∧ u.sec.identity = s.sec.identity ∧
        (let k := s.sec.withKey (byteAt (blk h) 0) (keySetValue c.key (blk h))
         u.sec.viewKey = k.viewKey ∧ u.sec.operKey = k.operKey ∧ u.sec.ownerKey = k.ownerKey ∧ u.sec.signHash = k.signHash))) ∧
    (Ready (plainCmd 0x0412 3) h s → s.sec.enrolled = true → s.sec.unlock = none →
      Answers (.setupUnlock h) s (fun u => secOnly u ∧ u.endp = s.endp ∧
        ∀ c, FMap.get? s.sec.sessions h.ring = some c → c.commands + 1 < 2 ^ 32 → u.sec.unlock = some (h.ring, now s + unlockMaxNs s))) ∧
    (∀ e, Ready (plainCmd 0x0413 3) h s → s.sec.enrolled = true → s.sec.unlock = some (h.ring, e) →
      Answers (.setupLock h) s (fun u => secOnly u ∧ u.sec.unlock = none ∧ u.endp = s.endp)) ∧
    (∀ c, FMap.get? s.sec.sessions p = some c → c.lastCmd + idleNs s ≤ now (advance t s) →
      Answers (.sessionIdleTimeout p t) s (fun u => u = { advance t s with sec := u.sec, hif := u.hif, counters := u.counters } ∧
        u.sec = { s.sec with sessions := FMap.del s.sec.sessions p, unlock := u.sec.unlock } ∧ ∀ e, u.sec.unlock ≠ some (p, e))) ∧
    (∀ x, FMap.get? s.sec.nonces p = some x → x.drawn + 10000000000 ≤ now (advance t s) →
      exec (.nonceExpiry p t) s = .next { advance t s with sec := { s.sec with nonces := FMap.del s.sec.nonces p } }) ∧
    (∀ e, FMap.get? s.sec.backoff p = some e → e ≤ now (advance t s) →
      Answers (.backoffExpiry p t) s (fun u =>
        u = { advance t s with hif := u.hif, sec := { s.sec with backoff := FMap.del s.sec.backoff p } })) ∧
    (∀ e, s.sec.unlock = some (p, e) → e ≤ now (advance t s) →
      Answers (.unlockExpiry t) s (fun u => u = { advance t s with sec := u.sec, hif := u.hif, counters := u.counters } ∧
        u.sec = { s.sec with unlock := none }))

/-- R440, R446, R448, R451, R453, R530: identity, attestation, the mailbox and user kernels. ID_KEYS and ATTEST write their
block; the mailbox answers the same octets, and enrols; USER_KERNELS_LOAD is a long operation, whose end loads a set that
passes into every image and stores it; USER_KERNELS_CLEAR takes it away. The model's own choices in it are log entries 2, 3
and 16. -/
def Obligations.AttestationAndUserKernels : Prop :=
  ∀ (h : CmdHdr) (s : State),
    let s1 := take h.ring s
    (Ready (blockCmd 0x0404 0 12288) h s → exec (.idKeys h) s = .next (finish (blockCmd 0x0404 0 12288) h s St.ok []
      { s1 with hif := { s1.hif with wrote := toLE 8 s.sec.identity.toNat ++ padTo 8730 Config.identityKeys ++ zeros 3550 } })) ∧
    (∀ c, Ready (blockCmd 0x0405 1 4096) h s → exec (.attest h c) s = .next (finish (blockCmd 0x0405 1 4096) h s St.ok []
      { s1 with hif := { s1.hif with wrote := attestReport s1 c } })) ∧
    (mbxTakeable s = true → exec (.mbxIdKeys true) s = .next { s with hif := { s.hif with
        mbxAnswer := toLE 8 s.sec.identity.toNat ++ padTo 8730 Config.identityKeys ++ zeros 3550, mbxStatus := St.ok, lastTurn := 512 } } ∧
      exec (.mbxIdKeys false) s = .next { s with hif := { s.hif with mbxStatus := St.badDesc, lastTurn := 512 } }) ∧
    (∀ b, mbxTakeable s = true →
      (mbxEnrolStatus s b ≠ St.ok → exec (.mbxOwnerEnrol b) s =
        .next { s with hif := { s.hif with mbxStatus := mbxEnrolStatus s b, lastTurn := 512 } }) ∧
      (∀ d, b = some d → mbxEnrolStatus s b = St.ok → Answers (.mbxOwnerEnrol b) s (fun u => u.hif.mbxStatus = St.ok ∧
        u.sec.enrolled = true ∧ u.sec.viewKey = sub d 0x10 32 ∧ u.sec.operKey = sub d 0x30 32 ∧ u.sec.ownerKey = sub d 0x50 32 ∧
        u.sec.signHash = sub d 0x70 32 ∧ u.chans = s.chans ∧ u.regs = s.regs))) ∧
    (let c : CmdSpec := ⟨0x0420, 3, fun _ => true, true, false⟩
     Ready c h s → userLoadStatus s1 = St.ok → s.hif.longOps.length < 256 →
      exec (.userKernelsLoad h) s = .next (accepted c h s { begun 0x0420 (blk h).length h s with
        avl := { s.avl with ukLoading := s.avl.ukLoading ++ [(s.hif.nextOpId, blk h)] } })) ∧
    (∀ i raw rest, s.avl.ukLoading = (i, raw) :: rest →
      let s2 := { s with avl := { s.avl with ukLoading := rest } }
      (∀ e, checkUser s2 (runMim s2) raw = .error e → Answers .userKernelsLoadDone s (fun u => u.code = s.code ∧
        u.avl = { s.avl with ukLoading := rest } ∧ longOp? u i = none)) ∧
      (∀ k, checkUser s2 (runMim s2) raw = .ok k → Answers .userKernelsLoadDone s (fun u => longOp? u i = none ∧
        u.avl = { s.avl with ukLoading := rest, userStored := some k, userLoaded := some k } ∧ u.code = (putUser (some k) s).code))) ∧
    (Ready (plainCmd 0x0421 3) h s → userClearStatus s1 = St.ok →
      exec (.userKernelsClear h) s = .next (finish (plainCmd 0x0421 3) h s St.ok []
        { s1 with avl := { s.avl with userStored := none, userLoaded := none }, code := FMap.mapV s.code (fun _ c => c.noUser) }))

/-! ### Directory, memories and the retained configuration -/

/-- R468, R471, R472, R473, R474: the endpoint directory. EPD_PUT inserts or replaces the entry of its address and answers its
slot; EPD_DELETE removes it; EPD_GET writes it with its key zeroed; EPD_LOAD, EPD_EXPORT and EPD_REBUILD are long operations
with their ends; EPD_CLEAR leaves no entry and draws a new directory key. The model's own choices in it are log entries 20
and 55. -/
def Obligations.EndpointDirectory : Prop :=
  ∀ (h : CmdHdr) (s : State),
    let s1 := take h.ring s
    let b := blk h
    (Ready (blockCmd 0x0501 2 128) h s → epdPutStatus s1 b = St.ok →
      ∃ u, exec (.epdPut h) s = .next (finish (blockCmd 0x0501 2 128) h s St.ok (toLE 4 (putSlot s b)) u) ∧
        u = { s1 with epd := { s.epd with entries := u.epd.entries, refs := u.epd.refs } } ∧
        (∀ n, slotOf s (epdAddr b) = some n → u.epd.entries = FMap.adj s.epd.entries n (putEntryBlock b 0) ∧ u.epd.refs = s.epd.refs) ∧
        (slotOf s (epdAddr b) = none →
          u.epd.entries = FMap.set s.epd.entries (putSlot s b) (putEntryBlock b 0 (EpdEntry.fresh (epdAddr b))) ∧
          some u.epd.refs = placeRef s.epd.kIdx s.epd.refs (epdAddr b) (putSlot s b))) ∧
    (∀ a n, Ready (plainCmd 0x0502 2) h s → slotOf s a = some n →
      ∃ u, exec (.epdDelete h a) s = .next (finish (plainCmd 0x0502 2) h s St.ok [] u) ∧
        u.epd.entries = FMap.del s.epd.entries n ∧ (u.epd.entries ≠ [] → u.epd.kIdx = s.epd.kIdx ∧
          u.epd.refs = s.epd.refs.filter (fun r => r.slot != n))) ∧
    (∀ a, Ready (plainCmd 0x0502 2) h s → slotOf s a = none →
      exec (.epdDelete h a) s = .next (finish (plainCmd 0x0502 2) h s St.epdAbsent [] s1)) ∧
    (∀ a n e, Ready (blockCmd 0x0503 1 128) h s → slotOf s a = some n → epdEntry? s n = some e →
      exec (.epdGet h a) s = .next (finish (blockCmd 0x0503 1 128) h s St.ok []
        { s1 with hif := { s1.hif with wrote := entryBytes e } })) ∧
    (∀ k, let c : CmdSpec := ⟨0x0504, 2, (· == 128 * k), true, false⟩
      Ready c h s → 1 ≤ k → k ≤ 8388608 → s.hif.longOps.length < 256 →
      exec (.epdLoad h k) s = .next (accepted c h s { begun 0x0504 k h s with
        epd := { s.epd with load := s.epd.load ++ [(s.hif.nextOpId, b)] } })) ∧
    (∀ k, let c : CmdSpec := ⟨0x0505, 2, (· == 128 * k), true, false⟩
      Ready c h s → 1 ≤ k → k ≤ 8388608 → s.hif.longOps.length < 256 →
      exec (.epdExport h k) s = .next (accepted c h s { begun 0x0505 k h s with
        epd := { s.epd with export_ := s.epd.export_ ++ [(s.hif.nextOpId, k)] } })) ∧
    (Ready (plainCmd 0x0506 2) h s → s.epd.rebuild = none → s.hif.longOps.length < 256 → ∃ k : Bytes, k.length = 16 ∧
      exec (.epdRebuild h) s = .next (accepted (plainCmd 0x0506 2) h s { begun 0x0506 s.epd.entries.length h s with
        free := s.free + 1, epd := { s.epd with rebuild := some (some s.hif.nextOpId, k) } })) ∧
    (Ready (plainCmd 0x0507 3) h s → ∃ k : Bytes, k.length = 16 ∧
      exec (.epdClear h) s = .next (finish (plainCmd 0x0507 3) h s St.ok []
        { s1 with free := s.free + 1, epd := { s.epd with entries := [], refs := [], kIdx := k, badBuckets := [] } })) ∧
    (alive s = true →
      (∀ i d rest, s.epd.load = (i, d) :: rest → Answers .epdLoadDone s (fun u => longOp? u i = none ∧ u.epd.load = rest ∧
        u.epd = (loadEntries (d.length / 128) 0 d { s with epd := { s.epd with load := rest } }).2.2.epd)) ∧
      (∀ i k rest, s.epd.export_ = (i, k) :: rest → Answers .epdExportDone s (fun u => longOp? u i = none ∧
        u.epd = { s.epd with export_ := rest } ∧ u.hif.wrote = ((FMap.vals s.epd.entries).take k).flatMap entryBytes)) ∧
      (∀ op k, s.epd.rebuild = some (op, k) → Answers .epdRebuildSwitch s (fun u =>
        u.epd = { s.epd with rebuild := none, kIdx := k, refs := rebuildRefs k s.epd.entries, badBuckets := [] } ∧
        ∀ i, op = some i → longOp? u i = none)))

/-- R457, R463, R465, R480, R482: memories and the retained configuration, each command with its whole answer. MEM_SCRUB is
refused for a region that is none or whose pass runs, answers BUSY with 256 operations, and else asks for a pass, whose end
counts every corrected error at its memory and ends the operation. A timing correction is kept, and its cache entry where it
has moved by more than an eighth of a unit interval. An uncorrectable error has the outcome of its place, each of the twelve
places in turn, and one in DRAM counts, raises DRAM_UE and may remap a row. COMMIT makes a new epoch of the present values,
or fails whole; REVERT puts every value that differs back, each one as its own write would be taken. The lifetime counters
are written every 60 s. The model's own choices in it are log entries 5, 17, 20, 56, 57 and 65. -/
def Obligations.MemoriesAndConfiguration : Prop :=
  (∀ (h : CmdHdr) (s : State),
    let s1 := take h.ring s
    (∀ r, Ready (plainCmd 0x0511 2) h s →
      exec (.memScrub h r) s = .next (
        if 4 < r then finish (plainCmd 0x0511 2) h s St.badParam [] s1
        else if s.dmc.scrubbing.any (fun e => e.1 == r) = true then finish (plainCmd 0x0511 2) h s St.busy [] s1
        else if 256 ≤ s.hif.longOps.length then finish (plainCmd 0x0511 2) h s St.busy [] s1
        else accepted (plainCmd 0x0511 2) h s { begun 0x0511 (regionBytes s r) h s with
          dmc := { s.dmc with scrubbing := s.dmc.scrubbing ++ [(r, some s.hif.nextOpId)] } })) ∧
    (Ready (plainCmd 0x0521 3) h s → s.endp.degraded = false →
      exec (.commit h) s = .next (wearCheck (finish (plainCmd 0x0521 3) h s St.ok (toLE 8 (s.endp.epoch + 1)) (endpWrite
        { s1 with endp := { s.endp with epoch := s.endp.epoch + 1, committed := snapshot s } })))) ∧
    (Ready (plainCmd 0x0521 3) h s → s.endp.degraded = true →
      exec (.commit h) s = .next (finish (plainCmd 0x0521 3) h s St.endpaperFail [] s1)) ∧
    (Ready (plainCmd 0x0522 3) h s →
      exec (.revert h) s = .next (finish (plainCmd 0x0522 3) h s St.ok (toLE 8 s.endp.epoch) (revertAll s1)))) ∧
  (∀ (s : State) (off : Nat) r i, regAt off = some (r, i) → r ≠ .rlCtrl →
    let new := (regVal s r i &&& ~~~ accMask r .rwl) ||| committedAt s off
    revertReg s off = if (inRange r new && regCondOk s r i (regVal s r i) new) = true
      then regAfter r i (regVal s r i) new (setReg s r i new) else s) ∧
  ∀ (s : State), alive s = true →
    (∀ r l, r ≤ 4 → Answers (.scrubPass r l) s (fun u => u.regs = s.regs ∧ u.epd = s.epd ∧ u.chans = s.chans ∧ u.qmg = s.qmg ∧
      u.dmc.scrubbing = s.dmc.scrubbing.filter (fun e => e.1 != r) ∧ (r ≠ 0 → u.dmc = { s.dmc with scrubbing := u.dmc.scrubbing }) ∧
      (∀ c, r = 0 → counter u .dramCe c = counter s .dramCe c + BitVec.ofNat 64 (l.countP (fun e => e.1 == c))) ∧
      (∀ c, r = 1 → counter u .cmemCe c = counter s .cmemCe c + BitVec.ofNat 64 (l.countP (fun e => e.1 == c))) ∧
      (∀ v, r = 2 → counter u .vpeMemCe v = counter s .vpeMemCe v + BitVec.ofNat 64 (l.countP (fun e => e.1 == v))) ∧
      (r = 3 → counter u .poolCe 0 = counter s .poolCe 0 + BitVec.ofNat 64 l.length) ∧
      (r = 4 → counter u .endpCe 0 = counter s .endpCe 0 + BitVec.ofNat 64 l.length) ∧
      (∀ i, s.dmc.scrubbing.find? (fun e => e.1 == r) = some (r, some i) → longOp? u i = none))) ∧
    (∀ k c, k < 4 → s.dmc.chOk.getLsbD k = true →
      Answers (.dramTimingCorrect k c) s (fun u => u = { s with dmc := u.dmc, endp := u.endp, free := u.free } ∧
        u.dmc = { s.dmc with dqs := FMap.set s.dmc.dqs k c,
                             cached := if 125 < (c - FMap.getD s.dmc.cached k 0).natAbs then FMap.set s.dmc.cached k c else s.dmc.cached })) ∧
    (∀ n, (vpeAt s n).op.isSome = true →
      exec (.memoryUe (.vpeData n)) s = .next (putVpe n ((vpeAt s n).fault .memUe) s) ∧
      exec (.memoryUe (.vpeProg n)) s = .next (putVpe n { (vpeAt s n).fault .illegal with progBad := true } s)) ∧
    (∀ n, (vpeAt s n).op = none →
      exec (.memoryUe (.vpeData n)) s = .next s ∧ exec (.memoryUe (.vpeProg n)) s = .next s) ∧
    (∀ n c, FMap.get? s.chans n = some c →
      Answers (.memoryUe (.clusterEcho n)) s (fun u =>
        u = { s with chans := FMap.adj s.chans n Chan.noEcho, counters := u.counters } ∧
        counter u .ecStateLost n = counter s .ecStateLost n + 1)) ∧
    (∀ n k q x, queue? s n = some q → q.taken = some (x, k) → q.releasing = none →
      Answers (.memoryUe (.cellWord n)) s (fun u => (∃ y, queue? u n = some y ∧ y.taken = none ∧ y.items = q.items) ∧
        counter u .qIntegrity 0 = counter s .qIntegrity 0 + 1)) ∧
    (∀ f fl, flow? s f = some fl →
      exec (.memoryUe (.fscEntry f)) s = .next (round (fl.order.foldl (fun t e => voidOp f e.1.num e.2.node t) (freeVpesOf f s)))) ∧
    (∀ f, flow? s f = none → exec (.memoryUe (.fscEntry f)) s = .next s) ∧
    (∀ (k a : Nat), let m := dramUe k a s
      m.endp.life.dramUe = s.endp.life.dramUe + 1 ∧ m.dmc.lastUe = some (now s) ∧ (notice? m Ev.dramUe k).isSome = true ∧
      counter m .dramUe k = counter s .dramUe k + 1 ∧ m.chans = s.chans ∧ m.epd = s.epd ∧ m.bce = s.bce ∧
      (∀ n, exec (.memoryUe (.dramEcho k a n)) s = .next (echoLost n m)) ∧
      (∀ n e, epdEntry? s n = some e → Answers (.memoryUe (.dramEntry k a n)) s (fun u =>
        epdEntry? u n = some { e with damaged := true } ∧ u = { m with epd := u.epd, hif := u.hif, counters := u.counters })) ∧
      (∀ n, epdEntry? s n = none → exec (.memoryUe (.dramEntry k a n)) s = .next m) ∧
      Answers (.memoryUe (.dramIndex k a)) s (fun u => u = { m with epd := u.epd, free := u.free } ∧
        u.epd.rebuild.isSome = true ∧ u.epd.entries = s.epd.entries ∧ u.epd.badBuckets.length = s.epd.badBuckets.length + 1) ∧
      Answers (.memoryUe (.dramBacklog k a)) s (fun u => (s.bce.backlog = [] → u.bce = s.bce) ∧
        (s.bce.backlog ≠ [] → ∃ e, e ∈ s.bce.backlog ∧ u.bce.backlog = dropFirst s.bce.backlog e)) ∧
      (∀ n r, ring? m n = some r → Answers (.memoryUe (.dramEvent k a n)) s (fun u =>
        (r.backlog = [] → u = m) ∧ (r.backlog ≠ [] → ∃ i q, ring? u n = some q ∧ q.backlog = r.backlog.eraseIdx i ∧ i < r.backlog.length ∧
          q.lostFlag = true ∧ counter u .evtDrop n = counter m .evtDrop n + 1))) ∧
      (∀ n, exec (.memoryUe (.dramResume k a n)) s = .next
        { m with bce := { m.bce with resumes := m.bce.resumes.filter (fun r => r.handle != n) } })) ∧
    (∀ k, exec (.memoryUe (.endpaper k false)) s = .next s) ∧
    (∀ k, 7 ≤ s.avl.stage → Answers (.memoryUe (.endpaper k true)) s (fun u =>
      u = { areaLost k s with hif := u.hif, counters := u.counters })) ∧
    (∀ k, s.avl.stage < 7 → Answers (.memoryUe (.endpaper k true)) s (fun u =>
      ∃ b, u = { areaLost k s with avl := { (areaLost k s).avl with atReady := (areaLost k s).avl.atReady ++ [(Ev.endpaperLost, b)] } })) ∧
    (∀ t, s.endp.lifeAt + 60000000000 ≤ now (advance t s) →
      Answers (.lifetimeWrite t) s (fun u => u = { advance t s with endp := u.endp, hif := u.hif, counters := u.counters, free := u.free } ∧
        u.endp.life.powerOnS = (lifeNow (advance t s)).powerOnS ∧ u.endp.epoch = s.endp.epoch ∧
        u.endp.committed = s.endp.committed ∧
        (s.endp.degraded = false → u.endp.lifeStored = u.endp.life) ∧
        (s.endp.degraded = true → u.endp.lifeStored = s.endp.lifeStored ∧ u.endp.degraded = true)))

/-! ### Resets, start-up, images and service -/

namespace Sys2Proof.Machine

/-- What every reset of the whole device keeps (R485): keys, enrolment and failed-proof counts, fuses and identity, the
committed configuration, images and the boot record, the locks, retired clusters and the DRAM's remaps and training cache. -/
def Survives (s u : State) : Prop :=
  u.pending = s.pending ∧ u.sec = { s.sec with sessions := [], nonces := [], unlock := none, backoff := [] } ∧
  u.endp.epoch = s.endp.epoch ∧ u.endp.committed = s.endp.committed ∧
  u.avl.cimA = s.avl.cimA ∧ u.avl.cimB = s.avl.cimB ∧ u.avl.mimA = s.avl.mimA ∧ u.avl.mimB = s.avl.mimB ∧
  u.avl.userStored = s.avl.userStored ∧ u.avl.bootCim = s.avl.bootCim ∧ u.avl.bootMim = s.avl.bootMim ∧
  u.avl.knownGood = s.avl.knownGood ∧ u.avl.fallbackFlag = s.avl.fallbackFlag ∧
  u.avl.acceptUntested = s.avl.acceptUntested ∧ u.avl.behaviourLock = s.avl.behaviourLock ∧
  u.avl.retired = s.avl.retired ∧ u.dmc.remaps = s.dmc.remaps ∧ u.dmc.cached = s.dmc.cached

/-- What every such reset takes away (R485): rings, sessions, notices, operations, uncommitted changes, every object of the
chapters and the counters; the device stands before start-up. The directory stands apart. -/
def AllGone (u : State) : Prop :=
  u.regs = [] ∧ u.hif = { Hif.reset with subsys := u.hif.subsys } ∧ u.chans = [] ∧ u.rtps = [] ∧ u.tps = [] ∧ u.links = [] ∧
  u.rxcs = [] ∧ u.txcs = [] ∧ u.radio = [] ∧ u.freed = [] ∧ u.groups = [] ∧ u.vpes = [] ∧ u.code = [] ∧ u.fsc = Fsc.reset ∧ u.qmg = Qmg.reset ∧
  u.bce = Bce.reset ∧ u.tdm = [] ∧ u.eth = [] ∧ u.prp = [] ∧ u.counters = [] ∧ u.figs = [] ∧ u.twin = Twin.reset ∧
  u.avs = Avs.reset ∧ u.avl.stage = 0 ∧ u.avl.userLoaded = none

/-- `u` is `s` but for what an IMAGE restart may touch: waiting commands, the availability unit and the host interface. -/
def Restarted (s u : State) : Prop :=
  u = { s with avl := u.avl, chans := u.chans, fsc := u.fsc, qmg := u.qmg, bce := u.bce, hif := u.hif, sec := u.sec,
               counters := u.counters }

/-- `u` is `s` but for the availability unit, Endpaper's records, and what a completion and an event touch. -/
def AvlOnly (s u : State) : Prop :=
  u = { s with avl := u.avl, endp := u.endp, code := u.code, free := u.free, hif := u.hif, sec := u.sec, counters := u.counters } ∧
  u.endp.epoch = s.endp.epoch ∧ u.endp.committed = s.endp.committed

end Sys2Proof.Machine

/-- R484, R485, R498, R509, R538, R539, R543: resets, power states and the junction sensor. A POR and a PIN reset keep what is
retained, lose everything else and start device time from 0, each with its lifetime counter; a SOFT reset keeps device time
and the directory; a DOMAIN reset takes effect after its completion, and outside its range nothing is reset; an IMAGE
restart loses no object; STANDBY keeps device time; SHUTDOWN ends media, after which no command is taken; 130 °C trips until
the next POR. The model's own choices in it are log entries 34, 35, 40, 41, 42 and 43. -/
def Obligations.ResetsAndPowerStates : Prop :=
  ∀ (h : CmdHdr) (s : State),
    let s1 := take h.ring s
    (∀ f st, s.avl.porHeld = false → Answers (.powerOnReset true f st) s (fun u => Survives s u ∧ AllGone u ∧
      u.clk = Clock.reset ∧ u.epd = Epd.reset ∧ u.avl.porHeld = true ∧ u.avl.thermTrip = false ∧ u.avl.power = 0 ∧
      u.endp.life = { s.endp.lifeStored with por := s.endp.lifeStored.por + 1 })) ∧
    (∀ f st, s.avl.porHeld = true → exec (.powerOnReset false f st) s =
      .next { s with avl := { s.avl with porHeld := false, straps := st, factoryReq := f } }) ∧
    (∀ low st, s.avl.porHeld = false → 10000 ≤ low → Answers (.pinReset low st) s (fun u => Survives s u ∧ AllGone u ∧
      u.clk = Clock.reset ∧ u.epd = Epd.reset ∧ u.avl.straps = st ∧ u.avl.factoryReq = false ∧ u.avl.power = 0 ∧
      u.endp.life = { s.endp.lifeStored with pin := s.endp.lifeStored.pin + 1 })) ∧
    (Ready (plainCmd 0x0606 3) h s → Answers (.resetSoft h) s (fun u => Survives s u ∧ AllGone u ∧
      u.clk.localNs = s.clk.localNs ∧ u.clk.offset = s.clk.offset ∧ u.clk.tick = s.clk.tick ∧
      u.epd = { s.epd with rebuild := none, load := [], export_ := [] } ∧ u.avl.dirClean = true ∧
      u.endp.life.soft = s.endp.life.soft + 1 ∧ (s.endp.degraded = false → u.endp.lifeStored = u.endp.life))) ∧
    (∀ d o, Ready (plainCmd 0x0606 3) h s →
      (o < domainRange d → exec (.resetDomain h d o) s =
        .next (resetDomain d o (finish (plainCmd 0x0606 3) h s St.ok [] s1))) ∧
      (domainRange d ≤ o → exec (.resetDomain h d o) s = .next (finish (plainCmd 0x0606 3) h s St.badParam [] s1)) ∧
      (o < 32 → Answers (.resetDomain h 1 o) s (fun u => (ethPort u o).fifos = [] ∧ (ethPort u o).onWire = none ∧
        (ethPort u o).linkUp = (ethPort s o).linkUp ∧ (ethPort u o).gates = (ethPort s o).gates ∧
        (ethPort u o).wake = (ethPort s o).wake ∧
        u = { s with hif := u.hif, sec := u.sec, counters := u.counters, eth := u.eth, figs := u.figs, free := u.free })) ∧
      (o < 192 → Answers (.resetDomain h 2 o) s (fun u => (tdmPort u o).txFifo = [] ∧ (tdmPort u o).rxSlots = [] ∧ (tdmPort u o).rxFifo = [] ∧
        u = { s with hif := u.hif, sec := u.sec, counters := u.counters, tdm := u.tdm })) ∧
      (o < 8 → Answers (.resetDomain h 3 o) s (fun u =>
        (linkAt u o).state = (if (linkAt s o).state = 0 then 0 else 1) ∧ u.regs = s.regs ∧ u.chans = s.chans))) ∧
    (Ready (plainCmd 0x0606 3) h s → Answers (.resetImage h) s (fun u => u.avl = { s.avl with standbyReady := false } ∧
      FMap.keys u.chans = FMap.keys s.chans ∧ FMap.keys u.fsc.flows = FMap.keys s.fsc.flows ∧
      FMap.keys u.qmg.queues = FMap.keys s.qmg.queues ∧ Restarted s u)) ∧
    (serving s = true → Answers .watchdogRestart s (fun u =>
      u.avl = { s.avl with standbyReady := false, runSince := now s } ∧ FMap.keys u.chans = FMap.keys s.chans ∧
      FMap.keys u.fsc.flows = FMap.keys s.fsc.flows ∧ u.sec = s.sec ∧ Restarted s u)) ∧
    (Ready (plainCmd 0x0531 3) h s → Answers (.standbyEnter h) s (fun u => Survives s u ∧ AllGone { u with eth := [] } ∧ u.avl.power = 1 ∧
      (∀ p e, FMap.get? u.eth p = some e → wakePort u p = true ∧ e = { EthPort.fresh with linkUp := (ethPort s p).linkUp }) ∧
      u.epd = Epd.reset ∧ u.clk.localNs = s.clk.localNs ∧ u.clk.offset = s.clk.offset ∧
      (s.endp.degraded = false → u.endp.lifeStored = u.endp.life))) ∧
    (Ready (plainCmd 0x0532 3) h s → Answers (.shutdown h) s (fun u => u.avl.power = 2 ∧ u.chans = [] ∧ u.rtps = [] ∧
      u.tps = [] ∧ u.rxcs = [] ∧ u.txcs = [] ∧ u.groups = [] ∧ u.fsc = Fsc.reset ∧ u.vpes = [] ∧ ∀ n, takeable u n = false)) ∧
    (∀ t, alive s = true → Answers (.thermalSample t) s (fun u => u = { s with figs := u.figs, avl := { s.avl with
      tempDeciC := t, thermTrip := s.avl.thermTrip || decide (1300 ≤ t) } }))

/-- R479, R490, R492, R496: start-up. It stops in RECOVERY where no Control Image passes, in DRAM_FAIL where step 5 fails and in
MEDIA_HALT where no Media Image passes; otherwise the running slots are those of the boot record and every retained register
holds its committed value. READY takes the start-up events with it; in RECOVERY a passing image goes to slot A and start-up
runs again. The model's own choices in it are log entries 37, 38 and 88. -/
def Obligations.StartUpReachesItsStages : Prop :=
  ∀ (s : State) (env : BootEnv),
    (s.avl.stage = 0 → s.avl.porHeld = false → s.avl.power = 0 →
      (cimStatus s 0 ≠ St.ok → cimStatus s 1 ≠ St.ok → s.avl.bootCim ≤ 1 → s.avl.fallbackFlag = false →
        exec (.startUp env) s = .next { s with avl := { s.avl with stage := 9 }, hif := { s.hif with cfgOpen := true } }) ∧
      (s.avl.fallbackFlag = false → cimStatus s s.avl.bootCim = St.ok → s.avl.factoryReq = false →
        ((bringUpDram env s).1 = false → Answers (.startUp env) s (fun u => u.avl.stage = 10 ∧ u.hif.cfgOpen = true ∧
          u.regs = s.endp.committed.regs ∧ u.endp.committed = s.endp.committed ∧ u.chans = s.chans)) ∧
        ((bringUpDram env s).1 = true → s.avl.knownGood = none → mimStatus s s.avl.bootCim s.avl.bootMim ≠ St.ok →
          Answers (.startUp env) s (fun u => u.avl.stage = 8 ∧ u.hif.cfgOpen = true ∧ u.regs = s.endp.committed.regs ∧
            u.code = s.code)) ∧
        ((bringUpDram env s).1 = true → mimStatus s s.avl.bootCim s.avl.bootMim = St.ok →
          Answers (.startUp env) s (fun u => u.avl.stage = 6 ∧ u.avl.cimSlot = s.avl.bootCim ∧ u.avl.mimSlot = s.avl.bootMim ∧
            u.avl.fallback = s.avl.fallback ∧ u.avl.spare = (if s.avl.retired.isEmpty then some 16 else none) ∧
            u.dmc.chOk = 15 ∧ u.endp.committed = s.endp.committed ∧
            ((∀ n, n < 8 → linkEnabled { s with regs := s.endp.committed.regs } n = false) →
              u.regs = s.endp.committed.regs))))) ∧
    (∀ t, alive s = true → s.avl.stage = 6 → s.avl.power = 0 → Answers (.startupReady t) s (fun u =>
      u = { advance t s with avl := u.avl, avs := { s.avs with run := true }, sec := u.sec, hif := u.hif, counters := u.counters } ∧
      u.avl = { s.avl with stage := 7, runSince := now (advance t s), rotateAt := now (advance t s), atReady := [], wakeInfo := none } ∧
      u.sec = { s.sec with backoff := u.sec.backoff, revoked := u.sec.revoked })) ∧
    (∀ img, alive s = true → s.avl.stage = 9 →
      (∀ e, checkCim s img = .error e → exec (.recoveryLoad img) s =
        .next { s with avl := { s.avl with recovResult := recovCode e.1 } }) ∧
      (∀ i, checkCim s img = .ok i → exec (.recoveryLoad img) s =
        .next { s with avl := { s.avl with recovResult := 1, cimA := some i, stage := 0 } }))

/-- R497, R498, R500, R505, R506, R508, R515: images in service. IMG_WRITE never touches a running slot or the boot record; its
end leaves the image in the slot, or leaves the slot empty; the accept record and the behaviour lock are written; an
activation that passes its checks begins, and one that fails says which check. A rolling update goes from cluster to
cluster, or is taken back whole; a handover changes the Control Image and nothing else. The model's own choices in it are
log entries 44, 45, 48 and 58. -/
def Obligations.ImagesAndUpdates : Prop :=
  ∀ (h : CmdHdr) (s : State),
    let s1 := take h.ring s
    let w : CmdSpec := ⟨0x0601, 3, fun _ => true, true, false⟩
    let act := plainCmd 0x0602 3
    (∀ k, Ready w h s → imgWriteStatus s1 k = St.ok → s.hif.longOps.length < 256 →
      let u := withAvl (fun a => { a with imgWriting := a.imgWriting ++ [(s.hif.nextOpId, k, blk h)] })
        (putSpareSlot k none (begun 0x0601 (blk h).length h s))
      exec (.imgWrite h k) s = .next (accepted w h s u) ∧ slotCim u s.avl.cimSlot = slotCim s s.avl.cimSlot ∧
        slotMim u s.avl.mimSlot = slotMim s s.avl.mimSlot) ∧
    (∀ i k b rest, serving s = true → s.avl.imgWriting = (i, k, b) :: rest →
      (∀ img, checkImage s.sec k b = .ok img → rules12 s img = St.ok → Answers (.imgWriteDone true) s (fun u =>
        AvlOnly s u ∧ longOp? u i = none ∧ u.avl.imgWriting = rest ∧ u.avl.bootCim = s.avl.bootCim ∧
        u.avl.bootMim = s.avl.bootMim ∧ (k = 1 → slotCim u (1 - s.avl.cimSlot) = some img) ∧
        (k ≠ 1 → slotMim u (1 - s.avl.mimSlot) = some img))) ∧
      (∀ e ok, checkImage s.sec k b = .error e → Answers (.imgWriteDone ok) s (fun u =>
        AvlOnly s u ∧ longOp? u i = none ∧ u.avl.bootCim = s.avl.bootCim ∧ u.avl.bootMim = s.avl.bootMim ∧
        (k = 1 → slotCim u (1 - s.avl.cimSlot) = none) ∧ (k ≠ 1 → slotMim u (1 - s.avl.mimSlot) = none)))) ∧
    (∀ c m, Ready (plainCmd 0x0603 3) h s → s.endp.degraded = false → Answers (.imgAcceptUntested h c m) s (fun u =>
      AvlOnly s u ∧ u.avl = { s.avl with acceptUntested := some (c, m) })) ∧
    (Ready (plainCmd 0x0604 1) h s →
      exec (.imgStatus h) s = .next (finish (plainCmd 0x0604 1) h s St.ok (imgStatus s1) s1)) ∧
    (Ready (plainCmd 0x0605 3) h s → lockSetStatus s1 = St.ok → Answers (.behaviourLockSet h) s (fun u =>
      AvlOnly s u ∧ u.avl = { s.avl with behaviourLock := true })) ∧
    (Ready (plainCmd 0x0605 3) h s → s.endp.degraded = false → Answers (.behaviourLockClear h) s (fun u =>
      AvlOnly s u ∧ u.avl = { s.avl with behaviourLock := false })) ∧
    (∀ e, Ready act h s → activateMimStatus s1 = e →
      (e.1 ≠ St.ok → exec (.imgActivateMim h) s = .next (finish act h s e.1 (imageDetail e.1 e.2) s1)) ∧
      (e.1 = St.ok → s.hif.longOps.length < 256 → exec (.imgActivateMim h) s =
        .next (accepted act h s (beginRolling s.hif.nextOpId (begun 0x0602 16 h s))))) ∧
    (∀ e, Ready act h s → activateCimStatus s1 = e →
      (e.1 ≠ St.ok → exec (.imgActivateCim h) s = .next (finish act h s e.1 (imageDetail e.1 e.2) s1)) ∧
      (e.1 = St.ok → s.hif.longOps.length < 256 → exec (.imgActivateCim h) s = .next (accepted act h s
        { begun 0x0602 6 h s with avl := { s.avl with handover := some s.hif.nextOpId, standbyReady := false } }))) ∧
    (serving s = true →
      (s.avl.handover = none → exec .standbyReady s = .next { s with avl := { s.avl with standbyReady := true } }) ∧
      (∀ i, s.avl.handover = some i → Answers .cimHandover s (fun u => AvlOnly s u ∧ u.sec = s.sec ∧ longOp? u i = none ∧
        u.avl = { s.avl with handover := none, cimSlot := 1 - s.avl.cimSlot, bootCim := 1 - s.avl.cimSlot, runSince := now s,
                             acceptUntested := u.avl.acceptUntested } ∧
        u.endp.life.imageActivate = s.endp.life.imageActivate + 1)) ∧
      (∀ r c, s.avl.rolling = some r → s.avl.spare = some c → s.avl.migrating = none → r.back = false → c ∉ r.changed →
        (r.changed = [] → Answers (.clusterMimLoaded c false) s (fun u => AvlOnly s u ∧ longOp? u r.opId = none ∧
          u.avl = { s.avl with rolling := none, clusterMim := [] } ∧ u.code = FMap.del s.code r.slot)) ∧
        (r.changed ≠ [] → exec (.clusterMimLoaded c false) s =
          .next { s with avl := { s.avl with rolling := some { r with back := true } } }) ∧
        ((∀ k, k ∈ activeClusters s → k ∈ c :: r.changed) → Answers (.clusterMimLoaded c true) s (fun u => AvlOnly s u ∧
          longOp? u r.opId = none ∧ u.avl.rolling = none ∧ u.avl.mimSlot = r.slot ∧ u.avl.bootMim = r.slot ∧
          u.avl.clusterMim = [] ∧ u.avl.runSince = now s ∧ u.endp.life.imageActivate = s.endp.life.imageActivate + 1)) ∧
        (∀ k, (activeClusters s).find? (fun j => !(c :: r.changed).contains j) = some k →
          Answers (.clusterMimLoaded c true) s (fun u => AvlOnly s u ∧ u.avl.bootMim = s.avl.bootMim ∧
            FMap.get? u.avl.clusterMim c = some r.slot ∧ u.avl.rolling = some { r with changed := c :: r.changed } ∧
            (flowsOf s k ≠ [] → u.avl.migrating = some (k, c)) ∧ (flowsOf s k = [] → u.avl.spare = some k)))) ∧
      (∀ r c, s.avl.rolling = some r → s.avl.spare = some c → s.avl.migrating = none → r.back = true →
        r.changed.filter (· != c) = [] → Answers (.clusterMimLoaded c true) s (fun u => AvlOnly s u ∧
          longOp? u r.opId = none ∧ u.avl.rolling = none ∧ u.avl.bootMim = s.avl.bootMim)) ∧
      (∀ t, s.avl.stage = 7 → s.avl.runSince + fld s .avlCfg 0 22 12 * 60000000000 ≤ now (advance t s) →
        Answers (.knownGoodTimer t) s (fun u => AvlOnly (advance t s) u ∧
          u.avl = { s.avl with knownGood := some (s.avl.cimSlot, s.avl.mimSlot) })))

/-- R501, R502, R503: the spare cluster. CLUSTER_MIGRATE is refused for a cluster that is not active, without a spare and while
one runs, and otherwise begins a migration; a flow at rest moves to the destination with its home, and the source becomes
the spare when none is left; rotation starts a migration when it is due; a self-test keeps the spare or retires it, and
touches no flow. The model's own choices in it are log entries 36, 46 and 47. -/
def Obligations.MigrationAndSelfTest : Prop :=
  ∀ (h : CmdHdr) (s : State),
    let s1 := take h.ring s
    let m := plainCmd 0x0607 2
    let tst := plainCmd 0x0608 2
    (∀ c, Ready m h s →
      (clusterActive s c = false → exec (.clusterMigrate h c) s = .next (finish m h s St.badParam [] s1)) ∧
      (clusterActive s c = true → s.avl.spare = none →
        exec (.clusterMigrate h c) s = .next (finish m h s St.noSpare [] s1)) ∧
      (clusterActive s c = true → s.avl.spare ≠ none → spareBusy s = true →
        exec (.clusterMigrate h c) s = .next (finish m h s St.busy [] s1)) ∧
      (∀ d, clusterActive s c = true → s.avl.spare = some d → spareBusy s = false → s.hif.longOps.length < 256 →
        (flowsOf s c ≠ [] → exec (.clusterMigrate h c) s = .next (accepted m h s { begun 0x0607 (flowsOf s c).length h s with
          avl := { s.avl with migrating := some (c, d), migrateOp := some s.hif.nextOpId } })) ∧
        (flowsOf s c = [] → Answers (.clusterMigrate h c) s (fun u => u.avl = { s.avl with spare := some c, migrateOp := none } ∧
          u.fsc = s.fsc)))) ∧
    (∀ f src dst fl, serving s = true → s.avl.migrating = some (src, dst) → flow? s f = some fl → fl.cluster = src →
      (flowAtRest fl = false → exec (.flowMigrate f) s = .next s) ∧
      (flowAtRest fl = true → Answers (.flowMigrate f) s (fun u =>
        u = { s with fsc := u.fsc, avl := u.avl, hif := u.hif, counters := u.counters } ∧
        (∀ g, g ≠ f → flow? u g = flow? s g) ∧
        (∃ g, flow? u f = some g ∧ g = { fl with cluster := dst, homeVpe := 16 * dst + fl.homeVpe % 16, insts := g.insts }) ∧
        (flowsOf u src = [] → u.avl.migrating = none ∧ u.avl.spare = some src) ∧
        (flowsOf u src ≠ [] → u.avl = s.avl)))) ∧
    (∀ t c, serving s = true → s.avl.stage = 7 → rotationDue (advance t s) = true → nextRotated (advance t s) = some c →
      Answers (.rotationTimer t) s (fun u => u = { advance t s with avl := u.avl } ∧ u.avl.rotateAt = now (advance t s) ∧
        (flowsOf s c ≠ [] → u.avl.migrating = some (c, s.avl.spare.getD 16) ∧ u.avl.spare = s.avl.spare) ∧
        (flowsOf s c = [] → u.avl.migrating = none ∧ u.avl.spare = some c ∧ u.avl.selfTesting = some none))) ∧
    (Ready tst h s → selfTestStatus s1 = St.ok → s.hif.longOps.length < 256 →
      exec (.selfTest h) s = .next (accepted tst h s { begun 0x0608 1 h s with
        avl := { s.avl with selfTesting := some (some s.hif.nextOpId) } })) ∧
    (∀ op c, serving s = true → s.avl.selfTesting = some op → s.avl.spare = some c →
      (Answers (.selfTestDone none) s (fun u => u = { s with avl := u.avl, hif := u.hif, counters := u.counters } ∧
        u.avl = { s.avl with selfTesting := none, lastTested := c, nextTest := s.avl.nextTest.filter (· != c) } ∧
        ∀ i, op = some i → longOp? u i = none)) ∧
      (∀ f, Answers (.selfTestDone (some f)) s (fun u => AvlOnly s u ∧ u.code = s.code ∧
        u.avl = { s.avl with selfTesting := none, lastTested := c, nextTest := s.avl.nextTest.filter (· != c),
                             retired := insNat c s.avl.retired, spare := none } ∧
        u.endp.life.clusterRetire = s.endp.life.clusterRetire + 1 ∧ ∀ i, op = some i → longOp? u i = none)))

/-! ### The twin link and the voltage loop -/

/-- R498, R510, R511, R512, R513, R514: the twin link. PAIR sets enable and commits it, UNPAIR clears it and the link is DOWN,
TAKEOVER turns a MIRROR whose link is SYNCED into the ACTIVE, COPY_CONFIG commits the twin's configuration; the link takes
the state and reason that training and the peer's credentials give, and the role is decided when it reaches SYNCING; a
checkpoint is applied whole or not at all; an unplanned takeover resumes with the guards of R514. The model's own choices in
it are log entries 50, 51, 52 and 53. -/
def Obligations.TwinLink : Prop :=
  (∀ (h : CmdHdr) (s : State),
    let s1 := take h.ring s
    let c := plainCmd 0x0609 3
    Ready c h s →
      (s.endp.degraded = false → Answers (.twinPair h) s (fun u => flag u .twinCfg 0 0 = true ∧
        u.endp.epoch = s.endp.epoch + 1 ∧ u.twin = s.twin ∧ u.endp.committed = { s.endp.committed with
          regs := FMap.set s.endp.committed.regs (regOff .twinCfg 0) (committedAt s (regOff .twinCfg 0) ||| 1) })) ∧
      (s.endp.degraded = true → exec (.twinPair h) s = .next (finish c h s St.endpaperFail [] s1)) ∧
      Answers (.twinUnpair h) s (fun u => flag u .twinCfg 0 0 = false ∧ u.endp = s.endp ∧
        u.twin = { s.twin with link := 0, reason := 0, role := 0, lostAt := none }) ∧
      (s.twin.role = 1 → s.twin.link = 3 → Answers (.twinTakeover h) s (fun u => u.twin = { s.twin with role := 0 } ∧
        u = { s with twin := u.twin, tpio := u.tpio, hif := u.hif, sec := u.sec, counters := u.counters })) ∧
      (s.twin.role ≠ 1 ∨ s.twin.link ≠ 3 → exec (.twinTakeover h) s = .next (finish c h s St.twinState [] s1)) ∧
      (∀ g, s.twin.role = 1 → 1 ≤ s.twin.link → s.endp.degraded = false → Answers (.twinCopyConfig h g) s (fun u =>
        u = { s with endp := u.endp, free := u.free, hif := u.hif, sec := u.sec, counters := u.counters } ∧
        u.endp.epoch = s.endp.epoch + 1 ∧ u.endp.committed = g)) ∧
      (∀ g, s.twin.role ≠ 1 → exec (.twinCopyConfig h g) s = .next (finish c h s St.twinState [] s1))) ∧
  ∀ (s : State) (t : Nat), serving s = true →
    (∀ lanes beat peer synced, flag s .twinCfg 0 0 = true → Answers (.twinLinkState lanes beat peer synced t) s (fun u =>
      let o := linkOutcome lanes peer synced
      u.twin.link = o.1 ∧ u.twin.reason = o.2 ∧ u.twin.alive = beat ∧ u.endp = s.endp ∧ u.chans = s.chans ∧
      u.twin.role = (if s.twin.link < 2 ∧ 2 ≤ o.1 then roleFor s peer else s.twin.role) ∧
      (s.twin.link = 3 → o.1 < 3 → (notice? u Ev.twinLink 0).isSome = true))) ∧
    (s.twin.role = 0 → s.twin.link = 3 → devOf s t % 10000000 = 0 → exec (.twinCheckpoint t) s =
      .next { advance t s with twin := { s.twin with sent := some t } }) ∧
    (∀ b d, s.twin.role = 1 → s.twin.link = 3 →
      (t ≤ b + 20000000 → exec (.twinCheckpointApply b false d t) s = .next (advance t s)) ∧
      Answers (.twinCheckpointApply b true d t) s (fun u => u.twin = { s.twin with applied := some b } ∧ u.rtps = d.rtps ∧
        u.tps = d.tps ∧ u.rxcs = d.rxcs ∧ u.txcs = d.txcs ∧ u.groups = d.groups ∧ FMap.keys u.chans = FMap.keys d.chans ∧
        FMap.keys u.fsc.flows = FMap.keys d.fsc.flows ∧ u.regs = s.regs ∧ u.avl = s.avl ∧ u.endp = s.endp ∧ u.sec = s.sec ∧
        (b + 20000000 < t → (notice? u Ev.twinLink 0).isSome = true))) ∧
    (takeoverDue (advance t s) t = true → Answers (.twinAutoTakeover t) s (fun u => u.twin = { s.twin with role := 0 } ∧
      (∀ n x, FMap.get? s.tps n = some x → FMap.get? u.tps n = some { x with seq := x.seq + 256 }) ∧
      (∀ n c, FMap.get? u.txcs n = some c → c.waiting = [] ∧ c.active = none) ∧
      (∀ n c, FMap.get? u.chans n = some c → c.segFirst = true) ∧
      (∀ n x, s.rtps = [(n, x)] → ∃ y, u.rtps = [(n, y)] ∧ y.txSeq = x.txSeq + 64) ∧
      (∀ n e, epdEntry? s n = some e → epdEntry? u n = some { e with dlFcnt := guardedFcnt e.dlFcnt (dlGuard s) }) ∧
      u.regs = s.regs ∧ u.endp = s.endp ∧ u.sec = s.sec))

/-- R26, R526, R550: the voltage loop. An upward request goes 10 mV up from the voltage last acknowledged and never past
AVS_VMAX: one that would is not sent, and the outstanding PACE_WARNING records that the limit was reached; while the slack is low
no downward request is made; a downward one is never below AVS_VMIN and waits for 110 °C
and an AVS_FAULT that is not acknowledged; a transaction that is not acknowledged is retried after 100 µs, and a second
failure counts and raises AVS_FAULT. The model's own choice in it is log entry 54. -/
def Obligations.VoltageLoop : Prop :=
  ∀ (s : State) (t : Nat),
    (alive s = true → s.avs.run = true → s.avs.request = none → ∀ temp,
      let s1 := advance t s
      (∀ v, upRequest s1 t = some v → v = max (avsBase s + 10) (avsMinMv s) ∧ v ≤ avsMaxMv s ∧ slackLow s = true ∧
        exec (.avsStep t temp true) s = .next { s1 with avs :=
          { s.avs with lastUp := some t, voutMv := v, request := none, retryAt := none } } ∧
        exec (.avsStep t temp false) s = .next { s1 with avs :=
          { s.avs with lastUp := some t, request := some v, retryAt := some (t + 100000) } }) ∧
      (∀ ok, upDue s1 t = none → slackLow s = true → exec (.avsStep t temp ok) s = .next s1) ∧
      (∀ ok v, upDue s1 t = some v → avsMaxMv s < v → Answers (.avsStep t temp ok) s (fun u =>
        u = { s1 with hif := { s.hif with notices := u.hif.notices } } ∧
        ∀ c n d, notice? s Ev.paceWarning c = some n → FMap.get? s.fsc.slack c = some d → d < (paceThrNs s : Int) →
          notice? u Ev.paceWarning c = some { n with reason := 1 })) ∧
      (∀ v, slackLow s = false → downRequest s1 temp t = some v → v = max (min (avsBase s - 5) (avsMaxMv s)) (avsMinMv s) ∧
        temp ≤ 1100 ∧ notice? s Ev.avsFault 0 = none ∧
        exec (.avsStep t temp true) s = .next { s1 with avs :=
          { s.avs with lastDown := some t, voutMv := v, request := none, retryAt := none } } ∧
        exec (.avsStep t temp false) s = .next { s1 with avs :=
          { s.avs with lastDown := some t, request := some v, retryAt := some (t + 100000) } }) ∧
      (∀ ok, slackLow s = false → downRequest s1 temp t = none → exec (.avsStep t temp ok) s = .next s1)) ∧
    (∀ a v, alive s = true → s.avs.retryAt = some a → a ≤ t → s.avs.request = some v →
      exec (.avsRetry t true) s = .next { advance t s with avs := { s.avs with request := none, retryAt := none, voutMv := v } } ∧
      Answers (.avsRetry t false) s (fun u => u = { advance t s with hif := u.hif, counters := u.counters, avs :=
          { s.avs with request := none, retryAt := none } } ∧ counter u .avsFault 0 = counter s .avsFault 0 + 1 ∧
        (notice? u Ev.avsFault 0).isSome = true))

/-! ### Commands, steps and reset -/

namespace Sys2Proof.Machine

/-- What the tables of R404, R428, R471 and R498 give each command of a CMD ring: its opcode, privilege, block and, for a set-up of
another chapter, that a MIRROR or a device without media refuses it (R492, R511); with it the header it came with. -/
def cmdRow : Instr → Option (CmdSpec × CmdHdr)
  | .chanSetup h => some (blockCmd 0x0101 2 64 true, h)
  | .chanModify h => some (blockCmd 0x0102 2 64 true, h)
  | .chanRelease h _ => some (plainCmd 0x0103 2, h)
  | .rtpSetup h => some (blockCmd 0x0111 2 128 true, h)
  | .rtpModify h => some (blockCmd 0x0112 2 128 true, h)
  | .rtpRelease h _ => some (plainCmd 0x0113 2, h)
  | .srtpKey h => some (blockCmd 0x0114 2 64, h)
  | .tpSetup h => some (blockCmd 0x0121 2 128 true, h)
  | .tpModify h => some (blockCmd 0x0122 2 128 true, h)
  | .tpRelease h _ => some (plainCmd 0x0123 2, h)
  | .tpKey h _ _ _ => some (plainCmd 0x0124 2, h)
  | .tpCommand h _ _ => some (plainCmd 0x0125 2, h)
  | .tpTest h _ _ _ _ => some (plainCmd 0x0126 2, h)
  | .rxcSetup h => some (blockCmd 0x0131 2 64 true, h)
  | .rxcModify h => some (blockCmd 0x0132 2 64 true, h)
  | .rxcRelease h _ => some (plainCmd 0x0133 2, h)
  | .rlSpi h _ _ _ _ _ => some (plainCmd 0x0134 2, h)
  | .rlGainTable h => some (⟨0x0135, 2, fun n => n == 8 + 8 * byteAt (blk h) 1, true, false⟩, h)
  | .rlGainSet h _ _ _ => some (plainCmd 0x0136 2, h)
  | .rlRealign h _ => some (plainCmd 0x0137 2, h)
  | .rlCapture h _ _ _ _ => some (plainCmd 0x0138 2, h)
  | .txcSetup h => some (blockCmd 0x0141 2 64 true, h)
  | .txcModify h => some (blockCmd 0x0142 2 64 true, h)
  | .txcRelease h _ => some (plainCmd 0x0143 2, h)
  | .pttGroupSetup h => some (blockCmd 0x0144 2 32 true, h)
  | .pttGroupRelease h _ => some (plainCmd 0x0145 2, h)
  | .flowSetup h => some (blockCmd 0x0151 2 256 true, h)
  | .flowRelease h _ => some (plainCmd 0x0152 2, h)
  | .opSubmit h _ _ => some (plainCmd 0x0153 2, h)
  | .opCancel h _ _ _ => some (plainCmd 0x0154 2, h)
  | .queueSetup h => some (blockCmd 0x0161 2 32 true, h)
  | .queueModify h => some (blockCmd 0x0162 2 32 true, h)
  | .queueRelease h _ => some (plainCmd 0x0163 2, h)
  | .queueFlush h _ => some (plainCmd 0x0164 2, h)
  | .queueQuery h _ => some (plainCmd 0x0165 1, h)
  | .qmgSweep h => some (plainCmd 0x0166 2, h)
  | .bceJob h _ => some (blockCmd 0x0171 2 64, h)
  | .bceAbort h _ => some (plainCmd 0x0172 2, h)
  | .recFlush h => some (plainCmd 0x0173 2, h)
  | .tdmCasSet h _ _ _ => some (plainCmd 0x0181 2, h)
  | .gateListSet h => some (⟨0x0191, 2, fun l => 32 ≤ l && l = 32 + 8 * fieldAt (blk h) 1 6 0, true, false⟩, h)
  | .wakePatternSet h => some (blockCmd 0x0192 2 160, h)
  | .tbuTimeSet h _ => some (plainCmd 0x0193 2, h)
  | .noticeAck h _ _ _ => some (plainCmd 0x01A1 2, h)
  | .sessionOpen h _ => some (plainCmd 0x0401 0, h)
  | .sessionProve h => some (blockCmd 0x0402 0 64, h)
  | .sessionClose h => some (plainCmd 0x0403 4, h)
  | .idKeys h => some (blockCmd 0x0404 0 12288, h)
  | .attest h _ => some (blockCmd 0x0405 1 4096, h)
  | .ownerEnrol h => some (blockCmd 0x0410 5 144, h)
  | .keySet h => some (blockCmd 0x0411 3 64, h)
  | .setupUnlock h => some (plainCmd 0x0412 3, h)
  | .setupLock h => some (plainCmd 0x0413 3, h)
  | .userKernelsLoad h => some (⟨0x0420, 3, fun _ => true, true, false⟩, h)
  | .userKernelsClear h => some (plainCmd 0x0421 3, h)
  | .epdPut h => some (blockCmd 0x0501 2 128, h)
  | .epdDelete h _ => some (plainCmd 0x0502 2, h)
  | .epdGet h _ => some (blockCmd 0x0503 1 128, h)
  | .epdLoad h n => some (⟨0x0504, 2, (· == 128 * n), true, false⟩, h)
  | .epdExport h n => some (⟨0x0505, 2, (· == 128 * n), true, false⟩, h)
  | .epdRebuild h => some (plainCmd 0x0506 2, h)
  | .epdClear h => some (plainCmd 0x0507 3, h)
  | .memScrub h _ => some (plainCmd 0x0511 2, h)
  | .commit h => some (plainCmd 0x0521 3, h)
  | .revert h => some (plainCmd 0x0522 3, h)
  | .standbyEnter h => some (plainCmd 0x0531 3, h)
  | .shutdown h => some (plainCmd 0x0532 3, h)
  | .imgWrite h _ => some (⟨0x0601, 3, fun _ => true, true, false⟩, h)
  | .imgActivateMim h => some (plainCmd 0x0602 3, h)
  | .imgActivateCim h => some (plainCmd 0x0602 3, h)
  | .imgAcceptUntested h _ _ => some (plainCmd 0x0603 3, h)
  | .imgStatus h => some (plainCmd 0x0604 1, h)
  | .behaviourLockSet h => some (plainCmd 0x0605 3, h)
  | .behaviourLockClear h => some (plainCmd 0x0605 3, h)
  | .resetSoft h => some (plainCmd 0x0606 3, h)
  | .resetDomain h _ _ => some (plainCmd 0x0606 3, h)
  | .resetImage h => some (plainCmd 0x0606 3, h)
  | .clusterMigrate h _ => some (plainCmd 0x0607 2, h)
  | .selfTest h => some (plainCmd 0x0608 2, h)
  | .twinPair h => some (plainCmd 0x0609 3, h)
  | .twinUnpair h => some (plainCmd 0x0609 3, h)
  | .twinTakeover h => some (plainCmd 0x0609 3, h)
  | .twinCopyConfig h _ => some (plainCmd 0x0609 3, h)
  | _ => none

end Sys2Proof.Machine

/-- R402, R403, R404, R405: how every command of a CMD ring is taken and checked. One that cannot be taken stays where it is (log
entry 7); checks 1, 3 and 4 come in their order, and the first that fails ends the command with its status and no effect but that
of being taken. The completion then stands in the CPL ring at the ring's index, and the CMD ring has moved on by one. -/
def Obligations.CommandsAreTakenAndChecked : Prop :=
  ∀ (i : Instr) (c : CmdSpec) (h : CmdHdr) (s : State), cmdRow i = some (c, h) →
    (takeable s h.ring = false → exec i s = .next s) ∧
    (takeable s h.ring = true → preStatus c h s ≠ St.ok →
      exec i s = .next (finish c h s (preStatus c h s) [] (take h.ring s)) ∧
      ∀ r q, ring? s h.ring = some r → ring? s r.ctx.cplRing = some q → r.ctx.cplRing ≠ h.ring → q.dmaFail = false →
        FMap.get? s.sec.sessions h.ring = none → Answers i s (fun t =>
          ring? t h.ring = some { r with devIdx := r.devIdx + 1 } ∧ ∃ p, ring? t r.ctx.cplRing = some p ∧ p.devIdx = q.devIdx + 1 ∧
          FMap.get? p.written (q.pos q.devIdx) = some (setPhase (phaseBit q.ctx.log2 q.devIdx)
            (completionEntry c.opcode (preStatus c h s) h.tag r.devIdx [])))) ∧
    (c.priv ≠ 0 → c.priv ≠ 5 → privOf s h.ring = none → preStatus c h s = St.noSession) ∧
    (∀ p, privOf s h.ring = some p → 1 ≤ c.priv → c.priv ≤ 3 → p < c.priv → preStatus c h s = St.denied) ∧
    (∀ p, privOf s h.ring = some p → (c.priv ≤ 3 → c.priv ≤ p) →
      (h.clean = false ∨ c.lenOk h.blockLen = false ∨ (c.block = true ∧ h.block = none) → preStatus c h s = St.badDesc) ∧
      (h.clean = true → c.lenOk h.blockLen = true → (c.block = true → h.block ≠ none) →
        (c.setup = false → preStatus c h s = St.ok) ∧
        (c.setup = true → s.twin.role = 1 → preStatus c h s = St.twinState) ∧
        (c.setup = true → s.twin.role ≠ 1 → s.avl.stage = 8 ∨ s.avl.stage = 10 → preStatus c h s = St.noCapacity)))

/-- The block takes the command at the front of its queue and runs it with the queue's rest; on an empty queue it idles, which is
the model's choice (log entry 8). -/
def Obligations.StepRunsTheFrontOfTheQueue : Prop :=
  ∀ (s : State), (∀ c rest, s.pending = c :: rest → step s = exec c { s with pending := rest }) ∧
    (s.pending = [] → step s = .next s)

/-- R24, R27, R36, R259, R424, R427, R485: what reset leaves, as far as the spec gives it: nothing set up, device time from 0,
the bring-up window, and the defaults of the voltage limits, the pace thresholds, the patiences and HIF_SUBSYS; the queue of
commands is empty. The model's own choices in it are log entries 2 and 6. -/
def Obligations.StateAfterReset : Prop :=
  State.reset.pending = [] ∧ devTime State.reset = 0 ∧ State.reset.clk.tick = 0 ∧ State.reset.clk.tbuState = 0 ∧
  State.reset.hif.rings = [] ∧ State.reset.hif.notices = [] ∧ State.reset.hif.longOps = [] ∧ State.reset.sec.sessions = [] ∧
  State.reset.sec.unlock = none ∧ State.reset.sec.enrolled = false ∧ (∀ n, privOf State.reset n = some 3) ∧
  State.reset.chans = [] ∧ State.reset.rtps = [] ∧ State.reset.tps = [] ∧ State.reset.rxcs = [] ∧ State.reset.txcs = [] ∧
  State.reset.groups = [] ∧ State.reset.fsc.flows = [] ∧ State.reset.qmg.queues = [] ∧ State.reset.epd.entries = [] ∧
  State.reset.counters = [] ∧ State.reset.hif.subsys = 0x96401F4C ∧ State.reset.sec.identity = Config.deviceIdentity ∧
  avsMinMv State.reset = 720 ∧ avsMaxMv State.reset = 850 ∧ fld State.reset .fscPace 0 7 0 = 16 ∧
  fld State.reset .fscPace 0 15 8 = 32 ∧ vpePatNs State.reset 0 = 1000 ∧ vpePatNs State.reset 1 = 40000 ∧
  vpePatNs State.reset 2 = 100000 ∧ vpePatNs State.reset 3 = 1000000 ∧ clPatNs State.reset 0 = 2000 ∧
  clPatNs State.reset 1 = 150000 ∧ clPatNs State.reset 2 = 400000 ∧ clPatNs State.reset 3 = 5000000 ∧
  ageNs State.reset 2 = some 2000000 ∧ ageNs State.reset 3 = some 20000000

/-- Every step drops exactly the command at the front of the queue, stops on nothing, and never changes the identity that the
fuses hold (R387, R449): no command of any chapter, no reset and no timer does. The model's own choice in it is log entry 8.
-/
def Obligations.EveryStepKeepsQueueAndIdentity : Prop :=
  ∀ (s : State), ∃ t, step s = .next t ∧ t.pending = s.pending.drop 1 ∧ t.sec.identity = s.sec.identity
end

