-- ==== Sys2Proof/Laws/Frames.lean ====
section
/-! SUPPORT. The reach of the shared operations: counters, entries, events, notices, sessions, long operations and
completions change the host interface, the sessions and the counters, and nothing else. -/

namespace Sys2Proof.Machine

open Sys2Proof

/-! ### The relation -/

theorem HostOnly.refl (s : State) : HostOnly s s := rfl

theorem HostOnly.trans {s t u : State} (h : HostOnly s t) (k : HostOnly t u) : HostOnly s u := by
  unfold HostOnly at *
  rw [h] at k
  exact k

/-- A state whose other fields agree is reached by the host interface, the sessions and the counters alone. -/
theorem HostOnly.of (s : State) (h : Hif) (x : Sec) (c : List (CtrKey × BitVec 64)) :
    HostOnly s { s with hif := h, sec := x, counters := c } := rfl

theorem HostOnly.ite {s t u : State} {c : Prop} [Decidable c] (h : HostOnly s t) (k : HostOnly s u) :
    HostOnly s (if c then t else u) := by
  split <;> assumption

theorem HostOnly.foldl {α : Type} {f : State → α → State} (hf : ∀ t a, HostOnly t (f t a)) (l : List α) (s : State) :
    HostOnly s (l.foldl f s) := by
  induction l generalizing s with
  | nil => exact .refl s
  | cons a r ih => exact (hf s a).trans (ih _)

/-! ### Counters, rings and entries -/

theorem bumpN_hostOnly (c : Ctr) (o u n : Nat) (s : State) : HostOnly s (bumpN c o u n s) := by
  unfold bumpN
  exact .ite (.refl s) rfl

theorem bump_hostOnly (c : Ctr) (o : Nat) (s : State) : HostOnly s (bump c o s) := bumpN_hostOnly ..

theorem bumpSub_hostOnly (c : Ctr) (o u : Nat) (s : State) : HostOnly s (bumpSub c o u s) := bumpN_hostOnly ..

theorem dropCounters_hostOnly (cs : List Ctr) (o : Nat) (s : State) : HostOnly s (dropCounters cs o s) := rfl

theorem dropMisses_hostOnly (f : Nat) (s : State) : HostOnly s (dropMisses f s) := rfl

theorem withRing_hostOnly (n : Nat) (f : Ring → Ring) (s : State) : HostOnly s (withRing n f s) := rfl

theorem msixCount_hostOnly (v : Nat) (s : State) : HostOnly s (msixCount v s) := rfl

theorem msixRing_hostOnly (r : Ring) (s : State) : HostOnly s (msixRing r s) := by
  unfold msixRing
  exact .ite (msixCount_hostOnly ..) (.refl s)

theorem writeEntry_hostOnly (n : Nat) (d : Bytes) (s : State) : HostOnly s (writeEntry n d s) := by
  unfold writeEntry
  split
  · exact .refl s
  · exact (withRing_hostOnly ..).trans (msixRing_hostOnly ..)

theorem putEntry_hostOnly (n : Nat) (d : Bytes) (s : State) : HostOnly s (putEntry n d s) := by
  unfold putEntry
  split
  · exact .refl s
  · exact .ite (withRing_hostOnly ..) (writeEntry_hostOnly ..)

/-! ### Events and notices -/

theorem raiseAt_hostOnly (n code : Nat) (q : Bool) (t : BitVec 64) (b : Bytes) (s : State) :
    HostOnly s (raiseAt n code q t b s) := by
  unfold raiseAt
  split
  · exact .refl s
  · apply HostOnly.ite
    · exact (withRing_hostOnly ..).trans (bump_hostOnly ..)
    · exact .ite ((withRing_hostOnly ..).trans (writeEntry_hostOnly ..))
        ((withRing_hostOnly ..).trans (withRing_hostOnly ..))

theorem raiseNowhere_hostOnly (code : Nat) (q k : Bool) (b : Bytes) (s : State) :
    HostOnly s (raiseNowhere code q k b s) := by
  unfold raiseNowhere
  exact .ite rfl (bump_hostOnly ..)

theorem raise_hostOnly (code : Nat) (r : Option Nat) (b : Bytes) (s : State) : HostOnly s (raise code r b s) := by
  unfold raise
  split
  · exact raiseAt_hostOnly ..
  · exact raiseNowhere_hostOnly ..

theorem raiseStart_hostOnly (code : Nat) (b : Bytes) (s : State) : HostOnly s (raiseStart code b s) := by
  unfold raiseStart
  split
  · exact raiseAt_hostOnly ..
  · exact raiseNowhere_hostOnly ..

theorem flushGlobal_hostOnly (s : State) : HostOnly s (flushGlobal s) := by
  unfold flushGlobal
  split
  · exact .refl s
  · exact HostOnly.trans (t := { s with hif := { s.hif with waitGlobal := [] } }) rfl
      (.foldl (fun t e => raiseAt_hostOnly ..) _ _)

theorem withNotices_hostOnly (f : List Notice → List Notice) (s : State) : HostOnly s (withNotices f s) := rfl

theorem noticeLive_hostOnly (c o : Nat) (m : Bool) (v : Option Int) (l : Bool) (s : State) :
    HostOnly s (noticeLive c o m v l s) := rfl

theorem crossing_hostOnly (c o : Nat) (m : Bool) (e : Nat) (v : Int) (b : Bytes) (r : Option Nat) (l : Bool) (s : State) :
    HostOnly s (crossing c o m e v b r l s) := by
  unfold crossing
  split
  · rfl
  · dsimp only
    split
    · exact (withNotices_hostOnly ..).trans (raiseAt_hostOnly ..)
    · exact (withNotices_hostOnly ..).trans (raiseNowhere_hostOnly ..)

theorem crossed_hostOnly (c o e : Nat) (v : Int) (r : Option Nat) (l : Bool) (s : State) :
    HostOnly s (crossed c o e v r l s) := crossing_hostOnly ..

/-! ### Sessions -/

theorem lockChange_hostOnly (l : Bool) (c r e : Nat) (s : State) : HostOnly s (lockChange l c r e s) :=
  raise_hostOnly ..

theorem relock_hostOnly (r c : Nat) (s : State) : HostOnly s (relock r c s) := by
  unfold relock
  split
  · exact .ite (HostOnly.trans (t := { s with sec := { s.sec with unlock := none } }) rfl (lockChange_hostOnly ..)) (.refl s)
  · exact .refl s

theorem endSession_hostOnly (r c : Nat) (s : State) : HostOnly s (endSession r c s) := by
  unfold endSession
  split
  · exact .refl s
  · exact HostOnly.trans (t := { s with sec := { s.sec with sessions := FMap.del s.sec.sessions r } }) rfl
      ((raise_hostOnly ..).trans (relock_hostOnly ..))

theorem countOut_hostOnly (n : Nat) (s : State) : HostOnly s (countOut n s) := by
  unfold countOut
  split
  · exact .ite (endSession_hostOnly ..) (.refl s)
  · exact .refl s

/-! ### Long operations and commands -/

theorem withLong_hostOnly (i : Nat) (f : LongOp → LongOp) (s : State) : HostOnly s (withLong i f s) := rfl

theorem beginLong_hostOnly {o r n i : Nat} {g : BitVec 32} {s t : State} (h : beginLong o g r n s = some (i, t)) :
    HostOnly s t := by
  unfold beginLong at h
  split at h
  · cases h
  · cases h; rfl

theorem raiseProgress_hostOnly (i : Nat) (s : State) : HostOnly s (raiseProgress i s) := by
  unfold raiseProgress
  split
  · exact .refl s
  · exact (withLong_hostOnly ..).trans (raise_hostOnly ..)

theorem progress_hostOnly (i p : Nat) (s : State) : HostOnly s (progress i p s) := by
  unfold progress
  dsimp only
  split
  · exact withLong_hostOnly ..
  · exact .ite ((withLong_hostOnly ..).trans (raiseProgress_hostOnly ..)) (withLong_hostOnly ..)

theorem endLong_hostOnly (i c : Nat) (b : Bytes) (s : State) : HostOnly s (endLong i c b s) := by
  unfold endLong
  split
  · exact .refl s
  · next o _ =>
    have h : HostOnly s { s with hif := { s.hif with longOps := s.hif.longOps.filter (fun p => p.opId != i) } } := rfl
    dsimp only
    split
    · exact h.trans (raise_hostOnly ..)
    · exact (h.trans (raise_hostOnly ..)).trans (raise_hostOnly ..)

theorem take_hostOnly (n : Nat) (s : State) : HostOnly s (take n s) := rfl

theorem hold_hostOnly (n : Nat) (h : Held) (s : State) : HostOnly s (hold n h s) := rfl

theorem complete_hostOnly (n o : Nat) (g i : BitVec 32) (c : Nat) (b : Bytes) (s : State) :
    HostOnly s (complete n o g i c b s) := by
  unfold complete
  split
  · exact .ite (putEntry_hostOnly ..) (.refl s)
  · exact .refl s

theorem completeHeld_hostOnly (n : Nat) (h : Held) (c : Nat) (b : Bytes) (s : State) :
    HostOnly s (completeHeld n h c b s) :=
  (withRing_hostOnly ..).trans (putEntry_hostOnly ..)

theorem finish_hostOnly (c : CmdSpec) (h : CmdHdr) (s : State) (st : Nat) (b : Bytes) (u : State) :
    HostOnly u (finish c h s st b u) :=
  (complete_hostOnly ..).trans (countOut_hostOnly ..)

theorem waits_hostOnly (c : CmdSpec) (h : CmdHdr) (s u : State) : HostOnly u (waits c h s u) :=
  (hold_hostOnly ..).trans (countOut_hostOnly ..)

/-! ### What runCmd can do -/

/-- A command that cannot be taken changes nothing. -/
theorem runCmd_idle {c : CmdSpec} {h : CmdHdr} {own : State → CmdRes} {s : State} (ht : takeable s h.ring = false) :
    runCmd c h own s = s := by
  simp [runCmd, ht]

/-- A check of R405 that fails ends the command with its status and nothing else. -/
theorem runCmd_turned {c : CmdSpec} {h : CmdHdr} {own : State → CmdRes} {s : State} (ht : takeable s h.ring = true)
    (hp : preStatus c h s ≠ St.ok) :
    runCmd c h own s = finish c h s (preStatus c h s) [] (take h.ring s) := by
  simp [runCmd, ht, hp, finish]

/-- A command whose own part completes. -/
theorem runCmd_done {c : CmdSpec} {h : CmdHdr} {own : State → CmdRes} {s u : State} {st : Nat} {b : Bytes}
    (hr : Ready c h s) (ho : own (take h.ring s) = .done st b u) : runCmd c h own s = finish c h s st b u := by
  simp [runCmd, hr.1, hr.2, ho, finish]

/-- A command whose own part completes and then goes on. -/
theorem runCmd_doneThen {c : CmdSpec} {h : CmdHdr} {own : State → CmdRes} {s u : State} {st : Nat} {b : Bytes}
    {post : State → State} (hr : Ready c h s) (ho : own (take h.ring s) = .doneThen st b u post) :
    runCmd c h own s = post (finish c h s st b u) := by
  simp [runCmd, hr.1, hr.2, ho, finish]

/-- A command whose own part waits. -/
theorem runCmd_wait {c : CmdSpec} {h : CmdHdr} {own : State → CmdRes} {s u : State} (hr : Ready c h s)
    (ho : own (take h.ring s) = .wait u) : runCmd c h own s = waits c h s u := by
  simp [runCmd, hr.1, hr.2, ho, waits]

end Sys2Proof.Machine
end

