-- ==== Sys2Proof/Laws/Kept.lean ====
section
/-! SUPPORT. What no command changes: the queue's rest and the fused identity. The shared operations keep both, and so does a
command of a CMD ring whose own part does. -/

namespace Sys2Proof.Machine

open Sys2Proof

/-- The queue and the fused identity are the same. -/
def Keeps (s t : State) : Prop := t.pending = s.pending ∧ t.sec.identity = s.sec.identity

theorem Keeps.refl (s : State) : Keeps s s := ⟨rfl, rfl⟩

theorem Keeps.trans {s t u : State} (h : Keeps s t) (k : Keeps t u) : Keeps s u := ⟨k.1.trans h.1, k.2.trans h.2⟩

theorem Keeps.ite {s t u : State} {c : Prop} [Decidable c] (h : Keeps s t) (k : Keeps s u) : Keeps s (if c then t else u) := by
  split <;> assumption

theorem Keeps.onlyIf {s t u : State} {c : Bool} (h : Keeps s t) (k : Keeps s u) : Keeps s (onlyIf c t u) := .ite h k

theorem Keeps.foldl {α : Type} {f : State → α → State} (hf : ∀ t a, Keeps t (f t a)) (l : List α) (s : State) :
    Keeps s (l.foldl f s) := by
  induction l generalizing s with
  | nil => exact .refl s
  | cons a r ih => exact (hf s a).trans (ih _)

/-- An operation that reaches only the host interface, the sessions and the counters keeps both where it keeps the
identity. -/
theorem HostOnly.keeps {s t : State} (h : HostOnly s t) (k : t.sec.identity = s.sec.identity) : Keeps s t :=
  ⟨by rw [h], k⟩

theorem bumpN_keeps (c : Ctr) (o u n : Nat) (s : State) : Keeps s (bumpN c o u n s) := by
  unfold bumpN
  exact .ite (.refl s) ⟨rfl, rfl⟩

theorem bump_keeps (c : Ctr) (o : Nat) (s : State) : Keeps s (bump c o s) := bumpN_keeps ..

theorem msixRing_keeps (r : Ring) (s : State) : Keeps s (msixRing r s) := by
  unfold msixRing
  exact .ite ⟨rfl, rfl⟩ (.refl s)

theorem writeEntry_keeps (n : Nat) (d : Bytes) (s : State) : Keeps s (writeEntry n d s) := by
  unfold writeEntry
  split
  · exact .refl s
  · exact Keeps.trans ⟨rfl, rfl⟩ (msixRing_keeps ..)

theorem putEntry_keeps (n : Nat) (d : Bytes) (s : State) : Keeps s (putEntry n d s) := by
  unfold putEntry
  split
  · exact .refl s
  · exact .ite ⟨rfl, rfl⟩ (writeEntry_keeps ..)

theorem raiseAt_keeps (n code : Nat) (q : Bool) (t : BitVec 64) (b : Bytes) (s : State) : Keeps s (raiseAt n code q t b s) := by
  unfold raiseAt
  split
  · exact .refl s
  · exact .ite (Keeps.trans (t := withRing n _ s) ⟨rfl, rfl⟩ (bump_keeps ..))
      (.ite (Keeps.trans (t := withRing n _ s) ⟨rfl, rfl⟩ (writeEntry_keeps ..)) ⟨rfl, rfl⟩)

theorem raiseNowhere_keeps (code : Nat) (q k : Bool) (b : Bytes) (s : State) : Keeps s (raiseNowhere code q k b s) := by
  unfold raiseNowhere
  exact .ite ⟨rfl, rfl⟩ (bump_keeps ..)

theorem raise_keeps (code : Nat) (r : Option Nat) (b : Bytes) (s : State) : Keeps s (raise code r b s) := by
  unfold raise
  split
  · exact raiseAt_keeps ..
  · exact raiseNowhere_keeps ..

theorem raiseStart_keeps (code : Nat) (b : Bytes) (s : State) : Keeps s (raiseStart code b s) := by
  unfold raiseStart
  split
  · exact raiseAt_keeps ..
  · exact raiseNowhere_keeps ..

theorem flushGlobal_keeps (s : State) : Keeps s (flushGlobal s) := by
  unfold flushGlobal
  split
  · exact .refl s
  · exact Keeps.trans (t := { s with hif := { s.hif with waitGlobal := [] } }) ⟨rfl, rfl⟩
      (.foldl (fun t e => raiseAt_keeps ..) _ _)

theorem crossing_keeps (c o : Nat) (m : Bool) (e : Nat) (v : Int) (b : Bytes) (r : Option Nat) (l : Bool) (s : State) :
    Keeps s (crossing c o m e v b r l s) := by
  unfold crossing
  split
  · exact ⟨rfl, rfl⟩
  · dsimp only
    split
    · exact Keeps.trans (t := withNotices _ s) ⟨rfl, rfl⟩ (raiseAt_keeps ..)
    · exact Keeps.trans (t := withNotices _ s) ⟨rfl, rfl⟩ (raiseNowhere_keeps ..)

theorem crossed_keeps (c o e : Nat) (v : Int) (r : Option Nat) (l : Bool) (s : State) : Keeps s (crossed c o e v r l s) :=
  crossing_keeps ..

theorem noticeLive_keeps (c o : Nat) (m : Bool) (v : Option Int) (l : Bool) (s : State) : Keeps s (noticeLive c o m v l s) :=
  ⟨rfl, rfl⟩

theorem relock_keeps (r c : Nat) (s : State) : Keeps s (relock r c s) := by
  unfold relock
  split
  · exact .ite (Keeps.trans (t := { s with sec := { s.sec with unlock := none } }) ⟨rfl, rfl⟩ (raise_keeps ..)) (.refl s)
  · exact .refl s

theorem endSession_keeps (r c : Nat) (s : State) : Keeps s (endSession r c s) := by
  unfold endSession
  split
  · exact .refl s
  · exact Keeps.trans (t := { s with sec := { s.sec with sessions := FMap.del s.sec.sessions r } }) ⟨rfl, rfl⟩
      ((raise_keeps ..).trans (relock_keeps ..))

theorem countOut_keeps (n : Nat) (s : State) : Keeps s (countOut n s) := by
  unfold countOut
  split
  · exact .ite (endSession_keeps ..) (.refl s)
  · exact .refl s

theorem raiseProgress_keeps (i : Nat) (s : State) : Keeps s (raiseProgress i s) := by
  unfold raiseProgress
  split
  · exact .refl s
  · exact Keeps.trans (t := withLong i _ s) ⟨rfl, rfl⟩ (raise_keeps ..)

theorem progress_keeps (i p : Nat) (s : State) : Keeps s (progress i p s) := by
  unfold progress
  dsimp only
  split
  · exact ⟨rfl, rfl⟩
  · exact .ite (Keeps.trans (t := withLong i _ s) ⟨rfl, rfl⟩ (raiseProgress_keeps ..)) ⟨rfl, rfl⟩

theorem endLong_keeps (i c : Nat) (b : Bytes) (s : State) : Keeps s (endLong i c b s) := by
  unfold endLong
  split
  · exact .refl s
  · next o _ =>
    have h : Keeps s { s with hif := { s.hif with longOps := s.hif.longOps.filter (fun p => p.opId != i) } } := ⟨rfl, rfl⟩
    dsimp only
    split
    · exact h.trans (raise_keeps ..)
    · exact (h.trans (raise_keeps ..)).trans (raise_keeps ..)

theorem take_keeps (n : Nat) (s : State) : Keeps s (take n s) := ⟨rfl, rfl⟩

theorem complete_keeps (n o : Nat) (g i : BitVec 32) (c : Nat) (b : Bytes) (s : State) : Keeps s (complete n o g i c b s) := by
  unfold complete
  split
  · exact .ite (putEntry_keeps ..) (.refl s)
  · exact .refl s

theorem completeHeld_keeps (n : Nat) (h : Held) (c : Nat) (b : Bytes) (s : State) : Keeps s (completeHeld n h c b s) :=
  Keeps.trans (t := withRing n _ s) ⟨rfl, rfl⟩ (putEntry_keeps ..)

theorem finish_keeps (c : CmdSpec) (h : CmdHdr) (s : State) (st : Nat) (b : Bytes) (u : State) :
    Keeps u (finish c h s st b u) := (complete_keeps ..).trans (countOut_keeps ..)

theorem waits_keeps (c : CmdSpec) (h : CmdHdr) (s u : State) : Keeps u (waits c h s u) :=
  Keeps.trans (t := hold h.ring (heldOf c.opcode h (take h.ring s)) u) ⟨rfl, rfl⟩ (countOut_keeps ..)

/-- What a command's own part has to keep. -/
def CmdRes.Keeps (s : State) : CmdRes → Prop
  | .done _ _ u => Machine.Keeps s u
  | .doneThen _ _ u post => Machine.Keeps s u ∧ ∀ v, Machine.Keeps v (post v)
  | .wait u => Machine.Keeps s u

theorem runCmd_keeps (c : CmdSpec) (h : CmdHdr) {own : State → CmdRes} (s : State) (ho : ∀ t, (own t).Keeps t) :
    Keeps s (runCmd c h own s) := by
  cases ht : takeable s h.ring with
  | false => rw [runCmd_idle ht]; exact .refl s
  | true =>
    by_cases hp : preStatus c h s = St.ok
    · have k := ho (take h.ring s)
      cases e : own (take h.ring s) with
      | done st b u =>
        rw [runCmd_done ⟨ht, hp⟩ e]
        rw [e] at k
        exact ((take_keeps ..).trans k).trans (finish_keeps ..)
      | doneThen st b u post =>
        rw [runCmd_doneThen ⟨ht, hp⟩ e]
        rw [e] at k
        exact (((take_keeps ..).trans k.1).trans (finish_keeps ..)).trans (k.2 _)
      | wait u =>
        rw [runCmd_wait ⟨ht, hp⟩ e]
        rw [e] at k
        exact ((take_keeps ..).trans k).trans (waits_keeps ..)
    · rw [runCmd_turned ht hp]
      exact (take_keeps ..).trans (finish_keeps ..)

end Sys2Proof.Machine
end

