-- ==== Sys2Proof/Laws/Maps.lean ====
section
/-! SUPPORT. Laws of keyed collections: reading after writing, changing and removing, and the canonical form. -/

namespace Sys2Proof

variable {α : Type}

@[simp] theorem FMap.get?_nil (k : Nat) : FMap.get? ([] : FMap α) k = none := rfl

theorem FMap.get?_cons (j : Nat) (v : α) (r : FMap α) (k : Nat) :
    FMap.get? ((j, v) :: r : FMap α) k = if j = k then some v else FMap.get? r k := rfl

/-- A write is read back. -/
@[simp] theorem FMap.get?_set_same (m : FMap α) (k : Nat) (v : α) : FMap.get? (FMap.set m k v) k = some v := by
  induction m with
  | nil => simp [FMap.set, FMap.get?]
  | cons e r ih =>
    obtain ⟨j, w⟩ := e
    simp only [FMap.set]
    split
    · simp [FMap.get?]
    · split
      · simp [FMap.get?]
      · next h => simp [FMap.get?, ih, Ne.symm h]

/-- A write leaves every other key alone. -/
theorem FMap.get?_set_other (m : FMap α) (k j : Nat) (v : α) (h : j ≠ k) :
    FMap.get? (FMap.set m k v) j = FMap.get? m j := by
  induction m with
  | nil => simp [FMap.set, FMap.get?, Ne.symm h]
  | cons e r ih =>
    obtain ⟨i, w⟩ := e
    simp only [FMap.set]
    split
    · simp [FMap.get?, Ne.symm h]
    · split
      · next hk => subst hk; simp [FMap.get?, Ne.symm h]
      · simp only [FMap.get?, ih]

/-- Both laws of a write in one. -/
theorem FMap.get?_set (m : FMap α) (k j : Nat) (v : α) :
    FMap.get? (FMap.set m k v) j = if j = k then some v else FMap.get? m j := by
  split
  · next h => subst h; simp
  · next h => exact FMap.get?_set_other m k j v h

/-- A change reaches its key, where it is held. -/
@[simp] theorem FMap.get?_adj_same (m : FMap α) (k : Nat) (f : α → α) :
    FMap.get? (FMap.adj m k f) k = (FMap.get? m k).map f := by
  unfold FMap.adj
  cases h : FMap.get? m k <;> simp [h]

/-- A change leaves every other key alone. -/
theorem FMap.get?_adj_other (m : FMap α) (k j : Nat) (f : α → α) (h : j ≠ k) :
    FMap.get? (FMap.adj m k f) j = FMap.get? m j := by
  unfold FMap.adj
  cases hk : FMap.get? m k with
  | none => simp
  | some v => exact FMap.get?_set_other m k j _ h

/-- A removed key is not held. -/
@[simp] theorem FMap.get?_del_same (m : FMap α) (k : Nat) : FMap.get? (FMap.del m k) k = none := by
  induction m with
  | nil => rfl
  | cons e r ih =>
    obtain ⟨j, w⟩ := e
    by_cases h : j = k
    · subst h
      simpa [FMap.del] using ih
    · have : FMap.del ((j, w) :: r : FMap α) k = ((j, w) :: FMap.del r k : FMap α) := by simp [FMap.del, h]
      rw [this, FMap.get?_cons, if_neg h, ih]

/-- Removing a key leaves every other key alone. -/
theorem FMap.get?_del_other (m : FMap α) (k j : Nat) (h : j ≠ k) : FMap.get? (FMap.del m k) j = FMap.get? m j := by
  induction m with
  | nil => rfl
  | cons e r ih =>
    obtain ⟨i, w⟩ := e
    by_cases hi : i = k
    · subst hi
      have : FMap.del ((i, w) :: r : FMap α) i = FMap.del r i := by simp [FMap.del]
      rw [this, ih, FMap.get?_cons, if_neg (Ne.symm h)]
    · have : FMap.del ((i, w) :: r : FMap α) k = ((i, w) :: FMap.del r k : FMap α) := by simp [FMap.del, hi]
      rw [this, FMap.get?_cons, FMap.get?_cons, ih]

theorem FMap.has_iff (m : FMap α) (k : Nat) : FMap.has m k = true ↔ ∃ v, FMap.get? m k = some v := by
  simp [FMap.has, Option.isSome_iff_exists]

/-! ### The canonical form -/

/-- Every key lies above a bound. -/
def FMap.above (m : FMap α) (b : Nat) : Prop := ∀ e ∈ m, b < e.1

theorem FMap.wf_cons (j : Nat) (v : α) (r : FMap α) :
    FMap.wf ((j, v) :: r : FMap α) = true ↔ FMap.above r j ∧ FMap.wf r = true := by
  induction r generalizing j v with
  | nil => simp [FMap.wf, FMap.above]
  | cons e q ih =>
    obtain ⟨k, w⟩ := e
    have h := ih k w
    constructor
    · intro hw
      simp only [FMap.wf, Bool.and_eq_true, decide_eq_true_eq] at hw
      refine ⟨?_, by simpa [FMap.wf] using hw.2⟩
      have h2 := (h.mp (by simpa [FMap.wf] using hw.2)).1
      intro x hx
      rcases List.mem_cons.mp hx with rfl | hx
      · exact hw.1
      · exact Nat.lt_trans hw.1 (h2 x hx)
    · rintro ⟨ha, hw⟩
      have h1 : j < k := ha (k, w) (by simp)
      show (decide (j < k) && FMap.wf ((k, w) :: q : FMap α)) = true
      simp [h1, hw]

theorem FMap.mem_set (m : FMap α) (k : Nat) (v : α) (e : Nat × α) (h : e ∈ FMap.set m k v) : e = (k, v) ∨ e ∈ m := by
  induction m with
  | nil => simpa [FMap.set] using h
  | cons d r ih =>
    obtain ⟨j, w⟩ := d
    simp only [FMap.set] at h
    split at h
    · rcases List.mem_cons.mp h with h | h
      · exact .inl h
      · exact .inr h
    · split at h
      · rcases List.mem_cons.mp h with h | h
        · exact .inl h
        · exact .inr (List.mem_cons_of_mem _ h)
      · rcases List.mem_cons.mp h with h | h
        · exact .inr (by simp [h])
        · rcases ih h with h | h
          · exact .inl h
          · exact .inr (List.mem_cons_of_mem _ h)

/-- A write keeps the canonical form. -/
theorem FMap.wf_set (m : FMap α) (k : Nat) (v : α) (h : FMap.wf m = true) : FMap.wf (FMap.set m k v) = true := by
  induction m with
  | nil => rfl
  | cons d r ih =>
    obtain ⟨j, w⟩ := d
    have hd := (FMap.wf_cons j w r).mp h
    simp only [FMap.set]
    split
    · next hlt =>
      refine (FMap.wf_cons k v _).mpr ⟨?_, h⟩
      intro e he
      rcases List.mem_cons.mp he with rfl | he
      · exact hlt
      · exact Nat.lt_trans hlt (hd.1 e he)
    · split
      · next hk => subst hk; exact (FMap.wf_cons k v r).mpr hd
      · next h1 h2 =>
        refine (FMap.wf_cons j w _).mpr ⟨?_, ih hd.2⟩
        intro e he
        rcases FMap.mem_set r k v e he with rfl | he
        · simp only; omega
        · exact hd.1 e he

/-- Filtering keeps the canonical form. -/
theorem FMap.wf_filter (m : FMap α) (p : Nat × α → Bool) (h : FMap.wf m = true) :
    FMap.wf (List.filter p m : FMap α) = true := by
  induction m with
  | nil => rfl
  | cons d r ih =>
    obtain ⟨j, w⟩ := d
    have hd := (FMap.wf_cons j w r).mp h
    by_cases hp : p (j, w)
    · rw [List.filter_cons_of_pos hp]
      refine (FMap.wf_cons j w _).mpr ⟨?_, ih hd.2⟩
      intro e he
      exact hd.1 e (List.mem_filter.mp he).1
    · rw [List.filter_cons_of_neg hp]
      exact ih hd.2

/-- Removing keeps the canonical form. -/
theorem FMap.wf_del (m : FMap α) (k : Nat) (h : FMap.wf m = true) : FMap.wf (FMap.del m k) = true :=
  FMap.wf_filter m _ h

/-- Changing a value keeps the canonical form. -/
theorem FMap.wf_adj (m : FMap α) (k : Nat) (f : α → α) (h : FMap.wf m = true) : FMap.wf (FMap.adj m k f) = true := by
  unfold FMap.adj
  split
  · exact h
  · exact FMap.wf_set m k _ h

end Sys2Proof
end

