-- ==== Sys2Proof/Laws/State.lean ====
section
/-! SUPPORT. What each update of the state does to each field, so that no proof unfolds a record update: one lemma
per field and update, true by computation. -/

namespace Sys2Proof.Machine

open Sys2Proof

variable (s : State)

/-! `advance` -/
@[simp] theorem advance_pending (t : Ns) : (advance t s).pending = s.pending := rfl
@[simp] theorem advance_free (t : Ns) : (advance t s).free = s.free := rfl
@[simp] theorem advance_regs (t : Ns) : (advance t s).regs = s.regs := rfl
@[simp] theorem advance_hif (t : Ns) : (advance t s).hif = s.hif := rfl
@[simp] theorem advance_sec (t : Ns) : (advance t s).sec = s.sec := rfl
@[simp] theorem advance_avl (t : Ns) : (advance t s).avl = s.avl := rfl
@[simp] theorem advance_twin (t : Ns) : (advance t s).twin = s.twin := rfl
@[simp] theorem advance_avs (t : Ns) : (advance t s).avs = s.avs := rfl
@[simp] theorem advance_chans (t : Ns) : (advance t s).chans = s.chans := rfl
@[simp] theorem advance_rtps (t : Ns) : (advance t s).rtps = s.rtps := rfl
@[simp] theorem advance_tps (t : Ns) : (advance t s).tps = s.tps := rfl
@[simp] theorem advance_tpio (t : Ns) : (advance t s).tpio = s.tpio := rfl
@[simp] theorem advance_links (t : Ns) : (advance t s).links = s.links := rfl
@[simp] theorem advance_rxcs (t : Ns) : (advance t s).rxcs = s.rxcs := rfl
@[simp] theorem advance_txcs (t : Ns) : (advance t s).txcs = s.txcs := rfl
@[simp] theorem advance_groups (t : Ns) : (advance t s).groups = s.groups := rfl
@[simp] theorem advance_vpes (t : Ns) : (advance t s).vpes = s.vpes := rfl
@[simp] theorem advance_code (t : Ns) : (advance t s).code = s.code := rfl
@[simp] theorem advance_fsc (t : Ns) : (advance t s).fsc = s.fsc := rfl
@[simp] theorem advance_qmg (t : Ns) : (advance t s).qmg = s.qmg := rfl
@[simp] theorem advance_bce (t : Ns) : (advance t s).bce = s.bce := rfl
@[simp] theorem advance_tdm (t : Ns) : (advance t s).tdm = s.tdm := rfl
@[simp] theorem advance_eth (t : Ns) : (advance t s).eth = s.eth := rfl
@[simp] theorem advance_prp (t : Ns) : (advance t s).prp = s.prp := rfl
@[simp] theorem advance_epd (t : Ns) : (advance t s).epd = s.epd := rfl
@[simp] theorem advance_dmc (t : Ns) : (advance t s).dmc = s.dmc := rfl
@[simp] theorem advance_endp (t : Ns) : (advance t s).endp = s.endp := rfl
@[simp] theorem advance_counters (t : Ns) : (advance t s).counters = s.counters := rfl
@[simp] theorem advance_figs (t : Ns) : (advance t s).figs = s.figs := rfl
@[simp] theorem advance_clk_localNs (t : Ns) : (advance t s).clk.localNs = max s.clk.localNs t := rfl
@[simp] theorem advance_clk_offset (t : Ns) : (advance t s).clk.offset = s.clk.offset := rfl
@[simp] theorem advance_clk_tick (t : Ns) : (advance t s).clk.tick = s.clk.tick := rfl
@[simp] theorem advance_clk_slewLeft (t : Ns) : (advance t s).clk.slewLeft = s.clk.slewLeft := rfl
@[simp] theorem advance_clk_tbuState (t : Ns) : (advance t s).clk.tbuState = s.clk.tbuState := rfl

/-! `withClk` -/
@[simp] theorem withClk_pending (f : Clock → Clock) : (withClk f s).pending = s.pending := rfl
@[simp] theorem withClk_free (f : Clock → Clock) : (withClk f s).free = s.free := rfl
@[simp] theorem withClk_regs (f : Clock → Clock) : (withClk f s).regs = s.regs := rfl
@[simp] theorem withClk_hif (f : Clock → Clock) : (withClk f s).hif = s.hif := rfl
@[simp] theorem withClk_sec (f : Clock → Clock) : (withClk f s).sec = s.sec := rfl
@[simp] theorem withClk_avl (f : Clock → Clock) : (withClk f s).avl = s.avl := rfl
@[simp] theorem withClk_twin (f : Clock → Clock) : (withClk f s).twin = s.twin := rfl
@[simp] theorem withClk_avs (f : Clock → Clock) : (withClk f s).avs = s.avs := rfl
@[simp] theorem withClk_chans (f : Clock → Clock) : (withClk f s).chans = s.chans := rfl
@[simp] theorem withClk_rtps (f : Clock → Clock) : (withClk f s).rtps = s.rtps := rfl
@[simp] theorem withClk_tps (f : Clock → Clock) : (withClk f s).tps = s.tps := rfl
@[simp] theorem withClk_tpio (f : Clock → Clock) : (withClk f s).tpio = s.tpio := rfl
@[simp] theorem withClk_links (f : Clock → Clock) : (withClk f s).links = s.links := rfl
@[simp] theorem withClk_rxcs (f : Clock → Clock) : (withClk f s).rxcs = s.rxcs := rfl
@[simp] theorem withClk_txcs (f : Clock → Clock) : (withClk f s).txcs = s.txcs := rfl
@[simp] theorem withClk_groups (f : Clock → Clock) : (withClk f s).groups = s.groups := rfl
@[simp] theorem withClk_vpes (f : Clock → Clock) : (withClk f s).vpes = s.vpes := rfl
@[simp] theorem withClk_code (f : Clock → Clock) : (withClk f s).code = s.code := rfl
@[simp] theorem withClk_fsc (f : Clock → Clock) : (withClk f s).fsc = s.fsc := rfl
@[simp] theorem withClk_qmg (f : Clock → Clock) : (withClk f s).qmg = s.qmg := rfl
@[simp] theorem withClk_bce (f : Clock → Clock) : (withClk f s).bce = s.bce := rfl
@[simp] theorem withClk_tdm (f : Clock → Clock) : (withClk f s).tdm = s.tdm := rfl
@[simp] theorem withClk_eth (f : Clock → Clock) : (withClk f s).eth = s.eth := rfl
@[simp] theorem withClk_prp (f : Clock → Clock) : (withClk f s).prp = s.prp := rfl
@[simp] theorem withClk_epd (f : Clock → Clock) : (withClk f s).epd = s.epd := rfl
@[simp] theorem withClk_dmc (f : Clock → Clock) : (withClk f s).dmc = s.dmc := rfl
@[simp] theorem withClk_endp (f : Clock → Clock) : (withClk f s).endp = s.endp := rfl
@[simp] theorem withClk_counters (f : Clock → Clock) : (withClk f s).counters = s.counters := rfl
@[simp] theorem withClk_figs (f : Clock → Clock) : (withClk f s).figs = s.figs := rfl
@[simp] theorem withClk_clk (f : Clock → Clock) : (withClk f s).clk = f s.clk := rfl

/-! `setReg` -/
@[simp] theorem setReg_pending (r : RegName) (i : Nat) (v : BitVec 32) : (setReg s r i v).pending = s.pending := rfl
@[simp] theorem setReg_free (r : RegName) (i : Nat) (v : BitVec 32) : (setReg s r i v).free = s.free := rfl
@[simp] theorem setReg_clk (r : RegName) (i : Nat) (v : BitVec 32) : (setReg s r i v).clk = s.clk := rfl
@[simp] theorem setReg_hif (r : RegName) (i : Nat) (v : BitVec 32) : (setReg s r i v).hif = s.hif := rfl
@[simp] theorem setReg_sec (r : RegName) (i : Nat) (v : BitVec 32) : (setReg s r i v).sec = s.sec := rfl
@[simp] theorem setReg_avl (r : RegName) (i : Nat) (v : BitVec 32) : (setReg s r i v).avl = s.avl := rfl
@[simp] theorem setReg_twin (r : RegName) (i : Nat) (v : BitVec 32) : (setReg s r i v).twin = s.twin := rfl
@[simp] theorem setReg_avs (r : RegName) (i : Nat) (v : BitVec 32) : (setReg s r i v).avs = s.avs := rfl
@[simp] theorem setReg_chans (r : RegName) (i : Nat) (v : BitVec 32) : (setReg s r i v).chans = s.chans := rfl
@[simp] theorem setReg_rtps (r : RegName) (i : Nat) (v : BitVec 32) : (setReg s r i v).rtps = s.rtps := rfl
@[simp] theorem setReg_tps (r : RegName) (i : Nat) (v : BitVec 32) : (setReg s r i v).tps = s.tps := rfl
@[simp] theorem setReg_tpio (r : RegName) (i : Nat) (v : BitVec 32) : (setReg s r i v).tpio = s.tpio := rfl
@[simp] theorem setReg_links (r : RegName) (i : Nat) (v : BitVec 32) : (setReg s r i v).links = s.links := rfl
@[simp] theorem setReg_rxcs (r : RegName) (i : Nat) (v : BitVec 32) : (setReg s r i v).rxcs = s.rxcs := rfl
@[simp] theorem setReg_txcs (r : RegName) (i : Nat) (v : BitVec 32) : (setReg s r i v).txcs = s.txcs := rfl
@[simp] theorem setReg_groups (r : RegName) (i : Nat) (v : BitVec 32) : (setReg s r i v).groups = s.groups := rfl
@[simp] theorem setReg_vpes (r : RegName) (i : Nat) (v : BitVec 32) : (setReg s r i v).vpes = s.vpes := rfl
@[simp] theorem setReg_code (r : RegName) (i : Nat) (v : BitVec 32) : (setReg s r i v).code = s.code := rfl
@[simp] theorem setReg_fsc (r : RegName) (i : Nat) (v : BitVec 32) : (setReg s r i v).fsc = s.fsc := rfl
@[simp] theorem setReg_qmg (r : RegName) (i : Nat) (v : BitVec 32) : (setReg s r i v).qmg = s.qmg := rfl
@[simp] theorem setReg_bce (r : RegName) (i : Nat) (v : BitVec 32) : (setReg s r i v).bce = s.bce := rfl
@[simp] theorem setReg_tdm (r : RegName) (i : Nat) (v : BitVec 32) : (setReg s r i v).tdm = s.tdm := rfl
@[simp] theorem setReg_eth (r : RegName) (i : Nat) (v : BitVec 32) : (setReg s r i v).eth = s.eth := rfl
@[simp] theorem setReg_prp (r : RegName) (i : Nat) (v : BitVec 32) : (setReg s r i v).prp = s.prp := rfl
@[simp] theorem setReg_epd (r : RegName) (i : Nat) (v : BitVec 32) : (setReg s r i v).epd = s.epd := rfl
@[simp] theorem setReg_dmc (r : RegName) (i : Nat) (v : BitVec 32) : (setReg s r i v).dmc = s.dmc := rfl
@[simp] theorem setReg_endp (r : RegName) (i : Nat) (v : BitVec 32) : (setReg s r i v).endp = s.endp := rfl
@[simp] theorem setReg_counters (r : RegName) (i : Nat) (v : BitVec 32) : (setReg s r i v).counters = s.counters := rfl
@[simp] theorem setReg_figs (r : RegName) (i : Nat) (v : BitVec 32) : (setReg s r i v).figs = s.figs := rfl
@[simp] theorem setReg_regs (r : RegName) (i : Nat) (v : BitVec 32) : (setReg s r i v).regs = regPut s.regs r i v := rfl

/-! `putFld` -/
@[simp] theorem putFld_pending (r : RegName) (i hi lo v : Nat) : (putFld s r i hi lo v).pending = s.pending := rfl
@[simp] theorem putFld_free (r : RegName) (i hi lo v : Nat) : (putFld s r i hi lo v).free = s.free := rfl
@[simp] theorem putFld_clk (r : RegName) (i hi lo v : Nat) : (putFld s r i hi lo v).clk = s.clk := rfl
@[simp] theorem putFld_hif (r : RegName) (i hi lo v : Nat) : (putFld s r i hi lo v).hif = s.hif := rfl
@[simp] theorem putFld_sec (r : RegName) (i hi lo v : Nat) : (putFld s r i hi lo v).sec = s.sec := rfl
@[simp] theorem putFld_avl (r : RegName) (i hi lo v : Nat) : (putFld s r i hi lo v).avl = s.avl := rfl
@[simp] theorem putFld_twin (r : RegName) (i hi lo v : Nat) : (putFld s r i hi lo v).twin = s.twin := rfl
@[simp] theorem putFld_avs (r : RegName) (i hi lo v : Nat) : (putFld s r i hi lo v).avs = s.avs := rfl
@[simp] theorem putFld_chans (r : RegName) (i hi lo v : Nat) : (putFld s r i hi lo v).chans = s.chans := rfl
@[simp] theorem putFld_rtps (r : RegName) (i hi lo v : Nat) : (putFld s r i hi lo v).rtps = s.rtps := rfl
@[simp] theorem putFld_tps (r : RegName) (i hi lo v : Nat) : (putFld s r i hi lo v).tps = s.tps := rfl
@[simp] theorem putFld_tpio (r : RegName) (i hi lo v : Nat) : (putFld s r i hi lo v).tpio = s.tpio := rfl
@[simp] theorem putFld_links (r : RegName) (i hi lo v : Nat) : (putFld s r i hi lo v).links = s.links := rfl
@[simp] theorem putFld_rxcs (r : RegName) (i hi lo v : Nat) : (putFld s r i hi lo v).rxcs = s.rxcs := rfl
@[simp] theorem putFld_txcs (r : RegName) (i hi lo v : Nat) : (putFld s r i hi lo v).txcs = s.txcs := rfl
@[simp] theorem putFld_groups (r : RegName) (i hi lo v : Nat) : (putFld s r i hi lo v).groups = s.groups := rfl
@[simp] theorem putFld_vpes (r : RegName) (i hi lo v : Nat) : (putFld s r i hi lo v).vpes = s.vpes := rfl
@[simp] theorem putFld_code (r : RegName) (i hi lo v : Nat) : (putFld s r i hi lo v).code = s.code := rfl
@[simp] theorem putFld_fsc (r : RegName) (i hi lo v : Nat) : (putFld s r i hi lo v).fsc = s.fsc := rfl
@[simp] theorem putFld_qmg (r : RegName) (i hi lo v : Nat) : (putFld s r i hi lo v).qmg = s.qmg := rfl
@[simp] theorem putFld_bce (r : RegName) (i hi lo v : Nat) : (putFld s r i hi lo v).bce = s.bce := rfl
@[simp] theorem putFld_tdm (r : RegName) (i hi lo v : Nat) : (putFld s r i hi lo v).tdm = s.tdm := rfl
@[simp] theorem putFld_eth (r : RegName) (i hi lo v : Nat) : (putFld s r i hi lo v).eth = s.eth := rfl
@[simp] theorem putFld_prp (r : RegName) (i hi lo v : Nat) : (putFld s r i hi lo v).prp = s.prp := rfl
@[simp] theorem putFld_epd (r : RegName) (i hi lo v : Nat) : (putFld s r i hi lo v).epd = s.epd := rfl
@[simp] theorem putFld_dmc (r : RegName) (i hi lo v : Nat) : (putFld s r i hi lo v).dmc = s.dmc := rfl
@[simp] theorem putFld_endp (r : RegName) (i hi lo v : Nat) : (putFld s r i hi lo v).endp = s.endp := rfl
@[simp] theorem putFld_counters (r : RegName) (i hi lo v : Nat) : (putFld s r i hi lo v).counters = s.counters := rfl
@[simp] theorem putFld_figs (r : RegName) (i hi lo v : Nat) : (putFld s r i hi lo v).figs = s.figs := rfl

/-! `setFlag` -/
@[simp] theorem setFlag_pending (r : RegName) (i b : Nat) : (setFlag s r i b).pending = s.pending := rfl
@[simp] theorem setFlag_free (r : RegName) (i b : Nat) : (setFlag s r i b).free = s.free := rfl
@[simp] theorem setFlag_clk (r : RegName) (i b : Nat) : (setFlag s r i b).clk = s.clk := rfl
@[simp] theorem setFlag_hif (r : RegName) (i b : Nat) : (setFlag s r i b).hif = s.hif := rfl
@[simp] theorem setFlag_sec (r : RegName) (i b : Nat) : (setFlag s r i b).sec = s.sec := rfl
@[simp] theorem setFlag_avl (r : RegName) (i b : Nat) : (setFlag s r i b).avl = s.avl := rfl
@[simp] theorem setFlag_twin (r : RegName) (i b : Nat) : (setFlag s r i b).twin = s.twin := rfl
@[simp] theorem setFlag_avs (r : RegName) (i b : Nat) : (setFlag s r i b).avs = s.avs := rfl
@[simp] theorem setFlag_chans (r : RegName) (i b : Nat) : (setFlag s r i b).chans = s.chans := rfl
@[simp] theorem setFlag_rtps (r : RegName) (i b : Nat) : (setFlag s r i b).rtps = s.rtps := rfl
@[simp] theorem setFlag_tps (r : RegName) (i b : Nat) : (setFlag s r i b).tps = s.tps := rfl
@[simp] theorem setFlag_tpio (r : RegName) (i b : Nat) : (setFlag s r i b).tpio = s.tpio := rfl
@[simp] theorem setFlag_links (r : RegName) (i b : Nat) : (setFlag s r i b).links = s.links := rfl
@[simp] theorem setFlag_rxcs (r : RegName) (i b : Nat) : (setFlag s r i b).rxcs = s.rxcs := rfl
@[simp] theorem setFlag_txcs (r : RegName) (i b : Nat) : (setFlag s r i b).txcs = s.txcs := rfl
@[simp] theorem setFlag_groups (r : RegName) (i b : Nat) : (setFlag s r i b).groups = s.groups := rfl
@[simp] theorem setFlag_vpes (r : RegName) (i b : Nat) : (setFlag s r i b).vpes = s.vpes := rfl
@[simp] theorem setFlag_code (r : RegName) (i b : Nat) : (setFlag s r i b).code = s.code := rfl
@[simp] theorem setFlag_fsc (r : RegName) (i b : Nat) : (setFlag s r i b).fsc = s.fsc := rfl
@[simp] theorem setFlag_qmg (r : RegName) (i b : Nat) : (setFlag s r i b).qmg = s.qmg := rfl
@[simp] theorem setFlag_bce (r : RegName) (i b : Nat) : (setFlag s r i b).bce = s.bce := rfl
@[simp] theorem setFlag_tdm (r : RegName) (i b : Nat) : (setFlag s r i b).tdm = s.tdm := rfl
@[simp] theorem setFlag_eth (r : RegName) (i b : Nat) : (setFlag s r i b).eth = s.eth := rfl
@[simp] theorem setFlag_prp (r : RegName) (i b : Nat) : (setFlag s r i b).prp = s.prp := rfl
@[simp] theorem setFlag_epd (r : RegName) (i b : Nat) : (setFlag s r i b).epd = s.epd := rfl
@[simp] theorem setFlag_dmc (r : RegName) (i b : Nat) : (setFlag s r i b).dmc = s.dmc := rfl
@[simp] theorem setFlag_endp (r : RegName) (i b : Nat) : (setFlag s r i b).endp = s.endp := rfl
@[simp] theorem setFlag_counters (r : RegName) (i b : Nat) : (setFlag s r i b).counters = s.counters := rfl
@[simp] theorem setFlag_figs (r : RegName) (i b : Nat) : (setFlag s r i b).figs = s.figs := rfl

/-! `withRing` -/
@[simp] theorem withRing_pending (n : Nat) (f : Ring → Ring) : (withRing n f s).pending = s.pending := rfl
@[simp] theorem withRing_free (n : Nat) (f : Ring → Ring) : (withRing n f s).free = s.free := rfl
@[simp] theorem withRing_clk (n : Nat) (f : Ring → Ring) : (withRing n f s).clk = s.clk := rfl
@[simp] theorem withRing_regs (n : Nat) (f : Ring → Ring) : (withRing n f s).regs = s.regs := rfl
@[simp] theorem withRing_sec (n : Nat) (f : Ring → Ring) : (withRing n f s).sec = s.sec := rfl
@[simp] theorem withRing_avl (n : Nat) (f : Ring → Ring) : (withRing n f s).avl = s.avl := rfl
@[simp] theorem withRing_twin (n : Nat) (f : Ring → Ring) : (withRing n f s).twin = s.twin := rfl
@[simp] theorem withRing_avs (n : Nat) (f : Ring → Ring) : (withRing n f s).avs = s.avs := rfl
@[simp] theorem withRing_chans (n : Nat) (f : Ring → Ring) : (withRing n f s).chans = s.chans := rfl
@[simp] theorem withRing_rtps (n : Nat) (f : Ring → Ring) : (withRing n f s).rtps = s.rtps := rfl
@[simp] theorem withRing_tps (n : Nat) (f : Ring → Ring) : (withRing n f s).tps = s.tps := rfl
@[simp] theorem withRing_tpio (n : Nat) (f : Ring → Ring) : (withRing n f s).tpio = s.tpio := rfl
@[simp] theorem withRing_links (n : Nat) (f : Ring → Ring) : (withRing n f s).links = s.links := rfl
@[simp] theorem withRing_rxcs (n : Nat) (f : Ring → Ring) : (withRing n f s).rxcs = s.rxcs := rfl
@[simp] theorem withRing_txcs (n : Nat) (f : Ring → Ring) : (withRing n f s).txcs = s.txcs := rfl
@[simp] theorem withRing_groups (n : Nat) (f : Ring → Ring) : (withRing n f s).groups = s.groups := rfl
@[simp] theorem withRing_vpes (n : Nat) (f : Ring → Ring) : (withRing n f s).vpes = s.vpes := rfl
@[simp] theorem withRing_code (n : Nat) (f : Ring → Ring) : (withRing n f s).code = s.code := rfl
@[simp] theorem withRing_fsc (n : Nat) (f : Ring → Ring) : (withRing n f s).fsc = s.fsc := rfl
@[simp] theorem withRing_qmg (n : Nat) (f : Ring → Ring) : (withRing n f s).qmg = s.qmg := rfl
@[simp] theorem withRing_bce (n : Nat) (f : Ring → Ring) : (withRing n f s).bce = s.bce := rfl
@[simp] theorem withRing_tdm (n : Nat) (f : Ring → Ring) : (withRing n f s).tdm = s.tdm := rfl
@[simp] theorem withRing_eth (n : Nat) (f : Ring → Ring) : (withRing n f s).eth = s.eth := rfl
@[simp] theorem withRing_prp (n : Nat) (f : Ring → Ring) : (withRing n f s).prp = s.prp := rfl
@[simp] theorem withRing_epd (n : Nat) (f : Ring → Ring) : (withRing n f s).epd = s.epd := rfl
@[simp] theorem withRing_dmc (n : Nat) (f : Ring → Ring) : (withRing n f s).dmc = s.dmc := rfl
@[simp] theorem withRing_endp (n : Nat) (f : Ring → Ring) : (withRing n f s).endp = s.endp := rfl
@[simp] theorem withRing_counters (n : Nat) (f : Ring → Ring) : (withRing n f s).counters = s.counters := rfl
@[simp] theorem withRing_figs (n : Nat) (f : Ring → Ring) : (withRing n f s).figs = s.figs := rfl
@[simp] theorem withRing_hif_rings (n : Nat) (f : Ring → Ring) : (withRing n f s).hif.rings = FMap.adj s.hif.rings n f := rfl
@[simp] theorem withRing_hif_notices (n : Nat) (f : Ring → Ring) : (withRing n f s).hif.notices = s.hif.notices := rfl
@[simp] theorem withRing_hif_longOps (n : Nat) (f : Ring → Ring) : (withRing n f s).hif.longOps = s.hif.longOps := rfl
@[simp] theorem withRing_hif_nextOpId (n : Nat) (f : Ring → Ring) : (withRing n f s).hif.nextOpId = s.hif.nextOpId := rfl
@[simp] theorem withRing_hif_wrote (n : Nat) (f : Ring → Ring) : (withRing n f s).hif.wrote = s.hif.wrote := rfl

/-! `withNotices` -/
@[simp] theorem withNotices_pending (f : List Notice → List Notice) : (withNotices f s).pending = s.pending := rfl
@[simp] theorem withNotices_free (f : List Notice → List Notice) : (withNotices f s).free = s.free := rfl
@[simp] theorem withNotices_clk (f : List Notice → List Notice) : (withNotices f s).clk = s.clk := rfl
@[simp] theorem withNotices_regs (f : List Notice → List Notice) : (withNotices f s).regs = s.regs := rfl
@[simp] theorem withNotices_sec (f : List Notice → List Notice) : (withNotices f s).sec = s.sec := rfl
@[simp] theorem withNotices_avl (f : List Notice → List Notice) : (withNotices f s).avl = s.avl := rfl
@[simp] theorem withNotices_twin (f : List Notice → List Notice) : (withNotices f s).twin = s.twin := rfl
@[simp] theorem withNotices_avs (f : List Notice → List Notice) : (withNotices f s).avs = s.avs := rfl
@[simp] theorem withNotices_chans (f : List Notice → List Notice) : (withNotices f s).chans = s.chans := rfl
@[simp] theorem withNotices_rtps (f : List Notice → List Notice) : (withNotices f s).rtps = s.rtps := rfl
@[simp] theorem withNotices_tps (f : List Notice → List Notice) : (withNotices f s).tps = s.tps := rfl
@[simp] theorem withNotices_tpio (f : List Notice → List Notice) : (withNotices f s).tpio = s.tpio := rfl
@[simp] theorem withNotices_links (f : List Notice → List Notice) : (withNotices f s).links = s.links := rfl
@[simp] theorem withNotices_rxcs (f : List Notice → List Notice) : (withNotices f s).rxcs = s.rxcs := rfl
@[simp] theorem withNotices_txcs (f : List Notice → List Notice) : (withNotices f s).txcs = s.txcs := rfl
@[simp] theorem withNotices_groups (f : List Notice → List Notice) : (withNotices f s).groups = s.groups := rfl
@[simp] theorem withNotices_vpes (f : List Notice → List Notice) : (withNotices f s).vpes = s.vpes := rfl
@[simp] theorem withNotices_code (f : List Notice → List Notice) : (withNotices f s).code = s.code := rfl
@[simp] theorem withNotices_fsc (f : List Notice → List Notice) : (withNotices f s).fsc = s.fsc := rfl
@[simp] theorem withNotices_qmg (f : List Notice → List Notice) : (withNotices f s).qmg = s.qmg := rfl
@[simp] theorem withNotices_bce (f : List Notice → List Notice) : (withNotices f s).bce = s.bce := rfl
@[simp] theorem withNotices_tdm (f : List Notice → List Notice) : (withNotices f s).tdm = s.tdm := rfl
@[simp] theorem withNotices_eth (f : List Notice → List Notice) : (withNotices f s).eth = s.eth := rfl
@[simp] theorem withNotices_prp (f : List Notice → List Notice) : (withNotices f s).prp = s.prp := rfl
@[simp] theorem withNotices_epd (f : List Notice → List Notice) : (withNotices f s).epd = s.epd := rfl
@[simp] theorem withNotices_dmc (f : List Notice → List Notice) : (withNotices f s).dmc = s.dmc := rfl
@[simp] theorem withNotices_endp (f : List Notice → List Notice) : (withNotices f s).endp = s.endp := rfl
@[simp] theorem withNotices_counters (f : List Notice → List Notice) : (withNotices f s).counters = s.counters := rfl
@[simp] theorem withNotices_figs (f : List Notice → List Notice) : (withNotices f s).figs = s.figs := rfl
@[simp] theorem withNotices_hif_notices (f : List Notice → List Notice) : (withNotices f s).hif.notices = f s.hif.notices := rfl
@[simp] theorem withNotices_hif_rings (f : List Notice → List Notice) : (withNotices f s).hif.rings = s.hif.rings := rfl
@[simp] theorem withNotices_hif_longOps (f : List Notice → List Notice) : (withNotices f s).hif.longOps = s.hif.longOps := rfl
@[simp] theorem withNotices_hif_nextOpId (f : List Notice → List Notice) : (withNotices f s).hif.nextOpId = s.hif.nextOpId := rfl

/-! `withLong` -/
@[simp] theorem withLong_pending (i : Nat) (f : LongOp → LongOp) : (withLong i f s).pending = s.pending := rfl
@[simp] theorem withLong_free (i : Nat) (f : LongOp → LongOp) : (withLong i f s).free = s.free := rfl
@[simp] theorem withLong_clk (i : Nat) (f : LongOp → LongOp) : (withLong i f s).clk = s.clk := rfl
@[simp] theorem withLong_regs (i : Nat) (f : LongOp → LongOp) : (withLong i f s).regs = s.regs := rfl
@[simp] theorem withLong_sec (i : Nat) (f : LongOp → LongOp) : (withLong i f s).sec = s.sec := rfl
@[simp] theorem withLong_avl (i : Nat) (f : LongOp → LongOp) : (withLong i f s).avl = s.avl := rfl
@[simp] theorem withLong_twin (i : Nat) (f : LongOp → LongOp) : (withLong i f s).twin = s.twin := rfl
@[simp] theorem withLong_avs (i : Nat) (f : LongOp → LongOp) : (withLong i f s).avs = s.avs := rfl
@[simp] theorem withLong_chans (i : Nat) (f : LongOp → LongOp) : (withLong i f s).chans = s.chans := rfl
@[simp] theorem withLong_rtps (i : Nat) (f : LongOp → LongOp) : (withLong i f s).rtps = s.rtps := rfl
@[simp] theorem withLong_tps (i : Nat) (f : LongOp → LongOp) : (withLong i f s).tps = s.tps := rfl
@[simp] theorem withLong_tpio (i : Nat) (f : LongOp → LongOp) : (withLong i f s).tpio = s.tpio := rfl
@[simp] theorem withLong_links (i : Nat) (f : LongOp → LongOp) : (withLong i f s).links = s.links := rfl
@[simp] theorem withLong_rxcs (i : Nat) (f : LongOp → LongOp) : (withLong i f s).rxcs = s.rxcs := rfl
@[simp] theorem withLong_txcs (i : Nat) (f : LongOp → LongOp) : (withLong i f s).txcs = s.txcs := rfl
@[simp] theorem withLong_groups (i : Nat) (f : LongOp → LongOp) : (withLong i f s).groups = s.groups := rfl
@[simp] theorem withLong_vpes (i : Nat) (f : LongOp → LongOp) : (withLong i f s).vpes = s.vpes := rfl
@[simp] theorem withLong_code (i : Nat) (f : LongOp → LongOp) : (withLong i f s).code = s.code := rfl
@[simp] theorem withLong_fsc (i : Nat) (f : LongOp → LongOp) : (withLong i f s).fsc = s.fsc := rfl
@[simp] theorem withLong_qmg (i : Nat) (f : LongOp → LongOp) : (withLong i f s).qmg = s.qmg := rfl
@[simp] theorem withLong_bce (i : Nat) (f : LongOp → LongOp) : (withLong i f s).bce = s.bce := rfl
@[simp] theorem withLong_tdm (i : Nat) (f : LongOp → LongOp) : (withLong i f s).tdm = s.tdm := rfl
@[simp] theorem withLong_eth (i : Nat) (f : LongOp → LongOp) : (withLong i f s).eth = s.eth := rfl
@[simp] theorem withLong_prp (i : Nat) (f : LongOp → LongOp) : (withLong i f s).prp = s.prp := rfl
@[simp] theorem withLong_epd (i : Nat) (f : LongOp → LongOp) : (withLong i f s).epd = s.epd := rfl
@[simp] theorem withLong_dmc (i : Nat) (f : LongOp → LongOp) : (withLong i f s).dmc = s.dmc := rfl
@[simp] theorem withLong_endp (i : Nat) (f : LongOp → LongOp) : (withLong i f s).endp = s.endp := rfl
@[simp] theorem withLong_counters (i : Nat) (f : LongOp → LongOp) : (withLong i f s).counters = s.counters := rfl
@[simp] theorem withLong_figs (i : Nat) (f : LongOp → LongOp) : (withLong i f s).figs = s.figs := rfl
@[simp] theorem withLong_hif_rings (i : Nat) (f : LongOp → LongOp) : (withLong i f s).hif.rings = s.hif.rings := rfl
@[simp] theorem withLong_hif_notices (i : Nat) (f : LongOp → LongOp) : (withLong i f s).hif.notices = s.hif.notices := rfl
@[simp] theorem withLong_hif_nextOpId (i : Nat) (f : LongOp → LongOp) : (withLong i f s).hif.nextOpId = s.hif.nextOpId := rfl
@[simp] theorem withLong_hif_longOps (i : Nat) (f : LongOp → LongOp) : (withLong i f s).hif.longOps = s.hif.longOps.map (fun o => if o.opId == i then f o else o) := rfl

/-! `writeBlock` -/
@[simp] theorem writeBlock_pending (b : Bytes) : (writeBlock b s).pending = s.pending := rfl
@[simp] theorem writeBlock_free (b : Bytes) : (writeBlock b s).free = s.free := rfl
@[simp] theorem writeBlock_clk (b : Bytes) : (writeBlock b s).clk = s.clk := rfl
@[simp] theorem writeBlock_regs (b : Bytes) : (writeBlock b s).regs = s.regs := rfl
@[simp] theorem writeBlock_sec (b : Bytes) : (writeBlock b s).sec = s.sec := rfl
@[simp] theorem writeBlock_avl (b : Bytes) : (writeBlock b s).avl = s.avl := rfl
@[simp] theorem writeBlock_twin (b : Bytes) : (writeBlock b s).twin = s.twin := rfl
@[simp] theorem writeBlock_avs (b : Bytes) : (writeBlock b s).avs = s.avs := rfl
@[simp] theorem writeBlock_chans (b : Bytes) : (writeBlock b s).chans = s.chans := rfl
@[simp] theorem writeBlock_rtps (b : Bytes) : (writeBlock b s).rtps = s.rtps := rfl
@[simp] theorem writeBlock_tps (b : Bytes) : (writeBlock b s).tps = s.tps := rfl
@[simp] theorem writeBlock_tpio (b : Bytes) : (writeBlock b s).tpio = s.tpio := rfl
@[simp] theorem writeBlock_links (b : Bytes) : (writeBlock b s).links = s.links := rfl
@[simp] theorem writeBlock_rxcs (b : Bytes) : (writeBlock b s).rxcs = s.rxcs := rfl
@[simp] theorem writeBlock_txcs (b : Bytes) : (writeBlock b s).txcs = s.txcs := rfl
@[simp] theorem writeBlock_groups (b : Bytes) : (writeBlock b s).groups = s.groups := rfl
@[simp] theorem writeBlock_vpes (b : Bytes) : (writeBlock b s).vpes = s.vpes := rfl
@[simp] theorem writeBlock_code (b : Bytes) : (writeBlock b s).code = s.code := rfl
@[simp] theorem writeBlock_fsc (b : Bytes) : (writeBlock b s).fsc = s.fsc := rfl
@[simp] theorem writeBlock_qmg (b : Bytes) : (writeBlock b s).qmg = s.qmg := rfl
@[simp] theorem writeBlock_bce (b : Bytes) : (writeBlock b s).bce = s.bce := rfl
@[simp] theorem writeBlock_tdm (b : Bytes) : (writeBlock b s).tdm = s.tdm := rfl
@[simp] theorem writeBlock_eth (b : Bytes) : (writeBlock b s).eth = s.eth := rfl
@[simp] theorem writeBlock_prp (b : Bytes) : (writeBlock b s).prp = s.prp := rfl
@[simp] theorem writeBlock_epd (b : Bytes) : (writeBlock b s).epd = s.epd := rfl
@[simp] theorem writeBlock_dmc (b : Bytes) : (writeBlock b s).dmc = s.dmc := rfl
@[simp] theorem writeBlock_endp (b : Bytes) : (writeBlock b s).endp = s.endp := rfl
@[simp] theorem writeBlock_counters (b : Bytes) : (writeBlock b s).counters = s.counters := rfl
@[simp] theorem writeBlock_figs (b : Bytes) : (writeBlock b s).figs = s.figs := rfl
@[simp] theorem writeBlock_hif_wrote (b : Bytes) : (writeBlock b s).hif.wrote = b := rfl
@[simp] theorem writeBlock_hif_rings (b : Bytes) : (writeBlock b s).hif.rings = s.hif.rings := rfl
@[simp] theorem writeBlock_hif_notices (b : Bytes) : (writeBlock b s).hif.notices = s.hif.notices := rfl
@[simp] theorem writeBlock_hif_longOps (b : Bytes) : (writeBlock b s).hif.longOps = s.hif.longOps := rfl

/-! `take` -/
@[simp] theorem take_pending (n : Nat) : (take n s).pending = s.pending := rfl
@[simp] theorem take_free (n : Nat) : (take n s).free = s.free := rfl
@[simp] theorem take_clk (n : Nat) : (take n s).clk = s.clk := rfl
@[simp] theorem take_regs (n : Nat) : (take n s).regs = s.regs := rfl
@[simp] theorem take_avl (n : Nat) : (take n s).avl = s.avl := rfl
@[simp] theorem take_twin (n : Nat) : (take n s).twin = s.twin := rfl
@[simp] theorem take_avs (n : Nat) : (take n s).avs = s.avs := rfl
@[simp] theorem take_chans (n : Nat) : (take n s).chans = s.chans := rfl
@[simp] theorem take_rtps (n : Nat) : (take n s).rtps = s.rtps := rfl
@[simp] theorem take_tps (n : Nat) : (take n s).tps = s.tps := rfl
@[simp] theorem take_tpio (n : Nat) : (take n s).tpio = s.tpio := rfl
@[simp] theorem take_links (n : Nat) : (take n s).links = s.links := rfl
@[simp] theorem take_rxcs (n : Nat) : (take n s).rxcs = s.rxcs := rfl
@[simp] theorem take_txcs (n : Nat) : (take n s).txcs = s.txcs := rfl
@[simp] theorem take_groups (n : Nat) : (take n s).groups = s.groups := rfl
@[simp] theorem take_vpes (n : Nat) : (take n s).vpes = s.vpes := rfl
@[simp] theorem take_code (n : Nat) : (take n s).code = s.code := rfl
@[simp] theorem take_fsc (n : Nat) : (take n s).fsc = s.fsc := rfl
@[simp] theorem take_qmg (n : Nat) : (take n s).qmg = s.qmg := rfl
@[simp] theorem take_bce (n : Nat) : (take n s).bce = s.bce := rfl
@[simp] theorem take_tdm (n : Nat) : (take n s).tdm = s.tdm := rfl
@[simp] theorem take_eth (n : Nat) : (take n s).eth = s.eth := rfl
@[simp] theorem take_prp (n : Nat) : (take n s).prp = s.prp := rfl
@[simp] theorem take_epd (n : Nat) : (take n s).epd = s.epd := rfl
@[simp] theorem take_dmc (n : Nat) : (take n s).dmc = s.dmc := rfl
@[simp] theorem take_endp (n : Nat) : (take n s).endp = s.endp := rfl
@[simp] theorem take_counters (n : Nat) : (take n s).counters = s.counters := rfl
@[simp] theorem take_figs (n : Nat) : (take n s).figs = s.figs := rfl
@[simp] theorem take_hif_notices (n : Nat) : (take n s).hif.notices = s.hif.notices := rfl
@[simp] theorem take_hif_longOps (n : Nat) : (take n s).hif.longOps = s.hif.longOps := rfl
@[simp] theorem take_hif_nextOpId (n : Nat) : (take n s).hif.nextOpId = s.hif.nextOpId := rfl
@[simp] theorem take_hif_rings (n : Nat) : (take n s).hif.rings = FMap.adj s.hif.rings n (fun r => { r with devIdx := r.devIdx + 1 }) := rfl
@[simp] theorem take_sec_enrolled (n : Nat) : (take n s).sec.enrolled = s.sec.enrolled := rfl
@[simp] theorem take_sec_nonces (n : Nat) : (take n s).sec.nonces = s.sec.nonces := rfl
@[simp] theorem take_sec_unlock (n : Nat) : (take n s).sec.unlock = s.sec.unlock := rfl
@[simp] theorem take_sec_identity (n : Nat) : (take n s).sec.identity = s.sec.identity := rfl
@[simp] theorem take_sec_fails (n : Nat) : (take n s).sec.fails = s.sec.fails := rfl
@[simp] theorem take_sec_revoked (n : Nat) : (take n s).sec.revoked = s.sec.revoked := rfl

/-! `hold` -/
@[simp] theorem hold_pending (n : Nat) (h : Held) : (hold n h s).pending = s.pending := rfl
@[simp] theorem hold_free (n : Nat) (h : Held) : (hold n h s).free = s.free := rfl
@[simp] theorem hold_clk (n : Nat) (h : Held) : (hold n h s).clk = s.clk := rfl
@[simp] theorem hold_regs (n : Nat) (h : Held) : (hold n h s).regs = s.regs := rfl
@[simp] theorem hold_sec (n : Nat) (h : Held) : (hold n h s).sec = s.sec := rfl
@[simp] theorem hold_avl (n : Nat) (h : Held) : (hold n h s).avl = s.avl := rfl
@[simp] theorem hold_twin (n : Nat) (h : Held) : (hold n h s).twin = s.twin := rfl
@[simp] theorem hold_avs (n : Nat) (h : Held) : (hold n h s).avs = s.avs := rfl
@[simp] theorem hold_chans (n : Nat) (h : Held) : (hold n h s).chans = s.chans := rfl
@[simp] theorem hold_rtps (n : Nat) (h : Held) : (hold n h s).rtps = s.rtps := rfl
@[simp] theorem hold_tps (n : Nat) (h : Held) : (hold n h s).tps = s.tps := rfl
@[simp] theorem hold_tpio (n : Nat) (h : Held) : (hold n h s).tpio = s.tpio := rfl
@[simp] theorem hold_links (n : Nat) (h : Held) : (hold n h s).links = s.links := rfl
@[simp] theorem hold_rxcs (n : Nat) (h : Held) : (hold n h s).rxcs = s.rxcs := rfl
@[simp] theorem hold_txcs (n : Nat) (h : Held) : (hold n h s).txcs = s.txcs := rfl
@[simp] theorem hold_groups (n : Nat) (h : Held) : (hold n h s).groups = s.groups := rfl
@[simp] theorem hold_vpes (n : Nat) (h : Held) : (hold n h s).vpes = s.vpes := rfl
@[simp] theorem hold_code (n : Nat) (h : Held) : (hold n h s).code = s.code := rfl
@[simp] theorem hold_fsc (n : Nat) (h : Held) : (hold n h s).fsc = s.fsc := rfl
@[simp] theorem hold_qmg (n : Nat) (h : Held) : (hold n h s).qmg = s.qmg := rfl
@[simp] theorem hold_bce (n : Nat) (h : Held) : (hold n h s).bce = s.bce := rfl
@[simp] theorem hold_tdm (n : Nat) (h : Held) : (hold n h s).tdm = s.tdm := rfl
@[simp] theorem hold_eth (n : Nat) (h : Held) : (hold n h s).eth = s.eth := rfl
@[simp] theorem hold_prp (n : Nat) (h : Held) : (hold n h s).prp = s.prp := rfl
@[simp] theorem hold_epd (n : Nat) (h : Held) : (hold n h s).epd = s.epd := rfl
@[simp] theorem hold_dmc (n : Nat) (h : Held) : (hold n h s).dmc = s.dmc := rfl
@[simp] theorem hold_endp (n : Nat) (h : Held) : (hold n h s).endp = s.endp := rfl
@[simp] theorem hold_counters (n : Nat) (h : Held) : (hold n h s).counters = s.counters := rfl
@[simp] theorem hold_figs (n : Nat) (h : Held) : (hold n h s).figs = s.figs := rfl
@[simp] theorem hold_hif_longOps (n : Nat) (h : Held) : (hold n h s).hif.longOps = s.hif.longOps := rfl
@[simp] theorem hold_hif_notices (n : Nat) (h : Held) : (hold n h s).hif.notices = s.hif.notices := rfl

/-! `withLife` -/
@[simp] theorem withLife_pending (f : Lifetime → Lifetime) : (withLife f s).pending = s.pending := rfl
@[simp] theorem withLife_free (f : Lifetime → Lifetime) : (withLife f s).free = s.free := rfl
@[simp] theorem withLife_clk (f : Lifetime → Lifetime) : (withLife f s).clk = s.clk := rfl
@[simp] theorem withLife_regs (f : Lifetime → Lifetime) : (withLife f s).regs = s.regs := rfl
@[simp] theorem withLife_hif (f : Lifetime → Lifetime) : (withLife f s).hif = s.hif := rfl
@[simp] theorem withLife_sec (f : Lifetime → Lifetime) : (withLife f s).sec = s.sec := rfl
@[simp] theorem withLife_avl (f : Lifetime → Lifetime) : (withLife f s).avl = s.avl := rfl
@[simp] theorem withLife_twin (f : Lifetime → Lifetime) : (withLife f s).twin = s.twin := rfl
@[simp] theorem withLife_avs (f : Lifetime → Lifetime) : (withLife f s).avs = s.avs := rfl
@[simp] theorem withLife_chans (f : Lifetime → Lifetime) : (withLife f s).chans = s.chans := rfl
@[simp] theorem withLife_rtps (f : Lifetime → Lifetime) : (withLife f s).rtps = s.rtps := rfl
@[simp] theorem withLife_tps (f : Lifetime → Lifetime) : (withLife f s).tps = s.tps := rfl
@[simp] theorem withLife_tpio (f : Lifetime → Lifetime) : (withLife f s).tpio = s.tpio := rfl
@[simp] theorem withLife_links (f : Lifetime → Lifetime) : (withLife f s).links = s.links := rfl
@[simp] theorem withLife_rxcs (f : Lifetime → Lifetime) : (withLife f s).rxcs = s.rxcs := rfl
@[simp] theorem withLife_txcs (f : Lifetime → Lifetime) : (withLife f s).txcs = s.txcs := rfl
@[simp] theorem withLife_groups (f : Lifetime → Lifetime) : (withLife f s).groups = s.groups := rfl
@[simp] theorem withLife_vpes (f : Lifetime → Lifetime) : (withLife f s).vpes = s.vpes := rfl
@[simp] theorem withLife_code (f : Lifetime → Lifetime) : (withLife f s).code = s.code := rfl
@[simp] theorem withLife_fsc (f : Lifetime → Lifetime) : (withLife f s).fsc = s.fsc := rfl
@[simp] theorem withLife_qmg (f : Lifetime → Lifetime) : (withLife f s).qmg = s.qmg := rfl
@[simp] theorem withLife_bce (f : Lifetime → Lifetime) : (withLife f s).bce = s.bce := rfl
@[simp] theorem withLife_tdm (f : Lifetime → Lifetime) : (withLife f s).tdm = s.tdm := rfl
@[simp] theorem withLife_eth (f : Lifetime → Lifetime) : (withLife f s).eth = s.eth := rfl
@[simp] theorem withLife_prp (f : Lifetime → Lifetime) : (withLife f s).prp = s.prp := rfl
@[simp] theorem withLife_epd (f : Lifetime → Lifetime) : (withLife f s).epd = s.epd := rfl
@[simp] theorem withLife_dmc (f : Lifetime → Lifetime) : (withLife f s).dmc = s.dmc := rfl
@[simp] theorem withLife_counters (f : Lifetime → Lifetime) : (withLife f s).counters = s.counters := rfl
@[simp] theorem withLife_figs (f : Lifetime → Lifetime) : (withLife f s).figs = s.figs := rfl
@[simp] theorem withLife_endp_life (f : Lifetime → Lifetime) : (withLife f s).endp.life = f s.endp.life := rfl
@[simp] theorem withLife_endp_epoch (f : Lifetime → Lifetime) : (withLife f s).endp.epoch = s.endp.epoch := rfl
@[simp] theorem withLife_endp_committed (f : Lifetime → Lifetime) : (withLife f s).endp.committed = s.endp.committed := rfl
@[simp] theorem withLife_endp_lifeStored (f : Lifetime → Lifetime) : (withLife f s).endp.lifeStored = s.endp.lifeStored := rfl
@[simp] theorem withLife_endp_degraded (f : Lifetime → Lifetime) : (withLife f s).endp.degraded = s.endp.degraded := rfl

/-! `endpWrite` -/
@[simp] theorem endpWrite_pending : (endpWrite s).pending = s.pending := rfl
@[simp] theorem endpWrite_clk : (endpWrite s).clk = s.clk := rfl
@[simp] theorem endpWrite_regs : (endpWrite s).regs = s.regs := rfl
@[simp] theorem endpWrite_hif : (endpWrite s).hif = s.hif := rfl
@[simp] theorem endpWrite_sec : (endpWrite s).sec = s.sec := rfl
@[simp] theorem endpWrite_avl : (endpWrite s).avl = s.avl := rfl
@[simp] theorem endpWrite_twin : (endpWrite s).twin = s.twin := rfl
@[simp] theorem endpWrite_avs : (endpWrite s).avs = s.avs := rfl
@[simp] theorem endpWrite_chans : (endpWrite s).chans = s.chans := rfl
@[simp] theorem endpWrite_rtps : (endpWrite s).rtps = s.rtps := rfl
@[simp] theorem endpWrite_tps : (endpWrite s).tps = s.tps := rfl
@[simp] theorem endpWrite_tpio : (endpWrite s).tpio = s.tpio := rfl
@[simp] theorem endpWrite_links : (endpWrite s).links = s.links := rfl
@[simp] theorem endpWrite_rxcs : (endpWrite s).rxcs = s.rxcs := rfl
@[simp] theorem endpWrite_txcs : (endpWrite s).txcs = s.txcs := rfl
@[simp] theorem endpWrite_groups : (endpWrite s).groups = s.groups := rfl
@[simp] theorem endpWrite_vpes : (endpWrite s).vpes = s.vpes := rfl
@[simp] theorem endpWrite_code : (endpWrite s).code = s.code := rfl
@[simp] theorem endpWrite_fsc : (endpWrite s).fsc = s.fsc := rfl
@[simp] theorem endpWrite_qmg : (endpWrite s).qmg = s.qmg := rfl
@[simp] theorem endpWrite_bce : (endpWrite s).bce = s.bce := rfl
@[simp] theorem endpWrite_tdm : (endpWrite s).tdm = s.tdm := rfl
@[simp] theorem endpWrite_eth : (endpWrite s).eth = s.eth := rfl
@[simp] theorem endpWrite_prp : (endpWrite s).prp = s.prp := rfl
@[simp] theorem endpWrite_epd : (endpWrite s).epd = s.epd := rfl
@[simp] theorem endpWrite_dmc : (endpWrite s).dmc = s.dmc := rfl
@[simp] theorem endpWrite_counters : (endpWrite s).counters = s.counters := rfl
@[simp] theorem endpWrite_figs : (endpWrite s).figs = s.figs := rfl
@[simp] theorem endpWrite_free : (endpWrite s).free = s.free + 1 := rfl
@[simp] theorem endpWrite_endp_epoch : (endpWrite s).endp.epoch = s.endp.epoch := rfl
@[simp] theorem endpWrite_endp_committed : (endpWrite s).endp.committed = s.endp.committed := rfl
@[simp] theorem endpWrite_endp_degraded : (endpWrite s).endp.degraded = s.endp.degraded := rfl
@[simp] theorem endpWrite_endp_lifeStored : (endpWrite s).endp.lifeStored = s.endp.lifeStored := rfl
@[simp] theorem endpWrite_endp_lifeAt : (endpWrite s).endp.lifeAt = s.endp.lifeAt := rfl

/-! `putFig` -/
@[simp] theorem putFig_pending (f : Fig) (o u : Nat) (v : Int) : (putFig f o u v s).pending = s.pending := rfl
@[simp] theorem putFig_free (f : Fig) (o u : Nat) (v : Int) : (putFig f o u v s).free = s.free := rfl
@[simp] theorem putFig_clk (f : Fig) (o u : Nat) (v : Int) : (putFig f o u v s).clk = s.clk := rfl
@[simp] theorem putFig_regs (f : Fig) (o u : Nat) (v : Int) : (putFig f o u v s).regs = s.regs := rfl
@[simp] theorem putFig_hif (f : Fig) (o u : Nat) (v : Int) : (putFig f o u v s).hif = s.hif := rfl
@[simp] theorem putFig_sec (f : Fig) (o u : Nat) (v : Int) : (putFig f o u v s).sec = s.sec := rfl
@[simp] theorem putFig_avl (f : Fig) (o u : Nat) (v : Int) : (putFig f o u v s).avl = s.avl := rfl
@[simp] theorem putFig_twin (f : Fig) (o u : Nat) (v : Int) : (putFig f o u v s).twin = s.twin := rfl
@[simp] theorem putFig_avs (f : Fig) (o u : Nat) (v : Int) : (putFig f o u v s).avs = s.avs := rfl
@[simp] theorem putFig_chans (f : Fig) (o u : Nat) (v : Int) : (putFig f o u v s).chans = s.chans := rfl
@[simp] theorem putFig_rtps (f : Fig) (o u : Nat) (v : Int) : (putFig f o u v s).rtps = s.rtps := rfl
@[simp] theorem putFig_tps (f : Fig) (o u : Nat) (v : Int) : (putFig f o u v s).tps = s.tps := rfl
@[simp] theorem putFig_tpio (f : Fig) (o u : Nat) (v : Int) : (putFig f o u v s).tpio = s.tpio := rfl
@[simp] theorem putFig_links (f : Fig) (o u : Nat) (v : Int) : (putFig f o u v s).links = s.links := rfl
@[simp] theorem putFig_rxcs (f : Fig) (o u : Nat) (v : Int) : (putFig f o u v s).rxcs = s.rxcs := rfl
@[simp] theorem putFig_txcs (f : Fig) (o u : Nat) (v : Int) : (putFig f o u v s).txcs = s.txcs := rfl
@[simp] theorem putFig_groups (f : Fig) (o u : Nat) (v : Int) : (putFig f o u v s).groups = s.groups := rfl
@[simp] theorem putFig_vpes (f : Fig) (o u : Nat) (v : Int) : (putFig f o u v s).vpes = s.vpes := rfl
@[simp] theorem putFig_code (f : Fig) (o u : Nat) (v : Int) : (putFig f o u v s).code = s.code := rfl
@[simp] theorem putFig_fsc (f : Fig) (o u : Nat) (v : Int) : (putFig f o u v s).fsc = s.fsc := rfl
@[simp] theorem putFig_qmg (f : Fig) (o u : Nat) (v : Int) : (putFig f o u v s).qmg = s.qmg := rfl
@[simp] theorem putFig_bce (f : Fig) (o u : Nat) (v : Int) : (putFig f o u v s).bce = s.bce := rfl
@[simp] theorem putFig_tdm (f : Fig) (o u : Nat) (v : Int) : (putFig f o u v s).tdm = s.tdm := rfl
@[simp] theorem putFig_eth (f : Fig) (o u : Nat) (v : Int) : (putFig f o u v s).eth = s.eth := rfl
@[simp] theorem putFig_prp (f : Fig) (o u : Nat) (v : Int) : (putFig f o u v s).prp = s.prp := rfl
@[simp] theorem putFig_epd (f : Fig) (o u : Nat) (v : Int) : (putFig f o u v s).epd = s.epd := rfl
@[simp] theorem putFig_dmc (f : Fig) (o u : Nat) (v : Int) : (putFig f o u v s).dmc = s.dmc := rfl
@[simp] theorem putFig_endp (f : Fig) (o u : Nat) (v : Int) : (putFig f o u v s).endp = s.endp := rfl
@[simp] theorem putFig_counters (f : Fig) (o u : Nat) (v : Int) : (putFig f o u v s).counters = s.counters := rfl

/-! `addFig` -/
@[simp] theorem addFig_pending (f : Fig) (o u : Nat) (v : Int) : (addFig f o u v s).pending = s.pending := rfl
@[simp] theorem addFig_free (f : Fig) (o u : Nat) (v : Int) : (addFig f o u v s).free = s.free := rfl
@[simp] theorem addFig_clk (f : Fig) (o u : Nat) (v : Int) : (addFig f o u v s).clk = s.clk := rfl
@[simp] theorem addFig_regs (f : Fig) (o u : Nat) (v : Int) : (addFig f o u v s).regs = s.regs := rfl
@[simp] theorem addFig_hif (f : Fig) (o u : Nat) (v : Int) : (addFig f o u v s).hif = s.hif := rfl
@[simp] theorem addFig_sec (f : Fig) (o u : Nat) (v : Int) : (addFig f o u v s).sec = s.sec := rfl
@[simp] theorem addFig_avl (f : Fig) (o u : Nat) (v : Int) : (addFig f o u v s).avl = s.avl := rfl
@[simp] theorem addFig_twin (f : Fig) (o u : Nat) (v : Int) : (addFig f o u v s).twin = s.twin := rfl
@[simp] theorem addFig_avs (f : Fig) (o u : Nat) (v : Int) : (addFig f o u v s).avs = s.avs := rfl
@[simp] theorem addFig_chans (f : Fig) (o u : Nat) (v : Int) : (addFig f o u v s).chans = s.chans := rfl
@[simp] theorem addFig_rtps (f : Fig) (o u : Nat) (v : Int) : (addFig f o u v s).rtps = s.rtps := rfl
@[simp] theorem addFig_tps (f : Fig) (o u : Nat) (v : Int) : (addFig f o u v s).tps = s.tps := rfl
@[simp] theorem addFig_tpio (f : Fig) (o u : Nat) (v : Int) : (addFig f o u v s).tpio = s.tpio := rfl
@[simp] theorem addFig_links (f : Fig) (o u : Nat) (v : Int) : (addFig f o u v s).links = s.links := rfl
@[simp] theorem addFig_rxcs (f : Fig) (o u : Nat) (v : Int) : (addFig f o u v s).rxcs = s.rxcs := rfl
@[simp] theorem addFig_txcs (f : Fig) (o u : Nat) (v : Int) : (addFig f o u v s).txcs = s.txcs := rfl
@[simp] theorem addFig_groups (f : Fig) (o u : Nat) (v : Int) : (addFig f o u v s).groups = s.groups := rfl
@[simp] theorem addFig_vpes (f : Fig) (o u : Nat) (v : Int) : (addFig f o u v s).vpes = s.vpes := rfl
@[simp] theorem addFig_code (f : Fig) (o u : Nat) (v : Int) : (addFig f o u v s).code = s.code := rfl
@[simp] theorem addFig_fsc (f : Fig) (o u : Nat) (v : Int) : (addFig f o u v s).fsc = s.fsc := rfl
@[simp] theorem addFig_qmg (f : Fig) (o u : Nat) (v : Int) : (addFig f o u v s).qmg = s.qmg := rfl
@[simp] theorem addFig_bce (f : Fig) (o u : Nat) (v : Int) : (addFig f o u v s).bce = s.bce := rfl
@[simp] theorem addFig_tdm (f : Fig) (o u : Nat) (v : Int) : (addFig f o u v s).tdm = s.tdm := rfl
@[simp] theorem addFig_eth (f : Fig) (o u : Nat) (v : Int) : (addFig f o u v s).eth = s.eth := rfl
@[simp] theorem addFig_prp (f : Fig) (o u : Nat) (v : Int) : (addFig f o u v s).prp = s.prp := rfl
@[simp] theorem addFig_epd (f : Fig) (o u : Nat) (v : Int) : (addFig f o u v s).epd = s.epd := rfl
@[simp] theorem addFig_dmc (f : Fig) (o u : Nat) (v : Int) : (addFig f o u v s).dmc = s.dmc := rfl
@[simp] theorem addFig_endp (f : Fig) (o u : Nat) (v : Int) : (addFig f o u v s).endp = s.endp := rfl
@[simp] theorem addFig_counters (f : Fig) (o u : Nat) (v : Int) : (addFig f o u v s).counters = s.counters := rfl

/-! `dropCounters` -/
@[simp] theorem dropCounters_pending (c : List Ctr) (o : Nat) : (dropCounters c o s).pending = s.pending := rfl
@[simp] theorem dropCounters_free (c : List Ctr) (o : Nat) : (dropCounters c o s).free = s.free := rfl
@[simp] theorem dropCounters_clk (c : List Ctr) (o : Nat) : (dropCounters c o s).clk = s.clk := rfl
@[simp] theorem dropCounters_regs (c : List Ctr) (o : Nat) : (dropCounters c o s).regs = s.regs := rfl
@[simp] theorem dropCounters_hif (c : List Ctr) (o : Nat) : (dropCounters c o s).hif = s.hif := rfl
@[simp] theorem dropCounters_sec (c : List Ctr) (o : Nat) : (dropCounters c o s).sec = s.sec := rfl
@[simp] theorem dropCounters_avl (c : List Ctr) (o : Nat) : (dropCounters c o s).avl = s.avl := rfl
@[simp] theorem dropCounters_twin (c : List Ctr) (o : Nat) : (dropCounters c o s).twin = s.twin := rfl
@[simp] theorem dropCounters_avs (c : List Ctr) (o : Nat) : (dropCounters c o s).avs = s.avs := rfl
@[simp] theorem dropCounters_chans (c : List Ctr) (o : Nat) : (dropCounters c o s).chans = s.chans := rfl
@[simp] theorem dropCounters_rtps (c : List Ctr) (o : Nat) : (dropCounters c o s).rtps = s.rtps := rfl
@[simp] theorem dropCounters_tps (c : List Ctr) (o : Nat) : (dropCounters c o s).tps = s.tps := rfl
@[simp] theorem dropCounters_tpio (c : List Ctr) (o : Nat) : (dropCounters c o s).tpio = s.tpio := rfl
@[simp] theorem dropCounters_links (c : List Ctr) (o : Nat) : (dropCounters c o s).links = s.links := rfl
@[simp] theorem dropCounters_rxcs (c : List Ctr) (o : Nat) : (dropCounters c o s).rxcs = s.rxcs := rfl
@[simp] theorem dropCounters_txcs (c : List Ctr) (o : Nat) : (dropCounters c o s).txcs = s.txcs := rfl
@[simp] theorem dropCounters_groups (c : List Ctr) (o : Nat) : (dropCounters c o s).groups = s.groups := rfl
@[simp] theorem dropCounters_vpes (c : List Ctr) (o : Nat) : (dropCounters c o s).vpes = s.vpes := rfl
@[simp] theorem dropCounters_code (c : List Ctr) (o : Nat) : (dropCounters c o s).code = s.code := rfl
@[simp] theorem dropCounters_fsc (c : List Ctr) (o : Nat) : (dropCounters c o s).fsc = s.fsc := rfl
@[simp] theorem dropCounters_qmg (c : List Ctr) (o : Nat) : (dropCounters c o s).qmg = s.qmg := rfl
@[simp] theorem dropCounters_bce (c : List Ctr) (o : Nat) : (dropCounters c o s).bce = s.bce := rfl
@[simp] theorem dropCounters_tdm (c : List Ctr) (o : Nat) : (dropCounters c o s).tdm = s.tdm := rfl
@[simp] theorem dropCounters_eth (c : List Ctr) (o : Nat) : (dropCounters c o s).eth = s.eth := rfl
@[simp] theorem dropCounters_prp (c : List Ctr) (o : Nat) : (dropCounters c o s).prp = s.prp := rfl
@[simp] theorem dropCounters_epd (c : List Ctr) (o : Nat) : (dropCounters c o s).epd = s.epd := rfl
@[simp] theorem dropCounters_dmc (c : List Ctr) (o : Nat) : (dropCounters c o s).dmc = s.dmc := rfl
@[simp] theorem dropCounters_endp (c : List Ctr) (o : Nat) : (dropCounters c o s).endp = s.endp := rfl
@[simp] theorem dropCounters_figs (c : List Ctr) (o : Nat) : (dropCounters c o s).figs = s.figs := rfl

/-! `withSec` -/
@[simp] theorem withSec_pending (f : Sec → Sec) : (withSec f s).pending = s.pending := rfl
@[simp] theorem withSec_free (f : Sec → Sec) : (withSec f s).free = s.free := rfl
@[simp] theorem withSec_clk (f : Sec → Sec) : (withSec f s).clk = s.clk := rfl
@[simp] theorem withSec_regs (f : Sec → Sec) : (withSec f s).regs = s.regs := rfl
@[simp] theorem withSec_hif (f : Sec → Sec) : (withSec f s).hif = s.hif := rfl
@[simp] theorem withSec_avl (f : Sec → Sec) : (withSec f s).avl = s.avl := rfl
@[simp] theorem withSec_twin (f : Sec → Sec) : (withSec f s).twin = s.twin := rfl
@[simp] theorem withSec_avs (f : Sec → Sec) : (withSec f s).avs = s.avs := rfl
@[simp] theorem withSec_chans (f : Sec → Sec) : (withSec f s).chans = s.chans := rfl
@[simp] theorem withSec_rtps (f : Sec → Sec) : (withSec f s).rtps = s.rtps := rfl
@[simp] theorem withSec_tps (f : Sec → Sec) : (withSec f s).tps = s.tps := rfl
@[simp] theorem withSec_tpio (f : Sec → Sec) : (withSec f s).tpio = s.tpio := rfl
@[simp] theorem withSec_links (f : Sec → Sec) : (withSec f s).links = s.links := rfl
@[simp] theorem withSec_rxcs (f : Sec → Sec) : (withSec f s).rxcs = s.rxcs := rfl
@[simp] theorem withSec_txcs (f : Sec → Sec) : (withSec f s).txcs = s.txcs := rfl
@[simp] theorem withSec_groups (f : Sec → Sec) : (withSec f s).groups = s.groups := rfl
@[simp] theorem withSec_vpes (f : Sec → Sec) : (withSec f s).vpes = s.vpes := rfl
@[simp] theorem withSec_code (f : Sec → Sec) : (withSec f s).code = s.code := rfl
@[simp] theorem withSec_fsc (f : Sec → Sec) : (withSec f s).fsc = s.fsc := rfl
@[simp] theorem withSec_qmg (f : Sec → Sec) : (withSec f s).qmg = s.qmg := rfl
@[simp] theorem withSec_bce (f : Sec → Sec) : (withSec f s).bce = s.bce := rfl
@[simp] theorem withSec_tdm (f : Sec → Sec) : (withSec f s).tdm = s.tdm := rfl
@[simp] theorem withSec_eth (f : Sec → Sec) : (withSec f s).eth = s.eth := rfl
@[simp] theorem withSec_prp (f : Sec → Sec) : (withSec f s).prp = s.prp := rfl
@[simp] theorem withSec_epd (f : Sec → Sec) : (withSec f s).epd = s.epd := rfl
@[simp] theorem withSec_dmc (f : Sec → Sec) : (withSec f s).dmc = s.dmc := rfl
@[simp] theorem withSec_endp (f : Sec → Sec) : (withSec f s).endp = s.endp := rfl
@[simp] theorem withSec_counters (f : Sec → Sec) : (withSec f s).counters = s.counters := rfl
@[simp] theorem withSec_figs (f : Sec → Sec) : (withSec f s).figs = s.figs := rfl
@[simp] theorem withSec_sec (f : Sec → Sec) : (withSec f s).sec = f s.sec := rfl

/-! `withAvl` -/
@[simp] theorem withAvl_pending (f : Avail → Avail) : (withAvl f s).pending = s.pending := rfl
@[simp] theorem withAvl_free (f : Avail → Avail) : (withAvl f s).free = s.free := rfl
@[simp] theorem withAvl_clk (f : Avail → Avail) : (withAvl f s).clk = s.clk := rfl
@[simp] theorem withAvl_regs (f : Avail → Avail) : (withAvl f s).regs = s.regs := rfl
@[simp] theorem withAvl_hif (f : Avail → Avail) : (withAvl f s).hif = s.hif := rfl
@[simp] theorem withAvl_sec (f : Avail → Avail) : (withAvl f s).sec = s.sec := rfl
@[simp] theorem withAvl_twin (f : Avail → Avail) : (withAvl f s).twin = s.twin := rfl
@[simp] theorem withAvl_avs (f : Avail → Avail) : (withAvl f s).avs = s.avs := rfl
@[simp] theorem withAvl_chans (f : Avail → Avail) : (withAvl f s).chans = s.chans := rfl
@[simp] theorem withAvl_rtps (f : Avail → Avail) : (withAvl f s).rtps = s.rtps := rfl
@[simp] theorem withAvl_tps (f : Avail → Avail) : (withAvl f s).tps = s.tps := rfl
@[simp] theorem withAvl_tpio (f : Avail → Avail) : (withAvl f s).tpio = s.tpio := rfl
@[simp] theorem withAvl_links (f : Avail → Avail) : (withAvl f s).links = s.links := rfl
@[simp] theorem withAvl_rxcs (f : Avail → Avail) : (withAvl f s).rxcs = s.rxcs := rfl
@[simp] theorem withAvl_txcs (f : Avail → Avail) : (withAvl f s).txcs = s.txcs := rfl
@[simp] theorem withAvl_groups (f : Avail → Avail) : (withAvl f s).groups = s.groups := rfl
@[simp] theorem withAvl_vpes (f : Avail → Avail) : (withAvl f s).vpes = s.vpes := rfl
@[simp] theorem withAvl_code (f : Avail → Avail) : (withAvl f s).code = s.code := rfl
@[simp] theorem withAvl_fsc (f : Avail → Avail) : (withAvl f s).fsc = s.fsc := rfl
@[simp] theorem withAvl_qmg (f : Avail → Avail) : (withAvl f s).qmg = s.qmg := rfl
@[simp] theorem withAvl_bce (f : Avail → Avail) : (withAvl f s).bce = s.bce := rfl
@[simp] theorem withAvl_tdm (f : Avail → Avail) : (withAvl f s).tdm = s.tdm := rfl
@[simp] theorem withAvl_eth (f : Avail → Avail) : (withAvl f s).eth = s.eth := rfl
@[simp] theorem withAvl_prp (f : Avail → Avail) : (withAvl f s).prp = s.prp := rfl
@[simp] theorem withAvl_epd (f : Avail → Avail) : (withAvl f s).epd = s.epd := rfl
@[simp] theorem withAvl_dmc (f : Avail → Avail) : (withAvl f s).dmc = s.dmc := rfl
@[simp] theorem withAvl_endp (f : Avail → Avail) : (withAvl f s).endp = s.endp := rfl
@[simp] theorem withAvl_counters (f : Avail → Avail) : (withAvl f s).counters = s.counters := rfl
@[simp] theorem withAvl_figs (f : Avail → Avail) : (withAvl f s).figs = s.figs := rfl
@[simp] theorem withAvl_avl (f : Avail → Avail) : (withAvl f s).avl = f s.avl := rfl

/-! `withTwin` -/
@[simp] theorem withTwin_pending (f : Twin → Twin) : (withTwin f s).pending = s.pending := rfl
@[simp] theorem withTwin_free (f : Twin → Twin) : (withTwin f s).free = s.free := rfl
@[simp] theorem withTwin_clk (f : Twin → Twin) : (withTwin f s).clk = s.clk := rfl
@[simp] theorem withTwin_regs (f : Twin → Twin) : (withTwin f s).regs = s.regs := rfl
@[simp] theorem withTwin_hif (f : Twin → Twin) : (withTwin f s).hif = s.hif := rfl
@[simp] theorem withTwin_sec (f : Twin → Twin) : (withTwin f s).sec = s.sec := rfl
@[simp] theorem withTwin_avl (f : Twin → Twin) : (withTwin f s).avl = s.avl := rfl
@[simp] theorem withTwin_avs (f : Twin → Twin) : (withTwin f s).avs = s.avs := rfl
@[simp] theorem withTwin_chans (f : Twin → Twin) : (withTwin f s).chans = s.chans := rfl
@[simp] theorem withTwin_rtps (f : Twin → Twin) : (withTwin f s).rtps = s.rtps := rfl
@[simp] theorem withTwin_tps (f : Twin → Twin) : (withTwin f s).tps = s.tps := rfl
@[simp] theorem withTwin_tpio (f : Twin → Twin) : (withTwin f s).tpio = s.tpio := rfl
@[simp] theorem withTwin_links (f : Twin → Twin) : (withTwin f s).links = s.links := rfl
@[simp] theorem withTwin_rxcs (f : Twin → Twin) : (withTwin f s).rxcs = s.rxcs := rfl
@[simp] theorem withTwin_txcs (f : Twin → Twin) : (withTwin f s).txcs = s.txcs := rfl
@[simp] theorem withTwin_groups (f : Twin → Twin) : (withTwin f s).groups = s.groups := rfl
@[simp] theorem withTwin_vpes (f : Twin → Twin) : (withTwin f s).vpes = s.vpes := rfl
@[simp] theorem withTwin_code (f : Twin → Twin) : (withTwin f s).code = s.code := rfl
@[simp] theorem withTwin_fsc (f : Twin → Twin) : (withTwin f s).fsc = s.fsc := rfl
@[simp] theorem withTwin_qmg (f : Twin → Twin) : (withTwin f s).qmg = s.qmg := rfl
@[simp] theorem withTwin_bce (f : Twin → Twin) : (withTwin f s).bce = s.bce := rfl
@[simp] theorem withTwin_tdm (f : Twin → Twin) : (withTwin f s).tdm = s.tdm := rfl
@[simp] theorem withTwin_eth (f : Twin → Twin) : (withTwin f s).eth = s.eth := rfl
@[simp] theorem withTwin_prp (f : Twin → Twin) : (withTwin f s).prp = s.prp := rfl
@[simp] theorem withTwin_epd (f : Twin → Twin) : (withTwin f s).epd = s.epd := rfl
@[simp] theorem withTwin_dmc (f : Twin → Twin) : (withTwin f s).dmc = s.dmc := rfl
@[simp] theorem withTwin_endp (f : Twin → Twin) : (withTwin f s).endp = s.endp := rfl
@[simp] theorem withTwin_counters (f : Twin → Twin) : (withTwin f s).counters = s.counters := rfl
@[simp] theorem withTwin_figs (f : Twin → Twin) : (withTwin f s).figs = s.figs := rfl
@[simp] theorem withTwin_twin (f : Twin → Twin) : (withTwin f s).twin = f s.twin := rfl

/-! `withChan` -/
@[simp] theorem withChan_pending (c : Nat) (f : Chan → Chan) : (withChan c f s).pending = s.pending := rfl
@[simp] theorem withChan_free (c : Nat) (f : Chan → Chan) : (withChan c f s).free = s.free := rfl
@[simp] theorem withChan_clk (c : Nat) (f : Chan → Chan) : (withChan c f s).clk = s.clk := rfl
@[simp] theorem withChan_regs (c : Nat) (f : Chan → Chan) : (withChan c f s).regs = s.regs := rfl
@[simp] theorem withChan_hif (c : Nat) (f : Chan → Chan) : (withChan c f s).hif = s.hif := rfl
@[simp] theorem withChan_sec (c : Nat) (f : Chan → Chan) : (withChan c f s).sec = s.sec := rfl
@[simp] theorem withChan_avl (c : Nat) (f : Chan → Chan) : (withChan c f s).avl = s.avl := rfl
@[simp] theorem withChan_twin (c : Nat) (f : Chan → Chan) : (withChan c f s).twin = s.twin := rfl
@[simp] theorem withChan_avs (c : Nat) (f : Chan → Chan) : (withChan c f s).avs = s.avs := rfl
@[simp] theorem withChan_rtps (c : Nat) (f : Chan → Chan) : (withChan c f s).rtps = s.rtps := rfl
@[simp] theorem withChan_tps (c : Nat) (f : Chan → Chan) : (withChan c f s).tps = s.tps := rfl
@[simp] theorem withChan_tpio (c : Nat) (f : Chan → Chan) : (withChan c f s).tpio = s.tpio := rfl
@[simp] theorem withChan_links (c : Nat) (f : Chan → Chan) : (withChan c f s).links = s.links := rfl
@[simp] theorem withChan_rxcs (c : Nat) (f : Chan → Chan) : (withChan c f s).rxcs = s.rxcs := rfl
@[simp] theorem withChan_txcs (c : Nat) (f : Chan → Chan) : (withChan c f s).txcs = s.txcs := rfl
@[simp] theorem withChan_groups (c : Nat) (f : Chan → Chan) : (withChan c f s).groups = s.groups := rfl
@[simp] theorem withChan_vpes (c : Nat) (f : Chan → Chan) : (withChan c f s).vpes = s.vpes := rfl
@[simp] theorem withChan_code (c : Nat) (f : Chan → Chan) : (withChan c f s).code = s.code := rfl
@[simp] theorem withChan_fsc (c : Nat) (f : Chan → Chan) : (withChan c f s).fsc = s.fsc := rfl
@[simp] theorem withChan_qmg (c : Nat) (f : Chan → Chan) : (withChan c f s).qmg = s.qmg := rfl
@[simp] theorem withChan_bce (c : Nat) (f : Chan → Chan) : (withChan c f s).bce = s.bce := rfl
@[simp] theorem withChan_tdm (c : Nat) (f : Chan → Chan) : (withChan c f s).tdm = s.tdm := rfl
@[simp] theorem withChan_eth (c : Nat) (f : Chan → Chan) : (withChan c f s).eth = s.eth := rfl
@[simp] theorem withChan_prp (c : Nat) (f : Chan → Chan) : (withChan c f s).prp = s.prp := rfl
@[simp] theorem withChan_epd (c : Nat) (f : Chan → Chan) : (withChan c f s).epd = s.epd := rfl
@[simp] theorem withChan_dmc (c : Nat) (f : Chan → Chan) : (withChan c f s).dmc = s.dmc := rfl
@[simp] theorem withChan_endp (c : Nat) (f : Chan → Chan) : (withChan c f s).endp = s.endp := rfl
@[simp] theorem withChan_counters (c : Nat) (f : Chan → Chan) : (withChan c f s).counters = s.counters := rfl
@[simp] theorem withChan_figs (c : Nat) (f : Chan → Chan) : (withChan c f s).figs = s.figs := rfl
@[simp] theorem withChan_chans (c : Nat) (f : Chan → Chan) : (withChan c f s).chans = FMap.adj s.chans c f := rfl

/-! `withRtp` -/
@[simp] theorem withRtp_pending (c : Nat) (f : Rtp → Rtp) : (withRtp c f s).pending = s.pending := rfl
@[simp] theorem withRtp_free (c : Nat) (f : Rtp → Rtp) : (withRtp c f s).free = s.free := rfl
@[simp] theorem withRtp_clk (c : Nat) (f : Rtp → Rtp) : (withRtp c f s).clk = s.clk := rfl
@[simp] theorem withRtp_regs (c : Nat) (f : Rtp → Rtp) : (withRtp c f s).regs = s.regs := rfl
@[simp] theorem withRtp_hif (c : Nat) (f : Rtp → Rtp) : (withRtp c f s).hif = s.hif := rfl
@[simp] theorem withRtp_sec (c : Nat) (f : Rtp → Rtp) : (withRtp c f s).sec = s.sec := rfl
@[simp] theorem withRtp_avl (c : Nat) (f : Rtp → Rtp) : (withRtp c f s).avl = s.avl := rfl
@[simp] theorem withRtp_twin (c : Nat) (f : Rtp → Rtp) : (withRtp c f s).twin = s.twin := rfl
@[simp] theorem withRtp_avs (c : Nat) (f : Rtp → Rtp) : (withRtp c f s).avs = s.avs := rfl
@[simp] theorem withRtp_chans (c : Nat) (f : Rtp → Rtp) : (withRtp c f s).chans = s.chans := rfl
@[simp] theorem withRtp_tps (c : Nat) (f : Rtp → Rtp) : (withRtp c f s).tps = s.tps := rfl
@[simp] theorem withRtp_tpio (c : Nat) (f : Rtp → Rtp) : (withRtp c f s).tpio = s.tpio := rfl
@[simp] theorem withRtp_links (c : Nat) (f : Rtp → Rtp) : (withRtp c f s).links = s.links := rfl
@[simp] theorem withRtp_rxcs (c : Nat) (f : Rtp → Rtp) : (withRtp c f s).rxcs = s.rxcs := rfl
@[simp] theorem withRtp_txcs (c : Nat) (f : Rtp → Rtp) : (withRtp c f s).txcs = s.txcs := rfl
@[simp] theorem withRtp_groups (c : Nat) (f : Rtp → Rtp) : (withRtp c f s).groups = s.groups := rfl
@[simp] theorem withRtp_vpes (c : Nat) (f : Rtp → Rtp) : (withRtp c f s).vpes = s.vpes := rfl
@[simp] theorem withRtp_code (c : Nat) (f : Rtp → Rtp) : (withRtp c f s).code = s.code := rfl
@[simp] theorem withRtp_fsc (c : Nat) (f : Rtp → Rtp) : (withRtp c f s).fsc = s.fsc := rfl
@[simp] theorem withRtp_qmg (c : Nat) (f : Rtp → Rtp) : (withRtp c f s).qmg = s.qmg := rfl
@[simp] theorem withRtp_bce (c : Nat) (f : Rtp → Rtp) : (withRtp c f s).bce = s.bce := rfl
@[simp] theorem withRtp_tdm (c : Nat) (f : Rtp → Rtp) : (withRtp c f s).tdm = s.tdm := rfl
@[simp] theorem withRtp_eth (c : Nat) (f : Rtp → Rtp) : (withRtp c f s).eth = s.eth := rfl
@[simp] theorem withRtp_prp (c : Nat) (f : Rtp → Rtp) : (withRtp c f s).prp = s.prp := rfl
@[simp] theorem withRtp_epd (c : Nat) (f : Rtp → Rtp) : (withRtp c f s).epd = s.epd := rfl
@[simp] theorem withRtp_dmc (c : Nat) (f : Rtp → Rtp) : (withRtp c f s).dmc = s.dmc := rfl
@[simp] theorem withRtp_endp (c : Nat) (f : Rtp → Rtp) : (withRtp c f s).endp = s.endp := rfl
@[simp] theorem withRtp_counters (c : Nat) (f : Rtp → Rtp) : (withRtp c f s).counters = s.counters := rfl
@[simp] theorem withRtp_figs (c : Nat) (f : Rtp → Rtp) : (withRtp c f s).figs = s.figs := rfl
@[simp] theorem withRtp_rtps (c : Nat) (f : Rtp → Rtp) : (withRtp c f s).rtps = FMap.adj s.rtps c f := rfl

/-! `withTp` -/
@[simp] theorem withTp_pending (c : Nat) (f : Tp → Tp) : (withTp c f s).pending = s.pending := rfl
@[simp] theorem withTp_free (c : Nat) (f : Tp → Tp) : (withTp c f s).free = s.free := rfl
@[simp] theorem withTp_clk (c : Nat) (f : Tp → Tp) : (withTp c f s).clk = s.clk := rfl
@[simp] theorem withTp_regs (c : Nat) (f : Tp → Tp) : (withTp c f s).regs = s.regs := rfl
@[simp] theorem withTp_hif (c : Nat) (f : Tp → Tp) : (withTp c f s).hif = s.hif := rfl
@[simp] theorem withTp_sec (c : Nat) (f : Tp → Tp) : (withTp c f s).sec = s.sec := rfl
@[simp] theorem withTp_avl (c : Nat) (f : Tp → Tp) : (withTp c f s).avl = s.avl := rfl
@[simp] theorem withTp_twin (c : Nat) (f : Tp → Tp) : (withTp c f s).twin = s.twin := rfl
@[simp] theorem withTp_avs (c : Nat) (f : Tp → Tp) : (withTp c f s).avs = s.avs := rfl
@[simp] theorem withTp_chans (c : Nat) (f : Tp → Tp) : (withTp c f s).chans = s.chans := rfl
@[simp] theorem withTp_rtps (c : Nat) (f : Tp → Tp) : (withTp c f s).rtps = s.rtps := rfl
@[simp] theorem withTp_tpio (c : Nat) (f : Tp → Tp) : (withTp c f s).tpio = s.tpio := rfl
@[simp] theorem withTp_links (c : Nat) (f : Tp → Tp) : (withTp c f s).links = s.links := rfl
@[simp] theorem withTp_rxcs (c : Nat) (f : Tp → Tp) : (withTp c f s).rxcs = s.rxcs := rfl
@[simp] theorem withTp_txcs (c : Nat) (f : Tp → Tp) : (withTp c f s).txcs = s.txcs := rfl
@[simp] theorem withTp_groups (c : Nat) (f : Tp → Tp) : (withTp c f s).groups = s.groups := rfl
@[simp] theorem withTp_vpes (c : Nat) (f : Tp → Tp) : (withTp c f s).vpes = s.vpes := rfl
@[simp] theorem withTp_code (c : Nat) (f : Tp → Tp) : (withTp c f s).code = s.code := rfl
@[simp] theorem withTp_fsc (c : Nat) (f : Tp → Tp) : (withTp c f s).fsc = s.fsc := rfl
@[simp] theorem withTp_qmg (c : Nat) (f : Tp → Tp) : (withTp c f s).qmg = s.qmg := rfl
@[simp] theorem withTp_bce (c : Nat) (f : Tp → Tp) : (withTp c f s).bce = s.bce := rfl
@[simp] theorem withTp_tdm (c : Nat) (f : Tp → Tp) : (withTp c f s).tdm = s.tdm := rfl
@[simp] theorem withTp_eth (c : Nat) (f : Tp → Tp) : (withTp c f s).eth = s.eth := rfl
@[simp] theorem withTp_prp (c : Nat) (f : Tp → Tp) : (withTp c f s).prp = s.prp := rfl
@[simp] theorem withTp_epd (c : Nat) (f : Tp → Tp) : (withTp c f s).epd = s.epd := rfl
@[simp] theorem withTp_dmc (c : Nat) (f : Tp → Tp) : (withTp c f s).dmc = s.dmc := rfl
@[simp] theorem withTp_endp (c : Nat) (f : Tp → Tp) : (withTp c f s).endp = s.endp := rfl
@[simp] theorem withTp_counters (c : Nat) (f : Tp → Tp) : (withTp c f s).counters = s.counters := rfl
@[simp] theorem withTp_figs (c : Nat) (f : Tp → Tp) : (withTp c f s).figs = s.figs := rfl
@[simp] theorem withTp_tps (c : Nat) (f : Tp → Tp) : (withTp c f s).tps = FMap.adj s.tps c f := rfl

/-! `driveBalls` -/
@[simp] theorem driveBalls_pending : (driveBalls s).pending = s.pending := rfl
@[simp] theorem driveBalls_free : (driveBalls s).free = s.free := rfl
@[simp] theorem driveBalls_clk : (driveBalls s).clk = s.clk := rfl
@[simp] theorem driveBalls_regs : (driveBalls s).regs = s.regs := rfl
@[simp] theorem driveBalls_hif : (driveBalls s).hif = s.hif := rfl
@[simp] theorem driveBalls_sec : (driveBalls s).sec = s.sec := rfl
@[simp] theorem driveBalls_avl : (driveBalls s).avl = s.avl := rfl
@[simp] theorem driveBalls_twin : (driveBalls s).twin = s.twin := rfl
@[simp] theorem driveBalls_avs : (driveBalls s).avs = s.avs := rfl
@[simp] theorem driveBalls_chans : (driveBalls s).chans = s.chans := rfl
@[simp] theorem driveBalls_rtps : (driveBalls s).rtps = s.rtps := rfl
@[simp] theorem driveBalls_tps : (driveBalls s).tps = s.tps := rfl
@[simp] theorem driveBalls_links : (driveBalls s).links = s.links := rfl
@[simp] theorem driveBalls_rxcs : (driveBalls s).rxcs = s.rxcs := rfl
@[simp] theorem driveBalls_txcs : (driveBalls s).txcs = s.txcs := rfl
@[simp] theorem driveBalls_groups : (driveBalls s).groups = s.groups := rfl
@[simp] theorem driveBalls_vpes : (driveBalls s).vpes = s.vpes := rfl
@[simp] theorem driveBalls_code : (driveBalls s).code = s.code := rfl
@[simp] theorem driveBalls_fsc : (driveBalls s).fsc = s.fsc := rfl
@[simp] theorem driveBalls_qmg : (driveBalls s).qmg = s.qmg := rfl
@[simp] theorem driveBalls_bce : (driveBalls s).bce = s.bce := rfl
@[simp] theorem driveBalls_tdm : (driveBalls s).tdm = s.tdm := rfl
@[simp] theorem driveBalls_eth : (driveBalls s).eth = s.eth := rfl
@[simp] theorem driveBalls_prp : (driveBalls s).prp = s.prp := rfl
@[simp] theorem driveBalls_epd : (driveBalls s).epd = s.epd := rfl
@[simp] theorem driveBalls_dmc : (driveBalls s).dmc = s.dmc := rfl
@[simp] theorem driveBalls_endp : (driveBalls s).endp = s.endp := rfl
@[simp] theorem driveBalls_counters : (driveBalls s).counters = s.counters := rfl
@[simp] theorem driveBalls_figs : (driveBalls s).figs = s.figs := rfl

/-! `withLink` -/
@[simp] theorem withLink_pending (n : Nat) (f : Link → Link) : (withLink n f s).pending = s.pending := rfl
@[simp] theorem withLink_free (n : Nat) (f : Link → Link) : (withLink n f s).free = s.free := rfl
@[simp] theorem withLink_clk (n : Nat) (f : Link → Link) : (withLink n f s).clk = s.clk := rfl
@[simp] theorem withLink_regs (n : Nat) (f : Link → Link) : (withLink n f s).regs = s.regs := rfl
@[simp] theorem withLink_hif (n : Nat) (f : Link → Link) : (withLink n f s).hif = s.hif := rfl
@[simp] theorem withLink_sec (n : Nat) (f : Link → Link) : (withLink n f s).sec = s.sec := rfl
@[simp] theorem withLink_avl (n : Nat) (f : Link → Link) : (withLink n f s).avl = s.avl := rfl
@[simp] theorem withLink_twin (n : Nat) (f : Link → Link) : (withLink n f s).twin = s.twin := rfl
@[simp] theorem withLink_avs (n : Nat) (f : Link → Link) : (withLink n f s).avs = s.avs := rfl
@[simp] theorem withLink_chans (n : Nat) (f : Link → Link) : (withLink n f s).chans = s.chans := rfl
@[simp] theorem withLink_rtps (n : Nat) (f : Link → Link) : (withLink n f s).rtps = s.rtps := rfl
@[simp] theorem withLink_tps (n : Nat) (f : Link → Link) : (withLink n f s).tps = s.tps := rfl
@[simp] theorem withLink_tpio (n : Nat) (f : Link → Link) : (withLink n f s).tpio = s.tpio := rfl
@[simp] theorem withLink_rxcs (n : Nat) (f : Link → Link) : (withLink n f s).rxcs = s.rxcs := rfl
@[simp] theorem withLink_txcs (n : Nat) (f : Link → Link) : (withLink n f s).txcs = s.txcs := rfl
@[simp] theorem withLink_groups (n : Nat) (f : Link → Link) : (withLink n f s).groups = s.groups := rfl
@[simp] theorem withLink_vpes (n : Nat) (f : Link → Link) : (withLink n f s).vpes = s.vpes := rfl
@[simp] theorem withLink_code (n : Nat) (f : Link → Link) : (withLink n f s).code = s.code := rfl
@[simp] theorem withLink_fsc (n : Nat) (f : Link → Link) : (withLink n f s).fsc = s.fsc := rfl
@[simp] theorem withLink_qmg (n : Nat) (f : Link → Link) : (withLink n f s).qmg = s.qmg := rfl
@[simp] theorem withLink_bce (n : Nat) (f : Link → Link) : (withLink n f s).bce = s.bce := rfl
@[simp] theorem withLink_tdm (n : Nat) (f : Link → Link) : (withLink n f s).tdm = s.tdm := rfl
@[simp] theorem withLink_eth (n : Nat) (f : Link → Link) : (withLink n f s).eth = s.eth := rfl
@[simp] theorem withLink_prp (n : Nat) (f : Link → Link) : (withLink n f s).prp = s.prp := rfl
@[simp] theorem withLink_epd (n : Nat) (f : Link → Link) : (withLink n f s).epd = s.epd := rfl
@[simp] theorem withLink_dmc (n : Nat) (f : Link → Link) : (withLink n f s).dmc = s.dmc := rfl
@[simp] theorem withLink_endp (n : Nat) (f : Link → Link) : (withLink n f s).endp = s.endp := rfl
@[simp] theorem withLink_counters (n : Nat) (f : Link → Link) : (withLink n f s).counters = s.counters := rfl
@[simp] theorem withLink_figs (n : Nat) (f : Link → Link) : (withLink n f s).figs = s.figs := rfl
@[simp] theorem withLink_links (n : Nat) (f : Link → Link) : (withLink n f s).links = FMap.set s.links n (f (linkAt s n)) := rfl

/-! `withRxc` -/
@[simp] theorem withRxc_pending (n : Nat) (f : Rxc → Rxc) : (withRxc n f s).pending = s.pending := rfl
@[simp] theorem withRxc_free (n : Nat) (f : Rxc → Rxc) : (withRxc n f s).free = s.free := rfl
@[simp] theorem withRxc_clk (n : Nat) (f : Rxc → Rxc) : (withRxc n f s).clk = s.clk := rfl
@[simp] theorem withRxc_regs (n : Nat) (f : Rxc → Rxc) : (withRxc n f s).regs = s.regs := rfl
@[simp] theorem withRxc_hif (n : Nat) (f : Rxc → Rxc) : (withRxc n f s).hif = s.hif := rfl
@[simp] theorem withRxc_sec (n : Nat) (f : Rxc → Rxc) : (withRxc n f s).sec = s.sec := rfl
@[simp] theorem withRxc_avl (n : Nat) (f : Rxc → Rxc) : (withRxc n f s).avl = s.avl := rfl
@[simp] theorem withRxc_twin (n : Nat) (f : Rxc → Rxc) : (withRxc n f s).twin = s.twin := rfl
@[simp] theorem withRxc_avs (n : Nat) (f : Rxc → Rxc) : (withRxc n f s).avs = s.avs := rfl
@[simp] theorem withRxc_chans (n : Nat) (f : Rxc → Rxc) : (withRxc n f s).chans = s.chans := rfl
@[simp] theorem withRxc_rtps (n : Nat) (f : Rxc → Rxc) : (withRxc n f s).rtps = s.rtps := rfl
@[simp] theorem withRxc_tps (n : Nat) (f : Rxc → Rxc) : (withRxc n f s).tps = s.tps := rfl
@[simp] theorem withRxc_tpio (n : Nat) (f : Rxc → Rxc) : (withRxc n f s).tpio = s.tpio := rfl
@[simp] theorem withRxc_links (n : Nat) (f : Rxc → Rxc) : (withRxc n f s).links = s.links := rfl
@[simp] theorem withRxc_txcs (n : Nat) (f : Rxc → Rxc) : (withRxc n f s).txcs = s.txcs := rfl
@[simp] theorem withRxc_groups (n : Nat) (f : Rxc → Rxc) : (withRxc n f s).groups = s.groups := rfl
@[simp] theorem withRxc_vpes (n : Nat) (f : Rxc → Rxc) : (withRxc n f s).vpes = s.vpes := rfl
@[simp] theorem withRxc_code (n : Nat) (f : Rxc → Rxc) : (withRxc n f s).code = s.code := rfl
@[simp] theorem withRxc_fsc (n : Nat) (f : Rxc → Rxc) : (withRxc n f s).fsc = s.fsc := rfl
@[simp] theorem withRxc_qmg (n : Nat) (f : Rxc → Rxc) : (withRxc n f s).qmg = s.qmg := rfl
@[simp] theorem withRxc_bce (n : Nat) (f : Rxc → Rxc) : (withRxc n f s).bce = s.bce := rfl
@[simp] theorem withRxc_tdm (n : Nat) (f : Rxc → Rxc) : (withRxc n f s).tdm = s.tdm := rfl
@[simp] theorem withRxc_eth (n : Nat) (f : Rxc → Rxc) : (withRxc n f s).eth = s.eth := rfl
@[simp] theorem withRxc_prp (n : Nat) (f : Rxc → Rxc) : (withRxc n f s).prp = s.prp := rfl
@[simp] theorem withRxc_epd (n : Nat) (f : Rxc → Rxc) : (withRxc n f s).epd = s.epd := rfl
@[simp] theorem withRxc_dmc (n : Nat) (f : Rxc → Rxc) : (withRxc n f s).dmc = s.dmc := rfl
@[simp] theorem withRxc_endp (n : Nat) (f : Rxc → Rxc) : (withRxc n f s).endp = s.endp := rfl
@[simp] theorem withRxc_counters (n : Nat) (f : Rxc → Rxc) : (withRxc n f s).counters = s.counters := rfl
@[simp] theorem withRxc_figs (n : Nat) (f : Rxc → Rxc) : (withRxc n f s).figs = s.figs := rfl
@[simp] theorem withRxc_rxcs (n : Nat) (f : Rxc → Rxc) : (withRxc n f s).rxcs = FMap.adj s.rxcs n f := rfl

/-! `withTxc` -/
@[simp] theorem withTxc_pending (n : Nat) (f : Txc → Txc) : (withTxc n f s).pending = s.pending := rfl
@[simp] theorem withTxc_free (n : Nat) (f : Txc → Txc) : (withTxc n f s).free = s.free := rfl
@[simp] theorem withTxc_clk (n : Nat) (f : Txc → Txc) : (withTxc n f s).clk = s.clk := rfl
@[simp] theorem withTxc_regs (n : Nat) (f : Txc → Txc) : (withTxc n f s).regs = s.regs := rfl
@[simp] theorem withTxc_hif (n : Nat) (f : Txc → Txc) : (withTxc n f s).hif = s.hif := rfl
@[simp] theorem withTxc_sec (n : Nat) (f : Txc → Txc) : (withTxc n f s).sec = s.sec := rfl
@[simp] theorem withTxc_avl (n : Nat) (f : Txc → Txc) : (withTxc n f s).avl = s.avl := rfl
@[simp] theorem withTxc_twin (n : Nat) (f : Txc → Txc) : (withTxc n f s).twin = s.twin := rfl
@[simp] theorem withTxc_avs (n : Nat) (f : Txc → Txc) : (withTxc n f s).avs = s.avs := rfl
@[simp] theorem withTxc_chans (n : Nat) (f : Txc → Txc) : (withTxc n f s).chans = s.chans := rfl
@[simp] theorem withTxc_rtps (n : Nat) (f : Txc → Txc) : (withTxc n f s).rtps = s.rtps := rfl
@[simp] theorem withTxc_tps (n : Nat) (f : Txc → Txc) : (withTxc n f s).tps = s.tps := rfl
@[simp] theorem withTxc_tpio (n : Nat) (f : Txc → Txc) : (withTxc n f s).tpio = s.tpio := rfl
@[simp] theorem withTxc_links (n : Nat) (f : Txc → Txc) : (withTxc n f s).links = s.links := rfl
@[simp] theorem withTxc_rxcs (n : Nat) (f : Txc → Txc) : (withTxc n f s).rxcs = s.rxcs := rfl
@[simp] theorem withTxc_groups (n : Nat) (f : Txc → Txc) : (withTxc n f s).groups = s.groups := rfl
@[simp] theorem withTxc_vpes (n : Nat) (f : Txc → Txc) : (withTxc n f s).vpes = s.vpes := rfl
@[simp] theorem withTxc_code (n : Nat) (f : Txc → Txc) : (withTxc n f s).code = s.code := rfl
@[simp] theorem withTxc_fsc (n : Nat) (f : Txc → Txc) : (withTxc n f s).fsc = s.fsc := rfl
@[simp] theorem withTxc_qmg (n : Nat) (f : Txc → Txc) : (withTxc n f s).qmg = s.qmg := rfl
@[simp] theorem withTxc_bce (n : Nat) (f : Txc → Txc) : (withTxc n f s).bce = s.bce := rfl
@[simp] theorem withTxc_tdm (n : Nat) (f : Txc → Txc) : (withTxc n f s).tdm = s.tdm := rfl
@[simp] theorem withTxc_eth (n : Nat) (f : Txc → Txc) : (withTxc n f s).eth = s.eth := rfl
@[simp] theorem withTxc_prp (n : Nat) (f : Txc → Txc) : (withTxc n f s).prp = s.prp := rfl
@[simp] theorem withTxc_epd (n : Nat) (f : Txc → Txc) : (withTxc n f s).epd = s.epd := rfl
@[simp] theorem withTxc_dmc (n : Nat) (f : Txc → Txc) : (withTxc n f s).dmc = s.dmc := rfl
@[simp] theorem withTxc_endp (n : Nat) (f : Txc → Txc) : (withTxc n f s).endp = s.endp := rfl
@[simp] theorem withTxc_counters (n : Nat) (f : Txc → Txc) : (withTxc n f s).counters = s.counters := rfl
@[simp] theorem withTxc_figs (n : Nat) (f : Txc → Txc) : (withTxc n f s).figs = s.figs := rfl
@[simp] theorem withTxc_txcs (n : Nat) (f : Txc → Txc) : (withTxc n f s).txcs = FMap.adj s.txcs n f := rfl

/-! `putVpe` -/
@[simp] theorem putVpe_pending (n : Nat) (w : Vpe) : (putVpe n w s).pending = s.pending := rfl
@[simp] theorem putVpe_free (n : Nat) (w : Vpe) : (putVpe n w s).free = s.free := rfl
@[simp] theorem putVpe_clk (n : Nat) (w : Vpe) : (putVpe n w s).clk = s.clk := rfl
@[simp] theorem putVpe_regs (n : Nat) (w : Vpe) : (putVpe n w s).regs = s.regs := rfl
@[simp] theorem putVpe_hif (n : Nat) (w : Vpe) : (putVpe n w s).hif = s.hif := rfl
@[simp] theorem putVpe_sec (n : Nat) (w : Vpe) : (putVpe n w s).sec = s.sec := rfl
@[simp] theorem putVpe_avl (n : Nat) (w : Vpe) : (putVpe n w s).avl = s.avl := rfl
@[simp] theorem putVpe_twin (n : Nat) (w : Vpe) : (putVpe n w s).twin = s.twin := rfl
@[simp] theorem putVpe_avs (n : Nat) (w : Vpe) : (putVpe n w s).avs = s.avs := rfl
@[simp] theorem putVpe_chans (n : Nat) (w : Vpe) : (putVpe n w s).chans = s.chans := rfl
@[simp] theorem putVpe_rtps (n : Nat) (w : Vpe) : (putVpe n w s).rtps = s.rtps := rfl
@[simp] theorem putVpe_tps (n : Nat) (w : Vpe) : (putVpe n w s).tps = s.tps := rfl
@[simp] theorem putVpe_tpio (n : Nat) (w : Vpe) : (putVpe n w s).tpio = s.tpio := rfl
@[simp] theorem putVpe_links (n : Nat) (w : Vpe) : (putVpe n w s).links = s.links := rfl
@[simp] theorem putVpe_rxcs (n : Nat) (w : Vpe) : (putVpe n w s).rxcs = s.rxcs := rfl
@[simp] theorem putVpe_txcs (n : Nat) (w : Vpe) : (putVpe n w s).txcs = s.txcs := rfl
@[simp] theorem putVpe_groups (n : Nat) (w : Vpe) : (putVpe n w s).groups = s.groups := rfl
@[simp] theorem putVpe_code (n : Nat) (w : Vpe) : (putVpe n w s).code = s.code := rfl
@[simp] theorem putVpe_fsc (n : Nat) (w : Vpe) : (putVpe n w s).fsc = s.fsc := rfl
@[simp] theorem putVpe_qmg (n : Nat) (w : Vpe) : (putVpe n w s).qmg = s.qmg := rfl
@[simp] theorem putVpe_bce (n : Nat) (w : Vpe) : (putVpe n w s).bce = s.bce := rfl
@[simp] theorem putVpe_tdm (n : Nat) (w : Vpe) : (putVpe n w s).tdm = s.tdm := rfl
@[simp] theorem putVpe_eth (n : Nat) (w : Vpe) : (putVpe n w s).eth = s.eth := rfl
@[simp] theorem putVpe_prp (n : Nat) (w : Vpe) : (putVpe n w s).prp = s.prp := rfl
@[simp] theorem putVpe_epd (n : Nat) (w : Vpe) : (putVpe n w s).epd = s.epd := rfl
@[simp] theorem putVpe_dmc (n : Nat) (w : Vpe) : (putVpe n w s).dmc = s.dmc := rfl
@[simp] theorem putVpe_endp (n : Nat) (w : Vpe) : (putVpe n w s).endp = s.endp := rfl
@[simp] theorem putVpe_counters (n : Nat) (w : Vpe) : (putVpe n w s).counters = s.counters := rfl
@[simp] theorem putVpe_figs (n : Nat) (w : Vpe) : (putVpe n w s).figs = s.figs := rfl
@[simp] theorem putVpe_vpes (n : Nat) (w : Vpe) : (putVpe n w s).vpes = FMap.set s.vpes n w := rfl

/-! `withFsc` -/
@[simp] theorem withFsc_pending (f : Fsc → Fsc) : (withFsc f s).pending = s.pending := rfl
@[simp] theorem withFsc_free (f : Fsc → Fsc) : (withFsc f s).free = s.free := rfl
@[simp] theorem withFsc_clk (f : Fsc → Fsc) : (withFsc f s).clk = s.clk := rfl
@[simp] theorem withFsc_regs (f : Fsc → Fsc) : (withFsc f s).regs = s.regs := rfl
@[simp] theorem withFsc_hif (f : Fsc → Fsc) : (withFsc f s).hif = s.hif := rfl
@[simp] theorem withFsc_sec (f : Fsc → Fsc) : (withFsc f s).sec = s.sec := rfl
@[simp] theorem withFsc_avl (f : Fsc → Fsc) : (withFsc f s).avl = s.avl := rfl
@[simp] theorem withFsc_twin (f : Fsc → Fsc) : (withFsc f s).twin = s.twin := rfl
@[simp] theorem withFsc_avs (f : Fsc → Fsc) : (withFsc f s).avs = s.avs := rfl
@[simp] theorem withFsc_chans (f : Fsc → Fsc) : (withFsc f s).chans = s.chans := rfl
@[simp] theorem withFsc_rtps (f : Fsc → Fsc) : (withFsc f s).rtps = s.rtps := rfl
@[simp] theorem withFsc_tps (f : Fsc → Fsc) : (withFsc f s).tps = s.tps := rfl
@[simp] theorem withFsc_tpio (f : Fsc → Fsc) : (withFsc f s).tpio = s.tpio := rfl
@[simp] theorem withFsc_links (f : Fsc → Fsc) : (withFsc f s).links = s.links := rfl
@[simp] theorem withFsc_rxcs (f : Fsc → Fsc) : (withFsc f s).rxcs = s.rxcs := rfl
@[simp] theorem withFsc_txcs (f : Fsc → Fsc) : (withFsc f s).txcs = s.txcs := rfl
@[simp] theorem withFsc_groups (f : Fsc → Fsc) : (withFsc f s).groups = s.groups := rfl
@[simp] theorem withFsc_vpes (f : Fsc → Fsc) : (withFsc f s).vpes = s.vpes := rfl
@[simp] theorem withFsc_code (f : Fsc → Fsc) : (withFsc f s).code = s.code := rfl
@[simp] theorem withFsc_qmg (f : Fsc → Fsc) : (withFsc f s).qmg = s.qmg := rfl
@[simp] theorem withFsc_bce (f : Fsc → Fsc) : (withFsc f s).bce = s.bce := rfl
@[simp] theorem withFsc_tdm (f : Fsc → Fsc) : (withFsc f s).tdm = s.tdm := rfl
@[simp] theorem withFsc_eth (f : Fsc → Fsc) : (withFsc f s).eth = s.eth := rfl
@[simp] theorem withFsc_prp (f : Fsc → Fsc) : (withFsc f s).prp = s.prp := rfl
@[simp] theorem withFsc_epd (f : Fsc → Fsc) : (withFsc f s).epd = s.epd := rfl
@[simp] theorem withFsc_dmc (f : Fsc → Fsc) : (withFsc f s).dmc = s.dmc := rfl
@[simp] theorem withFsc_endp (f : Fsc → Fsc) : (withFsc f s).endp = s.endp := rfl
@[simp] theorem withFsc_counters (f : Fsc → Fsc) : (withFsc f s).counters = s.counters := rfl
@[simp] theorem withFsc_figs (f : Fsc → Fsc) : (withFsc f s).figs = s.figs := rfl
@[simp] theorem withFsc_fsc (f : Fsc → Fsc) : (withFsc f s).fsc = f s.fsc := rfl

/-! `withFlow` -/
@[simp] theorem withFlow_pending (n : Nat) (f : Flow → Flow) : (withFlow n f s).pending = s.pending := rfl
@[simp] theorem withFlow_free (n : Nat) (f : Flow → Flow) : (withFlow n f s).free = s.free := rfl
@[simp] theorem withFlow_clk (n : Nat) (f : Flow → Flow) : (withFlow n f s).clk = s.clk := rfl
@[simp] theorem withFlow_regs (n : Nat) (f : Flow → Flow) : (withFlow n f s).regs = s.regs := rfl
@[simp] theorem withFlow_hif (n : Nat) (f : Flow → Flow) : (withFlow n f s).hif = s.hif := rfl
@[simp] theorem withFlow_sec (n : Nat) (f : Flow → Flow) : (withFlow n f s).sec = s.sec := rfl
@[simp] theorem withFlow_avl (n : Nat) (f : Flow → Flow) : (withFlow n f s).avl = s.avl := rfl
@[simp] theorem withFlow_twin (n : Nat) (f : Flow → Flow) : (withFlow n f s).twin = s.twin := rfl
@[simp] theorem withFlow_avs (n : Nat) (f : Flow → Flow) : (withFlow n f s).avs = s.avs := rfl
@[simp] theorem withFlow_chans (n : Nat) (f : Flow → Flow) : (withFlow n f s).chans = s.chans := rfl
@[simp] theorem withFlow_rtps (n : Nat) (f : Flow → Flow) : (withFlow n f s).rtps = s.rtps := rfl
@[simp] theorem withFlow_tps (n : Nat) (f : Flow → Flow) : (withFlow n f s).tps = s.tps := rfl
@[simp] theorem withFlow_tpio (n : Nat) (f : Flow → Flow) : (withFlow n f s).tpio = s.tpio := rfl
@[simp] theorem withFlow_links (n : Nat) (f : Flow → Flow) : (withFlow n f s).links = s.links := rfl
@[simp] theorem withFlow_rxcs (n : Nat) (f : Flow → Flow) : (withFlow n f s).rxcs = s.rxcs := rfl
@[simp] theorem withFlow_txcs (n : Nat) (f : Flow → Flow) : (withFlow n f s).txcs = s.txcs := rfl
@[simp] theorem withFlow_groups (n : Nat) (f : Flow → Flow) : (withFlow n f s).groups = s.groups := rfl
@[simp] theorem withFlow_vpes (n : Nat) (f : Flow → Flow) : (withFlow n f s).vpes = s.vpes := rfl
@[simp] theorem withFlow_code (n : Nat) (f : Flow → Flow) : (withFlow n f s).code = s.code := rfl
@[simp] theorem withFlow_qmg (n : Nat) (f : Flow → Flow) : (withFlow n f s).qmg = s.qmg := rfl
@[simp] theorem withFlow_bce (n : Nat) (f : Flow → Flow) : (withFlow n f s).bce = s.bce := rfl
@[simp] theorem withFlow_tdm (n : Nat) (f : Flow → Flow) : (withFlow n f s).tdm = s.tdm := rfl
@[simp] theorem withFlow_eth (n : Nat) (f : Flow → Flow) : (withFlow n f s).eth = s.eth := rfl
@[simp] theorem withFlow_prp (n : Nat) (f : Flow → Flow) : (withFlow n f s).prp = s.prp := rfl
@[simp] theorem withFlow_epd (n : Nat) (f : Flow → Flow) : (withFlow n f s).epd = s.epd := rfl
@[simp] theorem withFlow_dmc (n : Nat) (f : Flow → Flow) : (withFlow n f s).dmc = s.dmc := rfl
@[simp] theorem withFlow_endp (n : Nat) (f : Flow → Flow) : (withFlow n f s).endp = s.endp := rfl
@[simp] theorem withFlow_counters (n : Nat) (f : Flow → Flow) : (withFlow n f s).counters = s.counters := rfl
@[simp] theorem withFlow_figs (n : Nat) (f : Flow → Flow) : (withFlow n f s).figs = s.figs := rfl
@[simp] theorem withFlow_fsc_flows (n : Nat) (f : Flow → Flow) : (withFlow n f s).fsc.flows = FMap.adj s.fsc.flows n f := rfl
@[simp] theorem withFlow_fsc_delay (n : Nat) (f : Flow → Flow) : (withFlow n f s).fsc.delay = s.fsc.delay := rfl
@[simp] theorem withFlow_fsc_presented (n : Nat) (f : Flow → Flow) : (withFlow n f s).fsc.presented = s.fsc.presented := rfl
@[simp] theorem withFlow_fsc_pace (n : Nat) (f : Flow → Flow) : (withFlow n f s).fsc.pace = s.fsc.pace := rfl

/-! `withInst` -/
@[simp] theorem withInst_pending (n i : Nat) (f : Inst → Inst) : (withInst n i f s).pending = s.pending := rfl
@[simp] theorem withInst_free (n i : Nat) (f : Inst → Inst) : (withInst n i f s).free = s.free := rfl
@[simp] theorem withInst_clk (n i : Nat) (f : Inst → Inst) : (withInst n i f s).clk = s.clk := rfl
@[simp] theorem withInst_regs (n i : Nat) (f : Inst → Inst) : (withInst n i f s).regs = s.regs := rfl
@[simp] theorem withInst_hif (n i : Nat) (f : Inst → Inst) : (withInst n i f s).hif = s.hif := rfl
@[simp] theorem withInst_sec (n i : Nat) (f : Inst → Inst) : (withInst n i f s).sec = s.sec := rfl
@[simp] theorem withInst_avl (n i : Nat) (f : Inst → Inst) : (withInst n i f s).avl = s.avl := rfl
@[simp] theorem withInst_twin (n i : Nat) (f : Inst → Inst) : (withInst n i f s).twin = s.twin := rfl
@[simp] theorem withInst_avs (n i : Nat) (f : Inst → Inst) : (withInst n i f s).avs = s.avs := rfl
@[simp] theorem withInst_chans (n i : Nat) (f : Inst → Inst) : (withInst n i f s).chans = s.chans := rfl
@[simp] theorem withInst_rtps (n i : Nat) (f : Inst → Inst) : (withInst n i f s).rtps = s.rtps := rfl
@[simp] theorem withInst_tps (n i : Nat) (f : Inst → Inst) : (withInst n i f s).tps = s.tps := rfl
@[simp] theorem withInst_tpio (n i : Nat) (f : Inst → Inst) : (withInst n i f s).tpio = s.tpio := rfl
@[simp] theorem withInst_links (n i : Nat) (f : Inst → Inst) : (withInst n i f s).links = s.links := rfl
@[simp] theorem withInst_rxcs (n i : Nat) (f : Inst → Inst) : (withInst n i f s).rxcs = s.rxcs := rfl
@[simp] theorem withInst_txcs (n i : Nat) (f : Inst → Inst) : (withInst n i f s).txcs = s.txcs := rfl
@[simp] theorem withInst_groups (n i : Nat) (f : Inst → Inst) : (withInst n i f s).groups = s.groups := rfl
@[simp] theorem withInst_vpes (n i : Nat) (f : Inst → Inst) : (withInst n i f s).vpes = s.vpes := rfl
@[simp] theorem withInst_code (n i : Nat) (f : Inst → Inst) : (withInst n i f s).code = s.code := rfl
@[simp] theorem withInst_qmg (n i : Nat) (f : Inst → Inst) : (withInst n i f s).qmg = s.qmg := rfl
@[simp] theorem withInst_bce (n i : Nat) (f : Inst → Inst) : (withInst n i f s).bce = s.bce := rfl
@[simp] theorem withInst_tdm (n i : Nat) (f : Inst → Inst) : (withInst n i f s).tdm = s.tdm := rfl
@[simp] theorem withInst_eth (n i : Nat) (f : Inst → Inst) : (withInst n i f s).eth = s.eth := rfl
@[simp] theorem withInst_prp (n i : Nat) (f : Inst → Inst) : (withInst n i f s).prp = s.prp := rfl
@[simp] theorem withInst_epd (n i : Nat) (f : Inst → Inst) : (withInst n i f s).epd = s.epd := rfl
@[simp] theorem withInst_dmc (n i : Nat) (f : Inst → Inst) : (withInst n i f s).dmc = s.dmc := rfl
@[simp] theorem withInst_endp (n i : Nat) (f : Inst → Inst) : (withInst n i f s).endp = s.endp := rfl
@[simp] theorem withInst_counters (n i : Nat) (f : Inst → Inst) : (withInst n i f s).counters = s.counters := rfl
@[simp] theorem withInst_figs (n i : Nat) (f : Inst → Inst) : (withInst n i f s).figs = s.figs := rfl
@[simp] theorem withInst_fsc_delay (n i : Nat) (f : Inst → Inst) : (withInst n i f s).fsc.delay = s.fsc.delay := rfl
@[simp] theorem withInst_fsc_presented (n i : Nat) (f : Inst → Inst) : (withInst n i f s).fsc.presented = s.fsc.presented := rfl

/-! `withOp` -/
@[simp] theorem withOp_pending (n i d : Nat) (f : Op → Op) : (withOp n i d f s).pending = s.pending := rfl
@[simp] theorem withOp_free (n i d : Nat) (f : Op → Op) : (withOp n i d f s).free = s.free := rfl
@[simp] theorem withOp_clk (n i d : Nat) (f : Op → Op) : (withOp n i d f s).clk = s.clk := rfl
@[simp] theorem withOp_regs (n i d : Nat) (f : Op → Op) : (withOp n i d f s).regs = s.regs := rfl
@[simp] theorem withOp_hif (n i d : Nat) (f : Op → Op) : (withOp n i d f s).hif = s.hif := rfl
@[simp] theorem withOp_sec (n i d : Nat) (f : Op → Op) : (withOp n i d f s).sec = s.sec := rfl
@[simp] theorem withOp_avl (n i d : Nat) (f : Op → Op) : (withOp n i d f s).avl = s.avl := rfl
@[simp] theorem withOp_twin (n i d : Nat) (f : Op → Op) : (withOp n i d f s).twin = s.twin := rfl
@[simp] theorem withOp_avs (n i d : Nat) (f : Op → Op) : (withOp n i d f s).avs = s.avs := rfl
@[simp] theorem withOp_chans (n i d : Nat) (f : Op → Op) : (withOp n i d f s).chans = s.chans := rfl
@[simp] theorem withOp_rtps (n i d : Nat) (f : Op → Op) : (withOp n i d f s).rtps = s.rtps := rfl
@[simp] theorem withOp_tps (n i d : Nat) (f : Op → Op) : (withOp n i d f s).tps = s.tps := rfl
@[simp] theorem withOp_tpio (n i d : Nat) (f : Op → Op) : (withOp n i d f s).tpio = s.tpio := rfl
@[simp] theorem withOp_links (n i d : Nat) (f : Op → Op) : (withOp n i d f s).links = s.links := rfl
@[simp] theorem withOp_rxcs (n i d : Nat) (f : Op → Op) : (withOp n i d f s).rxcs = s.rxcs := rfl
@[simp] theorem withOp_txcs (n i d : Nat) (f : Op → Op) : (withOp n i d f s).txcs = s.txcs := rfl
@[simp] theorem withOp_groups (n i d : Nat) (f : Op → Op) : (withOp n i d f s).groups = s.groups := rfl
@[simp] theorem withOp_vpes (n i d : Nat) (f : Op → Op) : (withOp n i d f s).vpes = s.vpes := rfl
@[simp] theorem withOp_code (n i d : Nat) (f : Op → Op) : (withOp n i d f s).code = s.code := rfl
@[simp] theorem withOp_qmg (n i d : Nat) (f : Op → Op) : (withOp n i d f s).qmg = s.qmg := rfl
@[simp] theorem withOp_bce (n i d : Nat) (f : Op → Op) : (withOp n i d f s).bce = s.bce := rfl
@[simp] theorem withOp_tdm (n i d : Nat) (f : Op → Op) : (withOp n i d f s).tdm = s.tdm := rfl
@[simp] theorem withOp_eth (n i d : Nat) (f : Op → Op) : (withOp n i d f s).eth = s.eth := rfl
@[simp] theorem withOp_prp (n i d : Nat) (f : Op → Op) : (withOp n i d f s).prp = s.prp := rfl
@[simp] theorem withOp_epd (n i d : Nat) (f : Op → Op) : (withOp n i d f s).epd = s.epd := rfl
@[simp] theorem withOp_dmc (n i d : Nat) (f : Op → Op) : (withOp n i d f s).dmc = s.dmc := rfl
@[simp] theorem withOp_endp (n i d : Nat) (f : Op → Op) : (withOp n i d f s).endp = s.endp := rfl
@[simp] theorem withOp_counters (n i d : Nat) (f : Op → Op) : (withOp n i d f s).counters = s.counters := rfl
@[simp] theorem withOp_figs (n i d : Nat) (f : Op → Op) : (withOp n i d f s).figs = s.figs := rfl
@[simp] theorem withOp_fsc_delay (n i d : Nat) (f : Op → Op) : (withOp n i d f s).fsc.delay = s.fsc.delay := rfl
@[simp] theorem withOp_fsc_presented (n i d : Nat) (f : Op → Op) : (withOp n i d f s).fsc.presented = s.fsc.presented := rfl

/-! `present` -/
@[simp] theorem present_pending (e : Presented) : (present e s).pending = s.pending := rfl
@[simp] theorem present_free (e : Presented) : (present e s).free = s.free := rfl
@[simp] theorem present_clk (e : Presented) : (present e s).clk = s.clk := rfl
@[simp] theorem present_regs (e : Presented) : (present e s).regs = s.regs := rfl
@[simp] theorem present_hif (e : Presented) : (present e s).hif = s.hif := rfl
@[simp] theorem present_sec (e : Presented) : (present e s).sec = s.sec := rfl
@[simp] theorem present_avl (e : Presented) : (present e s).avl = s.avl := rfl
@[simp] theorem present_twin (e : Presented) : (present e s).twin = s.twin := rfl
@[simp] theorem present_avs (e : Presented) : (present e s).avs = s.avs := rfl
@[simp] theorem present_chans (e : Presented) : (present e s).chans = s.chans := rfl
@[simp] theorem present_rtps (e : Presented) : (present e s).rtps = s.rtps := rfl
@[simp] theorem present_tps (e : Presented) : (present e s).tps = s.tps := rfl
@[simp] theorem present_tpio (e : Presented) : (present e s).tpio = s.tpio := rfl
@[simp] theorem present_links (e : Presented) : (present e s).links = s.links := rfl
@[simp] theorem present_rxcs (e : Presented) : (present e s).rxcs = s.rxcs := rfl
@[simp] theorem present_txcs (e : Presented) : (present e s).txcs = s.txcs := rfl
@[simp] theorem present_groups (e : Presented) : (present e s).groups = s.groups := rfl
@[simp] theorem present_vpes (e : Presented) : (present e s).vpes = s.vpes := rfl
@[simp] theorem present_code (e : Presented) : (present e s).code = s.code := rfl
@[simp] theorem present_qmg (e : Presented) : (present e s).qmg = s.qmg := rfl
@[simp] theorem present_bce (e : Presented) : (present e s).bce = s.bce := rfl
@[simp] theorem present_tdm (e : Presented) : (present e s).tdm = s.tdm := rfl
@[simp] theorem present_eth (e : Presented) : (present e s).eth = s.eth := rfl
@[simp] theorem present_prp (e : Presented) : (present e s).prp = s.prp := rfl
@[simp] theorem present_epd (e : Presented) : (present e s).epd = s.epd := rfl
@[simp] theorem present_dmc (e : Presented) : (present e s).dmc = s.dmc := rfl
@[simp] theorem present_endp (e : Presented) : (present e s).endp = s.endp := rfl
@[simp] theorem present_counters (e : Presented) : (present e s).counters = s.counters := rfl
@[simp] theorem present_figs (e : Presented) : (present e s).figs = s.figs := rfl
@[simp] theorem present_fsc_presented (e : Presented) : (present e s).fsc.presented = s.fsc.presented ++ [e] := rfl
@[simp] theorem present_fsc_flows (e : Presented) : (present e s).fsc.flows = s.fsc.flows := rfl

/-! `withQmg` -/
@[simp] theorem withQmg_pending (f : Qmg → Qmg) : (withQmg f s).pending = s.pending := rfl
@[simp] theorem withQmg_free (f : Qmg → Qmg) : (withQmg f s).free = s.free := rfl
@[simp] theorem withQmg_clk (f : Qmg → Qmg) : (withQmg f s).clk = s.clk := rfl
@[simp] theorem withQmg_regs (f : Qmg → Qmg) : (withQmg f s).regs = s.regs := rfl
@[simp] theorem withQmg_hif (f : Qmg → Qmg) : (withQmg f s).hif = s.hif := rfl
@[simp] theorem withQmg_sec (f : Qmg → Qmg) : (withQmg f s).sec = s.sec := rfl
@[simp] theorem withQmg_avl (f : Qmg → Qmg) : (withQmg f s).avl = s.avl := rfl
@[simp] theorem withQmg_twin (f : Qmg → Qmg) : (withQmg f s).twin = s.twin := rfl
@[simp] theorem withQmg_avs (f : Qmg → Qmg) : (withQmg f s).avs = s.avs := rfl
@[simp] theorem withQmg_chans (f : Qmg → Qmg) : (withQmg f s).chans = s.chans := rfl
@[simp] theorem withQmg_rtps (f : Qmg → Qmg) : (withQmg f s).rtps = s.rtps := rfl
@[simp] theorem withQmg_tps (f : Qmg → Qmg) : (withQmg f s).tps = s.tps := rfl
@[simp] theorem withQmg_tpio (f : Qmg → Qmg) : (withQmg f s).tpio = s.tpio := rfl
@[simp] theorem withQmg_links (f : Qmg → Qmg) : (withQmg f s).links = s.links := rfl
@[simp] theorem withQmg_rxcs (f : Qmg → Qmg) : (withQmg f s).rxcs = s.rxcs := rfl
@[simp] theorem withQmg_txcs (f : Qmg → Qmg) : (withQmg f s).txcs = s.txcs := rfl
@[simp] theorem withQmg_groups (f : Qmg → Qmg) : (withQmg f s).groups = s.groups := rfl
@[simp] theorem withQmg_vpes (f : Qmg → Qmg) : (withQmg f s).vpes = s.vpes := rfl
@[simp] theorem withQmg_code (f : Qmg → Qmg) : (withQmg f s).code = s.code := rfl
@[simp] theorem withQmg_fsc (f : Qmg → Qmg) : (withQmg f s).fsc = s.fsc := rfl
@[simp] theorem withQmg_bce (f : Qmg → Qmg) : (withQmg f s).bce = s.bce := rfl
@[simp] theorem withQmg_tdm (f : Qmg → Qmg) : (withQmg f s).tdm = s.tdm := rfl
@[simp] theorem withQmg_eth (f : Qmg → Qmg) : (withQmg f s).eth = s.eth := rfl
@[simp] theorem withQmg_prp (f : Qmg → Qmg) : (withQmg f s).prp = s.prp := rfl
@[simp] theorem withQmg_epd (f : Qmg → Qmg) : (withQmg f s).epd = s.epd := rfl
@[simp] theorem withQmg_dmc (f : Qmg → Qmg) : (withQmg f s).dmc = s.dmc := rfl
@[simp] theorem withQmg_endp (f : Qmg → Qmg) : (withQmg f s).endp = s.endp := rfl
@[simp] theorem withQmg_counters (f : Qmg → Qmg) : (withQmg f s).counters = s.counters := rfl
@[simp] theorem withQmg_figs (f : Qmg → Qmg) : (withQmg f s).figs = s.figs := rfl
@[simp] theorem withQmg_qmg (f : Qmg → Qmg) : (withQmg f s).qmg = f s.qmg := rfl

/-! `withQueue` -/
@[simp] theorem withQueue_pending (n : Nat) (f : Queue → Queue) : (withQueue n f s).pending = s.pending := rfl
@[simp] theorem withQueue_free (n : Nat) (f : Queue → Queue) : (withQueue n f s).free = s.free := rfl
@[simp] theorem withQueue_clk (n : Nat) (f : Queue → Queue) : (withQueue n f s).clk = s.clk := rfl
@[simp] theorem withQueue_regs (n : Nat) (f : Queue → Queue) : (withQueue n f s).regs = s.regs := rfl
@[simp] theorem withQueue_hif (n : Nat) (f : Queue → Queue) : (withQueue n f s).hif = s.hif := rfl
@[simp] theorem withQueue_sec (n : Nat) (f : Queue → Queue) : (withQueue n f s).sec = s.sec := rfl
@[simp] theorem withQueue_avl (n : Nat) (f : Queue → Queue) : (withQueue n f s).avl = s.avl := rfl
@[simp] theorem withQueue_twin (n : Nat) (f : Queue → Queue) : (withQueue n f s).twin = s.twin := rfl
@[simp] theorem withQueue_avs (n : Nat) (f : Queue → Queue) : (withQueue n f s).avs = s.avs := rfl
@[simp] theorem withQueue_chans (n : Nat) (f : Queue → Queue) : (withQueue n f s).chans = s.chans := rfl
@[simp] theorem withQueue_rtps (n : Nat) (f : Queue → Queue) : (withQueue n f s).rtps = s.rtps := rfl
@[simp] theorem withQueue_tps (n : Nat) (f : Queue → Queue) : (withQueue n f s).tps = s.tps := rfl
@[simp] theorem withQueue_tpio (n : Nat) (f : Queue → Queue) : (withQueue n f s).tpio = s.tpio := rfl
@[simp] theorem withQueue_links (n : Nat) (f : Queue → Queue) : (withQueue n f s).links = s.links := rfl
@[simp] theorem withQueue_rxcs (n : Nat) (f : Queue → Queue) : (withQueue n f s).rxcs = s.rxcs := rfl
@[simp] theorem withQueue_txcs (n : Nat) (f : Queue → Queue) : (withQueue n f s).txcs = s.txcs := rfl
@[simp] theorem withQueue_groups (n : Nat) (f : Queue → Queue) : (withQueue n f s).groups = s.groups := rfl
@[simp] theorem withQueue_vpes (n : Nat) (f : Queue → Queue) : (withQueue n f s).vpes = s.vpes := rfl
@[simp] theorem withQueue_code (n : Nat) (f : Queue → Queue) : (withQueue n f s).code = s.code := rfl
@[simp] theorem withQueue_fsc (n : Nat) (f : Queue → Queue) : (withQueue n f s).fsc = s.fsc := rfl
@[simp] theorem withQueue_bce (n : Nat) (f : Queue → Queue) : (withQueue n f s).bce = s.bce := rfl
@[simp] theorem withQueue_tdm (n : Nat) (f : Queue → Queue) : (withQueue n f s).tdm = s.tdm := rfl
@[simp] theorem withQueue_eth (n : Nat) (f : Queue → Queue) : (withQueue n f s).eth = s.eth := rfl
@[simp] theorem withQueue_prp (n : Nat) (f : Queue → Queue) : (withQueue n f s).prp = s.prp := rfl
@[simp] theorem withQueue_epd (n : Nat) (f : Queue → Queue) : (withQueue n f s).epd = s.epd := rfl
@[simp] theorem withQueue_dmc (n : Nat) (f : Queue → Queue) : (withQueue n f s).dmc = s.dmc := rfl
@[simp] theorem withQueue_endp (n : Nat) (f : Queue → Queue) : (withQueue n f s).endp = s.endp := rfl
@[simp] theorem withQueue_counters (n : Nat) (f : Queue → Queue) : (withQueue n f s).counters = s.counters := rfl
@[simp] theorem withQueue_figs (n : Nat) (f : Queue → Queue) : (withQueue n f s).figs = s.figs := rfl
@[simp] theorem withQueue_qmg_queues (n : Nat) (f : Queue → Queue) : (withQueue n f s).qmg.queues = FMap.adj s.qmg.queues n f := rfl

/-! `withBce` -/
@[simp] theorem withBce_pending (f : Bce → Bce) : (withBce f s).pending = s.pending := rfl
@[simp] theorem withBce_free (f : Bce → Bce) : (withBce f s).free = s.free := rfl
@[simp] theorem withBce_clk (f : Bce → Bce) : (withBce f s).clk = s.clk := rfl
@[simp] theorem withBce_regs (f : Bce → Bce) : (withBce f s).regs = s.regs := rfl
@[simp] theorem withBce_hif (f : Bce → Bce) : (withBce f s).hif = s.hif := rfl
@[simp] theorem withBce_sec (f : Bce → Bce) : (withBce f s).sec = s.sec := rfl
@[simp] theorem withBce_avl (f : Bce → Bce) : (withBce f s).avl = s.avl := rfl
@[simp] theorem withBce_twin (f : Bce → Bce) : (withBce f s).twin = s.twin := rfl
@[simp] theorem withBce_avs (f : Bce → Bce) : (withBce f s).avs = s.avs := rfl
@[simp] theorem withBce_chans (f : Bce → Bce) : (withBce f s).chans = s.chans := rfl
@[simp] theorem withBce_rtps (f : Bce → Bce) : (withBce f s).rtps = s.rtps := rfl
@[simp] theorem withBce_tps (f : Bce → Bce) : (withBce f s).tps = s.tps := rfl
@[simp] theorem withBce_tpio (f : Bce → Bce) : (withBce f s).tpio = s.tpio := rfl
@[simp] theorem withBce_links (f : Bce → Bce) : (withBce f s).links = s.links := rfl
@[simp] theorem withBce_rxcs (f : Bce → Bce) : (withBce f s).rxcs = s.rxcs := rfl
@[simp] theorem withBce_txcs (f : Bce → Bce) : (withBce f s).txcs = s.txcs := rfl
@[simp] theorem withBce_groups (f : Bce → Bce) : (withBce f s).groups = s.groups := rfl
@[simp] theorem withBce_vpes (f : Bce → Bce) : (withBce f s).vpes = s.vpes := rfl
@[simp] theorem withBce_code (f : Bce → Bce) : (withBce f s).code = s.code := rfl
@[simp] theorem withBce_fsc (f : Bce → Bce) : (withBce f s).fsc = s.fsc := rfl
@[simp] theorem withBce_qmg (f : Bce → Bce) : (withBce f s).qmg = s.qmg := rfl
@[simp] theorem withBce_tdm (f : Bce → Bce) : (withBce f s).tdm = s.tdm := rfl
@[simp] theorem withBce_eth (f : Bce → Bce) : (withBce f s).eth = s.eth := rfl
@[simp] theorem withBce_prp (f : Bce → Bce) : (withBce f s).prp = s.prp := rfl
@[simp] theorem withBce_epd (f : Bce → Bce) : (withBce f s).epd = s.epd := rfl
@[simp] theorem withBce_dmc (f : Bce → Bce) : (withBce f s).dmc = s.dmc := rfl
@[simp] theorem withBce_endp (f : Bce → Bce) : (withBce f s).endp = s.endp := rfl
@[simp] theorem withBce_counters (f : Bce → Bce) : (withBce f s).counters = s.counters := rfl
@[simp] theorem withBce_figs (f : Bce → Bce) : (withBce f s).figs = s.figs := rfl
@[simp] theorem withBce_bce (f : Bce → Bce) : (withBce f s).bce = f s.bce := rfl

/-! `withTdm` -/
@[simp] theorem withTdm_pending (n : Nat) (f : TdmPort → TdmPort) : (withTdm n f s).pending = s.pending := rfl
@[simp] theorem withTdm_free (n : Nat) (f : TdmPort → TdmPort) : (withTdm n f s).free = s.free := rfl
@[simp] theorem withTdm_clk (n : Nat) (f : TdmPort → TdmPort) : (withTdm n f s).clk = s.clk := rfl
@[simp] theorem withTdm_regs (n : Nat) (f : TdmPort → TdmPort) : (withTdm n f s).regs = s.regs := rfl
@[simp] theorem withTdm_hif (n : Nat) (f : TdmPort → TdmPort) : (withTdm n f s).hif = s.hif := rfl
@[simp] theorem withTdm_sec (n : Nat) (f : TdmPort → TdmPort) : (withTdm n f s).sec = s.sec := rfl
@[simp] theorem withTdm_avl (n : Nat) (f : TdmPort → TdmPort) : (withTdm n f s).avl = s.avl := rfl
@[simp] theorem withTdm_twin (n : Nat) (f : TdmPort → TdmPort) : (withTdm n f s).twin = s.twin := rfl
@[simp] theorem withTdm_avs (n : Nat) (f : TdmPort → TdmPort) : (withTdm n f s).avs = s.avs := rfl
@[simp] theorem withTdm_chans (n : Nat) (f : TdmPort → TdmPort) : (withTdm n f s).chans = s.chans := rfl
@[simp] theorem withTdm_rtps (n : Nat) (f : TdmPort → TdmPort) : (withTdm n f s).rtps = s.rtps := rfl
@[simp] theorem withTdm_tps (n : Nat) (f : TdmPort → TdmPort) : (withTdm n f s).tps = s.tps := rfl
@[simp] theorem withTdm_tpio (n : Nat) (f : TdmPort → TdmPort) : (withTdm n f s).tpio = s.tpio := rfl
@[simp] theorem withTdm_links (n : Nat) (f : TdmPort → TdmPort) : (withTdm n f s).links = s.links := rfl
@[simp] theorem withTdm_rxcs (n : Nat) (f : TdmPort → TdmPort) : (withTdm n f s).rxcs = s.rxcs := rfl
@[simp] theorem withTdm_txcs (n : Nat) (f : TdmPort → TdmPort) : (withTdm n f s).txcs = s.txcs := rfl
@[simp] theorem withTdm_groups (n : Nat) (f : TdmPort → TdmPort) : (withTdm n f s).groups = s.groups := rfl
@[simp] theorem withTdm_vpes (n : Nat) (f : TdmPort → TdmPort) : (withTdm n f s).vpes = s.vpes := rfl
@[simp] theorem withTdm_code (n : Nat) (f : TdmPort → TdmPort) : (withTdm n f s).code = s.code := rfl
@[simp] theorem withTdm_fsc (n : Nat) (f : TdmPort → TdmPort) : (withTdm n f s).fsc = s.fsc := rfl
@[simp] theorem withTdm_qmg (n : Nat) (f : TdmPort → TdmPort) : (withTdm n f s).qmg = s.qmg := rfl
@[simp] theorem withTdm_bce (n : Nat) (f : TdmPort → TdmPort) : (withTdm n f s).bce = s.bce := rfl
@[simp] theorem withTdm_eth (n : Nat) (f : TdmPort → TdmPort) : (withTdm n f s).eth = s.eth := rfl
@[simp] theorem withTdm_prp (n : Nat) (f : TdmPort → TdmPort) : (withTdm n f s).prp = s.prp := rfl
@[simp] theorem withTdm_epd (n : Nat) (f : TdmPort → TdmPort) : (withTdm n f s).epd = s.epd := rfl
@[simp] theorem withTdm_dmc (n : Nat) (f : TdmPort → TdmPort) : (withTdm n f s).dmc = s.dmc := rfl
@[simp] theorem withTdm_endp (n : Nat) (f : TdmPort → TdmPort) : (withTdm n f s).endp = s.endp := rfl
@[simp] theorem withTdm_counters (n : Nat) (f : TdmPort → TdmPort) : (withTdm n f s).counters = s.counters := rfl
@[simp] theorem withTdm_figs (n : Nat) (f : TdmPort → TdmPort) : (withTdm n f s).figs = s.figs := rfl
@[simp] theorem withTdm_tdm (n : Nat) (f : TdmPort → TdmPort) : (withTdm n f s).tdm = FMap.set s.tdm n (f (tdmPort s n)) := rfl

/-! `withPort` -/
@[simp] theorem withPort_pending (n : Nat) (f : EthPort → EthPort) : (withPort n f s).pending = s.pending := rfl
@[simp] theorem withPort_free (n : Nat) (f : EthPort → EthPort) : (withPort n f s).free = s.free := rfl
@[simp] theorem withPort_clk (n : Nat) (f : EthPort → EthPort) : (withPort n f s).clk = s.clk := rfl
@[simp] theorem withPort_regs (n : Nat) (f : EthPort → EthPort) : (withPort n f s).regs = s.regs := rfl
@[simp] theorem withPort_hif (n : Nat) (f : EthPort → EthPort) : (withPort n f s).hif = s.hif := rfl
@[simp] theorem withPort_sec (n : Nat) (f : EthPort → EthPort) : (withPort n f s).sec = s.sec := rfl
@[simp] theorem withPort_avl (n : Nat) (f : EthPort → EthPort) : (withPort n f s).avl = s.avl := rfl
@[simp] theorem withPort_twin (n : Nat) (f : EthPort → EthPort) : (withPort n f s).twin = s.twin := rfl
@[simp] theorem withPort_avs (n : Nat) (f : EthPort → EthPort) : (withPort n f s).avs = s.avs := rfl
@[simp] theorem withPort_chans (n : Nat) (f : EthPort → EthPort) : (withPort n f s).chans = s.chans := rfl
@[simp] theorem withPort_rtps (n : Nat) (f : EthPort → EthPort) : (withPort n f s).rtps = s.rtps := rfl
@[simp] theorem withPort_tps (n : Nat) (f : EthPort → EthPort) : (withPort n f s).tps = s.tps := rfl
@[simp] theorem withPort_tpio (n : Nat) (f : EthPort → EthPort) : (withPort n f s).tpio = s.tpio := rfl
@[simp] theorem withPort_links (n : Nat) (f : EthPort → EthPort) : (withPort n f s).links = s.links := rfl
@[simp] theorem withPort_rxcs (n : Nat) (f : EthPort → EthPort) : (withPort n f s).rxcs = s.rxcs := rfl
@[simp] theorem withPort_txcs (n : Nat) (f : EthPort → EthPort) : (withPort n f s).txcs = s.txcs := rfl
@[simp] theorem withPort_groups (n : Nat) (f : EthPort → EthPort) : (withPort n f s).groups = s.groups := rfl
@[simp] theorem withPort_vpes (n : Nat) (f : EthPort → EthPort) : (withPort n f s).vpes = s.vpes := rfl
@[simp] theorem withPort_code (n : Nat) (f : EthPort → EthPort) : (withPort n f s).code = s.code := rfl
@[simp] theorem withPort_fsc (n : Nat) (f : EthPort → EthPort) : (withPort n f s).fsc = s.fsc := rfl
@[simp] theorem withPort_qmg (n : Nat) (f : EthPort → EthPort) : (withPort n f s).qmg = s.qmg := rfl
@[simp] theorem withPort_bce (n : Nat) (f : EthPort → EthPort) : (withPort n f s).bce = s.bce := rfl
@[simp] theorem withPort_tdm (n : Nat) (f : EthPort → EthPort) : (withPort n f s).tdm = s.tdm := rfl
@[simp] theorem withPort_prp (n : Nat) (f : EthPort → EthPort) : (withPort n f s).prp = s.prp := rfl
@[simp] theorem withPort_epd (n : Nat) (f : EthPort → EthPort) : (withPort n f s).epd = s.epd := rfl
@[simp] theorem withPort_dmc (n : Nat) (f : EthPort → EthPort) : (withPort n f s).dmc = s.dmc := rfl
@[simp] theorem withPort_endp (n : Nat) (f : EthPort → EthPort) : (withPort n f s).endp = s.endp := rfl
@[simp] theorem withPort_counters (n : Nat) (f : EthPort → EthPort) : (withPort n f s).counters = s.counters := rfl
@[simp] theorem withPort_figs (n : Nat) (f : EthPort → EthPort) : (withPort n f s).figs = s.figs := rfl
@[simp] theorem withPort_eth (n : Nat) (f : EthPort → EthPort) : (withPort n f s).eth = FMap.set s.eth n (f (ethPort s n)) := rfl

/-! `withPair` -/
@[simp] theorem withPair_pending (n : Nat) (f : PrpPair → PrpPair) : (withPair n f s).pending = s.pending := rfl
@[simp] theorem withPair_free (n : Nat) (f : PrpPair → PrpPair) : (withPair n f s).free = s.free := rfl
@[simp] theorem withPair_clk (n : Nat) (f : PrpPair → PrpPair) : (withPair n f s).clk = s.clk := rfl
@[simp] theorem withPair_regs (n : Nat) (f : PrpPair → PrpPair) : (withPair n f s).regs = s.regs := rfl
@[simp] theorem withPair_hif (n : Nat) (f : PrpPair → PrpPair) : (withPair n f s).hif = s.hif := rfl
@[simp] theorem withPair_sec (n : Nat) (f : PrpPair → PrpPair) : (withPair n f s).sec = s.sec := rfl
@[simp] theorem withPair_avl (n : Nat) (f : PrpPair → PrpPair) : (withPair n f s).avl = s.avl := rfl
@[simp] theorem withPair_twin (n : Nat) (f : PrpPair → PrpPair) : (withPair n f s).twin = s.twin := rfl
@[simp] theorem withPair_avs (n : Nat) (f : PrpPair → PrpPair) : (withPair n f s).avs = s.avs := rfl
@[simp] theorem withPair_chans (n : Nat) (f : PrpPair → PrpPair) : (withPair n f s).chans = s.chans := rfl
@[simp] theorem withPair_rtps (n : Nat) (f : PrpPair → PrpPair) : (withPair n f s).rtps = s.rtps := rfl
@[simp] theorem withPair_tps (n : Nat) (f : PrpPair → PrpPair) : (withPair n f s).tps = s.tps := rfl
@[simp] theorem withPair_tpio (n : Nat) (f : PrpPair → PrpPair) : (withPair n f s).tpio = s.tpio := rfl
@[simp] theorem withPair_links (n : Nat) (f : PrpPair → PrpPair) : (withPair n f s).links = s.links := rfl
@[simp] theorem withPair_rxcs (n : Nat) (f : PrpPair → PrpPair) : (withPair n f s).rxcs = s.rxcs := rfl
@[simp] theorem withPair_txcs (n : Nat) (f : PrpPair → PrpPair) : (withPair n f s).txcs = s.txcs := rfl
@[simp] theorem withPair_groups (n : Nat) (f : PrpPair → PrpPair) : (withPair n f s).groups = s.groups := rfl
@[simp] theorem withPair_vpes (n : Nat) (f : PrpPair → PrpPair) : (withPair n f s).vpes = s.vpes := rfl
@[simp] theorem withPair_code (n : Nat) (f : PrpPair → PrpPair) : (withPair n f s).code = s.code := rfl
@[simp] theorem withPair_fsc (n : Nat) (f : PrpPair → PrpPair) : (withPair n f s).fsc = s.fsc := rfl
@[simp] theorem withPair_qmg (n : Nat) (f : PrpPair → PrpPair) : (withPair n f s).qmg = s.qmg := rfl
@[simp] theorem withPair_bce (n : Nat) (f : PrpPair → PrpPair) : (withPair n f s).bce = s.bce := rfl
@[simp] theorem withPair_tdm (n : Nat) (f : PrpPair → PrpPair) : (withPair n f s).tdm = s.tdm := rfl
@[simp] theorem withPair_eth (n : Nat) (f : PrpPair → PrpPair) : (withPair n f s).eth = s.eth := rfl
@[simp] theorem withPair_epd (n : Nat) (f : PrpPair → PrpPair) : (withPair n f s).epd = s.epd := rfl
@[simp] theorem withPair_dmc (n : Nat) (f : PrpPair → PrpPair) : (withPair n f s).dmc = s.dmc := rfl
@[simp] theorem withPair_endp (n : Nat) (f : PrpPair → PrpPair) : (withPair n f s).endp = s.endp := rfl
@[simp] theorem withPair_counters (n : Nat) (f : PrpPair → PrpPair) : (withPair n f s).counters = s.counters := rfl
@[simp] theorem withPair_figs (n : Nat) (f : PrpPair → PrpPair) : (withPair n f s).figs = s.figs := rfl
@[simp] theorem withPair_prp (n : Nat) (f : PrpPair → PrpPair) : (withPair n f s).prp = FMap.set s.prp n (f (prpPair s n)) := rfl

/-! `withEpd` -/
@[simp] theorem withEpd_pending (f : Epd → Epd) : (withEpd f s).pending = s.pending := rfl
@[simp] theorem withEpd_free (f : Epd → Epd) : (withEpd f s).free = s.free := rfl
@[simp] theorem withEpd_clk (f : Epd → Epd) : (withEpd f s).clk = s.clk := rfl
@[simp] theorem withEpd_regs (f : Epd → Epd) : (withEpd f s).regs = s.regs := rfl
@[simp] theorem withEpd_hif (f : Epd → Epd) : (withEpd f s).hif = s.hif := rfl
@[simp] theorem withEpd_sec (f : Epd → Epd) : (withEpd f s).sec = s.sec := rfl
@[simp] theorem withEpd_avl (f : Epd → Epd) : (withEpd f s).avl = s.avl := rfl
@[simp] theorem withEpd_twin (f : Epd → Epd) : (withEpd f s).twin = s.twin := rfl
@[simp] theorem withEpd_avs (f : Epd → Epd) : (withEpd f s).avs = s.avs := rfl
@[simp] theorem withEpd_chans (f : Epd → Epd) : (withEpd f s).chans = s.chans := rfl
@[simp] theorem withEpd_rtps (f : Epd → Epd) : (withEpd f s).rtps = s.rtps := rfl
@[simp] theorem withEpd_tps (f : Epd → Epd) : (withEpd f s).tps = s.tps := rfl
@[simp] theorem withEpd_tpio (f : Epd → Epd) : (withEpd f s).tpio = s.tpio := rfl
@[simp] theorem withEpd_links (f : Epd → Epd) : (withEpd f s).links = s.links := rfl
@[simp] theorem withEpd_rxcs (f : Epd → Epd) : (withEpd f s).rxcs = s.rxcs := rfl
@[simp] theorem withEpd_txcs (f : Epd → Epd) : (withEpd f s).txcs = s.txcs := rfl
@[simp] theorem withEpd_groups (f : Epd → Epd) : (withEpd f s).groups = s.groups := rfl
@[simp] theorem withEpd_vpes (f : Epd → Epd) : (withEpd f s).vpes = s.vpes := rfl
@[simp] theorem withEpd_code (f : Epd → Epd) : (withEpd f s).code = s.code := rfl
@[simp] theorem withEpd_fsc (f : Epd → Epd) : (withEpd f s).fsc = s.fsc := rfl
@[simp] theorem withEpd_qmg (f : Epd → Epd) : (withEpd f s).qmg = s.qmg := rfl
@[simp] theorem withEpd_bce (f : Epd → Epd) : (withEpd f s).bce = s.bce := rfl
@[simp] theorem withEpd_tdm (f : Epd → Epd) : (withEpd f s).tdm = s.tdm := rfl
@[simp] theorem withEpd_eth (f : Epd → Epd) : (withEpd f s).eth = s.eth := rfl
@[simp] theorem withEpd_prp (f : Epd → Epd) : (withEpd f s).prp = s.prp := rfl
@[simp] theorem withEpd_dmc (f : Epd → Epd) : (withEpd f s).dmc = s.dmc := rfl
@[simp] theorem withEpd_endp (f : Epd → Epd) : (withEpd f s).endp = s.endp := rfl
@[simp] theorem withEpd_counters (f : Epd → Epd) : (withEpd f s).counters = s.counters := rfl
@[simp] theorem withEpd_figs (f : Epd → Epd) : (withEpd f s).figs = s.figs := rfl
@[simp] theorem withEpd_epd (f : Epd → Epd) : (withEpd f s).epd = f s.epd := rfl

/-! `withEntry` -/
@[simp] theorem withEntry_pending (n : Nat) (f : EpdEntry → EpdEntry) : (withEntry n f s).pending = s.pending := rfl
@[simp] theorem withEntry_free (n : Nat) (f : EpdEntry → EpdEntry) : (withEntry n f s).free = s.free := rfl
@[simp] theorem withEntry_clk (n : Nat) (f : EpdEntry → EpdEntry) : (withEntry n f s).clk = s.clk := rfl
@[simp] theorem withEntry_regs (n : Nat) (f : EpdEntry → EpdEntry) : (withEntry n f s).regs = s.regs := rfl
@[simp] theorem withEntry_hif (n : Nat) (f : EpdEntry → EpdEntry) : (withEntry n f s).hif = s.hif := rfl
@[simp] theorem withEntry_sec (n : Nat) (f : EpdEntry → EpdEntry) : (withEntry n f s).sec = s.sec := rfl
@[simp] theorem withEntry_avl (n : Nat) (f : EpdEntry → EpdEntry) : (withEntry n f s).avl = s.avl := rfl
@[simp] theorem withEntry_twin (n : Nat) (f : EpdEntry → EpdEntry) : (withEntry n f s).twin = s.twin := rfl
@[simp] theorem withEntry_avs (n : Nat) (f : EpdEntry → EpdEntry) : (withEntry n f s).avs = s.avs := rfl
@[simp] theorem withEntry_chans (n : Nat) (f : EpdEntry → EpdEntry) : (withEntry n f s).chans = s.chans := rfl
@[simp] theorem withEntry_rtps (n : Nat) (f : EpdEntry → EpdEntry) : (withEntry n f s).rtps = s.rtps := rfl
@[simp] theorem withEntry_tps (n : Nat) (f : EpdEntry → EpdEntry) : (withEntry n f s).tps = s.tps := rfl
@[simp] theorem withEntry_tpio (n : Nat) (f : EpdEntry → EpdEntry) : (withEntry n f s).tpio = s.tpio := rfl
@[simp] theorem withEntry_links (n : Nat) (f : EpdEntry → EpdEntry) : (withEntry n f s).links = s.links := rfl
@[simp] theorem withEntry_rxcs (n : Nat) (f : EpdEntry → EpdEntry) : (withEntry n f s).rxcs = s.rxcs := rfl
@[simp] theorem withEntry_txcs (n : Nat) (f : EpdEntry → EpdEntry) : (withEntry n f s).txcs = s.txcs := rfl
@[simp] theorem withEntry_groups (n : Nat) (f : EpdEntry → EpdEntry) : (withEntry n f s).groups = s.groups := rfl
@[simp] theorem withEntry_vpes (n : Nat) (f : EpdEntry → EpdEntry) : (withEntry n f s).vpes = s.vpes := rfl
@[simp] theorem withEntry_code (n : Nat) (f : EpdEntry → EpdEntry) : (withEntry n f s).code = s.code := rfl
@[simp] theorem withEntry_fsc (n : Nat) (f : EpdEntry → EpdEntry) : (withEntry n f s).fsc = s.fsc := rfl
@[simp] theorem withEntry_qmg (n : Nat) (f : EpdEntry → EpdEntry) : (withEntry n f s).qmg = s.qmg := rfl
@[simp] theorem withEntry_bce (n : Nat) (f : EpdEntry → EpdEntry) : (withEntry n f s).bce = s.bce := rfl
@[simp] theorem withEntry_tdm (n : Nat) (f : EpdEntry → EpdEntry) : (withEntry n f s).tdm = s.tdm := rfl
@[simp] theorem withEntry_eth (n : Nat) (f : EpdEntry → EpdEntry) : (withEntry n f s).eth = s.eth := rfl
@[simp] theorem withEntry_prp (n : Nat) (f : EpdEntry → EpdEntry) : (withEntry n f s).prp = s.prp := rfl
@[simp] theorem withEntry_dmc (n : Nat) (f : EpdEntry → EpdEntry) : (withEntry n f s).dmc = s.dmc := rfl
@[simp] theorem withEntry_endp (n : Nat) (f : EpdEntry → EpdEntry) : (withEntry n f s).endp = s.endp := rfl
@[simp] theorem withEntry_counters (n : Nat) (f : EpdEntry → EpdEntry) : (withEntry n f s).counters = s.counters := rfl
@[simp] theorem withEntry_figs (n : Nat) (f : EpdEntry → EpdEntry) : (withEntry n f s).figs = s.figs := rfl
@[simp] theorem withEntry_epd_entries (n : Nat) (f : EpdEntry → EpdEntry) : (withEntry n f s).epd.entries = FMap.adj s.epd.entries n f := rfl
@[simp] theorem withEntry_epd_refs (n : Nat) (f : EpdEntry → EpdEntry) : (withEntry n f s).epd.refs = s.epd.refs := rfl
@[simp] theorem withEntry_epd_kIdx (n : Nat) (f : EpdEntry → EpdEntry) : (withEntry n f s).epd.kIdx = s.epd.kIdx := rfl

/-! `withDmc` -/
@[simp] theorem withDmc_pending (f : Dmc → Dmc) : (withDmc f s).pending = s.pending := rfl
@[simp] theorem withDmc_free (f : Dmc → Dmc) : (withDmc f s).free = s.free := rfl
@[simp] theorem withDmc_clk (f : Dmc → Dmc) : (withDmc f s).clk = s.clk := rfl
@[simp] theorem withDmc_regs (f : Dmc → Dmc) : (withDmc f s).regs = s.regs := rfl
@[simp] theorem withDmc_hif (f : Dmc → Dmc) : (withDmc f s).hif = s.hif := rfl
@[simp] theorem withDmc_sec (f : Dmc → Dmc) : (withDmc f s).sec = s.sec := rfl
@[simp] theorem withDmc_avl (f : Dmc → Dmc) : (withDmc f s).avl = s.avl := rfl
@[simp] theorem withDmc_twin (f : Dmc → Dmc) : (withDmc f s).twin = s.twin := rfl
@[simp] theorem withDmc_avs (f : Dmc → Dmc) : (withDmc f s).avs = s.avs := rfl
@[simp] theorem withDmc_chans (f : Dmc → Dmc) : (withDmc f s).chans = s.chans := rfl
@[simp] theorem withDmc_rtps (f : Dmc → Dmc) : (withDmc f s).rtps = s.rtps := rfl
@[simp] theorem withDmc_tps (f : Dmc → Dmc) : (withDmc f s).tps = s.tps := rfl
@[simp] theorem withDmc_tpio (f : Dmc → Dmc) : (withDmc f s).tpio = s.tpio := rfl
@[simp] theorem withDmc_links (f : Dmc → Dmc) : (withDmc f s).links = s.links := rfl
@[simp] theorem withDmc_rxcs (f : Dmc → Dmc) : (withDmc f s).rxcs = s.rxcs := rfl
@[simp] theorem withDmc_txcs (f : Dmc → Dmc) : (withDmc f s).txcs = s.txcs := rfl
@[simp] theorem withDmc_groups (f : Dmc → Dmc) : (withDmc f s).groups = s.groups := rfl
@[simp] theorem withDmc_vpes (f : Dmc → Dmc) : (withDmc f s).vpes = s.vpes := rfl
@[simp] theorem withDmc_code (f : Dmc → Dmc) : (withDmc f s).code = s.code := rfl
@[simp] theorem withDmc_fsc (f : Dmc → Dmc) : (withDmc f s).fsc = s.fsc := rfl
@[simp] theorem withDmc_qmg (f : Dmc → Dmc) : (withDmc f s).qmg = s.qmg := rfl
@[simp] theorem withDmc_bce (f : Dmc → Dmc) : (withDmc f s).bce = s.bce := rfl
@[simp] theorem withDmc_tdm (f : Dmc → Dmc) : (withDmc f s).tdm = s.tdm := rfl
@[simp] theorem withDmc_eth (f : Dmc → Dmc) : (withDmc f s).eth = s.eth := rfl
@[simp] theorem withDmc_prp (f : Dmc → Dmc) : (withDmc f s).prp = s.prp := rfl
@[simp] theorem withDmc_epd (f : Dmc → Dmc) : (withDmc f s).epd = s.epd := rfl
@[simp] theorem withDmc_endp (f : Dmc → Dmc) : (withDmc f s).endp = s.endp := rfl
@[simp] theorem withDmc_counters (f : Dmc → Dmc) : (withDmc f s).counters = s.counters := rfl
@[simp] theorem withDmc_figs (f : Dmc → Dmc) : (withDmc f s).figs = s.figs := rfl
@[simp] theorem withDmc_dmc (f : Dmc → Dmc) : (withDmc f s).dmc = f s.dmc := rfl

end Sys2Proof.Machine
end

