-- ==== Sys2Proof/Laws/Vpe.lean ====
section
/-! SUPPORT. Laws of the VPE: what one operation issued as a bundle of its own does, slot by slot, and what going on to
the next bundle leaves alone. -/

namespace Sys2Proof.Machine

open Sys2Proof

@[simp] theorem Vpe.mask_zero (r : Vpe) : r.mask 0 = 15 := rfl
@[simp] theorem Vpe.enabled_zero (r : Vpe) : r.enabled 0 = true := by
  unfold Vpe.enabled
  rw [Vpe.mask_zero]
  rfl

@[simp] theorem mSlot_nop (m : BitVec 4) (r w : Vpe) : mSlot .nop m r w = w := rfl
@[simp] theorem xSlot_nop (fr : Nat) (r w : Vpe) : xSlot .nop fr r w = w := rfl
@[simp] theorem lSlot_nop (r w : Vpe) : lSlot .nop r w = some w := rfl
@[simp] theorem control_nop (b : Bool) (r w : Vpe) : control .nop b r w = w.advance := by cases b <;> rfl
@[simp] theorem control_off (op : VOp) (r w : Vpe) : control op false r w = w.advance := rfl

/-- A running VPE within its kernel's code and bundles issues what the four slots say. -/
theorem issue_runs {fr : Nat} {m0 m1 x l : SlotWord} {r : Vpe} (h4 : r.run = .running) (h5 : r.kBase ≤ r.pc)
    (h6 : r.pc < r.kBase + r.kLen) (h7 : r.issued < r.maxBundles) :
    issue fr m0 m1 x l r =
      let u := { r with issued := r.issued + 1 }
      let wx := if r.enabled x.1 then xSlot x.2 fr r u else u
      let wm := mSlot m1.2 (r.mask m1.1) r (mSlot m0.2 (r.mask m0.1) r wx)
      match if r.enabled l.1 then lSlot l.2 r wm else some wm with
      | none => u.fault .bounds
      | some w => control x.2 (r.enabled x.1) r w := by
  unfold issue
  rw [if_neg (by simp [h4]), if_neg (by simp; omega), if_neg (by omega)] <;> rfl

/-- An operation of the M slot on its own. -/
theorem issueOne_m {r : Vpe} {p : BitVec 4} {op : VOp} {fr : Nat} (hk : slotKind op = .m) (h4 : r.run = .running)
    (h5 : r.kBase ≤ r.pc) (h6 : r.pc < r.kBase + r.kLen) (h7 : r.issued < r.maxBundles) :
    issueOne fr p op r = (mSlot op (r.mask p) r { r with issued := r.issued + 1 }).advance := by
  unfold issueOne
  rw [hk]
  simp only
  rw [issue_runs h4 h5 h6 h7]
  simp

/-- NOP on its own. -/
theorem issueOne_nop {r : Vpe} {p : BitVec 4} {fr : Nat} (h4 : r.run = .running) (h5 : r.kBase ≤ r.pc)
    (h6 : r.pc < r.kBase + r.kLen) (h7 : r.issued < r.maxBundles) :
    issueOne fr p .nop r = Vpe.advance { r with issued := r.issued + 1 } := by
  unfold issueOne
  simp only [slotKind]
  rw [issue_runs h4 h5 h6 h7]
  simp

/-- An operation of the X slot on its own. -/
theorem issueOne_x {r : Vpe} {p : BitVec 4} {op : VOp} {fr : Nat} (hk : slotKind op = .x) (h4 : r.run = .running)
    (h5 : r.kBase ≤ r.pc) (h6 : r.pc < r.kBase + r.kLen) (h7 : r.issued < r.maxBundles) :
    issueOne fr p op r =
      if r.enabled p then control op true r (xSlot op fr r { r with issued := r.issued + 1 })
      else Vpe.advance { r with issued := r.issued + 1 } := by
  unfold issueOne
  rw [hk]
  simp only
  rw [issue_runs h4 h5 h6 h7]
  cases r.enabled p <;> simp

/-- An operation of the L slot on its own. -/
theorem issueOne_l {r : Vpe} {p : BitVec 4} {op : VOp} {fr : Nat} (hk : slotKind op = .l) (h4 : r.run = .running)
    (h5 : r.kBase ≤ r.pc) (h6 : r.pc < r.kBase + r.kLen) (h7 : r.issued < r.maxBundles) :
    issueOne fr p op r =
      if r.enabled p then
        match lSlot op r { r with issued := r.issued + 1 } with
        | none => Vpe.fault { r with issued := r.issued + 1 } .bounds
        | some w => w.advance
      else Vpe.advance { r with issued := r.issued + 1 } := by
  unfold issueOne
  rw [hk]
  simp only
  rw [issue_runs h4 h5 h6 h7]
  cases r.enabled p <;> simp

/-- A command that issues on a running VPE puts what the VPE has become and counts one bundle of its cluster. -/
theorem runVpe_runs {n : Nat} {f : Nat → Vpe → Vpe} {s : State} (h1 : n < 272) (h4 : (vpeAt s n).run = .running) :
    ∃ fr, runVpe n f s = { s with
      vpes := FMap.set s.vpes n (f s.free (vpeAt s n)), free := fr,
      fsc := { s.fsc with pace := FMap.set s.fsc.pace (n / 16) (FMap.getD s.fsc.pace (n / 16) 0 + 1) } } := by
  refine ⟨if (f s.free (vpeAt s n)).moves = (vpeAt s n).moves then s.free else s.free + 1, ?_⟩
  unfold runVpe
  rw [if_neg (by omega)]
  simp only
  rw [if_neg (by simp [h4])]
  rfl

/-- What bringing an exact value into `w` bits gives. -/
theorem narrowTo_spec (w : Nat) (hw : 0 < w) (sat : Bool) (t : Int) :
    (narrowTo w sat t).1.toInt =
      (if sat then max (-(2 ^ (w - 1))) (min (2 ^ (w - 1) - 1) t) else t.bmod (2 ^ w)) ∧
    ((narrowTo w sat t).2 = true ↔ t < -(2 ^ (w - 1)) ∨ 2 ^ (w - 1) - 1 < t) := by
  have h2 : (2 : Int) ^ w = 2 * 2 ^ (w - 1) := by
    obtain ⟨k, rfl⟩ : ∃ k, w = k + 1 := ⟨w - 1, by omega⟩
    simp [pow_succ, mul_comm]
  have hp : (0 : Int) < 2 ^ (w - 1) := by positivity
  have bm : ∀ x : Int, -(2 ^ (w - 1)) ≤ x → x ≤ 2 ^ (w - 1) - 1 → x.bmod (2 ^ w) = x := by
    intro x h1 h3
    apply Int.bmod_eq_of_le
    · push_cast; rw [h2]; omega
    · push_cast; rw [h2]; omega
  unfold narrowTo
  by_cases h1 : t < -(2 ^ (w - 1))
  · cases sat
    · simp only [h1, if_true]; simp [BitVec.toInt_ofInt]
    · simp only [h1, if_true]; simp [BitVec.toInt_ofInt]
      rw [bm _ (by omega) (by omega)]; omega
  · by_cases h3 : 2 ^ (w - 1) - 1 < t
    · cases sat
      · simp only [h1, h3, if_true, if_false]; simp [BitVec.toInt_ofInt]
      · simp only [h1, h3, if_true, if_false]; simp [BitVec.toInt_ofInt]
        rw [bm _ (by omega) (by omega)]; omega
    · cases sat <;> simp only [h1, h3, if_false] <;> simp [BitVec.toInt_ofInt]
      rw [bm _ (by omega) (by omega)]; omega

end Sys2Proof.Machine
end

