-- ==== Sys2Proof/WellFormed.lean ====
section
/-! DEFINITION. What a sender can present: every operand within the field that carries it (R401, R412), numbers of fixed
objects within their range, and octet strings of the length their field has. A command outside these bounds spells
nothing; the meanings are total all the same. -/

namespace Sys2Proof

/-- Fields of 8, 16, 32 and 64 bits. -/
def u8 (n : Nat) : Bool := decide (n < 256)
def u16 (n : Nat) : Bool := decide (n < 65536)
/-- The number of a flow: beside those of 16 bits the rebuild flows of voice channels (log entry 105). -/
def flowKey (n : Nat) : Bool := decide (n < 131072)
def u32 (n : Nat) : Bool := decide (n < 4294967296)
def u64 (n : Nat) : Bool := decide (n < 18446744073709551616)

/-- A descriptor of a CMD ring: its ring, and a block of block_len octets where it can be read or written. -/
def CmdHdr.wf (h : CmdHdr) : Bool :=
  decide (h.ring < 512) && u32 h.blockLen &&
    (match h.block with | some b => decide (b.length = h.blockLen) | none => true)

/-- A context of RING_CTX, 64 octets (R393), or a block of OWNER_ENROL (R436), where it can be read. -/
def blockWf (b : Option Bytes) : Bool := match b with | some d => u32 d.length | none => true

/-- A received frame from its destination address on. -/
def EthFrame.wf (f : EthFrame) : Bool := decide (f.data.length ≤ 65535)

/-- A frame of a TDM port: at most 128 timeslots (R345). -/
def TdmFrame.wf (f : TdmFrame) : Bool := decide (f.slots.length ≤ 128)

/-- What MR8 gives for four channels (R455). -/
def BootEnv.wf (e : BootEnv) : Bool := decide (e.density.length = 4)

/-- A doorbell slot of a ring (R396). -/
def DbSlot.wf (d : DbSlot) : Bool := decide (d.ring < 512)

/-- The result of an op: an item of at most 65 536 octets (R293). -/
def OpRes.wf (r : OpRes) : Bool := decide (r.out.length ≤ 65536)

/-- A place of R465 that exists. -/
def UeWhere.wf (w : UeWhere) : Bool :=
  match w with
  | .vpeData v => decide (v < 272)
  | .vpeProg v => decide (v < 272)
  | .clusterEcho c => u16 c
  | .cellWord q => u16 q
  | .fscEntry f => flowKey f
  | .dramEcho c _ n => decide (c < 4) && u16 n
  | .dramEntry c _ n => decide (c < 4) && decide (n < 8388608)
  | .dramIndex c _ => decide (c < 4)
  | .dramBacklog c _ => decide (c < 4)
  | .dramEvent c _ r => decide (c < 4) && decide (r < 512)
  | .dramResume c _ n => decide (c < 4) && u32 n
  | .endpaper a _ => decide (a < 7)

/-- A place of R311: a node of a graph where it names one. -/
def IntegWhere.wf (w : IntegWhere) : Bool :=
  match w with
  | .staged f i n => u16 f && u32 i && decide (n < 12)
  | _ => true

/-- A committed configuration with offsets inside BAR0 (R531). -/
def Machine.Config479.wf (c : Machine.Config479) : Bool :=
  c.regs.all (fun e => decide (e.1 < 0x80000) && decide (e.1 % 4 = 0)) && c.gates.all (fun e => decide (e.1 < 32)) &&
    c.wake.all (fun e => decide (e.1 < 32)) && c.gains.all (fun e => decide (e.1 < 16))

/-- A well-formed command. -/
def Instr.wf (i : Instr) : Bool :=
  match i with
  | .chanSetup h => h.wf
  | .chanModify h => h.wf
  | .chanRelease h channel => h.wf && u16 channel
  | .rtpSetup h => h.wf
  | .rtpModify h => h.wf
  | .rtpRelease h context => h.wf && u16 context
  | .srtpKey h => h.wf
  | .tpSetup h => h.wf
  | .tpModify h => h.wf
  | .tpRelease h tp => h.wf && u16 tp
  | .tpKey h tp _ key => h.wf && u16 tp && decide (key.length = 16)
  | .tpCommand h tp _ => h.wf && u16 tp
  | .tpTest h tp _ durationMs count => h.wf && u16 tp && u16 durationMs && u32 count
  | .rxcSetup h => h.wf
  | .rxcModify h => h.wf
  | .rxcRelease h rx => h.wf && u16 rx
  | .rlSpi h link wlen rlen _ _ => h.wf && u8 link && u8 wlen && u8 rlen
  | .rlGainTable h => h.wf
  | .rlGainSet h link antenna entry => h.wf && u8 link && decide (antenna < 2) && u8 entry
  | .rlRealign h link => h.wf && u8 link
  | .rlCapture h rx ring ratio samples => h.wf && u16 rx && decide (ring < 512) && u8 ratio && u32 samples
  | .txcSetup h => h.wf
  | .txcModify h => h.wf
  | .txcRelease h tx => h.wf && u16 tx
  | .pttGroupSetup h => h.wf
  | .pttGroupRelease h group => h.wf && u16 group
  | .flowSetup h => h.wf
  | .flowRelease h flow => h.wf && u16 flow
  | .opSubmit h flow _ => h.wf && u16 flow
  | .opCancel h flow _ _ => h.wf && u16 flow
  | .queueSetup h => h.wf
  | .queueModify h => h.wf
  | .queueRelease h queue => h.wf && u16 queue
  | .queueFlush h queue => h.wf && u16 queue
  | .queueQuery h queue => h.wf && u16 queue
  | .qmgSweep h => h.wf
  | .bceJob h _ => h.wf
  | .bceAbort h opId => h.wf && u32 opId
  | .recFlush h => h.wf
  | .tdmCasSet h port slot _ => h.wf && decide (port < 192) && u8 slot
  | .gateListSet h => h.wf
  | .wakePatternSet h => h.wf
  | .tbuTimeSet h time => h.wf && u64 time
  | .noticeAck h code _ object => h.wf && u16 code && u32 object
  | .sessionOpen h privilege => h.wf && u8 privilege
  | .sessionProve h => h.wf
  | .sessionClose h => h.wf
  | .idKeys h => h.wf
  | .attest h challenge => h.wf && decide (challenge.length = 32)
  | .ownerEnrol h => h.wf
  | .keySet h => h.wf
  | .setupUnlock h => h.wf
  | .setupLock h => h.wf
  | .userKernelsLoad h => h.wf
  | .userKernelsClear h => h.wf
  | .epdPut h => h.wf
  | .epdDelete h _ => h.wf
  | .epdGet h _ => h.wf
  | .epdLoad h count => h.wf && u32 count
  | .epdExport h count => h.wf && u32 count
  | .epdRebuild h => h.wf
  | .epdClear h => h.wf
  | .memScrub h region => h.wf && u8 region
  | .commit h => h.wf
  | .revert h => h.wf
  | .standbyEnter h => h.wf
  | .shutdown h => h.wf
  | .imgWrite h kind => h.wf && u8 kind
  | .imgActivateMim h => h.wf
  | .imgActivateCim h => h.wf
  | .imgAcceptUntested h _ _ => h.wf
  | .imgStatus h => h.wf
  | .behaviourLockSet h => h.wf
  | .behaviourLockClear h => h.wf
  | .resetSoft h => h.wf
  | .resetDomain h domain object => h.wf && u8 domain && u32 object
  | .resetImage h => h.wf
  | .clusterMigrate h cluster => h.wf && decide (cluster < 32)
  | .selfTest h => h.wf
  | .twinPair h => h.wf
  | .twinUnpair h => h.wf
  | .twinTakeover h => h.wf
  | .twinCopyConfig h config => h.wf && config.wf
  | .mbxIdKeys _ => true
  | .mbxOwnerEnrol block => blockWf block
  | .ringCreate ring ctx => decide (ring < 512) && blockWf ctx
  | .ringReset ring ctx => decide (ring < 512) && blockWf ctx
  | .ringDestroy ring => decide (ring < 512)
  | .hifKick _ => true
  | .recoveryLoad _ => true
  | .rlEnable link => u8 link
  | .rlDisable link => u8 link
  | .ethPortDisable port _ => decide (port < 32)
  | .registerWrite offset _ _ => decide (offset < 1048576)
  | .barBadAccess _ offset => decide (offset < 1048576)
  | .powerOnReset _ _ _ => true
  | .pinReset _ _ => true
  | .startUp env => env.wf
  | .startupReady _ => true
  | .hifDomainReset => true
  | .thermalSample _ => true
  | .wakeMatch port frame => decide (port < 32) && frame.wf
  | .tick => true
  | .instanceIssue flow => flowKey flow
  | .deadlineExpiry flow inst => flowKey flow && u32 inst
  | .predTicksExpiry flow inst node => flowKey flow && u32 inst && decide (node < 12)
  | .arbitrationRound => true
  | .opDispatch vpe flow inst node => decide (vpe < 272) && flowKey flow && u32 inst && decide (node < 12)
  | .opComplete vpe res => decide (vpe < 272) && res.wf
  | .patienceExpiry flow inst node _ => flowKey flow && u32 inst && decide (node < 12)
  | .opAged flow inst node _ => flowKey flow && u32 inst && decide (node < 12)
  | .bundleIssue vpe => decide (vpe < 272)
  | .nop vpe _ => decide (vpe < 272)
  | .mul vpe _ _ => decide (vpe < 272)
  | .mac vpe _ _ => decide (vpe < 272)
  | .msu vpe _ _ => decide (vpe < 272)
  | .cmac vpe _ _ => decide (vpe < 272)
  | .cmacj vpe _ _ => decide (vpe < 272)
  | .acclr vpe _ _ => decide (vpe < 272)
  | .acadd vpe _ _ _ _ => decide (vpe < 272)
  | .acsub vpe _ _ _ _ => decide (vpe < 272)
  | .acsh vpe _ _ _ _ _ => decide (vpe < 272)
  | .acins vpe _ _ _ _ => decide (vpe < 272)
  | .spl vpe _ _ _ _ => decide (vpe < 272)
  | .nrw vpe _ _ _ _ _ => decide (vpe < 272)
  | .expa vpe _ _ _ => decide (vpe < 272)
  | .norma vpe _ _ _ => decide (vpe < 272)
  | .vadd vpe _ _ => decide (vpe < 272)
  | .vsub vpe _ _ => decide (vpe < 272)
  | .vmax vpe _ _ => decide (vpe < 272)
  | .vmin vpe _ _ => decide (vpe < 272)
  | .vabs vpe _ _ => decide (vpe < 272)
  | .vneg vpe _ _ => decide (vpe < 272)
  | .vshl vpe _ _ => decide (vpe < 272)
  | .vshr vpe _ _ => decide (vpe < 272)
  | .vand vpe _ _ => decide (vpe < 272)
  | .vor vpe _ _ => decide (vpe < 272)
  | .vxor vpe _ _ => decide (vpe < 272)
  | .exp vpe _ _ => decide (vpe < 272)
  | .norm vpe _ _ => decide (vpe < 272)
  | .bexp vpe _ _ => decide (vpe < 272)
  | .vshlv vpe _ _ => decide (vpe < 272)
  | .vcmpgt vpe _ _ => decide (vpe < 272)
  | .vcmpeq vpe _ _ => decide (vpe < 272)
  | .vsel vpe _ _ => decide (vpe < 272)
  | .vmov vpe _ _ => decide (vpe < 272)
  | .ld vpe _ _ => decide (vpe < 272)
  | .st vpe _ _ => decide (vpe < 272)
  | .ld2 vpe _ _ => decide (vpe < 272)
  | .ldst vpe _ _ => decide (vpe < 272)
  | .lds vpe _ _ => decide (vpe < 272)
  | .sts vpe _ _ => decide (vpe < 272)
  | .movi vpe _ _ _ => decide (vpe < 272)
  | .aluAdd vpe _ _ => decide (vpe < 272)
  | .aluSub vpe _ _ => decide (vpe < 272)
  | .aluAnd vpe _ _ => decide (vpe < 272)
  | .aluOr vpe _ _ => decide (vpe < 272)
  | .aluXor vpe _ _ => decide (vpe < 272)
  | .aluShl vpe _ _ => decide (vpe < 272)
  | .aluShr vpe _ _ => decide (vpe < 272)
  | .aluShru vpe _ _ => decide (vpe < 272)
  | .aluMul vpe _ _ => decide (vpe < 272)
  | .aluMin vpe _ _ => decide (vpe < 272)
  | .aluMax vpe _ _ => decide (vpe < 272)
  | .aluMov vpe _ _ _ => decide (vpe < 272)
  | .addi vpe _ _ _ _ => decide (vpe < 272)
  | .br vpe _ _ => decide (vpe < 272)
  | .loop vpe _ _ => decide (vpe < 272)
  | .vbc vpe _ _ _ => decide (vpe < 272)
  | .vext vpe _ _ _ _ => decide (vpe < 272)
  | .valn vpe _ _ _ _ _ => decide (vpe < 272)
  | .cmv vpe _ _ => decide (vpe < 272)
  | .waitm vpe _ => decide (vpe < 272)
  | .stop vpe _ => decide (vpe < 272)
  | .fail vpe _ _ => decide (vpe < 272)
  | .pset vpe _ _ _ => decide (vpe < 272)
  | .itemEndMark queue _ => u16 queue
  | .cellReserve queue cells _ => u16 queue && decide (cells ≤ 1024)
  | .take queue => u16 queue
  | .read queue words => u16 queue && u32 words
  | .finish queue => u16 queue
  | .dropRest queue => u16 queue
  | .queueIntegrity queue place cell => u16 queue && place.wf && u32 cell
  | .sweepStart => true
  | .sweepDone => true
  | .tdmRxFrame port frame => decide (port < 192) && frame.wf
  | .tdmTxFrame port _ => decide (port < 192)
  | .tdmAlarm port _ _ _ => decide (port < 192)
  | .crc4AutoTimeout port => decide (port < 192)
  | .ethRxFrame port frame => decide (port < 32) && frame.wf
  | .ethTxStart port _ => decide (port < 32)
  | .ethLinkChange port _ => decide (port < 32)
  | .gateListSwitch port _ => decide (port < 32)
  | .lpiEnter port _ => decide (port < 32)
  | .lpiWake port _ => decide (port < 32)
  | .prpSvSend pair _ => decide (pair < 16)
  | .prpEntryTimeout pair src _ => decide (pair < 16) && decide (src < 2 ^ 48)
  | .ptpMessageRx port _ _ => decide (port < 32)
  | .ptpInterval port kind _ => decide (port < 32) && u8 kind
  | .ppsEdge _ _ => true
  | .tbuRefUpdate code _ => decide (code < 16)
  | .sysrefEdge link _ _ _ => u8 link
  | .rlLinkState link state reason _ => u8 link && decide (state < 4) && decide (reason < 5)
  | .gainWindowDecision link antenna _ _ _ _ => u8 link && decide (antenna < 2)
  | .gainWriteDone link antenna _ => u8 link && decide (antenna < 2)
  | .channelGainUpdate rx _ => u16 rx
  | .detectWindow rx sfs _ => u16 rx && sfs.all (fun f => decide (5 ≤ f) && decide (f ≤ 12))
  | .energyWindow rx _ _ _ => u16 rx
  | .energySpanExpiry rx _ => u16 rx
  | .headerResult rx inst _ _ => u16 rx && u32 inst
  | .rxFrameEnd rx inst _ sf quality len lag _ =>
    u16 rx && u32 inst && decide (5 ≤ sf) && decide (sf ≤ 12) && u8 quality && u8 len && decide (lag ≤ 2)
  | .radioTxRequest ring _ _ _ => decide (ring < 512)
  | .txLaunch tx _ _ standing => u16 tx && u32 standing
  | .txComplete tx _ _ => u16 tx
  | .pttHangExpiry group _ => u16 group
  | .ttuDecision tp k _ => u16 tp && decide (k < 8000)
  | .guardAlarmExpiry tp _ => u16 tp
  | .tpioSample _ _ => true
  | .tpHeartbeat tp _ => u16 tp
  | .tpRxFrame tp _ _ => u16 tp
  | .tpOutMinExpiry tp cmd _ => u16 tp && decide (cmd < 4)
  | .tpLinkTimeout tp _ => u16 tp
  | .tpTestPhase tp _ => u16 tp
  | .rtpRxPacket context src srcPort _ _ => u16 context && decide (src.length = 4 || src.length = 16) && u16 srcPort
  | .rtcpRx context src srcPort _ _ => u16 context && decide (src.length = 4 || src.length = 16) && u16 srcPort
  | .rtcpReportTimer context _ => u16 context
  | .rxTimeoutExpiry context _ => u16 context
  | .driftEstimate context channel _ => u16 context && u16 channel
  | .dtmfRegenTimeout channel _ => u16 channel
  | .toneDisablerRelease channel _ => u16 channel
  | .avsStep _ _ _ => true
  | .avsRetry _ _ => true
  | .doorbellPoll slots _ _ => slots.all DbSlot.wf
  | .ptxItem ring descs _ => decide (ring < 512) && decide (descs ≠ [])
  | .prxItemWrite ring _ _ => decide (ring < 512)
  | .rxHoldExpiry ring _ => decide (ring < 512)
  | .eventWrite ring _ => decide (ring < 512)
  | .indexSlotWrite ring _ _ => decide (ring < 512)
  | .dmaRetry ring _ => decide (ring < 512)
  | .msixSend vector _ => decide (vector < 64)
  | .statsBlock _ _ => true
  | .progressTimer opId position _ => u32 opId && u64 position
  | .bceJobDone opId => u32 opId
  | .resumeHandleExpiry handle _ => u32 handle
  | .recSegmentWrite _ _ => true
  | .sessionIdleTimeout ring _ => decide (ring < 512)
  | .nonceExpiry ring _ => decide (ring < 512)
  | .unlockExpiry _ => true
  | .backoffExpiry privilege _ => u8 privilege
  | .scrubPass region _ => u8 region
  | .dramTimingCorrect channel _ => decide (channel < 4)
  | .memoryUe place => place.wf
  | .epdRebuildSwitch => true
  | .lifetimeWrite _ => true
  | .rotationTimer _ => true
  | .flowMigrate flow => flowKey flow
  | .selfTestDone _ => true
  | .knownGoodTimer _ => true
  | .cimHandover => true
  | .watchdogRestart => true
  | .twinLinkState _ _ _ _ _ => true
  | .twinCheckpoint _ => true
  | .twinCheckpointApply _ _ _ _ => true
  | .twinAutoTakeover _ => true
  | .stealAgeExpiry vpe _ => decide (vpe < 272)
  | .configurationRequest offset => decide (offset < 1048576)
  | .loReadCapture offset => decide (offset < 1048576)
  | .imgWriteDone _ => true
  | .userKernelsLoadDone => true
  | .epdLoadDone => true
  | .epdExportDone => true
  | .captureSegment rx _ _ _ => u16 rx
  | .clusterMimLoaded cluster _ => decide (cluster < 32)
  | .standbyReady => true

end Sys2Proof
end

