-- ==== Sys2Proof/Tests/Slice0.lean ====
section
/-! SUPPORT. Tests: the smoke test of WellFormed, small steps checked against the spec's own numbers, and for each statement a
witness that states and operands meet its hypotheses. -/

namespace Sys2Proof.Tests

open Sys2Proof Sys2Proof.Machine

set_option Elab.async false

/-! ### Small states and operands -/

/-- A block of `n` octets, zero but for the listed ones. -/
def bk (n : Nat) (l : List (Nat × Nat)) : Bytes :=
  (List.range n).map (fun i => match l.find? (fun e => e.1 == i) with | some e => BitVec.ofNat 8 e.2 | none => 0)

/-- The header of a command on ring 0 with a block, and without one. -/
def hb (b : Bytes) : CmdHdr := { ring := 0, tag := 7, clean := true, blockLen := b.length, block := some b }
def hp : CmdHdr := { ring := 0, tag := 7, clean := true, blockLen := 0, block := none }

/-- A context of 64 entries. -/
def ctxOf (ty : RingType) : RingCtx :=
  { ty, target := 0, level := 1, gen := 0, log2 := 6, vector := 0, irqEn := false, ringAddr := 0, bufAddr := 0, bufSize := 0,
    holdUs := 0, cplRing := if ty = .cmd then 1 else 0, evtRing := if ty = .cmd then 2 else 0, queue := 0 }

/-- The device in service in its bring-up window, with CMD ring 0, CPL ring 1 and EVT ring 2. -/
def up : State :=
  { State.reset with
    avl := { Avail.reset with stage := 7 }
    hif := { Hif.reset with rings :=
      [(0, { Ring.fresh (ctxOf .cmd) with hostIdx := 60 }), (1, Ring.fresh (ctxOf .cpl)), (2, Ring.fresh (ctxOf .evt))] } }

/-- The state after a command. -/
def after (i : Instr) (s : State) : State := match exec i s with | .next t => t | _ => s


/-- `Ready`, decided. -/
def rdy (c : CmdSpec) (h : CmdHdr) (s : State) : Bool := takeable s h.ring && preStatus c h s == St.ok

theorem rdy_of {c : CmdSpec} {h : CmdHdr} {s : State} (k : rdy c h s = true) : Ready c h s := by
  simp only [rdy, Bool.and_eq_true, beq_iff_eq] at k
  exact k

/-- VPE 271 runs a kernel of four bundles in a window of lines 0 to 100. -/
def vr : Vpe := { Vpe.initial with run := .running, kLen := 4, maxBundles := 10, wHi := 100, maxOut := 8 }
def vs (r : Vpe) : State := { up with vpes := [(271, r)] }


/-! ### Ill-formed commands: each check of WellFormed refuses one -/

theorem test_ill_formed_headers :
    (Instr.commit { hp with ring := 512 }).wf = false ∧ (Instr.commit { hp with blockLen := 2 ^ 32 }).wf = false ∧
    (Instr.chanSetup { hp with blockLen := 2, block := some [0] }).wf = false ∧ (Instr.chanSetup hp).wf = true := by decide

theorem test_ill_formed_fields :
    (Instr.memScrub hp 256).wf = false ∧ (Instr.chanRelease hp 65536).wf = false ∧ (Instr.bceAbort hp (2 ^ 32)).wf = false ∧
    (Instr.tbuTimeSet hp (2 ^ 64)).wf = false ∧ (Instr.memScrub hp 255).wf = true ∧ (Instr.chanRelease hp 65535).wf = true ∧
    (Instr.bceAbort hp (2 ^ 32 - 1)).wf = true ∧ (Instr.tbuTimeSet hp (2 ^ 64 - 1)).wf = true := by decide

theorem test_ill_formed_numbers :
    (Instr.bundleIssue 272).wf = false ∧ (Instr.bundleIssue 271).wf = true ∧ (Instr.ringDestroy 512).wf = false ∧
    (Instr.ethLinkChange 32 true).wf = false ∧ (Instr.tdmTxFrame 192 0).wf = false ∧ (Instr.clusterMigrate hp 32).wf = false ∧
    (Instr.rlGainSet hp 0 2 0).wf = false ∧ (Instr.predTicksExpiry 0 0 12).wf = false ∧ (Instr.cellReserve 0 1025 false).wf = false ∧
    (Instr.msixSend 64 0).wf = false ∧ (Instr.prpSvSend 16 0).wf = false ∧ (Instr.prpEntryTimeout 0 (2 ^ 48) 0).wf = false ∧
    (Instr.tbuRefUpdate 16 true).wf = false ∧ (Instr.tpOutMinExpiry 0 4 0).wf = false ∧ (Instr.dramTimingCorrect 4 0).wf = false ∧
    (Instr.rlLinkState 0 4 0 0).wf = false ∧ (Instr.rlLinkState 0 0 5 0).wf = false ∧ (Instr.configurationRequest 1048576).wf = false := by
  decide

theorem test_ill_formed_strings :
    (Instr.tpKey hp 0 false []).wf = false ∧ (Instr.attest hp (zeros 31)).wf = false ∧ (Instr.ptxItem 0 [] 0).wf = false ∧
    (Instr.rtpRxPacket 0 (zeros 5) 0 [] 0).wf = false ∧ (Instr.rtpRxPacket 0 (zeros 16) 0 [] 0).wf = true := by decide

theorem test_ill_formed_parts :
    TdmFrame.wf ⟨zeros 129, false, 0⟩ = false ∧
    BootEnv.wf ⟨false, [2], true, true, true, true, true⟩ = false ∧ DbSlot.wf ⟨512, 0, 0⟩ = false ∧
    (Instr.detectWindow 0 [4] 0).wf = false ∧ (Instr.detectWindow 0 [13] 0).wf = false ∧ (Instr.rxFrameEnd 0 0 1 13 0 1 0 0).wf = false ∧
    (Instr.rxFrameEnd 0 0 1 7 0 1 3 0).wf = false ∧
    (UeWhere.vpeData 272).wf = false ∧ (UeWhere.endpaper 7 false).wf = false ∧ (IntegWhere.staged 0 0 12).wf = false ∧
    Machine.Config479.wf ⟨[(2, 0)], [], [], []⟩ = false ∧ Machine.Config479.wf ⟨[], [], [], []⟩ = true := by decide +kernel

theorem test_ill_formed_lengths :
    EthFrame.wf ⟨zeros (2 ^ 16), 0, false, 0, 0⟩ = false ∧ EthFrame.wf ⟨zeros (2 ^ 16 - 1), 0, false, 0, 0⟩ = true ∧
    OpRes.wf ⟨none, zeros (2 ^ 16 + 1), [], false⟩ = false := by
  unfold EthFrame.wf OpRes.wf zeros
  rw [List.length_replicate, List.length_replicate, List.length_replicate]
  decide

/-! ### VPE operations -/

/-- The conditions of `VpeAble`, decided. -/
def ableB (s : State) (n : Nat) (p : BitVec 4) (op : VOp) : Bool :=
  decide (n < 272) && p != 8 && opOk op && (vpeAt s n).run == .running && decide ((vpeAt s n).kBase ≤ (vpeAt s n).pc) &&
    decide ((vpeAt s n).pc < (vpeAt s n).kBase + (vpeAt s n).kLen) && decide ((vpeAt s n).issued < (vpeAt s n).maxBundles)

theorem able_of {s : State} {n : Nat} {p : BitVec 4} {op : VOp} (h : ableB s n p op = true) : VpeAble s n p op := by
  simp only [ableB, Bool.and_eq_true, decide_eq_true_eq, bne_iff_ne, beq_iff_eq] at h
  obtain ⟨⟨⟨⟨⟨⟨a, b⟩, c⟩, d⟩, e⟩, f⟩, g⟩ := h
  exact ⟨a, b, c, d, e, f, g⟩

theorem all_able {s : State} {n : Nat} {p : BitVec 4} {l : List VOp} (h : l.all (ableB s n p) = true) :
    ∀ op ∈ l, VpeAble s n p op := fun op m => able_of (List.all_eq_true.mp h op m)


theorem test_mul_writes_product :
    let r := { vr with v := (vr.v.set 1 ⟨3, 0, 0, -2⟩).set 2 ⟨5, 0, 0, 7⟩ }
    ((vpeAt (after (.mul 271 0 ⟨0, 1, 2, 0, false⟩) (vs r)) 271).getAC 0).lane 3 = -14 := by decide +kernel

theorem test_vadd_saturates :
    let r := { vr with v := vr.v.set 1 ⟨0x1FFFF, 0, 0, 0⟩ }
    let u := vpeAt (after (.vadd 271 0 ⟨2, 1, 1, 0, true, false⟩) (vs r)) 271
    (u.getV 2).lane 0 = 0x1FFFF ∧ u.vst.getLsbD 0 = true := by decide +kernel

theorem test_disabled_x_slot_goes_on :
    (vpeAt (after (.movi 271 1 0 5) (vs vr)) 271).getS 0 = 0 ∧ (vpeAt (after (.movi 271 1 0 5) (vs vr)) 271).pc = 1 := by
  decide +kernel

theorem test_movi_writes : (vpeAt (after (.movi 271 0 3 0xFFFF) (vs vr)) 271).getS 3 = -1 := by decide +kernel

theorem test_load_outside_faults :
    (vpeAt (after (.ld 271 0 ⟨0, 0, 0, 0, 0, 0⟩) (vs { vr with p := vr.p.set 0 101 })) 271).run = .faulted .bounds 0 := by
  decide +kernel

theorem test_loop_of_zero_passes_its_body :
    (vpeAt (after (.loop 271 0 ⟨2, false, 1, false, 0⟩) (vs vr)) 271).pc = 3 := by decide +kernel

theorem witness_VpeAccumulatorOpsWriteTheirLanes :
    ∀ op ∈ [VOp.mul ⟨0, 0, 0, 0, false⟩, .mac ⟨7, 31, 31, 7, true⟩, .msu ⟨0, 0, 0, 0, false⟩, .cmac ⟨0, 0, 0, true, false⟩,
      .cmacj ⟨0, 0, 0, false, false⟩, .acclr 7, .acadd 0 1 true, .acsub 0 1 true, .acsh 0 1 0x51 true, .acins 0 1 2],
    VpeAble (vs vr) 271 0 op := all_able (by decide +kernel)

/-- Fields of the MV format. -/
def vf : VF := ⟨31, 0, 1, 3, true, true⟩

theorem witness_VpeVectorOpsWriteTheirLanes :
    (∀ op ∈ [VOp.vadd vf, .vsub vf, .vmax vf, .vmin vf, .vabs vf, .vneg vf, .vshl vf, .vshr vf, .vand vf, .vor vf, .vxor vf,
      .exp vf, .norm vf, .bexp vf, .vshlv vf, .vmov vf, .vsel vf, .spl 31 0 1, .nrw 0 31 17 true, .expa 0 31],
      VpeAble (vs vr) 271 0 op) := all_able (by decide +kernel)

theorem witness_VpeComparesWriteTheirPredicate :
    ∀ op ∈ [VOp.vcmpgt ⟨1, 0, 1, 0, false, false⟩, .vcmpeq ⟨3, 0, 1, 0, false, false⟩], VpeAble (vs vr) 271 0 op :=
  all_able (by decide +kernel)

/-- The L format with both accesses at pointers 0 and 1. -/
def lf : LF := ⟨2, 0, 1, 4, 1, 1⟩

theorem witness_VpeLoadsReadTheirLines : vr.enabled 0 = true ∧ vr.loadable (vr.getP lf.pa).toNat = true ∧
    vr.loadable (vr.getP lf.pb).toNat = true ∧ ∀ op ∈ [VOp.ld lf, .ld2 lf, .lds lf], VpeAble (vs vr) 271 0 op :=
  ⟨by decide +kernel, by decide +kernel, by decide +kernel, all_able (by decide +kernel)⟩

/-- R226's example, R227's sequence, and the three clauses of a pointer's update. -/
theorem test_pointer_updates :
    stepPtr 1255 1000 256 false 2 = 1001 ∧ stepPtr 0 0 512 true 1 = 256 ∧ stepPtr 256 0 512 true 1 = 128 ∧
    stepPtr 32767 0 0 false 1 = 0 ∧ vr.next 1 7 0 = 7 ∧ vr.next 1 7 4 = 5 ∧ (vr.setCode 0x21 8).next 1 9 1 = 2 := by decide +kernel

theorem witness_VpeStoresWriteOneLine : vr.inWindow (vr.getP lf.pa).toNat = true ∧ vr.inWindow (vr.getP lf.pb).toNat = true ∧
    ∀ op ∈ [VOp.st lf, .sts lf, .ldst lf], VpeAble (vs vr) 271 0 op :=
  ⟨by decide +kernel, by decide +kernel, all_able (by decide +kernel)⟩

theorem witness_VpeAccessOutOfBoundsFaults :
    let r := { vr with p := (vr.p.set 0 101).set 1 30719 }
    ¬ ((r.wLo ≤ (r.getP lf.pa).toNat ∧ (r.getP lf.pa).toNat ≤ r.wHi) ∨ 30720 ≤ (r.getP lf.pa).toNat) ∧
    ¬ (r.wLo ≤ (r.getP lf.pb).toNat ∧ (r.getP lf.pb).toNat ≤ r.wHi) ∧
    ∀ op ∈ [VOp.ld lf, .lds lf, .st lf, .sts lf, .ld2 lf, .ldst lf], VpeAble (vs r) 271 0 op :=
  ⟨by decide +kernel, by decide +kernel, all_able (by decide +kernel)⟩

/-- Register codes of a scalar operation: S0, S1 and VST. -/
def xf : XF := ⟨0, 1, 0x33⟩

theorem witness_VpeScalarOpsWriteTheirRegister :
    ∀ op ∈ [VOp.movi 0 0xFFFF, .aluAdd xf, .aluSub xf, .aluMul xf, .aluMin xf, .aluMax xf, .aluAnd xf, .aluOr xf, .aluXor xf,
      .aluShl xf, .aluShru xf, .aluShr xf, .aluMov 0 0x10, .addi 0 1 0x3FF, .pset 0x29 3, .vext 15 31 3, .vbc 31 15,
      .valn 31 0 1 4], VpeAble (vs vr) 271 0 op := all_able (by decide +kernel)

theorem witness_VpeRegisterCodesReachOneRegister : codeOk 0 = true ∧ codeOk 0x34 = true ∧ codeOk 0x35 = false := by decide

theorem witness_VpeControlOpsGoWhereTheySay :
    let r := { vr with loop0 := some ⟨0, 2, 1, 4, false⟩, lc0 := 3 }
    (∀ op ∈ [VOp.nop, .br 3, .loop ⟨2, true, 1, false, 0⟩, .stop, .fail 255, .waitm, .cmv 15, .norma 1 0],
      VpeAble (vs r) 271 0 op) ∧
    (vr.getS 0).toNat % 65536 = 0 ∧ 0 < (({ vr with s := vr.s.set 0 1 } : Vpe).getS 0).toNat % 65536 ∧
    (r.getLoop false).isSome = true ∧ (r.getLoop true).isNone = true ∧ vr.enabled 0 = true :=
  ⟨all_able (by decide +kernel), by decide +kernel, by decide +kernel, by decide +kernel, by decide +kernel, by decide +kernel⟩

theorem witness_VpeIterationBoundary :
    let w := { vr with loop0 := some ⟨1, 3, 1, 2, true⟩, lc0 := 1, pc := 3 }
    w.getLoop false = some ⟨1, 3, 1, 2, true⟩ ∧ w.getLoop true = none ∧ 1 ≤ (w.getLC false).toNat ∧
    ({ w with lc0 := 2 } : Vpe).getLC false = 2 := by decide +kernel

theorem witness_VpeDisabledSlotDoesNothing : vr.enabled 1 = false ∧
    ∀ op ∈ [VOp.ld lf, .st lf, .ldst lf, .aluAdd xf, .movi 0 1, .br 3, .loop ⟨2, true, 1, false, 0⟩, .stop, .fail 1],
      VpeAble (vs vr) 271 1 op := ⟨by decide +kernel, all_able (by decide +kernel)⟩

theorem witness_VpeBundleFaults :
    ({ vr with pc := 4 } : Vpe).kBase + ({ vr with pc := 4 } : Vpe).kLen ≤ 4 ∧ vr.issued < vr.maxBundles ∧
    ({ vr with issued := 10 } : Vpe).maxBundles ≤ 10 ∧ vr.run = .running ∧ decodeBundle (0x3E#128) = none := by decide +kernel

theorem witness_BundlesReadThenWrite :
    let b := encodeBundle (0, .vmov ⟨0, 1, 0, 0, false, false⟩) (0, .vmov ⟨1, 0, 0, 0, false, false⟩) (0, .nop) (0, .nop)
    let s := { vs vr with code := [(0, ⟨[], [(0, b)], []⟩)] }
    let c := encodeBundle (0, .nop) (0, .nop) (0, .movi 0 1) (0, .nop)
    FMap.getD (codeAt s 271).prog 0 0 = b ∧ physV vr.rot 0 ≠ physV vr.rot 1 ∧ opOk (.movi 0 1) = true ∧
    FMap.getD (codeAt { vs vr with code := [(0, ⟨[], [(0, c)], []⟩)] } 271).prog 0 0 = c := by decide +kernel

theorem witness_BundleDecodesAsEncoded :
    opOk (.acsh 7 7 0x51 true) = true ∧ slotFits .m (.acsh 7 7 0x51 true) = true ∧ opOk (.aluMov 0x34 0) = true ∧
    slotFits .x (.aluMov 0x34 0) = true ∧ opOk (.ldst lf) = true ∧ slotFits .l (.ldst lf) = true := by decide +kernel

theorem witness_DecodedBundleIsLoadable : (decodeBundle 0).isSome = true := by decide +kernel

/-! Words written out from the formats of R219 and the opcodes of R239. -/

/-- A bundle whose slots are given from M0 to L. -/
def bundle (m0 m1 x l : BitVec 32) : BitVec 128 := l ++ x ++ m1 ++ m0

theorem test_decode_mul : decodeBundle (bundle 0b0010_000001_011_00101_00111_100_1_00000 0 0 0) =
    some ((2, .mul ⟨3, 5, 7, 4, true⟩), (0, .nop), (0, .nop), (0, .nop)) := by decide +kernel

theorem test_decode_nrw : decodeBundle (bundle 0 0b0000_010000_001_00010_010001_00_1_00000 0 0) =
    some ((0, .nop), (0, .nrw 1 2 17 true), (0, .nop), (0, .nop)) := by decide +kernel

theorem test_decode_ld : decodeBundle (bundle 0 0 0 0b1001_000001_01001_010_001_00000_000_000) =
    some ((0, .nop), (0, .nop), (0, .nop), (9, .ld ⟨9, 2, 1, 0, 0, 0⟩)) := by decide +kernel

theorem test_decode_addi : decodeBundle (bundle 0 0 0b0000_000011_010000_000001_1111111111 0) =
    some ((0, .nop), (0, .nop), (0, .addi 0x10 1 0x3FF), (0, .nop)) := by decide +kernel

theorem test_decode_loop : decodeBundle (bundle 0 0 0b0000_000101_000000000101_1_10_1_0100_00 0) =
    some ((0, .nop), (0, .nop), (0, .loop ⟨5, true, 2, true, 4⟩), (0, .nop)) := by decide +kernel

theorem test_decode_refuses_reserved :
    decodeBundle (bundle 0b0000_000110_0000000000000000000000 0 0 0) = none ∧
    decodeBundle (bundle 0b1000_001000_0000000000000000000000 0 0 0) = none ∧
    decodeBundle (bundle 0b0000_000001_000_00000_00000_001_0_00000 0 0 0) = none := by decide +kernel

/-! ### Flow scheduler -/

/-- A user kernel that class C1 may run. -/
def kern : Kernel := ⟨0xF000, true, 3584, 2, 32512, 0, 0, 10, 8, 8, 3584, 2, 100⟩

/-- A device with that kernel. -/
def upk : State := { up with code := [(0, ⟨[kern], [], []⟩)] }

/-- FLOW_SETUP of flow 57 344: class C1, one node of the kernel, deadline 10 ticks; paced where a period is given. -/
def flowB (period : Nat) : Bytes :=
  bk 256 [(1, 0xE0), (2, 1), (3, 0xF1), (4, period), (6, 10), (0x0C, 31), (0x41, 0xF0), (0x44, 0xFF), (0x45, 0xFF), (0x46, 0xFF),
    (0x47, 0xFF), (0x4C, 0x0F)]

/-- A device with the flow, whose home is VPE 0, and with its op in a state. -/
def upf (insts : List Inst) (stalled : List (Nat × Nat)) : State :=
  { upk with fsc := { Fsc.reset with flows := [(57344, { flowOf 0 0 (flowB 0) with insts, stalled, nextNum := 1 })] } }
def opIn (st : OpSt) (loc : OpLoc) : Inst := ⟨0, 5, some 15, [{ Op.fresh 0 with st, loc }], false, false⟩

theorem test_flow_setup_is_paced :
    (after (.flowSetup (hb (flowB 4))) upk).fsc.delay = [(4, 57344, 0)] := by decide +kernel

theorem test_op_submit_returns_the_next_number :
    ((flow? (after (.opSubmit hp 57344 0) (upf [] [])) 57344).map (·.nextNum)) = some 2 := by decide +kernel

theorem test_tick_counts : (after .tick up).clk.tick = 1 := by decide +kernel

theorem witness_FlowCommandsReachTheScheduler :
    Ready (blockCmd 0x0151 2 256 true) (hb (flowB 4)) upk ∧ flowSetupStatus (take 0 upk) (flowB 4) = St.ok ∧
    Ready (plainCmd 0x0152 2) hp (upf [] []) ∧ flowLive (upf [] []) 57344 = true ∧
    (flow? (upf [] []) 57344).isSome = true ∧ (flowOf 0 0 (flowB 0)).period = 0 ∧
    [opIn .ready .global].find? (fun y => y.num % 2 ^ 32 == (0#32).toNat) = some (opIn .ready .global) :=
  ⟨rdy_of (by decide +kernel), by decide +kernel, rdy_of (by decide +kernel), by decide +kernel, by decide +kernel,
    by decide +kernel, by decide +kernel⟩

theorem witness_InstanceIsIssuedWhole :
    let s := upf [] [(0, 5)]
    ∃ fl, flow? s 57344 = some fl ∧ fl.stalled = (0, 5) :: [] ∧ windowRoom fl = true ∧ slotRoom s fl = true ∧ alive s = true :=
  ⟨{ flowOf 0 0 (flowB 0) with insts := [], stalled := [(0, 5)], nextNum := 1 }, by decide +kernel, rfl, by decide +kernel,
    by decide +kernel, by decide +kernel⟩

theorem witness_ReadyOpsMoveWithTime :
    (∃ o, opAt (upf [opIn .ready (.vpe 3)] []) 57344 0 0 = some o ∧ o.st = .ready ∧ o.loc = .vpe 3 ∧
      o.readyAt + vpePatNs (upf [opIn .ready (.vpe 3)] []) 1 ≤ 40000) ∧
    (∃ o, opAt (upf [opIn .ready (.cluster 0)] []) 57344 0 0 = some o ∧ o.st = .ready ∧ o.loc = .cluster 0 ∧
      o.readyAt + clPatNs (upf [opIn .ready (.cluster 0)] []) 1 ≤ 150000) ∧
    (ageNs (upf [] []) 2 = some 2000000 ∧ (opIn .ready .global).ops.all (fun o => !o.aged) = true) ∧
    (vpeAt { upf [opIn .dispatched .none] [] with vpes := [(271, { vr with op := some (57344, 0, 0) })] } 271).op =
      some (57344, 0, 0) :=
  ⟨⟨{ Op.fresh 0 with st := .ready, loc := .vpe 3 }, by decide +kernel, rfl, rfl, by decide +kernel⟩,
    ⟨{ Op.fresh 0 with st := .ready, loc := .cluster 0 }, by decide +kernel, rfl, rfl, by decide +kernel⟩, by decide +kernel,
    by decide +kernel⟩

theorem witness_DispatchLoadsTheVpe :
    (let s := upf [opIn .ready (.vpe 3)] []
     alive s = true ∧ roundDue s = false ∧ vpeFree s 3 = true ∧ bestFor s 3 57344 0 0 = true ∧ (opAt s 57344 0 0).isSome = true) ∧
    (let s := advance 5000 (upf [opIn .ready (.vpe 3)] [])
     vpeFree s 0 = true ∧ stealFor s 0 5000 = some (57344, 0, 0)) := by decide +kernel

theorem witness_RoundsDeadlinesAndTicks :
    (alive up = true ∧ up.fsc.presented = [] ∧ ((up.clk.tickAt : Int) + up.clk.offset) % (tickNs up : Nat) = 0) ∧
    (let s := { upf [opIn .ready .global] [] with clk := { Clock.reset with tick := 15 } }
     let t := settleNow (roundIf s)
     (flow? t 57344).any (fun fl => (fl.inst? 0).any (fun x => x.deadline == some 15 && decide (15 ≤ t.clk.tick) &&
       !fl.lateRelease && (openRoots x).isEmpty && !x.missed)) = true) ∧
    (let n := { (flowOf 0 0 (flowB 0)).node 0 with inQ := 8192, predKind := 2, predTicks := 3 }
     let s := { upf [] [] with
       clk := { Clock.reset with tick := 8 }
       fsc := { Fsc.reset with flows := [(57344, { flowOf 0 0 (flowB 0) with insts := [opIn .pending .none], nodes := [n] })] } }
     let t := judgePred 57344 0 0 (roundIf s)
     (flow? t 57344).any (fun fl => (fl.inst? 0).any (fun x => (x.op? 0).any (fun o => (fl.node 0).predKind == 2 &&
       o.pred == none && o.st != .released && decide (x.due + (fl.node 0).predTicks ≤ t.clk.tick)))) = true) := by
  decide +kernel

/-! ### Voice, packet voice and teleprotection -/

/-- A device with TDM port 0 in ST-BUS mode; CHAN_SETUP of channel 5 on its timeslot 4 with context 9, G.711 and 20 ms. -/
def upt : State := putFld up .tdmPortCfg 0 1 0 1
def chanB : Bytes := bk 64 [(0, 5), (6, 4), (0x0A, 9), (0x0D, 2)]

/-- RTP_SETUP of context 9 from port 5 004 to port 5 004. -/
def rtpB : Bytes := bk 128 [(0, 9), (6, 1), (0x0C, 0x8C), (0x0D, 0x13), (0x0E, 0x8C), (0x0F, 0x13), (0x1F, 13), (0x50, 1), (0x58, 0x61)]
def ctx9 : Rtp := Rtp.fresh (rtpParams rtpB) 0 0
def upc : State := { upt with rtps := [(9, ctx9)] }
def chanS (f : Chan → Chan) : State := { upc with chans := [(5, f (Chan.fresh (chanParams chanB) 0 16))] }
def rtpS (f : Rtp → Rtp) (l : FMap Chan) : State := { upt with rtps := [(9, f ctx9)], chans := l }
def ch5 : Chan := Chan.fresh (chanParams chanB) 0 16

/-- An RTP packet of 20 ms of G.711 with a valid header. -/
def rtpPkt : Bytes := bk 172 [(0, 0x80), (3, 1), (11, 1)]

/-- TP_SETUP of channel 3 with a HOST source and no sink. -/
def tpB : Bytes := bk 128 [(0, 3), (4, 3)]
def tp3 : Tp := Tp.fresh (tpParams tpB) 0 10 0
def tpS (f : Tp → Tp) : State := { up with tps := [(3, f tp3)] }

/-- A frame on link 0 with sequence number 11 and command 1 set. -/
def tpFrame : Bytes := bk 36 [(0, 0x11), (7, 11), (8, 1)]

theorem test_rtp_setup_starts_at_tx_seq_init :
    ((rtp? (after (.rtpSetup (hb rtpB)) up) 9).map (·.txSeq)) = some 0 := by decide +kernel

theorem test_rtp_release_of_a_used_context_is_refused :
    FMap.has (after (.rtpRelease hp 9) (rtpS id [(5, ch5)])).rtps 9 = true := by decide +kernel

theorem test_rtp_without_channel_counts :
    counter (after (.rtpRxPacket 9 [] 5004 rtpPkt 0) (rtpS id [])) .rtpNochan 9 = 1 := by decide +kernel

theorem test_tp_frame_raises_its_command :
    ((tp? (after (.tpRxFrame 3 tpFrame 5) (tpS id)) 3).map (·.sinkCmd)) = some 1 := by decide +kernel

theorem test_tp_old_frame_counts :
    counter (after (.tpRxFrame 3 tpFrame 5) (tpS (fun x => { x with rxSeq := some 11 }))) .tpSeqOld 3 = 1 := by decide +kernel

theorem witness_ChannelCommandsEstablishAndRelease :
    (Ready (blockCmd 0x0101 2 64 true) (hb chanB) upc ∧ chanSetupStatus (take 0 upc) chanB = St.ok) ∧
    (Ready (blockCmd 0x0101 2 64 true) (hb chanB) (chanS id) ∧ FMap.has (chanS id).chans 5 = true) ∧
    (let s := { upc with chans := [(6, { ch5 with p := { ch5.p with channel := 6, slot := 5, pktRef := 8 }, units := 32768 })] }
     Ready (blockCmd 0x0101 2 64 true) (hb chanB) s ∧ chanParamsOk (take 0 s) chanB = true ∧ FMap.has s.chans 5 = false ∧
      32768 < (((s.chans.filter (fun e => e.1 != 5)).map (fun e => e.2.units)).sum + unitsOf (chanParams chanB))) ∧
    (Ready (blockCmd 0x0102 2 64 true) (hb chanB) (chanS id) ∧ chanModifyStatus (take 0 (chanS id)) chanB = St.ok ∧
      (let c := blockCmd 0x0102 2 64 true
       let u := finish c (hb chanB) (chanS id) St.ok []
         { take 0 (chanS id) with chans := FMap.adj (chanS id).chans 5 (fun x => { x with next := some (chanParams chanB) }) }
       waitingCpl u (cplOf (chanS id) 0) = waitingCpl (chanS id) (cplOf (chanS id) 0))) ∧
    (Ready (plainCmd 0x0103 2) hp (chanS id) ∧ FMap.get? (chanS id).chans 5 = some ch5 ∧ ch5.releasing = none) :=
  ⟨⟨rdy_of (by decide +kernel), by decide +kernel⟩, ⟨rdy_of (by decide +kernel), by decide +kernel⟩,
    ⟨rdy_of (by decide +kernel), by decide +kernel, by decide +kernel, by decide +kernel⟩,
    ⟨rdy_of (by decide +kernel), by decide +kernel, by decide +kernel⟩,
    ⟨rdy_of (by decide +kernel), by decide +kernel, by decide +kernel⟩⟩

theorem witness_RtpContextCommands :
    (Ready (blockCmd 0x0111 2 128 true) (hb rtpB) up ∧ rtpSetupStatus (take 0 up) rtpB = St.ok) ∧
    (Ready (blockCmd 0x0112 2 128 true) (hb rtpB) (rtpS id []) ∧ rtpModifyStatus (take 0 (rtpS id [])) rtpB = St.ok) ∧
    (Ready (plainCmd 0x0113 2) hp (rtpS id []) ∧ (rtp? (rtpS id []) 9).isSome = true ∧ chanOf (rtpS id []) 9 = none) ∧
    (chanOf (rtpS id [(5, ch5)]) 9).isSome = true ∧
    (Ready (blockCmd 0x0114 2 64) (hb (bk 64 [(0, 9)])) (rtpS id []) ∧ srtpKeyBlockOk (bk 64 [(0, 9)]) = true) :=
  ⟨⟨rdy_of (by decide +kernel), by decide +kernel⟩, ⟨rdy_of (by decide +kernel), by decide +kernel⟩,
    ⟨rdy_of (by decide +kernel), by decide +kernel, by decide +kernel⟩, by decide +kernel,
    ⟨rdy_of (by decide +kernel), by decide +kernel⟩⟩

set_option maxRecDepth 20000 in
theorem witness_RtpPacketsAreCheckedAndAccepted :
    (let x := { ctx9 with p := { ctx9.p with srcCheck := true } }
     x.p.srcCheck = true ∧ (5003 : Nat) ≠ x.p.remotePort) ∧
    (ctx9.p.srcCheck = false ∧ chanOf (rtpS id []) 9 = none) ∧
    ((chanOf (rtpS id [(5, ch5)]) 9).isSome = true ∧ ctx9.p.srtp = false ∧ ctx9.rxKey = none ∧ rtpHeadLen [] = none ∧
      rtpHeadLen (bk 12 []) = some 12 ∧ byteAt (bk 12 []) 0 / 64 ≠ 2) ∧
    (byteAt rtpPkt 0 / 64 = 2 ∧ bit (byteAt rtpPkt 0) 5 = false ∧ BitVec.ofNat 32 (beAt rtpPkt 8 4) ≠ ctx9.p.rxSsrc) ∧
    (alive (rtpS id [(5, ch5)]) = true ∧ chanOf (rtpS id [(5, ch5)]) 9 = some (5, ch5) ∧ rtpHeadLen rtpPkt = some 12 ∧
      ctx9.p.ssrcFixed = false ∧ ctx9.remote = none ∧ ctx9.highSeq = none ∧
      ∃ f noise, payloadOf ctx9 ch5 (byteAt rtpPkt 1 % 128) (rtpPkt.drop 12) = .ok (.audio f noise)) :=
  ⟨by decide +kernel, by decide +kernel, by decide +kernel, by decide +kernel,
    ⟨by decide +kernel, by decide +kernel, by decide +kernel, by decide +kernel, by decide +kernel, by decide +kernel,
      2, sidLast ch5.codecNow (rtpPkt.drop 12), by rfl⟩⟩

theorem witness_RtcpNeverTouchesPlayout :
    alive (rtpS id [(5, ch5)]) = true ∧ (rtp? (rtpS id [(5, ch5)]) 9).isSome = true ∧
    rtcpParts 64 (bk 8 [(0, 0x81), (1, 203), (3, 1)]) = [(203, 1, bk 8 [(0, 0x81), (1, 203), (3, 1)])] ∧
    ctx9.rtcp.nextAt ≤ 0 := by decide +kernel

theorem witness_VoiceTimers :
    (let c := { ch5 with regen := some ⟨0, 1, 0, 0, 0, 60000000, false⟩, quiet := 50, ansSeen := true }
     alive (chanS (fun _ => c)) = true ∧ FMap.get? (chanS (fun _ => c)).chans 5 = some c ∧ 50 ≤ c.quiet) ∧
    (let x := { ctx9 with p := { ctx9.p with rxTimeout := 1 }, driftAt := 0, prevMean := some 0 }
     (chanOf (rtpS (fun _ => x) [(5, ch5)]) 9).isSome = true ∧ x.p.rxTimeout ≠ 0 ∧ x.timedOut = false ∧
      x.lastRx + x.p.rxTimeout * 100000000 ≤ 100000000 ∧ x.driftAt ≤ 100000000 ∧ x.prevMean = some 0) := by decide +kernel

theorem witness_TeleprotectionCommands :
    (Ready (blockCmd 0x0121 2 128 true) (hb tpB) up ∧ tpSetupStatus (take 0 up) tpB = St.ok) ∧
    (Ready (blockCmd 0x0122 2 128 true) (hb tpB) (tpS id) ∧ tpModifyStatus (take 0 (tpS id)) tpB = St.ok) ∧
    (Ready (plainCmd 0x0123 2) hp (tpS id) ∧ tp? (tpS id) 3 = some tp3 ∧ tp3.p.src = 3) ∧
    tpTestStatus (take 0 (tpS id)) 3 1000 65535 = St.ok :=
  ⟨⟨rdy_of (by decide +kernel), by decide +kernel⟩, ⟨rdy_of (by decide +kernel), by decide +kernel⟩,
    ⟨rdy_of (by decide +kernel), by decide +kernel, by decide +kernel⟩, by decide +kernel⟩

/-- The channel with a source on tones, and on balls. -/
def toned (f : Tp → Tp) : State :=
  tpS (fun x => f { x with p := { x.p with src := 1, guardHz := 1000, cmdHz := [2000, 0, 0, 0], guardAlarm := 20 } })

theorem witness_TeleprotectionSendSide :
    (devOf (toned id) 125000 % 125000 = 0 ∧ (tp? (tpTakeNext 3 (advance 125000 (toned id))) 3).any (fun z => z.p.src == 1) = true ∧
      heldFor (sinceOf true none 0) 0 0 = true) ∧
    ((tp? (tpTakeNext 3 (advance 125000 (tpS (fun x => { x with hostCmd := some 5 })))) 3).any
      (fun z => z.p.src == 3 && z.hostCmd == some 5) = true) ∧
    ((tp? (advance 20000000 (toned (fun x => { x with absentSince := some 0 }))) 3).any (fun x => x.p.src == 1 && x.st == .quiet &&
      x.absentSince == some 0 && decide (0 + 1000000 * x.p.guardAlarm ≤ 20000000)) = true) ∧
    (devOf (tpS id) 750000 % 1000000 = (3 % 4) * 250000 ∧ tp3.confirmedAt ≠ some 750000) ∧
    ((⟨1, 1000000, 0, true, 5⟩ : TpTest).endsAt ≤ 5) := by decide +kernel

set_option maxRecDepth 20000 in
theorem witness_TeleprotectionReceiveSide :
    (alive (tpS id) = true ∧ tp? (tpS id) 3 = some tp3 ∧ tpCheck tp3 [] = .error .tpBadFrame ∧ tpCheck tp3 tpFrame = .ok 0) ∧
    (let x := { tp3 with pendFall := 8, riseAt := [(3, 0)] }
     x.pendFall.getLsbD 3 = true ∧ FMap.getD x.riseAt 3 0 + 1000000 * x.p.outMin ≤ 0) ∧
    (tp3.linkFail = false ∧ tp3.closed = false ∧ tp3.lastRx + 1000000 * tp3.p.hbTimeout ≤ 4000000) :=
  ⟨⟨by decide +kernel, by decide +kernel, by rfl, by rfl⟩, by decide +kernel, by decide +kernel⟩

/-! ### Radio -/

/-- A link enabled and in a state, beside a PRX ring 3, a PTX ring 4 to the radio, a recording ring 5. -/
def upr (st : Nat) : State :=
  { putFld up .rlCtrl 0 0 0 1 with
    links := [(0, { Link.fresh with state := st })]
    hif := { up.hif with rings := up.hif.rings ++ [(3, Ring.fresh (ctxOf .prx)),
      (4, Ring.fresh { ctxOf .ptx with target := 1 }), (5, Ring.fresh (ctxOf .recording))] } }

/-- RXC_SETUP of channel 7 for SF 7 on ring 3, a gain table of two entries, TXC_SETUP of channel 2 on ring 4, a talk
group 1 on both. -/
def rxcB : Bytes := bk 64 [(0, 7), (3, 2), (8, 4), (0x16, 3)]
def gainB : Bytes := bk 24 [(1, 2), (0x10, 8)]
def txcB : Bytes := bk 64 [(0, 2), (3, 2), (0x14, 4)]
def grpB : Bytes := bk 32 [(0, 1), (2, 2), (4, 7), (6, 0xFF), (7, 0xFF), (8, 0xFF), (9, 0xFF), (10, 0xFF), (11, 0xFF)]
def rx7 : Rxc := Rxc.fresh 122880000 0 (rxcParams rxcB)
def rec7 : Reception :=
  { id := 0, sf := 7, phase := .header, next := 0, windows := 9, preEnd := 0, detectAt := 0, preSum := 0, preN := 1, preGain := 0
    snr := 0, kd := 0, freqHz := 0, eq_ := Equaliser.none, sent := [], soft := [], syncWord := 0, len := 0, cr := 0
    sec := false, ptt := false, stream := 0, header := [], overlap := false, weak := false, onPool := false, subFrom := 0
    gainStep := false, sat := false, rxTime := 0, dataAt := 0, old := rxcParams rxcB }
def tx2 : Txc := txcOf 0 txcB
/-- A request of one octet at SF 7. -/
def txItem : Bytes := bk 33 [(0, 2), (2, 7), (3, 1), (32, 0x55)]
def req2 : TxReq := txRecord txItem
def rxS (f : Rxc → Rxc) : State := { upr 3 with rxcs := [(7, f rx7)] }
def txS (f : Txc → Txc) : State := { upr 3 with txcs := [(2, f tx2)] }
def cap7 : Capture :=
  { opId := 0, ring := 5, ratio := 1, left := 4000, done := 0, segNo := 0, gap := 0, first := true, ending := false, stamp := 0
    buf := List.replicate 2048 ⟨(0, 0), false, false⟩ }
/-- A channel that holds blocks of samples of nothing. -/
def rx7b (n : Nat) : Rxc :=
  { rx7 with blocks := List.replicate n ⟨0, 0, List.replicate 256 ⟨(0, 0), false, false⟩⟩, blockN := n }

theorem test_chirp_header_checks_its_length : headerVerdict (bk 6 []) ≠ 0 := by decide +kernel

theorem test_sample_time_and_symbol_time : symbolNs 7 0 = 1024000 ∧ symbolNs 12 2 = 8192000 := by decide

theorem test_group_of_a_channel : Ready (blockCmd 0x0144 2 32 true) (hb grpB) { txS id with rxcs := [(7, rx7)] } ∧
    groupSetupStatus (take 0 { txS id with rxcs := [(7, rx7)] }) grpB = St.ok :=
  ⟨rdy_of (by decide +kernel), by decide +kernel⟩

theorem witness_RadioLinks :
    (barOpen up = true ∧ setupLocked up = false ∧ linkEnabled up 7 = false ∧ linkConfigOk up 7 = true) ∧
    (linkConfigOk (putFld up .rlCfg 7 11 9 4) 7 = false ∧ linkEnabled (putFld up .rlCfg 7 11 9 4) 7 = false) ∧
    linkEnabled (upr 1) 0 = true ∧
    (Ready (plainCmd 0x0134 2) hp (upr 3) ∧ rlSpiStatus (take 0 (upr 3)) 0 4 4 = St.ok ∧ spiSlotted (upr 3) 0 = true) ∧
    (let s := { upr 1 with sec := { up.sec with enrolled := true, unlock := none } }
     barOpen s = true ∧ setupLocked s = true) ∧
    (Ready (plainCmd 0x0137 2) hp (upr 3) ∧ (linkAt (upr 3) 0).state = 3) ∧
    (Ready (plainCmd 0x0134 2) hp up ∧ rlSpiStatus (take 0 up) 7 8 8 = St.ok) ∧
    (Ready ⟨0x0135, 2, fun k => k == 8 + 8 * byteAt gainB 1, true, false⟩ (hb gainB) up ∧ gainTableStatus (take 0 up) gainB = St.ok) ∧
    (let s := withAnt 0 1 (fun a => { a with table := some (gainTableOf gainB) }) (putFld (upr 3) .rlAgc 1 0 0 1)
     Ready (plainCmd 0x0136 2) hp s ∧ gainSetStatus (take 0 s) 0 1 1 = St.ok) ∧
    (let s := withLink 0 (fun l => { l with periodic := true, sysrefAt := some 0 }) (upr 1)
     (linkAt s 0).periodic = true ∧ (linkAt s 0).sysrefAt = some 0 ∧ 0 < devOf s 1000000 ∧ devOf s 1000000 ≤ 0 + 1000000 ∧
      500000000 ≤ (devOf s 1000000 - 0) * fsHz s 0) ∧
    (alive (upr 1) = true ∧ (linkAt (upr 1) 0).state = 1 ∧ 2 ^ fld (upr 1) .rlCfg 0 22 21 * 10 ^ 12 / fsHz (upr 1) 0 < 20000) ∧
    ((linkAt (upr 2) 0).state = 2 ∧ downReasonOk (upr 2) 0 4 = true ∧ downReasonOk (upr 3) 0 1 = true) :=
  ⟨by decide +kernel, by decide +kernel, by decide +kernel, ⟨rdy_of (by decide +kernel), by decide +kernel, by decide +kernel⟩,
    by decide +kernel, ⟨rdy_of (by decide +kernel), by decide +kernel⟩,
    ⟨rdy_of (by decide +kernel), by decide +kernel⟩, ⟨rdy_of (by decide +kernel), by decide +kernel⟩,
    ⟨rdy_of (by decide +kernel), by decide +kernel⟩, by decide +kernel, by decide +kernel, by decide +kernel⟩

/-- The first antenna of link 0 with a table, changed by `f`. -/
def antS (f : Antenna → Antenna) : State :=
  withAnt 0 0 (fun a => f { a with table := some (gainTableOf gainB), entry := 1 }) (upr 3)

theorem witness_GainControl :
    (alive (antS id) = true ∧ inData (antS id) 0 = true ∧ 0 < rxAntennas (antS id) 0 ∧ flag (antS id) .rlAgc 0 0 = false ∧
      ∃ x, (linkAt (antS id) 0).ants[0]? = some x ∧ x.writing = none ∧ x.frozen = false ∧
        x.table.bind (fun g => g.entries[entryAtMost x (x.gain - 24)]?) = some (0, 0) ∧
        x.lowRun + 1 < fld (antS id) .rlAgc 0 27 20) ∧
    (inData (upr 2) 0 = false ∧ 0 < rxAntennas (upr 2) 0) ∧
    (let s := withLink 0 (fun l => { l with sysrefAt := some 0 }) (rxS id)
     (linkDate? s 0).isSome = true ∧ rx7.p.link = 0 ∧ rx7.p.antenna = 0) ∧
    (flag (putFld (antS id) .rlAgc 0 0 0 1) .rlAgc 0 0 = true ∧
      ((linkAt (antS (fun a => { a with manual := some 0 })) 0).ants[0]?).any (fun x => x.manual == some 0 && x.writing == none) ∧
      ((linkAt (antS (fun a => { a with writing := some ⟨0, -8, some 0⟩ })) 0).ants[0]?).any
        (fun x => x.manual == none && x.writing == some ⟨0, -8, some 0⟩) ∧ 0 ≤ now (antS id)) ∧
    ((linkAt (antS (fun a => { a with writing := some ⟨0, -8, none⟩ })) 0).ants[0]?).any (fun x => x.writing == some ⟨0, -8, none⟩) ∧
    (let c := { rx7 with comp := [(100, -8)] }
     c.comp = [(100, -8)] ∧ (99 : Int) < 100 ∧ (100 : Int) ≤ 100) ∧
    (let c := { rx7 with recent := List.replicate 64 0 }
     rxc? (rxS (fun _ => c)) 7 = some c ∧ c.recs = [] ∧ c.recent.length = 64) :=
  ⟨⟨by decide +kernel, by decide +kernel, by decide +kernel, by decide +kernel,
      _, rfl, by decide +kernel, by decide +kernel, by decide +kernel, by decide +kernel⟩,
    by decide +kernel, by decide +kernel, by decide +kernel, by decide +kernel, by decide +kernel, by decide +kernel⟩

/-- R171: what the compensation of a gain change leaves of the channel gain. -/
theorem test_gain_is_compensated : (({ rx7 with gain := 20, comp := [(100, 8)] } : Rxc).compensate 100).gain = 12 := by decide +kernel

/-- R172: a mean power of −27 dB raises the gain by half of the 12 dB to −15 dB, held to 6 dB. -/
theorem test_channel_gain_update : gainUpdate 0 (-2700) = 24 ∧ gainUpdate 0 (-1900) = 8 ∧ gainUpdate 288 (-9000) = 288 := by decide +kernel

theorem witness_ReceiveChannelCommands :
    (Ready (blockCmd 0x0131 2 64 true) (hb rxcB) (upr 3) ∧ rxcSetupStatus (take 0 (upr 3)) rxcB = St.ok) ∧
    (Ready (blockCmd 0x0132 2 64 true) (hb rxcB) (rxS id) ∧ rxcModifyStatus (take 0 (rxS id)) rxcB = St.ok ∧
      rxc? (rxS id) 7 = some rx7) ∧
    (Ready (plainCmd 0x0133 2) hp (rxS id) ∧ FMap.has (rxS id).rxcs 7 = true) ∧
    (Ready (plainCmd 0x0138 2) hp (rxS id) ∧ captureStatus (take 0 (rxS id)) 7 5 1 16777216 = St.ok ∧ (rxS id).hif.longOps.length < 256) :=
  ⟨⟨rdy_of (by decide +kernel), by decide +kernel⟩, ⟨rdy_of (by decide +kernel), by decide +kernel, by decide +kernel⟩,
    ⟨rdy_of (by decide +kernel), by decide +kernel⟩, ⟨rdy_of (by decide +kernel), by decide +kernel, by decide +kernel⟩⟩

/-- Three hits at bin 5 in windows of SF 7, and the preamble they qualify. -/
def run5 : HitRun := ⟨7, 768, [⟨5, (36, 1), 0, 512⟩, ⟨5, (36, 1), 0, 256⟩, ⟨5, (36, 1), 0, 0⟩, ⟨5, (36, 1), 0, 0⟩], false⟩

theorem test_hits_qualify : run5.qualifies 4 = true ∧ ({ run5 with done := true } : HitRun).qualifies 4 = false ∧ run5.qualifies 5 = false := by
  decide +kernel

/-- R162: λ is the largest bin over the mean of those outside it and its two neighbours. -/
theorem test_peak_ratio : peakOf [1, 2, 30, 4, 5, 6] = 2 ∧ peakRatio [1, 2, 30, 4, 5, 6] = (90, 12) := by decide +kernel

/-- R143, R161: with ext_latency_ns 0 a stamp is T_L plus the position less D. -/
theorem test_stamp_is_antenna_time : (⟨1000, (8, 1), 0⟩ : LinkDate).antenna 3 1 = 65536 * 1024 := by decide +kernel

/-- R156: D of 61.44 MHz at 125 kHz with the narrowest preset. -/
theorem test_chain_delay : chainDelayPs 61440000 0 0 = 211612630 := by decide +kernel

/-- R187, R192: the decoder gives back what the encoder was given. -/
theorem test_viterbi : octetsOfBits 2 (viterbi ((convCode (bitsMsb [0xA5, 0x3C])).map (fun e => (if e.1 then -1 else 1, if e.2 then -1 else 1)))) =
    [0xA5, 0x3C] := by decide +kernel

/-- R166: a trigger within a span extends it. -/
theorem test_spans : spansOf 100 [0, 60, 300] = [(0, 160), (300, 400)] := by decide +kernel

theorem witness_ReceptionGoesByItsWindows :
    (let c := rx7b 1
     alive (rxS (fun _ => c)) = true ∧ rxc? (rxS (fun _ => c)) 7 = some c ∧ c.recs = [] ∧ c.p.sfMask.testBit (7 - 5) = true ∧
      (c.samples (runOf c 7).next (winLen 7)).isSome = true) ∧
    (rx7.armed 7 (runOf rx7 7).next = true ∧ ({ rx7 with runs := [run5] } : Rxc).runs.head?.any (fun r => r.wins.length == 4) = true) ∧
    (FMap.wf (rxS id).rxcs = true ∧ inData (rxS id) 0 = true ∧
      (let c := { rx7 with recs := [rec7] }
       c.recs = [rec7] ∧ rec7.phase = .header ∧ rec7.sf ≠ (⟨8, 0, 0, (1, 1), 0, 1, 0⟩ : Qualified).sf)) ∧
    (let d := { rx7b 4 with p := { rx7.p with modeE := true, sfMask := 16, bw := 0 }, powers := List.replicate 245 0 }
     d.p.modeE = true ∧ inData (rxS (fun _ => d)) d.p.link = true ∧ d.noiseFloor = some 0 ∧
      (d.samples d.energyAt (winLen (lowSf d.p.sfMask))).any (fun w => w.all (fun o => !o.unsettled)) = true) ∧
    (let c := { rx7 with blockN := 96, trig := some ([0], false) }
     rxc? (rxS (fun _ => c)) 7 = some c ∧ c.trig = some ([0], false) ∧ ([0] : List Nat).getLastD 0 + c.p.eq_ * winLen (highSf c.p.sfMask) ≤ c.top) ∧
    (let e := { rec7 with soft := List.replicate (headerSymbols 7) [] }
     let c := { rx7 with recs := [e] }
     reception? (rxS (fun _ => c)) 7 0 = some e ∧ e.phase = .header ∧ headerSymbols e.sf ≤ e.soft.length) ∧
    (let c := { rx7 with recs := [rec7] }
     rxc? (rxS (fun _ => c)) 7 = some c ∧ (c.recs.find? (fun x => x.id == 0 && x.phase = .header)) = some rec7 ∧
      headerVerdict (padTo 6 (chirpHeader 1 1 false false 0)) = 0) ∧
    (let e := { rec7 with phase := .payload, len := 1, soft := List.replicate (headerSymbols 7 + payloadSymbols 7 0 1) [] }
     let c := { rx7 with recs := [e] }
     (c.recs.find? (fun x => x.id == 0)) = some e ∧ e.phase = .payload ∧ e.taken = true ∧
      (crc32 (([5, 0, 0, 0, 0] : Bytes).take e.len)).toNat ≠ beAt ([5, 0, 0, 0, 0] : Bytes) e.len 4 ∧ e.old.errored = false) ∧
    (let s := { rxS id with bce := { up.bce with captures := [(7, cap7)] } }
     FMap.get? s.bce.captures 7 = some cap7 ∧ cap7.ending = false ∧ 2048 ≤ cap7.buf.length ∧ (2048 : Nat) = min 2048 cap7.left ∧
      2048 < cap7.left) ∧
    (List.replicate 49 true).length % (7 * 7) = 0 :=
  ⟨by decide +kernel, by decide +kernel, by decide +kernel, by decide +kernel, by decide +kernel, by decide +kernel, by decide +kernel,
    by decide +kernel, ⟨by rfl, by decide +kernel, by decide +kernel, by decide +kernel, by decide +kernel⟩, by decide +kernel⟩

/-- R207: the delay of the chain at 500 kHz is 11 · 15 / 61.44 MHz + 8 / 3.84 MHz + 48 / 2 MHz; the first sample leaves that early. -/
theorem test_a_launch_is_early_by_the_chain_delay :
    let c := { tx2 with waiting := [{ req2 with built := true, launch := some 100000 }] }
    ((txc? (after (.txLaunch 2 71232 true 128) (txS (fun _ => c))) 2).bind (·.active)).any
      (fun o => o.start == 71232 && o.antenna (txS id) == 100000) = true ∧
    ((txc? (after (.txLaunch 2 71232 true 127) (txS (fun _ => c))) 2).map (·.waiting)) = some [] := by decide +kernel

/-- R207: a waiting request gets an instance of its channel's build op. -/
theorem test_a_request_is_built :
    let s := txS (fun _ => { tx2 with waiting := [req2] })
    let t := after .arbitrationRound { s with fsc := { s.fsc with flows := [(33282, txFlow 0 0)] } }
    ((flow? t 33282).map (fun fl => (fl.cls, fl.insts.length))) = some (2, 1) ∧
      ((txc? (buildEnd 2 true t) 2).map (fun c => c.waiting.map (·.built))) = some [true] := by decide +kernel

theorem witness_TransmitChannelCommands :
    (Ready (blockCmd 0x0141 2 64 true) (hb txcB) (upr 3) ∧ txcSetupStatus (take 0 (upr 3)) txcB = St.ok) ∧
    (Ready (blockCmd 0x0142 2 64 true) (hb txcB) (txS id) ∧ txcModifyStatus (take 0 (txS id)) txcB = St.ok ∧ txc? (txS id) 2 = some tx2) ∧
    (Ready (plainCmd 0x0143 2) hp (txS id) ∧ tx2.releasing = false ∧ tx2.active = none) ∧
    (let c := { tx2 with active := some ⟨req2, 0, 1000, [], 0, 0, 0⟩ }
     Ready (plainCmd 0x0143 2) hp (txS (fun _ => c)) ∧ txc? (txS (fun _ => c)) 2 = some c ∧ c.releasing = false ∧ c.active.isSome = true) ∧
    (let s := { txS id with groups := [(1, groupOf 0 grpB)] }
     Ready (plainCmd 0x0145 2) hp s ∧ FMap.has s.groups 1 = true ∧ pttChan s 1 = none) :=
  ⟨⟨rdy_of (by decide +kernel), by decide +kernel⟩, ⟨rdy_of (by decide +kernel), by decide +kernel, by decide +kernel⟩,
    ⟨rdy_of (by decide +kernel), by decide +kernel⟩, ⟨rdy_of (by decide +kernel), by decide +kernel⟩,
    ⟨rdy_of (by decide +kernel), by decide +kernel⟩⟩

theorem witness_TransmissionsRunInOrder :
    ((ring? (txS id) 4).any (fun r => r.ctx.ty == .ptx && r.ctx.target == 1) = true ∧
      requestStatus (advance 0 (txS id)) 4 txItem = St.ok ∧ (txRecord txItem).sec = false ∧
      requestStatus (advance 0 (txS id)) 4 [] ≠ St.ok ∧
      requestStatus (advance 0 (txS id)) 4 (bk 33 [(0, 2), (2, 0x47), (3, 1), (32, 0x55)]) = St.ok) ∧
    (let c := { tx2 with waiting := [{ req2 with built := true }] }
     txc? (txS (fun _ => c)) 2 = some c ∧ c.releasing = false ∧ (txS (fun _ => c)).twin.role ≠ 1 ∧ req2.launch = none ∧ c.active = none ∧
      inData (txS (fun _ => c)) c.link = true ∧ twoBlocks (txS (fun _ => c)) c.link = 128) ∧
    (let c := { tx2 with waiting := [{ req2 with built := true, launch := some 100000 }] }
     txLead (txS (fun _ => c)) c = 28768 ∧ onTime (fsHz (txS (fun _ => c)) c.link) 100000 (devOf (txS (fun _ => c)) 71240 + 28768) = true ∧
      (100000 : Nat) ≤ devOf (txS (fun _ => c)) 71300 + 28768 ∧ devOf (txS (fun _ => c)) 71000 + 28768 < 100000) ∧
    (let c := { tx2 with waiting := [{ req2 with sec := true, addr := 5 }] }
     toBuild (txS (fun _ => c)) 2 = some { req2 with sec := true, addr := 5 } ∧
      nextDl (txS (fun _ => c)) (epdFind (txS (fun _ => c)) 5) = none) ∧
    (let c := { tx2 with active := some ⟨req2, 0, 1000, [], 0, 0, 0⟩ }
     txc? (txS (fun _ => c)) 2 = some c ∧ c.releasing = false) ∧
    (let g := { groupOf 0 grpB with talker := some (7, 0) }
     0 + g.hangMs * 1000000 ≤ 200000000) := by decide +kernel

/-! ### Queues, block compression and the recorder -/

/-- QUEUE_SETUP of queue 16383, class 1, on chip, 4096 cells, high mark 1024, low mark 0, hysteresis 1. -/
def queB : Bytes := bk 32 [(0, 0xFF), (1, 0x3F), (2, 1), (5, 0x10), (9, 4), (0x10, 1), (0x12, 3)]
def qu1 : Queue := Queue.fresh (queueBlock queB) 0
def quS (f : Queue → Queue) : State := { up with qmg := { up.qmg with queues := [(16383, f qu1)] } }
def itm : Item := ⟨bk 64 [(0, 1)], false, false⟩

theorem test_a_cell_holds_64_octets : cellsOf 64 = 1 ∧ cellsOf 65 = 2 ∧ cellsOf 0 = 1 := by decide

theorem test_high_mark_at_its_value : (⟨10, true, true, 0, 0⟩ : Mark).crosses false 9 10 = true := by decide

theorem witness_QueueCommands :
    (Ready (blockCmd 0x0161 2 32 true) (hb queB) up ∧ queueSetupStatus (take 0 up) queB = St.ok) ∧
    (Ready (blockCmd 0x0162 2 32 true) (hb queB) (quS id) ∧ queueModifyStatus (take 0 (quS id)) queB = St.ok ∧
      queue? (quS id) (queueBlock queB).queue = some qu1) ∧
    (Ready (plainCmd 0x0163 2) hp (quS id) ∧ queueReleaseStatus (take 0 (quS id)) 16383 = St.ok ∧ qu1.taken = none) ∧
    (let s := quS (fun q => { q with taken := some (itm, 0) })
     Ready (plainCmd 0x0163 2) hp s ∧ queueReleaseStatus (take 0 s) 16383 = St.ok ∧ (queue? s 16383).any (·.taken.isSome)) ∧
    (Ready (plainCmd 0x0164 2) hp (quS id) ∧ queueFlushStatus (take 0 (quS id)) 16383 = St.ok) ∧
    (Ready (plainCmd 0x0165 1) hp (quS id) ∧ liveQueue (quS id) 16383 = some qu1) ∧
    (Ready (plainCmd 0x0166 2) hp up ∧ up.qmg.sweep = false ∧ up.hif.longOps.length < 256) :=
  ⟨⟨rdy_of (by decide +kernel), by decide +kernel⟩, ⟨rdy_of (by decide +kernel), by decide +kernel, by decide +kernel⟩,
    ⟨rdy_of (by decide +kernel), by decide +kernel⟩, ⟨rdy_of (by decide +kernel), by decide +kernel⟩,
    ⟨rdy_of (by decide +kernel), by decide +kernel⟩, ⟨rdy_of (by decide +kernel), by decide +kernel⟩,
    ⟨rdy_of (by decide +kernel), by decide +kernel⟩⟩

theorem witness_QueueProducersAndConsumers :
    (queue? (quS id) 16383 = some qu1 ∧ qu1.discarding = false ∧ overLimit (quS id) 16383 1024 = false ∧
      reserveAt (quS id) 16383 1024 = some false) ∧
    overLimit (quS (fun q => { q with maxCells := 1023 })) 16383 1024 = true ∧
    (let s := { quS id with qmg := { (quS id).qmg with freeRebuild := true } }
     overLimit s 16383 1 = false ∧ reserveAt s 16383 1 = none) ∧
    ((queue? (quS (fun q => { q with inProg := some (1, false) })) 16383).any (fun q => q.inProg == some (1, false) && !q.discarding) ∧
      cellsOf (bk 64 []).length ≤ 1 ∧ ∀ p ∈ up.hif.rings, needed p.2.ctx.bufSize 64 ≤ p.2.size) ∧
    (queue? (quS (fun q => { q with discarding := true })) 16383).any (·.discarding) ∧
    (queue? (quS (fun q => { q with items := [itm] })) 16383).any (fun q => q.taken.isNone && q.items == [itm] && !itm.tether) ∧
    (takenLeft (itm, 16) = 0 ∧ takenLeft (itm, 15) ≠ 0) := by decide +kernel

theorem witness_IntegrityAndSweep :
    (queue? (quS (fun q => { q with items := [itm], taken := some (itm, 0) })) 16383).any (fun q => q.taken == some (itm, 0) && q.releasing.isNone) ∧
    (let s := { up with qmg := { up.qmg with sweepDue := true } }
     s.qmg.sweep = false ∧ s.qmg.sweepDue = true ∧ s.hif.longOps.length < 256) ∧
    (let s := { up with qmg := { up.qmg with sweep := true } }
     s.qmg.sweep = true) := by decide +kernel

/-- Mode L, effort 1, three octets into 20; and a segment in the backlog for ring 5. -/
def jobB : Bytes := bk 64 [(1, 1), (4, 3), (0x18, 20)]
def jobS (f : BceJob → BceJob) : State := { up with bce := { up.bce with jobs := [f (jobOf jobB [1, 2, 3] none)] } }

theorem test_mode_l_of_short_input_is_a_stored_block :
    (bceRun (jobOf jobB [1, 2, 3] none) none).result = Br.ok ∧ (bceRun (jobOf jobB [1, 2, 3] none) none).out =
      [0x4C, 1, 0, 0, 3, 0, 0, 0, 3, 0, 0, 0, 0x1E, 0xF2, 0x30, 0xF1, 1, 2, 3] := by
  decide +kernel

theorem witness_CompressionJobsAndRecorder :
    (Ready (blockCmd 0x0171 2 64) (hb jobB) up ∧ bceJobStatus (take 0 up) jobB = St.ok ∧ up.hif.longOps.length < 256) ∧
    (Ready (plainCmd 0x0172 2) hp (jobS id) ∧ bceAbortStatus (take 0 (jobS id)) 0 = St.ok) ∧
    (alive (jobS id) = true ∧ ((jobS id).bce.jobs.take 4).find? (fun k => k.opId == 0) = some (jobOf jobB [1, 2, 3] none)) ∧
    readySegment (advance 0 up) = none ∧
    (let r := { Ring.fresh { ctxOf .recording with bufSize := 64 } with hostIdx := 1 }
     let hi := { up.hif with rings := up.hif.rings ++ [(5, r)] }
     let s := { up with hif := hi, bce := { up.bce with backlog := [⟨5, 0, [1], []⟩] } }
     (readySegment (advance 0 s)).isSome = true ∧ Ready (plainCmd 0x0173 2) hp s ∧ s.bce.backlog ≠ []) ∧
    (Ready (plainCmd 0x0173 2) hp up ∧ up.bce.backlog = [] ∧ up.chans.all (fun e => e.2.segData.isEmpty) = true) :=
  ⟨⟨rdy_of (by decide +kernel), by decide +kernel⟩, ⟨rdy_of (by decide +kernel), by decide +kernel⟩, by decide +kernel,
    by decide +kernel, ⟨by decide +kernel, rdy_of (by decide +kernel), by decide +kernel⟩,
    ⟨rdy_of (by decide +kernel), by decide +kernel⟩⟩

/-! ### TDM, Ethernet and time -/

/-- A port in a mode with its first framer bits; port 63 as E1 with CAS. -/
def tdmS (mode : Nat) (f : TdmPort → TdmPort) : State :=
  withTdm 63 f (putFld (putFld up .tdmPortCfg 63 1 0 mode) .tdmFramerCfg 63 3 3 1)

def fr32 (start : Nat) : TdmFrame := { slots := bk 32 [(0, 0x1B), (1, 0x55)], fbit := false, start }

/-- The receive slip buffer at 15/8 frame, after a frame that began at 0. -/
def deepS : State := tdmS 2 (fun p => { p with rxDelay := 234375, rxStart := some 0 })

theorem test_frame_at_the_edge_of_the_slip_buffer_is_taken :
    (tdmPort (after (.tdmRxFrame 63 (fr32 125000)) deepS) 63).rxSlots.getD 1 0 = 0x55 := by decide +kernel

theorem test_frame_beyond_the_slip_buffer_is_deleted :
    let p := tdmPort (after (.tdmRxFrame 63 (fr32 124999)) deepS) 63
    p.rxSlots = [] ∧ p.rxDelay = 109376 := by decide +kernel

/-- The code of the check is that of G.704: one 1 in a block leaves the polynomial below its degree. -/
theorem test_check_bits_of_a_single_one : crcBit 4 0 true = 3 ∧ crcBit 6 0 true = 3 ∧ crcOctets 4 0 [0x10] = 5 := by decide +kernel

/-- The third FAS in error loses the alignment. -/
theorem test_third_bad_fas_is_lof :
    (tdmPort (after (.tdmRxFrame 63 ⟨zeros 32, false, 0⟩)
      (tdmS 2 (fun p => { p with rx := { p.rx with fas := some true, errs := [true, true] } }))) 63).lof = true := by decide +kernel

/-- The worked example of R352: frames 0 and 1 of an E1 line without CRC-4 and remote alarm. -/
theorem test_frame_alignment_is_sent :
    let s := putFld (tdmS 2 id) .tdmFramerCfg 63 2 1 0
    let u := after (.tdmTxFrame 63 0) s
    (tdmPort u 63).txOut.head? = some (some 0x9B) ∧ (tdmPort (after (.tdmTxFrame 63 0) u) 63).txOut.head? = some (some 0xDF) := by
  decide +kernel

theorem witness_TdmPorts :
    (Ready (plainCmd 0x0181 2) hp (tdmS 2 id) ∧ casSetStatus (take 0 (tdmS 2 id)) 63 31 = St.ok) ∧
    (alive (tdmS 2 id) = true ∧ tdmMode (tdmS 2 id) 63 ≠ 0 ∧ (tdmPort (tdmS 2 id) 63).failed = false ∧ slipBuffer (tdmS 2 id) 63 false = true) ∧
    (tdmPort (tdmS 2 (fun p => { p with los := true })) 63).failed = true ∧
    (let s := tdmS 2 (fun p => { p with rx := { p.rx with fas := some true, errs := [true, true] } })
     isE1 s 63 = true ∧ (tdmPort s 63).lof = false ∧ (tdmPort s 63).rx.fas = some true ∧ (tdmPort s 63).rx.errs.take 2 = [true, true]) ∧
    (let s := putFld (tdmS 3 id) .tdmFramerCfg 63 4 4 0
     isT1 s 63 = true ∧ s.twin.role ≠ 1 ∧ flag s .tdmFramerCfg 63 12 = false ∧ t1Esf s 63 = false ∧ slipBuffer s 63 true = false) ∧
    slipBuffer (putFld (tdmS 2 id) .tdmFramerCfg 63 0 0 1) 63 true = true ∧
    (let s := putFld (tdmS 2 id) .tdmFramerCfg 63 12 12 1
     s.twin.role ≠ 1 ∧ framed s 63 = true ∧ flag s .tdmFramerCfg 63 12 = true ∧ slipBuffer s 63 true = false) ∧
    (framed (tdmS 2 id) 63 = true ∧ isT1 (tdmS 2 id) 63 = false ∧ alarmOf (tdmPort (tdmS 2 id) 63) .lomf ≠ true ∧
      fld (tdmS 2 id) .tdmFramerCfg 63 2 1 = 2 ∧ isE1 (tdmS 2 id) 63 = true) :=
  ⟨⟨rdy_of (by decide +kernel), by decide +kernel⟩, by decide +kernel, by decide +kernel, by decide +kernel, by decide +kernel,
    by decide +kernel, by decide +kernel, by decide +kernel⟩

/-- The gate list of the worked example at R374 on port 0, and a wake pattern of one octet on port 8. -/
def gateB : Bytes := bk 48 [(1, 2), (4, 0x90), (5, 0xD0), (6, 3), (0x20, 0x80), (0x24, 0xA8), (0x25, 0x61), (0x28, 0x7F), (0x2C, 0xE8), (0x2D, 0x6E), (0x2E, 3)]
def wakeB : Bytes := bk 160 [(0, 8), (1, 1)]

/-- Port 0 in 10GBASE-R with its link up, changed by `f`. -/
def ethS (f : EthPort → EthPort) : State :=
  withPort 0 (fun e => f { e with linkUp := true }) (putFld (putFld up .ethPortCfg 0 2 0 1) .ethPortCfg 0 23 23 1)
def bcast : Bytes := bk 60 ((List.range 6).map (fun i => (i, 0xFF)))

theorem test_reference_schedule :
    gateListOf gateB = { cycle := 250000, base := 0, entries := [(0x80, 25000), (0x7F, 225000)] } ∧
    untilOpen { EthPort.fresh with gates := some (gateListOf gateB) } 7 245520 = some 4480 := by decide +kernel

theorem test_frame_time_on_the_wire : framePs (ethS id) 0 1518 = 1233600 := by decide +kernel

theorem witness_EthernetSettings :
    (Ready ⟨0x0191, 2, fun l => 32 ≤ l && l = 32 + 8 * fieldAt gateB 1 6 0, true, false⟩ (hb gateB) (ethS id) ∧
      gateListStatus (take 0 (ethS id)) gateB = St.ok) ∧
    (Ready (blockCmd 0x0192 2 160) (hb wakeB) up ∧ wakePatternStatus wakeB = St.ok) ∧
    (let s := ethS (fun e => { e with pending := some (none, 5) })
     alive s = true ∧ (ethPort s 0).pending = some (none, 5)) ∧
    (barOpen (ethS id) = true ∧ setupLocked (ethS id) = false ∧ ethMode (ethS id) 0 ≠ 0 ∧
      let o := regVal (ethS id) .ethPortCfg 0
      let v := o &&& 0xFFFFFFF8
      bits v.toNat 2 0 = 0 ∧ inRange .ethPortCfg (mergeWrite .ethPortCfg false o v) = true ∧
        regCondOk (ethS id) .ethPortCfg 0 o (mergeWrite .ethPortCfg false o v) = true) ∧
    (let v := putFld (putFld (putFld up .ethPortCfg 8 2 0 1) .ethPortCfg 8 24 24 1) .ethRxCfg 8 3 0 15
     let c := { up.endp.committed with regs := v.regs, wake := [(8, [(0, ⟨[0xFF], [1], 1⟩)])] }
     let s := { up with avl := { up.avl with power := 1 }, endp := { up.endp with committed := c }, eth := [(8, { EthPort.fresh with linkUp := true })] }
     s.avl.porHeld = false ∧ wakeFor s 8 ⟨bcast, crc32 bcast, false, 0, 0⟩ = some 0) :=
  ⟨⟨rdy_of (by decide +kernel), by decide +kernel⟩, ⟨rdy_of (by decide +kernel), by decide +kernel⟩, by decide +kernel,
    by decide +kernel, by decide +kernel⟩

def txF : TxFrame := ⟨bcast, none, false⟩

theorem witness_EthernetTraffic :
    (alive (ethS id) = true ∧ ethMode (ethS id) 0 ≠ 0 ∧ (ethPort (ethS id) 0).linkUp = true ∧
      rxRefusal (advance 5 (ethS id)) 0 ⟨[], 0, false, 5, 0⟩ = some .rxRunt) ∧
    (let s := ethS id
     rxRefusal (advance 5 s) 0 ⟨bcast, crc32 bcast, false, 5, 0⟩ = none ∧ pairOf s 0 = none ∧ (parseFrame bcast).etherType = 0 ∧
      tpForEth s (parseFrame bcast) = none ∧ parseIp (parseFrame bcast) = none ∧ flag s .ethRxCfg 0 9 = false) ∧
    (let e := ethPort (ethS (fun e => { e with fifos := [(7, [txF])] })) 0
     e.linkUp = true ∧ e.lpiTx = false ∧ e.wakeAt = none ∧ e.onWire = none ∧ e.gates = none ∧ FMap.getD e.fifos 7 [] = [txF]) ∧
    (ethPort (ethS (fun e => { e with onWire := some ⟨txF, 0, 0, 0, 68⟩ })) 0).onWire = some ⟨txF, 0, 0, 0, 68⟩ ∧
    (let s := ethS (fun e => { e with gates := some (gateListOf gateB) })
     mayIdle (wireDone 0 125714 (advance 125714 s)) 0 125714 = true) ∧
    (let e := ethPort (ethS (fun e => { e with gates := some (gateListOf gateB), lpiTx := true, lpiTw := 4480 })) 0
     e.lpiTx = true ∧ untilOpen e 7 245520 = some 4480 ∧ (4480 : Nat) ≤ e.lpiTw) := by decide +kernel

def prpS : State := { putFld (putFld up .prpPairCfg 0 16 16 1) .prpPairCfg 0 17 17 1 with
  prp := [(0, { PrpPair.fresh with table := [(5, ⟨1, [1], [], 0⟩)] })] }
def ptpS : State := putFld (ethS id) .ethPortCfg 0 22 22 1

theorem witness_PrpAndTime :
    Ready (plainCmd 0x0193 2) hp up ∧
    (alive prpS = true ∧ prpEnabled prpS 0 = true ∧ flag prpS .prpPairCfg 0 17 = true ∧ (prpPair prpS 0).svAt + 2000000000 ≤ 2000000000 ∧
      FMap.get? (prpPair prpS 0).table 5 = some ⟨1, [1], [], 0⟩) ∧
    (let s := { ptpS with clk := { ptpS.clk with ptpMaster := some (0, [9]), phaseRef := 1 } }
     ptpPort s 0 = true ∧ fld s .ptpCfg 0 7 0 = 0 ∧ ptpSlaveOn s 0 = true ∧ flag s .ptpCfg 0 8 = true ∧
      (∀ r, s.clk.ptpMaster = some r → rankBefore [8] r.2 = true) ∧ s.clk.phaseRef = 1 ∧
      FMap.getD s.clk.ptpSent (4 * 0 + 3) 0 + 3000000000 ≤ 3000000000) ∧
    (let s := { up with clk := { up.clk with phaseRef := 2 } }
     alive s = true ∧ s.clk.phaseRef = 2) :=
  ⟨rdy_of (by decide +kernel), by decide +kernel, by decide +kernel, by decide +kernel⟩

/-! ### The host interface -/

/-- The context of a CPL ring of 64 entries at an address on 4 KiB, and of the CMD ring on it. -/
def cplC (n gen : Nat) : Bytes := bk 64 [(0, n), (2, 1), (3, 1), (4, gen), (6, 6), (9, 0x10)]
def img (v : BitVec 32) : Image :=
  { version := v, blMask := 3, hifLevels := 2, steppings := [0x4A31], tested := [], coexists := [], revoke := 0, keyPair := 0, digest := zeros 32, raw := [] }
def upi : State := { up with avl := { up.avl with cimA := some (img 1), mimA := some (img 1) } }
def gone : State := { upi with hif := { up.hif with rings := [] } }
def ringOn (r : Ring) : State := { up with hif := { up.hif with rings := (9, r) :: up.hif.rings } }
def ptxR : Ring := { Ring.fresh { ctxOf .ptx with target := 2, queue := 16383, bufSize := 256 } with hostIdx := 1 }
def dsc (d : Bytes) : PtxDesc := { len := d.length, eop := true, tsReq := false, toPair := false, target := 0, tc := 0, clean := true, data := some d }
def prxI (k : Nat) : PrxItem := { kind := k, source := 16383, data := [1, 2], tsValid := false, time := 0, frac := 0, ext := false }
def prxR (k : Nat) : Ring := { Ring.fresh { ctxOf .prx with bufSize := 256, holdUs := 200 } with waiting := [prxI k] }


theorem test_phase_bit_turns_each_lap : phaseBit 6 0 ≠ phaseBit 6 64 ∧ phaseBit 6 0 = phaseBit 6 63 := by decide +kernel

theorem test_context_of_a_cpl_ring : (parseCtx 7 (cplC 7 1)).map (·.ty) = some .cpl ∧ parseCtx 7 (cplC 8 1) = none := by decide +kernel

theorem witness_RingsComeAndGo :
    (barOpen gone = true ∧ ringCreateStatus gone 511 (some (bk 64 [(0, 0xFF), (1, 1), (2, 1), (3, 1), (6, 6)])) = Rr.ok ∧
      (parseCtx 511 (bk 64 [(0, 0xFF), (1, 1), (2, 1), (3, 1), (6, 6)])).isSome = true) ∧
    ringCreateStatus up 0 none ≠ Rr.ok ∧
    (ringResetStatus upi 1 (some (cplC 1 1)) = Rr.ok ∧ (parseCtx 1 (cplC 1 1)).isSome = true ∧ ringResetStatus upi 1 (some (cplC 1 0)) ≠ Rr.ok) ∧
    (ringDestroyStatus up 0 = Rr.ok ∧ ringDestroyStatus up 1 ≠ Rr.ok) := by decide +kernel

theorem witness_RingTransfers :
    (let s := ringOn (Ring.fresh (ctxOf .ptx))
     ring? s 9 = some (Ring.fresh (ctxOf .ptx)) ∧ barOpen s = true ∧ s.hif.pollAt ≤ now (advance 500 s) ∧ s.hif.rings ≠ [] ∧
      doorbellOk (Ring.fresh (ctxOf .ptx)) 64 = true ∧ doorbellOk (Ring.fresh (ctxOf .ptx)) 65 = false) ∧
    (let s := { ringOn ptxR with qmg := (quS id).qmg }
     ptxReady (advance 5 s) 9 [dsc [1]] = true ∧ ptxWaits (advance 5 s) ptxR [dsc [1]] = false ∧ ptxR.ctx.target = 2 ∧
      itemData [dsc [1]] = some [1] ∧ descsOk (advance 5 s) 2 [dsc [1]] = true ∧
      itemSevered (advance 5 s) ptxR.ctx.queue = false ∧
      ptxWaits { s with qmg := { s.qmg with freeRebuild := true } } ptxR [dsc [1]] = true) ∧
    (let s := { ringOn ptxR with qmg := (quS (fun q => { q with discarding := true })).qmg }
     ptxReady (advance 5 s) 9 [dsc [1]] = true ∧ itemSevered (advance 5 s) ptxR.ctx.queue = true) ∧
    (let r := { Ring.fresh { ctxOf .ptx with target := 1 } with hostIdx := 1 }
     ptxReady (advance 5 (ringOn r)) 9 [dsc [1]] = true ∧ ptxWaits (advance 5 (ringOn r)) r [dsc [1]] = false ∧ r.ctx.target < 2) ∧
    (let r := { prxR 0 with hostIdx := 1 }
     prxReady (advance 5 (ringOn r)) 9 = true ∧ nextItem (advance 5 (ringOn r)) (prxI 0) = some (prxI 0)) ∧
    (let r := { prxR 2 with hostIdx := 1 }
     let s := { ringOn r with qmg := (quS (fun q => { q with items := [itm] })).qmg }
     prxReady (advance 5 s) 9 = true ∧ (nextItem (advance 5 s) (prxI 2)).isSome = true ∧
      (queue? s 16383).any (fun p => p.releasing.isNone && p.items == [itm])) ∧
    (holdOver (advance 200000 (ringOn (prxR 0))) 9 (now (advance 200000 (ringOn (prxR 0)))) = true ∧ starvedReason (prxR 0) = 0 ∧
      holdOver (advance 200000 (ringOn (prxR 2))) 9 (now (advance 200000 (ringOn (prxR 2)))) = false ∧
      (let s := { ringOn (prxR 2) with qmg := (quS (fun q => { q with items := [itm] })).qmg }
       holdOver (advance 200000 s) 9 (now (advance 200000 s)) = true ∧ starvedReason (prxR 2) ≠ 0)) ∧
    (let r := { Ring.fresh (ctxOf .cpl) with dmaFail := true, pendW := [[1]] }
     r.stopped = false ∧ r.dmaFail = true) ∧
    (ptxR.dmaFail = false ∧ ptxR.ctx.ty ≠ .cpl ∧ ptxR.ctx.ty ≠ .evt ∧ ptxR.avail ≠ 0 ∧ ptxR.readFail = false ∧
      ({ ptxR with readFail := true } : Ring).avail ≠ 0) := by decide +kernel

def evt1 : Event := ⟨0x0201, false, false, 1, 0, zeros 48⟩

theorem witness_DeviceWrites :
    (let r := { Ring.fresh (ctxOf .evt) with backlog := [evt1] }
     ring? (ringOn r) 9 = some r ∧ backlogReady (ringOn r) 9 = true) ∧
    (let r := { Ring.fresh (ctxOf .cpl) with devIdx := 1 }
     slotDue (advance 1000 (ringOn r)) 9 (now (advance 1000 (ringOn r))) = true) ∧
    (let s := { up with hif := { up.hif with msix := [(63, ⟨1, 0, 0, false⟩)] } }
     slotsWritten (advance 5 s) 63 = true ∧ msixDue (advance 5 s) 63 (now (advance 5 s)) = true) ∧
    (let s := putFld up .statsCfg 0 25 16 1
     statsDue (advance 10000000 s) = true) ∧
    (let s := { up with hif := { up.hif with longOps := [⟨4, 0x0166, 1, 0, 5, 10, 0, 0⟩] } }
     longOp? s 4 = some ⟨4, 0x0166, 1, 0, 5, 10, 0, 0⟩) ∧
    (let s := { up with hif := { up.hif with notices := [⟨Ev.tdmSlip, 3, false, 2, 0, 0, false, 0⟩] } }
     Ready (plainCmd 0x01A1 2) hp s ∧ notice? s Ev.tdmSlip 3 = some ⟨Ev.tdmSlip, 3, false, 2, 0, 0, false, 0⟩) :=
  ⟨by decide +kernel, by decide +kernel, by decide +kernel, by decide +kernel, by decide +kernel, ⟨rdy_of (by decide +kernel), by decide +kernel⟩⟩

theorem witness_RegisterAccess :
    (barAligned 2 false = false ∧ barAligned 4 true = false) ∧
    (barAligned 0xEFFFC false = true ∧ regAt 0xEFFFC = none) ∧
    (barAligned 0x30004 false = true ∧ regAt 0x30004 = some (.rlCfg, 0) ∧ regServed State.reset .rlCfg = false ∧ regServed up .rlCfg = true) ∧
    (pairHi .rlCfg = none ∧ pairLo .rlCfg = none ∧ accMask .rlCfg .rwl ≠ 0 ∧ (accMask .rlCfg .rw ||| accMask .rlCfg .w1c) = 0 ∧
      setupLocked { up with sec := { up.sec with enrolled := true, unlock := none } } = true ∧ setupLocked up = false) ∧
    (accMask .rlCfg .rw ||| accMask .rlCfg .rwl ||| accMask .rlCfg .w1c ≠ 0 ∧
      (let new := mergeWrite .rlCfg false (regVal up .rlCfg 0) 8
       inRange .rlCfg (new ||| (8 &&& accMask .rlCfg .wo)) = true ∧ regCondOk up .rlCfg 0 (regVal up .rlCfg 0) new = true)) ∧
    (barAligned 0x10008 false = true ∧ (accMask .rlStatus .rw ||| accMask .rlStatus .rwl ||| accMask .rlStatus .w1c) ≠ 0) ∧
    inRange .rlFs (mergeWrite .rlFs false (regVal up .rlFs 0) 3839999) = false ∧
    (let off := regOff .mbxAddrLo 0
     barAligned off true = true ∧ regAt off = some (.mbxAddrLo, 0) ∧ pairHi .mbxAddrLo = some .mbxAddrHi ∧ regServed up .mbxAddrLo = true ∧
      accMask .mbxAddrLo .rw ≠ 0 ∧ pairOk up .mbxAddrLo 4096 = true ∧ regOff .mbxAddrLo 0 ≠ regOff .mbxAddrHi 0) ∧
    (regAt (regOff .tbuTimeLo 0) = some (.tbuTimeLo, 0) ∧ pairHi .tbuTimeLo = some .tbuTimeHi) := by decide +kernel

/-! ### Security -/

/-- The octets of an image of a kind with one empty section, version 1.0, that names version 1.0 as tested with it. -/
@[irreducible] def imgB (kind : Nat) : Bytes :=
  let user : Bool := kind == 3
  let kp := if user then 0xFF else 0
  bk 64 [(0, 0x4A), (1, 0x49), (2, 0x4D), (3, 0x47), (4, kind), (5, kp), (7, 1), (9, 1), (8, 0x80), (0x0C, 0x90), (0x10, 0xE0), (0x14, 0x80), (0x15, 0x16)] ++
    bk 16 [(0, 1), (4, 0x80), (5, 0x16)] ++ toBE 64 0xcf83e1357eefb8bdf1542850d66d8007d620e4050b5715dc83f4a921d36ce9ce47d0d13c5d85f2b0ff8318d2877eec2f63b931bd47417a81a538327af927da3e ++
    bk 224 [(0, 0x43), (1, 0x4C), (2, 0x4F), (3, 0x4E), (4, kind), (5, 2), (6, if kind = 1 then 3 else 0), (0x0A, 1), (0x0C, 1), (0x0D, 1), (0x0E, if kind = 2 then 1 else 0),
      (0x10, 0x31), (0x11, 0x4A), (0x22, 1), (0xA2, if kind = 2 then 1 else 0)] ++ zeros 5392

theorem imgB_format : imageFormatOk 1 (imgB 1) = true ∧ imageFormatOk 2 (imgB 2) = true ∧ imageFormatOk 3 (imgB 3) = true := by
  decide +kernel

/-- The digest of no octets is that of the standard. -/
theorem test_sha512_of_nothing : toBE 64 0xcf83e1357eefb8bdf1542850d66d8007d620e4050b5715dc83f4a921d36ce9ce47d0d13c5d85f2b0ff8318d2877eec2f63b931bd47417a81a538327af927da3e = sha512 [] := by
  decide +kernel

set_option maxRecDepth 100000 in
theorem imgB_sections (k : Nat) (h : k = 1 ∨ k = 2 ∨ k = 3) : badSection (imgB k) = none := by
  have e : ∀ k, k = 1 ∨ k = 2 ∨ k = 3 → byteAt (imgB k) 7 = 1 ∧ sectionAt (imgB k) 0 = (1, 5760, 0) ∧
      sub (imgB k) 0x50 64 = toBE 64 0xcf83e1357eefb8bdf1542850d66d8007d620e4050b5715dc83f4a921d36ce9ce47d0d13c5d85f2b0ff8318d2877eec2f63b931bd47417a81a538327af927da3e := by
    intro k h; rcases h with rfl | rfl | rfl <;> decide +kernel
  obtain ⟨h1, h2, h3⟩ := e k h
  have h4 : sub (imgB k) 5760 0 = [] := by simp [sub]
  simp [badSection, h1, h2, h3, h4, test_sha512_of_nothing, List.range_succ]

/-- An image whose key is the vendor's, or the owner's, and whose signatures verify passes checks 1 to 5. -/
theorem imgB_passes (sec : Sec) (k : Nat) (h : k = 1 ∨ k = 2 ∨ k = 3) (hs : failedSigs (imgB k) = 0)
    (hk : (k = 3 ∧ (!sec.signHash.all (· == 0)) = true ∧ keyHash (imgB k) = sec.signHash) ∨
      (k ≠ 3 ∧ keyHash (imgB k) = padTo 32 (Config.vendorHash 0) ∧ sec.revoked = 0)) :
    checkImage sec k (imgB k) = .ok (imageOf (imgB k)) := by
  have hb := imgB_sections k h
  have hf : imageFormatOk k (imgB k) = true := by
    rcases h with rfl | rfl | rfl
    · exact imgB_format.1
    · exact imgB_format.2.1
    · exact imgB_format.2.2
  have h5 : k = 3 ∨ byteAt (imgB k) 5 = 0 := by
    rcases h with rfl | rfl | rfl
    · exact .inr (by decide +kernel)
    · exact .inr (by decide +kernel)
    · exact .inl rfl
  clear h
  generalize imgB k = b at *
  rcases hk with ⟨rfl, h1, h2⟩ | ⟨h3, h1, h2⟩
  · simp only [checkImage, hf, hb, hs, h1, h2]
    simp
  · have h6 : byteAt b 5 = 0 := h5.resolve_left h3
    simp only [checkImage, hf, hb, hs, h6, h1, h2, h3]
    simp

theorem user_passes (s : State) (m : Image) (b : Bytes) (h1 : checkImage s.sec 3 b = .ok (imageOf b))
    (h2 : rule1 (imageOf b) = true ∧ rule6 (imageOf b) m = true ∧ badKernel true b = none ∧ kernelsFit true b = true) :
    checkUser s (some m) b = .ok (imageOf b) := by
  unfold checkUser
  rw [h1]
  simp only [h2.1, h2.2.1, h2.2.2.1, h2.2.2.2, Bool.not_true, Bool.false_eq_true, if_false, if_true]

theorem imgB_user_passes (s : State) (hs : failedSigs (imgB 3) = 0) (h0 : (!s.sec.signHash.all (· == 0)) = true)
    (hk : keyHash (imgB 3) = s.sec.signHash) : checkUser s (some (imageOf (imgB 2))) (imgB 3) = .ok (imageOf (imgB 3)) :=
  user_passes s _ _ (imgB_passes s.sec 3 (.inr (.inr rfl)) hs (.inl ⟨rfl, h0, hk⟩)) (by decide +kernel)

/-- Owner keys in place; and an OWNER session on ring 0. -/
def secS (f : Sec → Sec) : State :=
  { up with sec := f { up.sec with enrolled := true, viewKey := bk 32 [(0, 1)], operKey := bk 32 [(0, 2)], ownerKey := bk 32 [(0, 3)] } }
def ses3 : Session := { privilege := 3, key := zeros 32, lastCmd := 0, commands := 0, ivHigh := 0, ivUsed := false }
def ownS (f : Sec → Sec) : State := secS (fun c => f { c with sessions := [(0, ses3)] })

/-- The proof and the tag were computed with other implementations of HMAC and AES-GCM. A proof for OWNER over a nonce of zeros, and one that is wrong. -/
def non3 : Nonce := { privilege := 3, value := zeros 16, drawn := 0 }
def proofB : Bytes := bk 32 [(0, 3)] ++ toBE 32 0xdeacc8df43c7867e9745057698a366ba251c441e4fd89c79335ed543cf645355
def wrongB : Bytes := bk 64 [(0, 3)]
/-- OWNER_ENROL's block; KEY_SET of the VIEW key under the session's key. -/
def enrolB : Bytes := bk 144 [(0, 1), (0x10, 1), (0x30, 2), (0x50, 3)]
def keyB : Bytes := bk 48 [(15, 1)] ++ toBE 16 0x561bf300a9ab68eda38f1a924a77f994

set_option maxRecDepth 20000 in
theorem witness_SessionsAndKeys :
    (Ready (plainCmd 0x0401 0) hp (secS id) ∧ sessionOpenStatus (take 0 (secS id)) 0 3 = St.ok) ∧
    (let s := secS (fun c => { c with nonces := [(0, non3)] })
     Ready (blockCmd 0x0402 0 64) (hb proofB) s ∧ sessionProveStatus (take 0 s) 0 proofB = St.ok ∧
      Ready (blockCmd 0x0402 0 64) (hb wrongB) s ∧ sessionProveStatus (take 0 s) 0 wrongB = St.badProof) ∧
    (Ready (plainCmd 0x0403 4) hp (ownS id) ∧ (ownS id).sec.enrolled = true) ∧
    (Ready (blockCmd 0x0410 5 144) (hb enrolB) up ∧ ownerEnrolStatus (take 0 up) enrolB = St.ok) ∧
    (Ready (blockCmd 0x0411 3 64) (hb keyB) (ownS id) ∧ keySetStatus (take 0 (ownS id)) 0 keyB = St.ok ∧
      (FMap.get? (take 0 (ownS id)).sec.sessions 0).isSome = true) ∧
    (Ready (plainCmd 0x0412 3) hp (ownS id) ∧ (ownS id).sec.unlock = none ∧ (FMap.get? (ownS id).sec.sessions 0).any (·.commands + 1 < 2 ^ 32)) ∧
    Ready (plainCmd 0x0413 3) hp (ownS (fun c => { c with unlock := some (0, 5) })) ∧
    (FMap.get? (ownS id).sec.sessions 0 = some ses3 ∧ ses3.lastCmd + idleNs (ownS id) ≤ now (advance 65535000000000 (ownS id))) ∧
    (0 + 10000000000 ≤ now (advance 10000000000 (ownS id))) :=
  ⟨⟨rdy_of (by decide +kernel), by decide +kernel⟩,
    ⟨rdy_of (by decide +kernel), by decide +kernel, rdy_of (by decide +kernel), by decide +kernel⟩,
    ⟨rdy_of (by decide +kernel), by decide +kernel⟩, ⟨rdy_of (by decide +kernel), by decide +kernel⟩,
    ⟨rdy_of (by decide +kernel), by decide +kernel, by decide +kernel⟩, ⟨rdy_of (by decide +kernel), by decide +kernel⟩,
    rdy_of (by decide +kernel), by decide +kernel, by decide +kernel⟩

/-- SHA-512 of 1984 zero octets, by another implementation. -/
def keyHash3 : Bytes := toBE 32 0x46c07c261df4a8fb2cb7be38745d57a4a9075d8343b1a64feac90b6d55eccf8b

theorem test_sha512_of_blocks : keyHash (imgB 3) = keyHash3 := by decide +kernel

/-- The device with images 1.0 and a set of user kernels that waits for its end. -/
def ukS (raw : Bytes) : State :=
  { up with sec := { up.sec with signHash := keyHash3 }
            avl := { up.avl with mimA := some (imageOf (imgB 2)), ukLoading := [(0, raw)] } }

theorem witness_AttestationAndUserKernels :
    Ready (blockCmd 0x0404 0 12288) (hb (zeros 12288)) up ∧
    Ready (blockCmd 0x0405 1 4096) (hb (zeros 4096)) up ∧
    mbxTakeable up = true ∧
    (mbxEnrolStatus up (some enrolB) = St.ok ∧ mbxEnrolStatus up none ≠ St.ok) ∧
    (Ready ⟨0x0420, 3, fun _ => true, true, false⟩ (hb [1]) (ownS id) ∧ userLoadStatus (take 0 (ownS id)) = St.ok ∧ (ownS id).hif.longOps.length < 256) ∧
    checkUser { ukS [1] with avl := { (ukS [1]).avl with ukLoading := [] } } (some (imageOf (imgB 2))) [1] = .error (St.imgFormat, 0) ∧
    (failedSigs (imgB 3) = 0 → checkUser { ukS (imgB 3) with avl := { (ukS (imgB 3)).avl with ukLoading := [] } }
      (some (imageOf (imgB 2))) (imgB 3) = .ok (imageOf (imgB 3))) ∧
    (Ready (plainCmd 0x0421 3) hp (ownS id) ∧ userClearStatus (take 0 (ownS id)) = St.ok) :=
  ⟨rdy_of (by decide +kernel), rdy_of (by decide +kernel), by decide +kernel, by decide +kernel,
    ⟨rdy_of (by decide +kernel), by decide +kernel⟩, by rfl, fun h => imgB_user_passes _ h (by decide +kernel) test_sha512_of_blocks,
    ⟨rdy_of (by decide +kernel), by decide +kernel⟩⟩

/-! ### Directory, memories and the retained configuration -/

/-- EPD_PUT of address 5, and a directory that holds it in slot 0. -/
def putB : Bytes := bk 128 [(0, 5), (8, 1)]
def ent5 : EpdEntry := EpdEntry.fresh 5
def epdS (f : Epd → Epd) : State := { up with epd := f { up.epd with entries := [(0, ent5)], refs := [⟨0, some 3⟩] } }

set_option maxRecDepth 20000 in
theorem witness_EndpointDirectory :
    (Ready (blockCmd 0x0501 2 128) (hb putB) up ∧ epdPutStatus (take 0 up) putB = St.ok ∧ slotOf up (epdAddr putB) = none) ∧
    (Ready (blockCmd 0x0501 2 128) (hb putB) (epdS id) ∧ epdPutStatus (take 0 (epdS id)) putB = St.ok ∧
      slotOf (epdS id) (epdAddr putB) = some 0) ∧
    (Ready (plainCmd 0x0502 2) hp (epdS id) ∧ slotOf (epdS id) 5 = some 0 ∧ slotOf (epdS id) 6 = none) ∧
    (Ready (blockCmd 0x0503 1 128) (hb (zeros 128)) (epdS id) ∧ epdEntry? (epdS id) 0 = some ent5) ∧
    (Ready ⟨0x0504, 2, (· == 128 * 1), true, false⟩ (hb putB) up ∧ up.hif.longOps.length < 256) ∧
    Ready ⟨0x0505, 2, (· == 128 * 1), true, false⟩ (hb putB) up ∧
    (Ready (plainCmd 0x0506 2) hp (epdS id) ∧ (epdS id).epd.rebuild = none) ∧
    Ready (plainCmd 0x0507 3) hp (epdS id) ∧
    (let s := epdS (fun e => { e with load := [(0, putB)], export_ := [(1, 1)], rebuild := some (some 2, zeros 16) })
     alive s = true ∧ s.epd.load = [(0, putB)] ∧ s.epd.export_ = [(1, 1)] ∧ s.epd.rebuild = some (some 2, zeros 16)) :=
  ⟨⟨rdy_of (by decide +kernel), by decide +kernel, by decide +kernel⟩, ⟨rdy_of (by decide +kernel), by decide +kernel, by decide +kernel⟩,
    ⟨rdy_of (by decide +kernel), by decide +kernel, by decide +kernel⟩, ⟨rdy_of (by decide +kernel), by decide +kernel⟩,
    ⟨rdy_of (by decide +kernel), by decide +kernel⟩, rdy_of (by decide +kernel), ⟨rdy_of (by decide +kernel), by decide +kernel⟩,
    rdy_of (by decide +kernel), by decide +kernel⟩

/-- A pass of region 4 that operation 9 waits for. -/
def scrS : State := { up with dmc := { up.dmc with scrubbing := [(4, some 9)] } }
def op9 : LongOp := ⟨9, 0x0511, 1, 0, 5, 10, 0, 0⟩

theorem witness_MemoriesAndConfiguration :
    (Ready (plainCmd 0x0511 2) hp up ∧ up.dmc.scrubbing.any (fun e => e.1 == 4) = false ∧ up.hif.longOps.length < 256) ∧
    (Ready (plainCmd 0x0511 2) hp scrS ∧ scrS.dmc.scrubbing.any (fun e => e.1 == 4) = true) ∧
    (let s := { up with hif := { up.hif with longOps := List.replicate 256 op9 } }
     Ready (plainCmd 0x0511 2) hp s ∧ s.dmc.scrubbing.any (fun e => e.1 == 4) = false ∧ 256 ≤ s.hif.longOps.length) ∧
    (Ready (plainCmd 0x0521 3) hp up ∧ up.endp.degraded = false) ∧
    Ready (plainCmd 0x0521 3) hp { up with endp := { up.endp with degraded := true } } ∧
    (Ready (plainCmd 0x0522 3) hp up ∧ regAt 0x30004 = some (.rlCfg, 0) ∧ RegName.rlCfg ≠ .rlCtrl) ∧
    (alive scrS = true ∧ scrS.dmc.scrubbing.find? (fun e => e.1 == 4) = some (4, some 9)) ∧
    { up with dmc := { up.dmc with chOk := 8 } }.dmc.chOk.getLsbD 3 = true ∧
    ((vpeAt { up with vpes := [(271, { vr with op := some (57344, 0, 0) })] } 271).op.isSome = true ∧ (vpeAt up 271).op = none) ∧
    FMap.get? (chanS id).chans 5 = some ch5 ∧
    (let q := { qu1 with taken := some (itm, 0) }
     queue? (quS (fun _ => q)) 16383 = some q ∧ q.taken = some (itm, 0) ∧ q.releasing = none) ∧
    ((flow? (upf [] []) 57344).isSome = true ∧ flow? (upf [] []) 5 = none) ∧
    (epdEntry? (epdS id) 0 = some ent5 ∧ epdEntry? (epdS id) 1 = none) ∧
    (7 ≤ up.avl.stage ∧ (let s := { up with avl := { up.avl with stage := 6 } }; alive s = true ∧ s.avl.stage < 7)) ∧
    up.endp.lifeAt + 60000000000 ≤ now (advance 60000000000 up) :=
  ⟨⟨rdy_of (by decide +kernel), by decide +kernel⟩, ⟨rdy_of (by decide +kernel), by decide +kernel⟩,
    ⟨rdy_of (by decide +kernel), by decide +kernel⟩, ⟨rdy_of (by decide +kernel), by decide +kernel⟩, rdy_of (by decide +kernel),
    ⟨rdy_of (by decide +kernel), by decide +kernel⟩, by decide +kernel, by decide +kernel, by decide +kernel, by decide +kernel,
    by decide +kernel, by decide +kernel, by decide +kernel, by decide +kernel, by decide +kernel⟩

/-- An event ring with an event in its backlog, after an uncorrectable error of the DRAM. -/
theorem witness_MemoriesAndConfiguration_event : ∃ r, ring? (dramUe 0 0 (ringOn { Ring.fresh (ctxOf .evt) with backlog := [evt1] })) 9 = some r ∧
    r.backlog ≠ [] := by
  refine ⟨{ Ring.fresh (ctxOf .evt) with backlog := [evt1] }, ?_, by decide +kernel⟩
  rfl

/-! ### Resets, start-up, images and service -/

theorem witness_ResetsAndPowerStates :
    (up.avl.porHeld = false ∧ State.reset.avl.porHeld = false) ∧
    Ready (plainCmd 0x0606 3) hp up ∧ (16 : Nat) < domainRange 0 ∧ domainRange 4 ≤ 0 ∧
    serving up = true ∧ Ready (plainCmd 0x0531 3) hp up ∧ Ready (plainCmd 0x0532 3) hp up ∧ alive up = true :=
  ⟨by decide +kernel, rdy_of (by decide +kernel), by decide +kernel, by decide +kernel, by decide +kernel,
    rdy_of (by decide +kernel), rdy_of (by decide +kernel), by decide +kernel⟩

/-- Four channels of 2 Gbit that train; the images 1.0 in slot A. -/
def env8 : BootEnv := { factoryLow := false, density := [2, 2, 2, 2], identOk := true, writeReadOk := true, trainOk := true, pprCapable := false, headerOk := true }
def bootS : State := { State.reset with avl := { State.reset.avl with cimA := some (imageOf (imgB 1)), mimA := some (imageOf (imgB 2)) } }

/-- The vendor's key is that of the images, and their signatures verify. -/
def Signed : Prop := keyHash (imgB 1) = padTo 32 (Config.vendorHash 0) ∧ keyHash (imgB 2) = padTo 32 (Config.vendorHash 0) ∧
  failedSigs (imgB 1) = 0 ∧ failedSigs (imgB 2) = 0

theorem cim_passes (s : State) (b : Bytes) (h1 : checkImage s.sec 1 b = .ok (imageOf b)) (h2 : rules12 s (imageOf b) = St.ok) :
    checkCim s b = .ok (imageOf b) := by
  unfold checkCim
  rw [h1]
  simp [h2]

theorem mim_passes (s : State) (b : Bytes) (h1 : checkImage s.sec 2 b = .ok (imageOf b)) (h2 : rules12 s (imageOf b) = St.ok)
    (h3 : badKernel false b = none ∧ kernelsFit false b = true) : checkMim s b = .ok (imageOf b) := by
  unfold checkMim
  rw [h1]
  simp [h2, h3]

theorem cim_status (s : State) (i : Image) (h : s.avl.cimA = some i) (k : checkCim s i.raw = .ok i) : cimStatus s 0 = St.ok := by
  simp [cimStatus, slotCim, h, k]

theorem mim_status (s : State) (c i : Image) (hc : s.avl.cimA = some c) (h : s.avl.mimA = some i) (k : checkMim s i.raw = .ok i)
    (r : rule3 s c i = true) : mimStatus s 0 0 = St.ok := by
  simp [mimStatus, slotCim, slotMim, hc, h, k, r]

theorem imgB_cim (s : State) (hs : s.sec.revoked = 0) (hb : s.avl.behaviourLock = false) (h : Signed) :
    checkCim s (imgB 1) = .ok (imageOf (imgB 1)) :=
  cim_passes s _ (imgB_passes s.sec 1 (.inl rfl) h.2.2.1 (.inr ⟨by decide, h.1, hs⟩)) (by
    have e : rule1 (imageOf (imgB 1)) = true := by decide +kernel
    simp [rules12, rule2, hb, e])

theorem imgB_mim (s : State) (hs : s.sec.revoked = 0) (hb : s.avl.behaviourLock = false) (h : Signed) :
    checkMim s (imgB 2) = .ok (imageOf (imgB 2)) :=
  mim_passes s _ (imgB_passes s.sec 2 (.inr (.inl rfl)) h.2.2.2 (.inr ⟨by decide, h.2.1, hs⟩)) (by
    have e : rule1 (imageOf (imgB 2)) = true := by decide +kernel
    simp [rules12, rule2, hb, e]) (by decide +kernel)

theorem witness_StartUpReachesItsStages :
    (State.reset.avl.stage = 0 ∧ State.reset.avl.porHeld = false ∧ State.reset.avl.power = 0 ∧
      cimStatus State.reset 0 ≠ St.ok ∧ cimStatus State.reset 1 ≠ St.ok ∧ State.reset.avl.bootCim ≤ 1 ∧
      State.reset.avl.fallbackFlag = false) ∧
    (Signed → cimStatus bootS bootS.avl.bootCim = St.ok ∧ mimStatus bootS bootS.avl.bootCim bootS.avl.bootMim = St.ok) ∧
    (bootS.avl.factoryReq = false ∧ (bringUpDram env8 bootS).1 = true ∧ bootS.avl.knownGood = none ∧
      (bringUpDram { env8 with density := [2, 2, 2] } bootS).1 = false ∧
      ∀ n, n < 8 → linkEnabled { bootS with regs := bootS.endp.committed.regs } n = false) ∧
    (let s := { bootS with avl := { bootS.avl with mimA := none } }
     Signed → cimStatus s s.avl.bootCim = St.ok ∧ mimStatus s s.avl.bootCim s.avl.bootMim ≠ St.ok) ∧
    (let s := { up with avl := { up.avl with stage := 6 } }
     alive s = true ∧ s.avl.stage = 6 ∧ s.avl.power = 0) ∧
    (let s := { up with avl := { up.avl with stage := 9 } }
     alive s = true ∧ checkCim s [] = .error (St.imgFormat, 0) ∧ (Signed → checkCim s (imgB 1) = .ok (imageOf (imgB 1)))) :=
  ⟨by decide +kernel,
    fun h => ⟨cim_status bootS _ rfl (imgB_cim bootS rfl rfl h), mim_status bootS _ _ rfl rfl (imgB_mim bootS rfl rfl h) (by decide +kernel)⟩,
    by decide +kernel,
    fun h => ⟨cim_status { bootS with avl := { bootS.avl with mimA := none } } _ rfl (imgB_cim _ rfl rfl h), by decide +kernel⟩,
    by decide +kernel, ⟨by decide +kernel, by rfl, fun h => imgB_cim _ rfl rfl h⟩⟩

/-- The device with images in slot B of both kinds, ready to change to them. -/
def newS : State :=
  { up with avl := { up.avl with cimA := some (imageOf (imgB 1)), cimB := some (imageOf (imgB 1)), mimA := some (imageOf (imgB 2)),
                                 mimB := some (imageOf (imgB 2)), standbyReady := true, spare := some 16 } }

theorem new_cim (h : Signed) : (activateCimStatus newS).1 = St.ok := by
  have k := imgB_cim newS rfl rfl h
  have r : rule3 newS (imageOf (imgB 1)) (imageOf (imgB 2)) = true ∧ rule5 newS (imageOf (imgB 1)) = true := by decide +kernel
  have e1 : slotCim newS (1 - newS.avl.cimSlot) = some (imageOf (imgB 1)) := rfl
  have e2 : runMim newS = some (imageOf (imgB 2)) := rfl
  have e3 : (imageOf (imgB 1)).raw = imgB 1 := rfl
  have e4 : newS.avl.standbyReady = true ∧ newS.avl.handover = none ∧ newS.avl.rolling = none := ⟨rfl, rfl, rfl⟩
  generalize newS = s at *
  unfold activateCimStatus
  rw [e1]
  simp only [e3, k, e2, r.1, r.2, e4.1, e4.2.1, e4.2.2]
  rfl

theorem new_mim (h : Signed) : (activateMimStatus newS).1 = St.ok := by
  have k := imgB_mim newS rfl rfl h
  have r : rule3 newS (imageOf (imgB 1)) (imageOf (imgB 2)) = true ∧ rule4 (imageOf (imgB 2)) (imageOf (imgB 2)) = true := by decide +kernel
  have e1 : slotMim newS (1 - newS.avl.mimSlot) = some (imageOf (imgB 2)) := rfl
  have e2 : runMim newS = some (imageOf (imgB 2)) := rfl
  have e3 : (imageOf (imgB 2)).raw = imgB 2 := rfl
  have e4 : runCim newS = some (imageOf (imgB 1)) := rfl
  have e5 : newS.avl.userLoaded = none ∧ newS.avl.spare = some 16 ∧ spareBusy newS = false ∧ newS.avl.handover = none := ⟨rfl, rfl, rfl, rfl⟩
  generalize newS = s at *
  unfold activateMimStatus
  rw [e1]
  simp only [e3, k, e2, e4, r.1, r.2, e5.1, e5.2.1, e5.2.2.1, e5.2.2.2]
  rfl

def rollS (l : List Nat) (back : Bool) : State :=
  { newS with avl := { newS.avl with rolling := some ⟨0, 1, l, back⟩ } }

theorem witness_ImagesAndUpdates :
    (Ready ⟨0x0601, 3, fun _ => true, true, false⟩ (hb [1]) up ∧ imgWriteStatus (take 0 up) 2 = St.ok ∧ up.hif.longOps.length < 256) ∧
    (serving up = true ∧ checkImage up.sec 2 [1] = .error (St.imgFormat, 0) ∧
      (Signed → checkImage up.sec 2 (imgB 2) = .ok (imageOf (imgB 2))) ∧ rules12 up (imageOf (imgB 2)) = St.ok) ∧
    (Ready (plainCmd 0x0603 3) hp up ∧ up.endp.degraded = false) ∧
    Ready (plainCmd 0x0604 1) hp up ∧
    (Ready (plainCmd 0x0605 3) hp newS ∧ lockSetStatus (take 0 newS) = St.ok) ∧
    (Ready (plainCmd 0x0602 3) hp newS ∧ (activateMimStatus up).1 ≠ St.ok ∧ (activateCimStatus up).1 ≠ St.ok ∧
      (Signed → (activateMimStatus newS).1 = St.ok ∧ (activateCimStatus newS).1 = St.ok)) ∧
    (serving newS = true ∧ newS.avl.handover = none) ∧
    ((rollS [] false).avl.rolling = some ⟨0, 1, [], false⟩ ∧ (rollS [] false).avl.spare = some 16 ∧ (rollS [] false).avl.migrating = none ∧
      (activeClusters (rollS [] false)).find? (fun j => !([16] : List Nat).contains j) = some 0) ∧
    (∀ k, k ∈ activeClusters (rollS (List.range 16) false) → k ∈ 16 :: List.range 16) ∧
    ([16] : List Nat).filter (· != 16) = [] ∧
    (newS.avl.stage = 7 ∧ newS.avl.runSince + fld newS .avlCfg 0 22 12 * 60000000000 ≤ now (advance 122820000000000 newS)) :=
  ⟨⟨rdy_of (by decide +kernel), by decide +kernel, by decide +kernel⟩,
    ⟨by decide +kernel, by rfl, fun h => imgB_passes up.sec 2 (.inr (.inl rfl)) h.2.2.2 (.inr ⟨by decide, h.2.1, rfl⟩), by decide +kernel⟩,
    ⟨rdy_of (by decide +kernel), by decide +kernel⟩, rdy_of (by decide +kernel), ⟨rdy_of (by decide +kernel), by decide +kernel⟩,
    ⟨rdy_of (by decide +kernel), by decide +kernel, by decide +kernel, fun h => ⟨new_mim h, new_cim h⟩⟩,
    by decide +kernel, by decide +kernel, by decide +kernel, by decide +kernel, by decide +kernel⟩

/-- Flow 57344 with its home on cluster 0, at rest and in an op. -/
def flw (l : List Inst) : Flow :=
  { cls := 1, lateRelease := false, nodes := [], miss := none, period := 0, deadline := 10, opRate := 0, window := 1, report := false, host := true,
    ring := 0, homeVpe := 0, insts := l, nextNum := 0, stalled := [], releasing := none, committed := [], versions := [], lastPred := [],
    fresh := true, owed := [], cluster := 0, slack := none }
def migS (l : List Inst) : State :=
  { up with avl := { up.avl with migrating := some (0, 16) }, fsc := { up.fsc with flows := [(57344, flw l)] } }

theorem witness_MigrationAndSelfTest :
    (Ready (plainCmd 0x0607 2) hp up ∧ clusterActive up 16 = false ∧ clusterActive up 0 = true ∧ up.avl.spare = some 16 ∧
      spareBusy up = false ∧ flowsOf up 0 = [] ∧ spareBusy (migS []) = true) ∧
    clusterActive { up with avl := { up.avl with spare := none } } 16 = true ∧
    (let s := { migS [] with avl := { (migS []).avl with migrating := none } }
     clusterActive s 0 = true ∧ spareBusy s = false ∧ flowsOf s 0 ≠ []) ∧
    (serving (migS []) = true ∧ flow? (migS []) 57344 = some (flw []) ∧ flowAtRest (flw []) = true) ∧
    (let s := putFld up .avlCfg 0 10 0 10
     let t := advance 600000000000 s
     s.avl.stage = 7 ∧ rotationDue t = true ∧ nextRotated t = some 0) ∧
    (Ready (plainCmd 0x0608 2) hp up ∧ selfTestStatus (take 0 up) = St.ok) ∧
    (let s := { up with avl := { up.avl with selfTesting := some (some 4) } }
     serving s = true ∧ s.avl.selfTesting = some (some 4) ∧ s.avl.spare = some 16) :=
  ⟨⟨rdy_of (by decide +kernel), by decide +kernel⟩, by decide +kernel, by decide +kernel, by decide +kernel, by decide +kernel,
    ⟨rdy_of (by decide +kernel), by decide +kernel⟩, by decide +kernel⟩

/-! ### The twin link and the voltage loop -/

def twinS (role link : Nat) : State :=
  let s := putFld up .twinCfg 0 0 0 1
  { s with twin := { s.twin with role, link } }

theorem witness_TwinLink :
    (Ready (plainCmd 0x0609 3) hp (twinS 1 3) ∧ (twinS 1 3).endp.degraded = false ∧ (twinS 1 3).twin.role = 1 ∧ (twinS 1 3).twin.link = 3) ∧
    (Ready (plainCmd 0x0609 3) hp (twinS 0 2) ∧ (twinS 0 2).twin.role ≠ 1) ∧
    (serving (twinS 0 1) = true ∧ flag (twinS 0 1) .twinCfg 0 0 = true ∧ (twinS 0 1).twin.link < 2) ∧
    ((twinS 0 3).twin.role = 0 ∧ devOf (twinS 0 3) 10000000 % 10000000 = 0) ∧
    (let w := { (twinS 1 0).twin with lostAt := some 0, applied := some 0 }
     let s := { putFld (twinS 1 0) .twinCfg 0 2 2 1 with twin := w, tps := [(3, tp3)], rtps := [(9, ctx9)], epd := (epdS id).epd }
     takeoverDue (advance 60000000000 s) 60000000000 = true) :=
  ⟨⟨rdy_of (by decide +kernel), by decide +kernel⟩, ⟨rdy_of (by decide +kernel), by decide +kernel⟩, by decide +kernel,
    by decide +kernel, by decide +kernel⟩

theorem witness_VoltageLoop :
    (let s := { up with avs := { up.avs with run := true, voutMv := 750 }, fsc := { up.fsc with slack := [(0, -1)] } }
     alive s = true ∧ s.avs.run = true ∧ s.avs.request = none ∧ upRequest (advance 5 s) 5 = some 760 ∧ slackLow s = true ∧
      upRequest { s with avs := { s.avs with voutMv := 850 } } 5 = none) ∧
    (let s := { up with avs := { up.avs with run := true, voutMv := 850 }, fsc := { up.fsc with slack := [(0, -1)] },
                        hif := { up.hif with notices := [⟨Ev.paceWarning, 0, false, 1, -1, -1, true, 0⟩] } }
     upDue (advance 5 s) 5 = some 860 ∧ avsMaxMv s < 860 ∧ (notice? s Ev.paceWarning 0).isSome = true ∧
      FMap.get? s.fsc.slack 0 = some (-1) ∧ (-1 : Int) < (paceThrNs s : Int) ∧
      upDue { s with avs := { s.avs with lastUp := some 0 } } 5 = none) ∧
    (let s := { up with avs := { up.avs with run := true, voutMv := 750, calmSince := some 0 } }
     slackLow s = false ∧ downRequest (advance 100000000 s) 1100 100000000 = some 745 ∧ downRequest (advance 100000000 s) 1101 100000000 = none) ∧
    (let s := { up with avs := { up.avs with retryAt := some 100000, request := some 760 } }
     alive s = true ∧ s.avs.retryAt = some 100000 ∧ s.avs.request = some 760) := by decide +kernel

/-! ### Commands, steps and reset -/

theorem witness_CommandsAreTakenAndChecked :
    cmdRow (.commit hp) = some (plainCmd 0x0521 3, hp) ∧
    takeable State.reset 0 = false ∧
    (takeable (secS id) 0 = true ∧ preStatus (plainCmd 0x0521 3) hp (secS id) = St.noSession ∧ privOf (secS id) 0 = none) ∧
    (let s := secS (fun c => { c with sessions := [(0, { ses3 with privilege := 2 })] })
     privOf s 0 = some 2 ∧ preStatus (plainCmd 0x0521 3) hp s = St.denied) ∧
    (takeable up 0 = true ∧ privOf up 0 = some 3 ∧ preStatus (blockCmd 0x0101 2 64 true) hp up = St.badDesc ∧
      (ring? up 0).any (fun r => r.ctx.cplRing != 0 && (ring? up r.ctx.cplRing).any (fun q => !q.dmaFail)) = true ∧
      FMap.get? up.sec.sessions 0 = none) ∧
    preStatus (blockCmd 0x0101 2 64 true) (hb (zeros 64)) (twinS 1 3) = St.twinState ∧
    preStatus (blockCmd 0x0101 2 64 true) (hb (zeros 64)) { up with avl := { up.avl with stage := 10 } } = St.noCapacity ∧
    preStatus (plainCmd 0x0521 3) hp up = St.ok := ⟨rfl, by decide +kernel⟩

theorem witness_StepRunsTheFrontOfTheQueue :
    ({ up with pending := [.tick, .sweepStart] } : State).pending = .tick :: [.sweepStart] ∧ State.reset.pending = [] := ⟨rfl, rfl⟩

theorem test_step_takes_the_front :
    (match step { up with pending := [.tick, .sweepStart] } with | .next t => (t.clk.tick, t.pending) | _ => (0, [])) = (1, [.sweepStart]) := by
  decide +kernel

theorem test_fetch_word : ∀ s : State, s.withFetchWord 32 5 = s := fun _ => rfl

end Sys2Proof.Tests
end

section
/-! SUPPORT. Rules that the statements about VPE operations share: what a command leaves that runs one operation, when an
exact value is brought into a register, and what writing the lanes of a register changes. -/

namespace Sys2Proof.Machine

open Sys2Proof

/-! ### Commands that run one operation (R220) -/

/-- A VPE that can issue an operation becomes what the operation, as a bundle of its own, makes of it. -/
theorem VpeAble.becomes {i : Instr} {s : State} {n : Nat} {p : BitVec 4} {op : VOp} (able : VpeAble s n p op)
    (runs : exec i s = .next (runOp n p op s)) : VpeBecomes i s n (issueOne s.free p op (vpeAt s n)) := by
  obtain ⟨hn, hp, hok, hrun, -⟩ := able
  obtain ⟨fr, h⟩ := runVpe_runs (f := fun fr r => issueOne fr p op r) hn hrun
  refine ⟨_, runs, ?_⟩
  unfold runOp
  rw [if_neg (by simpa [hok] using hp), h]

theorem VpeAble.opOk_eq_true {s : State} {n : Nat} {p : BitVec 4} {op : VOp} (able : VpeAble s n p op) :
    opOk op = true := by
  obtain ⟨-, -, hok, -⟩ := able
  exact hok

/-- An operation of the M slot. -/
theorem VpeAble.becomes_m {i : Instr} {s : State} {n : Nat} {p : BitVec 4} {op : VOp} (able : VpeAble s n p op)
    (runs : exec i s = .next (runOp n p op s)) (slot : slotKind op = .m) :
    VpeBecomes i s n (mSlot op ((vpeAt s n).mask p) (vpeAt s n) (vpeAt s n).counted).advance := by
  have h := able.becomes runs
  obtain ⟨-, -, -, hrun, hlo, hhi, hmax⟩ := able
  rwa [issueOne_m slot hrun hlo hhi hmax] at h

/-- An enabled operation of the X slot that transfers no control. -/
theorem VpeAble.xStep {i : Instr} {s : State} {n : Nat} {p : BitVec 4} {op : VOp} {u : Vpe} (able : VpeAble s n p op)
    (on : (vpeAt s n).enabled p = true) (runs : exec i s = .next (runOp n p op s)) (slot : slotKind op = .x)
    (goesOn : ∀ w, control op true (vpeAt s n) w = w.advance)
    (writes : xSlot op s.free (vpeAt s n) (vpeAt s n).counted = u) : XStep i s n u := by
  have h := able.becomes runs
  obtain ⟨-, -, -, hrun, hlo, hhi, hmax⟩ := able
  rw [issueOne_x slot hrun hlo hhi hmax, if_pos on, goesOn] at h
  exact writes ▸ h

/-- An enabled operation of the L slot whose accesses are within their bounds. -/
theorem VpeAble.lStep {i : Instr} {s : State} {n : Nat} {p : BitVec 4} {op : VOp} {u : Vpe} (able : VpeAble s n p op)
    (on : (vpeAt s n).enabled p = true) (runs : exec i s = .next (runOp n p op s)) (slot : slotKind op = .l)
    (writes : lSlot op (vpeAt s n) (vpeAt s n).counted = some u) : XStep i s n u := by
  have h := able.becomes runs
  obtain ⟨-, -, -, hrun, hlo, hhi, hmax⟩ := able
  rw [issueOne_l slot hrun hlo hhi hmax, if_pos on] at h
  change lSlot op (vpeAt s n) { vpeAt s n with issued := (vpeAt s n).issued + 1 } = some u at writes
  rwa [writes] at h

/-! ### Exact values in a register (R229 to R231) -/

theorem narrowed_narrowTo {w : Nat} (hw : 0 < w) (sat : Bool) (t : Int) :
    Narrowed w sat t (narrowTo w sat t).1 (narrowTo w sat t).2 := narrowTo_spec w hw sat t

/-- A value already in the register is held as it is, with no event. -/
theorem narrowed_toInt {w : Nat} (sat : Bool) (x : BitVec w) : Narrowed w sat x.toInt x false := by
  have lo := BitVec.le_toInt x
  have hi := BitVec.toInt_lt (x := x)
  refine ⟨?_, ?_⟩
  · cases sat
    · exact (BitVec.toInt_bmod_cancel x).symm
    · simp only [if_true]; omega
  · simp only [Bool.false_eq_true, false_iff]; omega

theorem narrowed_of_toInt_eq {w : Nat} (sat : Bool) {t : Int} {x : BitVec w} (h : x.toInt = t) :
    Narrowed w sat t x false := h ▸ narrowed_toInt sat x

theorem narrowed_ofInt {w : Nat} (hw : 0 < w) (sat : Bool) {t : Int} (lo : -2 ^ (w - 1) ≤ t) (hi : t < 2 ^ (w - 1)) :
    Narrowed w sat t (BitVec.ofInt w t) false :=
  narrowed_of_toInt_eq sat (BitVec.toInt_ofInt_eq_self hw lo hi)

theorem narrowed_ofNat {w : Nat} (hw : 0 < w) (sat : Bool) {t : Nat} (hi : t < 2 ^ (w - 1)) :
    Narrowed w sat t (BitVec.ofNat w t) false := by
  have h : (t : Int) < 2 ^ (w - 1) := by exact_mod_cast hi
  have lo : -(2 : Int) ^ (w - 1) ≤ t := by omega
  simpa using narrowed_ofInt hw sat lo h

/-! ### Lanes (R218, R232) -/

@[simp] theorem getLsbD_laneBits (f : Nat → Bool) (j : Nat) : (laneBits f).getLsbD j = (decide (j < 4) && f j) := by
  have table : ∀ b0 b1 b2 b3 : Bool, ∀ k : Fin 4, (BitVec.ofNat 4
      ((if b0 then 1 else 0) + (if b1 then 2 else 0) + (if b2 then 4 else 0) + (if b3 then 8 else 0))).getLsbD k =
        ![b0, b1, b2, b3] k := by decide
  have bit := table (f 0) (f 1) (f 2) (f 3)
  by_cases hj : j < 4
  · interval_cases j
    exacts [bit 0, bit 1, bit 2, bit 3]
  · simp [hj, BitVec.getLsbD_of_ge (laneBits f) j (by omega)]

theorem V4.lane_ofFn {α : Type} (f : Nat → α) {i : Nat} (h : i < 4) : (V4.ofFn f).lane i = f i := by
  interval_cases i <;> rfl

theorem V4.lane_blend {α : Type} (m : BitVec 4) (old new : V4 α) {i : Nat} (h : i < 4) :
    (V4.blend m old new).lane i = if m.getLsbD i then new.lane i else old.lane i := V4.lane_ofFn _ h

/-- Events are recorded for the lanes of the mask. -/
theorem getLsbD_events (m : BitVec 4) (f : Nat → Bool) (j : Nat) :
    (laneBits f &&& m).getLsbD j = (decide (j < 4) && (m.getLsbD j && f j)) := by
  rw [BitVec.getLsbD_and, getLsbD_laneBits, Bool.and_assoc, Bool.and_comm (f j)]

/-- The same bits moved to the accumulators' part of VST. -/
theorem getLsbD_events_high (m : BitVec 4) (f : Nat → Bool) {j : Nat} (hj : j < 16) :
    ((laneBits f &&& m).zeroExtend 16 <<< 4).getLsbD j =
      (decide (4 ≤ j ∧ j < 8) && (m.getLsbD (j - 4) && f (j - 4))) := by
  rw [BitVec.getLsbD_shiftLeft, BitVec.getLsbD_setWidth, getLsbD_events]
  by_cases low : j < 4
  · simp [low]
  · have inner : j - 4 < 16 := by omega
    have upper : j - 4 < 4 ↔ j < 8 := by omega
    have from4 : 4 ≤ j := by omega
    simp [low, hj, inner, upper, from4]

/-- A lane of a blend is narrowed from its exact value where the mask enables it, and kept with no event elsewhere. -/
theorem narrowed_lane_blend {w : Nat} {sat : Bool} {val : Nat → Int} {f : Nat → BitVec w × Bool} (m : BitVec 4)
    (old : V4 (BitVec w)) {i : Nat} (hi : i < 4) (exact : Narrowed w sat (val i) (f i).1 (f i).2) :
    if m.getLsbD i then
      Narrowed w sat (val i) ((V4.blend m old (V4.ofFn (fun j => (f j).1))).lane i) (m.getLsbD i && (f i).2)
    else (V4.blend m old (V4.ofFn (fun j => (f j).1))).lane i = old.lane i ∧ (m.getLsbD i && (f i).2) = false := by
  rw [V4.lane_blend m _ _ hi, V4.lane_ofFn _ hi]
  cases m.getLsbD i
  · exact ⟨rfl, rfl⟩
  · exact exact

/-! ### Registers that a write of lanes leaves (R229, R232) -/

theorem Vpe.getAC_lanesAC_same (w : Vpe) (a : BitVec 3) (m : BitVec 4) (f : Nat → BitVec 48 × Bool) :
    (w.lanesAC a m f).getAC a = V4.blend m (w.getAC a) (V4.ofFn (fun i => (f i).1)) := by
  simp [Vpe.lanesAC, Vpe.putAC, Vpe.getAC]

theorem Vpe.getAC_lanesAC_other (w : Vpe) {a k : BitVec 3} (m : BitVec 4) (f : Nat → BitVec 48 × Bool) (h : k ≠ a) :
    (w.lanesAC a m f).getAC k = w.getAC k := by
  have : a.toNat ≠ k.toNat := fun e => h (BitVec.eq_of_toNat_eq e.symm)
  simp [Vpe.lanesAC, Vpe.putAC, Vpe.getAC, this]

theorem Vpe.getV_lanesV_same (w : Vpe) (d : BitVec 5) (m : BitVec 4) (f : Nat → BitVec 18 × Bool) :
    (w.lanesV w.rot d m f).getV d = V4.blend m (w.getV d) (V4.ofFn (fun i => (f i).1)) := by
  simp [Vpe.lanesV, Vpe.putV, Vpe.getV]

theorem Vpe.getV_lanesV_other (w : Vpe) {d k : BitVec 5} (m : BitVec 4) (f : Nat → BitVec 18 × Bool)
    (h : physV w.rot k ≠ physV w.rot d) : (w.lanesV w.rot d m f).getV k = w.getV k := by
  have : (physV w.rot d).toNat ≠ (physV w.rot k).toNat := fun e => h (BitVec.eq_of_toNat_eq e.symm)
  simp [Vpe.lanesV, Vpe.putV, Vpe.getV, this]

/-- Writing narrowed lanes of an accumulator is what `AccOf` asks. -/
theorem accOf_lanesAC {r : Vpe} {p : BitVec 4} {acd : BitVec 3} {lanes : BitVec 4} {sat : Bool} {val : Nat → Int}
    {f : Nat → BitVec 48 × Bool} (exact : ∀ i, Narrowed 48 sat (val i) (f i).1 (f i).2) :
    AccOf r (r.counted.lanesAC acd (r.mask p &&& lanes) f) p acd lanes sat val := by
  refine ⟨rfl, fun k h => Vpe.getAC_lanesAC_other _ _ _ h,
    fun i => (r.mask p &&& lanes).getLsbD i && (f i).2, fun i hi => ?_, fun j hj => ?_⟩
  · rw [Vpe.getAC_lanesAC_same]
    exact narrowed_lane_blend _ _ hi (exact i)
  · have bits : (r.counted.lanesAC acd (r.mask p &&& lanes) f).vst =
      r.vst ||| ((laneBits (fun i => (f i).2) &&& (r.mask p &&& lanes)).zeroExtend 16 <<< 4) := rfl
    rw [bits, BitVec.getLsbD_or, getLsbD_events_high _ _ hj]

/-- Writing narrowed lanes of a vector register is what `VecOf` asks. -/
theorem vecOf_lanesV {r : Vpe} {m : BitVec 4} {vd : BitVec 5} {sat : Bool} {val : Nat → Int}
    {f : Nat → BitVec 18 × Bool} (exact : ∀ i, Narrowed 18 sat (val i) (f i).1 (f i).2) :
    VecOf r (r.counted.lanesV r.rot vd m f) m vd sat val := by
  refine ⟨rfl, fun k h => Vpe.getV_lanesV_other r.counted _ _ h, fun i => m.getLsbD i && (f i).2,
    fun i hi => ?_, fun j hj => ?_⟩
  · rw [show r.rot = r.counted.rot from rfl, Vpe.getV_lanesV_same]
    exact narrowed_lane_blend _ _ hi (exact i)
  · have bits : (r.counted.lanesV r.rot vd m f).vst = r.vst ||| (laneBits (fun i => (f i).2) &&& m).zeroExtend 16 := rfl
    rw [bits, BitVec.getLsbD_or, BitVec.getLsbD_setWidth, getLsbD_events]
    simp [hj]

end Sys2Proof.Machine
end

section
/-! SUPPORT. The accumulator operations of a VPE write their lanes (R229, R234). -/

namespace Sys2Proof.Machine

open Sys2Proof

/-- An operation of the M slot that writes the enabled ones of some lanes of an accumulator. -/
theorem VpeAble.accStep {i : Instr} {s : State} {n : Nat} {p : BitVec 4} {op : VOp} {acd : BitVec 3} {lanes : BitVec 4}
    {sat : Bool} {val : Nat → Int} {f : Nat → BitVec 48 × Bool} (able : VpeAble s n p op)
    (runs : exec i s = .next (runOp n p op s)) (slot : slotKind op = .m)
    (writes : mSlot op ((vpeAt s n).mask p) (vpeAt s n) (vpeAt s n).counted =
      (vpeAt s n).counted.lanesAC acd ((vpeAt s n).mask p &&& lanes) f)
    (exact : ∀ i, Narrowed 48 sat (val i) (f i).1 (f i).2) : AccStep i s n p acd lanes sat val := by
  have h := able.becomes_m runs slot
  rw [writes] at h
  exact ⟨_, h, accOf_lanesAC exact⟩

/-- The same of an operation on all four lanes. -/
theorem VpeAble.accStep_all {i : Instr} {s : State} {n : Nat} {p : BitVec 4} {op : VOp} {acd : BitVec 3}
    {sat : Bool} {val : Nat → Int} {f : Nat → BitVec 48 × Bool} (able : VpeAble s n p op)
    (runs : exec i s = .next (runOp n p op s)) (slot : slotKind op = .m)
    (writes : mSlot op ((vpeAt s n).mask p) (vpeAt s n) (vpeAt s n).counted =
      (vpeAt s n).counted.lanesAC acd ((vpeAt s n).mask p) f)
    (exact : ∀ i, Narrowed 48 sat (val i) (f i).1 (f i).2) : AccStep i s n p acd 15 sat val :=
  able.accStep runs slot (writes.trans (by rw [show (15 : BitVec 4) = BitVec.allOnes 4 from rfl, BitVec.and_allOnes])) exact

/-- The product of two lanes fits an accumulator lane (R228). -/
theorem product_fits (x y : BitVec 18) : -2 ^ 47 ≤ x.toInt * y.toInt ∧ x.toInt * y.toInt < 2 ^ 47 := by
  have bound (z : BitVec 18) : |z.toInt| ≤ 2 ^ 17 := abs_le.mpr ⟨BitVec.le_toInt z, (BitVec.toInt_lt (x := z)).le⟩
  have h : |x.toInt * y.toInt| ≤ 2 ^ 17 * 2 ^ 17 := by
    rw [abs_mul]
    exact mul_le_mul (bound x) (bound y) (abs_nonneg _) (by norm_num)
  have := abs_le.mp h
  omega

/-- The quotient by a power of two, rounded down, is the arithmetic shift. -/
theorem fdiv_two_pow (t : Int) (n : Nat) : Int.fdiv t (2 ^ n) = t >>> n := by
  rw [Int.fdiv_eq_ediv_of_nonneg _ (by positivity), Int.shiftRight_eq_div_pow, Nat.cast_pow, Nat.cast_ofNat]

theorem shrRound_false (t : Int) (n : Nat) : shrRound false t n = Int.fdiv t (2 ^ n) := by
  rw [fdiv_two_pow]
  unfold shrRound
  split
  next none => simp [none]
  next => rfl

/-- A count that a slot word can hold is shifted by as it is (R229). -/
theorem shiftBy_false_of_count (t : Int) (c : BitVec 7) :
    shiftBy false t c.toInt =
      if 0 ≤ c.toInt then t * 2 ^ c.toInt.toNat else Int.fdiv t (2 ^ (-c.toInt).toNat) := by
  have lo : -64 ≤ c.toInt := BitVec.le_toInt c
  have hi : c.toInt < 64 := BitVec.toInt_lt (x := c)
  unfold shiftBy
  rw [min_eq_left (by omega), min_eq_left (by omega), shrRound_false]

/-- The sums of a product with the conjugate of vb, their signs worked out (R234). -/
theorem cprodOf_conj (va vb : V4 (BitVec 18)) (k i : Nat) :
    cprodOf true va vb k i =
      if i = 2 * k then
        (va.lane (2 * k)).toInt * (vb.lane (2 * k)).toInt + (va.lane (2 * k + 1)).toInt * (vb.lane (2 * k + 1)).toInt
      else
        (va.lane (2 * k + 1)).toInt * (vb.lane (2 * k)).toInt - (va.lane (2 * k)).toInt * (vb.lane (2 * k + 1)).toInt := by
  simp only [cprodOf, if_true]
  split
  · ring
  · ring

/-- Settles O1: each operation writes its narrowed lanes through `lanesAC`. -/
theorem vpeAccumulatorOpsWriteTheirLanes : Obligations.VpeAccumulatorOpsWriteTheirLanes := by
  unfold Obligations.VpeAccumulatorOpsWriteTheirLanes
  intro s n p r
  refine ⟨fun f able => ?mul, fun f able => ?mac, fun f able => ?msu, fun f able => ?cmac, fun f able => ?cmacj,
    fun a able => ?acclr, fun a b sat able => ?acadd, fun a b sat able => ?acsub, fun a b c sat able => ?acsh,
    fun a va q able => ?acins⟩
  case mul =>
    refine able.accStep_all rfl rfl rfl fun i => ?_
    have fits := product_fits ((r.getV f.va).lane i) ((r.getV f.vb).lane (bselLane f.bsel i))
    exact narrowed_ofInt (by decide) _ fits.1 fits.2
  case mac => exact able.accStep_all rfl rfl rfl fun i => narrowed_narrowTo (by decide) _ _
  case msu => exact able.accStep_all rfl rfl rfl fun i => narrowed_narrowTo (by decide) _ _
  case cmac =>
    obtain ⟨acd, va, vb, pair, sat⟩ := f
    cases pair <;> exact able.accStep rfl rfl rfl fun i => narrowed_narrowTo (by decide) _ _
  case cmacj =>
    obtain ⟨acd, va, vb, pair, sat⟩ := f
    cases pair
    all_goals
      refine able.accStep rfl rfl rfl fun i => ?_
      rw [cprodOf_conj]
      exact narrowed_narrowTo (by decide) _ _
  case acclr => exact able.accStep_all rfl rfl rfl fun i => narrowed_toInt _ 0
  case acadd => exact able.accStep_all rfl rfl rfl fun i => narrowed_narrowTo (by decide) _ _
  case acsub => exact able.accStep_all rfl rfl rfl fun i => narrowed_narrowTo (by decide) _ _
  case acsh =>
    refine able.accStep_all rfl rfl rfl fun i => ?_
    rw [← shiftBy_false_of_count]
    exact narrowed_narrowTo (by decide) _ _
  case acins => exact able.accStep_all rfl rfl rfl fun i => narrowed_toInt _ _

end Sys2Proof.Machine
end

section
/-! SUPPORT. The vector operations of the M slot write their lanes (R230, R231, R233). -/

namespace Sys2Proof.Machine

open Sys2Proof

/-- An operation of the M slot that writes the enabled lanes of a vector register. -/
theorem VpeAble.vecStep {i : Instr} {s : State} {n : Nat} {p : BitVec 4} {op : VOp} {vd : BitVec 5} {sat : Bool}
    {val : Nat → Int} {f : Nat → BitVec 18 × Bool} (able : VpeAble s n p op)
    (runs : exec i s = .next (runOp n p op s)) (slot : slotKind op = .m)
    (writes : mSlot op ((vpeAt s n).mask p) (vpeAt s n) (vpeAt s n).counted =
      (vpeAt s n).counted.lanesV (vpeAt s n).rot vd ((vpeAt s n).mask p) f)
    (exact : ∀ i, Narrowed 18 sat (val i) (f i).1 (f i).2) :
    VecStep i s n ((vpeAt s n).mask p) vd sat val := by
  have h := able.becomes_m runs slot
  rw [writes] at h
  exact ⟨_, h, vecOf_lanesV exact⟩

/-! ### Redundant sign bits (R233) -/

theorem expOf_le (w : Nat) (x : BitVec w) : expOf w x ≤ w - 1 := by
  unfold expOf
  exact (List.takeWhile_prefix _).length_le.trans_eq List.length_range

theorem getLsbD_eq_msb_of_lt_expOf {w : Nat} (x : BitVec w) {i : Nat} (h : i < expOf w x) :
    x.getLsbD (w - 2 - i) = x.msb := by
  have holds := List.mem_takeWhile_imp (List.getElem_mem h)
  rw [(List.takeWhile_prefix _).getElem h, List.getElem_range] at holds
  exact beq_iff_eq.mp holds

/-- Bit `w - 1 - expOf w x` and every bit above it is the sign. -/
theorem getLsbD_eq_msb_of_ge {w : Nat} (x : BitVec w) {j : Nat} (h : w - 1 - expOf w x ≤ j) (hj : j < w) :
    x.getLsbD j = x.msb := by
  have le := expOf_le w x
  by_cases top : j = w - 1
  · rw [top, BitVec.msb_eq_getLsbD_last]
  · have redundant := getLsbD_eq_msb_of_lt_expOf x (i := w - 2 - j) (by omega)
    rwa [show w - 2 - (w - 2 - j) = j by omega] at redundant

/-- Shifted right until only copies of its sign remain, a value is −1 or 0. -/
theorem sshiftRight_expOf {w : Nat} (x : BitVec w) :
    x.sshiftRight (w - 1 - expOf w x) = if x.msb then BitVec.allOnes w else 0 := by
  refine BitVec.eq_of_getLsbD_eq fun j hj => ?_
  have sign : (x.sshiftRight (w - 1 - expOf w x)).getLsbD j = x.msb := by
    rw [BitVec.getLsbD_sshiftRight]
    split
    next inside => simp [hj, getLsbD_eq_msb_of_ge x (Nat.le_add_right _ j) inside]
    next => simp [hj]
  rw [sign]
  cases x.msb <;> simp [hj]

/-- A value without its redundant sign bits still fits (R233). -/
theorem toInt_bounds_of_expOf {w : Nat} (hw : 0 < w) (x : BitVec w) :
    -2 ^ (w - 1 - expOf w x) ≤ x.toInt ∧ x.toInt < 2 ^ (w - 1 - expOf w x) := by
  have quotient : x.toInt / (2 ^ (w - 1 - expOf w x) : Nat) = if x.msb then -1 else 0 := by
    rw [← Int.shiftRight_eq_div_pow, ← BitVec.toInt_sshiftRight, sshiftRight_expOf]
    cases x.msb <;> simp [BitVec.toInt_allOnes, hw]
  have pos : (0 : Int) < (2 ^ (w - 1 - expOf w x) : Nat) := by positivity
  have whole := Int.emod_add_mul_ediv x.toInt (2 ^ (w - 1 - expOf w x) : Nat)
  have nonneg := Int.emod_nonneg x.toInt pos.ne'
  have small := Int.emod_lt_of_pos x.toInt pos
  rw [quotient] at whole
  push_cast at whole nonneg small
  split at whole
  · omega
  · omega

/-- Shifted left by its redundant sign bits, a value still fits (R233). -/
theorem shifted_by_expOf_fits {w : Nat} (hw : 0 < w) (x : BitVec w) :
    -2 ^ (w - 1) ≤ x.toInt * 2 ^ expOf w x ∧ x.toInt * 2 ^ expOf w x < 2 ^ (w - 1) := by
  obtain ⟨lo, hi⟩ := toInt_bounds_of_expOf hw x
  have power : (2 : Int) ^ (w - 1) = 2 ^ (w - 1 - expOf w x) * 2 ^ expOf w x := by
    rw [← pow_add, Nat.sub_add_cancel (expOf_le w x)]
  have pos : (0 : Int) < 2 ^ expOf w x := by positivity
  rw [power, ← neg_mul]
  exact ⟨mul_le_mul_of_nonneg_right lo pos.le, mul_lt_mul_of_pos_right hi pos⟩

theorem shiftLeft_eq_ofInt {w : Nat} (x : BitVec w) (k : Nat) : x <<< k = BitVec.ofInt w (x.toInt * 2 ^ k) := by
  have power : BitVec.ofInt w (2 ^ k) = BitVec.twoPow w k := by
    rw [show (2 : Int) ^ k = (2 ^ k : Nat) by push_cast; rfl, BitVec.ofInt_natCast]
    exact BitVec.eq_of_toNat_eq ((BitVec.toNat_ofNat _ _).trans (BitVec.toNat_twoPow _ _).symm)
  rw [BitVec.ofInt_mul, BitVec.ofInt_toInt, power, BitVec.shiftLeft_eq_mul_twoPow]

/-- Only 0 and −1 have the full count (R233). -/
theorem expOf_eq_full_iff (x : BitVec 18) : expOf 18 x = 17 ↔ x = 0 ∨ x = -1 := by
  constructor
  · intro full
    have bounds := toInt_bounds_of_expOf (by decide) x
    rw [full] at bounds
    obtain h | h : x.toInt = 0 ∨ x.toInt = -1 := by omega
    · exact .inl (BitVec.eq_of_toInt_eq h)
    · exact .inr (BitVec.eq_of_toInt_eq h)
  · rintro (rfl | rfl)
    · decide
    · decide

/-- NORM leaves 0 and −1 and shifts every other lane by its own exponent (R233). -/
theorem toInt_normOf (x : BitVec 18) :
    (normOf x).toInt = if x = 0 ∨ x = -1 then x.toInt else x.toInt * 2 ^ expOf 18 x := by
  simp only [normOf, ← expOf_eq_full_iff]
  split
  next => rfl
  next =>
    obtain ⟨lo, hi⟩ := shifted_by_expOf_fits (by decide) x
    rw [shiftLeft_eq_ofInt, BitVec.toInt_ofInt_eq_self (by decide) lo hi]

/-! ### Values that fit a lane -/

/-- A value shifted right fits where the value did, rounded or not (R230). -/
theorem shrRound_fits {t : Int} {k : Nat} (rnd : Bool) (n : Nat) (lo : -2 ^ k ≤ t) (hi : t < 2 ^ k) :
    -2 ^ k ≤ shrRound rnd t n ∧ shrRound rnd t n < 2 ^ k := by
  obtain _ | n := n
  · exact ⟨lo, hi⟩
  have whole : (1 : Int) ≤ 2 ^ k := by exact_mod_cast Nat.one_le_two_pow
  have half : (1 : Int) ≤ 2 ^ n := by exact_mod_cast Nat.one_le_two_pow
  have power : ((2 ^ (n + 1) : Nat) : Int) = 2 * 2 ^ n := by push_cast; ring
  have fits (r : Int) (r0 : 0 ≤ r) (r1 : r ≤ 2 ^ n) :
      -2 ^ k ≤ (t + r) >>> (n + 1) ∧ (t + r) >>> (n + 1) < 2 ^ k := by
    rw [Int.shiftRight_eq_div_pow, power]
    constructor
    · rw [Int.le_ediv_iff_mul_le (by omega)]
      nlinarith only [lo, r0, whole, half]
    · rw [Int.ediv_lt_iff_lt_mul (by omega)]
      nlinarith only [hi, r1, whole, half]
  cases rnd
  · simpa [shrRound] using fits 0 le_rfl (by omega)
  · simpa [shrRound] using fits (2 ^ n) (by omega) le_rfl

theorem toInt_slt_max {w : Nat} (x y : BitVec w) : (if x.slt y then y else x).toInt = max x.toInt y.toInt := by
  simp only [BitVec.slt_eq_decide, decide_eq_true_eq]
  split <;> omega

theorem toInt_slt_min {w : Nat} (x y : BitVec w) : (if x.slt y then x else y).toInt = min x.toInt y.toInt := by
  simp only [BitVec.slt_eq_decide, decide_eq_true_eq]
  split <;> omega

theorem narrowed_expOf {w : Nat} (sat : Bool) (x : BitVec w) (hw : w ≤ 48) :
    Narrowed 18 sat (expOf w x : Int) (BitVec.ofNat 18 (expOf w x)) false :=
  narrowed_ofNat (by decide) sat (by have := expOf_le w x; omega)

/-- Settles O2: each operation writes its narrowed lanes through `lanesV`. -/
theorem vpeVectorOpsWriteTheirLanes : Obligations.VpeVectorOpsWriteTheirLanes := by
  unfold Obligations.VpeVectorOpsWriteTheirLanes
  intro s n p r m a b
  refine ⟨fun f able => ?vadd, fun f able => ?vsub, fun f able => ?vmax, fun f able => ?vmin, fun f able => ?vabs,
    fun f able => ?vneg, fun f able => ?vshl, fun f able => ?vshr, fun f able => ?vand, fun f able => ?vor,
    fun f able => ?vxor, fun f able => ?exp, fun f able => ?norm, fun f able => ?bexp, fun f able => ?vshlv,
    fun f able => ?vmov, fun f able => ?vsel, fun vd ac q able => ?spl, fun ac vd sh sat able => ?nrw,
    fun ac vd able => ?expa⟩
  case vadd => exact able.vecStep rfl rfl rfl fun i => narrowed_narrowTo (by decide) _ _
  case vsub => exact able.vecStep rfl rfl rfl fun i => narrowed_narrowTo (by decide) _ _
  case vmax => exact able.vecStep rfl rfl rfl fun i => narrowed_of_toInt_eq _ (toInt_slt_max _ _)
  case vmin => exact able.vecStep rfl rfl rfl fun i => narrowed_of_toInt_eq _ (toInt_slt_min _ _)
  case vabs => exact able.vecStep rfl rfl rfl fun i => narrowed_narrowTo (by decide) _ _
  case vneg => exact able.vecStep rfl rfl rfl fun i => narrowed_narrowTo (by decide) _ _
  case vshl =>
    refine able.vecStep rfl rfl rfl fun i => ?_
    have count : shiftBy false (a f i).toInt f.imm.toNat = (a f i).toInt * 2 ^ f.imm.toNat := by
      rw [shiftBy, if_pos (Int.natCast_nonneg _), Int.toNat_natCast, min_eq_left (by omega)]
    rw [← count]
    exact narrowed_narrowTo (by decide) _ _
  case vshr =>
    refine able.vecStep rfl rfl rfl fun i => ?_
    obtain ⟨lo, hi⟩ := shrRound_fits f.rnd f.imm.toNat (BitVec.le_toInt (a f i)) BitVec.toInt_lt
    exact narrowed_ofInt (by decide) _ lo hi
  case vand => exact able.vecStep rfl rfl rfl fun i => narrowed_toInt _ _
  case vor => exact able.vecStep rfl rfl rfl fun i => narrowed_toInt _ _
  case vxor => exact able.vecStep rfl rfl rfl fun i => narrowed_toInt _ _
  case exp => exact able.vecStep rfl rfl rfl fun i => narrowed_expOf _ _ (by decide)
  case norm => exact able.vecStep rfl rfl rfl fun i => narrowed_of_toInt_eq _ (toInt_normOf _)
  case bexp =>
    refine able.vecStep rfl rfl rfl fun _ => narrowed_ofNat (by decide) _ ?_
    have := expOf_le 18 (a f 0)
    omega
  case vshlv => exact able.vecStep rfl rfl rfl fun i => narrowed_narrowTo (by decide) _ _
  case vmov => exact able.vecStep rfl rfl rfl fun i => narrowed_toInt _ _
  case vsel => exact able.vecStep rfl rfl rfl fun i => narrowed_of_toInt_eq _ (apply_ite BitVec.toInt _ _ _)
  case spl => exact able.vecStep rfl rfl rfl fun i => narrowed_toInt _ _
  case nrw => exact able.vecStep rfl rfl rfl fun i => narrowed_narrowTo (by decide) _ _
  case expa => exact able.vecStep rfl rfl rfl fun i => narrowed_expOf _ _ (by decide)

end Sys2Proof.Machine
end

section
/-! SUPPORT. The loads of a VPE and the update of its pointers (R222, R223, R226). -/

namespace Sys2Proof.Machine

open Sys2Proof

/-- The steps of the modify codes in their order (R226). -/
theorem stepOf_eq_getD (c : BitVec 3) (s14 s15 : BitVec 36) :
    stepOf c s14 s15 =
      [0, 1, -1, 2, -2, 4, (s14.extractLsb' 0 16).toInt, (s15.extractLsb' 0 16).toInt].getD c.toNat (0 : Int) := by
  have code : c.toNat < 8 := c.isLt
  unfold stepOf
  interval_cases c.toNat <;> rfl

/-- A linear update is modulo the size of the memory (R226). -/
theorem toNat_stepPtr_linear (q b : BitVec 15) (rev : Bool) (step : Int) :
    ((stepPtr q b 0 rev step).toNat : Int) = ((q.toNat : Int) + step) % 32768 := by
  rw [stepPtr, if_pos rfl, BitVec.toNat_ofInt, Int.toNat_of_nonneg (Int.emod_nonneg _ (by norm_num)),
    BitVec.toInt_eq_toNat_bmod]
  exact Int.emod_add_cancel_right step |>.mpr Int.bmod_emod

/-- A circular update stays in its buffer, counted from its base (R226). -/
theorem stepPtr_circular (q b : BitVec 15) {size : BitVec 16} (step : Int) (filled : size ≠ 0) :
    stepPtr q b size false step =
      BitVec.ofInt 15 ((b.toNat : Int) + ((q.toNat : Int) - (b.toNat : Int) + step) % (size.toNat : Int)) := by
  have positive : (size.toNat : Int) ≠ 0 := fun e => filled (BitVec.eq_of_toNat_eq (Int.ofNat_inj.mp e))
  have nonneg := Int.emod_nonneg ((q.toNat : Int) - (b.toNat : Int) + step) positive
  rw [stepPtr, if_neg filled, ← Int.toNat_of_nonneg nonneg, ← Int.natCast_add, BitVec.ofInt_natCast]
  rfl

/-- Settles O4: the clauses of a pointer by `stepPtr` on an empty and on a filled length, each load by its arm of `lSlot`. -/
theorem vpeLoadsReadTheirLines : Obligations.VpeLoadsReadTheirLines := by
  unfold Obligations.VpeLoadsReadTheirLines
  intro s n p f r at_ nextA ptrB nextB steps
  refine ⟨fun k q c linear => ⟨?stays, ?line, ?circle⟩, fun on => ⟨?ld, ?ld2, ?lds⟩⟩
  case stays =>
    intro none
    rw [Vpe.next, if_pos none]
  case line =>
    intro moves empty
    have none : r.getN k = 0 := BitVec.eq_of_toNat_eq (Int.ofNat_inj.mp empty)
    rw [Vpe.next, if_neg moves, none, toNat_stepPtr_linear, stepOf_eq_getD]
  case circle =>
    intro moves filled
    have some : r.getN k ≠ 0 := fun none => filled (by rw [none]; rfl)
    rw [Vpe.next, if_neg moves, linear, stepPtr_circular _ _ _ some, stepOf_eq_getD]
  case ld =>
    intro able inA
    exact able.lStep on rfl rfl (if_pos inA)
  case ld2 =>
    intro able inA inB
    exact able.lStep on rfl rfl (if_pos (Bool.and_eq_true _ _ ▸ ⟨inA, inB⟩))
  case lds =>
    intro able inA
    exact able.lStep on rfl rfl (if_pos inA)

end Sys2Proof.Machine
end

section
/-! SUPPORT. The scalar operations of a VPE, the moves between its files and PSET write their register (R219, R235). -/

namespace Sys2Proof.Machine

open Sys2Proof

/-! ### Writes under a register code (R219, R235) -/

/-- A pointer or a base keeps the low 15 bits. -/
theorem getCode_setCode_pointer (w : Vpe) (c : BitVec 6) (x : BitVec 36) (lo : 16 ≤ c.toNat) (hi : c.toNat < 32) :
    (w.setCode c x).getCode c = (x.truncate 15).zeroExtend 36 := by
  obtain file | file : c.toNat / 8 = 2 ∨ c.toNat / 8 = 3 := by omega
  · simp only [Vpe.setCode, Vpe.getCode, file, Vpe.setP, Vpe.getP, Vector.getElem_set_self]
  · simp only [Vpe.setCode, Vpe.getCode, file, Vpe.setB, Vpe.getB, Vector.getElem_set_self]

/-- A length keeps the low 16 bits, up to 32 768. -/
theorem toNat_getCode_setCode_length (w : Vpe) (c : BitVec 6) (x : BitVec 36) (lo : 32 ≤ c.toNat) (hi : c.toNat < 40) :
    ((w.setCode c x).getCode c).toNat = min 32768 (x.toNat % 65536) := by
  have file : c.toNat / 8 = 4 := by omega
  simp only [Vpe.setCode, Vpe.getCode, file, Vpe.setN, Vpe.getN, Vector.getElem_set_self, BitVec.truncate_eq_setWidth,
    BitVec.toNat_setWidth]
  rw [Nat.mod_eq_of_lt ((BitVec.isLt _).trans (by norm_num))]
  split
  next above => exact (min_eq_left above.le).symm
  next within => exact (BitVec.toNat_setWidth _ _).trans (min_eq_right (not_lt.mp within)).symm

theorem setCode_scalar (w : Vpe) (d : BitVec 4) (x : BitVec 36) : w.setCode (d.zeroExtend 6) x = w.setS d x := by
  have same : (d.zeroExtend 6).truncate 4 = d := by simp
  obtain file | file : (d.zeroExtend 6).toNat / 8 = 0 ∨ (d.zeroExtend 6).toNat / 8 = 1 := by
    rw [BitVec.toNat_setWidth]; omega
  · simp only [Vpe.setCode, file, same]
  · simp only [Vpe.setCode, file, same]

theorem setCode_predicate (w : Vpe) {d : BitVec 6} (x : BitVec 36) (lo : 40 ≤ d.toNat) (hi : d.toNat < 48) :
    w.setCode d x = w.setK (d.toNat % 8) (x.truncate 4) := by
  have file : d.toNat / 8 = 5 := by omega
  simp only [Vpe.setCode, file]

/-! ### A scalar result (R232, R235) -/

/-- Without a wrap VST stays. -/
theorem Vpe.scalar_false (r : Vpe) (d : BitVec 6) (x : BitVec 36) : r.scalar d x false = r.counted.setCode d x := by
  simp [Vpe.scalar]

/-- A result and its wrap, as the ALU and ADDI write them. -/
theorem Vpe.scalar_eq_ite (r : Vpe) (d : BitVec 6) (x : BitVec 36 × Bool) :
    (if x.2 then { r.counted.setCode d x.1 with vst := (r.counted.setCode d x.1).vst ||| 0x100 }
      else r.counted.setCode d x.1) = r.scalar d x.1 x.2 := by
  obtain ⟨value, _ | _⟩ := x
  · exact (Vpe.scalar_false r d value).symm
  · rfl

/-! ### Results of the ALU (R235) -/

/-- A count of 36 or more shifts everything out. -/
theorem aluOp_shl (a b : BitVec 36) :
    aluOp .shl a b = (BitVec.ofNat 36 (a.toNat * 2 ^ min b.toNat 36), false) := by
  refine Prod.ext (BitVec.eq_of_toNat_eq ?_) rfl
  simp only [aluOp]
  split
  next full => simp [min_eq_right full]
  next part => simp [min_eq_left (by omega : b.toNat ≤ 36), Nat.shiftLeft_eq]

theorem aluOp_shru (a b : BitVec 36) :
    aluOp .shru a b = (BitVec.ofNat 36 (a.toNat / 2 ^ min b.toNat 36), false) := by
  refine Prod.ext (BitVec.eq_of_toNat_eq ?_) rfl
  simp only [aluOp]
  split
  next full => simp [min_eq_right full, Nat.div_eq_of_lt a.isLt]
  next part =>
    have fits : a.toNat / 2 ^ b.toNat < 2 ^ 36 := (Nat.div_le_self _ _).trans_lt a.isLt
    rw [min_eq_left (by omega), BitVec.toNat_ofNat, Nat.mod_eq_of_lt fits, BitVec.toNat_ushiftRight,
      Nat.shiftRight_eq_div_pow]

theorem aluOp_shr (a b : BitVec 36) :
    aluOp .shr a b = (BitVec.ofInt 36 (Int.fdiv a.toInt (2 ^ min b.toNat 36)), false) := by
  rw [fdiv_two_pow]
  rfl

/-- An operation of the ALU writes its result and its wrap. -/
theorem VpeAble.aluStep {i : Instr} {s : State} {n : Nat} {p : BitVec 4} {op : VOp} {f : XF}
    {x : BitVec 36} {wraps : Bool} (able : VpeAble s n p op) (o : AluOp) (on : (vpeAt s n).enabled p = true)
    (runs : exec i s = .next (runOp n p op s)) (slot : slotKind op = .x)
    (goesOn : ∀ w, control op true (vpeAt s n) w = w.advance)
    (alu : xSlot op s.free (vpeAt s n) (vpeAt s n).counted = aluSlot o f (vpeAt s n) (vpeAt s n).counted)
    (result : aluOp o ((vpeAt s n).getCode f.a) ((vpeAt s n).getCode f.b) = (x, wraps)) :
    XStep i s n ((vpeAt s n).scalar f.d x wraps) := by
  refine able.xStep on runs slot goesOn (alu.trans ?_)
  rw [aluSlot, result]
  exact Vpe.scalar_eq_ite _ f.d (x, wraps)

/-- An enabled operation of the X slot that writes a vector register. -/
theorem VpeAble.vecStep_x {i : Instr} {s : State} {n : Nat} {p : BitVec 4} {op : VOp} {vd : BitVec 5}
    {val : Nat → Int} {f : Nat → BitVec 18 × Bool} (able : VpeAble s n p op) (on : (vpeAt s n).enabled p = true)
    (runs : exec i s = .next (runOp n p op s)) (slot : slotKind op = .x)
    (goesOn : ∀ w, control op true (vpeAt s n) w = w.advance)
    (writes : xSlot op s.free (vpeAt s n) (vpeAt s n).counted =
      (vpeAt s n).counted.lanesV (vpeAt s n).rot vd 15 f)
    (exact : ∀ i, Narrowed 18 false (val i) (f i).1 (f i).2) : VecStep i s n 15 vd false val :=
  ⟨_, able.xStep on runs slot goesOn writes, vecOf_lanesV exact⟩

/-- Settles O7: each operation writes its result under its register code. -/
theorem vpeScalarOpsWriteTheirRegister : Obligations.VpeScalarOpsWriteTheirRegister := by
  unfold Obligations.VpeScalarOpsWriteTheirRegister
  intro s n p r a b exactly on
  refine ⟨fun w c x => ⟨getCode_setCode_pointer w c x, toNat_getCode_setCode_length w c x⟩, fun d imm able => ?movi,
    fun f able => ?add, fun f able => ?sub, fun f able => ?mul, fun f able => ?min, fun f able => ?max,
    fun f able => ?and, fun f able => ?or, fun f able => ?xor, fun f able => ?shl, fun f able => ?shru,
    fun f able => ?shr, fun d e able => ?mov, fun d e imm able => ?addi, fun d imm able => ?pset,
    fun d va lane able => ?vext, fun vd e able => ?vbc, fun vd va vb j able => ?valn⟩
  case movi =>
    refine ⟨imm.signExtend 36, false, ?_, able.xStep on rfl rfl (fun _ => rfl) (Vpe.scalar_false r d _).symm⟩
    exact narrowed_of_toInt_eq false (BitVec.toInt_signExtend_of_le (by decide))
  case add => exact ⟨_, _, narrowed_narrowTo (by decide) _ _, able.aluStep .add on rfl rfl (fun _ => rfl) rfl rfl⟩
  case sub => exact ⟨_, _, narrowed_narrowTo (by decide) _ _, able.aluStep .sub on rfl rfl (fun _ => rfl) rfl rfl⟩
  case mul => exact ⟨_, _, narrowed_narrowTo (by decide) _ _, able.aluStep .mul on rfl rfl (fun _ => rfl) rfl rfl⟩
  case min =>
    exact ⟨_, _, narrowed_of_toInt_eq false (toInt_slt_min (a f) (b f)), able.aluStep .min on rfl rfl (fun _ => rfl) rfl rfl⟩
  case max =>
    exact ⟨_, _, narrowed_of_toInt_eq false (toInt_slt_max (a f) (b f)), able.aluStep .max on rfl rfl (fun _ => rfl) rfl rfl⟩
  case and => exact able.aluStep .and on rfl rfl (fun _ => rfl) rfl rfl
  case or => exact able.aluStep .or on rfl rfl (fun _ => rfl) rfl rfl
  case xor => exact able.aluStep .xor on rfl rfl (fun _ => rfl) rfl rfl
  case shl => exact able.aluStep .shl on rfl rfl (fun _ => rfl) rfl (aluOp_shl _ _)
  case shru => exact able.aluStep .shru on rfl rfl (fun _ => rfl) rfl (aluOp_shru _ _)
  case shr => exact able.aluStep .shr on rfl rfl (fun _ => rfl) rfl (aluOp_shr _ _)
  case mov => exact able.xStep on rfl rfl (fun _ => rfl) (Vpe.scalar_false r d _).symm
  case addi =>
    refine ⟨_, _, ?_, able.xStep on rfl rfl (fun _ => rfl)
      (r.scalar_eq_ite d (aluOp .add (r.getCode e) (imm.signExtend 36)))⟩
    rw [← BitVec.toInt_signExtend_of_le (x := imm) (by decide : 10 ≤ 36)]
    exact narrowed_narrowTo (by decide) _ _
  case pset =>
    have legal := able.opOk_eq_true
    simp only [opOk, Bool.and_eq_true, decide_eq_true_eq] at legal
    obtain ⟨atLeast, atMost⟩ := legal
    refine able.xStep on rfl rfl (fun _ => rfl) ?_
    rw [Vpe.scalar_false, setCode_predicate r.counted _ atLeast (Nat.lt_succ_of_le atMost)]
    have same : (imm.zeroExtend 36).truncate 4 = imm.truncate 4 := by simp
    rw [same]
    rfl
  case vext =>
    refine able.xStep on rfl rfl (fun _ => rfl) ?_
    rw [Vpe.scalar_false, setCode_scalar]
    rfl
  case vbc => exact able.vecStep_x on rfl rfl (fun _ => rfl) rfl fun _ => narrowed_toInt _ _
  case valn =>
    refine able.vecStep_x on rfl rfl (fun _ => rfl) rfl fun i => ?_
    exact narrowed_of_toInt_eq false (apply_ite BitVec.toInt _ _ _)

end Sys2Proof.Machine
end

section
/-! SUPPORT. The slot words of a bundle (R219, R239): what the fields of an encoded word are, that decoding gives the
operation back, and that what decodes is what the loader accepts. -/

namespace Sys2Proof.Machine

open Sys2Proof

set_option Elab.async false

/-! ### Fields of a word: predicate, opcode, body -/

section
variable (p : BitVec 4) (o : BitVec 6) (b : BitVec 22)

theorem bodyBits_predicate : bodyBits (p ++ o ++ b) 28 4 = p := by
  simp (disch := decide) only [bodyBits, BitVec.extractLsb'_append_eq_of_le, BitVec.extractLsb'_eq_self, Nat.reduceSub]

theorem bodyBits_opcode : bodyBits (p ++ o ++ b) 22 6 = o := by
  simp (disch := decide) only [bodyBits, BitVec.extractLsb'_append_eq_of_le, BitVec.extractLsb'_append_eq_of_add_le,
    BitVec.extractLsb'_eq_self, Nat.reduceSub]

theorem bodyBits_body {lo n : Nat} (h : lo + n ≤ 22) : bodyBits (p ++ o ++ b) lo n = b.extractLsb' lo n :=
  BitVec.extractLsb'_append_eq_of_add_le h

theorem getLsbD_body {i : Nat} (h : i < 22) : (p ++ o ++ b).getLsbD i = b.getLsbD i := by
  rw [BitVec.getLsbD_append, if_pos h]

/-! ### The formats -/

theorem getM_bodyM (f : MF) : getM (p ++ o ++ bodyM f) = f := by
  simp (disch := decide) only [getM, bodyM, BitVec.extractLsb'_append_eq_of_le,
    BitVec.extractLsb'_append_eq_of_add_le, BitVec.extractLsb'_eq_self, BitVec.getLsbD_append, Nat.reduceSub]
  simp

theorem getC_bodyC (f : CF) : getC (p ++ o ++ bodyC f) = f := by
  simp (disch := decide) only [getC, bodyC, BitVec.extractLsb'_append_eq_of_le,
    BitVec.extractLsb'_append_eq_of_add_le, BitVec.extractLsb'_eq_self, BitVec.getLsbD_append, Nat.reduceSub]
  simp

theorem getVF_bodyV (f : VF) : getVF (p ++ o ++ bodyV f) = f := by
  simp (disch := decide) only [getVF, bodyV, BitVec.extractLsb'_append_eq_of_le,
    BitVec.extractLsb'_append_eq_of_add_le, BitVec.extractLsb'_eq_self, BitVec.getLsbD_append, Nat.reduceSub]
  simp

theorem getLF_bodyL (f : LF) : getLF (p ++ o ++ bodyL f) = f := by
  simp (disch := decide) only [getLF, bodyL, BitVec.extractLsb'_append_eq_of_le,
    BitVec.extractLsb'_append_eq_of_add_le, BitVec.extractLsb'_eq_self, Nat.reduceSub, Nat.sub_self]

theorem getXF_bodyX (d x y : BitVec 6) (k : BitVec 4) : getXF (p ++ o ++ bodyX d x y k) = ⟨d, x, y⟩ := by
  simp (disch := decide) only [getXF, bodyX, BitVec.extractLsb'_append_eq_of_le,
    BitVec.extractLsb'_append_eq_of_add_le, BitVec.extractLsb'_eq_self, Nat.reduceSub, Nat.sub_self]

theorem bodyBits_bodyX (d x y : BitVec 6) (k : BitVec 4) : bodyBits (p ++ o ++ bodyX d x y k) 0 4 = k := by
  simp (disch := decide) only [bodyX, BitVec.extractLsb'_append_eq_of_add_le, BitVec.extractLsb'_eq_self]

theorem bodyBits_bodyM_low (f : MF) : bodyBits (p ++ o ++ bodyM f) 0 5 = 0 := by
  simp (disch := decide) only [bodyM, BitVec.extractLsb'_append_eq_of_add_le, BitVec.extractLsb'_eq_self]
  rfl

theorem bodyBits_bodyC_low (f : CF) : bodyBits (p ++ o ++ bodyC f) 0 5 = 0 := by
  simp (disch := decide) only [bodyC, BitVec.extractLsb'_append_eq_of_add_le, BitVec.extractLsb'_eq_self]
  rfl

end

/-! ### Decoding gives the operation back, slot by slot -/

theorem rawL_encodeSlot (p : BitVec 4) {op : VOp} (fits : slotFits .l op = true) : rawL (encodeSlot p op) = some op := by
  rw [rawL, encodeSlot, bodyBits_opcode]
  cases op
  case nop => simp [opcodeOf, bodyOf, bodyBits_body]
  case ld f | st f | ld2 f | ldst f | lds f | sts f => simp [opcodeOf, bodyOf, getLF_bodyL]
  all_goals cases fits

theorem rawM_encodeSlot (p : BitVec 4) {op : VOp} (fits : slotFits .m op = true) : rawM (encodeSlot p op) = some op := by
  rw [rawM, encodeSlot, bodyBits_opcode]
  cases op
  case nop => simp [opcodeOf, bodyOf, bodyBits_body]
  case mul f | mac f | msu f => simp [opcodeOf, bodyOf, rawM.lowZero, getM_bodyM, bodyBits_bodyM_low]
  case cmac f | cmacj f => simp [opcodeOf, bodyOf, rawM.lowZero, getC_bodyC, bodyBits_bodyC_low]
  case vadd | vsub | vmax | vmin | vabs | vneg | vshl | vshr | vand | vor | vxor | exp | norm | bexp | vshlv | vcmpgt
      | vcmpeq | vsel | vmov =>
    simp [opcodeOf, bodyOf, getVF_bodyV]
  case acclr | acadd | acsub | acsh | acins | spl =>
    dsimp only [opcodeOf, bodyOf, BitVec.reduceOfNat, BitVec.reduceToNat, rawM.lowZero]
    simp (disch := decide) only [BitVec.getLsbD_append, BitVec.extractLsb'_eq_self,
      BitVec.extractLsb'_append_eq_of_le, BitVec.extractLsb'_append_eq_of_add_le, Nat.reduceSub, Nat.sub_self]
    simp
  case nrw | expa | norma =>
    dsimp only [opcodeOf, bodyOf, BitVec.reduceOfNat, BitVec.reduceToNat, rawM.mnZero]
    simp (disch := decide) only [BitVec.getLsbD_append, BitVec.extractLsb'_eq_self,
      BitVec.extractLsb'_append_eq_of_le, BitVec.extractLsb'_append_eq_of_add_le, Nat.reduceSub, Nat.sub_self]
    simp
  all_goals cases fits

theorem rawX_encodeSlot (p : BitVec 4) {op : VOp} (fits : slotFits .x op = true) : rawX (encodeSlot p op) = some op := by
  cases op
  case nop | stop | waitm => simp [rawX, encodeSlot, bodyBits_opcode, opcodeOf, bodyOf, bodyBits_body]
  case aluAdd | aluSub | aluAnd | aluOr | aluXor | aluShl | aluShr | aluShru | aluMul | aluMin | aluMax | aluMov =>
    simp [rawX, encodeSlot, bodyBits_opcode, opcodeOf, bodyOf, getXF_bodyX, bodyBits_bodyX]
  case movi | pset | addi | fail =>
    dsimp only [encodeSlot, opcodeOf, bodyOf]
    rw [rawX, bodyBits_opcode]
    dsimp only [BitVec.reduceOfNat, BitVec.reduceToNat]
    simp (disch := decide) only [BitVec.extractLsb'_eq_self, BitVec.extractLsb'_append_eq_of_le,
      BitVec.extractLsb'_append_eq_of_add_le, Nat.reduceSub, Nat.sub_self]
  case br | loop | vbc | vext | valn | cmv =>
    dsimp only [encodeSlot, opcodeOf, bodyOf]
    rw [rawX, bodyBits_opcode]
    dsimp only [BitVec.reduceOfNat, BitVec.reduceToNat]
    simp (disch := decide) only [BitVec.getLsbD_append, BitVec.extractLsb'_eq_self, BitVec.extractLsb'_append_eq_of_le,
      BitVec.extractLsb'_append_eq_of_add_le, Nat.reduceSub, Nat.sub_self]
    simp
  all_goals cases fits

/-! ### Slots and bundles -/

/-- The operation of a word that a slot decodes, before the loader's checks. -/
def rawSlot (k : Slot) (w : BitVec 32) : Option VOp :=
  match k with
  | .m => rawM w | .x => rawX w | .l => rawL w | .any => none

theorem rawSlot_encodeSlot {k : Slot} (p : BitVec 4) {op : VOp} (fits : slotFits k op = true) (k0 : k ≠ .any) :
    rawSlot k (encodeSlot p op) = some op := by
  cases k with
  | any => exact absurd rfl k0
  | m => exact rawM_encodeSlot p fits
  | x => exact rawX_encodeSlot p fits
  | l => exact rawL_encodeSlot p fits

/-- A word decodes for a slot when its predicate is one and its operation is one that the loader accepts. -/
theorem decodeSlot_eq_some_iff {k : Slot} {w : BitVec 32} {p : BitVec 4} {op : VOp} :
    decodeSlot k w = some (p, op) ↔ bodyBits w 28 4 = p ∧ p ≠ 8 ∧ rawSlot k w = some op ∧ opOk op = true := by
  change (if bodyBits w 28 4 = 8 then none else
    match rawSlot k w with
    | none => none
    | some o => if opOk o then some (bodyBits w 28 4, o) else none) = some (p, op) ↔ _
  cases rawSlot k w with
  | none => simp
  | some o =>
    simp only [Option.ite_none_left_eq_some, Option.ite_none_right_eq_some, Option.some.injEq, Prod.mk.injEq]
    constructor
    · rintro ⟨some8, ok, rfl, rfl⟩
      exact ⟨rfl, some8, rfl, ok⟩
    · rintro ⟨rfl, some8, rfl, ok⟩
      exact ⟨some8, ok, rfl, rfl⟩

theorem decodeSlot_encodeSlot {k : Slot} (k0 : k ≠ .any) {a : SlotWord}
    (h : a.1 ≠ 8 ∧ opOk a.2 = true ∧ slotFits k a.2 = true) : decodeSlot k (encodeSlot a.1 a.2) = some a := by
  obtain ⟨some8, ok, fits⟩ := h
  exact decodeSlot_eq_some_iff.mpr ⟨bodyBits_predicate _ _ _, some8, rawSlot_encodeSlot _ fits k0, ok⟩

/-- Settles O14: each slot word is read back from its place in the bundle, and decodes as it was encoded. -/
theorem bundleDecodesAsEncoded : Obligations.BundleDecodesAsEncoded := by
  unfold Obligations.BundleDecodesAsEncoded
  intro m0 m1 x l h0 h1 hx hl
  simp (disch := decide) only [decodeBundle, encodeBundle, BitVec.extractLsb'_eq_self,
    BitVec.extractLsb'_append_eq_of_le, BitVec.extractLsb'_append_eq_of_add_le, Nat.reduceSub, Nat.sub_self]
  rw [decodeSlot_encodeSlot (by decide) h0, decodeSlot_encodeSlot (by decide) h1, decodeSlot_encodeSlot (by decide) hx,
    decodeSlot_encodeSlot (by decide) hl]

/-! ### What decodes is what the loader accepts -/

theorem all_slotFits_rawL (w : BitVec 32) : (rawL w).all (slotFits .l) = true := by
  unfold rawL
  repeat' split
  all_goals rfl

theorem all_slotFits_rawM (w : BitVec 32) : (rawM w).all (slotFits .m) = true := by
  unfold rawM rawM.lowZero rawM.mnZero
  repeat' split
  all_goals rfl

theorem all_slotFits_rawX (w : BitVec 32) : (rawX w).all (slotFits .x) = true := by
  unfold rawX
  repeat' split
  all_goals rfl

theorem slotFits_of_rawSlot {k : Slot} {w : BitVec 32} {op : VOp} (h : rawSlot k w = some op) :
    slotFits k op = true := by
  have every : (rawSlot k w).all (slotFits k) = true := by
    cases k with
    | any => rfl
    | m => exact all_slotFits_rawM w
    | x => exact all_slotFits_rawX w
    | l => exact all_slotFits_rawL w
  rwa [h] at every

/-- What a slot word decodes to, the loader accepts in its slot (R244). -/
theorem loadable_of_decodeSlot {k : Slot} {w : BitVec 32} {a : SlotWord} (h : decodeSlot k w = some a) :
    a.1 ≠ 8 ∧ opOk a.2 = true ∧ slotFits k a.2 = true := by
  obtain ⟨-, some8, raw, ok⟩ := decodeSlot_eq_some_iff.mp h
  exact ⟨some8, ok, slotFits_of_rawSlot raw⟩

/-- A bundle decodes slot by slot. -/
theorem decodeBundle_eq_some_iff {b : BitVec 128} {m0 m1 x l : SlotWord} :
    decodeBundle b = some (m0, m1, x, l) ↔
      decodeSlot .m (b.extractLsb' 0 32) = some m0 ∧ decodeSlot .m (b.extractLsb' 32 32) = some m1 ∧
        decodeSlot .x (b.extractLsb' 64 32) = some x ∧ decodeSlot .l (b.extractLsb' 96 32) = some l := by
  unfold decodeBundle
  split
  next h0 h1 hx hl => simp [h0, h1, hx, hl]
  next other => exact ⟨nofun, fun ⟨h0, h1, hx, hl⟩ => (other _ _ _ _ h0 h1 hx hl).elim⟩

/-- Settles O15: each slot of a bundle that decodes, decodes. -/
theorem decodedBundleIsLoadable : Obligations.DecodedBundleIsLoadable := by
  unfold Obligations.DecodedBundleIsLoadable
  intro b m0 m1 x l h
  obtain ⟨h0, h1, hx, hl⟩ := decodeBundle_eq_some_iff.mp h
  obtain ⟨p0, ok0, fits0⟩ := loadable_of_decodeSlot h0
  obtain ⟨p1, ok1, fits1⟩ := loadable_of_decodeSlot h1
  obtain ⟨px, okx, fitsx⟩ := loadable_of_decodeSlot hx
  obtain ⟨pl, okl, fitsl⟩ := loadable_of_decodeSlot hl
  exact ⟨p0, p1, px, pl, ok0, ok1, okx, okl, fits0, fits1, fitsx, fitsl⟩

end Sys2Proof.Machine
end

section
/-! SUPPORT. Shared operations, the host interface and the queues:
what keeps the queue and the fused identity. -/

namespace Sys2Proof.Machine

open Sys2Proof

set_option Elab.async false

theorem Keeps.after {s t u : State} (k : Keeps t u) (h : Keeps s t) : Keeps s u := h.trans k

/-- A record update keeps the queue, and the identity where its Security Unit does. -/
theorem Keeps.update {t : State} {free : Nat} {clk : Clock} {regs : FMap (BitVec 32)} {hif : Hif} {sec : Sec}
    {avl : Avail} {twin : Twin} {avs : Avs} {chans : FMap Chan} {freed : List Freed} {rtps : FMap Rtp}
    {tps : FMap Tp} {tpio : TpIo} {links : FMap Link} {rxcs : FMap Rxc} {txcs : FMap Txc} {radio : List RadioEvt}
    {groups : FMap Group} {vpes : FMap Vpe} {code : FMap Code} {fsc : Fsc} {qmg : Qmg} {bce : Bce}
    {tdm : FMap TdmPort} {eth : FMap EthPort} {prp : FMap PrpPair} {epd : Epd} {dmc : Dmc} {endp : Endp}
    {counters : List (CtrKey × BitVec 64)} {figs : List (FigKey × Int)} (h : sec.identity = t.sec.identity := by rfl) :
    Keeps t (State.mk t.pending free clk regs hif sec avl twin avs chans freed rtps tps tpio links rxcs txcs radio
    groups vpes code fsc qmg bce tdm eth prp epd dmc endp counters figs) :=
  ⟨rfl, h⟩

theorem Keeps.fold {α : Type} {f : State → α → State} {l : List α} {s : State} (hf : ∀ t a, Keeps t (f t a)) :
    Keeps s (l.foldl f s) := .foldl hf l s

theorem Keeps.ite_snd {β : Type} {s : State} {x y : β × State} {c : Prop} [Decidable c] (h : Keeps s x.2)
    (k : Keeps s y.2) : Keeps s (if c then x else y).2 := by
  split <;> assumption

theorem Keeps.ite_fst {β : Type} {s : State} {x y : State × β} {c : Prop} [Decidable c] (h : Keeps s x.1)
    (k : Keeps s y.1) : Keeps s (if c then x else y).1 := by
  split <;> assumption

/-- A fold whose accumulator carries the state beside another value. -/
theorem Keeps.foldl_snd {α β : Type} {f : β × State → α → β × State} (hf : ∀ p a, Keeps p.2 (f p a).2) (l : List α)
    (p : β × State) : Keeps p.2 (l.foldl f p).2 := by
  induction l generalizing p with
  | nil => exact .refl _
  | cons a r ih => exact (hf p a).trans (ih _)

theorem CmdRes.Keeps.ite {s : State} {x y : CmdRes} {c : Prop} [Decidable c] (h : x.Keeps s) (k : y.Keeps s) :
    (if c then x else y).Keeps s := by
  split <;> assumption

/-- A command goes on: it stops on nothing, and keeps the queue's rest and the identity. -/
def GoesOn (s : State) (a : Answer) : Prop := ∃ t, a = .next t ∧ Keeps s t

/-! ### Settings -/

theorem refuse_keeps (s : State) (r : RegName) (i : Nat) : Keeps s (refuse s r i) := by
  unfold refuse
  split
  · exact .refl _
  · exact ⟨rfl, rfl⟩

/-! ### Operations that every family shares -/

theorem drawNat_keeps (s : State) : Keeps s (drawNat s).2 :=
  ⟨rfl, rfl⟩

theorem bumpSub_keeps (c : Ctr) (obj sub : Nat) (s : State) : Keeps s (bumpSub c obj sub s) :=
  bumpN_keeps ..

theorem dropCounters_keeps (cs : List Ctr) (obj : Nat) (s : State) : Keeps s (dropCounters cs obj s) :=
  ⟨rfl, rfl⟩

theorem dropMisses_keeps (f : Nat) (s : State) : Keeps s (dropMisses f s) :=
  ⟨rfl, rfl⟩

theorem putFig_keeps (f : Fig) (obj sub : Nat) (v : Int) (s : State) : Keeps s (putFig f obj sub v s) :=
  ⟨rfl, rfl⟩

theorem addFig_keeps (f : Fig) (obj sub : Nat) (v : Int) (s : State) : Keeps s (addFig f obj sub v s) :=
  ⟨rfl, rfl⟩

theorem keepHigh_keeps (f : Fig) (v : Nat) (s : State) : Keeps s (keepHigh f v s) :=
  .ite ⟨rfl, rfl⟩ (.refl _)

theorem withLife_keeps (f : Lifetime → Lifetime) (s : State) : Keeps s (withLife f s) :=
  ⟨rfl, rfl⟩

theorem endpWrite_keeps (s : State) : Keeps s (endpWrite s) :=
  ⟨rfl, rfl⟩

theorem withRing_keeps (n : Nat) (f : Ring → Ring) (s : State) : Keeps s (withRing n f s) :=
  ⟨rfl, rfl⟩

theorem lockChange_keeps (locked : Bool) (cause ring expiry : Nat) (s : State) :
    Keeps s (lockChange locked cause ring expiry s) :=
  raise_keeps ..

theorem beginLong_keeps {o r n i : Nat} {g : BitVec 32} {s t : State} (h : beginLong o g r n s = some (i, t)) :
    Keeps s t := by
  unfold beginLong at h
  split at h
  · cases h
  · cases h
    exact ⟨rfl, rfl⟩

theorem withLong_keeps (id : Nat) (f : LongOp → LongOp) (s : State) : Keeps s (withLong id f s) :=
  ⟨rfl, rfl⟩

theorem checked_keeps_of {s effect u : State} (status : Nat) (h : Keeps s effect) (k : Keeps s u) :
    (checked status effect u).Keeps s := .ite h k

theorem checked_keeps {effect s : State} (status : Nat) (h : Keeps s effect) : (checked status effect s).Keeps s :=
  checked_keeps_of status h (.refl s)

theorem acceptLong_keeps (opcode : Nat) (h : CmdHdr) (total status : Nat) {effect : Nat → State → State} (s : State)
    (he : ∀ i t, Keeps t (effect i t)) :
    (acceptLong opcode h total status effect s).Keeps s := by
  unfold acceptLong
  refine .ite (Keeps.refl s) ?_
  split
  · exact Keeps.refl s
  next id t begins => exact (beginLong_keeps begins).trans (he id t)

/-! ### Rings -/

theorem removeRing_keeps (n : Nat) (s : State) : Keeps s (removeRing n s) := by
  unfold removeRing
  dsimp only
  split
  · exact .refl _
  · split
    · exact (endSession_keeps ..).after ⟨rfl, rfl⟩
    · exact ⟨rfl, rfl⟩
    · exact (bumpN_keeps ..).after ⟨rfl, rfl⟩
    · exact Keeps.after (.fold fun _ _ => by
          split
          · exact raiseAt_keeps ..
          · exact raiseNowhere_keeps ..) ⟨rfl, rfl⟩
    · exact ⟨rfl, rfl⟩

theorem ringResult_keeps (code : Nat) (s : State) : Keeps s (ringResult code s) :=
  ⟨rfl, rfl⟩

theorem starvedLive_keeps (n : Nat) (s : State) : Keeps s (starvedLive n s) := by
  unfold starvedLive
  dsimp only
  split
  · exact .refl _
  · exact noticeLive_keeps ..

theorem deliverItem_keeps (n : Nat) (i : PrxItem) (s : State) : Keeps s (deliverItem n i s) := by
  unfold deliverItem
  split
  · exact bump_keeps ..
  · exact .ite (bump_keeps ..) (.ite (bump_keeps ..) ((starvedLive_keeps ..).after ⟨rfl, rfl⟩))

theorem popWaiting_keeps (n : Nat) (s : State) : Keeps s (popWaiting n s) :=
  (starvedLive_keeps ..).after ⟨rfl, rfl⟩

theorem writeItem_keeps (n : Nat) (i : PrxItem) (s : State) : Keeps s (writeItem n i s) := by
  unfold writeItem
  dsimp only
  split
  · exact .refl _
  · exact Keeps.after (.fold fun _ _ => msixRing_keeps ..) ⟨rfl, rfl⟩

theorem endPtx_keeps (p : Option (Nat × BitVec 32)) (time status : Nat) (s : State) :
    Keeps s (endPtx p time status s) := by
  unfold endPtx
  dsimp only
  split
  · exact .refl _
  · split
    · exact .refl _
    · exact (msixRing_keeps ..).after ⟨rfl, rfl⟩

/-! ### Queue operations -/

theorem withQmg_keeps (f : Qmg → Qmg) (s : State) : Keeps s (withQmg f s) :=
  ⟨rfl, rfl⟩

theorem withQueue_keeps (n : Nat) (f : Queue → Queue) (s : State) : Keeps s (withQueue n f s) :=
  ⟨rfl, rfl⟩

theorem allocCells_keeps (cls n : Nat) (ext tether : Bool) (s : State) : Keeps s (allocCells cls n ext tether s) :=
  ⟨rfl, rfl⟩

theorem returnCells_keeps (cls n : Nat) (ext tether : Bool) (s : State) : Keeps s (returnCells cls n ext tether s) :=
  ⟨rfl, rfl⟩

theorem evalMark_keeps (n : Nat) (low : Bool) (old new : Nat) (s : State) : Keeps s (evalMark n low old new s) := by
  unfold evalMark
  dsimp only
  split
  · exact .refl _
  · exact .ite ((crossing_keeps ..).after ⟨rfl, rfl⟩) ((noticeLive_keeps ..).after ⟨rfl, rfl⟩)

theorem levelMoved_keeps (n old : Nat) (s : State) : Keeps s (levelMoved n old s) := by
  unfold levelMoved
  split
  · exact .refl _
  · exact .ite (.refl _) ((evalMark_keeps ..).trans (evalMark_keeps ..))

theorem moveQueue_keeps (n : Nat) (f : Queue → Queue) (s : State) : Keeps s (moveQueue n f s) := by
  unfold moveQueue
  split
  · exact .refl _
  · exact (levelMoved_keeps ..).after ⟨rfl, rfl⟩

theorem pullItem_keeps (n i : Nat) (s : State) : Keeps s (pullItem n i s) := by
  unfold pullItem
  split
  · exact .refl _
  · split
    · exact .refl _
    · exact (moveQueue_keeps ..).trans (returnCells_keeps ..)

theorem offerItem_keeps (r n i : Nat) (s : State) : Keeps s (offerItem r n i s) := by
  unfold offerItem
  split
  · split
    · exact .refl _
    · exact .ite (((pullItem_keeps ..).trans (bump_keeps ..)).trans (bump_keeps ..)) (deliverItem_keeps ..)
  · exact .refl _

theorem linkItem_keeps (n : Nat) (i : Item) (s : State) : Keeps s (linkItem n i s) := by
  unfold linkItem
  dsimp only
  split
  · exact ((moveQueue_keeps ..).trans (Keeps.update)).trans (offerItem_keeps ..)
  · exact (moveQueue_keeps ..).trans (Keeps.update)

theorem sever_keeps (n : Nat) (s : State) : Keeps s (sever n s) := by
  unfold sever
  split
  · exact .refl _
  · split
    · exact .refl _
    · exact (bump_keeps ..).after ⟨rfl, rfl⟩

theorem unofferQueue_keeps (n : Nat) (s : State) : Keeps s (unofferQueue n s) := by
  unfold unofferQueue
  split
  · exact .refl _
  · exact (starvedLive_keeps ..).after ⟨rfl, rfl⟩

theorem flushQueue_keeps (n : Nat) (s : State) : Keeps s (flushQueue n s) := by
  unfold flushQueue
  dsimp only
  split
  · exact .refl _
  · exact (sever_keeps ..).after ((bumpN_keeps ..).after ((unofferQueue_keeps ..).after ((moveQueue_keeps ..).after
      (.fold fun _ _ => ⟨rfl, rfl⟩))))

theorem removeQueue_keeps (n : Nat) (s : State) : Keeps s (removeQueue n s) :=
  ⟨rfl, rfl⟩

theorem finishRelease_keeps (n : Nat) (s : State) : Keeps s (finishRelease n s) := by
  unfold finishRelease
  split
  · exact .refl _
  · split
    · exact ((flushQueue_keeps ..).trans (removeQueue_keeps ..)).trans (completeHeld_keeps ..)
    · exact .refl _

theorem endTaken_keeps (n : Nat) (s : State) : Keeps s (endTaken n s) := by
  unfold endTaken
  split
  · exact .refl _
  · split
    · exact .refl _
    · exact (finishRelease_keeps ..).after ⟨rfl, rfl⟩

theorem wantSweep_keeps (s : State) : Keeps s (wantSweep s) :=
  ⟨rfl, rfl⟩

theorem integrityEvent_keeps (n whereCode cell lost level : Nat) (s : State) :
    Keeps s (integrityEvent n whereCode cell lost level s) :=
  (bump_keeps ..).trans (raise_keeps ..)

theorem resetQueue_keeps (n : Nat) (s : State) : Keeps s (resetQueue n s) := by
  unfold resetQueue
  dsimp only
  split
  · exact .refl _
  · exact (sever_keeps ..).after ((unofferQueue_keeps ..).after ((moveQueue_keeps ..).after (.fold fun _ _ => ⟨rfl,
      rfl⟩)))

/-! ### The host interface -/

theorem offerQueue_keeps (n : Nat) (c : RingCtx) (s : State) : Keeps s (offerQueue n c s) := by
  unfold offerQueue
  split
  · exact Keeps.foldl_snd (fun _ _ => offerItem_keeps ..) _ (0, s)
  · exact .refl _

theorem makeRing_keeps (n : Nat) (b : Option Bytes) (s : State) : Keeps s (makeRing n b s) := by
  unfold makeRing
  split
  · exact .refl _
  · exact (flushGlobal_keeps ..).after ((offerQueue_keeps ..).after ⟨rfl, rfl⟩)

theorem ringCreate_keeps (n : Nat) (b : Option Bytes) (s : State) : Keeps s (ringCreate n b s) :=
  (ringResult_keeps ..).after (.onlyIf (makeRing_keeps ..) (.refl _))

theorem ringReset_keeps (n : Nat) (b : Option Bytes) (s : State) : Keeps s (ringReset n b s) :=
  (ringResult_keeps ..).after (.onlyIf ((removeRing_keeps ..).trans (makeRing_keeps ..)) (.refl _))

theorem ringDestroy_keeps (n : Nat) (s : State) : Keeps s (ringDestroy n s) :=
  (ringResult_keeps ..).after (.onlyIf (removeRing_keeps ..) (.refl _))

theorem execRingCreate_goesOn (ring : Nat) (ctx : Option Bytes) (s : State) : GoesOn s (execRingCreate ring ctx s) :=
  ⟨_, rfl, .onlyIf (ringCreate_keeps ..) (.refl _)⟩

theorem execRingReset_goesOn (ring : Nat) (ctx : Option Bytes) (s : State) : GoesOn s (execRingReset ring ctx s) :=
  ⟨_, rfl, .onlyIf (ringReset_keeps ..) (.refl _)⟩

theorem execRingDestroy_goesOn (ring : Nat) (s : State) : GoesOn s (execRingDestroy ring s) :=
  ⟨_, rfl, .onlyIf (ringDestroy_keeps ..) (.refl _)⟩

theorem execHifKick_goesOn (_value : BitVec 32) (s : State) : GoesOn s (execHifKick _value s) :=
  ⟨_, rfl, .onlyIf ⟨rfl, rfl⟩ (.refl _)⟩

theorem ringFault_keeps (n reason : Nat) (host : BitVec 32) (s : State) : Keeps s (ringFault n reason host s) := by
  unfold ringFault
  split
  · exact .refl _
  · exact (raise_keeps ..).after ((bump_keeps ..).after ⟨rfl, rfl⟩)

theorem takeSlot_keeps (d : DbSlot) (s0 : State) : Keeps s0 (takeSlot d s0).2 := by
  unfold takeSlot
  dsimp only
  split
  · exact ⟨rfl, rfl⟩
  · refine .ite_snd ?_ ?_
    · exact ⟨rfl, rfl⟩
    · refine .ite_snd ?_ ?_
      · split
        · exact .ite ⟨rfl, rfl⟩ ((bump_keeps ..).after ⟨rfl, rfl⟩)
        · exact ⟨rfl, rfl⟩
      · exact .ite_snd ((starvedLive_keeps ..).after ⟨rfl, rfl⟩) ((ringFault_keeps ..).after ⟨rfl, rfl⟩)

theorem pollSlots_keeps (slots : List DbSlot) (s : State) : Keeps s (pollSlots slots s) := by
  have taken := Keeps.foldl_snd (f := fun (acc : Bool × State) d =>
    (acc.1 || (takeSlot d acc.2).1, (takeSlot d acc.2).2)) (fun p d => takeSlot_keeps d p.2) slots (false, s)
  exact ⟨taken.1, taken.2⟩

theorem pollFailed_keeps (s : State) : Keeps s (pollFailed s) :=
  (bump_keeps ..).after ⟨rfl, rfl⟩

theorem execDoorbellPoll_goesOn (slots : List DbSlot) (ok : Bool) (t : Ns) (s : State) :
    GoesOn s (execDoorbellPoll slots ok t s) :=
  ⟨_, rfl, .onlyIf (.ite ((pollSlots_keeps ..).after ⟨rfl, rfl⟩) ((pollFailed_keeps ..).after ⟨rfl, rfl⟩)) ⟨rfl, rfl⟩⟩

theorem writeFailed_keeps (n : Nat) (s : State) : Keeps s (writeFailed n s) :=
  (bump_keeps ..).after ⟨rfl, rfl⟩

theorem writeBacklog_keeps (n : Nat) (s : State) : Keeps s (writeBacklog n s) := by
  unfold writeBacklog
  split
  · exact .refl _
  · split
    · exact .refl _
    · exact (writeEntry_keeps ..).after ⟨rfl, rfl⟩

theorem execEventWrite_goesOn (ring : Nat) (ok : Bool) (s : State) : GoesOn s (execEventWrite ring ok s) :=
  ⟨_, rfl, .onlyIf (.ite (writeBacklog_keeps ..) (writeFailed_keeps ..)) (.refl _)⟩

theorem execIndexSlotWrite_goesOn (ring : Nat) (ok : Bool) (t : Ns) (s : State) :
    GoesOn s (execIndexSlotWrite ring ok t s) :=
  ⟨_, rfl, .onlyIf (.ite ⟨rfl, rfl⟩ ((writeFailed_keeps ..).after ⟨rfl, rfl⟩)) ⟨rfl, rfl⟩⟩

theorem retryWrite_keeps (n : Nat) (s : State) : Keeps s (retryWrite n s) := by
  unfold retryWrite
  split
  · exact .refl _
  · exact Keeps.after (.fold fun _ _ => writeEntry_keeps ..) ⟨rfl, rfl⟩

theorem readFailed_keeps (n : Nat) (s : State) : Keeps s (readFailed n s) := by
  unfold readFailed
  dsimp only
  split
  · exact .refl _
  · exact .ite ((bump_keeps ..).trans (ringFault_keeps ..)) ((bump_keeps ..).trans (withRing_keeps ..))

theorem dmaRetry_keeps (n : Nat) (ok : Bool) (s : State) : Keeps s (dmaRetry n ok s) := by
  unfold dmaRetry
  split
  · exact .refl _
  · exact .ite (.refl _) (.ite (.ite (retryWrite_keeps ..) (bump_keeps ..)) (.ite ⟨rfl, rfl⟩ (.ite (.refl _)
      (readFailed_keeps ..))))

theorem execDmaRetry_goesOn (ring : Nat) (ok : Bool) (s : State) : GoesOn s (execDmaRetry ring ok s) :=
  ⟨_, rfl, dmaRetry_keeps ..⟩

theorem execMsixSend_goesOn (vector : Nat) (t : Ns) (s : State) : GoesOn s (execMsixSend vector t s) :=
  ⟨_, rfl, .onlyIf ⟨rfl, rfl⟩ ⟨rfl, rfl⟩⟩

theorem execProgressTimer_goesOn (opId position : Nat) (t : Ns) (s : State) :
    GoesOn s (execProgressTimer opId position t s) :=
  ⟨_, rfl, (progress_keeps ..).after ⟨rfl, rfl⟩⟩

theorem noticeAckOwn_keeps (code : Nat) (mark : Bool) (object : Nat) (s : State) :
    (noticeAckOwn code mark object s).Keeps s := by
  unfold noticeAckOwn
  split
  · exact Keeps.refl _
  · exact ⟨rfl, rfl⟩

theorem execNoticeAck_goesOn (h : CmdHdr) (code : Nat) (mark : Bool) (object : Nat) (s : State) :
    GoesOn s (execNoticeAck h code mark object s) :=
  ⟨_, rfl, runCmd_keeps _ _ _ fun _ => noticeAckOwn_keeps ..⟩

theorem starve_keeps (n : Nat) (s : State) : Keeps s (starve n s) := by
  unfold starve
  dsimp only
  split
  · exact .ite (((crossed_keeps ..).trans (bump_keeps ..)).trans (popWaiting_keeps ..)) ((crossed_keeps ..).trans
      (withRing_keeps ..))
  · exact .refl _

theorem execRxHoldExpiry_goesOn (ring : Nat) (t : Ns) (s : State) : GoesOn s (execRxHoldExpiry ring t s) :=
  ⟨_, rfl, .onlyIf ((starve_keeps ..).after ⟨rfl, rfl⟩) ⟨rfl, rfl⟩⟩

theorem hifDomainReset_keeps (s : State) : Keeps s (hifDomainReset s) :=
  Keeps.after (.fold fun _ _ => endSession_keeps ..) ((Keeps.update).after ((Keeps.update).after (Keeps.after (.fold
    fun _ _ => removeRing_keeps ..) ⟨rfl, rfl⟩)))

theorem execHifDomainReset_goesOn (s : State) : GoesOn s (execHifDomainReset s) :=
  ⟨_, rfl, hifDomainReset_keeps ..⟩

theorem execBarBadAccess_goesOn (write : Bool) (_offset : Nat) (s : State) :
    GoesOn s (execBarBadAccess write _offset s) :=
  ⟨_, rfl, (bump_keeps ..).after (.ite (.refl _) ⟨rfl, rfl⟩)⟩

theorem execConfigurationRequest_goesOn (offset : Nat) (s : State) : GoesOn s (execConfigurationRequest offset s) :=
  ⟨_, rfl, .ite ⟨rfl, rfl⟩ ⟨rfl, rfl⟩⟩

/-! ### Compression jobs and the recorder -/

theorem withBce_keeps (f : Bce → Bce) (s : State) : Keeps s (withBce f s) :=
  ⟨rfl, rfl⟩

theorem execBceJob_goesOn (h : CmdHdr) (input : Bytes) (s : State) : GoesOn s (execBceJob h input s) :=
  ⟨_, rfl, runCmd_keeps _ _ _ fun _ => acceptLong_keeps _ _ _ _ _ fun _ _ => ⟨rfl, rfl⟩⟩

theorem execBceAbort_goesOn (h : CmdHdr) (opId : Nat) (s : State) : GoesOn s (execBceAbort h opId s) :=
  ⟨_, rfl, runCmd_keeps _ _ _ fun _ => checked_keeps _ ⟨rfl, rfl⟩⟩

theorem keepResume_keeps (j : BceJob) (r : BceRun) (t : Ns) (s : State) : Keeps s (keepResume j r t s).2 :=
  ⟨rfl, rfl⟩

theorem endJob_keeps (j : BceJob) (s : State) : Keeps s (endJob j s) :=
  (endLong_keeps ..).after ((withLong_keeps ..).after ((bump_keeps ..).after ((Keeps.update).after (.ite_snd
    ((keepResume_keeps ..).after ((withBce_keeps ..).after (.ite ⟨rfl, rfl⟩ (.refl _)))) ((withBce_keeps ..).after
    (.ite ⟨rfl, rfl⟩ (.refl _)))))))

theorem execBceJobDone_goesOn (opId : Nat) (s : State) : GoesOn s (execBceJobDone opId s) := by
  unfold execBceJobDone
  split
  · exact ⟨_, rfl, .onlyIf (endJob_keeps ..) (.refl _)⟩
  · exact ⟨_, rfl, .refl _⟩

theorem execResumeHandleExpiry_goesOn (handle : Nat) (t : Ns) (s : State) :
    GoesOn s (execResumeHandleExpiry handle t s) :=
  ⟨_, rfl, ⟨rfl, rfl⟩⟩

theorem backlogMoved_keeps (old : Nat) (s0 : State) : Keeps s0 (backlogMoved old s0) :=
  .ite ((keepHigh_keeps ..).trans (crossed_keeps ..)) ((keepHigh_keeps ..).trans (noticeLive_keeps ..))

theorem finishFlushes_keeps (s : State) : Keeps s (finishFlushes s) :=
  Keeps.after (.fold fun _ _ => completeHeld_keeps ..) ⟨rfl, rfl⟩

theorem countRecDrop_keeps (e : BacklogSeg) (s : State) : Keeps s (countRecDrop e s) :=
  (bump_keeps ..).after ⟨rfl, rfl⟩

theorem enterBacklog_keeps (e : BacklogSeg) (s : State) : Keeps s (enterBacklog e s).1 := by
  unfold enterBacklog
  dsimp only
  refine .ite_fst ?_ ?_
  · refine (finishFlushes_keeps ..).after ?_
    refine (countRecDrop_keeps ..).after ?_
    split
    · exact bump_keeps ..
    · exact .refl _
  · refine .ite_fst ?_ ?_
    · exact (countRecDrop_keeps ..).trans (finishFlushes_keeps ..)
    · refine (backlogMoved_keeps ..).after ?_
      split
      · exact (starvedLive_keeps ..).after (.ite ⟨rfl, rfl⟩ ⟨rfl, rfl⟩)
      · exact ⟨rfl, rfl⟩

theorem writeSegment_keeps (n : Nat) (e : BacklogSeg) (s : State) : Keeps s (writeSegment n e s) :=
  (finishFlushes_keeps ..).after ((starvedLive_keeps ..).after ((bump_keeps ..).after ((backlogMoved_keeps ..).after
    ((writeItem_keeps ..).after ⟨rfl, rfl⟩))))

theorem execRecSegmentWrite_goesOn (ok : Bool) (t : Ns) (s : State) : GoesOn s (execRecSegmentWrite ok t s) := by
  unfold execRecSegmentWrite
  dsimp only
  split
  · exact ⟨_, rfl, ⟨rfl, rfl⟩⟩
  · exact ⟨_, rfl, .onlyIf (.ite ((writeSegment_keeps ..).after ⟨rfl, rfl⟩) ((writeFailed_keeps ..).after ⟨rfl, rfl⟩))
      ⟨rfl, rfl⟩⟩

theorem closeSegment_keeps (n : Nat) (last : Bool) (s : State) : Keeps s (closeSegment n last s) := by
  unfold closeSegment
  dsimp only
  split
  · exact .refl _
  · exact .ite ((finishFlushes_keeps ..).after ⟨rfl, rfl⟩) (.ite ((Keeps.update).after ((enterBacklog_keeps ..).after
      ⟨rfl, rfl⟩)) ((enterBacklog_keeps ..).after ⟨rfl, rfl⟩))

theorem recordFrame_keeps (n tick startTime : Nat) (f : RecFrame) (s : State) :
    Keeps s (recordFrame n tick startTime f s) := by
  unfold recordFrame
  dsimp only
  split
  · exact .refl _
  · exact .ite (.refl _) (.ite ((closeSegment_keeps ..).after ⟨rfl, rfl⟩) ⟨rfl, rfl⟩)

theorem recFlushOwn_keeps (h : CmdHdr) (s : State) : (recFlushOwn h s).Keeps s :=
  .ite (Keeps.refl _) (⟨rfl, rfl⟩)

theorem execRecFlush_goesOn (h : CmdHdr) (s : State) : GoesOn s (execRecFlush h s) :=
  ⟨_, rfl, runCmd_keeps _ _ _ fun _ => recFlushOwn_keeps ..⟩

end Sys2Proof.Machine
end

section
/-! SUPPORT. The VPE commands and the operations of the scheduler, the directory, the ports and the radio:
what keeps the queue and the fused identity. -/

namespace Sys2Proof.Machine

open Sys2Proof

set_option Elab.async false

/-! ### VPE commands -/

theorem putVpe_keeps (n : Nat) (w : Vpe) (s : State) : Keeps s (putVpe n w s) :=
  ⟨rfl, rfl⟩

theorem noteFault_keeps (n : Nat) (k : FaultKind) (kernel pc : Nat) (s0 : State) :
    Keeps s0 (noteFault n k kernel pc s0) :=
  (crossed_keeps ..).after ((bumpSub_keeps ..).after (.ite ⟨rfl, rfl⟩ (.refl _)))

theorem runVpe_keeps (n : Nat) (f : Nat → Vpe → Vpe) (s : State) : Keeps s (runVpe n f s) :=
  .ite (.refl _) (.ite (.refl _) ⟨rfl, rfl⟩)

theorem runOp_keeps (n : Nat) (p : BitVec 4) (op : VOp) (s : State) : Keeps s (runOp n p op s) :=
  .ite (.refl _) (runVpe_keeps ..)

theorem runOp_goesOn (n : Nat) (p : BitVec 4) (op : VOp) (s : State) : GoesOn s (.next (runOp n p op s)) :=
  ⟨_, rfl, runOp_keeps ..⟩

theorem execBundleIssue_goesOn (vpe : Nat) (s : State) : GoesOn s (execBundleIssue vpe s) :=
  ⟨_, rfl, runVpe_keeps ..⟩

/-! ### Flows and ops -/

theorem withFsc_keeps (f : Fsc → Fsc) (s : State) : Keeps s (withFsc f s) :=
  ⟨rfl, rfl⟩

theorem withFlow_keeps (f : Nat) (g : Flow → Flow) (s : State) : Keeps s (withFlow f g s) :=
  ⟨rfl, rfl⟩

theorem withInst_keeps (f i : Nat) (g : Inst → Inst) (s : State) : Keeps s (withInst f i g s) :=
  ⟨rfl, rfl⟩

theorem withOp_keeps (f i d : Nat) (g : Op → Op) (s : State) : Keeps s (withOp f i d g s) :=
  ⟨rfl, rfl⟩

theorem withOps_keeps (f : Nat) (g : Inst → Op → Op) (s : State) : Keeps s (withOps f g s) :=
  ⟨rfl, rfl⟩

theorem pressure_keeps (s : State) : Keeps s (pressure s) :=
  .ite (((((keepHigh_keeps ..).trans (keepHigh_keeps ..)).trans (keepHigh_keeps ..)).trans (withFsc_keeps ..)).trans
    (crossed_keeps ..)) (((((keepHigh_keeps ..).trans (keepHigh_keeps ..)).trans (keepHigh_keeps ..)).trans
    (withFsc_keeps ..)).trans (noticeLive_keeps ..))

theorem takeFor_keeps (f i d : Nat) (s : State) : Keeps s (takeFor f i d s) := by
  unfold takeFor
  dsimp only
  split
  · refine .ite ?_ ?_
    · exact .refl _
    · split
      · exact .refl _
      · exact (pullItem_keeps ..).trans (withOp_keeps ..)
  · exact .refl _

theorem dropItem_keeps (f q at_ : Nat) (s : State) : Keeps s (dropItem f q at_ s) :=
  ((pullItem_keeps ..).trans (bump_keeps ..)).trans (bump_keeps ..)

theorem issueInst_keeps (f num due : Nat) (s : State) : Keeps s (issueInst f num due s) :=
  ⟨rfl, rfl⟩

theorem offerInst_keeps (f num due : Nat) (s : State) : Keeps s (offerInst f num due s) := by
  unfold offerInst
  dsimp only
  split
  · exact .refl _
  · exact .ite ⟨rfl, rfl⟩ (.ite ((bump_keeps ..).after ⟨rfl, rfl⟩) ((bump_keeps ..).after ⟨rfl, rfl⟩))

theorem issueStalled_keeps (f : Nat) (s : State) : Keeps s (issueStalled f s) := by
  unfold issueStalled
  split
  · exact .refl _
  · split
    · exact .refl _
    · exact .ite ⟨rfl, rfl⟩ (.refl _)

theorem issueDue_keeps (e : Nat × Nat × Nat) (s : State) : Keeps s (issueDue e s) := by
  unfold issueDue
  dsimp only
  split
  · exact .refl _
  · exact (offerInst_keeps ..).after (.ite (.refl _) ⟨rfl, rfl⟩)

theorem issueTick_keeps (t : Nat) (s : State) : Keeps s (issueTick t s) :=
  Keeps.after (.fold fun _ _ => issueDue_keeps ..) ⟨rfl, rfl⟩

theorem addFlow_keeps (f : Nat) (fl : Flow) (s : State) : Keeps s (addFlow f fl s) :=
  .ite ⟨rfl, rfl⟩ ⟨rfl, rfl⟩

/-! ### The endpoint directory -/

theorem withEpd_keeps (f : Epd → Epd) (s : State) : Keeps s (withEpd f s) :=
  ⟨rfl, rfl⟩

theorem withEntry_keeps (slot : Nat) (f : EpdEntry → EpdEntry) (s : State) : Keeps s (withEntry slot f s) :=
  ⟨rfl, rfl⟩

theorem epdLookup_keeps (addr : BitVec 64) (s : State) : Keeps s (epdLookup addr s).2 := by
  unfold epdLookup
  split
  · exact bump_keeps ..
  · exact (bump_keeps ..).trans (bump_keeps ..)

theorem emptyEpd_keeps (s : State) : Keeps s (emptyEpd s) :=
  ⟨rfl, rfl⟩

theorem acceptFcnt_keeps (slot : Nat) (fcnt : BitVec 32) (s : State) : Keeps s (acceptFcnt slot fcnt s) :=
  ⟨rfl, rfl⟩

/-! ### Ethernet frames -/

theorem withPort_keeps (p : Nat) (f : EthPort → EthPort) (s : State) : Keeps s (withPort p f s) :=
  ⟨rfl, rfl⟩

theorem withPair_keeps (n : Nat) (f : PrpPair → PrpPair) (s : State) : Keeps s (withPair n f s) :=
  ⟨rfl, rfl⟩

theorem dropDown_keeps (p : Nat) (f : TxFrame) (s : State) : Keeps s (dropDown p f s) :=
  (bump_keeps ..).trans (endPtx_keeps ..)

theorem dropQueued_keeps (p : Nat) (s : State) : Keeps s (dropQueued p s) :=
  Keeps.after (.fold fun _ _ => .fold fun _ _ => dropDown_keeps ..) ⟨rfl, rfl⟩

theorem beginWake_keeps (p : Nat) (t : Ns) (s : State) : Keeps s (beginWake p t s) :=
  .ite ⟨rfl, rfl⟩ (.refl _)

theorem enqueue_keeps (p tc : Nat) (f : TxFrame) (s : State) : Keeps s (enqueue p tc f s) :=
  .ite (endPtx_keeps ..) (.ite (dropDown_keeps ..) ((beginWake_keeps ..).after ⟨rfl, rfl⟩))

theorem ethSend_keeps (p tc : Nat) (d : Bytes) (ptx : Option (Nat × BitVec 32)) (ts : Bool) (s : State) :
    Keeps s (ethSend p tc d ptx ts s) :=
  enqueue_keeps ..

theorem pairSend_keeps (n tc : Nat) (d : Bytes) (ptx : Option (Nat × BitVec 32)) (ts : Bool) (s : State) :
    Keeps s (pairSend n tc d ptx ts s) :=
  (enqueue_keeps ..).after ((enqueue_keeps ..).after ⟨rfl, rfl⟩)

theorem portSend_keeps (p tc : Nat) (d : Bytes) (s : State) : Keeps s (portSend p tc d s) := by
  unfold portSend
  split
  · exact pairSend_keeps ..
  · exact ethSend_keeps ..

theorem wireDone_keeps (p : Nat) (t : Ns) (s : State) : Keeps s (wireDone p t s) := by
  unfold wireDone
  dsimp only
  split
  · exact .refl _
  · exact .ite (.refl _) ((endPtx_keeps ..).after (.ite_snd ⟨rfl, rfl⟩ ⟨rfl, rfl⟩))

theorem loseLink_keeps (p : Nat) (s : State) : Keeps s (loseLink p s) := by
  unfold loseLink
  dsimp only
  refine (dropQueued_keeps ..).after ?_
  split
  · exact ((beginWake_keeps ..).trans (withPort_keeps ..)).trans (dropDown_keeps ..)
  · exact (beginWake_keeps ..).trans (withPort_keeps ..)

theorem dropTooLong_keeps (p : Nat) (s : State) : Keeps s (dropTooLong p s) :=
  .fold fun _ _ => Keeps.after (.fold fun _ _ => (bump_keeps ..).trans (endPtx_keeps ..)) ⟨rfl, rfl⟩

theorem startFrame_keeps (p : Nat) (t : Ns) (s : State) : Keeps s (startFrame p t s) := by
  unfold startFrame
  split
  · exact .refl _
  · split
    · exact .refl _
    · exact ⟨rfl, rfl⟩

/-! ### Radio operations -/

theorem withLink_keeps (n : Nat) (f : Link → Link) (s : State) : Keeps s (withLink n f s) :=
  ⟨rfl, rfl⟩

theorem withAnt_keeps (n a : Nat) (f : Antenna → Antenna) (s : State) : Keeps s (withAnt n a f s) :=
  ⟨rfl, rfl⟩

theorem spiSend_keeps (n bitsN value : Nat) (s : State) : Keeps s (spiSend n bitsN value s) :=
  ⟨rfl, rfl⟩

theorem withRxc_keeps (n : Nat) (f : Rxc → Rxc) (s : State) : Keeps s (withRxc n f s) :=
  ⟨rfl, rfl⟩

theorem refreeze_keeps (n a : Nat) (s : State) : Keeps s (refreeze n a s) :=
  .ite ⟨rfl, rfl⟩ (.ite ⟨rfl, rfl⟩ (.refl _))

theorem withRecs_keeps (n : Nat) (f : List Reception → List Reception) (s : State) : Keeps s (withRecs n f s) := by
  unfold withRecs
  split
  · exact .refl _
  · exact (refreeze_keeps ..).after ⟨rfl, rfl⟩

theorem countAbandon_keeps (n sf : Nat) (r : Abandon) (s : State) : Keeps s (countAbandon n sf r s) := by
  unfold countAbandon
  split
  · exact bumpSub_keeps ..
  · exact bumpSub_keeps ..
  · exact bump_keeps ..
  · exact bumpSub_keeps ..
  · exact bumpSub_keeps ..
  · exact bumpSub_keeps ..
  · exact bump_keeps ..
  · exact .refl _
  · exact .refl _

theorem abandon_keeps (n id : Nat) (r : Abandon) (s : State) : Keeps s (abandon n id r s) := by
  unfold abandon
  split
  · exact .refl _
  · exact (withRecs_keeps ..).trans (countAbandon_keeps ..)

theorem abandonAll_keeps (n : Nat) (r : Abandon) (s : State) : Keeps s (abandonAll n r s) := by
  unfold abandonAll
  split
  · exact .refl _
  · exact .fold fun _ _ => abandon_keeps ..

theorem restartRuns_keeps (n : Nat) (s : State) : Keeps s (restartRuns n s) :=
  ⟨rfl, rfl⟩

theorem restartChain_keeps (n : Nat) (s : State) : Keeps s (restartChain n s) :=
  ⟨rfl, rfl⟩

theorem withTxc_keeps (n : Nat) (f : Txc → Txc) (s : State) : Keeps s (withTxc n f s) :=
  ⟨rfl, rfl⟩

theorem missRadio_keeps (flow : Nat) (s : State) : Keeps s (missRadio flow s) :=
  (bump_keeps ..).trans (bumpN_keeps ..)

theorem endTx_keeps (n : Nat) (q : TxReq) (time status : Nat) (s : State) : Keeps s (endTx n q time status s) := by
  unfold endTx
  dsimp only
  refine (endPtx_keeps ..).after ?_
  split
  · exact (bump_keeps ..).after (.ite (missRadio_keeps ..) (.refl _))
  · exact .ite (missRadio_keeps ..) (.refl _)

theorem txcGone_keeps (n : Nat) (s : State) : Keeps s (txcGone n s) :=
  ⟨rfl, rfl⟩

theorem endOnAir_keeps (n status : Nat) (s : State) : Keeps s (endOnAir n status s) := by
  unfold endOnAir
  dsimp only
  split
  · exact .refl _
  · split
    · exact .refl _
    · exact .ite ((txcGone_keeps ..).after ((endTx_keeps ..).after ⟨rfl, rfl⟩)) ((endTx_keeps ..).after ⟨rfl, rfl⟩)

theorem pttSend_keeps (group : Nat) (d : Bytes) (s : State) : Keeps s (pttSend group d s) := by
  unfold pttSend
  dsimp only
  split
  · exact .refl _
  · split
    · exact .refl _
    · exact .ite (.refl _) ((bumpN_keeps ..).trans (withTxc_keeps ..))

theorem buildEnd_keeps (n : Nat) (good : Bool) (s : State) : Keeps s (buildEnd n good s) := by
  unfold buildEnd
  dsimp only
  split
  · refine .ite ?_ ?_
    · exact (endTx_keeps ..).after ⟨rfl, rfl⟩
    · refine .ite ?_ ?_
      · exact ⟨rfl, rfl⟩
      · split
        · exact (endTx_keeps ..).after ⟨rfl, rfl⟩
        · exact ⟨rfl, rfl⟩
  · exact .refl _

theorem sendSamples_keeps (n : Nat) (t : Ns) (s : State) : Keeps s (sendSamples n t s) :=
  (bumpN_keeps ..).trans (withLink_keeps ..)

theorem runSpi_keeps (n : Nat) (w : SpiWait) (s : State) : Keeps s (runSpi n w s) :=
  (completeHeld_keeps ..).after ⟨rfl, rfl⟩

theorem spiSlot_keeps (n : Nat) (s : State) : Keeps s (spiSlot n s) :=
  Keeps.after (.fold fun _ _ => runSpi_keeps ..) ⟨rfl, rfl⟩

theorem spiFree_keeps (n : Nat) (s : State) : Keeps s (spiFree n s) :=
  Keeps.after (.fold fun _ _ => runSpi_keeps ..) ⟨rfl, rfl⟩

theorem leaveData_keeps (n : Nat) (s : State) : Keeps s (leaveData n s) :=
  (spiFree_keeps ..).after ((Keeps.update).after (Keeps.after (.fold fun _ _ => endOnAir_keeps ..) ((sendSamples_keeps
    ..).after (Keeps.after (.fold fun _ _ => (abandonAll_keeps ..).trans (restartRuns_keeps ..)) (.ite (bump_keeps ..)
    (.refl _))))))

theorem reachData_keeps (n : Nat) (s : State) : Keeps s (reachData n s) :=
  .fold fun _ _ => ⟨rfl, rfl⟩

theorem pttPlay_keeps (group : Nat) (t : Ns) (d : Bytes) (s : State) : Keeps s (pttPlay group t d s) := by
  unfold pttPlay
  dsimp only
  split
  · exact ⟨rfl, rfl⟩
  · exact .refl _

theorem takeFloor_keeps (group id : Nat) (slot : Option Nat) (t : Ns) (s : State) :
    Keeps s (takeFloor group id slot t s) := by
  unfold takeFloor
  dsimp only
  split
  · exact .refl _
  · split
    · exact .ite ⟨rfl, rfl⟩ ⟨rfl, rfl⟩
    · exact ⟨rfl, rfl⟩

theorem secCheck_keeps (e : Reception) (d : Bytes) (s : State) : Keeps s (secCheck e d s).2 := by
  unfold secCheck
  dsimp only
  refine .ite_snd ?_ ?_
  · exact .refl _
  · split
    · refine .ite_snd ?_ ?_
      · exact epdLookup_keeps ..
      · split
        · exact epdLookup_keeps ..
        · exact epdLookup_keeps ..
    · exact epdLookup_keeps ..

theorem frameSec_keeps (e : Reception) (d : Bytes) (s : State) : Keeps s (frameSec e d s).2 :=
  .ite_snd (secCheck_keeps ..) (.refl _)

theorem heardFrame_keeps (n slot quality : Nat) (e : Reception) (s : State) : Keeps s (heardFrame n slot quality e s) :=
  ⟨rfl, rfl⟩

theorem deliverRadio_keeps (n : Nat) (e : Reception) (crcOk secOk unknown : Bool) (quality corr : Nat) (d : Bytes)
    (s : State) :
    Keeps s (deliverRadio n e crcOk secOk unknown quality corr d s) :=
  deliverItem_keeps ..

theorem releaseFrame_keeps (n : Nat) (e : Reception) (quality corr : Nat) (t : Ns) (d : Bytes) (s : State) :
    Keeps s (releaseFrame n e quality corr t d s) := by
  unfold releaseFrame
  dsimp only
  split
  · split
    · exact ((frameSec_keeps ..).trans (bump_keeps ..)).trans (withEntry_keeps ..)
    · exact (frameSec_keeps ..).trans (bump_keeps ..)
  · split
    · refine .ite ?_ ?_
      · refine (pttPlay_keeps ..).after ?_
        refine (takeFloor_keeps ..).after ?_
        split
        · refine (heardFrame_keeps ..).after ?_
          split
          · exact (acceptFcnt_keeps ..).after (.ite ((frameSec_keeps ..).trans (bump_keeps ..)) (frameSec_keeps ..))
          · exact .ite ((frameSec_keeps ..).trans (bump_keeps ..)) (frameSec_keeps ..)
        · split
          · exact (acceptFcnt_keeps ..).after (.ite ((frameSec_keeps ..).trans (bump_keeps ..)) (frameSec_keeps ..))
          · exact .ite ((frameSec_keeps ..).trans (bump_keeps ..)) (frameSec_keeps ..)
      · refine (bump_keeps ..).after ?_
        split
        · refine (heardFrame_keeps ..).after ?_
          split
          · exact (acceptFcnt_keeps ..).after (.ite ((frameSec_keeps ..).trans (bump_keeps ..)) (frameSec_keeps ..))
          · exact .ite ((frameSec_keeps ..).trans (bump_keeps ..)) (frameSec_keeps ..)
        · split
          · exact (acceptFcnt_keeps ..).after (.ite ((frameSec_keeps ..).trans (bump_keeps ..)) (frameSec_keeps ..))
          · exact .ite ((frameSec_keeps ..).trans (bump_keeps ..)) (frameSec_keeps ..)
    · refine (deliverRadio_keeps ..).after ?_
      refine .ite ?_ ?_
      · refine (bump_keeps ..).after ?_
        split
        · refine (heardFrame_keeps ..).after ?_
          split
          · exact (acceptFcnt_keeps ..).after (.ite ((frameSec_keeps ..).trans (bump_keeps ..)) (frameSec_keeps ..))
          · exact .ite ((frameSec_keeps ..).trans (bump_keeps ..)) (frameSec_keeps ..)
        · split
          · exact (acceptFcnt_keeps ..).after (.ite ((frameSec_keeps ..).trans (bump_keeps ..)) (frameSec_keeps ..))
          · exact .ite ((frameSec_keeps ..).trans (bump_keeps ..)) (frameSec_keeps ..)
      · split
        · refine (heardFrame_keeps ..).after ?_
          split
          · exact (acceptFcnt_keeps ..).after (.ite ((frameSec_keeps ..).trans (bump_keeps ..)) (frameSec_keeps ..))
          · exact .ite ((frameSec_keeps ..).trans (bump_keeps ..)) (frameSec_keeps ..)
        · split
          · exact (acceptFcnt_keeps ..).after (.ite ((frameSec_keeps ..).trans (bump_keeps ..)) (frameSec_keeps ..))
          · exact .ite ((frameSec_keeps ..).trans (bump_keeps ..)) (frameSec_keeps ..)

theorem endReception_keeps (n id : Nat) (d : Bytes) (quality corr : Nat) (late : Bool) (t : Ns) (s : State) :
    Keeps s (endReception n id d quality corr late t s) := by
  unfold endReception
  dsimp only
  split
  · exact .refl _
  · exact .ite ((releaseFrame_keeps ..).after ((bumpSub_keeps ..).after (.ite ((withRecs_keeps ..).trans
      (missRadio_keeps ..)) (withRecs_keeps ..)))) (.ite ((bumpSub_keeps ..).after (.ite ((withRecs_keeps ..).trans
      (missRadio_keeps ..)) (withRecs_keeps ..))) ((deliverRadio_keeps ..).after ((bumpSub_keeps ..).after (.ite
      ((withRecs_keeps ..).trans (missRadio_keeps ..)) (withRecs_keeps ..)))))

theorem headerStep_keeps (n id : Nat) (h : Bytes) (s : State) : Keeps s (headerStep n id h s) := by
  unfold headerStep
  split
  · exact .refl _
  · split
    · exact withRecs_keeps ..
    · exact abandon_keeps ..
    · exact abandon_keeps ..

theorem feedAntenna_keeps (n a first : Nat) (unsettled : Bool) (l : List Cx) (s : State) :
    Keeps s (feedAntenna n a first unsettled l s) := by
  unfold feedAntenna
  dsimp only
  split
  · exact .refl _
  · exact ⟨rfl, rfl⟩

theorem presentRadio_keeps (e : RadioEvt) (s : State) : Keeps s (presentRadio e s) :=
  ⟨rfl, rfl⟩

theorem searchSf_keeps (n sf : Nat) (s : State) : Keeps s (searchSf n sf s) := by
  unfold searchSf
  dsimp only
  split
  · exact .refl _
  · split
    · exact .refl _
    · exact .ite ⟨rfl, rfl⟩ ⟨rfl, rfl⟩

theorem stepReception_keeps (n id : Nat) (s : State) : Keeps s (stepReception n id s) := by
  unfold stepReception
  dsimp only
  split
  · exact .refl _
  · split
    · exact .refl _
    · split
      · exact ⟨rfl, rfl⟩
      · exact ⟨rfl, rfl⟩

theorem stepReceptions_keeps (n : Nat) (s : State) : Keeps s (stepReceptions n s) :=
  .fold fun _ _ => by
      split
      · exact .refl _
      · exact .fold fun _ _ => stepReception_keeps ..

theorem beginReception_keeps (n : Nat) (q : Qualified) (overlap weak onPool step : Bool) (s : State) :
    Keeps s (beginReception n q overlap weak onPool step s) := by
  unfold beginReception
  dsimp only
  split
  · exact .refl _
  · exact (withRecs_keeps ..).after ⟨rfl, rfl⟩

theorem recover_keeps (n : Nat) (q : Qualified) (cur : Reception) (level : Int) (s : State) :
    Keeps s (recover n q cur level s) :=
  (((withRecs_keeps ..).trans (bump_keeps ..)).trans (beginReception_keeps ..)).trans (keepHigh_keeps ..)

theorem preambleQualified_keeps (n : Nat) (q : Qualified) (s : State) : Keeps s (preambleQualified n q s) := by
  unfold preambleQualified
  dsimp only
  split
  · exact .refl _
  · split
    · exact beginReception_keeps ..
    · refine .ite ?_ ?_
      · exact .refl _
      · refine .ite ?_ ?_
        · exact (abandon_keeps ..).trans (beginReception_keeps ..)
        · split
          · exact bump_keeps ..
          · exact .ite ((abandon_keeps ..).trans (beginReception_keeps ..)) (bump_keeps ..)
          · exact .ite (recover_keeps ..) (bump_keeps ..)
    · exact bump_keeps ..

theorem writeGain_keeps (n a entry : Nat) (s : State) : Keeps s (writeGain n a entry s) := by
  unfold writeGain
  dsimp only
  split
  · exact .refl _
  · exact .ite (.refl _) ((bump_keeps ..).after ⟨rfl, rfl⟩)

theorem autoGain_keeps (n a peak : Nat) (clipped unsettled : Bool) (s : State) :
    Keeps s (autoGain n a peak clipped unsettled s) :=
  .ite ⟨rfl, rfl⟩ (.ite (.ite ((bump_keeps ..).after ((writeGain_keeps ..).after ⟨rfl, rfl⟩)) ⟨rfl, rfl⟩) (.ite
    ((writeGain_keeps ..).after ⟨rfl, rfl⟩) (.ite (.ite (.ite ((writeGain_keeps ..).after ⟨rfl, rfl⟩) ⟨rfl, rfl⟩) ⟨rfl,
    rfl⟩) ⟨rfl, rfl⟩)))

theorem manualGain_keeps (n a : Nat) (s : State) : Keeps s (manualGain n a s) := by
  unfold manualGain
  dsimp only
  split
  · exact (writeGain_keeps ..).after ⟨rfl, rfl⟩
  · exact .refl _

theorem settleGain_keeps (n a : Nat) (s : State) : Keeps s (settleGain n a s) := by
  unfold settleGain
  split
  · exact .ite ⟨rfl, rfl⟩ (.refl _)
  · exact .refl _

theorem gainDecision_keeps (n a peak : Nat) (clipped unsettled : Bool) (s : State) :
    Keeps s (gainDecision n a peak clipped unsettled s) :=
  (withAnt_keeps ..).after (.ite ((settleGain_keeps ..).trans (manualGain_keeps ..)) ((settleGain_keeps ..).trans
    (autoGain_keeps ..)))

theorem detection_keeps (n : Nat) (l : List Qualified) (s : State) : Keeps s (detection n l s) := by
  unfold detection
  dsimp only
  split
  · exact .refl _
  · exact (bumpSub_keeps ..).trans (preambleQualified_keeps ..)

theorem radioRound_keeps (s : State) : Keeps s (radioRound s) :=
  Keeps.after (.fold fun _ _ => .ite (spiSlot_keeps ..) (.refl _)) (Keeps.after (.fold fun _ _ => by
      split
      · exact .ite (gainDecision_keeps ..) (.refl _)
      · exact .refl _) (Keeps.after (.fold fun _ _ => detection_keeps ..) (Keeps.after (.fold fun _ _ => by
      split
      · exact .ite (.refl _) (.ite ⟨rfl, rfl⟩ (endReception_keeps ..))
      · exact .refl _) (Keeps.after (.fold fun _ _ => by
      split
      · exact .ite (.refl _) (.ite ⟨rfl, rfl⟩ (endReception_keeps ..))
      · exact .refl _) (Keeps.after (.fold fun _ _ => by
      split
      · exact abandon_keeps ..
      · exact .refl _) (Keeps.after (.fold fun _ _ => by
      split
      · exact headerStep_keeps ..
      · exact .refl _) ⟨rfl, rfl⟩))))))

/-! ### Timeslots -/

theorem withTdm_keeps (t : Nat) (f : TdmPort → TdmPort) (s : State) : Keeps s (withTdm t f s) :=
  ⟨rfl, rfl⟩

theorem tonesSent_keeps (t : Nat) (s : State) : Keeps s (tonesSent t s) :=
  ⟨rfl, rfl⟩

end Sys2Proof.Machine
end

section
/-! SUPPORT. Packet voice, voice frames and the ordering point:
what keeps the queue and the fused identity. -/

namespace Sys2Proof.Machine

open Sys2Proof

set_option Elab.async false

/-! ### RTP contexts -/

theorem withRtp_keeps (c : Nat) (f : Rtp → Rtp) (s : State) : Keeps s (withRtp c f s) :=
  ⟨rfl, rfl⟩

theorem withChan_keeps (c : Nat) (f : Chan → Chan) (s : State) : Keeps s (withChan c f s) :=
  ⟨rfl, rfl⟩

theorem rtpEvent_keeps (code c : Nat) (s : State) : Keeps s (rtpEvent code c s) :=
  raise_keeps ..

theorem flowEvent_keeps (code c : Nat) (s : State) : Keeps s (flowEvent code c s) := by
  unfold flowEvent
  split
  · exact rtpEvent_keeps ..
  · exact ⟨rfl, rfl⟩

theorem rtpCrossed_keeps (code c reason : Nat) (value : Int) (live : Bool) (s : State) :
    Keeps s (rtpCrossed code c reason value live s) :=
  crossing_keeps ..

theorem keyAge_keeps (c dir used : Nat) (s : State) : Keeps s (keyAge c dir used s) :=
  .ite (rtpCrossed_keeps ..) (.refl _)

theorem rtpEmit_keeps (p : RtpParams) (sport dport : Nat) (payload : Bytes) (s : State) :
    Keeps s (rtpEmit p sport dport payload s) :=
  portSend_keeps ..

theorem rtpSend_keeps (c pt : Nat) (marker : Bool) (ts : BitVec 32) (payload : Bytes) (s : State) :
    Keeps s (rtpSend c pt marker ts payload s) := by
  unfold rtpSend
  dsimp only
  split
  · exact .refl _
  · refine .ite ?_ ?_
    · split
      · exact .refl _
      · exact .ite (.refl _) ((keyAge_keeps ..).after ((rtpEmit_keeps ..).after (.ite ((flowEvent_keeps ..).after ⟨rfl,
          rfl⟩) ⟨rfl, rfl⟩)))
    · exact (rtpEmit_keeps ..).after ⟨rfl, rfl⟩

theorem rtcpSend_keeps (c : Nat) (bye : Bool) (s : State) : Keeps s (rtcpSend c bye s) := by
  unfold rtcpSend
  dsimp only
  split
  · exact .refl _
  · refine .ite ?_ ?_
    · split
      · exact .refl _
      · exact .ite (.refl _) ((rtpEmit_keeps ..).after ⟨rfl, rfl⟩)
    · exact (rtpEmit_keeps ..).after ⟨rfl, rfl⟩

theorem rtcpSchedule_keeps (c : Nat) (s : State) : Keeps s (rtcpSchedule c s) := by
  unfold rtcpSchedule
  dsimp only
  split
  · exact .refl _
  · exact ⟨rfl, rfl⟩

theorem execRtcpReportTimer_goesOn (context : Nat) (t : Ns) (s : State) : GoesOn s (execRtcpReportTimer context t s) :=
  ⟨_, rfl, .onlyIf ((rtcpSchedule_keeps ..).after ((rtcpSend_keeps ..).after ⟨rfl, rfl⟩)) ⟨rfl, rfl⟩⟩

theorem rtcpBlock_keeps (c : Nat) (b : Bytes) (s : State) : Keeps s (rtcpBlock c b s) := by
  unfold rtcpBlock
  dsimp only
  split
  · exact .refl _
  · exact .ite (.ite (.refl _) ⟨rfl, rfl⟩) (bump_keeps ..)

theorem rtcpPart_keeps (c : Nat) (e : Nat × Nat × Bytes) (s : State) : Keeps s (rtcpPart c e s) := by
  unfold rtcpPart
  dsimp only
  split
  · exact .refl _
  · split
    · exact Keeps.after (.fold fun _ _ => rtcpBlock_keeps ..) (.ite ⟨rfl, rfl⟩ (.refl _))
    · exact .fold fun _ _ => rtcpBlock_keeps ..
    · exact .ite (rtpEvent_keeps ..) (bump_keeps ..)
    · exact bump_keeps ..

theorem rtcpReceive_keeps (c : Nat) (src : Bytes) (sport : Nat) (d : Bytes) (s : State) :
    Keeps s (rtcpReceive c src sport d s) := by
  unfold rtcpReceive
  dsimp only
  split
  · exact .refl _
  · refine .ite ?_ ?_
    · exact bump_keeps ..
    · refine .ite ?_ ?_
      · exact bump_keeps ..
      · refine .ite ?_ ?_
        · exact .fold fun _ _ => rtcpPart_keeps ..
        · split
          · exact bump_keeps ..
          · exact Keeps.after (.fold fun _ _ => rtcpPart_keeps ..) (.ite ((rtpEvent_keeps ..).after ⟨rfl, rfl⟩) ⟨rfl,
              rfl⟩)

theorem execRtcpRx_goesOn (context : Nat) (src : Bytes) (srcPort : Nat) (udp : Bytes) (t : Ns) (s : State) :
    GoesOn s (execRtcpRx context src srcPort udp t s) :=
  ⟨_, rfl, .onlyIf ((rtcpReceive_keeps ..).after ⟨rfl, rfl⟩) ⟨rfl, rfl⟩⟩

theorem restartStream_keeps (c : Nat) (s : State) : Keeps s (restartStream c s) := by
  unfold restartStream
  dsimp only
  split
  · exact .refl _
  · exact (bumpN_keeps ..).after ⟨rfl, rfl⟩

theorem closeWindows_keeps (c : Nat) (s : State) : Keeps s (closeWindows c s) := by
  unfold closeWindows
  split
  · exact .refl _
  · exact (bumpN_keeps ..).after ⟨rfl, rfl⟩

theorem dropCandidate_keeps (c : Nat) (s : State) : Keeps s (dropCandidate c s) := by
  unfold dropCandidate
  split
  · exact .refl _
  · exact (bump_keeps ..).after ⟨rfl, rfl⟩

theorem bufferPacket_keeps (c : Nat) (ch : Chan) (ext : Nat) (ts : BitVec 32) (marker : Bool) (frames : Nat)
    (noise : Bool) (d : Bytes) (s : State) :
    Keeps s (bufferPacket c ch ext ts marker frames noise d s) := by
  unfold bufferPacket
  dsimp only
  split
  · exact .refl _
  · refine .ite ?_ ?_
    · exact ⟨rfl, rfl⟩
    · split
      · exact .ite ((bump_keeps ..).after ⟨rfl, rfl⟩) ⟨rfl, rfl⟩
      · exact (bump_keeps ..).after ⟨rfl, rfl⟩

theorem telephoneBlock_keeps (n : Nat) (ts : BitVec 32) (b : Bytes) (s : State) :
    Keeps s (telephoneBlock n ts b s) := by
  unfold telephoneBlock
  dsimp only
  split
  · exact .refl _
  · split
    · exact .ite (.refl _) (.ite ⟨rfl, rfl⟩ ⟨rfl, rfl⟩)
    · exact .ite (.refl _) (.ite ⟨rfl, rfl⟩ ⟨rfl, rfl⟩)
    · exact .ite ⟨rfl, rfl⟩ ⟨rfl, rfl⟩

theorem telephoneEvent_keeps (n : Nat) (ts : BitVec 32) (d : Bytes) (s : State) : Keeps s (telephoneEvent n ts d s) :=
  Keeps.foldl_snd (fun _ _ => telephoneBlock_keeps ..) (chunksOf 4 d) (ts, s)

theorem acceptRtp_keeps (c ext : Nat) (ts : BitVec 32) (clock : Nat) (s : State) :
    Keeps s (acceptRtp c ext ts clock s) :=
  (noticeLive_keeps ..).after ⟨rfl, rfl⟩

theorem sequenceRtp_keeps (c n : Nat) (ch : Chan) (seq : BitVec 16) (ts : BitVec 32) (marker : Bool) (p : Payload)
    (d : Bytes) (s : State) :
    Keeps s (sequenceRtp c n ch seq ts marker p d s) := by
  unfold sequenceRtp
  dsimp only
  split
  · exact .refl _
  · split
    · split
      · exact (acceptRtp_keeps ..).trans (bufferPacket_keeps ..)
      · exact ((acceptRtp_keeps ..).trans (withRtp_keeps ..)).trans (telephoneEvent_keeps ..)
    · refine .ite ?_ ?_
      · split
        · refine .ite ?_ ?_
          · split
            · exact (((restartStream_keeps ..).trans (flowEvent_keeps ..)).trans (acceptRtp_keeps ..)).trans
                (bufferPacket_keeps ..)
            · exact ((((restartStream_keeps ..).trans (flowEvent_keeps ..)).trans (acceptRtp_keeps ..)).trans
                (withRtp_keeps ..)).trans (telephoneEvent_keeps ..)
          · exact (dropCandidate_keeps ..).trans (withRtp_keeps ..)
        · exact ⟨rfl, rfl⟩
      · refine .ite ?_ ?_
        · exact ((dropCandidate_keeps ..).trans (withRtp_keeps ..)).trans (bump_keeps ..)
        · split
          · exact ((dropCandidate_keeps ..).trans (acceptRtp_keeps ..)).trans (bufferPacket_keeps ..)
          · exact (((dropCandidate_keeps ..).trans (acceptRtp_keeps ..)).trans (withRtp_keeps ..)).trans
              (telephoneEvent_keeps ..)

theorem ssrcCheck_keeps (c : Nat) (x : Rtp) (ssrc : BitVec 32) (seq : BitVec 16) (s : State) :
    Keeps s (ssrcCheck c x ssrc seq s).2 := by
  unfold ssrcCheck
  dsimp only
  refine .ite_snd ?_ ?_
  · exact .ite_snd ⟨rfl, rfl⟩ (bump_keeps ..)
  · split
    · exact ⟨rfl, rfl⟩
    · exact .ite_snd ⟨rfl, rfl⟩ (.ite_snd (bump_keeps ..) (.ite_snd ((((dropCandidate_keeps ..).trans
        (restartStream_keeps ..)).trans (withRtp_keeps ..)).trans (flowEvent_keeps ..)) ((bump_keeps ..).after ⟨rfl,
        rfl⟩)))

theorem plainRtp_keeps (c n : Nat) (ch : Chan) (d : Bytes) (s : State) : Keeps s (plainRtp c n ch d s) := by
  unfold plainRtp
  dsimp only
  split
  · refine .ite ?_ ?_
    · exact bump_keeps ..
    · refine .ite ?_ ?_
      · exact ssrcCheck_keeps ..
      · split
        · exact (ssrcCheck_keeps ..).trans (bump_keeps ..)
        · exact (ssrcCheck_keeps ..).trans (sequenceRtp_keeps ..)
  · exact bump_keeps ..
  · exact .refl _

theorem rtpReceive_keeps (c : Nat) (src : Bytes) (sport : Nat) (d : Bytes) (s : State) :
    Keeps s (rtpReceive c src sport d s) := by
  unfold rtpReceive
  dsimp only
  split
  · exact .refl _
  · refine .ite ?_ ?_
    · exact bump_keeps ..
    · split
      · exact bump_keeps ..
      · refine .ite ?_ ?_
        · exact plainRtp_keeps ..
        · split
          · exact bump_keeps ..
          · exact (plainRtp_keeps ..).after ((keyAge_keeps ..).after (.ite ((flowEvent_keeps ..).after ⟨rfl, rfl⟩)
              ⟨rfl, rfl⟩))

theorem execRtpRxPacket_goesOn (context : Nat) (src : Bytes) (srcPort : Nat) (udp : Bytes) (t : Ns) (s : State) :
    GoesOn s (execRtpRxPacket context src srcPort udp t s) :=
  ⟨_, rfl, .onlyIf ((rtpReceive_keeps ..).after ⟨rfl, rfl⟩) ⟨rfl, rfl⟩⟩

theorem execRxTimeoutExpiry_goesOn (context : Nat) (t : Ns) (s : State) : GoesOn s (execRxTimeoutExpiry context t s) :=
  ⟨_, rfl, .onlyIf ((rtpCrossed_keeps ..).after ⟨rfl, rfl⟩) ⟨rfl, rfl⟩⟩

theorem driftStep_keeps (c : Nat) (t : Ns) (s : State) : Keeps s (driftStep c t s) := by
  unfold driftStep
  dsimp only
  split
  · exact .refl _
  · split
    · exact ⟨rfl, rfl⟩
    · exact .ite ((rtpCrossed_keeps ..).after ⟨rfl, rfl⟩) ((noticeLive_keeps ..).after ⟨rfl, rfl⟩)

theorem execDriftEstimate_goesOn (context channel : Nat) (t : Ns) (s : State) :
    GoesOn s (execDriftEstimate context channel t s) :=
  ⟨_, rfl, .onlyIf ((driftStep_keeps ..).after ⟨rfl, rfl⟩) ⟨rfl, rfl⟩⟩

theorem setupRtp_keeps (ring : Nat) (b : Bytes) (s : State) : Keeps s (setupRtp ring b s) :=
  (rtcpSchedule_keeps ..).after ⟨rfl, rfl⟩

theorem execRtpSetup_goesOn (h : CmdHdr) (s : State) : GoesOn s (execRtpSetup h s) :=
  ⟨_, rfl, runCmd_keeps _ _ _ fun _ => checked_keeps _ (setupRtp_keeps ..)⟩

theorem modifyRtp_keeps (b : Bytes) (s : State) : Keeps s (modifyRtp b s) := by
  unfold modifyRtp
  dsimp only
  split
  · exact .refl _
  · exact (withRtp_keeps ..).after (.ite (rtcpSend_keeps ..) (.refl _))

theorem execRtpModify_goesOn (h : CmdHdr) (s : State) : GoesOn s (execRtpModify h s) :=
  ⟨_, rfl, runCmd_keeps _ _ _ fun _ => checked_keeps _ (modifyRtp_keeps ..)⟩

theorem execRtpRelease_goesOn (h : CmdHdr) (context : Nat) (s : State) : GoesOn s (execRtpRelease h context s) :=
  ⟨_, rfl, runCmd_keeps _ _ _ fun _ => checked_keeps _ ⟨rfl, rfl⟩⟩

theorem execSrtpKey_goesOn (h : CmdHdr) (s : State) : GoesOn s (execSrtpKey h s) :=
  ⟨_, rfl, runCmd_keeps _ _ _ fun _ => checked_keeps _ ⟨rfl, rfl⟩⟩

/-! ### Playout -/

theorem openWindow_keeps (c k : Nat) (snap : Decoder) (s : State) : Keeps s (openWindow c k snap s) := by
  unfold openWindow
  dsimp only
  split
  · exact .refl _
  · split
    · exact .ite ⟨rfl, rfl⟩ (.refl _)
    · exact .refl _

theorem judgeWindows_keeps (c n k : Nat) (s : State) : Keeps s (judgeWindows c n k s) := by
  unfold judgeWindows
  dsimp only
  split
  · exact .refl _
  · exact (withRtp_keeps ..).after ((bumpN_keeps ..).after ((bumpN_keeps ..).after (.ite (((bump_keeps ..).trans
      (bump_keeps ..)).trans (withOps_keeps ..)) (.refl _))))

theorem rebuildDone_keeps (c : Nat) (s : State) : Keeps s (rebuildDone c s) := by
  unfold rebuildDone
  dsimp only
  split
  · split
    · exact .refl _
    · exact ⟨rfl, rfl⟩
  · exact .refl _

theorem confirmRebuilds_keeps (c n : Nat) (s : State) : Keeps s (confirmRebuilds c n s) := by
  unfold confirmRebuilds
  dsimp only
  split
  · exact .refl _
  · exact .ite ((bumpN_keeps ..).after ⟨rfl, rfl⟩) ⟨rfl, rfl⟩

theorem lastFrame_keeps (n : Nat) (g : VFrame → VFrame) (s : State) : Keeps s (lastFrame n g s) :=
  ⟨rfl, rfl⟩

theorem playPiece_keeps (n : Nat) (it : Playout) (s : State) : Keeps s (playPiece n it s).2 := by
  unfold playPiece
  dsimp only
  split
  · exact .refl _
  · split
    · exact .refl _
    · exact ⟨rfl, rfl⟩

theorem decideFrame_keeps (c n k : Nat) (t : Ns) (s : State) : Keeps s (decideFrame c n k t s).2 := by
  unfold decideFrame
  dsimp only
  split
  · split
    · exact .refl _
    · refine (playPiece_keeps ..).after ?_
      refine (withRtp_keeps ..).after ?_
      split
      · exact ⟨rfl, rfl⟩
      · exact bump_keeps ..
      · exact (bump_keeps ..).trans (openWindow_keeps ..)
      · exact .refl _
  · exact .refl _

theorem shrinkFrame_keeps (c n k : Nat) (t : Ns) (got : List Int) (s : State) :
    Keeps s (shrinkFrame c n k t got s).2 := by
  unfold shrinkFrame
  dsimp only
  split
  · exact .ite_snd ((decideFrame_keeps ..).after ((bump_keeps ..).after ⟨rfl, rfl⟩)) (.refl _)
  · exact .refl _

theorem playCodec_keeps (c n k need : Nat) (t : Ns) (s : State) : Keeps s (playCodec c n k need t s).2 := by
  unfold playCodec
  dsimp only
  split
  · exact .refl _
  · exact .ite_snd ⟨rfl, rfl⟩ (.ite_snd (.ite_snd ((playPiece_keeps ..).after ((bump_keeps ..).after ⟨rfl, rfl⟩))
      ((decideFrame_keeps ..).trans (shrinkFrame_keeps ..))) ((decideFrame_keeps ..).after ((withRtp_keeps ..).after
      (.ite_snd ((playPiece_keeps ..).after ((bump_keeps ..).after ⟨rfl, rfl⟩)) ((decideFrame_keeps ..).trans
      (shrinkFrame_keeps ..))))))

theorem pttPiece_keeps (n k : Nat) (s : State) : Keeps s (pttPiece n k s).2 := by
  unfold pttPiece
  dsimp only
  split
  · exact .refl _
  · split
    · exact playPiece_keeps ..
    · split
      · exact (playPiece_keeps ..).after ⟨rfl, rfl⟩
      · exact .ite_snd ((playPiece_keeps ..).after ((bump_keeps ..).after ⟨rfl, rfl⟩)) ((playPiece_keeps ..).after
          ⟨rfl, rfl⟩)

theorem decidePlay_keeps (n : Nat) (s : State) : Keeps s (decidePlay n s) := by
  unfold decidePlay
  dsimp only
  split
  · exact .refl _
  · split
    · exact .refl _
    · refine .ite ?_ ?_
      · exact .refl _
      · refine (lastFrame_keeps ..).after ?_
        refine (withChan_keeps ..).after ?_
        refine .ite_snd ?_ ?_
        · split
          · exact (playCodec_keeps ..).after ((judgeWindows_keeps ..).after ⟨rfl, rfl⟩)
          · exact (playPiece_keeps ..).after ⟨rfl, rfl⟩
        · exact (pttPiece_keeps ..).after ⟨rfl, rfl⟩

/-! ### Voice frames -/

theorem toneEvent_keeps (code n : Nat) (r : ToneRun) (truncated : Bool) (duration : Nat) (s : State) :
    Keeps s (toneEvent code n r truncated duration s) := by
  unfold toneEvent
  split
  · exact .refl _
  · exact raise_keeps ..

theorem chanEvent_keeps (code n : Nat) (s : State) : Keeps s (chanEvent code n s) := by
  unfold chanEvent
  split
  · exact .refl _
  · exact raise_keeps ..

theorem setRun_keeps (n : Nat) (old new : ToneRun) (s : State) : Keeps s (setRun n old new s) :=
  ⟨rfl, rfl⟩

theorem addRun_keeps (n : Nat) (r : ToneRun) (s : State) : Keeps s (addRun n r s) :=
  ⟨rfl, rfl⟩

theorem endRun_keeps (n : Nat) (r : ToneRun) (truncated : Bool) (s : State) : Keeps s (endRun n r truncated s) :=
  .ite (.ite ((bump_keeps ..).after ⟨rfl, rfl⟩) ⟨rfl, rfl⟩) (.ite ((toneEvent_keeps ..).after (.ite ⟨rfl, rfl⟩ ⟨rfl,
    rfl⟩)) (.ite ⟨rfl, rfl⟩ ⟨rfl, rfl⟩))

theorem qualify_keeps (n k : Nat) (p : ChanParams) (r : ToneRun) (s : State) : Keeps s (qualify n k p r s) := by
  unfold qualify
  dsimp only
  split
  · exact .ite ((toneEvent_keeps ..).after ⟨rfl, rfl⟩) ⟨rfl, rfl⟩
  · exact .ite ((withChan_keeps ..).after (.ite ((toneEvent_keeps ..).after ⟨rfl, rfl⟩) ⟨rfl, rfl⟩)) (.ite
      ((withChan_keeps ..).after (.ite ((toneEvent_keeps ..).after ⟨rfl, rfl⟩) ⟨rfl, rfl⟩)) (.ite ((toneEvent_keeps
      ..).after ⟨rfl, rfl⟩) ⟨rfl, rfl⟩))

theorem stepRun_keeps (n k : Nat) (p : ChanParams) (lim : ToneLimits) (b : BlockObs) (hit : Option ToneRun)
    (r : ToneRun) (s : State) :
    Keeps s (stepRun n k p lim b hit r s) := by
  unfold stepRun
  dsimp only
  split
  · exact .ite ⟨rfl, rfl⟩ (.ite ((qualify_keeps ..).after ⟨rfl, rfl⟩) ⟨rfl, rfl⟩)
  · exact .ite (endRun_keeps ..) ⟨rfl, rfl⟩

theorem toneBlock_keeps (n k : Nat) (p : ChanParams) (lo hi : Nat) (recv : Bool) (lim : ToneLimits) (b : BlockObs)
    (hit : Option ToneRun) (s : State) :
    Keeps s (toneBlock n k p lo hi recv lim b hit s) := by
  unfold toneBlock
  dsimp only
  split
  · exact .refl _
  · split
    · exact .ite ((qualify_keeps ..).after (.fold fun _ _ => stepRun_keeps ..)) ((addRun_keeps ..).after (.fold fun _ _
        => stepRun_keeps ..))
    · exact .fold fun _ _ => stepRun_keeps ..

theorem reversed_keeps (n : Nat) (p : ChanParams) (s : State) : Keeps s (reversed n p s) := by
  unfold reversed
  dsimp only
  split
  · exact .refl _
  · exact .ite ((chanEvent_keeps ..).after ((withChan_keeps ..).after (.ite ((chanEvent_keeps ..).after ((bump_keeps
      ..).after ⟨rfl, rfl⟩)) ⟨rfl, rfl⟩))) (.ite ((chanEvent_keeps ..).after ((bump_keeps ..).after ⟨rfl, rfl⟩)) ⟨rfl,
      rfl⟩)

theorem ansBlock_keeps (n k : Nat) (p : ChanParams) (recv : Bool) (start : Ns) (b : BlockObs) (s : State) :
    Keeps s (ansBlock n k p recv start b s) := by
  unfold ansBlock
  dsimp only
  split
  · exact toneBlock_keeps ..
  · split
    · exact .ite (((toneBlock_keeps ..).trans (qualify_keeps ..)).trans (reversed_keeps ..)) (toneBlock_keeps ..)
    · exact (toneBlock_keeps ..).trans (endRun_keeps ..)
    · exact (toneBlock_keeps ..).trans (setRun_keeps ..)
    · exact toneBlock_keeps ..

theorem v21Block_keeps (n k : Nat) (p : ChanParams) (recv : Bool) (start : Ns) (b : BlockObs) (s : State) :
    Keeps s (v21Block n k p recv start b s) := by
  unfold v21Block
  dsimp only
  split
  · exact .refl _
  · split
    · exact .ite ((qualify_keeps ..).after ⟨rfl, rfl⟩) ⟨rfl, rfl⟩
    · exact .ite ((endRun_keeps ..).after ⟨rfl, rfl⟩) ⟨rfl, rfl⟩

theorem detectBlock_keeps (n k i : Nat) (p : ChanParams) (recv : Bool) (b : BlockObs) (s : State) :
    Keeps s (detectBlock n k i p recv b s) :=
  .ite ((v21Block_keeps ..).after (.ite ((toneBlock_keeps ..).after ((ansBlock_keeps ..).after (.ite (.refl _)
    (toneBlock_keeps ..)))) ((ansBlock_keeps ..).after (.ite (.refl _) (toneBlock_keeps ..))))) (.ite ((toneBlock_keeps
    ..).after ((ansBlock_keeps ..).after (.ite (.refl _) (toneBlock_keeps ..)))) ((ansBlock_keeps ..).after (.ite
    (.refl _) (toneBlock_keeps ..))))

theorem switchOff_keeps (n : Nat) (p : ChanParams) (s : State) : Keeps s (switchOff n p s) := by
  unfold switchOff
  split
  · exact .refl _
  · exact .fold fun _ _ => .ite (.ite ((toneEvent_keeps ..).trans (setRun_keeps ..)) (.refl _)) (.ite (endRun_keeps ..)
      ⟨rfl, rfl⟩)

theorem eventPacket_keeps (p : ChanParams) (e : Relay) (marker ended : Bool) (duration : Nat) (s : State) :
    Keeps s (eventPacket p e marker ended duration s) :=
  rtpSend_keeps ..

theorem relayStep_keeps (p : ChanParams) (toEnd : Nat) (e : Relay) (s : State) : Keeps s (relayStep p toEnd e s).2 :=
  .ite_snd ((eventPacket_keeps ..).after (.ite (.ite_snd (eventPacket_keeps ..) (.refl _)) ((eventPacket_keeps
    ..).after (.ite_snd (eventPacket_keeps ..) (.refl _))))) (.ite_snd ((eventPacket_keeps ..).after (.ite_snd
    (eventPacket_keeps ..) (.refl _))) (.ite_snd ((eventPacket_keeps ..).after (.ite_snd (eventPacket_keeps ..) (.refl
    _))) (.ite_snd (eventPacket_keeps ..) (.refl _))))

theorem relayPackets_keeps (n : Nat) (p : ChanParams) (s : State) : Keeps s (relayPackets n p s) := by
  unfold relayPackets
  split
  · exact .refl _
  next ch _ =>
    exact .ite ⟨rfl, rfl⟩ ((Keeps.foldl_snd (β := List Relay) (fun _ _ => relayStep_keeps ..) ch.relay ([], s)).trans
      (withChan_keeps ..))

theorem applyParams_keeps (n : Nat) (q : ChanParams) (s : State) : Keeps s (applyParams n q s) := by
  unfold applyParams
  dsimp only
  split
  · exact .refl _
  · exact (withFlow_keeps ..).after (.ite ((closeWindows_keeps ..).after ⟨rfl, rfl⟩) ⟨rfl, rfl⟩)

theorem applyVbd_keeps (n : Nat) (s : State) : Keeps s (applyVbd n s) := by
  unfold applyVbd
  dsimp only
  split
  · exact .refl _
  · exact .ite (.refl _) (.ite ((closeWindows_keeps ..).after ⟨rfl, rfl⟩) ⟨rfl, rfl⟩)

theorem beginFrame_keeps (n k : Nat) (decided : Bool) (s : State) : Keeps s (beginFrame n k decided s) := by
  unfold beginFrame
  dsimp only
  split
  · exact .refl _
  · exact ⟨rfl, rfl⟩

theorem passFrames_keeps (n k : Nat) (s : State) : Keeps s (passFrames n k s) := by
  unfold passFrames
  split
  · exact .fold fun _ _ => beginFrame_keeps ..
  · exact .refl _

theorem decodeStart_keeps (n k : Nat) (s : State) : Keeps s (decodeStart n k s) := by
  unfold decodeStart
  dsimp only
  refine .ite ?_ ?_
  · refine (decidePlay_keeps ..).after ?_
    refine (beginFrame_keeps ..).after ?_
    refine (applyVbd_keeps ..).after ?_
    split
    · exact (passFrames_keeps ..).trans (applyParams_keeps ..)
    · exact passFrames_keeps ..
  · refine (beginFrame_keeps ..).after ?_
    refine (applyVbd_keeps ..).after ?_
    split
    · exact (passFrames_keeps ..).trans (applyParams_keeps ..)
    · exact passFrames_keeps ..

theorem onFrame_keeps (n k : Nat) (g : Chan → VFrame → Chan × VFrame) (s : State) : Keeps s (onFrame n k g s) :=
  ⟨rfl, rfl⟩

theorem settleDecode_keeps (n k : Nat) (s : State) : Keeps s (settleDecode n k s) := by
  unfold settleDecode
  split
  · exact .ite ⟨rfl, rfl⟩ (.refl _)
  · exact .refl _

theorem decideNow_keeps (n : Nat) (s : State) : Keeps s (decideNow n s) := by
  unfold decideNow
  split
  · exact .ite (.refl _) ((settleDecode_keeps ..).trans (decidePlay_keeps ..))
  · exact .refl _

theorem detectStep_keeps (n k : Nat) (p : ChanParams) (o : VoiceObs) (s : State) (i : Nat) :
    Keeps s (detectStep n k p o s i) := by
  unfold detectStep
  dsimp only
  split
  · refine (detectBlock_keeps ..).after ?_
    split
    · exact (detectBlock_keeps ..).after ⟨rfl, rfl⟩
    · exact ⟨rfl, rfl⟩
  · split
    · exact (detectBlock_keeps ..).after ⟨rfl, rfl⟩
    · exact ⟨rfl, rfl⟩

theorem lineOut_keeps (n : Nat) (x : List Int) (s : State) : Keeps s (lineOut n x s) := by
  unfold lineOut
  dsimp only
  split
  · exact .refl _
  · exact .fold fun _ _ => ⟨rfl, rfl⟩

theorem receiveStep_keeps (n k : Nat) (s : State) : Keeps s (receiveStep n k s) := by
  unfold receiveStep
  dsimp only
  split
  · exact .refl _
  · refine .ite ?_ ?_
    · exact .refl _
    · split
      · exact (lineOut_keeps ..).after ⟨rfl, rfl⟩
      · exact ⟨rfl, rfl⟩

theorem detectDone_keeps (n k : Nat) (s : State) : Keeps s (detectDone n k s) := by
  unfold detectDone
  dsimp only
  split
  · split
    · exact ⟨rfl, rfl⟩
    · exact .ite ((receiveStep_keeps ..).after ((relayPackets_keeps ..).after ((onFrame_keeps ..).after (Keeps.after
        (.fold fun _ _ => detectStep_keeps ..) ((switchOff_keeps ..).after ⟨rfl, rfl⟩))))) ((relayPackets_keeps
        ..).after ((onFrame_keeps ..).after (Keeps.after (.fold fun _ _ => detectStep_keeps ..) ((switchOff_keeps
        ..).after ⟨rfl, rfl⟩))))
  · exact ⟨rfl, rfl⟩

theorem recordStep_keeps (n k : Nat) (f : VFrame) (sendFlags recvFlags : Nat) (send recv : List Int) (s : State) :
    Keeps s (recordStep n k f sendFlags recvFlags send recv s) := by
  unfold recordStep
  dsimp only
  split
  · exact .refl _
  · exact .ite (recordFrame_keeps ..) (.ite (.refl _) (closeSegment_keeps ..))

theorem levelDone_keeps (n k : Nat) (s : State) : Keeps s (levelDone n k s) := by
  unfold levelDone
  dsimp only
  split
  · split
    · exact (receiveStep_keeps ..).after ((onFrame_keeps ..).after (.ite ⟨rfl, rfl⟩ (.refl _)))
    · exact (recordStep_keeps ..).after ((receiveStep_keeps ..).after ((onFrame_keeps ..).after (.ite ⟨rfl, rfl⟩ (.refl
        _))))
  · exact .ite ⟨rfl, rfl⟩ (.refl _)

theorem sendPeriods_keeps (n : Nat) (f : VFrame) (x : Rtp) (fuel : Nat) (l : List Bytes) (s : State) :
    Keeps s (sendPeriods n f x fuel l s) := by
  induction fuel generalizing l s with
  | zero => exact .refl s
  | succ k ih =>
    cases found : FMap.get? s.chans n with
    | none =>
      unfold sendPeriods
      simp only [found, Keeps.refl]
    | some c =>
      unfold sendPeriods
      simp only [found]
      exact .ite (withChan_keeps ..) (((rtpSend_keeps ..).trans (withChan_keeps ..)).trans (ih _ _))

theorem flushAudio_keeps (f : VFrame) (x : Rtp) (mark : Bool) (l : List Bytes) (back : Nat) (s : State) :
    Keeps s (flushAudio f x mark l back s) :=
  .ite (.refl _) (.ite (.refl _) (rtpSend_keeps ..))

theorem beginSilence_keeps (n : Nat) (c : Chan) (f : VFrame) (x : Rtp) (s : State) : Keeps s (beginSilence n c f x s) :=
  .ite (.refl _) ((flushAudio_keeps ..).trans (withChan_keeps ..))

theorem noiseFrame_keeps (n : Nat) (c : Chan) (f : VFrame) (x : Rtp) (starts : Bool) (s : State) :
    Keeps s (noiseFrame n c f x starts s) :=
  .ite ((rtpSend_keeps ..).trans (withChan_keeps ..)) (.refl _)

theorem opusSilence_keeps (n : Nat) (c : Chan) (f : VFrame) (x : Rtp) (s : State) : Keeps s (opusSilence n c f x s) :=
  .ite ((rtpSend_keeps ..).trans (withChan_keeps ..)) ⟨rfl, rfl⟩

theorem packRtp_keeps (n : Nat) (c : Chan) (f : VFrame) (s : State) : Keeps s (packRtp n c f s) := by
  unfold packRtp
  dsimp only
  split
  · exact .refl _
  · refine .ite ?_ ?_
    · exact (beginSilence_keeps ..).trans (noiseFrame_keeps ..)
    · refine .ite ?_ ?_
      · split
        · exact (beginSilence_keeps ..).trans (opusSilence_keeps ..)
        · exact .refl _
      · exact .ite (beginSilence_keeps ..) (.ite ((flushAudio_keeps ..).trans (withChan_keeps ..)) (sendPeriods_keeps
          ..))

theorem packPtt_keeps (n k : Nat) (c : Chan) (f : VFrame) (s : State) : Keeps s (packPtt n k c f s) :=
  .ite ⟨rfl, rfl⟩ (.ite ⟨rfl, rfl⟩ ((pttSend_keeps ..).after ⟨rfl, rfl⟩))

theorem stepClocks_keeps (f : VFrame) (s : State) : Keeps s (stepClocks f s) :=
  .ite ⟨rfl, rfl⟩ (.refl _)

theorem packDone_keeps (n k : Nat) (good : Bool) (s : State) : Keeps s (packDone n k good s) := by
  unfold packDone
  split
  · exact (stepClocks_keeps ..).after (.ite ⟨rfl, rfl⟩ (.ite (packRtp_keeps ..) (packPtt_keeps ..)))
  · exact .refl _

theorem missDone_keeps (n k : Nat) (ran levelVoid packVoid : Bool) (s : State) :
    Keeps s (missDone n k ran levelVoid packVoid s) := by
  unfold missDone
  dsimp only
  split
  · exact .ite (.ite (bump_keeps ..) (.refl _)) (.ite ((recordStep_keeps ..).after (.ite (bump_keeps ..) (.refl _)))
      (.ite ((recordStep_keeps ..).after ((lineOut_keeps ..).after ((bump_keeps ..).after (.ite (bump_keeps ..) (.refl
      _))))) ((recordStep_keeps ..).after (.ite (bump_keeps ..) (.refl _)))))
  · exact .refl _

theorem frameEvents_keeps (n k : Nat) (s : State) : Keeps s (frameEvents n k s) := by
  unfold frameEvents
  split
  · exact Keeps.after (.fold fun _ _ => raise_keeps ..) ⟨rfl, rfl⟩
  · exact .refl _

theorem frameOver_keeps (n k : Nat) (s : State) : Keeps s (frameOver n k s) :=
  (settleDecode_keeps ..).trans (withChan_keeps ..)

theorem holdFreed_keeps (cpl : Nat) (b s : State) : Keeps s (holdFreed cpl b s) := .ite ⟨rfl, rfl⟩ (.refl s)

theorem closeChannel_keeps (n : Nat) (s : State) : Keeps s (closeChannel n s) := by
  unfold closeChannel
  dsimp only
  split
  · exact .refl _
  · refine (finishFlushes_keeps ..).after ?_
    split
    · exact (holdFreed_keeps ..).after ((completeHeld_keeps ..).after ((dropMisses_keeps ..).after ((dropCounters_keeps
        ..).after ((Keeps.update).after ((closeSegment_keeps ..).after (.ite ((restartStream_keeps ..).after
        ((dropCandidate_keeps ..).after ((rtcpSend_keeps ..).after (Keeps.after (.fold fun _ _ => endRun_keeps ..)
        (.fold fun _ _ => raise_keeps ..))))) (Keeps.after (.fold fun _ _ => endRun_keeps ..) (.fold fun _ _ =>
        raise_keeps ..))))))))
    · exact (dropMisses_keeps ..).after ((dropCounters_keeps ..).after ((Keeps.update).after ((closeSegment_keeps
        ..).after (.ite ((restartStream_keeps ..).after ((dropCandidate_keeps ..).after ((rtcpSend_keeps ..).after
        (Keeps.after (.fold fun _ _ => endRun_keeps ..) (.fold fun _ _ => raise_keeps ..))))) (Keeps.after (.fold fun _
        _ => endRun_keeps ..) (.fold fun _ _ => raise_keeps ..))))))

/-! ### Rounds -/

theorem freeStaged_keeps (f i d : Nat) (s : State) : Keeps s (freeStaged f i d s) :=
  Keeps.after (.fold fun _ _ => ⟨rfl, rfl⟩) ⟨rfl, rfl⟩

theorem untether_keeps (f i d : Nat) (s : State) : Keeps s (untether f i d s) :=
  Keeps.after (.fold fun _ _ => ⟨rfl, rfl⟩) ⟨rfl, rfl⟩

theorem linkStaged_keeps (f i d : Nat) (s : State) : Keeps s (linkStaged f i d s) :=
  Keeps.after (.fold fun _ _ => linkItem_keeps ..) ⟨rfl, rfl⟩

theorem missInstance_keeps (f i : Nat) (s : State) : Keeps s (missInstance f i s) := by
  unfold missInstance
  split
  · exact .refl _
  · exact .ite (.refl _) ((bumpN_keeps ..).after ((bump_keeps ..).after ⟨rfl, rfl⟩))

theorem applyFault_keeps (f i d n : Nat) (k : FaultKind) (pc : Nat) (s : State) :
    Keeps s (applyFault f i d n k pc s) := by
  unfold applyFault
  dsimp only
  split
  · exact .ite ((noteFault_keeps ..).trans (withOp_keeps ..)) (((noteFault_keeps ..).trans (withOp_keeps ..)).trans
      (missInstance_keeps ..))
  · exact .refl _

theorem confirmRoot_keeps (f : Nat) (r : Root) (s : State) : Keeps s (confirmRoot f r s) := by
  unfold confirmRoot
  dsimp only
  split
  · exact .refl _
  · exact Keeps.after (.fold fun _ _ => by
        split
        · exact (untether_keeps ..).trans (applyFault_keeps ..)
        · exact untether_keeps ..) (Keeps.after (.fold fun _ _ => ⟨rfl, rfl⟩) ⟨rfl, rfl⟩)

theorem refuteRoot_keeps (f : Nat) (r : Root) (back : Bool) (s : State) : Keeps s (refuteRoot f r back s) := by
  unfold refuteRoot
  dsimp only
  split
  · exact .refl _
  · exact .ite (.refl _) ((withOps_keeps ..).after ((withFlow_keeps ..).after (Keeps.after (.fold fun _ _ =>
      freeStaged_keeps ..) ((bump_keeps ..).trans (bump_keeps ..)))))

theorem judgeEvent_keeps (s : State) (e : Presented) : Keeps s (judgeEvent s e) := by
  unfold judgeEvent
  split
  · exact confirmRoot_keeps ..
  · exact refuteRoot_keeps ..
  · exact .refl _

/-- Where an optional state is there, it keeps the queue and the identity. -/
def KeepsSome (s : State) (o : Option State) : Prop := ∀ t, o = some t → Keeps s t

theorem KeepsSome.none (s : State) : KeepsSome s none := fun _ h => nomatch h

theorem KeepsSome.some {s t : State} (h : Keeps s t) : KeepsSome s (some t) := fun _ e => Option.some.inj e ▸ h

theorem KeepsSome.ite {s : State} {x y : Option State} {c : Prop} [Decidable c] (h : KeepsSome s x)
    (k : KeepsSome s y) :
    KeepsSome s (if c then x else y) := by
  split <;> assumption

theorem stageOutput_keeps (f i d : Nat) (out : Bytes) (tether : Bool) (s : State) :
    KeepsSome s (stageOutput f i d out tether s) := by
  have same : KeepsSome s (Option.some s) := .some (.refl s)
  unfold stageOutput
  split
  · exact same
  refine .ite ?_ (.ite (.ite (.none s) same) (.ite same ?_))
  · split
    · exact .ite (.none s) same
    · exact same
  · split
    · exact same
    refine .ite (.none s) ?_
    split
    · exact .none s
    · exact .some ((allocCells_keeps ..).trans (withQmg_keeps ..))

theorem writeBack_keeps (f d : Nat) (lines : List (BitVec 72)) (roots : List Root) (s : State) :
    Keeps s (writeBack f d lines roots s) :=
  .ite (.refl _) ⟨rfl, rfl⟩

theorem finishOp_keeps (f i d : Nat) (res : OpRes) (s : State) : Keeps s (finishOp f i d res s) := by
  unfold finishOp
  split
  · refine .ite ((freeStaged_keeps ..).trans (withOp_keeps ..)) ?_
    split
    · exact (bumpN_keeps ..).trans (withOp_keeps ..)
    next staged =>
      exact (stageOutput_keeps _ _ _ _ _ _ _ staged).trans ((writeBack_keeps ..).after (withOp_keeps ..))
  · exact .refl _

theorem completeEvent_keeps (s : State) (e : Presented) : Keeps s (completeEvent s e) := by
  unfold completeEvent
  dsimp only
  split
  · split
    · exact .refl _
    · refine .ite ?_ ?_
      · exact .refl _
      · refine .ite ?_ ?_
        · exact ⟨rfl, rfl⟩
        · split
          · exact finishOp_keeps ..
          · exact .ite ((freeStaged_keeps ..).trans (applyFault_keeps ..)) ⟨rfl, rfl⟩
  · exact .refl _

theorem retryOutputs_keeps (s : State) : Keeps s (retryOutputs s) :=
  .fold fun _ _ => by
      split
      · exact finishOp_keeps ..
      · exact .refl _

theorem dropInput_keeps (f i d : Nat) (s : State) : Keeps s (dropInput f i d s) := by
  unfold dropInput
  dsimp only
  split
  · refine .ite ?_ ?_
    · exact .refl _
    · refine .ite ?_ ?_
      · exact .ite (.refl _) (bump_keeps ..)
      · split
        · exact dropItem_keeps ..
        · exact ⟨rfl, rfl⟩
  · exact .refl _

theorem voiceRelease_keeps (n i d : Nat) (o : Op) (s : State) : Keeps s (voiceRelease n i d o s) := by
  unfold voiceRelease
  dsimp only
  split
  · exact (frameEvents_keeps ..).after (.ite (decideNow_keeps ..) (passFrames_keeps ..))
  · exact .ite ⟨rfl, rfl⟩ (.refl _)
  · exact .ite (detectDone_keeps ..) (.refl _)
  · exact .ite (levelDone_keeps ..) (.refl _)
  · exact .ite ⟨rfl, rfl⟩ (.refl _)
  · exact .ite (.refl _) (packDone_keeps ..)
  · exact (frameOver_keeps ..).after (.ite (.refl _) (missDone_keeps ..))

theorem rebuildEnd_keeps (n : Nat) (good : Bool) (s : State) : Keeps s (rebuildEnd n good s) := by
  unfold rebuildEnd
  split
  · exact .ite (rebuildDone_keeps ..) (.refl _)
  · exact .refl _

theorem endInstance_keeps (f i : Nat) (s : State) : Keeps s (endInstance f i s) := by
  unfold endInstance
  dsimp only
  split
  · exact .refl _
  · exact .ite ((withFlow_keeps ..).after (.ite (raise_keeps ..) (.refl _))) (.refl _)

theorem releaseOp_keeps (f i d : Nat) (o : Op) (s : State) : Keeps s (releaseOp f i d o s) := by
  unfold releaseOp
  dsimp only
  refine (endInstance_keeps ..).after ?_
  refine .ite ?_ ?_
  · exact (voiceRelease_keeps ..).after ((withOp_keeps ..).after (.ite (linkStaged_keeps ..) ((freeStaged_keeps
      ..).trans (dropInput_keeps ..))))
  · split
    · exact (buildEnd_keeps ..).after ((withOp_keeps ..).after (.ite (linkStaged_keeps ..) ((freeStaged_keeps ..).trans
        (dropInput_keeps ..))))
    · exact .ite ((rebuildEnd_keeps ..).after ((withOp_keeps ..).after (.ite (linkStaged_keeps ..) ((freeStaged_keeps
        ..).trans (dropInput_keeps ..))))) ((withOp_keeps ..).after (.ite (linkStaged_keeps ..) ((freeStaged_keeps
        ..).trans (dropInput_keeps ..))))

theorem releaseHead_keeps (f fuel : Nat) (s : State) : Keeps s (releaseHead f fuel s) := by
  induction fuel generalizing s with
  | zero => exact .refl s
  | succ n ih =>
    rw [releaseHead]
    split
    · exact .refl s
    split
    · exact .refl s
    split
    · exact (releaseOp_keeps ..).trans (ih _)
    · exact .refl s

theorem finishFlow_keeps (f : Nat) (s : State) : Keeps s (finishFlow f s) := by
  unfold finishFlow
  dsimp only
  split
  · exact .refl _
  · split
    · exact .refl _
    · exact .ite (.refl _) (.ite ((closeChannel_keeps ..).after ⟨rfl, rfl⟩) ((completeHeld_keeps ..).after ⟨rfl, rfl⟩))

theorem releaseAll_keeps (s : State) : Keeps s (releaseAll s) :=
  .fold fun _ _ => (releaseHead_keeps ..).trans (finishFlow_keeps ..)

theorem cancelOp_keeps (f i d : Nat) (s : State) : Keeps s (cancelOp f i d s).2 := by
  unfold cancelOp
  dsimp only
  split
  · exact .ite_snd (.refl _) ((withOp_keeps ..).after (.ite ((withOp_keeps ..).after (.ite (((((bump_keeps ..).trans
      (bump_keeps ..)).trans (bump_keeps ..)).trans (freeStaged_keeps ..)).trans (withFlow_keeps ..)) (bump_keeps ..)))
      (.ite (((((bump_keeps ..).trans (bump_keeps ..)).trans (bump_keeps ..)).trans (freeStaged_keeps ..)).trans
      (withFlow_keeps ..)) (bump_keeps ..))))
  · exact .refl _

theorem cancelMask_keeps (f i : Nat) (mask : BitVec 12) (s : State) : Keeps s (cancelMask f i mask s).2 := by
  refine Keeps.foldl_snd (fun a d => ?_) (List.range 12) (false, s)
  split
  · exact cancelOp_keeps ..
  · exact .refl _

theorem cancelEvent_keeps (s : State) (e : Presented) : Keeps s (cancelEvent s e) := by
  unfold cancelEvent
  dsimp only
  split
  · exact (cancelMask_keeps ..).trans (completeHeld_keeps ..)
  · split
    · exact .refl _
    · exact Keeps.after (.fold fun _ _ => cancelMask_keeps ..) ⟨rfl, rfl⟩
  · exact .refl _

theorem dropOwed_keeps (f q fuel : Nat) (s : State) : Keeps s (dropOwed f q fuel s) := by
  induction fuel generalizing s with
  | zero => exact .refl s
  | succ n ih =>
    unfold dropOwed
    split
    · exact .ite (.refl s) (((dropItem_keeps ..).trans (withFlow_keeps ..)).trans (ih _))
    · exact .refl s

theorem arrivals_keeps (s : State) : Keeps s (arrivals s) :=
  Keeps.after (.fold fun _ _ => .fold fun _ _ => dropOwed_keeps ..) ⟨rfl, rfl⟩

theorem resolveNow_keeps (s : State) (fl : Flow) (x : Inst) (o : Op) : Keeps s (resolveNow s fl x o).2 := by
  unfold resolveNow
  dsimp only
  refine .ite_snd ?_ ?_
  · split
    · exact .refl _
    · exact .ite_snd (.refl _) (.ite_snd ⟨rfl, rfl⟩ (.ite_snd (.refl _) (.refl _)))
  · exact .ite_snd (.refl _) (.refl _)

theorem resolvePred_keeps (f i d : Nat) (v : Bool) (s : State) : Keeps s (resolvePred f i d v s) := by
  unfold resolvePred
  dsimp only
  split
  · exact .ite ⟨rfl, rfl⟩ ⟨rfl, rfl⟩
  · exact .refl _

theorem judgePred_keeps (f i d : Nat) (s : State) : Keeps s (judgePred f i d s) := by
  unfold judgePred
  split
  · exact .refl s
  next fl x o _ =>
    refine .ite (.refl s) ?_
    have resolved := resolveNow_keeps s fl x o
    split
    next v t e =>
      rw [e] at resolved
      exact resolved.trans (resolvePred_keeps ..)
    · exact .refl s

theorem readyStep_keeps (f i d : Nat) (s : State) : Keeps s (readyStep f i d s) := by
  unfold readyStep
  split
  · exact .refl _
  · refine .ite ?_ ?_
    · exact .refl _
    · refine .ite ?_ ?_
      · exact ⟨rfl, rfl⟩
      · refine .ite ?_ ?_
        · exact .refl _
        · split
          · exact ⟨rfl, rfl⟩
          · exact .ite (.refl _) (.ite ⟨rfl, rfl⟩ (.ite (.refl _) ((bump_keeps ..).trans (withOp_keeps ..))))
          · exact .ite ⟨rfl, rfl⟩ (.refl _)

theorem readyPass_keeps (f : Nat) (s : State) : Keeps s (readyPass f s) := by
  unfold readyPass
  split
  · exact .refl _
  · exact .fold fun _ _ => (judgePred_keeps ..).trans (readyStep_keeps ..)

theorem readiness_keeps (s : State) : Keeps s (readiness s) :=
  .fold fun _ _ => .fold fun _ _ => readyPass_keeps ..

theorem countStalls_keeps (s : State) : Keeps s (countStalls s) :=
  .fold fun _ _ => .ite (bump_keeps ..) (.refl _)

theorem rebuildRound_keeps (c n : Nat) (s : State) : Keeps s (rebuildRound c n s) := by
  unfold rebuildRound
  dsimp only
  split
  · refine .ite ?_ ?_
    · exact .refl _
    · split
      · exact ((addFlow_keeps ..).trans (issueInst_keeps ..)).trans (readyPass_keeps ..)
      · exact .refl _
  · exact .ite (.refl _) (.ite ((readyPass_keeps ..).after ⟨rfl, rfl⟩) ⟨rfl, rfl⟩)

theorem repairRound_keeps (c : Nat) (s : State) : Keeps s (repairRound c s) := by
  unfold repairRound
  split
  · exact .refl _
  · exact ((decideNow_keeps ..).trans (confirmRebuilds_keeps ..)).trans (rebuildRound_keeps ..)

theorem buildRound_keeps (n : Nat) (s : State) : Keeps s (buildRound n s) := by
  unfold buildRound
  dsimp only
  split
  · exact .ite (.refl _) ((readyPass_keeps ..).after ((issueInst_keeps ..).after ((addFlow_keeps ..).after ⟨rfl, rfl⟩)))
  · exact .ite (.refl _) (.ite ((readyPass_keeps ..).after ⟨rfl, rfl⟩) ⟨rfl, rfl⟩)

theorem buildRounds_keeps (s : State) : Keeps s (buildRounds s) :=
  .fold fun _ _ => buildRound_keeps ..

theorem round_keeps (s : State) : Keeps s (round s) := by
  have judged (l : List Presented) (t : State) : Keeps t (l.foldl judgeEvent t) := .fold fun _ _ => judgeEvent_keeps ..
  have done (l : List Presented) (t : State) : Keeps t (l.foldl completeEvent t) := .fold fun _ _ =>
    completeEvent_keeps ..
  have cancelled (l : List Presented) (t : State) : Keeps t (l.foldl cancelEvent t) := .fold fun _ _ =>
    cancelEvent_keeps ..
  have repaired (l : List Nat) (t : State) : Keeps t (l.foldl (fun t c => repairRound c t) t) :=
    .fold fun _ _ => repairRound_keeps ..
  unfold round
  refine (pressure_keeps _).after ((countStalls_keeps _).after ((buildRounds_keeps _).after ((repaired _ _).after ?_)))
  refine (readiness_keeps _).after ((arrivals_keeps _).after ((cancelled _ _).after ?_))
  refine (releaseAll_keeps _).after ((retryOutputs_keeps _).after ((done _ _).after ((judged _ _).after ?_)))
  exact withFsc_keeps ..

theorem roundIf_keeps (s : State) : Keeps s (roundIf s) :=
  .ite (round_keeps ..) (.refl _)

theorem settleNow_keeps (s : State) : Keeps s (settleNow s) :=
  (releaseAll_keeps ..).after (Keeps.after (.fold fun _ _ => judgeEvent_keeps ..) ⟨rfl, rfl⟩)

end Sys2Proof.Machine
end

section
/-! SUPPORT. The commands of timebase, scheduler, voltage, ports and radio:
what keeps the queue and the fused identity. -/

namespace Sys2Proof.Machine

open Sys2Proof

set_option Elab.async false

/-! ### The timebase -/

theorem withClk_keeps (f : Clock → Clock) (s : State) : Keeps s (withClk f s) :=
  ⟨rfl, rfl⟩

theorem correctTime_keeps (offset : Int) (s : State) : Keeps s (correctTime offset s) :=
  .ite ⟨rfl, rfl⟩ ((raise_keeps ..).after ⟨rfl, rfl⟩)

theorem refChanged_keeps (kind old new : Nat) (s : State) : Keeps s (refChanged kind old new s) :=
  .ite (.refl _) (raise_keeps ..)

theorem followRefs_keeps (ph fr : Nat) (s : State) : Keeps s (followRefs ph fr s) :=
  .ite ((crossed_keeps ..).after ((refChanged_keeps ..).after ((refChanged_keeps ..).after ((withClk_keeps ..).after
    (.ite ⟨rfl, rfl⟩ (.refl _)))))) ((noticeLive_keeps ..).after ((refChanged_keeps ..).after ((refChanged_keeps
    ..).after ((withClk_keeps ..).after (.ite ⟨rfl, rfl⟩ (.refl _))))))

theorem settleRefs_keeps (s : State) : Keeps s (settleRefs s) :=
  .ite ((followRefs_keeps ..).after ⟨rfl, rfl⟩) (.refl _)

theorem updateRefs_keeps (s0 : State) : Keeps s0 (updateRefs s0) :=
  .ite ((withClk_keeps ..).after ((withClk_keeps ..).after (.ite (settleRefs_keeps ..) (.refl _)))) ((followRefs_keeps
    ..).after ((withClk_keeps ..).after ((withClk_keeps ..).after (.ite (settleRefs_keeps ..) (.refl _)))))

theorem tickRefs_keeps (s : State) : Keeps s (tickRefs s) :=
  .ite (settleRefs_keeps ..) ((settleRefs_keeps ..).trans (updateRefs_keeps ..))

/-! ### Teleprotection operations -/

theorem withTp_keeps (n : Nat) (f : Tp → Tp) (s : State) : Keeps s (withTp n f s) :=
  ⟨rfl, rfl⟩

theorem driveBalls_keeps (s : State) : Keeps s (driveBalls s) :=
  ⟨rfl, rfl⟩

theorem sampleBall_keeps (levels : BitVec 32) (s : State) (ball : Nat) : Keeps s (sampleBall levels s ball) :=
  .ite ⟨rfl, rfl⟩ (.ite ⟨rfl, rfl⟩ ⟨rfl, rfl⟩)

theorem tpTransmit_keeps (p : TpParams) (payload : Bytes) (s : State) : Keeps s (tpTransmit p payload s) :=
  .ite (ethSend_keeps ..) (.ite (pairSend_keeps ..) (.refl _))

theorem tpInstance_keeps (n : Nat) (s : State) : Keeps s (tpInstance n s) :=
  (bump_keeps ..).after ⟨rfl, rfl⟩

theorem holdFrame_keeps (n : Nat) (q : TpHeld) (s : State) : Keeps s (holdFrame n q s) :=
  .ite (.refl _) ((bump_keeps ..).after ((bump_keeps ..).after ⟨rfl, rfl⟩))

theorem unhold_keeps (n : Nat) (s : State) : Keeps s (unhold n s) := by
  unfold unhold
  split
  · exact .refl _
  · exact ⟨rfl, rfl⟩

theorem tpSend_keeps (n : Nat) (cmd : BitVec 4) (closing : Bool) (txTime : BitVec 64) (s : State) :
    Keeps s (tpSend n cmd closing txTime s) := by
  unfold tpSend
  dsimp only
  split
  · exact .refl _
  · exact .ite (.refl _) (.ite ((tpTransmit_keeps ..).after ((tpInstance_keeps ..).after ⟨rfl, rfl⟩)) (Keeps.after
      (.fold fun _ _ => bumpSub_keeps ..) ((tpTransmit_keeps ..).after ((tpInstance_keeps ..).after ⟨rfl, rfl⟩))))

theorem tpChange_keeps (n : Nat) (t : Ns) (held : Option TpHeld) (s : State) : Keeps s (tpChange n t held s) := by
  unfold tpChange
  dsimp only
  split
  · exact .refl _
  · exact .ite (.refl _) (.ite (.ite ((bump_keeps ..).after ((bumpN_keeps ..).after ((bump_keeps ..).after
      ((tpSend_keeps ..).after ⟨rfl, rfl⟩)))) ((tpSend_keeps ..).after ⟨rfl, rfl⟩)) ((raise_keeps ..).after (.ite
      ((bump_keeps ..).after ((bumpN_keeps ..).after ((bump_keeps ..).after ((tpSend_keeps ..).after ⟨rfl, rfl⟩))))
      ((tpSend_keeps ..).after ⟨rfl, rfl⟩))))

theorem tpDiscard_keeps (n : Nat) (s : State) : Keeps s (tpDiscard n s) :=
  .ite (((unhold_keeps ..).trans (bump_keeps ..)).trans (bump_keeps ..)) (.refl _)

theorem tpSetCmd_keeps (n : Nat) (cmd : BitVec 4) (st : TpState) (t : Ns) (held : Option TpHeld) (s : State) :
    Keeps s (tpSetCmd n cmd st t held s) := by
  unfold tpSetCmd
  dsimp only
  split
  · exact .refl _
  · exact .ite ⟨rfl, rfl⟩ ((tpChange_keeps ..).after ⟨rfl, rfl⟩)

theorem tpSink_keeps (n : Nat) (cmd : BitVec 4) (info : Option TpInfo) (t : Ns) (s : State) :
    Keeps s (tpSink n cmd info t s) := by
  unfold tpSink
  dsimp only
  split
  · exact .refl _
  · refine .ite ?_ ?_
    · exact .refl _
    · refine (raise_keeps ..).after ?_
      split
      · exact Keeps.after (.fold fun _ _ => bumpSub_keeps ..) ⟨rfl, rfl⟩
      · exact (drawNat_keeps ..).after (Keeps.after (.fold fun _ _ => bumpSub_keeps ..) ⟨rfl, rfl⟩)

theorem tpTimed_keeps (n : Nat) (old cmd : BitVec 4) (txTime : BitVec 64) (t : Ns) (s : State) :
    Keeps s (tpTimed n old cmd txTime t s) := by
  unfold tpTimed
  dsimp only
  split
  · exact .refl _
  · exact .ite (.refl _) (.ite ((bump_keeps ..).after ⟨rfl, rfl⟩) ⟨rfl, rfl⟩)

theorem tpDrive_keeps (n : Nat) (cmd : BitVec 4) (info : TpInfo) (t : Ns) (s : State) :
    Keeps s (tpDrive n cmd info t s) := by
  unfold tpDrive
  dsimp only
  split
  · exact .refl _
  · exact (tpTimed_keeps ..).after ((tpSink_keeps ..).after ⟨rfl, rfl⟩)

theorem tpFail_keeps (n : Nat) (info : Option TpInfo) (t : Ns) (s : State) : Keeps s (tpFail n info t s) := by
  unfold tpFail
  dsimp only
  split
  · exact .refl _
  · exact (tpSink_keeps ..).after ⟨rfl, rfl⟩

theorem tpReceive_keeps (n : Nat) (d : Bytes) (t : Ns) (s : State) : Keeps s (tpReceive n d t s) := by
  unfold tpReceive
  dsimp only
  split
  · exact .refl _
  · split
    · exact bump_keeps ..
    · exact .ite (Keeps.after (.fold fun _ _ => bumpSub_keeps ..) ((noticeLive_keeps ..).after ((bumpN_keeps ..).after
        ⟨rfl, rfl⟩))) (.ite ((raise_keeps ..).after ((tpFail_keeps ..).after ((noticeLive_keeps ..).after ((bumpN_keeps
        ..).after ⟨rfl, rfl⟩)))) ((tpDrive_keeps ..).after ((noticeLive_keeps ..).after ((bumpN_keeps ..).after ⟨rfl,
        rfl⟩))))

/-! ### The scheduler -/

theorem setupFlow_keeps (ring : Nat) (b : Bytes) (s : State) : Keeps s (setupFlow ring b s) :=
  (addFlow_keeps ..).after ⟨rfl, rfl⟩

theorem execFlowSetup_goesOn (h : CmdHdr) (s : State) : GoesOn s (execFlowSetup h s) :=
  ⟨_, rfl, runCmd_keeps _ _ _ fun _ => checked_keeps _ (setupFlow_keeps ..)⟩

theorem flowReleaseOwn_keeps (h : CmdHdr) (f : Nat) (s : State) : (flowReleaseOwn h f s).Keeps s :=
  .ite (Keeps.refl _) (⟨rfl, rfl⟩)

theorem execFlowRelease_goesOn (h : CmdHdr) (flow : Nat) (s : State) : GoesOn s (execFlowRelease h flow s) :=
  ⟨_, rfl, runCmd_keeps _ _ _ fun _ => flowReleaseOwn_keeps ..⟩

theorem submitOp_keeps (f : Nat) (start : BitVec 32) (num : Nat) (s : State) : Keeps s (submitOp f start num s) :=
  .ite ((offerInst_keeps ..).after ⟨rfl, rfl⟩) (.ite ((offerInst_keeps ..).after ((bump_keeps ..).after ⟨rfl, rfl⟩))
    ⟨rfl, rfl⟩)

theorem execOpSubmit_goesOn (h : CmdHdr) (flow : Nat) (startTick : BitVec 32) (s : State) :
    GoesOn s (execOpSubmit h flow startTick s) :=
  ⟨_, rfl, runCmd_keeps _ _ _ fun _ => .ite (Keeps.refl _) (submitOp_keeps ..)⟩

theorem opCancelOwn_keeps (h : CmdHdr) (f : Nat) (mask : BitVec 12) (inst : BitVec 32) (s : State) :
    (opCancelOwn h f mask inst s).Keeps s := by
  unfold opCancelOwn
  split
  · exact Keeps.refl _
  · split
    · exact Keeps.refl _
    · exact ⟨rfl, rfl⟩

theorem execOpCancel_goesOn (h : CmdHdr) (flow : Nat) (mask : BitVec 12) (inst : BitVec 32) (s : State) :
    GoesOn s (execOpCancel h flow mask inst s) :=
  ⟨_, rfl, runCmd_keeps _ _ _ fun _ => opCancelOwn_keeps ..⟩

theorem closeWindow_keeps (s : State) (c : Nat) : Keeps s (closeWindow s c) := by
  unfold closeWindow
  dsimp only
  split
  · exact (noticeLive_keeps ..).after ⟨rfl, rfl⟩
  · exact .ite ((crossed_keeps ..).after ⟨rfl, rfl⟩) ((noticeLive_keeps ..).after ⟨rfl, rfl⟩)

theorem slewTick_keeps (s : State) : Keeps s (slewTick s) :=
  ⟨rfl, rfl⟩

theorem stopChannels_keeps (s : State) : Keeps s (stopChannels s) :=
  .fold fun _ _ => .ite ⟨rfl, rfl⟩ (.refl _)

theorem followSlack_keeps (s : State) : Keeps s (followSlack s) :=
  ⟨rfl, rfl⟩

theorem takeFrames_keeps (t : Nat) (s : State) : Keeps s (takeFrames t s) :=
  .ite (.refl _) ⟨rfl, rfl⟩

theorem shiftGates_keeps (d : Int) (s : State) : Keeps s (shiftGates d s) :=
  .ite (.refl _) ⟨rfl, rfl⟩

theorem runTick_keeps (s : State) : Keeps s (runTick s) :=
  (followSlack_keeps ..).after ((withFsc_keeps ..).after (Keeps.after (.fold fun _ _ => closeWindow_keeps ..) (.ite
    (Keeps.after (.fold fun _ _ => takeFrames_keeps ..) (Keeps.after (.fold fun _ _ => wireDone_keeps ..)
    (((((roundIf_keeps ..).trans (Keeps.update)).trans (shiftGates_keeps ..)).trans (slewTick_keeps ..)).trans
    (tickRefs_keeps ..)))) ((stopChannels_keeps ..).after ((issueTick_keeps ..).after (Keeps.after (.fold fun _ _ =>
    takeFrames_keeps ..) (Keeps.after (.fold fun _ _ => wireDone_keeps ..) (((((roundIf_keeps ..).trans
    (Keeps.update)).trans (shiftGates_keeps ..)).trans (slewTick_keeps ..)).trans (tickRefs_keeps ..)))))))))

theorem execTick_goesOn (s : State) : GoesOn s (execTick s) :=
  ⟨_, rfl, .onlyIf (runTick_keeps ..) (.refl _)⟩

theorem execInstanceIssue_goesOn (flow : Nat) (s : State) : GoesOn s (execInstanceIssue flow s) :=
  ⟨_, rfl, .onlyIf (issueStalled_keeps ..) (.refl _)⟩

theorem expire_keeps (f i : Nat) (s : State) : Keeps s (expire f i s) := by
  unfold expire
  dsimp only
  split
  · exact .refl _
  · exact .ite (Keeps.after (.fold fun _ _ => refuteRoot_keeps ..) (missInstance_keeps ..)) (Keeps.after (.fold fun _ _
      => refuteRoot_keeps ..) ((missInstance_keeps ..).trans (withInst_keeps ..)))

theorem execDeadlineExpiry_goesOn (flow inst : Nat) (s : State) : GoesOn s (execDeadlineExpiry flow inst s) :=
  ⟨_, rfl, .onlyIf (((roundIf_keeps ..).trans (settleNow_keeps ..)).trans (expire_keeps ..)) (.refl _)⟩

theorem execPredTicksExpiry_goesOn (flow inst node : Nat) (s : State) :
    GoesOn s (execPredTicksExpiry flow inst node s) :=
  ⟨_, rfl, .onlyIf (((roundIf_keeps ..).trans (judgePred_keeps ..)).trans (resolvePred_keeps ..)) (.refl _)⟩

theorem execArbitrationRound_goesOn (s : State) : GoesOn s (execArbitrationRound s) :=
  ⟨_, rfl, .onlyIf ((round_keeps ..).trans (radioRound_keeps ..)) (.refl _)⟩

theorem startVpe_keeps (n f : Nat) (fl : Flow) (x : Inst) (o : Op) (s : State) : Keeps s (startVpe n f fl x o s) := by
  unfold startVpe
  dsimp only
  split
  · exact .ite ⟨rfl, rfl⟩ ⟨rfl, rfl⟩
  · exact ⟨rfl, rfl⟩

theorem countDispatch_keeps (n : Nat) (fl : Flow) (spec : Bool) (s : State) : Keeps s (countDispatch n fl spec s) :=
  .ite ((bumpN_keeps ..).trans (bump_keeps ..)) (.ite (((bumpN_keeps ..).trans (bump_keeps ..)).trans (bump_keeps ..))
    (((bumpN_keeps ..).trans (bump_keeps ..)).trans (bump_keeps ..)))

theorem dispatch_keeps (n f i d : Nat) (s : State) : Keeps s (dispatch n f i d s) := by
  unfold dispatch
  dsimp only
  split
  · split
    · exact ((countDispatch_keeps ..).trans (takeFor_keeps ..)).trans (withFlow_keeps ..)
    · exact (pressure_keeps ..).after (.ite ((((((countDispatch_keeps ..).trans (takeFor_keeps ..)).trans
        (withFlow_keeps ..)).trans (startVpe_keeps ..)).trans (withOp_keeps ..)).trans (decodeStart_keeps ..))
        (((((countDispatch_keeps ..).trans (takeFor_keeps ..)).trans (withFlow_keeps ..)).trans (startVpe_keeps
        ..)).trans (withOp_keeps ..)))
  · exact .refl _

theorem execOpDispatch_goesOn (vpe flow inst node : Nat) (s : State) : GoesOn s (execOpDispatch vpe flow inst node s) :=
  ⟨_, rfl, .onlyIf ((roundIf_keeps ..).trans (dispatch_keeps ..)) (.refl _)⟩

theorem execOpComplete_goesOn (vpe : Nat) (res : OpRes) (s : State) : GoesOn s (execOpComplete vpe res s) := by
  unfold execOpComplete
  dsimp only
  split
  · exact ⟨_, rfl, .onlyIf ⟨rfl, rfl⟩ (.refl _)⟩
  · exact ⟨_, rfl, .refl _⟩

theorem execPatienceExpiry_goesOn (flow inst node : Nat) (t : Ns) (s : State) :
    GoesOn s (execPatienceExpiry flow inst node t s) := by
  unfold execPatienceExpiry
  dsimp only
  split
  · refine ⟨_, rfl, ?_⟩
    refine .onlyIf ?_ ?_
    · refine .ite ?_ ?_
      · exact ⟨rfl, rfl⟩
      · split
        · exact .ite ⟨rfl, rfl⟩ ⟨rfl, rfl⟩
        · exact .ite ⟨rfl, rfl⟩ ⟨rfl, rfl⟩
        · exact ⟨rfl, rfl⟩
    · exact ⟨rfl, rfl⟩
  · exact ⟨_, rfl, ⟨rfl, rfl⟩⟩

theorem execOpAged_goesOn (flow inst node : Nat) (t : Ns) (s : State) : GoesOn s (execOpAged flow inst node t s) := by
  unfold execOpAged
  dsimp only
  split
  · exact ⟨_, rfl, .onlyIf ((bump_keeps ..).after ⟨rfl, rfl⟩) ⟨rfl, rfl⟩⟩
  · exact ⟨_, rfl, ⟨rfl, rfl⟩⟩

theorem execStealAgeExpiry_goesOn (vpe : Nat) (t : Ns) (s : State) : GoesOn s (execStealAgeExpiry vpe t s) := by
  unfold execStealAgeExpiry
  dsimp only
  split
  · exact ⟨_, rfl, .onlyIf ((dispatch_keeps ..).after ((bump_keeps ..).after ((roundIf_keeps ..).after ⟨rfl, rfl⟩)))
      ⟨rfl, rfl⟩⟩
  · exact ⟨_, rfl, ⟨rfl, rfl⟩⟩

/-! ### Voltage requests -/

theorem transact_keeps (v : Nat) (acked : Bool) (t : Ns) (s : State) : Keeps s (transact v acked t s) :=
  .ite ⟨rfl, rfl⟩ ⟨rfl, rfl⟩

theorem avsStep_keeps (tempDeciC : Int) (acked : Bool) (t : Ns) (s : State) :
    Keeps s (avsStep tempDeciC acked t s) := by
  unfold avsStep
  dsimp only
  split
  · exact (transact_keeps ..).after ⟨rfl, rfl⟩
  · refine .ite ?_ ?_
    · exact .ite ⟨rfl, rfl⟩ (.refl _)
    · split
      · exact (transact_keeps ..).after ⟨rfl, rfl⟩
      · exact .refl _

theorem execAvsStep_goesOn (t : Ns) (tempDeciC : Int) (acked : Bool) (s : State) :
    GoesOn s (execAvsStep t tempDeciC acked s) :=
  ⟨_, rfl, .onlyIf ((avsStep_keeps ..).after ⟨rfl, rfl⟩) ⟨rfl, rfl⟩⟩

theorem avsRetry_keeps (acked : Bool) (s : State) : Keeps s (avsRetry acked s) := by
  unfold avsRetry
  dsimp only
  split
  · exact .refl _
  · exact .ite ⟨rfl, rfl⟩ ((crossed_keeps ..).after ((bump_keeps ..).after ⟨rfl, rfl⟩))

theorem execAvsRetry_goesOn (t : Ns) (acked : Bool) (s : State) : GoesOn s (execAvsRetry t acked s) :=
  ⟨_, rfl, .onlyIf ((avsRetry_keeps ..).after ⟨rfl, rfl⟩) ⟨rfl, rfl⟩⟩

/-! ### Ethernet ports -/

theorem execGateListSet_goesOn (h : CmdHdr) (s : State) : GoesOn s (execGateListSet h s) :=
  ⟨_, rfl, runCmd_keeps _ _ _ fun _ => checked_keeps _ ⟨rfl, rfl⟩⟩

theorem execGateListSwitch_goesOn (port : Nat) (t : Ns) (s : State) : GoesOn s (execGateListSwitch port t s) := by
  unfold execGateListSwitch
  dsimp only
  split
  · exact ⟨_, rfl, .onlyIf ((raise_keeps ..).after ⟨rfl, rfl⟩) ⟨rfl, rfl⟩⟩
  · exact ⟨_, rfl, ⟨rfl, rfl⟩⟩

theorem execWakePatternSet_goesOn (h : CmdHdr) (s : State) : GoesOn s (execWakePatternSet h s) :=
  ⟨_, rfl, runCmd_keeps _ _ _ fun _ => checked_keeps _ ⟨rfl, rfl⟩⟩

theorem prpCheck_keeps (n p : Nat) (d : Bytes) (t : Ns) (s : State) : Keeps s (prpCheck n p d t s).2 := by
  unfold prpCheck
  dsimp only
  split
  · exact (withPair_keeps ..).after ((withPair_keeps ..).after (.ite (.refl _) (bump_keeps ..)))
  · exact .ite_snd ((withPair_keeps ..).after (.ite (.refl _) (bump_keeps ..))) (.ite_snd (.ite_snd ((bump_keeps
      ..).after ((withPair_keeps ..).after (.ite (.refl _) (bump_keeps ..)))) ((withPair_keeps ..).after (.ite (.refl
      _) (bump_keeps ..)))) ((bump_keeps ..).after ((withPair_keeps ..).after (.ite (.refl _) (bump_keeps ..)))))

theorem deliverDefault_keeps (p : Nat) (d : Bytes) (fr : EthFrame) (s : State) : Keeps s (deliverDefault p d fr s) :=
  .ite (deliverItem_keeps ..) (bump_keeps ..)

theorem deliverFrame_keeps (p : Nat) (d : Bytes) (fr : EthFrame) (s : State) : Keeps s (deliverFrame p d fr s) := by
  unfold deliverFrame
  dsimp only
  refine .ite ?_ ?_
  · exact .refl _
  · refine .ite ?_ ?_
    · exact bump_keeps ..
    · split
      · exact tpReceive_keeps ..
      · split
        · exact deliverDefault_keeps ..
        · split
          · exact .ite (tpReceive_keeps ..) (bump_keeps ..)
          · exact .ite (bump_keeps ..) (.ite (rtcpReceive_keeps ..) (rtpReceive_keeps ..))
          · exact deliverDefault_keeps ..

theorem receiveFrame_keeps (p : Nat) (fr : EthFrame) (s : State) : Keeps s (receiveFrame p fr s) := by
  unfold receiveFrame
  dsimp only
  split
  · exact bump_keeps ..
  · split
    · exact (deliverFrame_keeps ..).after ⟨rfl, rfl⟩
    · exact .ite ((deliverFrame_keeps ..).after ((bump_keeps ..).after ⟨rfl, rfl⟩)) (.ite ((deliverFrame_keeps
        ..).after ((prpCheck_keeps ..).after ⟨rfl, rfl⟩)) ((prpCheck_keeps ..).after ⟨rfl, rfl⟩))

theorem execEthRxFrame_goesOn (port : Nat) (frame : EthFrame) (s : State) : GoesOn s (execEthRxFrame port frame s) :=
  ⟨_, rfl, .onlyIf ((receiveFrame_keeps ..).after ⟨rfl, rfl⟩) ⟨rfl, rfl⟩⟩

theorem portStart_keeps (p : Nat) (t : Ns) (s : State) : Keeps s (portStart p t s) := by
  have ended : Keeps s (dropTooLong p (wireDone p t s)) := (wireDone_keeps p t s).trans (dropTooLong_keeps p _)
  unfold portStart
  generalize dropTooLong p (wireDone p t s) = u at ended
  exact .ite (ended.trans ((withPort_keeps ..).trans (startFrame_keeps ..))) ended

theorem execEthTxStart_goesOn (port : Nat) (t : Ns) (s : State) : GoesOn s (execEthTxStart port t s) :=
  ⟨_, rfl, .onlyIf ((portStart_keeps ..).after ⟨rfl, rfl⟩) ⟨rfl, rfl⟩⟩

theorem changeLink_keeps (p : Nat) (up : Bool) (s : State) : Keeps s (changeLink p up s) :=
  .ite (wireDone_keeps ..) (.ite ((((wireDone_keeps ..).trans (withPort_keeps ..)).trans (noticeLive_keeps ..)).trans
    (updateRefs_keeps ..)) ((((wireDone_keeps ..).trans (loseLink_keeps ..)).trans (crossed_keeps ..)).trans
    (updateRefs_keeps ..)))

theorem execEthLinkChange_goesOn (port : Nat) (up : Bool) (s : State) : GoesOn s (execEthLinkChange port up s) :=
  ⟨_, rfl, .ite (.onlyIf (changeLink_keeps ..) (.refl _)) (.onlyIf ⟨rfl, rfl⟩ (.refl _))⟩

theorem execLpiEnter_goesOn (port : Nat) (t : Ns) (s : State) : GoesOn s (execLpiEnter port t s) :=
  ⟨_, rfl, .onlyIf ((withPort_keeps ..).after ((wireDone_keeps ..).after ⟨rfl, rfl⟩)) ⟨rfl, rfl⟩⟩

theorem execLpiWake_goesOn (port : Nat) (t : Ns) (s : State) : GoesOn s (execLpiWake port t s) :=
  ⟨_, rfl, .onlyIf ((beginWake_keeps ..).after ⟨rfl, rfl⟩) ⟨rfl, rfl⟩⟩

theorem execPrpSvSend_goesOn (pair : Nat) (t : Ns) (s : State) : GoesOn s (execPrpSvSend pair t s) :=
  ⟨_, rfl, .onlyIf ((pairSend_keeps ..).after ⟨rfl, rfl⟩) ⟨rfl, rfl⟩⟩

theorem prpTimeout_keeps (n mac : Nat) (t : Ns) (s : State) : Keeps s (prpTimeout n mac t s) := by
  unfold prpTimeout
  dsimp only
  split
  · exact .refl _
  · exact Keeps.after (.fold fun _ _ => bump_keeps ..) ⟨rfl, rfl⟩

theorem execPrpEntryTimeout_goesOn (pair mac : Nat) (t : Ns) (s : State) :
    GoesOn s (execPrpEntryTimeout pair mac t s) :=
  ⟨_, rfl, .onlyIf ((prpTimeout_keeps ..).after ⟨rfl, rfl⟩) ⟨rfl, rfl⟩⟩

theorem ptpOne_keeps (p type : Nat) (s : State) : Keeps s (ptpOne p type s) :=
  (ethSend_keeps ..).after ⟨rfl, rfl⟩

theorem ptpSend_keeps (p type : Nat) (s : State) : Keeps s (ptpSend p type s) :=
  .ite (ptpOne_keeps ..) (.ite ((ptpOne_keeps ..).trans (ptpOne_keeps ..)) (.ite ((ptpOne_keeps ..).trans (ptpOne_keeps
    ..)) (ptpOne_keeps ..)))

theorem announced_keeps (p : Nat) (rank : List Nat) (s : State) : Keeps s (announced p rank s) := by
  unfold announced
  dsimp only
  split
  · exact .ite ((updateRefs_keeps ..).after ⟨rfl, rfl⟩) (.refl _)
  · exact .ite ((updateRefs_keeps ..).after ⟨rfl, rfl⟩) (.ite ((updateRefs_keeps ..).after ⟨rfl, rfl⟩) (.refl _))

theorem ptpMessage_keeps (p : Nat) (m : PtpMsg) (s : State) : Keeps s (ptpMessage p m s) := by
  unfold ptpMessage
  refine .ite ?_ ?_
  · exact .refl _
  · split
    · exact .ite (correctTime_keeps ..) (.refl _)
    · exact announced_keeps ..
    · exact ptpSend_keeps ..
    · exact .refl _

theorem execPtpMessageRx_goesOn (port : Nat) (msg : PtpMsg) (t : Ns) (s : State) :
    GoesOn s (execPtpMessageRx port msg t s) :=
  ⟨_, rfl, .onlyIf ((ptpMessage_keeps ..).after ⟨rfl, rfl⟩) ⟨rfl, rfl⟩⟩

theorem ptpInterval_keeps (p kind : Nat) (t : Ns) (s : State) : Keeps s (ptpInterval p kind t s) := by
  unfold ptpInterval
  dsimp only
  split
  · exact (ptpSend_keeps ..).after ⟨rfl, rfl⟩
  · exact .ite ((updateRefs_keeps ..).after ⟨rfl, rfl⟩) ⟨rfl, rfl⟩
  · exact .ite ⟨rfl, rfl⟩ ((ptpSend_keeps ..).after ⟨rfl, rfl⟩)

theorem execPtpInterval_goesOn (port kind : Nat) (t : Ns) (s : State) : GoesOn s (execPtpInterval port kind t s) :=
  ⟨_, rfl, .onlyIf ((ptpInterval_keeps ..).after ⟨rfl, rfl⟩) ⟨rfl, rfl⟩⟩

theorem execPpsEdge_goesOn (t : Ns) (offset : Int) (s : State) : GoesOn s (execPpsEdge t offset s) :=
  ⟨_, rfl, .onlyIf ((correctTime_keeps ..).after ⟨rfl, rfl⟩) ⟨rfl, rfl⟩⟩

theorem execTbuRefUpdate_goesOn (code : Nat) (available : Bool) (s : State) :
    GoesOn s (execTbuRefUpdate code available s) :=
  ⟨_, rfl, .onlyIf ((updateRefs_keeps ..).after ⟨rfl, rfl⟩) (.refl _)⟩

theorem execTbuTimeSet_goesOn (h : CmdHdr) (time : Nat) (s : State) : GoesOn s (execTbuTimeSet h time s) :=
  ⟨_, rfl, runCmd_keeps _ _ _ fun _ => ⟨rfl, rfl⟩⟩

/-! ### Radio links and reception -/

theorem startLink_keeps (n : Nat) (s : State) : Keeps s (startLink n s) := by
  unfold startLink
  refine (withLink_keeps ..).trans (.fold fun t a => ?_)
  dsimp only
  split
  · exact (withAnt_keeps ..).trans (spiSend_keeps ..)
  · exact withAnt_keeps ..

theorem linkEnable_keeps (n : Nat) (s : State) : Keeps s (linkEnable n s) :=
  .ite (.refl _) (.ite ((startLink_keeps ..).after ⟨rfl, rfl⟩) (refuse_keeps ..))

theorem linkDisable_keeps (n : Nat) (s : State) : Keeps s (linkDisable n s) :=
  .ite ((withLink_keeps ..).after ((noticeLive_keeps ..).after ((leaveData_keeps ..).after ⟨rfl, rfl⟩))) (.refl _)

theorem lockedWrite_keeps (changes : Bool) {f : State → State} (s : State) (hf : Keeps s (f s)) :
    Keeps s (lockedWrite changes f s) :=
  .ite (.refl s) (.ite (.onlyIf (bump_keeps ..) (.refl s)) hf)

theorem execRlEnable_goesOn (link : Nat) (s : State) : GoesOn s (execRlEnable link s) :=
  ⟨_, rfl, .onlyIf (lockedWrite_keeps _ _ (linkEnable_keeps ..)) (.refl _)⟩

theorem execRlDisable_goesOn (link : Nat) (s : State) : GoesOn s (execRlDisable link s) :=
  ⟨_, rfl, .onlyIf (lockedWrite_keeps _ _ (linkDisable_keeps ..)) (.refl _)⟩

theorem realign_keeps (n : Nat) (s : State) : Keeps s (realign n s) :=
  .ite (.refl _) (((leaveData_keeps ..).trans (noticeLive_keeps ..)).trans (withLink_keeps ..))

theorem execRlRealign_goesOn (h : CmdHdr) (link : Nat) (s : State) : GoesOn s (execRlRealign h link s) :=
  ⟨_, rfl, runCmd_keeps _ _ _ fun _ => checked_keeps _ (realign_keeps ..)⟩

theorem execSysrefEdge_goesOn (link : Nat) (t : Ns) (offsetPs : Int) (periodic : Bool) (s : State) :
    GoesOn s (execSysrefEdge link t offsetPs periodic s) := by
  unfold execSysrefEdge
  dsimp only
  split
  · split
    · exact ⟨_, rfl, (crossed_keeps ..).after ((bump_keeps ..).after ⟨rfl, rfl⟩)⟩
    · exact ⟨_, rfl, ⟨rfl, rfl⟩⟩
  · exact ⟨_, rfl, ⟨rfl, rfl⟩⟩

theorem linkDown_keeps (n reason : Nat) (value : Int) (s : State) : Keeps s (linkDown n reason value s) :=
  .ite ((crossed_keeps ..).after ((crossed_keeps ..).after ((withLink_keeps ..).after (.ite (leaveData_keeps ..) (.refl
    _))))) ((crossed_keeps ..).after ((withLink_keeps ..).after (.ite (leaveData_keeps ..) (.refl _))))

theorem linkMove_keeps (n state reason : Nat) (value : Int) (s : State) :
    Keeps s (linkMove n state reason value s) := by
  unfold linkMove
  split
  · exact ⟨rfl, rfl⟩
  · exact (reachData_keeps ..).after ((noticeLive_keeps ..).after ⟨rfl, rfl⟩)
  · exact bumpN_keeps ..
  · exact .ite (linkDown_keeps ..) (.refl _)
  · exact .ite (linkDown_keeps ..) (.refl _)
  · exact .refl _

theorem execRlLinkState_goesOn (link state reason : Nat) (value : Int) (s : State) :
    GoesOn s (execRlLinkState link state reason value s) :=
  ⟨_, rfl, .onlyIf (linkMove_keeps ..) (.refl _)⟩

theorem rlSpiOwn_keeps (h : CmdHdr) (link wlen rlen : Nat) (wbytes answer : Bytes) (s : State) :
    (rlSpiOwn h link wlen rlen wbytes answer s).Keeps s :=
  .ite (Keeps.refl _) (.ite (⟨rfl, rfl⟩) (⟨rfl, rfl⟩))

theorem execRlSpi_goesOn (h : CmdHdr) (link wlen rlen : Nat) (wbytes answer : Bytes) (s : State) :
    GoesOn s (execRlSpi h link wlen rlen wbytes answer s) :=
  ⟨_, rfl, runCmd_keeps _ _ _ fun _ => rlSpiOwn_keeps ..⟩

theorem execRlGainTable_goesOn (h : CmdHdr) (s : State) : GoesOn s (execRlGainTable h s) :=
  ⟨_, rfl, runCmd_keeps _ _ _ fun _ => checked_keeps _ ⟨rfl, rfl⟩⟩

theorem execRlGainSet_goesOn (h : CmdHdr) (link antenna entry : Nat) (s : State) :
    GoesOn s (execRlGainSet h link antenna entry s) :=
  ⟨_, rfl, runCmd_keeps _ _ _ fun _ => checked_keeps _ ⟨rfl, rfl⟩⟩

theorem execGainWindowDecision_goesOn (link antenna : Nat) (t : Ns) (iq : List (BitVec 16 × BitVec 16)) (first : Nat)
    (unsettled : Bool) (s : State) :
    GoesOn s (execGainWindowDecision link antenna t iq first unsettled s) := by
  unfold execGainWindowDecision
  dsimp only
  split
  · split
    · exact ⟨_, rfl, (presentRadio_keeps ..).after ((bumpN_keeps ..).after ((feedAntenna_keeps ..).after ⟨rfl, rfl⟩))⟩
    · exact ⟨_, rfl, (feedAntenna_keeps ..).after ⟨rfl, rfl⟩⟩
  · exact ⟨_, rfl, ⟨rfl, rfl⟩⟩

theorem gainWritten_keeps (n a : Nat) (t : Ns) (s : State) : Keeps s (gainWritten n a t s) := by
  unfold gainWritten
  dsimp only
  split
  · exact ⟨rfl, rfl⟩
  · exact .refl _

theorem execGainWriteDone_goesOn (link antenna : Nat) (t : Ns) (s : State) :
    GoesOn s (execGainWriteDone link antenna t s) :=
  ⟨_, rfl, .onlyIf ((gainWritten_keeps ..).after ⟨rfl, rfl⟩) ⟨rfl, rfl⟩⟩

theorem execChannelGainUpdate_goesOn (rx : Nat) (t : Ns) (s : State) : GoesOn s (execChannelGainUpdate rx t s) := by
  unfold execChannelGainUpdate
  dsimp only
  split
  · exact ⟨_, rfl, .onlyIf ⟨rfl, rfl⟩ ⟨rfl, rfl⟩⟩
  · exact ⟨_, rfl, ⟨rfl, rfl⟩⟩

theorem detect_keeps (n : Nat) (sfs : List Nat) (s : State) : Keeps s (detect n sfs s) :=
  (stepReceptions_keeps ..).after (.fold fun _ _ => searchSf_keeps ..)

theorem execDetectWindow_goesOn (rx : Nat) (sfs : List Nat) (t : Ns) (s : State) :
    GoesOn s (execDetectWindow rx sfs t s) :=
  ⟨_, rfl, .onlyIf ((detect_keeps ..).after ⟨rfl, rfl⟩) ⟨rfl, rfl⟩⟩

theorem energy_keeps (n : Nat) (w : List OutSample) (s : State) : Keeps s (energy n w s) := by
  unfold energy
  dsimp only
  split
  · exact .refl _
  · refine .ite ?_ ?_
    · exact ⟨rfl, rfl⟩
    · refine .ite ?_ ?_
      · refine (withRxc_keeps ..).after ?_
        split
        · exact .ite ((bump_keeps ..).after ⟨rfl, rfl⟩) ⟨rfl, rfl⟩
        · exact ⟨rfl, rfl⟩
      · split
        · exact .ite ((bump_keeps ..).after ⟨rfl, rfl⟩) ⟨rfl, rfl⟩
        · exact ⟨rfl, rfl⟩

theorem execEnergyWindow_goesOn (rx place len : Nat) (t : Ns) (s : State) :
    GoesOn s (execEnergyWindow rx place len t s) := by
  unfold execEnergyWindow
  dsimp only
  split
  · exact ⟨_, rfl, ⟨rfl, rfl⟩⟩
  · split
    · exact ⟨_, rfl, ⟨rfl, rfl⟩⟩
    · exact ⟨_, rfl, .onlyIf ((energy_keeps ..).after ⟨rfl, rfl⟩) ⟨rfl, rfl⟩⟩

theorem execEnergySpanExpiry_goesOn (rx : Nat) (t : Ns) (s : State) : GoesOn s (execEnergySpanExpiry rx t s) := by
  unfold execEnergySpanExpiry
  dsimp only
  split
  · exact ⟨_, rfl, ⟨rfl, rfl⟩⟩
  · split
    · exact ⟨_, rfl, ⟨rfl, rfl⟩⟩
    · exact ⟨_, rfl, .onlyIf ((withRxc_keeps ..).after (.ite ⟨rfl, rfl⟩ ((bump_keeps ..).after ⟨rfl, rfl⟩))) ⟨rfl, rfl⟩⟩

theorem execHeaderResult_goesOn (rx inst scale : Nat) (t : Ns) (s : State) :
    GoesOn s (execHeaderResult rx inst scale t s) := by
  unfold execHeaderResult
  dsimp only
  split
  · exact ⟨_, rfl, ⟨rfl, rfl⟩⟩
  · exact ⟨_, rfl, .onlyIf ⟨rfl, rfl⟩ ⟨rfl, rfl⟩⟩

theorem execRxFrameEnd_goesOn (rx inst scale sf quality len lag : Nat) (t : Ns) (s : State) :
    GoesOn s (execRxFrameEnd rx inst scale sf quality len lag t s) := by
  unfold execRxFrameEnd
  dsimp only
  split
  · exact ⟨_, rfl, ⟨rfl, rfl⟩⟩
  · exact ⟨_, rfl, .onlyIf ⟨rfl, rfl⟩ ⟨rfl, rfl⟩⟩

theorem execRxcSetup_goesOn (h : CmdHdr) (s : State) : GoesOn s (execRxcSetup h s) :=
  ⟨_, rfl, runCmd_keeps _ _ _ fun _ => checked_keeps _ ⟨rfl, rfl⟩⟩

theorem modifyRxc_keeps (b : Bytes) (s : State) : Keeps s (modifyRxc b s) := by
  unfold modifyRxc
  dsimp only
  split
  · exact .refl _
  · exact .ite ((restartChain_keeps ..).after ((abandonAll_keeps ..).after ⟨rfl, rfl⟩)) ⟨rfl, rfl⟩

theorem execRxcModify_goesOn (h : CmdHdr) (s : State) : GoesOn s (execRxcModify h s) :=
  ⟨_, rfl, runCmd_keeps _ _ _ fun _ => checked_keeps _ (modifyRxc_keeps ..)⟩

theorem releaseRxc_keeps (n : Nat) (s : State) : Keeps s (releaseRxc n s) :=
  ((((abandonAll_keeps ..).trans (Keeps.update)).trans (Keeps.update)).trans (dropCounters_keeps ..)).trans
    (dropCounters_keeps ..)

theorem execRxcRelease_goesOn (h : CmdHdr) (rx : Nat) (s : State) : GoesOn s (execRxcRelease h rx s) :=
  ⟨_, rfl, runCmd_keeps _ _ _ fun _ => checked_keeps _ (releaseRxc_keeps ..)⟩

theorem execRlCapture_goesOn (h : CmdHdr) (rx ring ratio samples : Nat) (s : State) :
    GoesOn s (execRlCapture h rx ring ratio samples s) :=
  ⟨_, rfl, runCmd_keeps _ _ _ fun _ => acceptLong_keeps _ _ _ _ _ fun _ _ => ⟨rfl, rfl⟩⟩

theorem captureSegment_keeps (rx n : Nat) (k : Capture) (s : State) : Keeps s (captureSegment rx n k s) :=
  .ite ((((enterBacklog_keeps ..).trans (progress_keeps ..)).trans (withBce_keeps ..)).trans (endLong_keeps ..))
    (((enterBacklog_keeps ..).trans (progress_keeps ..)).trans (withBce_keeps ..))

theorem execCaptureSegment_goesOn (rx segNo count : Nat) (t : Ns) (s : State) :
    GoesOn s (execCaptureSegment rx segNo count t s) := by
  unfold execCaptureSegment
  dsimp only
  split
  · exact ⟨_, rfl, ⟨rfl, rfl⟩⟩
  · exact ⟨_, rfl, .onlyIf ((captureSegment_keeps ..).after ⟨rfl, rfl⟩) ⟨rfl, rfl⟩⟩

end Sys2Proof.Machine
end

section
/-! SUPPORT. The commands of queues, sessions, memories and registers:
what keeps the queue and the fused identity. -/

namespace Sys2Proof.Machine

open Sys2Proof

set_option Elab.async false

/-! ### Queues -/

theorem execQueueSetup_goesOn (h : CmdHdr) (s : State) : GoesOn s (execQueueSetup h s) :=
  ⟨_, rfl, runCmd_keeps _ _ _ fun _ => checked_keeps _ ⟨rfl, rfl⟩⟩

theorem modifyQueue_keeps (b : Bytes) (s : State) : Keeps s (modifyQueue b s) := by
  unfold modifyQueue
  dsimp only
  split
  · exact ⟨rfl, rfl⟩
  · exact (noticeLive_keeps ..).after ((noticeLive_keeps ..).after ⟨rfl, rfl⟩)

theorem execQueueModify_goesOn (h : CmdHdr) (s : State) : GoesOn s (execQueueModify h s) :=
  ⟨_, rfl, runCmd_keeps _ _ _ fun _ => checked_keeps _ (modifyQueue_keeps ..)⟩

theorem queueReleaseOwn_keeps (h : CmdHdr) (n : Nat) (s : State) : (queueReleaseOwn h n s).Keeps s := by
  unfold queueReleaseOwn
  dsimp only
  split
  · exact Keeps.refl _
  · split
    · exact flushQueue_keeps ..
    · exact .ite ((flushQueue_keeps ..).trans (removeQueue_keeps ..)) ((flushQueue_keeps ..).trans (withQueue_keeps ..))

theorem execQueueRelease_goesOn (h : CmdHdr) (queue : Nat) (s : State) : GoesOn s (execQueueRelease h queue s) :=
  ⟨_, rfl, runCmd_keeps _ _ _ fun _ => queueReleaseOwn_keeps ..⟩

theorem queueFlushOwn_keeps (n : Nat) (s : State) : (queueFlushOwn n s).Keeps s := by
  unfold queueFlushOwn
  dsimp only
  split
  · exact .ite (flushQueue_keeps ..) (Keeps.refl _)
  · exact Keeps.refl _

theorem execQueueFlush_goesOn (h : CmdHdr) (queue : Nat) (s : State) : GoesOn s (execQueueFlush h queue s) :=
  ⟨_, rfl, runCmd_keeps _ _ _ fun _ => queueFlushOwn_keeps ..⟩

theorem queueQueryOwn_keeps (n : Nat) (s : State) : (queueQueryOwn n s).Keeps s := by
  unfold queueQueryOwn
  split
  · exact Keeps.refl _
  · exact Keeps.refl _

theorem execQueueQuery_goesOn (h : CmdHdr) (queue : Nat) (s : State) : GoesOn s (execQueueQuery h queue s) :=
  ⟨_, rfl, runCmd_keeps _ _ _ fun _ => queueQueryOwn_keeps ..⟩

theorem cellReserve_keeps (n cells : Nat) (streaming : Bool) (s : State) :
    Keeps s (cellReserve n cells streaming s) := by
  unfold cellReserve
  dsimp only
  split
  · exact .refl _
  · refine .ite ?_ ?_
    · exact .refl _
    · refine .ite ?_ ?_
      · exact .ite (sever_keeps ..) (.refl _)
      · refine .ite ?_ ?_
        · exact bump_keeps ..
        · split
          · exact .refl _
          · exact ⟨rfl, rfl⟩

theorem execCellReserve_goesOn (queue cells : Nat) (streaming : Bool) (s : State) :
    GoesOn s (execCellReserve queue cells streaming s) :=
  ⟨_, rfl, cellReserve_keeps ..⟩

theorem itemEndMark_keeps (n : Nat) (data : Bytes) (s : State) : Keeps s (itemEndMark n data s) := by
  unfold itemEndMark
  split
  · exact .refl _
  · refine .ite ?_ ?_
    · exact ⟨rfl, rfl⟩
    · split
      · exact .refl _
      · exact .ite (.refl _) ((linkItem_keeps ..).after ⟨rfl, rfl⟩)

theorem execItemEndMark_goesOn (queue : Nat) (data : Bytes) (s : State) : GoesOn s (execItemEndMark queue data s) :=
  ⟨_, rfl, itemEndMark_keeps ..⟩

theorem takeItem_keeps (n : Nat) (s : State) : Keeps s (takeItem n s) := by
  unfold takeItem
  split
  · exact .refl _
  · split
    · exact .ite (.refl _) (moveQueue_keeps ..)
    · exact .refl _

theorem execTake_goesOn (queue : Nat) (s : State) : GoesOn s (execTake queue s) :=
  ⟨_, rfl, takeItem_keeps ..⟩

theorem readWords_keeps (n words : Nat) (s : State) : Keeps s (readWords n words s) := by
  unfold readWords
  dsimp only
  split
  · exact .refl _
  · split
    · exact .refl _
    · exact ⟨rfl, rfl⟩

theorem execRead_goesOn (queue words : Nat) (s : State) : GoesOn s (execRead queue words s) :=
  ⟨_, rfl, readWords_keeps ..⟩

theorem finishItem_keeps (n : Nat) (s : State) : Keeps s (finishItem n s) := by
  unfold finishItem
  split
  · exact .refl _
  · split
    · exact .refl _
    · exact .ite (endTaken_keeps ..) (.refl _)

theorem execFinish_goesOn (queue : Nat) (s : State) : GoesOn s (execFinish queue s) :=
  ⟨_, rfl, finishItem_keeps ..⟩

theorem dropRest_keeps (n : Nat) (s : State) : Keeps s (dropRest n s) := by
  unfold dropRest
  split
  · exact .refl _
  · exact .ite (.refl _) ((bump_keeps ..).trans (endTaken_keeps ..))

theorem execDropRest_goesOn (queue : Nat) (s : State) : GoesOn s (execDropRest queue s) :=
  ⟨_, rfl, dropRest_keeps ..⟩

theorem abandonStaged_keeps (f i d : Nat) (s : State) : Keeps s (abandonStaged f i d s) :=
  (Keeps.update).after ((withQmg_keeps ..).after (.fold fun _ _ => ⟨rfl, rfl⟩))

theorem queueIntegrity_keeps (n : Nat) (place : IntegWhere) (cell : Nat) (s : State) :
    Keeps s (queueIntegrity n place cell s) := by
  unfold queueIntegrity
  dsimp only
  refine (wantSweep_keeps ..).after ?_
  split
  · exact (resetQueue_keeps ..).trans (integrityEvent_keeps ..)
  · exact (resetQueue_keeps ..).trans (integrityEvent_keeps ..)
  · exact (resetQueue_keeps ..).trans (integrityEvent_keeps ..)
  · exact (abandonStaged_keeps ..).trans (integrityEvent_keeps ..)
  · split
    · exact .refl _
    · split
      · exact .refl _
      · exact (finishRelease_keeps ..).after ((integrityEvent_keeps ..).after ⟨rfl, rfl⟩)
  · exact (integrityEvent_keeps ..).after ⟨rfl, rfl⟩

theorem execQueueIntegrity_goesOn (queue : Nat) (place : IntegWhere) (cell : Nat) (s : State) :
    GoesOn s (execQueueIntegrity queue place cell s) :=
  ⟨_, rfl, queueIntegrity_keeps ..⟩

theorem sweepStart_keeps (s : State) : Keeps s (sweepStart s) := by
  unfold sweepStart
  refine .ite (.refl s) ?_
  split
  · exact ⟨rfl, rfl⟩
  next begins => exact (beginLong_keeps begins).trans (withQmg_keeps ..)

theorem execSweepStart_goesOn (s : State) : GoesOn s (execSweepStart s) :=
  ⟨_, rfl, sweepStart_keeps ..⟩

theorem execQmgSweep_goesOn (h : CmdHdr) (s : State) : GoesOn s (execQmgSweep h s) :=
  ⟨_, rfl, runCmd_keeps _ _ _ fun _ => acceptLong_keeps _ _ _ _ _ fun _ _ => ⟨rfl, rfl⟩⟩

theorem sweepDone_keeps (s : State) : Keeps s (sweepDone s) := by
  unfold sweepDone
  dsimp only
  refine .ite ?_ ?_
  · exact .refl _
  · split
    · exact ⟨rfl, rfl⟩
    · exact (endLong_keeps ..).after ⟨rfl, rfl⟩

theorem execSweepDone_goesOn (s : State) : GoesOn s (execSweepDone s) :=
  ⟨_, rfl, sweepDone_keeps ..⟩

/-! ### Sessions and keys -/

theorem sessionOpenOwn_keeps (ring p : Nat) (s : State) : (sessionOpenOwn ring p s).Keeps s :=
  .ite (Keeps.refl _) (.ite (Keeps.refl _) (⟨rfl, rfl⟩))

theorem execSessionOpen_goesOn (h : CmdHdr) (privilege : Nat) (s : State) : GoesOn s (execSessionOpen h privilege s) :=
  ⟨_, rfl, runCmd_keeps _ _ _ fun _ => sessionOpenOwn_keeps ..⟩

theorem proofFailed_keeps (p : Nat) (s : State) : Keeps s (proofFailed p s) :=
  (crossed_keeps ..).after ⟨rfl, rfl⟩

theorem openSession_keeps (ring p : Nat) (ks : Bytes) (s : State) : Keeps s (openSession ring p ks s) :=
  .ite ⟨rfl, rfl⟩ ⟨rfl, rfl⟩

theorem sessionProveOwn_keeps (ring : Nat) (b : Bytes) (s : State) : (sessionProveOwn ring b s).Keeps s :=
  .ite (Keeps.refl _) (.ite (⟨rfl, rfl⟩) (.ite ((proofFailed_keeps ..).after ⟨rfl, rfl⟩) (.ite (Keeps.refl _)
    ((openSession_keeps ..).after ⟨rfl, rfl⟩))))

theorem execSessionProve_goesOn (h : CmdHdr) (s : State) : GoesOn s (execSessionProve h s) :=
  ⟨_, rfl, runCmd_keeps _ _ _ fun _ => sessionProveOwn_keeps ..⟩

theorem execSessionClose_goesOn (h : CmdHdr) (s : State) : GoesOn s (execSessionClose h s) :=
  ⟨_, rfl, runCmd_keeps _ _ _ fun _ => checked_keeps _ (endSession_keeps ..)⟩

theorem execSessionIdleTimeout_goesOn (ring : Nat) (t : Ns) (s : State) :
    GoesOn s (execSessionIdleTimeout ring t s) := by
  unfold execSessionIdleTimeout
  dsimp only
  refine ⟨_, rfl, ?_⟩
  split
  · exact .onlyIf ((endSession_keeps ..).after ⟨rfl, rfl⟩) ⟨rfl, rfl⟩
  · exact ⟨rfl, rfl⟩

theorem execNonceExpiry_goesOn (ring : Nat) (t : Ns) (s : State) : GoesOn s (execNonceExpiry ring t s) := by
  unfold execNonceExpiry
  dsimp only
  refine ⟨_, rfl, ?_⟩
  split
  · exact .onlyIf ⟨rfl, rfl⟩ ⟨rfl, rfl⟩
  · exact ⟨rfl, rfl⟩

theorem execBackoffExpiry_goesOn (privilege : Nat) (t : Ns) (s : State) :
    GoesOn s (execBackoffExpiry privilege t s) := by
  unfold execBackoffExpiry
  dsimp only
  refine ⟨_, rfl, ?_⟩
  split
  · exact .onlyIf ((noticeLive_keeps ..).after ⟨rfl, rfl⟩) ⟨rfl, rfl⟩
  · exact ⟨rfl, rfl⟩

theorem enrol_keeps (ring : Nat) (b : Bytes) (s : State) : Keeps s (enrol ring b s) :=
  (lockChange_keeps ..).after ⟨rfl, rfl⟩

theorem execOwnerEnrol_goesOn (h : CmdHdr) (s : State) : GoesOn s (execOwnerEnrol h s) :=
  ⟨_, rfl, runCmd_keeps _ _ _ fun _ => checked_keeps _ (enrol_keeps ..)⟩

theorem Sec.identity_withKey (c : Sec) (which : Nat) (v : Bytes) : (c.withKey which v).identity = c.identity := by
  unfold Sec.withKey
  split
  all_goals rfl

theorem setKey_keeps (ring : Nat) (b : Bytes) (s : State) : Keeps s (setKey ring b s) := by
  unfold setKey
  split
  · exact .refl s
  next ses _ =>
    have kept {f : Sec → Sec} (hf : ∀ c, (f c).identity = c.identity) : Keeps s (withSec f (endpWrite s)) := ⟨rfl, hf _⟩
    refine .ite ((kept ?_).trans ((noticeLive_keeps ..).trans (.fold fun t r => endSession_keeps r 6 t))) (kept ?_)
    all_goals exact fun c => Sec.identity_withKey c ..

theorem execKeySet_goesOn (h : CmdHdr) (s : State) : GoesOn s (execKeySet h s) :=
  ⟨_, rfl, runCmd_keeps _ _ _ fun _ => checked_keeps _ (setKey_keeps ..)⟩

theorem expireUnlock_keeps (s : State) : Keeps s (expireUnlock s) := by
  unfold expireUnlock
  split
  · exact .onlyIf (relock_keeps ..) (.refl _)
  · exact .refl _

theorem unlockSetup_keeps (ring : Nat) (s : State) : Keeps s (unlockSetup ring s) :=
  .ite ⟨rfl, rfl⟩ ((lockChange_keeps ..).after ⟨rfl, rfl⟩)

theorem setupUnlockOwn_keeps (ring : Nat) (s0 : State) : (setupUnlockOwn ring s0).Keeps s0 :=
  .ite ((expireUnlock_keeps ..).trans (unlockSetup_keeps ..)) (expireUnlock_keeps ..)

theorem execSetupUnlock_goesOn (h : CmdHdr) (s : State) : GoesOn s (execSetupUnlock h s) :=
  ⟨_, rfl, runCmd_keeps _ _ _ fun _ => setupUnlockOwn_keeps ..⟩

theorem lockSetup_keeps (ring : Nat) (s : State) : Keeps s (lockSetup ring s) :=
  relock_keeps ..

theorem execSetupLock_goesOn (h : CmdHdr) (s : State) : GoesOn s (execSetupLock h s) :=
  ⟨_, rfl, runCmd_keeps _ _ _ fun _ => checked_keeps_of _ ((expireUnlock_keeps ..).trans (lockSetup_keeps ..))
    (expireUnlock_keeps ..)⟩

theorem execUnlockExpiry_goesOn (t : Ns) (s : State) : GoesOn s (execUnlockExpiry t s) :=
  ⟨_, rfl, (expireUnlock_keeps ..).after ⟨rfl, rfl⟩⟩

theorem writeBlock_keeps (b : Bytes) (s : State) : Keeps s (writeBlock b s) := ⟨rfl, rfl⟩

theorem execIdKeys_goesOn (h : CmdHdr) (s : State) : GoesOn s (execIdKeys h s) :=
  ⟨_, rfl, runCmd_keeps _ _ _ fun _ => writeBlock_keeps ..⟩

theorem execAttest_goesOn (h : CmdHdr) (challenge : Bytes) (s : State) : GoesOn s (execAttest h challenge s) :=
  ⟨_, rfl, runCmd_keeps _ _ _ fun _ => writeBlock_keeps ..⟩

theorem mbxEnd_keeps (status : Nat) (s : State) : Keeps s (mbxEnd status s) :=
  ⟨rfl, rfl⟩

theorem execMbxIdKeys_goesOn (writable : Bool) (s : State) : GoesOn s (execMbxIdKeys writable s) :=
  ⟨_, rfl, .onlyIf (.ite ⟨rfl, rfl⟩ ⟨rfl, rfl⟩) (.refl _)⟩

theorem execMbxOwnerEnrol_goesOn (block : Option Bytes) (s : State) : GoesOn s (execMbxOwnerEnrol block s) :=
  ⟨_, rfl, .onlyIf ((mbxEnd_keeps ..).after (.onlyIf (enrol_keeps ..) (.refl _))) (.refl _)⟩

theorem execUserKernelsLoad_goesOn (h : CmdHdr) (s : State) : GoesOn s (execUserKernelsLoad h s) :=
  ⟨_, rfl, runCmd_keeps _ _ _ fun _ => acceptLong_keeps _ _ _ _ _ fun _ _ => ⟨rfl, rfl⟩⟩

theorem userLoadDone_keeps (s : State) : Keeps s (userLoadDone s) := by
  unfold userLoadDone
  dsimp only
  split
  · exact .refl _
  · split
    · exact (endLong_keeps ..).after ⟨rfl, rfl⟩
    · exact (endLong_keeps ..).after ⟨rfl, rfl⟩

theorem execUserKernelsLoadDone_goesOn (s : State) : GoesOn s (execUserKernelsLoadDone s) :=
  ⟨_, rfl, userLoadDone_keeps ..⟩

theorem execUserKernelsClear_goesOn (h : CmdHdr) (s : State) : GoesOn s (execUserKernelsClear h s) :=
  ⟨_, rfl, runCmd_keeps _ _ _ fun _ => checked_keeps _ ⟨rfl, rfl⟩⟩

/-! ### Memories -/

theorem putBlock_keeps (b : Bytes) (guard : Nat) (s : State) : Keeps s (putBlock b guard s) := by
  unfold putBlock
  dsimp only
  split
  · exact ⟨rfl, rfl⟩
  · exact ⟨rfl, rfl⟩

theorem epdPutOwn_keeps (b : Bytes) (s : State) : (epdPutOwn b s).Keeps s :=
  .ite (putBlock_keeps ..) (Keeps.refl _)

theorem execEpdPut_goesOn (h : CmdHdr) (s : State) : GoesOn s (execEpdPut h s) :=
  ⟨_, rfl, runCmd_keeps _ _ _ fun _ => epdPutOwn_keeps ..⟩

theorem deleteEntry_keeps (n : Nat) (s : State) : Keeps s (deleteEntry n s) :=
  .ite ⟨rfl, rfl⟩ ⟨rfl, rfl⟩

theorem epdDeleteOwn_keeps (addr : BitVec 64) (s : State) : (epdDeleteOwn addr s).Keeps s := by
  unfold epdDeleteOwn
  split
  · exact Keeps.refl _
  · exact deleteEntry_keeps ..

theorem execEpdDelete_goesOn (h : CmdHdr) (addr : BitVec 64) (s : State) : GoesOn s (execEpdDelete h addr s) :=
  ⟨_, rfl, runCmd_keeps _ _ _ fun _ => epdDeleteOwn_keeps ..⟩

theorem epdGetOwn_keeps (addr : BitVec 64) (s : State) : (epdGetOwn addr s).Keeps s := by
  unfold epdGetOwn
  split
  · exact Keeps.refl _
  · exact writeBlock_keeps ..

theorem execEpdGet_goesOn (h : CmdHdr) (addr : BitVec 64) (s : State) : GoesOn s (execEpdGet h addr s) :=
  ⟨_, rfl, runCmd_keeps _ _ _ fun _ => epdGetOwn_keeps ..⟩

theorem execEpdLoad_goesOn (h : CmdHdr) (count : Nat) (s : State) : GoesOn s (execEpdLoad h count s) :=
  ⟨_, rfl, runCmd_keeps _ _ _ fun _ => acceptLong_keeps _ _ _ _ _ fun _ _ => ⟨rfl, rfl⟩⟩

theorem loadEntries_keeps (n i : Nat) (b : Bytes) (s : State) : Keeps s (loadEntries n i b s).2.2 := by
  induction n generalizing i b s with
  | zero => exact .refl s
  | succ k ih =>
    unfold loadEntries
    dsimp only
    split
    · exact (putBlock_keeps ..).trans (ih ..)
    · exact .refl s

theorem loadDone_keeps (s : State) : Keeps s (loadDone s) := by
  unfold loadDone
  split
  · exact .refl _
  · exact (endLong_keeps ..).after ((withLong_keeps ..).after ((loadEntries_keeps ..).after ⟨rfl, rfl⟩))

theorem execEpdLoadDone_goesOn (s : State) : GoesOn s (execEpdLoadDone s) :=
  ⟨_, rfl, .onlyIf (loadDone_keeps ..) (.refl _)⟩

theorem execEpdExport_goesOn (h : CmdHdr) (count : Nat) (s : State) : GoesOn s (execEpdExport h count s) :=
  ⟨_, rfl, runCmd_keeps _ _ _ fun _ => acceptLong_keeps _ _ _ _ _ fun _ _ => ⟨rfl, rfl⟩⟩

theorem exportDone_keeps (s : State) : Keeps s (exportDone s) := by
  unfold exportDone
  dsimp only
  split
  · exact .refl _
  · exact (endLong_keeps ..).after ⟨rfl, rfl⟩

theorem execEpdExportDone_goesOn (s : State) : GoesOn s (execEpdExportDone s) :=
  ⟨_, rfl, .onlyIf (exportDone_keeps ..) (.refl _)⟩

theorem execEpdRebuild_goesOn (h : CmdHdr) (s : State) : GoesOn s (execEpdRebuild h s) :=
  ⟨_, rfl, runCmd_keeps _ _ _ fun _ => acceptLong_keeps _ _ _ _ _ fun _ _ => ⟨rfl, rfl⟩⟩

theorem rebuildSwitch_keeps (s : State) : Keeps s (rebuildSwitch s) := by
  unfold rebuildSwitch
  dsimp only
  split
  · exact .refl _
  · split
    · exact ⟨rfl, rfl⟩
    · exact (endLong_keeps ..).after ⟨rfl, rfl⟩

theorem execEpdRebuildSwitch_goesOn (s : State) : GoesOn s (execEpdRebuildSwitch s) :=
  ⟨_, rfl, .onlyIf (rebuildSwitch_keeps ..) (.refl _)⟩

theorem execEpdClear_goesOn (h : CmdHdr) (s : State) : GoesOn s (execEpdClear h s) :=
  ⟨_, rfl, runCmd_keeps _ _ _ fun _ => ⟨rfl, rfl⟩⟩

theorem withDmc_keeps (f : Dmc → Dmc) (s : State) : Keeps s (withDmc f s) :=
  ⟨rfl, rfl⟩

theorem execMemScrub_goesOn (h : CmdHdr) (region : Nat) (s : State) : GoesOn s (execMemScrub h region s) :=
  ⟨_, rfl, runCmd_keeps _ _ _ fun _ => acceptLong_keeps _ _ _ _ _ fun _ _ => ⟨rfl, rfl⟩⟩

theorem dramUeNotice_keeps (chan reason addr : Nat) (s : State) : Keeps s (dramUeNotice chan reason addr s) :=
  crossed_keeps ..

theorem repairRow_keeps (chan row addr : Nat) (s : State) : Keeps s (repairRow chan row addr s) :=
  .ite (.refl _) (.ite ⟨rfl, rfl⟩ (dramUeNotice_keeps ..))

theorem correctedRow_keeps (s : State) (e : Nat × Nat) : Keeps s (correctedRow s e) :=
  .ite ((repairRow_keeps ..).after ⟨rfl, rfl⟩) ⟨rfl, rfl⟩

theorem correctedVpe_keeps (n : Nat) (s : State) : Keeps s (correctedVpe n s) :=
  .ite ((bump_keeps ..).trans (putVpe_keeps ..)) (bump_keeps ..)

theorem correctedAt_keeps (region : Nat) (s : State) (e : Nat × Nat) : Keeps s (correctedAt region s e) := by
  unfold correctedAt
  split
  · exact bump_keeps ..
  · exact bump_keeps ..
  · exact correctedVpe_keeps ..
  · exact bump_keeps ..
  · exact bump_keeps ..

theorem scrubPass_keeps (region : Nat) (corrected : List (Nat × Nat)) (s : State) :
    Keeps s (scrubPass region corrected s) := by
  unfold scrubPass
  dsimp only
  split
  · exact (withDmc_keeps ..).after (.ite (Keeps.after (.fold fun _ _ => correctedRow_keeps ..) (.fold fun _ _ =>
      correctedAt_keeps ..)) (.fold fun _ _ => correctedAt_keeps ..))
  · exact (endLong_keeps ..).after ((withLong_keeps ..).after ((withDmc_keeps ..).after (.ite (Keeps.after (.fold fun _
      _ => correctedRow_keeps ..) (.fold fun _ _ => correctedAt_keeps ..)) (.fold fun _ _ => correctedAt_keeps ..))))

theorem execScrubPass_goesOn (region : Nat) (corrected : List (Nat × Nat)) (s : State) :
    GoesOn s (execScrubPass region corrected s) :=
  ⟨_, rfl, .onlyIf (scrubPass_keeps ..) (.refl _)⟩

theorem timingCorrect_keeps (chan : Nat) (c : Int) (s : State) : Keeps s (timingCorrect chan c s) :=
  .ite ⟨rfl, rfl⟩ ⟨rfl, rfl⟩

theorem execDramTimingCorrect_goesOn (channel : Nat) (correction : Int) (s : State) :
    GoesOn s (execDramTimingCorrect channel correction s) :=
  ⟨_, rfl, .onlyIf (timingCorrect_keeps ..) (.refl _)⟩

theorem dramUe_keeps (chan addr : Nat) (s : State) : Keeps s (dramUe chan addr s) :=
  (repairRow_keeps ..).after ((dramUeNotice_keeps ..).after ((withLife_keeps ..).after ((bump_keeps ..).after ⟨rfl,
    rfl⟩)))

theorem vpeFaulted_keeps (n : Nat) (k : FaultKind) (s : State) : Keeps s (vpeFaulted n k s) :=
  .ite ⟨rfl, rfl⟩ (.refl _)

theorem echoLost_keeps (n : Nat) (s : State) : Keeps s (echoLost n s) :=
  .ite ((bump_keeps ..).after ⟨rfl, rfl⟩) (.refl _)

theorem voidOp_keeps (f i d : Nat) (s : State) : Keeps s (voidOp f i d s) := by
  unfold voidOp
  dsimp only
  split
  · exact .ite (.refl _) ((withOp_keeps ..).after ((freeStaged_keeps ..).after (.ite (.refl _) ((bump_keeps ..).trans
      (bump_keeps ..)))))
  · exact .refl _

theorem flowFault_keeps (f : Nat) (s : State) : Keeps s (flowFault f s) := by
  unfold flowFault
  split
  · exact .refl _
  · exact (round_keeps ..).after (Keeps.after (.fold fun _ _ => voidOp_keeps ..) ⟨rfl, rfl⟩)

theorem backlogLost_keeps (s : State) : Keeps s (backlogLost s) := by
  unfold backlogLost
  dsimp only
  split
  · exact .refl _
  · exact (finishFlushes_keeps ..).after ((countRecDrop_keeps ..).after ((backlogMoved_keeps ..).after (.ite ⟨rfl, rfl⟩
      ⟨rfl, rfl⟩)))

theorem eventLost_keeps (n : Nat) (s : State) : Keeps s (eventLost n s) := by
  unfold eventLost
  dsimp only
  split
  · exact .refl _
  · exact .ite (.refl _) ((bump_keeps ..).after ⟨rfl, rfl⟩)

theorem entryLost_keeps (slot : Nat) (s : State) : Keeps s (entryLost slot s) := by
  unfold entryLost
  split
  · exact .refl _
  · exact (raise_keeps ..).after ⟨rfl, rfl⟩

theorem indexLost_keeps (addr : Nat) (s : State) : Keeps s (indexLost addr s) :=
  .ite ⟨rfl, rfl⟩ ⟨rfl, rfl⟩

theorem areaLost_keeps (area : Nat) (s : State) : Keeps s (areaLost area s) := by
  unfold areaLost
  dsimp only
  split
  · exact ⟨rfl, rfl⟩
  · exact ⟨rfl, rfl⟩
  · exact ⟨rfl, rfl⟩
  · exact ⟨rfl, rfl⟩
  · exact ⟨rfl, rfl⟩
  · exact ⟨rfl, rfl⟩
  · exact .refl _

theorem endpaperUe_keeps (area : Nat) (both : Bool) (s : State) : Keeps s (endpaperUe area both s) :=
  .ite (.ite ((areaLost_keeps ..).trans (Keeps.update)) ((areaLost_keeps ..).trans (raiseStart_keeps ..))) (.refl _)

theorem memoryUe_keeps (place : UeWhere) (s : State) : Keeps s (memoryUe place s) := by
  unfold memoryUe
  dsimp only
  split
  · exact vpeFaulted_keeps ..
  · exact vpeFaulted_keeps ..
  · exact (echoLost_keeps ..).trans (bump_keeps ..)
  · exact (queueIntegrity_keeps ..).after ⟨rfl, rfl⟩
  · exact flowFault_keeps ..
  · exact (dramUe_keeps ..).trans (echoLost_keeps ..)
  · exact (dramUe_keeps ..).trans (entryLost_keeps ..)
  · exact (dramUe_keeps ..).trans (indexLost_keeps ..)
  · exact (dramUe_keeps ..).trans (backlogLost_keeps ..)
  · exact (dramUe_keeps ..).trans (eventLost_keeps ..)
  · exact (dramUe_keeps ..).trans (withBce_keeps ..)
  · exact endpaperUe_keeps ..

theorem execMemoryUe_goesOn (place : UeWhere) (s : State) : GoesOn s (execMemoryUe place s) :=
  ⟨_, rfl, .onlyIf (memoryUe_keeps ..) (.refl _)⟩

theorem storeLife_keeps (s : State) : Keeps s (storeLife s) :=
  .ite ⟨rfl, rfl⟩ ⟨rfl, rfl⟩

theorem wearCheck_keeps (s : State) : Keeps s (wearCheck s) :=
  .ite ⟨rfl, rfl⟩ ((crossed_keeps ..).after ⟨rfl, rfl⟩)

theorem execLifetimeWrite_goesOn (t : Ns) (s : State) : GoesOn s (execLifetimeWrite t s) :=
  ⟨_, rfl, .onlyIf ((wearCheck_keeps ..).after ((storeLife_keeps ..).after ⟨rfl, rfl⟩)) ⟨rfl, rfl⟩⟩

/-! ### Register reads -/

theorem captureHi_keeps (s : State) (off : Nat) : Keeps s (captureHi s off) := by
  unfold captureHi
  dsimp only
  split
  · exact .refl _
  · split
    · exact .ite ⟨rfl, rfl⟩ (.refl _)
    · exact .ite ⟨rfl, rfl⟩ (.refl _)

theorem execLoReadCapture_goesOn (offset : Nat) (s : State) : GoesOn s (execLoReadCapture offset s) :=
  ⟨_, rfl, (captureHi_keeps ..).trans (Keeps.update)⟩

/-! ### Register writes -/

theorem stopPort_keeps (p : Nat) (s : State) : Keeps s (stopPort p s) :=
  (((((wireDone_keeps ..).trans (beginWake_keeps ..)).trans (withPort_keeps ..)).trans (dropQueued_keeps ..)).trans
    (noticeLive_keeps ..)).trans (updateRefs_keeps ..)

theorem pairChanged_keeps (n : Nat) (old new : BitVec 32) (s : State) : Keeps s (pairChanged n old new s) :=
  .ite ⟨rfl, rfl⟩ (.ite (.refl _) ⟨rfl, rfl⟩)

theorem tdmModeChanged_keeps (t old new : Nat) (s : State) : Keeps s (tdmModeChanged t old new s) :=
  .ite (.refl _) (.ite ((withClk_keeps ..).after ((noticeLive_keeps ..).after ⟨rfl, rfl⟩)) ((noticeLive_keeps ..).after
    ⟨rfl, rfl⟩))

theorem twinChanged_keeps (s : State) : Keeps s (twinChanged s) :=
  .ite (.refl _) ((noticeLive_keeps ..).after ⟨rfl, rfl⟩)

theorem endIdle_keeps (s : State) : Keeps s (endIdle s) :=
  .fold fun _ _ => endSession_keeps ..

theorem regAfter_keeps (r : RegName) (i : Nat) (old new : BitVec 32) (s : State) :
    Keeps s (regAfter r i old new s) := by
  unfold regAfter
  split
  · exact flushGlobal_keeps ..
  · exact .ite (stopPort_keeps ..) (.refl _)
  · exact pairChanged_keeps ..
  · exact (tdmModeChanged_keeps ..).trans (updateRefs_keeps ..)
  · exact .ite (.refl _) ⟨rfl, rfl⟩
  · exact updateRefs_keeps ..
  · exact updateRefs_keeps ..
  · exact twinChanged_keeps ..
  · exact endIdle_keeps ..
  · exact .refl _

theorem writePolarity_keeps (v : BitVec 32) (s : State) : Keeps s (writePolarity v s) :=
  .ite ⟨rfl, rfl⟩ ((refuse_keeps ..).after ⟨rfl, rfl⟩)

theorem checkedWrite_keeps (r : RegName) (i : Nat) (locked : Bool) (v : BitVec 32) (s : State) :
    Keeps s (checkedWrite r i locked v s) :=
  .ite ((regAfter_keeps ..).after ⟨rfl, rfl⟩) (refuse_keeps ..)

theorem storedWrite_keeps (r : RegName) (i : Nat) (v : BitVec 32) (s : State) : Keeps s (storedWrite r i v s) :=
  .ite (.onlyIf (bump_keeps ..) (.refl _)) (.ite ((writePolarity_keeps ..).after (.onlyIf (bump_keeps ..) (.refl _)))
    ((checkedWrite_keeps ..).after (.onlyIf (bump_keeps ..) (.refl _))))

theorem recoveryLoad_keeps (image : Bytes) (s : State) : Keeps s (recoveryLoad image s) := by
  unfold recoveryLoad
  dsimp only
  split
  · exact ⟨rfl, rfl⟩
  · exact ⟨rfl, rfl⟩

theorem execRecoveryLoad_goesOn (image : Bytes) (s : State) : GoesOn s (execRecoveryLoad image s) :=
  ⟨_, rfl, .onlyIf (recoveryLoad_keeps ..) (.refl _)⟩

theorem writeRecov_keeps (v : BitVec 32) (s : State) : Keeps s (writeRecov v s) :=
  .ite ((storedWrite_keeps ..).trans (recoveryLoad_keeps ..)) (storedWrite_keeps ..)

theorem writeMbxCmd_keeps (v : BitVec 32) (s : State) : Keeps s (writeMbxCmd v s) :=
  .ite (refuse_keeps ..) (.ite (.onlyIf ⟨rfl, rfl⟩ (.refl _)) (.ite (.onlyIf ⟨rfl, rfl⟩ (.refl _)) ⟨rfl, rfl⟩))

theorem writeRingCmd_keeps (v : BitVec 32) (s : State) : Keeps s (writeRingCmd v s) := by
  unfold writeRingCmd
  dsimp only
  refine .ite ?_ ?_
  · exact refuse_keeps ..
  · split
    · exact ringCreate_keeps ..
    · exact ringReset_keeps ..
    · exact ringDestroy_keeps ..
    · exact refuse_keeps ..

theorem writeRlCtrl_keeps (n : Nat) (v : BitVec 32) (s : State) : Keeps s (writeRlCtrl n v s) :=
  .ite (.onlyIf (bump_keeps ..) (.refl _)) (.ite (linkEnable_keeps ..) (linkDisable_keeps ..))

theorem writePair_keeps (lo hi : RegName) (v : Nat) (s : State) : Keeps s (writePair lo hi v s) :=
  .ite ⟨rfl, rfl⟩ (.ite ⟨rfl, rfl⟩ ((refuse_keeps ..).after ⟨rfl, rfl⟩))

theorem writeReg_keeps (r : RegName) (i : Nat) (v : BitVec 32) (s : State) : Keeps s (writeReg r i v s) := by
  unfold writeReg
  dsimp only
  split
  · exact ⟨rfl, rfl⟩
  · exact writePair_keeps ..
  · split
    · exact writeRecov_keeps ..
    · exact writeMbxCmd_keeps ..
    · exact writeRingCmd_keeps ..
    · exact ⟨rfl, rfl⟩
    · exact writeRlCtrl_keeps ..
    · exact .ite (.refl _) (storedWrite_keeps ..)

theorem msixWrite_keeps (off : Nat) (v : BitVec 32) (s : State) : Keeps s (msixWrite off v s) :=
  .ite ⟨rfl, rfl⟩ (.refl _)

theorem barWrite_keeps (off : Nat) (v : BitVec 32) (s : State) : Keeps s (barWrite off v s) := by
  unfold barWrite
  refine .ite ?_ ?_
  · exact .onlyIf (msixWrite_keeps ..) (.refl _)
  · split
    · exact .refl _
    · exact .ite (writeReg_keeps ..) (.refl _)

theorem barWriteWide_keeps (off : Nat) (v : BitVec 64) (s : State) : Keeps s (barWriteWide off v s) := by
  unfold barWriteWide
  dsimp only
  split
  · split
    · exact .ite (writePair_keeps ..) (.refl _)
    · exact (barWrite_keeps ..).trans (barWrite_keeps ..)
  · exact (barWrite_keeps ..).trans (barWrite_keeps ..)

theorem execRegisterWrite_goesOn (offset : Nat) (wide : Bool) (value : BitVec 64) (s : State) :
    GoesOn s (execRegisterWrite offset wide value s) :=
  ⟨_, rfl, .ite (bump_keeps ..) (.ite (barWriteWide_keeps ..) (barWrite_keeps ..))⟩

theorem execEthPortDisable_goesOn (port : Nat) (value : BitVec 32) (s : State) :
    GoesOn s (execEthPortDisable port value s) :=
  ⟨_, rfl, .onlyIf (barWrite_keeps ..) (.refl _)⟩

/-! ### The committed configuration -/

theorem commitOwn_keeps (s : State) : (commitOwn s).Keeps s :=
  .ite (Keeps.refl _) (⟨⟨rfl, rfl⟩, fun _ => wearCheck_keeps ..⟩)

theorem execCommit_goesOn (h : CmdHdr) (s : State) : GoesOn s (execCommit h s) :=
  ⟨_, rfl, runCmd_keeps _ _ _ fun _ => commitOwn_keeps ..⟩

theorem revertReg_keeps (s : State) (off : Nat) : Keeps s (revertReg s off) := by
  unfold revertReg
  dsimp only
  split
  · exact .refl _
  · exact .ite (.ite (linkEnable_keeps ..) (linkDisable_keeps ..)) (.ite ((regAfter_keeps ..).after ⟨rfl, rfl⟩) (.refl
      _))

theorem revertAll_keeps (s : State) : Keeps s (revertAll s) :=
  Keeps.after (.fold fun _ _ => ⟨rfl, rfl⟩) (Keeps.after (.fold fun _ _ => ⟨rfl, rfl⟩) (.fold fun _ _ =>
    revertReg_keeps ..))

theorem execRevert_goesOn (h : CmdHdr) (s : State) : GoesOn s (execRevert h s) :=
  ⟨_, rfl, runCmd_keeps _ _ _ fun _ => revertAll_keeps ..⟩

/-! ### Voice channels -/

theorem setupChan_keeps (ring : Nat) (b : Bytes) (s : State) : Keeps s (setupChan ring b s) :=
  (addFlow_keeps ..).after ⟨rfl, rfl⟩

theorem execChanSetup_goesOn (h : CmdHdr) (s : State) : GoesOn s (execChanSetup h s) :=
  ⟨_, rfl, runCmd_keeps _ _ _ fun _ => checked_keeps _ (setupChan_keeps ..)⟩

theorem execChanModify_goesOn (h : CmdHdr) (s : State) : GoesOn s (execChanModify h s) :=
  ⟨_, rfl, (holdFreed_keeps ..).after (runCmd_keeps _ _ _ fun _ => checked_keeps _ ⟨rfl, rfl⟩)⟩

theorem chanReleaseOwn_keeps (h : CmdHdr) (n : Nat) (s : State) : (chanReleaseOwn h n s).Keeps s := by
  unfold chanReleaseOwn
  split
  · exact Keeps.refl _
  · exact .ite (Keeps.refl _) (⟨rfl, rfl⟩)

theorem execChanRelease_goesOn (h : CmdHdr) (channel : Nat) (s : State) : GoesOn s (execChanRelease h channel s) :=
  ⟨_, rfl, runCmd_keeps _ _ _ fun _ => chanReleaseOwn_keeps ..⟩

theorem execDtmfRegenTimeout_goesOn (channel : Nat) (t : Ns) (s : State) :
    GoesOn s (execDtmfRegenTimeout channel t s) :=
  ⟨_, rfl, .onlyIf ⟨rfl, rfl⟩ ⟨rfl, rfl⟩⟩

theorem releaseDisabler_keeps (n : Nat) (s : State) : Keeps s (releaseDisabler n s) :=
  .ite ((chanEvent_keeps ..).after ⟨rfl, rfl⟩) ⟨rfl, rfl⟩

theorem execToneDisablerRelease_goesOn (channel : Nat) (t : Ns) (s : State) :
    GoesOn s (execToneDisablerRelease channel t s) :=
  ⟨_, rfl, .onlyIf ((releaseDisabler_keeps ..).after ⟨rfl, rfl⟩) ⟨rfl, rfl⟩⟩

end Sys2Proof.Machine
end

section
/-! SUPPORT. Resets, transmission, images, TDM, teleprotection and the twin link:
what keeps the queue and the fused identity. -/

namespace Sys2Proof.Machine

open Sys2Proof

set_option Elab.async false

/-! ### Resets and start-up -/

theorem coldState_keeps (s : State) : Keeps s (coldState s) :=
  ⟨rfl, rfl⟩

theorem execPowerOnReset_goesOn (asserted factoryLow : Bool) (straps : BitVec 4) (s : State) :
    GoesOn s (execPowerOnReset asserted factoryLow straps s) :=
  ⟨_, rfl, .ite (.onlyIf ⟨rfl, rfl⟩ (.refl _)) (.onlyIf ⟨rfl, rfl⟩ (.refl _))⟩

theorem execPinReset_goesOn (lowNs : Ns) (straps : BitVec 4) (s : State) : GoesOn s (execPinReset lowNs straps s) :=
  ⟨_, rfl, .ite (.refl _) (.ite ⟨rfl, rfl⟩ (.onlyIf ⟨rfl, rfl⟩ ⟨rfl, rfl⟩))⟩

theorem softReset_keeps (s : State) : Keeps s (softReset s) :=
  (Keeps.update).after ((coldState_keeps ..).after ((storeLife_keeps ..).after ⟨rfl, rfl⟩))

theorem execResetSoft_goesOn (h : CmdHdr) (s : State) : GoesOn s (execResetSoft h s) :=
  ⟨_, rfl, runCmd_keeps _ _ _ fun _ => ⟨.refl _, fun _ => softReset_keeps ..⟩⟩

theorem resetCluster_keeps (c : Nat) (s : State) : Keeps s (resetCluster c s) := by
  unfold resetCluster
  refine Keeps.trans ?_ (round_keeps _)
  have ops {f : State → Nat × Flow × Inst × Op → State} (hf : ∀ t e, Keeps t (f t e)) :
      Keeps s ((allOps s).foldl f s) := .fold hf
  refine (ops fun t e => ?_).trans .update
  exact .ite (voidOp_keeps ..) (.ite (withOp_keeps ..) (.refl _))

theorem resetEth_keeps (p : Nat) (s : State) : Keeps s (resetEth p s) := by
  unfold resetEth
  dsimp only
  refine (dropQueued_keeps ..).after ?_
  split
  · exact ((wireDone_keeps ..).trans (withPort_keeps ..)).trans (dropDown_keeps ..)
  · exact wireDone_keeps ..

theorem resetDomain_keeps (domain object : Nat) (s0 : State) : Keeps s0 (resetDomain domain object s0) := by
  unfold resetDomain
  dsimp only
  split
  · exact (resetCluster_keeps ..).after ⟨rfl, rfl⟩
  · exact (resetEth_keeps ..).after ⟨rfl, rfl⟩
  · exact ⟨rfl, rfl⟩
  · exact (realign_keeps ..).after ⟨rfl, rfl⟩
  · exact ⟨rfl, rfl⟩

theorem execResetDomain_goesOn (h : CmdHdr) (domain object : Nat) (s : State) :
    GoesOn s (execResetDomain h domain object s) :=
  ⟨_, rfl, runCmd_keeps _ _ _ fun _ => .ite (⟨.refl _, fun _ => resetDomain_keeps ..⟩) (Keeps.refl _)⟩

theorem muteHeld_keeps (s : State) : Keeps s (muteHeld s) :=
  ⟨rfl, rfl⟩

theorem imageRestart_keeps (cause : Nat) (s : State) : Keeps s (imageRestart cause s) :=
  (raise_keeps ..).after ((Keeps.update).after ((muteHeld_keeps ..).after (.fold fun _ _ => by
      split
      · exact completeHeld_keeps ..
      · exact .refl _)))

theorem execResetImage_goesOn (h : CmdHdr) (s : State) : GoesOn s (execResetImage h s) :=
  ⟨_, rfl, runCmd_keeps _ _ _ fun _ => ⟨.refl _, fun _ => imageRestart_keeps ..⟩⟩

theorem execWatchdogRestart_goesOn (s : State) : GoesOn s (execWatchdogRestart s) :=
  ⟨_, rfl, .onlyIf (imageRestart_keeps ..) (.refl _)⟩

theorem enterStandby_keeps (s : State) : Keeps s (enterStandby s) :=
  ((storeLife_keeps ..).trans (coldState_keeps ..)).trans (Keeps.update)

theorem execStandbyEnter_goesOn (h : CmdHdr) (s : State) : GoesOn s (execStandbyEnter h s) :=
  ⟨_, rfl, runCmd_keeps _ _ _ fun _ => ⟨.refl _, fun _ => enterStandby_keeps ..⟩⟩

theorem endMedia_keeps (s : State) : Keeps s (endMedia s) :=
  (driveBalls_keeps ..).after ((Keeps.update).after (Keeps.after (.fold fun _ _ => by
      split
      · exact .ite (.refl _) (completeHeld_keeps ..)
      · exact .refl _) (.fold fun _ _ => closeChannel_keeps ..)))

theorem shutdownOwn_keeps (s : State) : (shutdownOwn s).Keeps s :=
  ⟨(endMedia_keeps ..).trans (storeLife_keeps ..), fun _ => ⟨rfl, rfl⟩⟩

theorem execShutdown_goesOn (h : CmdHdr) (s : State) : GoesOn s (execShutdown h s) :=
  ⟨_, rfl, runCmd_keeps _ _ _ fun _ => shutdownOwn_keeps ..⟩

theorem execWakeMatch_goesOn (port : Nat) (frame : EthFrame) (s : State) : GoesOn s (execWakeMatch port frame s) := by
  unfold execWakeMatch
  refine ⟨_, rfl, ?_⟩
  refine .ite ?_ ?_
  · split
    · exact ⟨rfl, rfl⟩
    · exact .refl _
  · exact .refl _

theorem execThermalSample_goesOn (tempDeciC : Int) (s : State) : GoesOn s (execThermalSample tempDeciC s) :=
  ⟨_, rfl, .onlyIf ⟨rfl, rfl⟩ (.refl _)⟩

theorem bootEvent_keeps (code : Nat) (l : List Int) (s : State) : Keeps s (bootEvent code l s) :=
  raiseStart_keeps ..

theorem slotEvents_keeps (c m bad : Nat) (tried : List (Nat × Nat)) (s : State) :
    Keeps s (slotEvents c m bad tried s) :=
  Keeps.after (.fold fun _ _ => by
      split
      · exact .ite ((bootEvent_keeps ..).after ⟨rfl, rfl⟩) (.refl _)
      · exact .refl _) (.ite (.refl _) ((bootEvent_keeps ..).after ⟨rfl, rfl⟩))

theorem loadConfig_keeps (factoryLow : Bool) (s : State) : Keeps s (loadConfig factoryLow s) :=
  Keeps.after (.fold fun _ _ => ⟨rfl, rfl⟩) (Keeps.after (.fold fun _ _ => ⟨rfl, rfl⟩) ((Keeps.update).after (.ite
    ⟨rfl, rfl⟩ (.refl _))))

theorem bringUpDram_keeps (env : BootEnv) (s : State) : Keeps s (bringUpDram env s).2 :=
  .ite_snd ⟨rfl, rfl⟩ (.ite_snd ⟨rfl, rfl⟩ (.ite_snd ((endpWrite_keeps ..).after ((withLife_keeps ..).after
    ((withDmc_keeps ..).after ((withDmc_keeps ..).after (.ite (.refl _) ⟨rfl, rfl⟩))))) ((withDmc_keeps ..).after (.ite
    (.refl _) ⟨rfl, rfl⟩))))

theorem reloadUser_keeps (m : Image) (cause : Nat) (s : State) : Keeps s (reloadUser m cause s) := by
  unfold reloadUser
  split
  · exact ⟨rfl, rfl⟩
  · split
    · exact ⟨rfl, rfl⟩
    · exact (raiseStart_keeps ..).after ⟨rfl, rfl⟩

theorem loadMedia_keeps (m : Nat) (s : State) : Keeps s (loadMedia m s) := by
  unfold loadMedia
  split
  · exact .refl _
  · exact (reloadUser_keeps ..).after ⟨rfl, rfl⟩

theorem placeMemory_keeps (headerOk : Bool) (s : State) : Keeps s (placeMemory headerOk s) :=
  .ite ((Keeps.update).after (.ite ((bootEvent_keeps ..).after ⟨rfl, rfl⟩) ⟨rfl, rfl⟩)) ((withEpd_keeps ..).after
    ((emptyEpd_keeps ..).after ((Keeps.update).after (.ite ((bootEvent_keeps ..).after ⟨rfl, rfl⟩) ⟨rfl, rfl⟩))))

theorem startPorts_keeps (s : State) : Keeps s (startPorts s) :=
  (updateRefs_keeps ..).after (Keeps.after (.fold fun _ _ => .ite ⟨rfl, rfl⟩ (.refl _)) (Keeps.after (.fold fun _ _ =>
    .ite ⟨rfl, rfl⟩ (.refl _)) (.fold fun _ _ => .ite (.ite (startLink_keeps ..) ((refuse_keeps ..).after ⟨rfl, rfl⟩))
    (.refl _))))

theorem atStage_keeps (n : Nat) (s : State) : Keeps s (atStage n s) :=
  ⟨rfl, rfl⟩

theorem restartBackoffs_keeps (s : State) : Keeps s (restartBackoffs s) :=
  ⟨rfl, rfl⟩

theorem bootMedia_keeps (env : BootEnv) (c : Nat) (m : Option Nat) (bad : Nat) (tried : List (Nat × Nat)) (s : State) :
    Keeps s (bootMedia env c m bad tried s) := by
  unfold bootMedia
  dsimp only
  split
  · exact (restartBackoffs_keeps ..).after ((atStage_keeps ..).after ((slotEvents_keeps ..).after ⟨rfl, rfl⟩))
  · exact (atStage_keeps ..).after ((startPorts_keeps ..).after ((placeMemory_keeps ..).after ((loadMedia_keeps
      ..).after ((slotEvents_keeps ..).after ⟨rfl, rfl⟩))))

theorem bootChoose_keeps (env : BootEnv) (c bad : Nat) (s : State) : Keeps s (bootChoose env c bad s) := by
  unfold bootChoose
  dsimp only
  split
  · exact bootMedia_keeps ..
  · exact bootMedia_keeps ..
  · split
    · exact ⟨rfl, rfl⟩
    · exact bootMedia_keeps ..

theorem startUp_keeps (env : BootEnv) (s : State) : Keeps s (startUp env s) := by
  unfold startUp
  dsimp only
  split
  · exact ⟨rfl, rfl⟩
  · exact .ite ((bootChoose_keeps ..).after ((bringUpDram_keeps ..).after ((loadConfig_keeps ..).after ⟨rfl, rfl⟩)))
      ((restartBackoffs_keeps ..).after ((atStage_keeps ..).after ((slotEvents_keeps ..).after ((bringUpDram_keeps
      ..).after ((loadConfig_keeps ..).after ⟨rfl, rfl⟩)))))

theorem execStartUp_goesOn (env : BootEnv) (s : State) : GoesOn s (execStartUp env s) :=
  ⟨_, rfl, .onlyIf (startUp_keeps ..) (.refl _)⟩

theorem revokeBy_keeps (i : Option Image) (s : State) : Keeps s (revokeBy i s) := by
  unfold revokeBy
  dsimp only
  split
  · exact .refl _
  · exact .ite (.refl _) ((bootEvent_keeps ..).after ⟨rfl, rfl⟩)

theorem readyEvents_keeps (s : State) : Keeps s (readyEvents s) := by
  unfold readyEvents
  dsimp only
  refine .ite ?_ ?_
  · refine (bootEvent_keeps ..).after ?_
    refine .ite ?_ ?_
    · refine (bootEvent_keeps ..).after ?_
      split
      · exact Keeps.after (.fold fun _ _ => raiseStart_keeps ..) ⟨rfl, rfl⟩
      · exact (bootEvent_keeps ..).after ((Keeps.update).after (Keeps.after (.fold fun _ _ => raiseStart_keeps ..)
          ⟨rfl, rfl⟩))
    · split
      · exact Keeps.after (.fold fun _ _ => raiseStart_keeps ..) ⟨rfl, rfl⟩
      · exact (bootEvent_keeps ..).after ((Keeps.update).after (Keeps.after (.fold fun _ _ => raiseStart_keeps ..)
          ⟨rfl, rfl⟩))
  · refine .ite ?_ ?_
    · refine (bootEvent_keeps ..).after ?_
      split
      · exact Keeps.after (.fold fun _ _ => raiseStart_keeps ..) ⟨rfl, rfl⟩
      · exact (bootEvent_keeps ..).after ((Keeps.update).after (Keeps.after (.fold fun _ _ => raiseStart_keeps ..)
          ⟨rfl, rfl⟩))
    · split
      · exact Keeps.after (.fold fun _ _ => raiseStart_keeps ..) ⟨rfl, rfl⟩
      · exact (bootEvent_keeps ..).after ((Keeps.update).after (Keeps.after (.fold fun _ _ => raiseStart_keeps ..)
          ⟨rfl, rfl⟩))

theorem ready_keeps (s : State) : Keeps s (ready s) :=
  (readyEvents_keeps ..).after ((revokeBy_keeps ..).after ((revokeBy_keeps ..).after ⟨rfl, rfl⟩))

theorem execStartupReady_goesOn (t : Ns) (s : State) : GoesOn s (execStartupReady t s) :=
  ⟨_, rfl, .onlyIf ((ready_keeps ..).after ⟨rfl, rfl⟩) ⟨rfl, rfl⟩⟩

/-! ### Transmission -/

theorem execTxcSetup_goesOn (h : CmdHdr) (s : State) : GoesOn s (execTxcSetup h s) :=
  ⟨_, rfl, runCmd_keeps _ _ _ fun _ => checked_keeps _ ⟨rfl, rfl⟩⟩

theorem execTxcModify_goesOn (h : CmdHdr) (s : State) : GoesOn s (execTxcModify h s) :=
  ⟨_, rfl, runCmd_keeps _ _ _ fun _ => checked_keeps _ ⟨rfl, rfl⟩⟩

theorem releaseTxc_keeps (n : Nat) (s : State) : Keeps s (releaseTxc n s) := by
  unfold releaseTxc
  dsimp only
  split
  · exact .refl _
  · exact .ite ((withTxc_keeps ..).after (Keeps.after (.fold fun _ _ => endTx_keeps ..) ⟨rfl, rfl⟩)) ((txcGone_keeps
      ..).after (Keeps.after (.fold fun _ _ => endTx_keeps ..) ⟨rfl, rfl⟩))

theorem execTxcRelease_goesOn (h : CmdHdr) (tx : Nat) (s : State) : GoesOn s (execTxcRelease h tx s) :=
  ⟨_, rfl, runCmd_keeps _ _ _ fun _ => checked_keeps _ (releaseTxc_keeps ..)⟩

theorem queueRequest_keeps (ring : Nat) (index : BitVec 32) (d : Bytes) (s : State) :
    Keeps s (queueRequest ring index d s) :=
  .ite ⟨rfl, rfl⟩ (.ite ((epdLookup_keeps ..).trans (endPtx_keeps ..)) ((epdLookup_keeps ..).trans (withTxc_keeps ..)))

theorem radioRequest_keeps (ring : Nat) (index : BitVec 32) (d : Bytes) (s : State) :
    Keeps s (radioRequest ring index d s) :=
  .ite (endPtx_keeps ..) (queueRequest_keeps ..)

theorem execRadioTxRequest_goesOn (ring : Nat) (index : BitVec 32) (item : Bytes) (t : Ns) (s : State) :
    GoesOn s (execRadioTxRequest ring index item t s) :=
  ⟨_, rfl, .onlyIf ((radioRequest_keeps ..).after ⟨rfl, rfl⟩) ⟨rfl, rfl⟩⟩

theorem launch_keeps (n : Nat) (t : Ns) (ready : Bool) (standing : Nat) (s : State) :
    Keeps s (launch n t ready standing s) := by
  unfold launch
  dsimp only
  split
  · exact .refl _
  · split
    · exact .refl _
    · split
      · exact .ite ⟨rfl, rfl⟩ (.refl _)
      · exact .ite ⟨rfl, rfl⟩ (.ite ((endTx_keeps ..).after ⟨rfl, rfl⟩) (.refl _))

theorem execTxLaunch_goesOn (tx : Nat) (t : Ns) (ready : Bool) (standing : Nat) (s : State) :
    GoesOn s (execTxLaunch tx t ready standing s) := by
  unfold execTxLaunch
  dsimp only
  split
  · exact ⟨_, rfl, ⟨rfl, rfl⟩⟩
  · exact ⟨_, rfl, .onlyIf ((launch_keeps ..).after ((sendSamples_keeps ..).after ⟨rfl, rfl⟩)) ⟨rfl, rfl⟩⟩

theorem txEnds_keeps (n : Nat) (t : Ns) (underrun : Bool) (s : State) : Keeps s (txEnds n t underrun s) := by
  unfold txEnds
  dsimp only
  split
  · exact .refl _
  · split
    · exact .refl _
    · exact .ite (((sendSamples_keeps ..).trans (bump_keeps ..)).trans (endOnAir_keeps ..)) (.ite (.ite
        ((sendSamples_keeps ..).trans (endOnAir_keeps ..)) (sendSamples_keeps ..)) (.ite ((sendSamples_keeps ..).trans
        (endOnAir_keeps ..)) (sendSamples_keeps ..)))

theorem execTxComplete_goesOn (tx : Nat) (t : Ns) (underrun : Bool) (s : State) :
    GoesOn s (execTxComplete tx t underrun s) :=
  ⟨_, rfl, .onlyIf ((txEnds_keeps ..).after ⟨rfl, rfl⟩) ⟨rfl, rfl⟩⟩

theorem execPttGroupSetup_goesOn (h : CmdHdr) (s : State) : GoesOn s (execPttGroupSetup h s) :=
  ⟨_, rfl, runCmd_keeps _ _ _ fun _ => checked_keeps _ ⟨rfl, rfl⟩⟩

theorem execPttGroupRelease_goesOn (h : CmdHdr) (group : Nat) (s : State) : GoesOn s (execPttGroupRelease h group s) :=
  ⟨_, rfl, runCmd_keeps _ _ _ fun _ => checked_keeps _ ⟨rfl, rfl⟩⟩

theorem execPttHangExpiry_goesOn (group : Nat) (t : Ns) (s : State) : GoesOn s (execPttHangExpiry group t s) := by
  unfold execPttHangExpiry
  dsimp only
  split
  · exact ⟨_, rfl, ⟨rfl, rfl⟩⟩
  · split
    · exact ⟨_, rfl, ⟨rfl, rfl⟩⟩
    · exact ⟨_, rfl, .onlyIf ⟨rfl, rfl⟩ ⟨rfl, rfl⟩⟩

/-! ### Ring items -/

theorem ptxEth_keeps (n : Nat) (i : BitVec 32) (d : PtxDesc) (data : Bytes) (s : State) :
    Keeps s (ptxEth n i d data s) :=
  .ite (.ite (endPtx_keeps ..) (pairSend_keeps ..)) (.ite (endPtx_keeps ..) (ethSend_keeps ..))

theorem ownReserve_keeps (n : Nat) (s : State) : Keeps s (ownReserve n s) := by
  unfold ownReserve
  split
  · exact .refl _
  · split
    · exact .refl _
    · exact ⟨rfl, rfl⟩

theorem ptxQueue_keeps (n : Nat) (i : BitVec 32) (q : Nat) (data : Bytes) (s : State) :
    Keeps s (ptxQueue n i q data s) := by
  unfold ptxQueue
  dsimp only
  refine .ite ?_ ?_
  · exact endPtx_keeps ..
  · refine .ite ?_ ?_
    · exact (endPtx_keeps ..).after ⟨rfl, rfl⟩
    · split
      · exact ownReserve_keeps ..
      · exact (((ownReserve_keeps ..).trans (allocCells_keeps ..)).trans (linkItem_keeps ..)).trans (endPtx_keeps ..)

theorem ptxRefused_keeps (n : Nat) (r : Ring) (l : List PtxDesc) (s : State) : Keeps s (ptxRefused n r l s) :=
  .ite ((bump_keeps ..).after ⟨rfl, rfl⟩) (.refl _)

theorem ptxTake_keeps (n : Nat) (r : Ring) (l : List PtxDesc) (s : State) : Keeps s (ptxTake n r l s) := by
  unfold ptxTake
  dsimp only
  split
  · refine .ite ?_ ?_
    · exact (endPtx_keeps ..).after ⟨rfl, rfl⟩
    · split
      · exact (ptxEth_keeps ..).after ⟨rfl, rfl⟩
      · exact (radioRequest_keeps ..).after ⟨rfl, rfl⟩
      · exact (ptxQueue_keeps ..).after ⟨rfl, rfl⟩
  · exact (endPtx_keeps ..).after ⟨rfl, rfl⟩

theorem ptxItem_keeps (n : Nat) (l : List PtxDesc) (s : State) : Keeps s (ptxItem n l s) := by
  unfold ptxItem
  split
  · exact .ite (ptxRefused_keeps ..) (ptxTake_keeps ..)
  · exact .refl _

theorem execPtxItem_goesOn (ring : Nat) (descs : List PtxDesc) (t : Ns) (s : State) :
    GoesOn s (execPtxItem ring descs t s) :=
  ⟨_, rfl, .onlyIf ((ptxItem_keeps ..).after ⟨rfl, rfl⟩) ⟨rfl, rfl⟩⟩

theorem consumeQueue_keeps (n : Nat) (s : State) : Keeps s (consumeQueue n s) :=
  (takeItem_keeps ..).trans (endTaken_keeps ..)

theorem prxWrite_keeps (n : Nat) (i x : PrxItem) (s : State) : Keeps s (prxWrite n i x s) :=
  (popWaiting_keeps ..).after (.ite ((writeItem_keeps ..).trans (consumeQueue_keeps ..)) (writeItem_keeps ..))

theorem guardDrop_keeps (n : Nat) (s : State) : Keeps s (guardDrop n s) :=
  ((pullItem_keeps ..).trans (bump_keeps ..)).trans (integrityEvent_keeps ..)

theorem prxItemWrite_keeps (n : Nat) (ok : Bool) (s : State) : Keeps s (prxItemWrite n ok s) := by
  unfold prxItemWrite
  split
  · exact .refl _
  · split
    · exact .ite ((guardDrop_keeps ..).trans (popWaiting_keeps ..)) (.refl _)
    · exact .ite (prxWrite_keeps ..) ((bump_keeps ..).after ⟨rfl, rfl⟩)

theorem execPrxItemWrite_goesOn (ring : Nat) (ok : Bool) (t : Ns) (s : State) :
    GoesOn s (execPrxItemWrite ring ok t s) :=
  ⟨_, rfl, .onlyIf ((prxItemWrite_keeps ..).after ⟨rfl, rfl⟩) ⟨rfl, rfl⟩⟩

/-! ### Images in service -/

theorem withAvl_keeps (f : Avail → Avail) (s : State) : Keeps s (withAvl f s) :=
  ⟨rfl, rfl⟩

theorem execImgWrite_goesOn (h : CmdHdr) (kind : Nat) (s : State) : GoesOn s (execImgWrite h kind s) :=
  ⟨_, rfl, runCmd_keeps _ _ _ fun _ => acceptLong_keeps _ _ _ _ _ fun _ _ => ⟨rfl, rfl⟩⟩

theorem imgWriteDone_keeps (readBackOk : Bool) (s : State) : Keeps s (imgWriteDone readBackOk s) := by
  unfold imgWriteDone
  dsimp only
  split
  · exact .refl _
  · split
    · exact (endLong_keeps ..).after ⟨rfl, rfl⟩
    · exact (endLong_keeps ..).after ⟨rfl, rfl⟩

theorem execImgWriteDone_goesOn (readBackOk : Bool) (s : State) : GoesOn s (execImgWriteDone readBackOk s) :=
  ⟨_, rfl, .onlyIf (imgWriteDone_keeps ..) (.refl _)⟩

theorem execImgAcceptUntested_goesOn (h : CmdHdr) (cim mim : BitVec 32) (s : State) :
    GoesOn s (execImgAcceptUntested h cim mim s) :=
  ⟨_, rfl, runCmd_keeps _ _ _ fun _ => checked_keeps _ ⟨rfl, rfl⟩⟩

theorem execImgStatus_goesOn (h : CmdHdr) (s : State) : GoesOn s (execImgStatus h s) :=
  ⟨_, rfl, runCmd_keeps _ _ _ fun _ => Keeps.refl _⟩

theorem execBehaviourLockSet_goesOn (h : CmdHdr) (s : State) : GoesOn s (execBehaviourLockSet h s) :=
  ⟨_, rfl, runCmd_keeps _ _ _ fun _ => checked_keeps _ ⟨rfl, rfl⟩⟩

theorem execBehaviourLockClear_goesOn (h : CmdHdr) (s : State) : GoesOn s (execBehaviourLockClear h s) :=
  ⟨_, rfl, runCmd_keeps _ _ _ fun _ => checked_keeps _ ⟨rfl, rfl⟩⟩

theorem moveDone_keeps (s : State) : Keeps s (moveDone s) := by
  unfold moveDone
  dsimp only
  split
  · exact .refl _
  · split
    · exact (endLong_keeps ..).after ⟨rfl, rfl⟩
    · exact ⟨rfl, rfl⟩

theorem startMove_keeps (src dst : Nat) (op : Option Nat) (s : State) : Keeps s (startMove src dst op s) :=
  .ite ((moveDone_keeps ..).after ⟨rfl, rfl⟩) ⟨rfl, rfl⟩

theorem flowMigrate_keeps (f : Nat) (s : State) : Keeps s (flowMigrate f s) := by
  unfold flowMigrate
  dsimp only
  split
  · refine .ite ?_ ?_
    · exact .refl _
    · refine .ite ?_ ?_
      · refine (moveDone_keeps ..).after ?_
        split
        · exact (progress_keeps ..).after ⟨rfl, rfl⟩
        · exact ⟨rfl, rfl⟩
      · split
        · exact (progress_keeps ..).after ⟨rfl, rfl⟩
        · exact ⟨rfl, rfl⟩
  · exact .refl _

theorem execFlowMigrate_goesOn (flow : Nat) (s : State) : GoesOn s (execFlowMigrate flow s) :=
  ⟨_, rfl, .onlyIf (flowMigrate_keeps ..) (.refl _)⟩

theorem execClusterMigrate_goesOn (h : CmdHdr) (cluster : Nat) (s : State) :
    GoesOn s (execClusterMigrate h cluster s) :=
  ⟨_, rfl, runCmd_keeps _ _ _ fun _ => acceptLong_keeps _ _ _ _ _ fun _ _ => startMove_keeps ..⟩

theorem execRotationTimer_goesOn (t : Ns) (s : State) : GoesOn s (execRotationTimer t s) := by
  unfold execRotationTimer
  dsimp only
  split
  · exact ⟨_, rfl, ⟨rfl, rfl⟩⟩
  · exact ⟨_, rfl, .onlyIf ((startMove_keeps ..).after ⟨rfl, rfl⟩) ⟨rfl, rfl⟩⟩

theorem execSelfTest_goesOn (h : CmdHdr) (s : State) : GoesOn s (execSelfTest h s) :=
  ⟨_, rfl, runCmd_keeps _ _ _ fun _ => acceptLong_keeps _ _ _ _ _ fun _ _ => ⟨rfl, rfl⟩⟩

theorem retire_keeps (c failure : Nat) (s : State) : Keeps s (retire c failure s) :=
  (raise_keeps ..).after ⟨rfl, rfl⟩

theorem selfTestDone_keeps (failure : Option Nat) (s : State) : Keeps s (selfTestDone failure s) := by
  unfold selfTestDone
  dsimp only
  split
  · split
    · split
      · exact (retire_keeps ..).after ⟨rfl, rfl⟩
      · exact ⟨rfl, rfl⟩
    · refine (endLong_keeps ..).after ?_
      refine (withLong_keeps ..).after ?_
      split
      · exact (retire_keeps ..).after ⟨rfl, rfl⟩
      · exact ⟨rfl, rfl⟩
  · exact .refl _

theorem execSelfTestDone_goesOn (failure : Option Nat) (s : State) : GoesOn s (execSelfTestDone failure s) :=
  ⟨_, rfl, .onlyIf (selfTestDone_keeps ..) (.refl _)⟩

theorem execKnownGoodTimer_goesOn (t : Ns) (s : State) : GoesOn s (execKnownGoodTimer t s) :=
  ⟨_, rfl, .onlyIf ⟨rfl, rfl⟩ ⟨rfl, rfl⟩⟩

theorem beginRolling_keeps (id : Nat) (s : State) : Keeps s (beginRolling id s) := by
  unfold beginRolling
  dsimp only
  split
  · exact .refl _
  · exact ⟨rfl, rfl⟩

theorem execImgActivateMim_goesOn (h : CmdHdr) (s : State) : GoesOn s (execImgActivateMim h s) :=
  ⟨_, rfl, runCmd_keeps _ _ _ fun _ => .ite (Keeps.refl _) (acceptLong_keeps _ _ _ _ _ fun _ _ => beginRolling_keeps
    ..)⟩

theorem eraseAccept_keeps (s : State) : Keeps s (eraseAccept s) := by
  unfold eraseAccept
  split
  · exact .ite ⟨rfl, rfl⟩ (.refl _)
  · exact .refl _

theorem activated_keeps (s : State) : Keeps s (activated s) :=
  (eraseAccept_keeps ..).after ⟨rfl, rfl⟩

theorem rollingDone_keeps (r : Rolling) (s : State) : Keeps s (rollingDone r s) := by
  unfold rollingDone
  dsimp only
  refine (endLong_keeps ..).after ?_
  split
  · exact (reloadUser_keeps ..).after ((raise_keeps ..).after ((activated_keeps ..).after ⟨rfl, rfl⟩))
  · exact (raise_keeps ..).after ((activated_keeps ..).after ⟨rfl, rfl⟩)

theorem rollForward_keeps (c : Nat) (r : Rolling) (s : State) : Keeps s (rollForward c r s) := by
  unfold rollForward
  dsimp only
  split
  · exact (startMove_keeps ..).after ((raiseProgress_keeps ..).after ⟨rfl, rfl⟩)
  · exact (rollingDone_keeps ..).after ((raiseProgress_keeps ..).after ⟨rfl, rfl⟩)

theorem rollingFailed_keeps (r : Rolling) (s : State) : Keeps s (rollingFailed r s) :=
  (endLong_keeps ..).after ⟨rfl, rfl⟩

theorem rollBack_keeps (c : Nat) (r : Rolling) (s : State) : Keeps s (rollBack c r s) := by
  unfold rollBack
  dsimp only
  split
  · exact (startMove_keeps ..).after ⟨rfl, rfl⟩
  · exact (rollingFailed_keeps ..).after ⟨rfl, rfl⟩

theorem mimLoaded_keeps (c : Nat) (ok : Bool) (s : State) : Keeps s (mimLoaded c ok s) := by
  unfold mimLoaded
  split
  · exact .refl _
  · exact .ite (.refl _) (.ite (.onlyIf (rollBack_keeps ..) (.refl _)) (.ite (.refl _) (.ite (rollForward_keeps ..)
      (.ite (rollingFailed_keeps ..) ⟨rfl, rfl⟩))))

theorem execClusterMimLoaded_goesOn (cluster : Nat) (ok : Bool) (s : State) :
    GoesOn s (execClusterMimLoaded cluster ok s) :=
  ⟨_, rfl, .onlyIf (mimLoaded_keeps ..) (.refl _)⟩

theorem execImgActivateCim_goesOn (h : CmdHdr) (s : State) : GoesOn s (execImgActivateCim h s) :=
  ⟨_, rfl, runCmd_keeps _ _ _ fun _ => .ite (Keeps.refl _) (acceptLong_keeps _ _ _ _ _ fun _ _ => ⟨rfl, rfl⟩)⟩

theorem handover_keeps (s : State) : Keeps s (handover s) := by
  unfold handover
  dsimp only
  split
  · exact .refl _
  · exact ((((((progress_keeps ..).trans (progress_keeps ..)).trans (withAvl_keeps ..)).trans (activated_keeps
      ..)).trans (raise_keeps ..)).trans (withLong_keeps ..)).trans (endLong_keeps ..)

theorem execCimHandover_goesOn (s : State) : GoesOn s (execCimHandover s) :=
  ⟨_, rfl, .onlyIf (handover_keeps ..) (.refl _)⟩

theorem execStandbyReady_goesOn (s : State) : GoesOn s (execStandbyReady s) :=
  ⟨_, rfl, .onlyIf ⟨rfl, rfl⟩ (.refl _)⟩

/-! ### Statistics -/

theorem resetHighs_keeps (s : State) : Keeps s (resetHighs s) :=
  (putFig_keeps ..).after ((putFig_keeps ..).after ((keepHigh_keeps ..).after ((keepHigh_keeps ..).after
    ((keepHigh_keeps ..).after ((keepHigh_keeps ..).after ((keepHigh_keeps ..).after ⟨rfl, rfl⟩))))))

theorem truncated_keeps (s : State) : Keeps s (truncated s) :=
  .ite ((crossed_keeps ..).after ⟨rfl, rfl⟩) ((noticeLive_keeps ..).after ⟨rfl, rfl⟩)

theorem writeStats_keeps (s : State) : Keeps s (writeStats s) :=
  (resetHighs_keeps ..).after ((truncated_keeps ..).after (.ite ⟨rfl, rfl⟩ ⟨rfl, rfl⟩))

theorem execStatsBlock_goesOn (t : Ns) (ok : Bool) (s : State) : GoesOn s (execStatsBlock t ok s) :=
  ⟨_, rfl, .onlyIf (.ite ((writeStats_keeps ..).after ⟨rfl, rfl⟩) ((bump_keeps ..).after ⟨rfl, rfl⟩)) ⟨rfl, rfl⟩⟩

/-! ### TDM lines -/

theorem sendLine_keeps (t : Nat) (pay : List (Option Byte)) (s0 : State) : Keeps s0 (sendLine t pay s0) :=
  (withTdm_keeps ..).after (.ite ⟨rfl, rfl⟩ (.refl _))

/-! ### TDM ports -/

theorem slip_keeps (t : Nat) (tx del : Bool) (s : State) : Keeps s (slip t tx del s) :=
  (crossed_keeps ..).after ((bump_keeps ..).after ⟨rfl, rfl⟩)

theorem slipLive_keeps (t : Nat) (s : State) : Keeps s (slipLive t s) := by
  unfold slipLive
  split
  · exact .ite (noticeLive_keeps ..) (.refl _)
  · exact .refl _

theorem alarmChange_keeps (t : Nat) (a : TdmAlarm) (v : Bool) (at_ : Ns) (s : State) :
    Keeps s (alarmChange t a v at_ s) := by
  unfold alarmChange
  dsimp only
  refine .ite ?_ ?_
  · exact .refl _
  · refine (updateRefs_keeps ..).after ?_
    refine (crossed_keeps ..).after ?_
    refine .ite ?_ ?_
    · refine (Keeps.update).after ?_
      split
      · refine (bump_keeps ..).after ?_
        split
        · exact .ite ⟨rfl, rfl⟩ ⟨rfl, rfl⟩
        · exact ⟨rfl, rfl⟩
      · refine (bump_keeps ..).after ?_
        split
        · exact .ite ⟨rfl, rfl⟩ ⟨rfl, rfl⟩
        · exact ⟨rfl, rfl⟩
      · split
        · exact .ite ⟨rfl, rfl⟩ ⟨rfl, rfl⟩
        · exact ⟨rfl, rfl⟩
    · split
      · refine (bump_keeps ..).after ?_
        split
        · exact .ite ⟨rfl, rfl⟩ ⟨rfl, rfl⟩
        · exact ⟨rfl, rfl⟩
      · refine (bump_keeps ..).after ?_
        split
        · exact .ite ⟨rfl, rfl⟩ ⟨rfl, rfl⟩
        · exact ⟨rfl, rfl⟩
      · split
        · exact .ite ⟨rfl, rfl⟩ ⟨rfl, rfl⟩
        · exact ⟨rfl, rfl⟩

theorem casStep_keeps (t : Nat) (mf : Ns) (e : Nat × Nat) (s : State) : Keeps s (casStep t mf e s) :=
  .ite (.refl _) (.ite ⟨rfl, rfl⟩ (.ite ((raise_keeps ..).after ⟨rfl, rfl⟩) ⟨rfl, rfl⟩))

theorem execTdmCasSet_goesOn (h : CmdHdr) (port slot : Nat) (abcd : BitVec 4) (s : State) :
    GoesOn s (execTdmCasSet h port slot abcd s) :=
  ⟨_, rfl, runCmd_keeps _ _ _ fun _ => checked_keeps _ ⟨rfl, rfl⟩⟩

theorem countCrc_keeps (t n : Nat) (s : State) : Keeps s (countCrc t n s) :=
  .ite (.refl _) (.ite (bumpN_keeps ..) (((bumpN_keeps ..).trans (withTdm_keeps ..)).trans (addFig_keeps ..)))

theorem framingRead_keeps (t : Nat) (err : Bool) (s : State) : Keeps s (framingRead t err s) :=
  .ite ((alarmChange_keeps ..).after ((bumpN_keeps ..).after ⟨rfl, rfl⟩)) ((bumpN_keeps ..).after ⟨rfl, rfl⟩)

theorem blockRead_keeps (t k got : Nat) (acc : Option Nat) (s : State) : Keeps s (blockRead t k got acc s) :=
  .ite ((countCrc_keeps ..).after ⟨rfl, rfl⟩) (.ite ((alarmChange_keeps ..).after ((withTdm_keeps ..).after
    ((countCrc_keeps ..).after ⟨rfl, rfl⟩))) ((withTdm_keeps ..).after ((countCrc_keeps ..).after ⟨rfl, rfl⟩)))

theorem crc4In_keeps (t : Nat) (slots : Bytes) (fas : Bool) (s : State) : Keeps s (crc4In t slots fas s) := by
  unfold crc4In
  dsimp only
  split
  · exact ⟨rfl, rfl⟩
  · exact .ite ((blockRead_keeps ..).after ((bumpN_keeps ..).after ⟨rfl, rfl⟩)) ((bumpN_keeps ..).after ⟨rfl, rfl⟩)

theorem ts16In_keeps (t : Nat) (f : TdmFrame) (s : State) : Keeps s (ts16In t f s) := by
  unfold ts16In
  dsimp only
  split
  · exact .ite ⟨rfl, rfl⟩ (.refl _)
  · exact ⟨rfl, rfl⟩
  · exact .ite (Keeps.after (.fold fun _ _ => casStep_keeps ..) ⟨rfl, rfl⟩) ⟨rfl, rfl⟩

theorem e1In_keeps (t : Nat) (f : TdmFrame) (s : State) : Keeps s (e1In t f s) :=
  .ite (.ite ((framingRead_keeps ..).after ⟨rfl, rfl⟩) ⟨rfl, rfl⟩) (.ite ((ts16In_keeps ..).after (.ite ((crc4In_keeps
    ..).after (.ite (.ite ((framingRead_keeps ..).after ⟨rfl, rfl⟩) ⟨rfl, rfl⟩) ((withTdm_keeps ..).after (.ite
    ((framingRead_keeps ..).after ⟨rfl, rfl⟩) ⟨rfl, rfl⟩)))) (.ite (.ite ((framingRead_keeps ..).after ⟨rfl, rfl⟩)
    ⟨rfl, rfl⟩) ((withTdm_keeps ..).after (.ite ((framingRead_keeps ..).after ⟨rfl, rfl⟩) ⟨rfl, rfl⟩))))) (.ite
    ((crc4In_keeps ..).after (.ite (.ite ((framingRead_keeps ..).after ⟨rfl, rfl⟩) ⟨rfl, rfl⟩) ((withTdm_keeps
    ..).after (.ite ((framingRead_keeps ..).after ⟨rfl, rfl⟩) ⟨rfl, rfl⟩)))) (.ite (.ite ((framingRead_keeps ..).after
    ⟨rfl, rfl⟩) ⟨rfl, rfl⟩) ((withTdm_keeps ..).after (.ite ((framingRead_keeps ..).after ⟨rfl, rfl⟩) ⟨rfl, rfl⟩)))))

theorem t1Body_keeps (t k : Nat) (f : TdmFrame) (s : State) : Keeps s (t1Body t k f s) :=
  .ite ⟨rfl, rfl⟩ (.ite (Keeps.after (.fold fun _ _ => casStep_keeps ..) (.ite ((blockRead_keeps ..).after ⟨rfl, rfl⟩)
    ⟨rfl, rfl⟩)) (.ite ((blockRead_keeps ..).after ⟨rfl, rfl⟩) ⟨rfl, rfl⟩))

theorem t1In_keeps (t : Nat) (f : TdmFrame) (s : State) : Keeps s (t1In t f s) := by
  unfold t1In
  dsimp only
  split
  · exact ⟨rfl, rfl⟩
  · refine .ite ?_ ?_
    · split
      · exact (framingRead_keeps ..).after ⟨rfl, rfl⟩
      · exact ⟨rfl, rfl⟩
    · refine (t1Body_keeps ..).after ?_
      split
      · exact (framingRead_keeps ..).after ⟨rfl, rfl⟩
      · exact ⟨rfl, rfl⟩

theorem framerIn_keeps (t : Nat) (f : TdmFrame) (s : State) : Keeps s (framerIn t f s) :=
  .ite (.refl _) (.ite (e1In_keeps ..) (t1In_keeps ..))

theorem crossIn_keeps (t : Nat) (d : Bytes) (s : State) : Keeps s (crossIn t d s) :=
  .ite (bump_keeps ..) ⟨rfl, rfl⟩

theorem tdmIn_keeps (t : Nat) (f : TdmFrame) (s : State) : Keeps s (tdmIn t f s) := by
  unfold tdmIn
  dsimp only
  refine .ite ?_ ?_
  · exact ((((framerIn_keeps ..).trans (slipLive_keeps ..)).trans (withTdm_keeps ..)).trans (withTdm_keeps ..)).trans
      (crossIn_keeps ..)
  · split
    · exact (((framerIn_keeps ..).trans (slipLive_keeps ..)).trans (withTdm_keeps ..)).trans (slip_keeps ..)
    · exact ((((((framerIn_keeps ..).trans (slipLive_keeps ..)).trans (withTdm_keeps ..)).trans (slip_keeps ..)).trans
        (crossIn_keeps ..)).trans (withTdm_keeps ..)).trans (crossIn_keeps ..)
    · exact ((((framerIn_keeps ..).trans (slipLive_keeps ..)).trans (withTdm_keeps ..)).trans (withTdm_keeps ..)).trans
        (crossIn_keeps ..)

theorem execTdmRxFrame_goesOn (port : Nat) (frame : TdmFrame) (s : State) : GoesOn s (execTdmRxFrame port frame s) :=
  ⟨_, rfl, .onlyIf (tdmIn_keeps ..) (.refl _)⟩

theorem tdmOut_keeps (t : Nat) (drift : Int) (s : State) : Keeps s (tdmOut t drift s) := by
  unfold tdmOut
  dsimp only
  split
  · exact ((((bumpN_keeps ..).trans (slipLive_keeps ..)).trans (tonesSent_keeps ..)).trans (withTdm_keeps ..)).trans
      (slip_keeps ..)
  · exact ((((((bumpN_keeps ..).trans (slipLive_keeps ..)).trans (tonesSent_keeps ..)).trans (withTdm_keeps ..)).trans
      (slip_keeps ..)).trans (sendLine_keeps ..)).trans (sendLine_keeps ..)
  · exact ((((bumpN_keeps ..).trans (slipLive_keeps ..)).trans (tonesSent_keeps ..)).trans (withTdm_keeps ..)).trans
      (sendLine_keeps ..)

theorem execTdmTxFrame_goesOn (port : Nat) (drift : Int) (s : State) : GoesOn s (execTdmTxFrame port drift s) :=
  ⟨_, rfl, .onlyIf (tdmOut_keeps ..) (.refl _)⟩

theorem execTdmAlarm_goesOn (port : Nat) (alarm : TdmAlarm) (declared : Bool) (t : Ns) (s : State) :
    GoesOn s (execTdmAlarm port alarm declared t s) :=
  ⟨_, rfl, .onlyIf ((alarmChange_keeps ..).after ⟨rfl, rfl⟩) ⟨rfl, rfl⟩⟩

theorem execCrc4AutoTimeout_goesOn (port : Nat) (s : State) : GoesOn s (execCrc4AutoTimeout port s) :=
  ⟨_, rfl, .onlyIf ⟨rfl, rfl⟩ (.refl _)⟩

/-! ### Teleprotection channels -/

theorem setupTp_keeps (ring : Nat) (b : Bytes) (s : State) : Keeps s (setupTp ring b s) :=
  (addFlow_keeps ..).after ⟨rfl, rfl⟩

theorem execTpSetup_goesOn (h : CmdHdr) (s : State) : GoesOn s (execTpSetup h s) :=
  ⟨_, rfl, runCmd_keeps _ _ _ fun _ => checked_keeps _ (setupTp_keeps ..)⟩

theorem execTpModify_goesOn (h : CmdHdr) (s : State) : GoesOn s (execTpModify h s) :=
  ⟨_, rfl, runCmd_keeps _ _ _ fun _ => checked_keeps _ ⟨rfl, rfl⟩⟩

theorem tpTakeNext_keeps (n : Nat) (s : State) : Keeps s (tpTakeNext n s) := by
  unfold tpTakeNext
  split
  · exact .refl _
  · split
    · exact .refl _
    · exact ((tpDiscard_keeps ..).trans (withTp_keeps ..)).trans (driveBalls_keeps ..)

theorem releaseTp_keeps (n : Nat) (s : State) : Keeps s (releaseTp n s) :=
  ((((((((tpDiscard_keeps ..).trans (withTp_keeps ..)).trans (tpSend_keeps ..)).trans (Keeps.update)).trans
    (dropCounters_keeps ..)).trans (dropCounters_keeps ..)).trans (dropMisses_keeps ..)).trans (withFsc_keeps
    ..)).trans (driveBalls_keeps ..)

theorem execTpRelease_goesOn (h : CmdHdr) (tp : Nat) (s : State) : GoesOn s (execTpRelease h tp s) :=
  ⟨_, rfl, runCmd_keeps _ _ _ fun _ => checked_keeps _ (releaseTp_keeps ..)⟩

theorem execTpKey_goesOn (h : CmdHdr) (tp : Nat) (rx : Bool) (key : Bytes) (s : State) :
    GoesOn s (execTpKey h tp rx key s) :=
  ⟨_, rfl, runCmd_keeps _ _ _ fun _ => checked_keeps _ ⟨rfl, rfl⟩⟩

theorem execTpCommand_goesOn (h : CmdHdr) (tp : Nat) (cmd : BitVec 4) (s : State) :
    GoesOn s (execTpCommand h tp cmd s) :=
  ⟨_, rfl, runCmd_keeps _ _ _ fun _ => checked_keeps _ ⟨rfl, rfl⟩⟩

theorem startTest_keeps (n : Nat) (cmd : BitVec 4) (durationMs count : Nat) (s : State) :
    Keeps s (startTest n cmd durationMs count s) :=
  (tpChange_keeps ..).after ⟨rfl, rfl⟩

theorem execTpTest_goesOn (h : CmdHdr) (tp : Nat) (cmd : BitVec 4) (durationMs count : Nat) (s : State) :
    GoesOn s (execTpTest h tp cmd durationMs count s) :=
  ⟨_, rfl, runCmd_keeps _ _ _ fun _ => checked_keeps _ (startTest_keeps ..)⟩

theorem enterAlarm_keeps (n : Nat) (t : Ns) (s : State) : Keeps s (enterAlarm n t s) := by
  unfold enterAlarm
  dsimp only
  split
  · exact .refl _
  · exact (tpSetCmd_keeps ..).trans (crossed_keeps ..)

theorem dwellOn_keeps (n : Nat) (x : Tp) (t : Ns) (s : State) : Keeps s (dwellOn n x t s) :=
  .ite (((unhold_keeps ..).trans (withTp_keeps ..)).trans (tpSetCmd_keeps ..)) (.ite (holdFrame_keeps ..) (.refl _))

theorem dwellAbort_keeps (n : Nat) (t : Ns) (s : State) : Keeps s (dwellAbort n t s) :=
  ((tpDiscard_keeps ..).trans (bump_keeps ..)).trans (tpSetCmd_keeps ..)

theorem sendStep_keeps (n : Nat) (f : Decision) (t : Ns) (s : State) : Keeps s (sendStep n f t s) := by
  unfold sendStep
  split
  · exact .refl _
  · split
    · split
      · exact ⟨rfl, rfl⟩
      · exact .ite (enterAlarm_keeps ..) (.refl _)
    · exact .ite (dwellOn_keeps ..) (dwellAbort_keeps ..)
    · refine .ite ?_ ?_
      · exact tpSetCmd_keeps ..
      · split
        · exact .ite (.refl _) ⟨rfl, rfl⟩
        · exact .refl _
    · exact .ite (tpSetCmd_keeps ..) (.refl _)

theorem endTest_keeps (n : Nat) (t : Ns) (s : State) : Keeps s (endTest n t s) := by
  unfold endTest
  dsimp only
  split
  · exact .refl _
  · exact .ite ((tpChange_keeps ..).after ⟨rfl, rfl⟩) ⟨rfl, rfl⟩

theorem decide118_keeps (n : Nat) (f : Decision) (t : Ns) (s : State) : Keeps s (decide118 n f t s) :=
  (sendStep_keeps ..).after (.ite ((endTest_keeps ..).after ((noticeLive_keeps ..).after ((withTp_keeps ..).after (.ite
    (bump_keeps ..) (.refl _))))) ((noticeLive_keeps ..).after ((withTp_keeps ..).after (.ite (bump_keeps ..) (.refl
    _)))))

theorem hostDecision_keeps (n : Nat) (t : Ns) (s : State) : Keeps s (hostDecision n t s) := by
  unfold hostDecision
  dsimp only
  split
  · exact .refl _
  · split
    · exact .refl _
    · exact (tpSetCmd_keeps ..).after ((withTp_keeps ..).after (.ite (endTest_keeps ..) (.refl _)))

theorem ttuStep_keeps (n : Nat) (t : Ns) (s : State) : Keeps s (ttuStep n t s) := by
  unfold ttuStep
  dsimp only
  split
  · exact tpTakeNext_keeps ..
  · split
    · exact ((tpTakeNext_keeps ..).trans (drawNat_keeps ..)).trans (decide118_keeps ..)
    · exact (tpTakeNext_keeps ..).trans (decide118_keeps ..)
    · exact (tpTakeNext_keeps ..).trans (hostDecision_keeps ..)
    · exact tpTakeNext_keeps ..

theorem execTtuDecision_goesOn (tp k : Nat) (t : Ns) (s : State) : GoesOn s (execTtuDecision tp k t s) :=
  ⟨_, rfl, .onlyIf ((ttuStep_keeps ..).after ⟨rfl, rfl⟩) ⟨rfl, rfl⟩⟩

theorem execGuardAlarmExpiry_goesOn (tp : Nat) (t : Ns) (s : State) : GoesOn s (execGuardAlarmExpiry tp t s) :=
  ⟨_, rfl, .onlyIf ((enterAlarm_keeps ..).after ⟨rfl, rfl⟩) ⟨rfl, rfl⟩⟩

theorem execTpioSample_goesOn (levels : BitVec 32) (t : Ns) (s : State) : GoesOn s (execTpioSample levels t s) :=
  ⟨_, rfl, .onlyIf (Keeps.after (.fold fun _ _ => sampleBall_keeps ..) ⟨rfl, rfl⟩) ⟨rfl, rfl⟩⟩

theorem execTpHeartbeat_goesOn (tp : Nat) (t : Ns) (s : State) : GoesOn s (execTpHeartbeat tp t s) :=
  ⟨_, rfl, .onlyIf ((tpSend_keeps ..).after ⟨rfl, rfl⟩) ⟨rfl, rfl⟩⟩

theorem testPhase_keeps (n : Nat) (t : Ns) (s : State) : Keeps s (testPhase n t s) := by
  unfold testPhase
  dsimp only
  split
  · exact .refl _
  · split
    · exact .refl _
    · exact (tpChange_keeps ..).after ⟨rfl, rfl⟩

theorem execTpTestPhase_goesOn (tp : Nat) (t : Ns) (s : State) : GoesOn s (execTpTestPhase tp t s) :=
  ⟨_, rfl, .onlyIf ((testPhase_keeps ..).after ⟨rfl, rfl⟩) ⟨rfl, rfl⟩⟩

theorem execTpRxFrame_goesOn (tp : Nat) (payload : Bytes) (t : Ns) (s : State) :
    GoesOn s (execTpRxFrame tp payload t s) :=
  ⟨_, rfl, .onlyIf ((tpReceive_keeps ..).after ⟨rfl, rfl⟩) ⟨rfl, rfl⟩⟩

theorem outMin_keeps (n i : Nat) (t : Ns) (s : State) : Keeps s (outMin n i t s) := by
  unfold outMin
  dsimp only
  split
  · exact .refl _
  · exact (tpSink_keeps ..).trans (tpTimed_keeps ..)

theorem execTpOutMinExpiry_goesOn (tp cmd : Nat) (t : Ns) (s : State) : GoesOn s (execTpOutMinExpiry tp cmd t s) :=
  ⟨_, rfl, .onlyIf ((outMin_keeps ..).after ⟨rfl, rfl⟩) ⟨rfl, rfl⟩⟩

theorem linkFailed_keeps (n : Nat) (t : Ns) (s : State) : Keeps s (linkFailed n t s) := by
  unfold linkFailed
  dsimp only
  split
  · exact .refl _
  · exact (tpFail_keeps ..).after ((crossed_keeps ..).after ((bump_keeps ..).after ⟨rfl, rfl⟩))

theorem execTpLinkTimeout_goesOn (tp : Nat) (t : Ns) (s : State) : GoesOn s (execTpLinkTimeout tp t s) :=
  ⟨_, rfl, .onlyIf ((linkFailed_keeps ..).after ⟨rfl, rfl⟩) ⟨rfl, rfl⟩⟩

/-! ### The twin link -/

theorem withTwin_keeps (f : Twin → Twin) (s : State) : Keeps s (withTwin f s) :=
  ⟨rfl, rfl⟩

theorem execTwinPair_goesOn (h : CmdHdr) (s : State) : GoesOn s (execTwinPair h s) :=
  ⟨_, rfl, runCmd_keeps _ _ _ fun _ => checked_keeps _ ⟨rfl, rfl⟩⟩

theorem twinUnpair_keeps (s : State) : Keeps s (twinUnpair s) :=
  (twinChanged_keeps ..).after ⟨rfl, rfl⟩

theorem execTwinUnpair_goesOn (h : CmdHdr) (s : State) : GoesOn s (execTwinUnpair h s) :=
  ⟨_, rfl, runCmd_keeps _ _ _ fun _ => twinUnpair_keeps ..⟩

theorem takeoverEvent_keeps (kind : Nat) (s : State) : Keeps s (takeoverEvent kind s) :=
  raise_keeps ..

theorem plannedTakeover_keeps (s : State) : Keeps s (plannedTakeover s) :=
  (takeoverEvent_keeps ..).after ⟨rfl, rfl⟩

theorem execTwinTakeover_goesOn (h : CmdHdr) (s : State) : GoesOn s (execTwinTakeover h s) :=
  ⟨_, rfl, runCmd_keeps _ _ _ fun _ => .ite (⟨.refl _, fun _ => plannedTakeover_keeps ..⟩) (Keeps.refl _)⟩

theorem execTwinCopyConfig_goesOn (h : CmdHdr) (config : Config479) (s : State) :
    GoesOn s (execTwinCopyConfig h config s) :=
  ⟨_, rfl, runCmd_keeps _ _ _ fun _ => checked_keeps _ ⟨rfl, rfl⟩⟩

theorem takeRole_keeps (r : Nat) (s : State) : Keeps s (takeRole r s) :=
  (driveBalls_keeps ..).after (.ite (Keeps.after (.fold fun _ _ => endOnAir_keeps ..) ⟨rfl, rfl⟩) ⟨rfl, rfl⟩)

theorem twinLinkState_keeps (lanesOk heartbeat : Bool) (peer : TwinPeer) (synced : Bool) (t : Ns) (s : State) :
    Keeps s (twinLinkState lanesOk heartbeat peer synced t s) :=
  .ite ((crossed_keeps ..).after ((withTwin_keeps ..).after (.ite (takeRole_keeps ..) (.refl _)))) ((noticeLive_keeps
    ..).after ((withTwin_keeps ..).after (.ite (takeRole_keeps ..) (.refl _))))

theorem execTwinLinkState_goesOn (lanesOk heartbeat : Bool) (peer : TwinPeer) (synced : Bool) (t : Ns) (s : State) :
    GoesOn s (execTwinLinkState lanesOk heartbeat peer synced t s) :=
  ⟨_, rfl, .onlyIf ((twinLinkState_keeps ..).after ⟨rfl, rfl⟩) ⟨rfl, rfl⟩⟩

theorem execTwinCheckpoint_goesOn (t : Ns) (s : State) : GoesOn s (execTwinCheckpoint t s) :=
  ⟨_, rfl, .onlyIf ⟨rfl, rfl⟩ ⟨rfl, rfl⟩⟩

theorem applyEntry_keeps (s : State) (e : Nat × Option EpdEntry) : Keeps s (applyEntry s e) := by
  unfold applyEntry
  dsimp only
  split
  · exact ⟨rfl, rfl⟩
  · exact ⟨rfl, rfl⟩

theorem applyObjects_keeps (d : Checkpoint) (s : State) : Keeps s (applyObjects d s) :=
  (driveBalls_keeps ..).after (Keeps.after (.fold fun _ _ => applyEntry_keeps ..) ⟨rfl, rfl⟩)

theorem checkpointApply_keeps (boundary : Ns) (whole : Bool) (d : Checkpoint) (t : Ns) (s : State) :
    Keeps s (checkpointApply boundary whole d t s) :=
  .ite ((crossed_keeps ..).after (.ite ((applyObjects_keeps ..).trans (withTwin_keeps ..)) (.refl _))) (.ite
    ((applyObjects_keeps ..).trans (withTwin_keeps ..)) (.refl _))

theorem execTwinCheckpointApply_goesOn (boundary : Ns) (whole : Bool) (data : Checkpoint) (t : Ns) (s : State) :
    GoesOn s (execTwinCheckpointApply boundary whole data t s) :=
  ⟨_, rfl, .onlyIf ((checkpointApply_keeps ..).after ⟨rfl, rfl⟩) ⟨rfl, rfl⟩⟩

theorem resumeRtp_keeps (s : State) (c : Nat) : Keeps s (resumeRtp s c) :=
  (restartStream_keeps ..).after ⟨rfl, rfl⟩

theorem resumeEntry_keeps (s : State) (e : Nat × Nat × Nat) : Keeps s (resumeEntry s e) := by
  unfold resumeEntry
  dsimp only
  split
  · exact .refl _
  · exact ⟨rfl, rfl⟩

theorem resumeAll_keeps (s : State) : Keeps s (resumeAll s) :=
  (withEpd_keeps ..).after (Keeps.after (.fold fun _ _ => abandonAll_keeps ..) (Keeps.after (.fold fun _ _ =>
    resumeRtp_keeps ..) ((Keeps.update).after (.fold fun _ _ => resumeEntry_keeps ..))))

theorem execTwinAutoTakeover_goesOn (t : Ns) (s : State) : GoesOn s (execTwinAutoTakeover t s) :=
  ⟨_, rfl, .onlyIf ((takeoverEvent_keeps ..).after ((driveBalls_keeps ..).after ((resumeAll_keeps ..).after ⟨rfl,
    rfl⟩))) ⟨rfl, rfl⟩⟩

end Sys2Proof.Machine
end

section
/-! Every step keeps the rest of the queue and the fused identity (R387, R449). -/

namespace Sys2Proof.Machine

open Sys2Proof

/-- Every command goes on; those of the VPE's slots share one argument. -/
theorem exec_goesOn (i : Instr) (s : State) : GoesOn s (exec i s) := by
  cases i with
  | chanSetup => exact execChanSetup_goesOn ..
  | chanModify => exact execChanModify_goesOn ..
  | chanRelease => exact execChanRelease_goesOn ..
  | rtpSetup => exact execRtpSetup_goesOn ..
  | rtpModify => exact execRtpModify_goesOn ..
  | rtpRelease => exact execRtpRelease_goesOn ..
  | srtpKey => exact execSrtpKey_goesOn ..
  | tpSetup => exact execTpSetup_goesOn ..
  | tpModify => exact execTpModify_goesOn ..
  | tpRelease => exact execTpRelease_goesOn ..
  | tpKey => exact execTpKey_goesOn ..
  | tpCommand => exact execTpCommand_goesOn ..
  | tpTest => exact execTpTest_goesOn ..
  | rxcSetup => exact execRxcSetup_goesOn ..
  | rxcModify => exact execRxcModify_goesOn ..
  | rxcRelease => exact execRxcRelease_goesOn ..
  | rlSpi => exact execRlSpi_goesOn ..
  | rlGainTable => exact execRlGainTable_goesOn ..
  | rlGainSet => exact execRlGainSet_goesOn ..
  | rlRealign => exact execRlRealign_goesOn ..
  | rlCapture => exact execRlCapture_goesOn ..
  | txcSetup => exact execTxcSetup_goesOn ..
  | txcModify => exact execTxcModify_goesOn ..
  | txcRelease => exact execTxcRelease_goesOn ..
  | pttGroupSetup => exact execPttGroupSetup_goesOn ..
  | pttGroupRelease => exact execPttGroupRelease_goesOn ..
  | flowSetup => exact execFlowSetup_goesOn ..
  | flowRelease => exact execFlowRelease_goesOn ..
  | opSubmit => exact execOpSubmit_goesOn ..
  | opCancel => exact execOpCancel_goesOn ..
  | queueSetup => exact execQueueSetup_goesOn ..
  | queueModify => exact execQueueModify_goesOn ..
  | queueRelease => exact execQueueRelease_goesOn ..
  | queueFlush => exact execQueueFlush_goesOn ..
  | queueQuery => exact execQueueQuery_goesOn ..
  | qmgSweep => exact execQmgSweep_goesOn ..
  | bceJob => exact execBceJob_goesOn ..
  | bceAbort => exact execBceAbort_goesOn ..
  | recFlush => exact execRecFlush_goesOn ..
  | tdmCasSet => exact execTdmCasSet_goesOn ..
  | gateListSet => exact execGateListSet_goesOn ..
  | wakePatternSet => exact execWakePatternSet_goesOn ..
  | tbuTimeSet => exact execTbuTimeSet_goesOn ..
  | noticeAck => exact execNoticeAck_goesOn ..
  | sessionOpen => exact execSessionOpen_goesOn ..
  | sessionProve => exact execSessionProve_goesOn ..
  | sessionClose => exact execSessionClose_goesOn ..
  | idKeys => exact execIdKeys_goesOn ..
  | attest => exact execAttest_goesOn ..
  | ownerEnrol => exact execOwnerEnrol_goesOn ..
  | keySet => exact execKeySet_goesOn ..
  | setupUnlock => exact execSetupUnlock_goesOn ..
  | setupLock => exact execSetupLock_goesOn ..
  | userKernelsLoad => exact execUserKernelsLoad_goesOn ..
  | userKernelsClear => exact execUserKernelsClear_goesOn ..
  | epdPut => exact execEpdPut_goesOn ..
  | epdDelete => exact execEpdDelete_goesOn ..
  | epdGet => exact execEpdGet_goesOn ..
  | epdLoad => exact execEpdLoad_goesOn ..
  | epdExport => exact execEpdExport_goesOn ..
  | epdRebuild => exact execEpdRebuild_goesOn ..
  | epdClear => exact execEpdClear_goesOn ..
  | memScrub => exact execMemScrub_goesOn ..
  | commit => exact execCommit_goesOn ..
  | revert => exact execRevert_goesOn ..
  | standbyEnter => exact execStandbyEnter_goesOn ..
  | shutdown => exact execShutdown_goesOn ..
  | imgWrite => exact execImgWrite_goesOn ..
  | imgActivateMim => exact execImgActivateMim_goesOn ..
  | imgActivateCim => exact execImgActivateCim_goesOn ..
  | imgAcceptUntested => exact execImgAcceptUntested_goesOn ..
  | imgStatus => exact execImgStatus_goesOn ..
  | behaviourLockSet => exact execBehaviourLockSet_goesOn ..
  | behaviourLockClear => exact execBehaviourLockClear_goesOn ..
  | resetSoft => exact execResetSoft_goesOn ..
  | resetDomain => exact execResetDomain_goesOn ..
  | resetImage => exact execResetImage_goesOn ..
  | clusterMigrate => exact execClusterMigrate_goesOn ..
  | selfTest => exact execSelfTest_goesOn ..
  | twinPair => exact execTwinPair_goesOn ..
  | twinUnpair => exact execTwinUnpair_goesOn ..
  | twinTakeover => exact execTwinTakeover_goesOn ..
  | twinCopyConfig => exact execTwinCopyConfig_goesOn ..
  | mbxIdKeys => exact execMbxIdKeys_goesOn ..
  | mbxOwnerEnrol => exact execMbxOwnerEnrol_goesOn ..
  | ringCreate => exact execRingCreate_goesOn ..
  | ringReset => exact execRingReset_goesOn ..
  | ringDestroy => exact execRingDestroy_goesOn ..
  | hifKick v => exact execHifKick_goesOn v s
  | recoveryLoad => exact execRecoveryLoad_goesOn ..
  | rlEnable => exact execRlEnable_goesOn ..
  | rlDisable => exact execRlDisable_goesOn ..
  | ethPortDisable => exact execEthPortDisable_goesOn ..
  | registerWrite => exact execRegisterWrite_goesOn ..
  | barBadAccess write offset => exact execBarBadAccess_goesOn write offset s
  | powerOnReset => exact execPowerOnReset_goesOn ..
  | pinReset => exact execPinReset_goesOn ..
  | startUp => exact execStartUp_goesOn ..
  | startupReady => exact execStartupReady_goesOn ..
  | hifDomainReset => exact execHifDomainReset_goesOn ..
  | thermalSample => exact execThermalSample_goesOn ..
  | wakeMatch => exact execWakeMatch_goesOn ..
  | tick => exact execTick_goesOn ..
  | instanceIssue => exact execInstanceIssue_goesOn ..
  | deadlineExpiry => exact execDeadlineExpiry_goesOn ..
  | predTicksExpiry => exact execPredTicksExpiry_goesOn ..
  | arbitrationRound => exact execArbitrationRound_goesOn ..
  | opDispatch => exact execOpDispatch_goesOn ..
  | opComplete => exact execOpComplete_goesOn ..
  | patienceExpiry => exact execPatienceExpiry_goesOn ..
  | opAged => exact execOpAged_goesOn ..
  | bundleIssue => exact execBundleIssue_goesOn ..
  | itemEndMark => exact execItemEndMark_goesOn ..
  | cellReserve => exact execCellReserve_goesOn ..
  | take => exact execTake_goesOn ..
  | read => exact execRead_goesOn ..
  | finish => exact execFinish_goesOn ..
  | dropRest => exact execDropRest_goesOn ..
  | queueIntegrity => exact execQueueIntegrity_goesOn ..
  | sweepStart => exact execSweepStart_goesOn ..
  | sweepDone => exact execSweepDone_goesOn ..
  | tdmRxFrame => exact execTdmRxFrame_goesOn ..
  | tdmTxFrame => exact execTdmTxFrame_goesOn ..
  | tdmAlarm => exact execTdmAlarm_goesOn ..
  | crc4AutoTimeout => exact execCrc4AutoTimeout_goesOn ..
  | ethRxFrame => exact execEthRxFrame_goesOn ..
  | ethTxStart => exact execEthTxStart_goesOn ..
  | ethLinkChange => exact execEthLinkChange_goesOn ..
  | gateListSwitch => exact execGateListSwitch_goesOn ..
  | lpiEnter => exact execLpiEnter_goesOn ..
  | lpiWake => exact execLpiWake_goesOn ..
  | prpSvSend => exact execPrpSvSend_goesOn ..
  | prpEntryTimeout => exact execPrpEntryTimeout_goesOn ..
  | ptpMessageRx => exact execPtpMessageRx_goesOn ..
  | ptpInterval => exact execPtpInterval_goesOn ..
  | ppsEdge => exact execPpsEdge_goesOn ..
  | tbuRefUpdate => exact execTbuRefUpdate_goesOn ..
  | sysrefEdge => exact execSysrefEdge_goesOn ..
  | rlLinkState => exact execRlLinkState_goesOn ..
  | gainWindowDecision => exact execGainWindowDecision_goesOn ..
  | gainWriteDone => exact execGainWriteDone_goesOn ..
  | channelGainUpdate => exact execChannelGainUpdate_goesOn ..
  | detectWindow => exact execDetectWindow_goesOn ..
  | energyWindow => exact execEnergyWindow_goesOn ..
  | energySpanExpiry => exact execEnergySpanExpiry_goesOn ..
  | headerResult => exact execHeaderResult_goesOn ..
  | rxFrameEnd => exact execRxFrameEnd_goesOn ..
  | radioTxRequest => exact execRadioTxRequest_goesOn ..
  | txLaunch => exact execTxLaunch_goesOn ..
  | txComplete => exact execTxComplete_goesOn ..
  | pttHangExpiry => exact execPttHangExpiry_goesOn ..
  | ttuDecision => exact execTtuDecision_goesOn ..
  | guardAlarmExpiry => exact execGuardAlarmExpiry_goesOn ..
  | tpioSample => exact execTpioSample_goesOn ..
  | tpHeartbeat => exact execTpHeartbeat_goesOn ..
  | tpRxFrame => exact execTpRxFrame_goesOn ..
  | tpOutMinExpiry => exact execTpOutMinExpiry_goesOn ..
  | tpLinkTimeout => exact execTpLinkTimeout_goesOn ..
  | tpTestPhase => exact execTpTestPhase_goesOn ..
  | rtpRxPacket => exact execRtpRxPacket_goesOn ..
  | rtcpRx => exact execRtcpRx_goesOn ..
  | rtcpReportTimer => exact execRtcpReportTimer_goesOn ..
  | rxTimeoutExpiry => exact execRxTimeoutExpiry_goesOn ..
  | driftEstimate => exact execDriftEstimate_goesOn ..
  | dtmfRegenTimeout => exact execDtmfRegenTimeout_goesOn ..
  | toneDisablerRelease => exact execToneDisablerRelease_goesOn ..
  | avsStep => exact execAvsStep_goesOn ..
  | avsRetry => exact execAvsRetry_goesOn ..
  | doorbellPoll => exact execDoorbellPoll_goesOn ..
  | ptxItem => exact execPtxItem_goesOn ..
  | prxItemWrite => exact execPrxItemWrite_goesOn ..
  | rxHoldExpiry => exact execRxHoldExpiry_goesOn ..
  | eventWrite => exact execEventWrite_goesOn ..
  | indexSlotWrite => exact execIndexSlotWrite_goesOn ..
  | dmaRetry => exact execDmaRetry_goesOn ..
  | msixSend => exact execMsixSend_goesOn ..
  | statsBlock => exact execStatsBlock_goesOn ..
  | progressTimer => exact execProgressTimer_goesOn ..
  | bceJobDone => exact execBceJobDone_goesOn ..
  | resumeHandleExpiry => exact execResumeHandleExpiry_goesOn ..
  | recSegmentWrite => exact execRecSegmentWrite_goesOn ..
  | sessionIdleTimeout => exact execSessionIdleTimeout_goesOn ..
  | nonceExpiry => exact execNonceExpiry_goesOn ..
  | unlockExpiry => exact execUnlockExpiry_goesOn ..
  | backoffExpiry => exact execBackoffExpiry_goesOn ..
  | scrubPass => exact execScrubPass_goesOn ..
  | dramTimingCorrect => exact execDramTimingCorrect_goesOn ..
  | memoryUe => exact execMemoryUe_goesOn ..
  | epdRebuildSwitch => exact execEpdRebuildSwitch_goesOn ..
  | lifetimeWrite => exact execLifetimeWrite_goesOn ..
  | rotationTimer => exact execRotationTimer_goesOn ..
  | flowMigrate => exact execFlowMigrate_goesOn ..
  | selfTestDone => exact execSelfTestDone_goesOn ..
  | knownGoodTimer => exact execKnownGoodTimer_goesOn ..
  | cimHandover => exact execCimHandover_goesOn ..
  | watchdogRestart => exact execWatchdogRestart_goesOn ..
  | twinLinkState => exact execTwinLinkState_goesOn ..
  | twinCheckpoint => exact execTwinCheckpoint_goesOn ..
  | twinCheckpointApply => exact execTwinCheckpointApply_goesOn ..
  | twinAutoTakeover => exact execTwinAutoTakeover_goesOn ..
  | stealAgeExpiry => exact execStealAgeExpiry_goesOn ..
  | configurationRequest => exact execConfigurationRequest_goesOn ..
  | loReadCapture => exact execLoReadCapture_goesOn ..
  | imgWriteDone => exact execImgWriteDone_goesOn ..
  | userKernelsLoadDone => exact execUserKernelsLoadDone_goesOn ..
  | epdLoadDone => exact execEpdLoadDone_goesOn ..
  | epdExportDone => exact execEpdExportDone_goesOn ..
  | captureSegment => exact execCaptureSegment_goesOn ..
  | clusterMimLoaded => exact execClusterMimLoaded_goesOn ..
  | standbyReady => exact execStandbyReady_goesOn ..
    | nop | mul | mac | msu | cmac | cmacj | acclr | acadd | acsub | acsh | acins | spl | nrw | expa | norma | vadd
    | vsub | vmax | vmin | vabs | vneg | vshl | vshr | vand | vor | vxor | exp | norm | bexp | vshlv | vcmpgt |
    vcmpeq | vsel | vmov | ld | st | ld2 | ldst | lds | sts | movi | aluAdd | aluSub | aluAnd | aluOr | aluXor |
    aluShl | aluShr | aluShru | aluMul | aluMin | aluMax | aluMov | addi | br | loop | vbc | vext | valn | cmv |
    waitm | stop | fail | pset =>
    exact runOp_goesOn ..

/-- Settles O60: each command keeps the queue's rest and the identity, and the empty queue idles. -/
theorem everyStepKeepsQueueAndIdentity : Obligations.EveryStepKeepsQueueAndIdentity := by
  unfold Obligations.EveryStepKeepsQueueAndIdentity
  intro s
  cases queue : s.pending with
  | nil => exact ⟨s, by simp [step, queue], by simp [queue], rfl⟩
  | cons c rest =>
    obtain ⟨t, goes, kept, identity⟩ := exec_goesOn c { s with pending := rest }
    exact ⟨t, by simpa [step, queue] using goes, by simpa using kept, identity⟩

end Sys2Proof.Machine
end

section
/-! SUPPORT. A step runs the front of the queue; what reset leaves. -/

namespace Sys2Proof.Machine

open Sys2Proof

set_option Elab.async false

/-- Settles O58: both cases are those of `step`. -/
theorem stepRunsTheFrontOfTheQueue : Obligations.StepRunsTheFrontOfTheQueue := by
  unfold Obligations.StepRunsTheFrontOfTheQueue
  intro s
  refine ⟨fun c rest queue => ?_, fun queue => ?_⟩
  · rw [step, queue]
  · rw [step, queue]

/-- Settles O59: the blocks of the reset state are literal, and every setting in question has its default. -/
theorem stateAfterReset : Obligations.StateAfterReset := by
  unfold Obligations.StateAfterReset
  refine ⟨rfl, rfl, rfl, rfl, rfl, rfl, rfl, rfl, rfl, rfl, fun n => ?_, rfl, rfl, rfl, rfl, rfl, rfl, rfl, rfl, rfl, rfl,
    rfl, rfl, ?_⟩
  · rfl
  · decide

end Sys2Proof.Machine
end

section
/-! SUPPORT. Compares, stores, accesses out of bounds and control operations of a VPE (R222, R223, R236 to R240). -/

namespace Sys2Proof.Machine

open Sys2Proof

set_option Elab.async false

/-! ### Compares (R239) -/

theorem Vpe.getK_setK_same (w : Vpe) {i : Nat} (lo : 1 ≤ i) (hi : i ≤ 3) (x : BitVec 4) : (w.setK i x).getK i = x := by
  interval_cases i
  all_goals simp [Vpe.setK, Vpe.getK]

theorem Vpe.getK_setK_other (w : Vpe) {i j : Nat} (lo : 1 ≤ i) (hi : i ≤ 3) (x : BitVec 4) (h : j ≠ i) :
    (w.setK i x).getK j = w.getK j := by
  interval_cases i
  all_goals
    rcases j with _ | _ | _ | _ | _ | _ | _ | j
    all_goals simp [Vpe.setK, Vpe.getK] at h ⊢

theorem Vpe.setK_frame (w : Vpe) {i : Nat} (lo : 1 ≤ i) (hi : i ≤ 3) (x : BitVec 4) :
    w.setK i x = { w with k := (w.setK i x).k } := by
  interval_cases i
  all_goals rfl

/-- A blend of bits takes the enabled ones from the new value. -/
theorem getLsbD_blend (old m : BitVec 4) (c : Nat → Bool) {j : Nat} (h : j < 4) :
    ((old &&& ~~~ m) ||| (laneBits c &&& m)).getLsbD j = if m.getLsbD j then c j else old.getLsbD j := by
  rw [BitVec.getLsbD_or, BitVec.getLsbD_and, BitVec.getLsbD_not, BitVec.getLsbD_and, getLsbD_laneBits]
  cases m.getLsbD j
  · simp [h]
  · simp [h]

/-- A compare writes the enabled lanes of its predicate register. -/
theorem VpeAble.compareStep {i : Instr} {s : State} {n : Nat} {p : BitVec 4} {op : VOp} {f : VF} {c : Nat → Bool}
    (able : VpeAble s n p op) (runs : exec i s = .next (runOp n p op s)) (slot : slotKind op = .m)
    (legal : opOk op = (decide (1 ≤ f.vd.toNat) && decide (f.vd.toNat ≤ 3)))
    (writes : mSlot op ((vpeAt s n).mask p) (vpeAt s n) (vpeAt s n).counted =
      mSlot.cmpLanes ((vpeAt s n).mask p) (vpeAt s n).counted f c) :
    ∃ u : Vpe, VpeBecomes i s n u.advance ∧ u = { vpeAt s n with k := u.k, issued := (vpeAt s n).issued + 1 } ∧
      (∀ j, j ≠ f.vd.toNat → u.getK j = (vpeAt s n).getK j) ∧
      ∀ j, j < 4 → (u.getK f.vd.toNat).getLsbD j =
        (if ((vpeAt s n).mask p).getLsbD j then c j else ((vpeAt s n).getK f.vd.toNat).getLsbD j) := by
  have ranges := able.opOk_eq_true
  rw [legal, Bool.and_eq_true, decide_eq_true_eq, decide_eq_true_eq] at ranges
  obtain ⟨lo, hi⟩ := ranges
  have place : f.vd.toNat % 8 = f.vd.toNat := Nat.mod_eq_of_lt (by omega)
  refine ⟨_, able.becomes_m runs slot, ?_⟩
  rw [writes, mSlot.cmpLanes, place]
  refine ⟨Vpe.setK_frame _ lo hi _, fun j other => Vpe.getK_setK_other _ lo hi _ other, fun j lane => ?_⟩
  rw [Vpe.getK_setK_same _ lo hi]
  exact getLsbD_blend _ _ c lane

/-- Settles O3: both compares write their lanes through `compareStep`. -/
theorem vpeComparesWriteTheirPredicate : Obligations.VpeComparesWriteTheirPredicate := by
  unfold Obligations.VpeComparesWriteTheirPredicate
  intro s n p f r wrote
  refine ⟨fun able => able.compareStep rfl rfl rfl ?_, fun able => able.compareStep rfl rfl rfl ?_⟩
  · exact congrArg (mSlot.cmpLanes _ _ f) (funext fun i => BitVec.slt_eq_decide)
  · exact congrArg (mSlot.cmpLanes _ _ f) (funext fun i => Bool.beq_eq_decide_eq _ _)

/-! ### Stores (R222, R223) -/

theorem getD_putLine (m : FMap (BitVec 72)) (i a : Nat) (x : BitVec 72) :
    FMap.getD (putLine m i x) a 0 = if a = i then x else FMap.getD m a 0 := by
  unfold putLine FMap.getD
  by_cases same : a = i
  · subst same
    split
    next zero => simp [zero]
    next => simp
  · rw [if_neg same]
    split
    · rw [FMap.get?_del_other _ _ _ same]
    · rw [FMap.get?_set_other _ _ _ _ same]

/-- An enabled store into the window. -/
theorem VpeAble.storeStep {i : Instr} {s : State} {n : Nat} {p : BitVec 4} {op : VOp} {line : Nat} {x : BitVec 72}
    {regs : Vpe} (able : VpeAble s n p op) (on : (vpeAt s n).enabled p = true)
    (runs : exec i s = .next (runOp n p op s)) (slot : slotKind op = .l) (keeps : regs.mem = (vpeAt s n).mem)
    (writes : lSlot op (vpeAt s n) (vpeAt s n).counted = some { regs with mem := putLine regs.mem line x }) :
    ∃ u : Vpe, VpeBecomes i s n u.advance ∧ u = { regs with mem := u.mem } ∧
      ∀ a, FMap.getD u.mem a 0 = if a = line then x else FMap.getD (vpeAt s n).mem a 0 :=
  ⟨_, able.lStep on runs slot writes, rfl, fun a => keeps ▸ getD_putLine _ line a x⟩

/-- Settles O5: each store by its arm of `lSlot`. -/
theorem vpeStoresWriteOneLine : Obligations.VpeStoresWriteOneLine := by
  unfold Obligations.VpeStoresWriteOneLine
  intro s n p f r nextA ptrB stored on
  refine ⟨fun able inA => ?st, fun able inA => ?sts, fun able inA inB => ?ldst⟩
  case st => exact able.storeStep on rfl rfl rfl (if_pos inA)
  case sts => exact able.storeStep on rfl rfl rfl (if_pos inA)
  case ldst => exact able.storeStep on rfl rfl rfl (if_pos (Bool.and_eq_true _ _ ▸ ⟨inA, inB⟩))

/-! ### Accesses out of bounds (R222, R240) -/

theorem VpeAble.bounds {i : Instr} {s : State} {n : Nat} {p : BitVec 4} {op : VOp} (able : VpeAble s n p op)
    (on : (vpeAt s n).enabled p = true) (runs : exec i s = .next (runOp n p op s)) (slot : slotKind op = .l)
    (out : lSlot op (vpeAt s n) (vpeAt s n).counted = none) :
    VpeBecomes i s n { (vpeAt s n).counted with run := .faulted .bounds 0 } := by
  have h := able.becomes runs
  obtain ⟨-, -, -, hrun, hlo, hhi, hmax⟩ := able
  rw [issueOne_l slot hrun hlo hhi hmax, if_pos on] at h
  change lSlot op (vpeAt s n) { vpeAt s n with issued := (vpeAt s n).issued + 1 } = none at out
  rwa [out] at h

theorem Vpe.inWindow_iff (r : Vpe) (i : Nat) : r.inWindow i = true ↔ r.wLo ≤ i ∧ i ≤ r.wHi := by
  rw [Vpe.inWindow, Bool.and_eq_true, decide_eq_true_eq, decide_eq_true_eq]

theorem Vpe.loadable_iff (r : Vpe) (i : Nat) : r.loadable i = true ↔ (r.wLo ≤ i ∧ i ≤ r.wHi) ∨ 30720 ≤ i := by
  rw [Vpe.loadable, Bool.or_eq_true, Vpe.inWindow_iff, decide_eq_true_eq]

/-- Settles O6: each access by the guard of its arm of `lSlot`. -/
theorem vpeAccessOutOfBoundsFaults : Obligations.VpeAccessOutOfBoundsFaults := by
  unfold Obligations.VpeAccessOutOfBoundsFaults
  intro s n p f r ptrB load store bounds on
  refine ⟨fun able out => ?ld, fun able out => ?lds, fun able out => ?st, fun able out => ?sts, fun able out => ?ld2,
    fun able out => ?ldst⟩
  case ld => exact able.bounds on rfl rfl (if_neg fun ok => out ((Vpe.loadable_iff _ _).mp ok))
  case lds => exact able.bounds on rfl rfl (if_neg fun ok => out ((Vpe.loadable_iff _ _).mp ok))
  case st => exact able.bounds on rfl rfl (if_neg fun ok => out ((Vpe.inWindow_iff _ _).mp ok))
  case sts => exact able.bounds on rfl rfl (if_neg fun ok => out ((Vpe.inWindow_iff _ _).mp ok))
  case ld2 =>
    refine able.bounds on rfl rfl (if_neg fun ok => out ?_)
    obtain ⟨a, b⟩ := Bool.and_eq_true _ _ ▸ ok
    exact ⟨(Vpe.loadable_iff _ _).mp a, (Vpe.loadable_iff _ _).mp b⟩
  case ldst =>
    refine able.bounds on rfl rfl (if_neg fun ok => out ?_)
    obtain ⟨a, b⟩ := Bool.and_eq_true _ _ ▸ ok
    exact ⟨(Vpe.loadable_iff _ _).mp a, (Vpe.inWindow_iff _ _).mp b⟩

/-! ### Loop records (R238) -/

theorem Vpe.leave_frame (w : Vpe) (c : Bool) (t : Nat) :
    w.leave c t = { w with loop0 := (w.leave c t).loop0, loop1 := (w.leave c t).loop1, lc0 := (w.leave c t).lc0,
                           lc1 := (w.leave c t).lc1 } := by
  unfold Vpe.leave
  cases c
  all_goals
    split
    · split <;> rfl
    · rfl

/-- Leaving a loop touches neither record nor counter of the other. -/
theorem Vpe.leave_other (w : Vpe) (c : Bool) (t : Nat) :
    (w.leave c t).getLoop (!c) = w.getLoop (!c) ∧ (w.leave c t).getLC (!c) = w.getLC (!c) := by
  unfold Vpe.leave
  cases c
  all_goals
    split
    · split
      · exact ⟨rfl, rfl⟩
      · exact ⟨rfl, rfl⟩
    · exact ⟨rfl, rfl⟩

/-- A branch out of a loop ends it, one inside keeps it. -/
def LoopAfter (l : Option Loop) (n : BitVec 17) (t : Nat) (l' : Option Loop) (n' : BitVec 17) : Prop :=
  match l with
  | some l => if l.first ≤ t ∧ t ≤ l.last then l' = some l ∧ n' = n else l' = none ∧ n' = 0
  | none => l' = none ∧ n' = n

theorem Vpe.leave_same (w : Vpe) (c : Bool) (t : Nat) :
    LoopAfter (w.getLoop c) (w.getLC c) t ((w.leave c t).getLoop c) ((w.leave c t).getLC c) := by
  unfold Vpe.leave LoopAfter
  cases held : w.getLoop c with
  | none => exact ⟨held, rfl⟩
  | some l =>
    by_cases inside : l.first ≤ t ∧ t ≤ l.last
    · simp only [inside, and_self, decide_true, Bool.and_self, if_true]
      exact ⟨held, trivial⟩
    · have outside : (decide (l.first ≤ t) && decide (t ≤ l.last)) = false := by simpa using inside
      simp only [inside, outside, if_false]
      cases c
      · exact ⟨rfl, rfl⟩
      · exact ⟨rfl, rfl⟩

/-! ### Control (R236 to R239) -/

/-- An enabled operation of the X slot. -/
theorem VpeAble.controls {i : Instr} {s : State} {n : Nat} {p : BitVec 4} {op : VOp} (able : VpeAble s n p op)
    (on : (vpeAt s n).enabled p = true) (runs : exec i s = .next (runOp n p op s)) (slot : slotKind op = .x) :
    VpeBecomes i s n (control op true (vpeAt s n) (xSlot op s.free (vpeAt s n) (vpeAt s n).counted)) := by
  have h := able.becomes runs
  obtain ⟨-, -, -, hrun, hlo, hhi, hmax⟩ := able
  rwa [issueOne_x slot hrun hlo hhi hmax, if_pos on] at h

/-- A move of the cluster move unit reaches the window alone (R224). -/
theorem getD_freeWindow (fr : Nat) (r : Vpe) {i : Nat} (out : i < r.wLo ∨ r.wHi < i) :
    FMap.getD (freeWindow fr r) i 0 = FMap.getD r.mem i 0 := by
  unfold freeWindow
  have inside (k : Nat) (h : k ∈ List.range (r.wHi + 1 - r.wLo)) : i ≠ r.wLo + k := by
    have := List.mem_range.mp h
    omega
  generalize List.range (r.wHi + 1 - r.wLo) = l at inside
  generalize r.mem = m
  induction l generalizing m with
  | nil => rfl
  | cons k l ih =>
    rw [List.foldl_cons, ih (fun j h => inside j (List.mem_cons_of_mem _ h)), FMap.getD,
      FMap.get?_set_other _ _ _ _ (inside k List.mem_cons_self)]
    rfl

theorem narrowed_normaOf (sat : Bool) (x : BitVec 48) :
    Narrowed 48 sat (x.toInt * 2 ^ expOf 48 x) (normaOf x) false := by
  obtain ⟨lo, hi⟩ := shifted_by_expOf_fits (by decide) x
  rw [normaOf, shiftLeft_eq_ofInt]
  exact narrowed_ofInt (by decide) sat lo hi

/-- LOOP with a count starts its loop and leaves the other one alone (R236, R237). -/
theorem Vpe.startLoop_runs (w : Vpe) (f : LoopF) {c : Nat} (pos : 0 < c) (fits : c < 65536) :
    let u := w.startLoop f c
    u = { w with pc := w.pc + 1, loop0 := u.loop0, loop1 := u.loop1, lc0 := u.lc0, lc1 := u.lc1,
                 stage := if f.pipelined then #v[true, false, false, false] else w.stage } ∧
      u.getLoop f.ctr = some { first := w.pc + 1, last := f.endB.toNat, begun := 1, c, pipelined := f.pipelined } ∧
      (u.getLC f.ctr).toNat = (if f.pipelined then c + f.stages.toNat else c) ∧
      u.getLoop (!f.ctr) = w.getLoop (!f.ctr) ∧ u.getLC (!f.ctr) = w.getLC (!f.ctr) := by
  obtain ⟨endB, ctr, stages, pipelined, cnt⟩ := f
  have more := stages.isLt
  have small : (if pipelined then c + stages.toNat else c) < 2 ^ 17 := by
    split
    · omega
    · omega
  simp only [Vpe.startLoop, if_neg pos.ne']
  cases ctr
  all_goals exact ⟨rfl, rfl, (BitVec.toNat_ofNat _ _).trans (Nat.mod_eq_of_lt small), rfl, rfl⟩

/-- BR goes to its target and ends the loops it leaves (R238). -/
theorem control_br (r w : Vpe) (t : BitVec 12) :
    let u := control (.br t) true r w
    u = { w with pc := t.toNat, loop0 := u.loop0, loop1 := u.loop1, lc0 := u.lc0, lc1 := u.lc1 } ∧
      ∀ c, LoopAfter (w.getLoop c) (w.getLC c) t.toNat (u.getLoop c) (u.getLC c) := by
  intro u
  have target : u = { (w.leave false t.toNat).leave true t.toNat with pc := t.toNat } := rfl
  refine ⟨?_, fun c => ?_⟩
  · rw [target, Vpe.leave_frame (w.leave false t.toNat), Vpe.leave_frame w]
  · have same := (w.leave false t.toNat).leave_same true t.toNat
    obtain ⟨loop1, lc1⟩ := w.leave_other false t.toNat
    obtain ⟨loop0, lc0⟩ := (w.leave false t.toNat).leave_other true t.toNat
    cases c
    · have first := w.leave_same false t.toNat
      rwa [← show _ = (w.leave false t.toNat).getLoop false from loop0,
        ← show _ = (w.leave false t.toNat).getLC false from lc0] at first
    · rwa [show (w.leave false t.toNat).getLoop true = _ from loop1,
        show (w.leave false t.toNat).getLC true = _ from lc1] at same

/-- Settles O9: the M slot's NORMA by its lanes, every other operation by its arm of `control`. -/
theorem vpeControlOpsGoWhereTheySay : Obligations.VpeControlOpsGoWhereTheySay := by
  unfold Obligations.VpeControlOpsGoWhereTheySay
  intro s n p r
  refine ⟨fun able => ?nop, fun a b able => ?norma, fun on => ⟨fun t able => ?br, fun f able => ⟨fun none => ?pass, fun some => ?loop⟩,
    fun able => ?stop, fun code able => ?fail, fun able => ?waitm, fun a able => ?cmv⟩⟩
  case nop =>
    have h := able.becomes (i := .nop n p) rfl
    obtain ⟨-, -, -, hrun, hlo, hhi, hmax⟩ := able
    rwa [issueOne_nop hrun hlo hhi hmax] at h
  case norma => exact able.accStep_all rfl rfl rfl fun i => narrowed_normaOf _ _
  case br => exact ⟨_, able.controls on rfl rfl, control_br r r.counted t⟩
  case pass =>
    have h : VpeBecomes (.loop n p f) s n (r.counted.startLoop f _) := able.controls on rfl rfl
    rwa [Vpe.startLoop, if_pos none] at h
  case loop =>
    exact ⟨_, able.controls on rfl rfl, r.counted.startLoop_runs f some (Nat.mod_lt _ (by decide))⟩
  case stop =>
    have h : VpeBecomes (.stop n p) s n (if r.maxOut < (r.getS 1).toNat then r.counted.fault .overrun else { r.counted with run := .stopped }) :=
      able.controls on rfl rfl
    have ends := apply_ite (VpeBecomes (.stop n p) s n) (r.maxOut < (r.getS 1).toNat)
      (r.counted.fault .overrun) { r.counted with run := .stopped }
    split
    next above => exact cast (ends.trans (if_pos above)) h
    next within => exact cast (ends.trans (if_neg within)) h
  case fail => exact able.controls on rfl rfl
  case waitm => exact able.controls on rfl rfl
  case cmv => exact ⟨_, able.controls on rfl rfl, rfl, fun i out => getD_freeWindow s.free r out⟩

/-! ### Iteration boundaries (R236, R237) -/

/-- The bundle at which one loop alone ends is its iteration boundary. -/
theorem Vpe.advance_boundary (w : Vpe) {c : Bool} {l : Loop} (held : w.getLoop c = some l) (ends : w.pc = l.last)
    (alone : ∀ k, w.getLoop (!c) = some k → k.last ≠ w.pc) : w.advance = w.boundary c l := by
  unfold Vpe.advance
  cases c with
  | false =>
    have first : w.loop0 = some l := held
    simp only [first, ends, if_true]
  | true =>
    have second : w.loop1 = some l := held
    cases other : w.loop0 with
    | none => simp only [second, ends, if_true]
    | some k => simp only [second, ends, if_true, ends ▸ alone k other, if_false]

/-- What a boundary does to ROT and the stage predicates of a pipelined loop (R237). -/
def Vpe.turned (w : Vpe) (l : Loop) : Vpe :=
  if l.pipelined then { w with rot := w.rot - 1, stage := #v[decide (l.begun < l.c), w.stage[0], w.stage[1], w.stage[2]] }
  else w

theorem Vpe.getLC_turned (w : Vpe) (l : Loop) (c : Bool) : (w.turned l).getLC c = w.getLC c := by
  unfold Vpe.turned
  split
  · rfl
  · rfl

theorem Vpe.boundary_last (w : Vpe) {c : Bool} (l : Loop) (last : (w.getLC c).toNat = 1) :
    w.boundary c l = { ((w.turned l).setLC c 0).setLoop c none with pc := w.pc + 1 } := by
  have left : ((w.turned l).getLC c).toNat - 1 = 0 := by rw [w.getLC_turned, last]
  unfold Vpe.turned at left
  simp only [Vpe.boundary, Vpe.turned, left, if_true]
  rfl

theorem Vpe.boundary_more (w : Vpe) {c : Bool} (l : Loop) (more : 1 < (w.getLC c).toNat) :
    w.boundary c l = { ((w.turned l).setLC c (BitVec.ofNat 17 ((w.getLC c).toNat - 1))).setLoop c
      (some { l with begun := l.begun + 1 }) with pc := l.first } := by
  have left := congrArg (fun x => x.toNat - 1) (w.getLC_turned l c)
  unfold Vpe.turned at left
  simp only [Vpe.boundary, Vpe.turned, left, if_neg (by omega : ¬ (w.getLC c).toNat - 1 = 0)]

/-- What is left when a boundary has turned ROT and the stage predicates: one loop, its count and the next bundle are set. -/
theorem Vpe.setLC_setLoop_spec {t w : Vpe} {r : BitVec 4} {g : Vector Bool 4} (turned : t = { w with rot := r, stage := g }) (c : Bool)
    (k : BitVec 17) (x : Option Loop) (pc : Nat) : let u : Vpe := { (t.setLC c k).setLoop c x with pc }
    u = { w with pc := u.pc, loop0 := u.loop0, loop1 := u.loop1, lc0 := u.lc0, lc1 := u.lc1, rot := u.rot, stage := u.stage } ∧
    u.getLC c = k ∧ u.getLoop (!c) = w.getLoop (!c) ∧ u.getLC (!c) = w.getLC (!c) ∧ u.getLoop c = x ∧ u.rot = r ∧ u.stage = g := by
  subst turned
  cases c
  · exact ⟨rfl, rfl, rfl, rfl, rfl, rfl, rfl⟩
  · exact ⟨rfl, rfl, rfl, rfl, rfl, rfl, rfl⟩

/-- ROT and the stage predicates after a boundary (R237). -/
theorem Vpe.turned_spec (w : Vpe) (l : Loop) : ∃ r g, w.turned l = { w with rot := r, stage := g } ∧
    if l.pipelined then r = w.rot - 1 ∧ g = #v[decide (l.begun < l.c), w.stage[0], w.stage[1], w.stage[2]] else r = w.rot ∧ g = w.stage := by
  unfold Vpe.turned
  split
  · exact ⟨_, _, rfl, rfl, rfl⟩
  · exact ⟨_, _, rfl, rfl, rfl⟩

/-- Settles O10: the boundary's own fields, for each loop, at its last iteration or before. -/
theorem vpeIterationBoundary : Obligations.VpeIterationBoundary := by
  unfold Obligations.VpeIterationBoundary
  intro w c l held ends alone counts u
  have next : u = w.boundary c l := w.advance_boundary held ends alone
  obtain ⟨r, g, turned, kept⟩ := w.turned_spec l
  rw [next]
  have lower : (BitVec.ofNat 17 ((w.getLC c).toNat - 1)).toNat = (w.getLC c).toNat - 1 := by
    have := (w.getLC c).isLt
    rw [BitVec.toNat_ofNat]
    omega
  by_cases last : (w.getLC c).toNat = 1
  · obtain ⟨frame, lc, loopO, lcO, loop, rot, stage⟩ := Vpe.setLC_setLoop_spec turned c 0 none (w.pc + 1)
    rw [rot, stage] at frame
    rw [Vpe.boundary_last w l last, if_pos last, lc, rot, stage]
    exact ⟨frame, (congrArg (· - 1) last).symm, loopO, lcO, ⟨loop, rfl⟩, kept⟩
  · obtain ⟨frame, lc, loopO, lcO, loop, rot, stage⟩ := Vpe.setLC_setLoop_spec turned c (BitVec.ofNat 17 ((w.getLC c).toNat - 1))
      (some { l with begun := l.begun + 1 }) l.first
    rw [rot, stage] at frame
    rw [Vpe.boundary_more w l (by omega), if_neg last, lc, rot, stage]
    exact ⟨frame, lower, loopO, lcO, ⟨loop, rfl⟩, kept⟩

/-! ### Bundles that are not issued (R240, R243) -/

theorem bundleIssue_becomes {s : State} {n : Nat} (hn : n < 272) (running : (vpeAt s n).run = .running) :
    VpeBecomes (.bundleIssue n) s n (fetchIssue (codeAt s n).prog s.free (vpeAt s n)) := by
  obtain ⟨fr, h⟩ := runVpe_runs (f := fetchIssue (codeAt s n).prog) hn running
  exact ⟨_, rfl, by rw [h]⟩

theorem issue_outside {fr : Nat} {m0 m1 x l : SlotWord} {r : Vpe} (running : r.run = .running)
    (outside : r.pc < r.kBase ∨ r.kBase + r.kLen ≤ r.pc) : issue fr m0 m1 x l r = r.fault .illegal := by
  unfold issue
  rw [if_neg (by simp [running]), if_pos (by simpa using outside)]

theorem issue_overrun {fr : Nat} {m0 m1 x l : SlotWord} {r : Vpe} (running : r.run = .running) (lo : r.kBase ≤ r.pc)
    (hi : r.pc < r.kBase + r.kLen) (used : r.maxBundles ≤ r.issued) : issue fr m0 m1 x l r = r.fault .overrun := by
  unfold issue
  rw [if_neg (by simp [running]), if_neg (by simp; omega), if_pos used]

/-- Settles O12: each end by the guards of `fetchIssue` and `issue`. -/
theorem vpeBundleFaults : Obligations.VpeBundleFaults := by
  unfold Obligations.VpeBundleFaults
  intro s n hn running r word ends
  have becomes := bundleIssue_becomes hn running
  unfold fetchIssue at becomes
  refine ⟨fun outside left => ?_, fun lo hi used => ?_, fun left no => ?_⟩
  · split at becomes
    · rwa [issue_outside running outside] at becomes
    · rwa [if_neg (not_le.mpr left)] at becomes
  · split at becomes
    · rwa [issue_overrun running lo hi used] at becomes
    · rwa [if_pos used] at becomes
  · simp only [word, r] at no
    rw [no] at becomes
    simp only at becomes
    rwa [if_neg (not_le.mpr left)] at becomes

end Sys2Proof.Machine
end

section
/-! SUPPORT. Bundles of several slots, and the register codes (R215, R219, R220). -/

namespace Sys2Proof.Machine

open Sys2Proof

set_option Elab.async false

/-! ### Bundles (R219, R220) -/

theorem fetchIssue_encodeBundle {prog : FMap (BitVec 128)} {r : Vpe} {m0 m1 x l : SlotWord} (fr : Nat)
    (held : FMap.getD prog r.pc 0 = encodeBundle m0 m1 x l)
    (h0 : m0.1 ≠ 8 ∧ opOk m0.2 = true ∧ slotFits .m m0.2 = true) (h1 : m1.1 ≠ 8 ∧ opOk m1.2 = true ∧ slotFits .m m1.2 = true)
    (hx : x.1 ≠ 8 ∧ opOk x.2 = true ∧ slotFits .x x.2 = true) (hl : l.1 ≠ 8 ∧ opOk l.2 = true ∧ slotFits .l l.2 = true) :
    fetchIssue prog fr r = issue fr m0 m1 x l r := by
  rw [fetchIssue, held, bundleDecodesAsEncoded m0 m1 x l h0 h1 hx hl]

/-- NOP fits every slot. -/
theorem nop_fits {k : Slot} : (0 : BitVec 4) ≠ 8 ∧ opOk .nop = true ∧ slotFits k .nop = true := by
  cases k <;> decide

theorem runVpe_congr {n : Nat} {f g : Nat → Vpe → Vpe} {s : State} (h : f s.free (vpeAt s n) = g s.free (vpeAt s n)) :
    runVpe n f s = runVpe n g s := by
  unfold runVpe
  dsimp only
  rw [h]

/-- A bundle of one operation does what its command does. -/
theorem fetchIssue_one {prog : FMap (BitVec 128)} {r : Vpe} {p : BitVec 4} {op : VOp} (fr : Nat) (hp : p ≠ 8)
    (ok : opOk op = true)
    (held : FMap.getD prog r.pc 0 = match slotKind op with
      | .x => encodeBundle nopSlot nopSlot (p, op) nopSlot
      | .l => encodeBundle nopSlot nopSlot nopSlot (p, op)
      | _ => encodeBundle (p, op) nopSlot nopSlot nopSlot) :
    fetchIssue prog fr r = issueOne fr p op r := by
  have fits {k : Slot} (h : slotKind op = .any ∨ slotKind op = k) : p ≠ 8 ∧ opOk op = true ∧ slotFits k op = true :=
    ⟨hp, ok, by simpa [slotFits] using h⟩
  unfold issueOne
  cases slot : slotKind op
  all_goals rw [slot] at held
  case any => exact fetchIssue_encodeBundle fr held (fits (.inl slot)) nop_fits nop_fits nop_fits
  case m => exact fetchIssue_encodeBundle fr held (fits (.inr slot)) nop_fits nop_fits nop_fits
  case x => exact fetchIssue_encodeBundle fr held nop_fits nop_fits (fits (.inr slot)) nop_fits
  case l => exact fetchIssue_encodeBundle fr held nop_fits nop_fits nop_fits (fits (.inr slot))

/-- A move of all lanes puts the value and raises no event. -/
theorem Vpe.lanesV_move (w : Vpe) (rot : BitVec 4) (d : BitVec 5) (x : V4 (BitVec 18)) :
    w.lanesV rot d 15 (fun i => (x.lane i, false)) =
      { w with v := w.v.set (physV rot d).toNat x (physV rot d).isLt } := by
  have events : w.vst ||| ((laneBits fun _ => false) &&& 15).zeroExtend 16 = w.vst := by
    rw [show ((laneBits fun _ => false) &&& 15).zeroExtend 16 = 0#16 from rfl, BitVec.or_zero]
  unfold Vpe.lanesV Vpe.putV
  simp only [events]
  rfl

/-- Two moves of one bundle exchange their registers. -/
theorem issue_exchange {fr : Nat} {r : Vpe} {a b : BitVec 5} (running : r.run = .running) (lo : r.kBase ≤ r.pc)
    (hi : r.pc < r.kBase + r.kLen) (left : r.issued < r.maxBundles) :
    issue fr (0, .vmov ⟨a, b, 0, 0, false, false⟩) (0, .vmov ⟨b, a, 0, 0, false, false⟩) nopSlot nopSlot r =
      Vpe.advance { r.counted with
        v := (r.v.set (physV r.rot a).toNat (r.getV b) (physV r.rot a).isLt).set (physV r.rot b).toNat (r.getV a)
          (physV r.rot b).isLt } := by
  rw [issue_runs running lo hi left]
  simp only [Vpe.enabled_zero, if_true, xSlot_nop, lSlot_nop, control_nop, Vpe.mask_zero]
  have first : mSlot (.vmov ⟨a, b, 0, 0, false, false⟩) 15 r r.counted =
    { r.counted with v := r.v.set (physV r.rot a).toNat (r.getV b) (physV r.rot a).isLt } :=
    Vpe.lanesV_move r.counted r.rot a (r.getV b)
  have second (w : Vpe) : mSlot (.vmov ⟨b, a, 0, 0, false, false⟩) 15 r w =
    { w with v := w.v.set (physV r.rot b).toNat (r.getV a) (physV r.rot b).isLt } :=
    Vpe.lanesV_move w r.rot b (r.getV a)
  exact congrArg Vpe.advance ((congrArg _ first).trans (second _))

/-- Settles O13: the bundle decodes as it was encoded, and both moves read the registers before it. -/
theorem bundlesReadThenWrite : Obligations.BundlesReadThenWrite := by
  unfold Obligations.BundlesReadThenWrite
  refine ⟨fun s n p op hp ok held => ?one, fun s n a b able apart held => ?exchange⟩
  case one =>
    refine ⟨_, rfl, ?_⟩
    unfold runOp
    rw [if_neg (by simpa [ok] using hp)]
    exact runVpe_congr (fetchIssue_one s.free hp ok held)
  case exchange =>
    obtain ⟨hn, -, -, running, lo, hi, left⟩ := able
    have becomes := bundleIssue_becomes hn running
    have fits : (0 : BitVec 4) ≠ 8 ∧ opOk (.vmov ⟨a, b, 0, 0, false, false⟩) = true ∧
        slotFits .m (.vmov ⟨a, b, 0, 0, false, false⟩) = true := ⟨by decide, rfl, rfl⟩
    have fits' : (0 : BitVec 4) ≠ 8 ∧ opOk (.vmov ⟨b, a, 0, 0, false, false⟩) = true ∧
        slotFits .m (.vmov ⟨b, a, 0, 0, false, false⟩) = true := ⟨by decide, rfl, rfl⟩
    rw [fetchIssue_encodeBundle _ held fits fits' nop_fits nop_fits, issue_exchange running lo hi left] at becomes
    have different : (physV (vpeAt s n).rot a).toNat ≠ (physV (vpeAt s n).rot b).toNat :=
      fun e => apart (BitVec.eq_of_toNat_eq e)
    refine ⟨_, becomes, ?_, ?_, rfl, fun k notA notB => ?_⟩
    · exact (Vector.getElem_set_ne (BitVec.isLt _) _ different.symm).trans (Vector.getElem_set_self _)
    · exact Vector.getElem_set_self _
    · have ka : (physV (vpeAt s n).rot a).toNat ≠ (physV (vpeAt s n).rot k).toNat :=
        fun e => notA (BitVec.eq_of_toNat_eq e.symm)
      have kb : (physV (vpeAt s n).rot b).toNat ≠ (physV (vpeAt s n).rot k).toNat :=
        fun e => notB (BitVec.eq_of_toNat_eq e.symm)
      exact (Vector.getElem_set_ne (BitVec.isLt _) _ kb).trans (Vector.getElem_set_ne (BitVec.isLt _) _ ka)

/-! ### Register codes (R215, R219) -/

section
variable (w : Vpe) {c : BitVec 6} (x : BitVec 36)

theorem setCode_s (h : c.toNat < 16) : w.setCode c x = w.setS (c.truncate 4) x := by
  obtain file | file : c.toNat / 8 = 0 ∨ c.toNat / 8 = 1 := by omega
  · simp only [Vpe.setCode, file]
  · simp only [Vpe.setCode, file]

theorem setCode_p (lo : 16 ≤ c.toNat) (hi : c.toNat < 24) : w.setCode c x = w.setP (c.truncate 3) (x.truncate 15) := by
  simp only [Vpe.setCode, (by omega : c.toNat / 8 = 2)]

theorem setCode_b (lo : 24 ≤ c.toNat) (hi : c.toNat < 32) : w.setCode c x = w.setB (c.truncate 3) (x.truncate 15) := by
  simp only [Vpe.setCode, (by omega : c.toNat / 8 = 3)]

theorem setCode_n (lo : 32 ≤ c.toNat) (hi : c.toNat < 40) : w.setCode c x = w.setN (c.truncate 3) (x.truncate 16) := by
  simp only [Vpe.setCode, (by omega : c.toNat / 8 = 4)]

theorem getCode_s (h : c.toNat < 16) : w.getCode c = w.getS (c.truncate 4) := by
  obtain file | file : c.toNat / 8 = 0 ∨ c.toNat / 8 = 1 := by omega
  · simp only [Vpe.getCode, file]
  · simp only [Vpe.getCode, file]

theorem getCode_p (lo : 16 ≤ c.toNat) (hi : c.toNat < 24) : w.getCode c = (w.getP (c.truncate 3)).zeroExtend 36 := by
  simp only [Vpe.getCode, (by omega : c.toNat / 8 = 2)]

theorem getCode_b (lo : 24 ≤ c.toNat) (hi : c.toNat < 32) : w.getCode c = (w.getB (c.truncate 3)).zeroExtend 36 := by
  simp only [Vpe.getCode, (by omega : c.toNat / 8 = 3)]

theorem getCode_n (lo : 32 ≤ c.toNat) (hi : c.toNat < 40) : w.getCode c = (w.getN (c.truncate 3)).zeroExtend 36 := by
  simp only [Vpe.getCode, (by omega : c.toNat / 8 = 4)]

theorem getCode_k (lo : 40 ≤ c.toNat) (hi : c.toNat < 48) : w.getCode c = (w.getK (c.toNat % 8)).zeroExtend 36 := by
  simp only [Vpe.getCode, (by omega : c.toNat / 8 = 5)]

end

/-- The five codes above the files. -/
theorem code_cases {c : BitVec 6} (lo : 48 ≤ c.toNat) (ok : codeOk c = true) :
    c = 0x30 ∨ c = 0x31 ∨ c = 0x32 ∨ c = 0x33 ∨ c = 0x34 := by
  have hi : c.toNat ≤ 0x34 := of_decide_eq_true ok
  obtain h | h | h | h | h : c.toNat = 0x30 ∨ c.toNat = 0x31 ∨ c.toNat = 0x32 ∨ c.toNat = 0x33 ∨ c.toNat = 0x34 := by omega
  · exact .inl (BitVec.eq_of_toNat_eq h)
  · exact .inr (.inl (BitVec.eq_of_toNat_eq h))
  · exact .inr (.inr (.inl (BitVec.eq_of_toNat_eq h)))
  · exact .inr (.inr (.inr (.inl (BitVec.eq_of_toNat_eq h))))
  · exact .inr (.inr (.inr (.inr (BitVec.eq_of_toNat_eq h))))

/-- A read under a code depends on the register it names. -/
theorem getCode_congr {u w : Vpe} {e : BitVec 6} (ok : codeOk e = true)
    (s : e.toNat < 16 → u.getS (e.truncate 4) = w.getS (e.truncate 4))
    (p : 16 ≤ e.toNat → e.toNat < 24 → u.getP (e.truncate 3) = w.getP (e.truncate 3))
    (b : 24 ≤ e.toNat → e.toNat < 32 → u.getB (e.truncate 3) = w.getB (e.truncate 3))
    (n : 32 ≤ e.toNat → e.toNat < 40 → u.getN (e.truncate 3) = w.getN (e.truncate 3))
    (k : 40 ≤ e.toNat → e.toNat < 48 → u.getK (e.toNat % 8) = w.getK (e.toNat % 8))
    (lc0 : e = 0x30 → u.lc0 = w.lc0) (lc1 : e = 0x31 → u.lc1 = w.lc1) (rot : e = 0x32 → u.rot = w.rot)
    (vst : e = 0x33 → u.vst = w.vst) (amode : e = 0x34 → u.amode = w.amode) : u.getCode e = w.getCode e := by
  obtain h | h | h | h | h | h : e.toNat < 16 ∨ (16 ≤ e.toNat ∧ e.toNat < 24) ∨ (24 ≤ e.toNat ∧ e.toNat < 32) ∨
      (32 ≤ e.toNat ∧ e.toNat < 40) ∨ (40 ≤ e.toNat ∧ e.toNat < 48) ∨ 48 ≤ e.toNat := by omega
  · rw [getCode_s u h, getCode_s w h, s h]
  · rw [getCode_p u h.1 h.2, getCode_p w h.1 h.2, p h.1 h.2]
  · rw [getCode_b u h.1 h.2, getCode_b w h.1 h.2, b h.1 h.2]
  · rw [getCode_n u h.1 h.2, getCode_n w h.1 h.2, n h.1 h.2]
  · rw [getCode_k u h.1 h.2, getCode_k w h.1 h.2, k h.1 h.2]
  · obtain rfl | rfl | rfl | rfl | rfl := code_cases h ok
    · exact congrArg (fun v : BitVec 17 => (v.truncate 16).zeroExtend 36) (lc0 rfl)
    · exact congrArg (fun v : BitVec 17 => (v.truncate 16).zeroExtend 36) (lc1 rfl)
    · exact congrArg (BitVec.zeroExtend 36) (rot rfl)
    · exact congrArg (BitVec.zeroExtend 36) (vst rfl)
    · exact congrArg (BitVec.zeroExtend 36) (amode rfl)

/-- Two codes of one file of scalars name different registers. -/
theorem truncate4_ne {c e : BitVec 6} (hc : c.toNat < 16) (he : e.toNat < 16) (h : e ≠ c) :
    (c.truncate 4).toNat ≠ (e.truncate 4).toNat := fun same => h (BitVec.eq_of_toNat_eq (by
  rw [BitVec.truncate_eq_setWidth, BitVec.toNat_setWidth, BitVec.truncate_eq_setWidth, BitVec.toNat_setWidth] at same
  omega))

/-- Two codes of one file of eight name different registers. -/
theorem truncate3_ne {c e : BitVec 6} (file : c.toNat / 8 = e.toNat / 8) (h : e ≠ c) :
    (c.truncate 3).toNat ≠ (e.truncate 3).toNat := fun same => h (BitVec.eq_of_toNat_eq (by
  rw [BitVec.truncate_eq_setWidth, BitVec.toNat_setWidth, BitVec.truncate_eq_setWidth, BitVec.toNat_setWidth] at same
  omega))

/-- A predicate register is written alone. -/
theorem getK_setK_ne (w : Vpe) {i j : Nat} (hi : i < 8) (hj : j < 8) (x : BitVec 4) (h : j ≠ i) :
    (w.setK i x).getK j = w.getK j := by
  interval_cases i
  all_goals interval_cases j
  all_goals simp [Vpe.setK, Vpe.getK] at h ⊢

theorem setK_frame (w : Vpe) (i : Nat) (x : BitVec 4) :
    w.setK i x = { w with k := (w.setK i x).k, stage := (w.setK i x).stage } := by
  unfold Vpe.setK
  split
  all_goals rfl

/-- A write under a code reaches no register under another. -/
theorem getCode_setCode_other (w : Vpe) {c e : BitVec 6} (x : BitVec 36) (okc : codeOk c = true) (oke : codeOk e = true)
    (h : e ≠ c) : (w.setCode c x).getCode e = w.getCode e := by
  obtain s | ⟨lo, hi⟩ | ⟨lo, hi⟩ | ⟨lo, hi⟩ | ⟨lo, hi⟩ | lo : c.toNat < 16 ∨ (16 ≤ c.toNat ∧ c.toNat < 24) ∨
      (24 ≤ c.toNat ∧ c.toNat < 32) ∨ (32 ≤ c.toNat ∧ c.toNat < 40) ∨ (40 ≤ c.toNat ∧ c.toNat < 48) ∨ 48 ≤ c.toNat := by
    omega
  · rw [setCode_s w x s]
    refine getCode_congr oke (fun he => ?_) (fun _ _ => rfl) (fun _ _ => rfl) (fun _ _ => rfl) (fun _ _ => rfl)
      (fun _ => rfl) (fun _ => rfl) (fun _ => rfl) (fun _ => rfl) (fun _ => rfl)
    exact Vector.getElem_set_ne (BitVec.isLt _) _ (truncate4_ne s he h)
  · rw [setCode_p w x lo hi]
    refine getCode_congr oke (fun _ => rfl) (fun l u => ?_) (fun _ _ => rfl) (fun _ _ => rfl) (fun _ _ => rfl)
      (fun _ => rfl) (fun _ => rfl) (fun _ => rfl) (fun _ => rfl) (fun _ => rfl)
    exact Vector.getElem_set_ne (BitVec.isLt _) _ (truncate3_ne (by omega) h)
  · rw [setCode_b w x lo hi]
    refine getCode_congr oke (fun _ => rfl) (fun _ _ => rfl) (fun l u => ?_) (fun _ _ => rfl) (fun _ _ => rfl)
      (fun _ => rfl) (fun _ => rfl) (fun _ => rfl) (fun _ => rfl) (fun _ => rfl)
    exact Vector.getElem_set_ne (BitVec.isLt _) _ (truncate3_ne (by omega) h)
  · rw [setCode_n w x lo hi]
    refine getCode_congr oke (fun _ => rfl) (fun _ _ => rfl) (fun _ _ => rfl) (fun l u => ?_) (fun _ _ => rfl)
      (fun _ => rfl) (fun _ => rfl) (fun _ => rfl) (fun _ => rfl) (fun _ => rfl)
    exact Vector.getElem_set_ne (BitVec.isLt _) _ (truncate3_ne (by omega) h)
  · rw [setCode_predicate w x lo hi]
    refine getCode_congr oke (fun _ => ?_) (fun _ _ => ?_) (fun _ _ => ?_) (fun _ _ => ?_) (fun l u => ?_)
      (fun _ => ?_) (fun _ => ?_) (fun _ => ?_) (fun _ => ?_) (fun _ => ?_)
    case refine_5 =>
      refine getK_setK_ne w (Nat.mod_lt _ (by decide)) (Nat.mod_lt _ (by decide)) _ fun same => h ?_
      exact BitVec.eq_of_toNat_eq (by omega)
    case refine_1 | refine_2 | refine_3 | refine_4 =>
      rw [setK_frame]
      rfl
    all_goals rw [setK_frame]
  · obtain rfl | rfl | rfl | rfl | rfl := code_cases lo okc
    · exact getCode_congr oke (fun _ => rfl) (fun _ _ => rfl) (fun _ _ => rfl) (fun _ _ => rfl) (fun _ _ => rfl)
        (fun e => absurd e h) (fun _ => rfl) (fun _ => rfl) (fun _ => rfl) (fun _ => rfl)
    · exact getCode_congr oke (fun _ => rfl) (fun _ _ => rfl) (fun _ _ => rfl) (fun _ _ => rfl) (fun _ _ => rfl)
        (fun _ => rfl) (fun e => absurd e h) (fun _ => rfl) (fun _ => rfl) (fun _ => rfl)
    · exact getCode_congr oke (fun _ => rfl) (fun _ _ => rfl) (fun _ _ => rfl) (fun _ _ => rfl) (fun _ _ => rfl)
        (fun _ => rfl) (fun _ => rfl) (fun e => absurd e h) (fun _ => rfl) (fun _ => rfl)
    · exact getCode_congr oke (fun _ => rfl) (fun _ _ => rfl) (fun _ _ => rfl) (fun _ _ => rfl) (fun _ _ => rfl)
        (fun _ => rfl) (fun _ => rfl) (fun _ => rfl) (fun e => absurd e h) (fun _ => rfl)
    · exact getCode_congr oke (fun _ => rfl) (fun _ _ => rfl) (fun _ _ => rfl) (fun _ _ => rfl) (fun _ _ => rfl)
        (fun _ => rfl) (fun _ => rfl) (fun _ => rfl) (fun _ => rfl) (fun e => absurd e h)

/-- A stage predicate reads 0 or 1, the low bit of what was written. -/
theorem getK_setK_stage (w : Vpe) {i : Nat} (lo : 4 ≤ i) (hi : i < 8) (x : BitVec 4) :
    (w.setK i x).getK i = if x.getLsbD 0 then 1 else 0 := by
  interval_cases i
  all_goals simp [Vpe.setK, Vpe.getK]

theorem zeroExtend_low_bit (x : BitVec 36) :
    (if (x.truncate 4).getLsbD 0 then (1 : BitVec 4) else 0).zeroExtend 36 = (x.truncate 1).zeroExtend 36 := by
  refine BitVec.eq_of_getLsbD_eq fun i _ => ?_
  by_cases bit : i = 0
  · subst bit
    by_cases h : x[0] = true
    · simp [h]
    · simp [h]
  · have : ¬ i < 1 := by omega
    by_cases h : x[0] = true
    · simp [h, this, bit]
    · simp [h, this]

/-- Ones clear bits, in 16 bits or in 36. -/
theorem zeroExtend_clear (v x : BitVec 16) : (v &&& ~~~ x).zeroExtend 36 = v.zeroExtend 36 &&& ~~~ x.zeroExtend 36 := by
  refine BitVec.eq_of_getLsbD_eq fun i hi => ?_
  by_cases low : i < 16
  · simp [hi, low]
  · simp [hi, low, BitVec.getLsbD_of_ge v i (by omega)]

theorem setCode_frame (w : Vpe) (c : BitVec 6) (x : BitVec 36) :
    w.setCode c x = { w with s := (w.setCode c x).s, p := (w.setCode c x).p, b := (w.setCode c x).b,
                             n := (w.setCode c x).n, k := (w.setCode c x).k, stage := (w.setCode c x).stage,
                             lc0 := (w.setCode c x).lc0, lc1 := (w.setCode c x).lc1, rot := (w.setCode c x).rot,
                             vst := (w.setCode c x).vst, amode := (w.setCode c x).amode } := by
  unfold Vpe.setCode
  dsimp only
  split
  case h_6 => rw [setK_frame]
  case h_7 =>
    split
    all_goals rfl
  all_goals rfl

/-- Settles O8: one lemma per file of codes. -/
theorem vpeRegisterCodesReachOneRegister : Obligations.VpeRegisterCodesReachOneRegister := by
  unfold Obligations.VpeRegisterCodesReachOneRegister
  intro w c x u
  refine ⟨fun hi => ?scalar, getCode_setCode_pointer w c x, toNat_getCode_setCode_length w c x, fun k0 => ?k0,
    fun lo hi => ?vector, fun lo hi => ?stage, fun h => ?counter, fun h => ?rot, fun h => ?vst, fun h => ?amode, rfl,
    fun e okc oke h => getCode_setCode_other w x okc oke h, setCode_frame w c x⟩
  case scalar =>
    rw [getCode_s _ hi, show u = _ from setCode_s w x hi]
    exact Vector.getElem_set_self _
  case k0 =>
    rw [show u = _ from setCode_predicate w x (by omega) (by omega), k0]
    rfl
  case vector =>
    rw [getCode_k _ (by omega) (by omega), show u = _ from setCode_predicate w x (by omega) (by omega),
      Vpe.getK_setK_same w (by omega) (by omega)]
  case stage =>
    rw [getCode_k _ (by omega) (by omega), show u = _ from setCode_predicate w x (by omega) (by omega),
      getK_setK_stage w (by omega) (by omega)]
    exact zeroExtend_low_bit x
  case counter =>
    obtain h | h := h
    · obtain rfl : c = 0x30 := BitVec.eq_of_toNat_eq h
      exact congrArg (BitVec.zeroExtend 36) (BitVec.setWidth_setWidth_of_le (x.truncate 16) (by decide))
    · obtain rfl : c = 0x31 := BitVec.eq_of_toNat_eq h
      exact congrArg (BitVec.zeroExtend 36) (BitVec.setWidth_setWidth_of_le (x.truncate 16) (by decide))
  case rot =>
    obtain rfl : c = 0x32 := BitVec.eq_of_toNat_eq h
    rfl
  case vst =>
    obtain rfl : c = 0x33 := BitVec.eq_of_toNat_eq h
    exact zeroExtend_clear w.vst (x.truncate 16)
  case amode =>
    obtain rfl : c = 0x34 := BitVec.eq_of_toNat_eq h
    rfl

end Sys2Proof.Machine
end

section
/-! SUPPORT. The commands of host flows, and what issue, time and a VPE's end do to instances and ops (R250 to R271). -/

namespace Sys2Proof.Machine

open Sys2Proof

set_option Elab.async false

/-! ### States that a command leaves -/

/-- A command of a CMD ring whose own part completes leaves its completion after the effect. -/
theorem answers_done {i : Instr} {c : CmdSpec} {h : CmdHdr} {own : State → CmdRes} {s u : State} {st : Nat} {b : Bytes}
    (runs : exec i s = .next (runCmd c h own s)) (ready : Ready c h s)
    (ends : own (take h.ring s) = .done st b u) : exec i s = .next (finish c h s st b u) :=
  runs.trans (congrArg _ (runCmd_done ready ends))

/-- A command of a CMD ring whose own part waits. -/
theorem answers_wait {i : Instr} {c : CmdSpec} {h : CmdHdr} {own : State → CmdRes} {s u : State}
    (runs : exec i s = .next (runCmd c h own s)) (ready : Ready c h s)
    (holds : own (take h.ring s) = .wait u) : exec i s = .next (waits c h s u) :=
  runs.trans (congrArg _ (runCmd_wait ready holds))

theorem checked_of_ok {st : Nat} (effect s : State) (ok : st = St.ok) : checked st effect s = .done St.ok [] effect :=
  if_pos ok

theorem checked_of_ne {st : Nat} (effect s : State) (bad : st ≠ St.ok) : checked st effect s = .done st [] s :=
  if_neg bad

/-- The answer of a command whose check passes is its effect, but for the host interface, the sessions and the
counters. -/
theorem answers_checked {i : Instr} {c : CmdSpec} {h : CmdHdr} {status : State → Nat} {effect : State → State} {s : State}
    (runs : exec i s = .next (runCmd c h (fun s1 => checked (status s1) (effect s1) s1) s)) (ready : Ready c h s)
    (ok : status (take h.ring s) = St.ok) :
    ∃ t, exec i s = .next t ∧ HostOnly (effect (take h.ring s)) t :=
  ⟨_, answers_done runs ready (checked_of_ok _ _ ok), finish_hostOnly ..⟩

theorem HostOnly.eq {u t : State} (h : HostOnly u t) : t = { u with hif := t.hif, sec := t.sec, counters := t.counters } := h

/-- What does not read the host interface, the sessions and the counters reads the same. -/
theorem HostOnly.field {α : Type} {u t : State} (host : HostOnly u t) (f : State → α)
    (same : ∀ h x c, f { u with hif := h, sec := x, counters := c } = f u := by intros; rfl) : f t = f u := by
  rw [host.eq]
  exact same ..

/-! ### Homes (R256) -/

theorem newHomes_lt {s : State} {k : Nat} (h : k ∈ newHomes s) : k < 17 := by
  have active {k : Nat} (h : k ∈ activeClusters s) : k < 17 := List.mem_range.mp (List.mem_of_mem_filter h)
  unfold newHomes at h
  split at h
  · exact active h
  · dsimp only at h
    split at h
    · exact active h
    · exact List.mem_range.mp (List.mem_of_mem_filter h)

theorem chooseHome_lt (s : State) (c : Nat) : (chooseHome s c).1 < 272 := by
  have cluster : (if (newHomes s).contains c then c
      else (newHomes s).getD ((drawNat s).1 / 16 % max 1 (newHomes s).length) 0) < 17 := by
    split
    next named => exact newHomes_lt (List.contains_iff_mem.mp named)
    next =>
      rw [List.getD_eq_getElem?_getD]
      cases found : (newHomes s)[(drawNat s).1 / 16 % max 1 (newHomes s).length]? with
      | none => decide
      | some k => exact newHomes_lt (List.mem_of_getElem? found)
  unfold chooseHome
  dsimp only
  omega

/-! ### FLOW_SETUP (R250, R251) -/

theorem flow?_addFlow_same (f : Nat) (fl : Flow) (s : State) :
    flow? (addFlow f fl s) f = some (if fl.period = 0 then fl else { fl with nextNum := 1 }) := by
  unfold addFlow flow?
  dsimp only
  split
  · simp [withFsc]
  · simp [withFsc, withFlow]

theorem flow?_addFlow_other {f g : Nat} (fl : Flow) (s : State) (h : g ≠ f) : flow? (addFlow f fl s) g = flow? s g := by
  unfold addFlow flow?
  dsimp only
  split
  · simp [withFsc, FMap.get?_set_other, h]
  · simp [withFsc, withFlow, FMap.get?_set_other, FMap.get?_adj_other, h]

theorem delay_addFlow (f : Nat) (fl : Flow) (s : State) :
    (addFlow f fl s).fsc.delay = if fl.period = 0 then s.fsc.delay
      else s.fsc.delay ++ [(cdiv (s.clk.tick + 1) fl.period * fl.period, f, 0)] := by
  unfold addFlow
  dsimp only
  split
  · rfl
  · rfl

theorem addFlow_frame (f : Nat) (fl : Flow) (s : State) :
    addFlow f fl s = { s with fsc := (addFlow f fl s).fsc, free := (addFlow f fl s).free } := by
  unfold addFlow
  dsimp only
  split
  · rfl
  · rfl

/-- A flow as FLOW_SETUP leaves it: home and cluster are chosen, and the first entry of a paced one is listed. -/
theorem setupFlow_spec (ring : Nat) (b : Bytes) (s : State) :
    let fl := flowOf ring 0 b
    let u := setupFlow ring b s
    u = { s with fsc := u.fsc, free := u.free } ∧ (∀ g, g ≠ leAt b 0 2 → flow? u g = flow? s g) ∧
      u.fsc.delay = (if fl.period = 0 then s.fsc.delay
        else s.fsc.delay ++ [(cdiv (s.clk.tick + 1) fl.period * fl.period, leAt b 0 2, 0)]) ∧
      ∃ home, home < 272 ∧ flow? u (leAt b 0 2) =
        some { fl with homeVpe := home, cluster := home / 16, nextNum := if fl.period = 0 then 0 else 1 } := by
  intro fl u
  have set : u = addFlow (leAt b 0 2) (flowOf ring (chooseHome s (fieldAt b 0x0C 4 0)).1 b)
    (chooseHome s (fieldAt b 0x0C 4 0)).2 := rfl
  have drawn : (chooseHome s (fieldAt b 0x0C 4 0)).2 = { s with free := s.free + 1 } := rfl
  rw [set, drawn]
  refine ⟨addFlow_frame .., fun g other => flow?_addFlow_other _ _ other, delay_addFlow ..,
    (chooseHome s (fieldAt b 0x0C 4 0)).1, chooseHome_lt .., ?_⟩
  rw [flow?_addFlow_same]
  have period : (flowOf ring (chooseHome s (fieldAt b 0x0C 4 0)).1 b).period = fl.period := rfl
  rw [period]
  by_cases unpaced : fl.period = 0
  · rw [if_pos unpaced, if_pos unpaced]
    rfl
  · rw [if_neg unpaced, if_neg unpaced]
    rfl

/-- Settles O16: each command by its own part. -/
theorem flowCommandsReachTheScheduler : Obligations.FlowCommandsReachTheScheduler := by
  unfold Obligations.FlowCommandsReachTheScheduler
  intro h s s1 touched
  refine ⟨fun ready ok => ?setup, fun f ready live => ?release, fun f fl ready live held unpaced => ?submit,
    fun f fl x mask i ready live held found => ?cancel⟩
  case setup =>
    obtain ⟨t, runs, host⟩ := answers_checked (i := .flowSetup h) rfl ready ok
    obtain ⟨frame, others, delay, home, small, put⟩ := setupFlow_spec h.ring (blk h) s1
    have fsc : t.fsc = (setupFlow h.ring (blk h) s1).fsc := host.field State.fsc
    refine ⟨t, runs, ?_, home, small, ?_, fun g other => ?_, ?_⟩
    · rw [host.eq, frame]
      rfl
    · rw [flow?, fsc]
      exact put
    · rw [flow?, fsc]
      exact others g other
    · rw [fsc]
      exact delay
  case release =>
    refine answers_wait rfl ready ?_
    rw [flowReleaseOwn, show flowLive (take h.ring s) f = true from live]
    rfl
  case submit =>
    refine answers_done rfl ready ?_
    have known : flow? (take h.ring s) f = some fl := held
    have passes : opSubmitStatus (take h.ring s) f 0 = St.ok := by
      rw [opSubmitStatus, show flowLive (take h.ring s) f = true from live, known]
      simp [unpaced]
    dsimp only
    rw [passes, known]
    rfl
  case cancel =>
    refine answers_wait rfl ready ?_
    have known : flow? (take h.ring s) f = some fl := held
    rw [opCancelOwn, show flowLive (take h.ring s) f = true from live, known, Option.bind_some, found]
    rfl

/-! ### Issue (R251) -/

theorem mem_insInst {x y : Inst} {l : List Inst} : y ∈ insInst x l ↔ y = x ∨ y ∈ l := by
  induction l with
  | nil => simp [insInst]
  | cons z r ih =>
    unfold insInst
    split
    · simp
    · simp only [List.mem_cons, ih]
      tauto

theorem length_insInst (x : Inst) (l : List Inst) : (insInst x l).length = l.length + 1 := by
  induction l with
  | nil => rfl
  | cons z r ih =>
    unfold insInst
    split
    · rfl
    · simp [ih]

/-- What an issue adds to its flow. -/
def issuedInst (fl : Flow) (num due : Nat) : Inst :=
  { num, due, deadline := if fl.deadline = 0 || fl.cls = 3 then none else some (due + fl.deadline)
    ops := (List.range fl.nodes.length).map Op.fresh, missed := false, fresh := fl.fresh }

/-- Settles O17: what is issued is inserted with fresh ops, and the flow's record is the only thing written. -/
theorem instanceIsIssuedWhole : Obligations.InstanceIsIssuedWhole := by
  unfold Obligations.InstanceIsIssuedWhole
  intro s f num due fl r running held oldest room slots
  have issued : issueStalled f s = issueInst f num due (withFlow f (fun g => { g with stalled := r }) s) := by
    rw [issueStalled, held]
    dsimp only
    rw [oldest]
    dsimp only
    rw [room, slots]
    rfl
  have runs : exec (.instanceIssue f) s =
      .next (issueInst f num due (withFlow f (fun g => { g with stalled := r }) s)) := by
    rw [← issued]
    exact congrArg _ (if_pos running)
  have list : FMap.get? s.fsc.flows f = some fl := held
  refine ⟨_, runs, rfl, fun g other => ?_, { fl with stalled := r, insts := insInst (issuedInst fl num due) fl.insts, fresh := false },
    issuedInst fl num due, ?_, rfl, ?_, ?_, fun y old => ?_, rfl, rfl, rfl, ?_, ?_, fun o mem => ?_⟩
  · simp [flow?, issueInst, FMap.get?_adj_other, other]
  · simp only [flow?, issueInst, withFlow_fsc_flows, FMap.get?_adj_same, list, Option.map_some]
    rfl
  · exact mem_insInst.mpr (.inl rfl)
  · exact length_insInst ..
  · exact mem_insInst.mpr (.inr old)
  · simp only [issuedInst, Bool.or_eq_true, decide_eq_true_eq]
  · exact List.map_map.trans (List.map_id _)
  · obtain ⟨d, -, rfl⟩ := List.mem_map.mp mem
    exact ⟨rfl, rfl, rfl⟩

/-! ### Patience, age and completion (R256 to R258) -/

/-- Settles O18: the ready op's place, its age, and the VPE's own op decide. -/
theorem readyOpsMoveWithTime : Obligations.ReadyOpsMoveWithTime := by
  unfold Obligations.ReadyOpsMoveWithTime
  intro s f i d t fl o running held op s1
  have held1 : flow? (advance t s) f = some fl := held
  have op1 : opAt (advance t s) f i d = some o := op
  have running1 : alive (advance t s) = true := running
  refine ⟨fun n ready here ripe => ?vpe, fun c ready here ripe => ?cluster, fun a ready young old ripe => ?aged,
    fun n res small own => ?ends⟩
  case vpe =>
    change execPatienceExpiry f i d t s = _
    rw [execPatienceExpiry, held1, op1]
    dsimp only
    rw [if_neg (not_not.mpr ready), here]
    dsimp only
    rw [if_pos (show o.readyAt + vpePatNs (advance t s) fl.cls ≤ t from ripe), running1]
    rfl
  case cluster =>
    change execPatienceExpiry f i d t s = _
    rw [execPatienceExpiry, held1, op1]
    dsimp only
    rw [if_neg (not_not.mpr ready), here]
    dsimp only
    rw [if_pos (show o.readyAt + clPatNs (advance t s) fl.cls ≤ t from ripe), running1]
    rfl
  case aged =>
    change execOpAged f i d t s = _
    rw [execOpAged, held1, op1]
    dsimp only
    rw [show ageNs (advance t s) fl.cls = some a from old, running1, young]
    simp only [ready, ripe, decide_true, Bool.not_false, Bool.and_self]
    rfl
  case ends =>
    refine ⟨_, ?_, rfl⟩
    change execOpComplete n res s = _
    rw [execOpComplete, own]
    dsimp only
    rw [running, decide_eq_true small]
    rfl

end Sys2Proof.Machine
end

section
/-! SUPPORT. How every command of a CMD ring is taken, checked and completed (R402 to R405). -/

namespace Sys2Proof.Machine

open Sys2Proof

set_option Elab.async false

/-- No capacity is held back while the channels are as they were (R5). -/
theorem holdFreed_of_chans {cpl : Nat} {s t : State} (same : t.chans = s.chans) : holdFreed cpl s t = t := by
  have held : unitsHeld t = unitsHeld s := by rw [unitsHeld, same, ← unitsHeld]
  simp [holdFreed, held]

/-- Every command of a CMD ring runs through `runCmd` with its row of the tables; after CHAN_MODIFY what it gave up is
held back (R5). -/
theorem exec_of_cmdRow {i : Instr} {c : CmdSpec} {h : CmdHdr} (row : cmdRow i = some (c, h)) (s : State) :
    ∃ own : State → CmdRes, exec i s = .next (runCmd c h own s) ∨
      exec i s = .next (holdFreed (cplOf s h.ring) s (runCmd c h own s)) := by
  cases i
  case chanModify => cases row; exact ⟨_, .inr rfl⟩
  all_goals cases row <;> exact ⟨_, .inl rfl⟩

/-- A command that leaves the channels as they are answers what `runCmd` leaves. -/
theorem exec_of_cmdRow_chans {i : Instr} {c : CmdSpec} {h : CmdHdr} {s t : State} (row : cmdRow i = some (c, h))
    (left : ∀ own, runCmd c h own s = t) (same : t.chans = s.chans) : exec i s = .next t := by
  obtain ⟨own, runs | runs⟩ := exec_of_cmdRow row s
  · rw [runs, left]
  · rw [runs, left, holdFreed_of_chans same]

/-! ### The checks of R405 -/

theorem preStatus_noSession {c : CmdSpec} {h : CmdHdr} {s : State} (some : c.priv ≠ 0) (owner : c.priv ≠ 5)
    (none : privOf s h.ring = none) : preStatus c h s = St.noSession :=
  if_pos ⟨some, owner, by rw [none]; rfl⟩

theorem preStatus_denied {c : CmdSpec} {h : CmdHdr} {s : State} {p : Nat} (has : privOf s h.ring = some p)
    (low : 1 ≤ c.priv) (high : c.priv ≤ 3) (less : p < c.priv) : preStatus c h s = St.denied := by
  have listed : c.priv ∈ [1, 2, 3] := by simp only [List.mem_cons, List.not_mem_nil, or_false]; omega
  rw [preStatus, has, if_neg (by simp), if_pos ⟨listed, less⟩]

/-- With the privilege that it asks for, a command comes to check 3. -/
theorem preStatus_of_priv {c : CmdSpec} {h : CmdHdr} {s : State} {p : Nat} (has : privOf s h.ring = some p)
    (enough : c.priv ≤ 3 → c.priv ≤ p) :
    preStatus c h s = if !h.clean || !c.lenOk h.blockLen || (c.block && h.block.isNone) then St.badDesc
      else if c.setup && s.twin.role = 1 then St.twinState
      else if c.setup && (s.avl.stage = 8 || s.avl.stage = 10) then St.noCapacity
      else St.ok := by
  have passes : ¬ (c.priv ∈ [1, 2, 3] ∧ (some p).getD 0 < c.priv) := by
    rintro ⟨listed, less⟩
    simp only [List.mem_cons, List.not_mem_nil, or_false, Option.getD_some] at listed less
    omega
  rw [preStatus, has, if_neg (by simp), if_neg passes]

/-! ### The completion (R402) -/

theorem ring?_take_same {n : Nat} {s : State} {r : Ring} (at_ : ring? s n = some r) :
    ring? (take n s) n = some { r with devIdx := r.devIdx + 1 } := by
  rw [ring?, take_hif_rings, FMap.get?_adj_same, ← ring?, at_]
  rfl

theorem ring?_take_other {n k : Nat} {s : State} (ne : k ≠ n) : ring? (take n s) k = ring? s k := by
  rw [ring?, take_hif_rings, FMap.get?_adj_other _ _ _ _ ne, ← ring?]

theorem ring?_withRing_same {n : Nat} {f : Ring → Ring} {s : State} {r : Ring} (at_ : ring? s n = some r) :
    ring? (withRing n f s) n = some (f r) := by
  rw [ring?, withRing_hif_rings, FMap.get?_adj_same, ← ring?, at_]
  rfl

theorem ring?_withRing_other {n k : Nat} {f : Ring → Ring} {s : State} (ne : k ≠ n) : ring? (withRing n f s) k = ring? s k := by
  rw [ring?, withRing_hif_rings, FMap.get?_adj_other _ _ _ _ ne, ← ring?]

theorem msixRing_hif_rings (r : Ring) (s : State) : (msixRing r s).hif.rings = s.hif.rings := by
  unfold msixRing
  split <;> rfl

theorem ring?_msixRing (r : Ring) (s : State) (n : Nat) : ring? (msixRing r s) n = ring? s n := by
  rw [ring?, msixRing_hif_rings, ← ring?]

/-- An entry written to a ring stands at the ring's index, with its phase bit; the index has moved on. -/
theorem ring?_putEntry_same {n : Nat} {s : State} {r : Ring} (at_ : ring? s n = some r) (writes : r.dmaFail = false) (d : Bytes) :
    ring? (putEntry n d s) n = some { r with
      written := FMap.set r.written (r.pos r.devIdx) (setPhase (phaseBit r.ctx.log2 r.devIdx) d), devIdx := r.devIdx + 1 } := by
  have put : putEntry n d s = writeEntry n d s := by simp [putEntry, at_, writes]
  rw [put, writeEntry, at_]
  dsimp only
  rw [ring?_msixRing]
  exact ring?_withRing_same at_

theorem ring?_putEntry_other {n k : Nat} (ne : k ≠ n) (d : Bytes) (s : State) : ring? (putEntry n d s) k = ring? s k := by
  unfold putEntry
  split
  · rfl
  · split
    · exact ring?_withRing_other ne
    · unfold writeEntry
      split
      · rfl
      · rw [ring?_msixRing, ring?_withRing_other ne]

theorem countOut_of_none {n : Nat} {s : State} (none : FMap.get? s.sec.sessions n = none) : countOut n s = s := by
  rw [countOut, none]

theorem putEntry_sec (n : Nat) (d : Bytes) (s : State) : (putEntry n d s).sec = s.sec := by
  unfold putEntry writeEntry msixRing
  split
  · rfl
  · split
    · rfl
    · split
      · rfl
      · split <;> rfl

theorem complete_of_cmd {n opcode st : Nat} {tag idx : BitVec 32} {b : Bytes} {s : State} {r : Ring} (at_ : ring? s n = some r)
    (cmd : r.ctx.ty = .cmd) :
    complete n opcode tag idx st b s = putEntry r.ctx.cplRing (completionEntry opcode st tag idx b) s := by
  simp only [complete, at_, cmd, if_true]

/-- A command that can be taken stands in a CMD ring. -/
theorem cmd_of_takeable {n : Nat} {s : State} {r : Ring} (can : takeable s n = true) (at_ : ring? s n = some r) :
    r.ctx.ty = .cmd := by
  have taken : offered s n = true := (Bool.and_eq_true_iff.mp can).1
  simp only [offered, at_, Bool.and_eq_true, decide_eq_true_eq] at taken
  obtain ⟨⟨⟨⟨⟨⟨⟨ty, -⟩, -⟩, -⟩, -⟩, -⟩, -⟩, -⟩ := taken
  exact ty

/-- The completion of a command that ends at once, on a ring without a session, whose completions go to another ring. -/
theorem finish_take_writes {c : CmdSpec} {h : CmdHdr} {s : State} {st : Nat} {b : Bytes} {r q : Ring} (can : takeable s h.ring = true)
    (at_ : ring? s h.ring = some r) (cpl : ring? s r.ctx.cplRing = some q) (apart : r.ctx.cplRing ≠ h.ring)
    (writes : q.dmaFail = false) (alone : FMap.get? s.sec.sessions h.ring = none) :
    let t := finish c h s st b (take h.ring s)
    ring? t h.ring = some { r with devIdx := r.devIdx + 1 } ∧ ∃ p, ring? t r.ctx.cplRing = some p ∧ p.devIdx = q.devIdx + 1 ∧
      FMap.get? p.written (q.pos q.devIdx) = some (setPhase (phaseBit q.ctx.log2 q.devIdx)
        (completionEntry c.opcode st h.tag r.devIdx b)) := by
  intro t
  have index : headIndex s h.ring = r.devIdx := by rw [headIndex, at_]
  have unheld : FMap.get? (take h.ring s).sec.sessions h.ring = none := by
    change FMap.get? (FMap.adj _ _ _) _ = none
    rw [FMap.get?_adj_same]
    exact congrArg _ alone
  have put : t = putEntry r.ctx.cplRing (completionEntry c.opcode st h.tag r.devIdx b) (take h.ring s) := by
    change finish c h s st b (take h.ring s) = _
    rw [finish, index, complete_of_cmd (ring?_take_same at_) ((cmd_of_takeable can at_ :)), countOut_of_none]
    rw [putEntry_sec]
    exact unheld
  rw [put]
  refine ⟨?_, _, ring?_putEntry_same ((ring?_take_other apart).trans cpl) writes _, rfl, FMap.get?_set_same _ _ _⟩
  rw [ring?_putEntry_other apart.symm, ring?_take_same at_]

/-- Settles O57: a command waits, or is taken and checked in order, as its row says. -/
theorem commandsAreTakenAndChecked : Obligations.CommandsAreTakenAndChecked := by
  unfold Obligations.CommandsAreTakenAndChecked
  intro i c h s row
  refine ⟨fun waiting => ?_, fun can bad => ?_, fun some owner none => preStatus_noSession some owner none,
    fun p has low high less => preStatus_denied has low high less, fun p has enough => ?_⟩
  · exact exec_of_cmdRow_chans row (fun _ => runCmd_idle waiting) rfl
  · have ends : exec i s = .next (finish c h s (preStatus c h s) [] (take h.ring s)) :=
      exec_of_cmdRow_chans row (fun _ => runCmd_turned can bad) ((finish_hostOnly ..).field State.chans)
    exact ⟨ends, fun r q at_ cpl apart writes alone => ⟨_, ends, finish_take_writes can at_ cpl apart writes alone⟩⟩
  · rw [preStatus_of_priv has enough]
    refine ⟨fun bad => if_pos ?_, fun clean len block => ?_⟩
    · rcases bad with clean | len | ⟨block, missing⟩
      · simp [clean]
      · simp [len]
      · simp [block, missing]
    · have good : (!h.clean || !c.lenOk h.blockLen || (c.block && h.block.isNone)) = false := by
        have given : (c.block && h.block.isNone) = false := by
          cases needs : c.block with
          | false => rfl
          | true => simpa [Option.isSome_iff_ne_none] using block needs
        rw [clean, len, given]
        rfl
      rw [good]
      refine ⟨fun plain => ?_, fun setup mirror => ?_, fun setup active halted => ?_⟩
      · simp [plain]
      · simp [setup, mirror]
      · simp [setup, active, halted]

end Sys2Proof.Machine
end

section
/-! SUPPORT. What counts, entries, events and notices leave unchanged, beyond that they stay within the host interface, the
sessions and the counters. -/

namespace Sys2Proof


set_option Elab.async false
/-! ### Maps: a change of a key that is held, and two changes of one key -/

theorem FMap.adj_of_get? {α : Type} {m : FMap α} {k : Nat} {v : α} (f : α → α) (held : FMap.get? m k = some v) :
    FMap.adj m k f = FMap.set m k (f v) := by
  rw [FMap.adj, held]

theorem FMap.set_set {α : Type} (m : FMap α) (k : Nat) (v w : α) : FMap.set (FMap.set m k v) k w = FMap.set m k w := by
  induction m with
  | nil => simp [FMap.set]
  | cons e r ih =>
    obtain ⟨j, x⟩ := e
    simp only [FMap.set]
    split
    · simp [FMap.set]
    next low =>
      split
      · simp [FMap.set]
      next ne => simp [FMap.set, low, ne, ih]

theorem FMap.del_set {α : Type} (m : FMap α) (k : Nat) (v : α) : FMap.del (FMap.set m k v) k = FMap.del m k := by
  induction m with
  | nil => simp [FMap.set, FMap.del]
  | cons e r ih =>
    obtain ⟨j, x⟩ := e
    simp only [FMap.set]
    split
    · simp [FMap.del]
    next low =>
      split
      next same => simp [FMap.del, same]
      next ne =>
        unfold FMap.del at ih ⊢
        rw [List.filter_cons, List.filter_cons, ih]

theorem FMap.del_adj {α : Type} (m : FMap α) (k : Nat) (f : α → α) : FMap.del (FMap.adj m k f) k = FMap.del m k := by
  unfold FMap.adj
  split
  · rfl
  · exact FMap.del_set ..

end Sys2Proof

namespace Sys2Proof.Machine

open Sys2Proof

set_option Elab.async false

/-! ### Counters -/

theorem find?_addCounter_same (l : List (CtrKey × BitVec 64)) (k : CtrKey) (n : Nat) :
    (addCounter l k n).find? (fun e => e.1 = k) =
      some (k, (match l.find? (fun e => e.1 = k) with | some e => e.2 | none => 0) + BitVec.ofNat 64 n) := by
  induction l with
  | nil => simp [addCounter]
  | cons e r ih =>
    by_cases at_ : e.1 = k
    · simp [addCounter, at_]
    · simp [addCounter, at_, ih]

theorem find?_addCounter_other (l : List (CtrKey × BitVec 64)) {k j : CtrKey} (n : Nat) (ne : j ≠ k) :
    (addCounter l k n).find? (fun e => e.1 = j) = l.find? (fun e => e.1 = j) := by
  induction l with
  | nil => simp [addCounter, ne.symm]
  | cons e r ih =>
    by_cases at_ : e.1 = k
    · subst at_
      simp [addCounter, ne.symm]
    · by_cases found : e.1 = j
      · subst found
        simp [addCounter, ne]
      · simp [addCounter, at_, found, ih]

theorem counter_bumpN_same (c : Ctr) (o u n : Nat) (s : State) :
    counter (bumpN c o u n s) c o u = counter s c o u + BitVec.ofNat 64 n := by
  unfold bumpN
  split
  next none => simp [none]
  next =>
    simp only [counter, find?_addCounter_same] <;> rfl

theorem counter_bumpN_other {c d : Ctr} {o p u v : Nat} (n : Nat) (s : State) (ne : CtrKey.mk d p v ≠ ⟨c, o, u⟩) :
    counter (bumpN c o u n s) d p v = counter s d p v := by
  unfold bumpN
  split
  · rfl
  · simp only [counter, find?_addCounter_other _ n ne]

theorem counter_bump_same (c : Ctr) (o : Nat) (s : State) : counter (bump c o s) c o = counter s c o + 1 :=
  counter_bumpN_same ..

theorem counter_bump_other {c d : Ctr} (o p u : Nat) (s : State) (ne : d ≠ c) : counter (bump c o s) d p u = counter s d p u :=
  counter_bumpN_other _ _ (fun same => ne (congrArg CtrKey.ctr same))

/-! ### Telling the host -/

/-- What the device does not write of a ring when it writes entries to it (R395, R399, R407). -/
def Ring.hosts (r : Ring) : Ring :=
  { r with devIdx := 0, written := [], pendW := [], backlog := [], seq := 0, lostFlag := false }

/-- `t` is `s` but for entries in rings, events that wait, counts of vectors and counts of lost events: what an entry or
an event changes (R399, R407, R418, R491). -/
structure Told (s t : State) : Prop where
  frame : t = { s with
    hif := { s.hif with rings := t.hif.rings, waitGlobal := t.hif.waitGlobal, msix := t.hif.msix }, counters := t.counters }
  counts : ∀ c o u, c ≠ .evtDrop → c ≠ .evtDropDevice → counter t c o u = counter s c o u
  rings : ∀ n, (ring? t n).map Ring.hosts = (ring? s n).map Ring.hosts

theorem Told.refl (s : State) : Told s s := ⟨rfl, fun _ _ _ _ _ => rfl, fun _ => rfl⟩

theorem Told.trans {s t u : State} (h : Told s t) (k : Told t u) : Told s u where
  frame := by
    have first := h.frame
    have second := k.frame
    rw [first] at second
    exact second
  counts c o v drop device := (k.counts c o v drop device).trans (h.counts c o v drop device)
  rings n := (k.rings n).trans (h.rings n)

theorem Told.ite {s t u : State} {c : Prop} [Decidable c] (h : Told s t) (k : Told s u) : Told s (if c then t else u) := by
  split <;> assumption

theorem Told.foldl {α : Type} {f : State → α → State} (told : ∀ t a, Told t (f t a)) (l : List α) (s : State) :
    Told s (l.foldl f s) := by
  induction l generalizing s with
  | nil => exact .refl s
  | cons a r ih => exact (told s a).trans (ih _)

/-- What reads neither the host interface nor the counters reads the same. -/
theorem Told.field {α : Type} {s t : State} (told : Told s t) (f : State → α)
    (same : ∀ h c, f { s with hif := h, counters := c } = f s := by intros; rfl) : f t = f s := by
  rw [told.frame]
  exact same ..

/-- What of the host interface reads neither rings nor waiting events nor vectors reads the same. -/
theorem Told.hif {α : Type} {s t : State} (told : Told s t) (f : Hif → α)
    (same : ∀ r w m, f { s.hif with rings := r, waitGlobal := w, msix := m } = f s.hif := by intros; rfl) : f t.hif = f s.hif := by
  rw [told.frame]
  exact same ..

theorem Told.notice? {s t : State} (told : Told s t) (c o : Nat) (m : Bool) :
    Machine.notice? t c o m = Machine.notice? s c o m := by
  unfold Machine.notice?
  rw [told.hif Hif.notices]

theorem Told.hostOnly {s t : State} (told : Told s t) : HostOnly s t := by
  unfold HostOnly
  have frame := told.frame
  rw [frame]

/-- A change of a ring that leaves what is the host's. -/
theorem withRing_told (n : Nat) {f : Ring → Ring} (kept : ∀ r, (f r).hosts = r.hosts) (s : State) : Told s (withRing n f s) where
  frame := rfl
  counts _ _ _ _ _ := rfl
  rings k := by
    by_cases at_ : k = n
    · subst at_
      rw [ring?, withRing_hif_rings, FMap.get?_adj_same, ← ring?]
      cases ring? s k with
      | none => rfl
      | some r => exact congrArg some (kept r)
    · rw [ring?_withRing_other at_]

theorem msixRing_told (r : Ring) (s : State) : Told s (msixRing r s) := by
  have counted : Told s (msixCount r.ctx.vector s) := ⟨rfl, fun _ _ _ _ _ => rfl, fun _ => rfl⟩
  unfold msixRing
  exact .ite counted (.refl s)

theorem writeEntry_told (n : Nat) (d : Bytes) (s : State) : Told s (writeEntry n d s) := by
  unfold writeEntry
  split
  · exact .refl s
  · exact (withRing_told n (by intro; rfl) s).trans (msixRing_told ..)

theorem putEntry_told (n : Nat) (d : Bytes) (s : State) : Told s (putEntry n d s) := by
  unfold putEntry
  split
  · exact .refl s
  · exact .ite (withRing_told n (by intro; rfl) s) (writeEntry_told ..)

theorem complete_told (n o : Nat) (g i : BitVec 32) (c : Nat) (b : Bytes) (s : State) : Told s (complete n o g i c b s) := by
  unfold complete
  split
  · exact .ite (putEntry_told ..) (.refl s)
  · exact .refl s

theorem bumpLost_told {c : Ctr} (lost : c = .evtDrop ∨ c = .evtDropDevice) (o : Nat) (s : State) : Told s (bump c o s) where
  frame := by unfold bump bumpN; split <;> rfl
  counts d p u drop device := counter_bump_other _ _ _ _ (by rintro rfl; rcases lost with rfl | rfl <;> contradiction)
  rings n := by unfold bump bumpN; split <;> rfl

theorem raiseAt_told (n code : Nat) (q : Bool) (t : BitVec 64) (b : Bytes) (s : State) : Told s (raiseAt n code q t b s) := by
  unfold raiseAt
  split
  · exact .refl s
  · refine .ite ((withRing_told n (by intro; rfl) s).trans (bumpLost_told (.inl rfl) ..)) ?_
    dsimp only
    exact .ite ((withRing_told n (by intro; rfl) s).trans (writeEntry_told ..))
      ((withRing_told n (by intro; rfl) s).trans (withRing_told n (by intro; rfl) _))

theorem raiseNowhere_told (code : Nat) (q k : Bool) (b : Bytes) (s : State) : Told s (raiseNowhere code q k b s) := by
  unfold raiseNowhere
  exact .ite ⟨rfl, fun _ _ _ _ _ => rfl, fun _ => rfl⟩ (bumpLost_told (.inr rfl) ..)

theorem raise_told (code : Nat) (r : Option Nat) (b : Bytes) (s : State) : Told s (raise code r b s) := by
  unfold raise
  split
  · exact raiseAt_told ..
  · exact raiseNowhere_told ..

theorem raiseStart_told (code : Nat) (b : Bytes) (s : State) : Told s (raiseStart code b s) := by
  unfold raiseStart
  split
  · exact raiseAt_told ..
  · exact raiseNowhere_told ..

/-! ### Notices (R409) -/

/-- A notice of the code, object and mark given. -/
def Notice.is (code object : Nat) (mark : Bool) (n : Notice) : Bool := n.code == code && n.object == object && n.mark == mark

theorem notice?_withNotices_map {f : Notice → Notice} {c o : Nat} {m : Bool} (s : State)
    (kept : ∀ n, (f n).is c o m = n.is c o m) : notice? (withNotices (fun l => l.map f) s) c o m = (notice? s c o m).map f := by
  unfold notice?
  rw [withNotices_hif_notices, List.find?_map]
  congr 2
  funext n
  exact kept n

/-- The notice that a crossing leaves outstanding. -/
def crossedNotice (c o : Nat) (m : Bool) (reason : Nat) (value : Int) (live : Bool) : Option Notice → Notice
  | some n => { n with count := n.count + 1, extreme := noticeExtreme c m n.extreme value, live := live, reason }
  | none => { code := c, object := o, mark := m, count := 1, value, extreme := value, live, reason }

/-- A crossing changes the notices and then only tells the host. -/
theorem crossing_told (c o : Nat) (m : Bool) (e : Nat) (v : Int) (b : Bytes) (r : Option Nat) (l : Bool) (s : State) :
    ∃ f, Told (withNotices f s) (crossing c o m e v b r l s) := by
  unfold crossing
  split
  · exact ⟨_, .refl _⟩
  · dsimp only
    split
    · exact ⟨_, raiseAt_told ..⟩
    · exact ⟨_, raiseNowhere_told ..⟩

/-- The notice of a crossing is outstanding after it, raised by one more. -/
theorem notice?_crossing (c o : Nat) (m : Bool) (e : Nat) (v : Int) (b : Bytes) (r : Option Nat) (l : Bool) (s : State) :
    notice? (crossing c o m e v b r l s) c o m = some (crossedNotice c o m e v l (notice? s c o m)) := by
  unfold crossing
  cases found : notice? s c o m with
  | some n =>
    dsimp only
    have is : n.is c o m = true := List.find?_some found
    rw [notice?_withNotices_map, found]
    · simp only [Option.map_some, crossedNotice]
      rw [if_pos (by exact is)]
    · intro k
      split <;> rfl
  | none =>
    dsimp only
    have added (n : Notice) (is : n.is c o m = true) : notice? (withNotices (fun l => l ++ [n]) s) c o m = some n := by
      unfold notice? at found ⊢
      rw [withNotices_hif_notices, List.find?_append, found, Option.none_or]
      exact List.find?_cons_of_pos is
    split
    · rw [(raiseAt_told ..).notice?]
      exact added _ (by simp [Notice.is])
    · rw [(raiseNowhere_told ..).notice?]
      exact added _ (by simp [Notice.is])

theorem notice?_crossed (c o e : Nat) (v : Int) (r : Option Nat) (l : Bool) (s : State) :
    notice? (crossed c o e v r l s) c o = some (crossedNotice c o false e v l (notice? s c o)) := notice?_crossing ..

theorem counter_withNotices (f : List Notice → List Notice) (s : State) (c : Ctr) (o u : Nat) :
    counter (withNotices f s) c o u = counter s c o u := rfl

theorem counter_crossing {c o : Nat} {m : Bool} {e : Nat} {v : Int} {b : Bytes} {r : Option Nat} {l : Bool} (s : State) (k : Ctr)
    (p u : Nat) (drop : k ≠ .evtDrop) (device : k ≠ .evtDropDevice) :
    counter (crossing c o m e v b r l s) k p u = counter s k p u := by
  obtain ⟨f, told⟩ := crossing_told c o m e v b r l s
  rw [told.counts k p u drop device, counter_withNotices]

/-! ### The host interface and the counters -/

/-- `t` is `s` but for the host interface and the counters: what an entry, an event, a notice, a count and the end of a
transmitted item may touch (R399, R407, R409, R413, R420). -/
def HifOnly (s t : State) : Prop := t = { s with hif := t.hif, counters := t.counters }

theorem HifOnly.eq {s t : State} (h : HifOnly s t) : t = { s with hif := t.hif, counters := t.counters } := h

theorem HifOnly.refl (s : State) : HifOnly s s := rfl

theorem HifOnly.of (s : State) (h : Hif) (c : List (CtrKey × BitVec 64)) : HifOnly s { s with hif := h, counters := c } := rfl

theorem HifOnly.trans {s t u : State} (h : HifOnly s t) (k : HifOnly t u) : HifOnly s u := by
  unfold HifOnly at *
  rw [h] at k
  exact k

theorem HifOnly.ite {s t u : State} {c : Prop} [Decidable c] (h : HifOnly s t) (k : HifOnly s u) :
    HifOnly s (if c then t else u) := by
  split <;> assumption

theorem HifOnly.foldl {α : Type} {f : State → α → State} (only : ∀ t a, HifOnly t (f t a)) (l : List α) (s : State) :
    HifOnly s (l.foldl f s) := by
  induction l generalizing s with
  | nil => exact .refl s
  | cons a r ih => exact (only s a).trans (ih _)

theorem HifOnly.hostOnly {s t : State} (h : HifOnly s t) : HostOnly s t := by
  rw [h.eq]
  exact .of s _ _ _

/-- What reads neither the host interface nor the counters reads the same. -/
theorem HifOnly.field {α : Type} {s t : State} (only : HifOnly s t) (f : State → α)
    (same : ∀ h c, f { s with hif := h, counters := c } = f s := by intros; rfl) : f t = f s := by
  rw [only.eq]
  exact same ..

theorem Told.hifOnly {s t : State} (told : Told s t) : HifOnly s t := by
  rw [told.frame]
  exact .of s _ _

theorem bumpN_hifOnly (c : Ctr) (o u n : Nat) (s : State) : HifOnly s (bumpN c o u n s) := by
  unfold bumpN
  exact .ite (.refl s) (.of s _ _)

theorem bump_hifOnly (c : Ctr) (o : Nat) (s : State) : HifOnly s (bump c o s) := bumpN_hifOnly ..

theorem withRing_hifOnly (n : Nat) (f : Ring → Ring) (s : State) : HifOnly s (withRing n f s) := .of s _ _

/-- A crossing keeps all but the host interface and the counters. -/
theorem crossing_hifOnly (c o : Nat) (m : Bool) (e : Nat) (v : Int) (b : Bytes) (r : Option Nat) (l : Bool) (s : State) :
    HifOnly s (crossing c o m e v b r l s) := by
  obtain ⟨f, told⟩ := crossing_told c o m e v b r l s
  exact HifOnly.trans (.of s _ _) told.hifOnly

theorem crossed_hifOnly (c o e : Nat) (v : Int) (r : Option Nat) (l : Bool) (s : State) : HifOnly s (crossed c o e v r l s) :=
  crossing_hifOnly ..

theorem noticeLive_hifOnly (c o : Nat) (m : Bool) (v : Option Int) (l : Bool) (s : State) : HifOnly s (noticeLive c o m v l s) :=
  .of _ _ _

theorem starvedLive_hifOnly (n : Nat) (s : State) : HifOnly s (starvedLive n s) := by
  unfold starvedLive
  split
  · exact .refl s
  · exact noticeLive_hifOnly ..

theorem msixRing_hifOnly (r : Ring) (s : State) : HifOnly s (msixRing r s) := (msixRing_told r s).hifOnly

theorem raise_hifOnly (code : Nat) (r : Option Nat) (b : Bytes) (s : State) : HifOnly s (raise code r b s) :=
  (raise_told ..).hifOnly

theorem endLong_hifOnly (i c : Nat) (b : Bytes) (s : State) : HifOnly s (endLong i c b s) := by
  unfold endLong
  split
  · exact .refl s
  · dsimp only
    split
    · exact HifOnly.trans (.of s _ _) (raise_hifOnly ..)
    · exact HifOnly.trans (HifOnly.trans (.of s _ _) (raise_hifOnly ..)) (raise_hifOnly ..)

/-- The end of a transmitted item. -/
theorem endPtx_hifOnly (p : Option (Nat × BitVec 32)) (time status : Nat) (s : State) : HifOnly s (endPtx p time status s) := by
  unfold endPtx
  split
  · exact .refl s
  · split
    · exact .refl s
    · exact (withRing_hifOnly ..).trans (msixRing_told ..).hifOnly

theorem missRadio_hifOnly (f : Nat) (s : State) : HifOnly s (missRadio f s) := (bump_hifOnly ..).trans (bumpN_hifOnly ..)

theorem endTx_hifOnly (n : Nat) (q : TxReq) (time status : Nat) (s : State) : HifOnly s (endTx n q time status s) := by
  unfold endTx
  dsimp only
  refine HifOnly.trans ?_ (endPtx_hifOnly ..)
  have missed : HifOnly s (if status = St.txLate then missRadio (txFlowKey n) s else s) := .ite (missRadio_hifOnly ..) (.refl s)
  split
  · exact missed.trans (bump_hifOnly ..)
  · exact missed

end Sys2Proof.Machine
end

section
/-! SUPPORT. The voltage loop (R26, R550). -/

namespace Sys2Proof.Machine

open Sys2Proof

set_option Elab.async false

theorem slackLow_advance (t : Ns) (s : State) : slackLow (advance t s) = slackLow s := rfl

theorem upDue_of_low {s : State} {t : Ns} {v : Nat} (due : upDue s t = some v) :
    v = max (avsBase s + 10) (avsMinMv s) ∧ slackLow s = true := by
  rw [upDue, Option.ite_none_right_eq_some] at due
  obtain ⟨low, value⟩ := due
  exact ⟨(Option.some.inj value).symm, (Bool.and_eq_true_iff.mp low).1⟩

theorem upDue_none_of_slack {s : State} {t : Ns} (slack : slackLow s = false) : upDue s t = none := by
  simp [upDue, slack]

theorem upRequest_some {s : State} {t : Ns} {v : Nat} (up : upRequest s t = some v) : upDue s t = some v ∧ v ≤ avsMaxMv s := by
  unfold upRequest at up
  rw [Option.filter_eq_some_iff] at up
  exact ⟨up.1, of_decide_eq_true up.2⟩

theorem upRequest_none_of_due {s : State} {t : Ns} (due : upDue s t = none) : upRequest s t = none := by
  rw [upRequest, due]
  rfl

theorem upRequest_none_past {s : State} {t : Ns} {v : Nat} (due : upDue s t = some v) (past : avsMaxMv s < v) :
    upRequest s t = none := by
  rw [upRequest, due, Option.filter_some, if_neg (by simpa using past)]

theorem downRequest_some {s : State} {temp : Int} {t : Ns} {v : Nat} (down : downRequest s temp t = some v) :
    v = max (min (avsBase s - 5) (avsMaxMv s)) (avsMinMv s) ∧ temp ≤ 1100 ∧ notice? s Ev.avsFault 0 = none := by
  rw [downRequest, Option.ite_none_right_eq_some] at down
  obtain ⟨all, value⟩ := down
  simp only [Bool.and_eq_true, decide_eq_true_eq, Option.isNone_iff_eq_none] at all
  obtain ⟨⟨⟨-, cool⟩, quiet⟩, -⟩ := all
  exact ⟨(Option.some.inj value).symm, cool, quiet⟩

/-- A step of the loop runs where the device is alive, past READY, and no transaction waits. -/
theorem avsStep_runs {s : State} (t : Ns) (temp : Int) (ok : Bool) (up : alive s = true) (run : s.avs.run = true)
    (free : s.avs.request = none) : exec (.avsStep t temp ok) s = .next (avsStep temp ok t (advance t s)) := by
  have go : (alive (advance t s) && (advance t s).avs.run && (advance t s).avs.request.isNone) = true := by
    have same : alive (advance t s) = true := up
    rw [advance_avs, run, free, same]
    rfl
  change Host.Outcome.next (onlyIf _ _ _) = _
  rw [go]
  rfl

theorem avsStep_up {s : State} {t : Ns} {v : Nat} (temp : Int) (ok : Bool) (up : upRequest s t = some v) :
    avsStep temp ok t s = transact v ok t { s with avs := { s.avs with lastUp := some t } } := by
  simp only [avsStep, up]

theorem avsStep_limit {s : State} {t : Ns} {v : Nat} (temp : Int) (ok : Bool) (due : upDue s t = some v) (past : avsMaxMv s < v) :
    avsStep temp ok t s = limitReached s := by
  simp [avsStep, upRequest_none_past due past, (upDue_of_low due).2, due]

theorem avsStep_waits {s : State} {t : Ns} (temp : Int) (ok : Bool) (due : upDue s t = none) (low : slackLow s = true) :
    avsStep temp ok t s = s := by
  simp [avsStep, upRequest_none_of_due due, low, due]

theorem avsStep_slack {s : State} {t : Ns} (temp : Int) (ok : Bool) (slack : slackLow s = false) :
    avsStep temp ok t s = match downRequest s temp t with
      | some v => transact v ok t { s with avs := { s.avs with lastDown := some t } }
      | none => s := by
  simp [avsStep, upRequest_none_of_due (upDue_none_of_slack slack), slack] <;> rfl

/-- The notice of a cluster below the threshold records that the limit was reached. -/
theorem notice?_limitReached {s : State} {c : Nat} {n : Notice} {d : Int} (found : notice? s Ev.paceWarning c = some n)
    (slack : FMap.get? s.fsc.slack c = some d) (low : d < (paceThrNs s : Int)) :
    notice? (limitReached s) Ev.paceWarning c = some { n with reason := 1 } := by
  have is : n.is Ev.paceWarning c false = true := List.find?_some found
  simp only [Notice.is, Bool.and_eq_true, beq_iff_eq] at is
  obtain ⟨⟨code, object⟩, -⟩ := is
  unfold limitReached
  rw [notice?_withNotices_map, found]
  · simp [code, object, slack, low]
  · intro k
    split <;> rfl

theorem avsRetry_runs {s : State} {t a : Ns} {v : Nat} (ok : Bool) (up : alive s = true) (due : s.avs.retryAt = some a) (time : a ≤ t)
    (held : s.avs.request = some v) : exec (.avsRetry t ok) s = .next (
      if ok then { advance t s with avs := { s.avs with request := none, retryAt := none, voutMv := v } }
      else crossed Ev.avsFault 0 0 (v : Int) none false
        (bump .avsFault 0 { advance t s with avs := { s.avs with request := none, retryAt := none } })) := by
  have go : (alive (advance t s) &&
      (match (advance t s).avs.retryAt with | some a => decide (a ≤ t) | none => false)) = true := by
    have same : alive (advance t s) = true := up
    rw [advance_avs, due, same]
    simpa using time
  change Host.Outcome.next (if _ then avsRetry ok (advance t s) else _) = _
  refine congrArg _ ((if_pos go).trans ?_)
  rw [avsRetry, advance_avs, held]

/-- Settles O56: the upward request goes first; a step without a request changes nothing; a retry ends the transaction. -/
theorem voltageLoop : Obligations.VoltageLoop := by
  unfold Obligations.VoltageLoop
  intro s t
  refine ⟨fun up run free temp => ⟨fun v req => ?_, fun ok due low => ?_, fun ok v due past => ?_, fun v slack req => ?_,
    fun ok slack req => ?_⟩, fun a v up due time held => ⟨?_, ?_⟩⟩
  · obtain ⟨due, max⟩ := upRequest_some req
    obtain ⟨value, low⟩ := upDue_of_low due
    refine ⟨value, max, low, ?_, ?_⟩
    · rw [avsStep_runs t temp _ up run free, avsStep_up (s := advance t s) temp _ req]
      rfl
    · rw [avsStep_runs t temp _ up run free, avsStep_up (s := advance t s) temp _ req]
      rfl
  · rw [avsStep_runs t temp _ up run free, avsStep_waits (s := advance t s) temp ok due low]
  · refine ⟨_, avsStep_runs t temp _ up run free, ?_⟩
    rw [avsStep_limit (s := advance t s) temp ok due past]
    exact ⟨rfl, fun c n d found slack low => notice?_limitReached (s := advance t s) found slack low⟩
  · obtain ⟨value, cool, quiet⟩ := downRequest_some req
    refine ⟨value, cool, quiet, ?_, ?_⟩
    · rw [avsStep_runs t temp _ up run free, avsStep_slack (s := advance t s) temp _ slack, req]
      rfl
    · rw [avsStep_runs t temp _ up run free, avsStep_slack (s := advance t s) temp _ slack, req]
      rfl
  · rw [avsStep_runs t temp _ up run free, avsStep_slack (s := advance t s) temp _ slack, req]
  · rw [avsRetry_runs true up due time held, if_pos rfl]
  · refine ⟨_, avsRetry_runs false up due time held, ?_, ?_, ?_⟩
    · exact crossing_hifOnly .. |>.eq
    · rw [if_neg Bool.false_ne_true, crossed, counter_crossing _ _ _ _ (by decide) (by decide), counter_bump_same]
      rfl
    · rw [if_neg Bool.false_ne_true, notice?_crossed]
      rfl

end Sys2Proof.Machine
end

section
/-! SUPPORT. Transmit channels, talk groups and transmissions (R203 to R211). -/

namespace Sys2Proof.Machine

open Sys2Proof

set_option Elab.async false

/-! ### Commands of transmit channels and talk groups (R204, R208, R209) -/

/-- The requests that wait at a release end, which the host is told. -/
theorem endAll_hifOnly (n status : Nat) (l : List TxReq) (s : State) :
    HifOnly s (l.foldl (fun t q => endTx n q 0 status t) s) :=
  .foldl (fun t q => endTx_hifOnly n q 0 status t) l s

theorem txcGone_hostOnly (n : Nat) (s : State) : HostOnly { s with txcs := FMap.del s.txcs n } (txcGone n s) := rfl

/-- A release of a channel that is idle takes it away; one that is in transmission is marked (R208). -/
theorem releaseTxc_spec {n : Nat} {s : State} {d : Txc} (held : txc? s n = some d) :
    HostOnly { s with txcs := (if d.active.isSome then FMap.set s.txcs n { d with waiting := [], releasing := true }
      else FMap.del s.txcs n) } (releaseTxc n s) := by
  have ended := endAll_hifOnly n St.txAborted d.waiting (withTxc n (fun d => { d with waiting := [] }) s)
  simp only [releaseTxc, held]
  split
  next =>
    have two : FMap.adj (FMap.adj s.txcs n (fun d => { d with waiting := [] })) n (fun d => { d with releasing := true }) =
        FMap.set s.txcs n { d with waiting := [], releasing := true } := by
      rw [FMap.adj_of_get? _ held, FMap.adj_of_get? _ (FMap.get?_set_same ..), FMap.set_set]
    rw [← two, ended.eq]
    exact .of _ _ _ _
  next =>
    have gone : FMap.del (FMap.adj s.txcs n (fun d => { d with waiting := [] })) n = FMap.del s.txcs n := FMap.del_adj ..
    refine HostOnly.trans ?_ (txcGone_hostOnly ..)
    rw [← gone, ended.eq]
    exact .of _ _ _ _

theorem txcReleaseStatus_ok {n : Nat} {s : State} {d : Txc} (held : txc? s n = some d) (live : d.releasing = false) :
    txcReleaseStatus s n = St.ok := by
  simp [txcReleaseStatus, held, live]

/-- Settles O33: each command by its own part. -/
theorem transmitChannelCommands : Obligations.TransmitChannelCommands := by
  unfold Obligations.TransmitChannelCommands
  intro h s s1 c g
  refine ⟨fun ready ok => ?_, fun d ready ok held => ?_, fun n d ready held live => ?_, fun ready ok => ?_,
    fun n ready held free => ?_⟩
  · exact answers_done rfl ready (checked_of_ok _ _ ok)
  · intro e
    have put : modifyTxc (blk h) s1 = { s1 with txcs := FMap.set s.txcs c.tx e } := by
      rw [modifyTxc, withTxc]
      exact congrArg (fun m => { s1 with txcs := m }) (FMap.adj_of_get? (m := s.txcs) _ held)
    rw [← put]
    exact answers_done rfl ready (checked_of_ok _ _ ok)
  · obtain ⟨t, runs, host⟩ := answers_checked (i := .txcRelease h n) rfl ready (txcReleaseStatus_ok (s := s1) held live)
    have reached := (releaseTxc_spec (s := s1) held).trans host
    refine ⟨fun idle => ⟨t, runs, ?_⟩, fun busy => ⟨t, runs, ?_⟩⟩
    · rw [idle] at reached
      exact HostOnly.trans (.of _ s1.hif s1.sec s1.counters) reached
    · rw [busy] at reached
      exact HostOnly.trans (.of _ s1.hif s1.sec s1.counters) reached
  · exact answers_done rfl ready (checked_of_ok _ _ ok)
  · have ok : groupReleaseStatus s1 n = St.ok := if_pos (by
      have none : pttChan s1 n = none := free
      have has : FMap.has s1.groups n = true := held
      rw [none, has]
      rfl)
    obtain ⟨t, runs, host⟩ := answers_checked (i := .pttGroupRelease h n) rfl ready ok
    exact ⟨t, runs, HostOnly.trans (.of _ s1.hif s1.sec _) host⟩

end Sys2Proof.Machine
end

section
/-! SUPPORT. Requests, launches and ends of transmissions, and the floor of a group (R203 to R211). -/

namespace Sys2Proof.Machine

open Sys2Proof

set_option Elab.async false

/-! ### Requests (R203, R205) -/

/-- A request of a ring that targets the radio is taken at once. -/
theorem radioTxRequest_runs {s : State} {ring : Nat} {r : Ring} (i : BitVec 32) (item : Bytes) (t : Ns) (up : alive s = true)
    (at_ : ring? s ring = some r) (ptx : r.ctx.ty = .ptx) (target : r.ctx.target = 1) :
    exec (.radioTxRequest ring i item t) s = .next (radioRequest ring i item (advance t s)) := by
  have go : (alive (advance t s) && (ring? (advance t s) ring).any (fun r => r.ctx.ty == .ptx && r.ctx.target == 1)) = true := by
    have found : ring? (advance t s) ring = some r := at_
    have same : alive (advance t s) = true := up
    simp [same, found, ptx, target]
  change Host.Outcome.next (onlyIf _ _ _) = _
  rw [go]
  rfl

theorem radioRequest_refused {ring : Nat} {i : BitVec 32} {d : Bytes} {s : State} (bad : requestStatus s ring d ≠ St.ok) :
    radioRequest ring i d s = endPtx (some (ring, i)) 0 (requestStatus s ring d) s := if_pos bad

theorem radioRequest_passes {ring : Nat} {i : BitVec 32} {d : Bytes} {s : State} (ok : requestStatus s ring d = St.ok) :
    radioRequest ring i d s = queueRequest ring i d s := if_neg (fun bad => bad ok)

/-- A request without security waits behind the requests of its channel. -/
theorem queueRequest_plain {ring : Nat} {i : BitVec 32} {d : Bytes} (s : State) (plain : (txRecord d).sec = false) :
    queueRequest ring i d s = withTxc (leAt d 0 2)
      (fun c => { c with waiting := c.waiting ++ [{ txRecord d with ring := some (ring, i) }] }) s := by
  simp [queueRequest, plain]

/-- A request with security looks its endpoint up, and ends where that has no downlink counter to give. -/
theorem queueRequest_secured {ring : Nat} {i : BitVec 32} {d : Bytes} {s s2 : State} {slot : Option Nat}
    (secured : (txRecord d).sec = true) (found : epdLookup (BitVec.ofNat 64 (leAt d 8 8)) s = (slot, s2)) :
    queueRequest ring i d s = if nextDl s2 slot = none then endPtx (some (ring, i)) 0 St.secNokey s2
      else withTxc (leAt d 0 2) (fun c => { c with waiting := c.waiting ++ [{ txRecord d with ring := some (ring, i) }] }) s2 := by
  have looked : epdLookup (txRecord d).addr s = (slot, s2) := found
  simp only [queueRequest, secured, looked, Option.isNone_iff_eq_none]
  rfl

/-! ### The build op (R203, R207) -/

theorem mem_changeBuilt {f : TxReq → TxReq} {l : List TxReq} {q : TxReq} (first : l.find? (fun q => !q.built) = some q) :
    f q ∈ changeBuilt f l := by
  induction l with
  | nil => cases first
  | cons a r ih =>
    rw [changeBuilt]
    cases built : a.built with
    | true =>
      rw [List.find?_cons_of_neg (by simp [built])] at first
      exact List.mem_cons_of_mem _ (ih first)
    | false =>
      rw [List.find?_cons_of_pos (by simp [built])] at first
      cases first
      exact List.mem_cons_self

/-- The request that the build op takes, secured and ready. -/
theorem buildEnd_secured {n k : Nat} {s : State} {c : Txc} {q : TxReq} {f : BitVec 32} {key : Bytes} (held : txc? s n = some c)
    (next : toBuild s n = some q) (secured : q.sec = true) (has : nextDl s (epdFind s q.addr) = some (k, f, key)) :
    let sealed := securePayload key (chirpHeader (q.payload.length + 16) q.cr true q.ptt q.stream) q.ptt q.addr f q.payload
    ∃ d w, FMap.get? (buildEnd n true s).txcs n = some d ∧ w ∈ d.waiting ∧
      w = { q with built := true, payload := sealed, cells := symbolCells c.preamble q } ∧ d.active = c.active ∧
      (buildEnd n true s).epd = (withEntry k (fun e => { e with dlFcnt := f }) s).epd := by
  intro sealed
  have first : c.waiting.find? (fun q => !q.built) = some q := by
    have looked : (txc? s n).bind (fun c => c.waiting.find? (fun q => !q.built)) = some q := next
    rwa [held] at looked
  let done : TxReq → TxReq := fun w => { w with built := true, payload := sealed, cells := symbolCells c.preamble q }
  have built : buildEnd n true s = withTxc n (fun x => { x with waiting := changeBuilt done x.waiting })
      (withEntry k (fun e => { e with dlFcnt := f }) s) := by
    simp only [buildEnd, held, next, secured, has]
    rfl
  refine ⟨{ c with waiting := changeBuilt done c.waiting }, done q, ?_, mem_changeBuilt first, rfl, rfl, ?_⟩
  · rw [built]
    change FMap.get? (FMap.adj s.txcs n _) n = _
    rw [FMap.get?_adj_same]
    exact congrArg _ held
  · rw [built]
    rfl

/-! ### The samples of a link's transmit chain (R207) -/

/-- Sending samples changes the instant up to which they are sent and the count of clipped ones. -/
theorem sendSamples_frame (n : Nat) (t : Ns) (s : State) :
    sendSamples n t s = { s with links := (sendSamples n t s).links, counters := (sendSamples n t s).counters } := by
  unfold sendSamples bumpN
  dsimp only
  split <;> rfl

theorem inData_sendSamples (n m : Nat) (t : Ns) (s : State) : inData (sendSamples n t s) m = inData s m := by
  have link : linkAt (sendSamples n t s) m = if m = n then { linkAt s n with txAt := max t (linkAt s n).txAt } else linkAt s m := by
    unfold sendSamples
    dsimp only
    generalize ((List.range' _ _).filter _).length = k
    have links : (bumpN .txClip n 0 k s).links = s.links := (bumpN_hifOnly ..).field State.links
    simp only [linkAt, FMap.getD, withLink, links, FMap.get?_set]
    split <;> rfl
  rw [inData, link, inData]
  split
  next same => rw [same]
  · rfl

/-- What a launch reads of the state is as it was before the samples up to it were sent. -/
theorem launch_reads (n : Nat) (t : Ns) (m : Nat) (c : Txc) (s : State) :
    let u := sendSamples m t (advance t s)
    txc? u n = txc? s n ∧ devOf u t = devOf s t ∧ txLead u c = chainDelayPs (fsHz s c.link) c.bw 1 / 1000 + c.latency ∧
      fsHz u c.link = fsHz s c.link ∧ twoBlocks u c.link = twoBlocks s c.link ∧ inData u c.link = inData s c.link := by
  intro u
  have frame : u = _ := sendSamples_frame m t (advance t s)
  refine ⟨?_, ?_, ?_, ?_, ?_, inData_sendSamples ..⟩
  · rw [frame]; rfl
  · rw [frame]; rfl
  · rw [frame]; rfl
  · rw [frame]; rfl
  · rw [frame]; rfl

/-! ### Launches (R206, R207) -/

theorem txLaunch_runs {s : State} {n : Nat} {c : Txc} (t : Ns) (ready : Bool) (standing : Nat) (up : alive s = true)
    (held : txc? s n = some c) (live : c.releasing = false) (active : s.twin.role ≠ 1) :
    exec (.txLaunch n t ready standing) s = .next (launch n t ready standing (sendSamples c.link t (advance t s))) := by
  have found : txc? (advance t s) n = some c := held
  have go : (alive (advance t s) && !c.releasing && (advance t s).twin.role != 1) = true := by
    have same : alive (advance t s) = true := up
    simp [same, live, active]
  change execTxLaunch n t ready standing s = _
  rw [execTxLaunch]
  simp only [found, go]
  rfl

theorem onTime_iff (fs l a : Nat) : onTime fs l a = true ↔ ((l : Int) - a).natAbs * fs ≤ 1000000000 := by
  simp [onTime]

/-- Whether the head request of a channel may start (R206, R207). -/
def Startable (s : State) (c : Txc) (q : TxReq) (ready : Bool) (standing : Nat) : Prop :=
  c.active = none ∧ inData s c.link = true ∧ q.built = true ∧ ready = true ∧ twoBlocks s c.link ≤ standing

/-- Whether a launch time is within one link sample period of the antenna time of samples sent at `t` (R207). -/
def NearLaunch (s : State) (c : Txc) (t l : Nat) : Prop :=
  ((l : Int) - (devOf s t + txLead s c : Nat)).natAbs * fsHz s c.link ≤ 1000000000

theorem mayStart_iff (s : State) (c : Txc) (q : TxReq) (ready : Bool) (standing : Nat) :
    mayStart s c q ready standing = true ↔ Startable s c q ready standing := by
  simp [mayStart, Startable, and_assoc]

section
variable {s : State} {n : Nat} {c : Txc} {q : TxReq} {rest : List TxReq} {t : Ns} {ready : Bool} {standing l : Nat}
  (held : txc? s n = some c) (head : c.waiting = q :: rest)
include held head

/-- A request without a launch time starts when it may. -/
theorem launch_untimed (free : q.launch = none) (can : Startable s c q ready standing) :
    launch n t ready standing s = startTx n c q rest t s := by
  have may := (mayStart_iff s c q ready standing).mpr can
  simp [launch, held, head, free, may]

/-- A timed request starts when it may and its time has come; it is late once that has passed, and waits before. -/
theorem launch_timed (timed : q.launch = some l) : launch n t ready standing s =
    if mayStart s c q ready standing && onTime (fsHz s c.link) l (devOf s t + txLead s c) then startTx n c q rest t s
    else if l ≤ devOf s t + txLead s c then endTx n q 0 St.txLate (withTxc n (fun d => { d with waiting := rest }) s)
    else s := by
  simp only [launch, held, head, timed]

theorem launch_near (timed : q.launch = some l) (can : Startable s c q ready standing) (near : NearLaunch s c t l) :
    launch n t ready standing s = startTx n c q rest t s := by
  rw [launch_timed held head timed]
  exact if_pos (Bool.and_eq_true_iff.mpr ⟨(mayStart_iff ..).mpr can, (onTime_iff ..).mpr near⟩)

theorem launch_late (timed : q.launch = some l) (past : l ≤ devOf s t + txLead s c)
    (no : ¬ (Startable s c q ready standing ∧ NearLaunch s c t l)) :
    launch n t ready standing s = endTx n q 0 St.txLate (withTxc n (fun d => { d with waiting := rest }) s) := by
  rw [launch_timed held head timed, if_neg, if_pos past]
  rw [Bool.and_eq_true, mayStart_iff, onTime_iff]
  exact no

theorem launch_early (timed : q.launch = some l) (early : devOf s t + txLead s c < l)
    (no : ¬ (Startable s c q ready standing ∧ NearLaunch s c t l)) : launch n t ready standing s = s := by
  rw [launch_timed held head timed, if_neg, if_neg (Nat.not_le.mpr early)]
  rw [Bool.and_eq_true, mayStart_iff, onTime_iff]
  exact no

end

/-! ### Ends (R207, R208) -/

theorem txComplete_runs {s : State} (n : Nat) (t : Ns) (underrun : Bool) (up : alive s = true) :
    exec (.txComplete n t underrun) s = .next (txEnds n t underrun (advance t s)) := by
  have go : alive (advance t s) = true := up
  change Host.Outcome.next (onlyIf _ _ _) = _
  rw [go]
  rfl

/-- The end of the transmission in progress. -/
theorem endOnAir_spec {n : Nat} {s : State} {c : Txc} {o : OnAir} (status : Nat) (held : txc? s n = some c) (air : c.active = some o) :
    let u := endOnAir n status s
    let ended := endTx n o.req (o.antenna s) status (withTxc n (fun d => { d with active := none }) s)
    u = { s with
      hif := ended.hif, counters := u.counters
      txcs := (if c.releasing then FMap.del s.txcs n else FMap.set s.txcs n { c with active := none }) } := by
  intro u ended
  have only : ended = { withTxc n (fun d => { d with active := none }) s with hif := ended.hif, counters := ended.counters } :=
    (endTx_hifOnly ..).eq
  have put : FMap.adj s.txcs n (fun d => { d with active := none }) = FMap.set s.txcs n { c with active := none } :=
    FMap.adj_of_get? _ held
  have done : u = if c.releasing then txcGone n ended else ended := by
    change endOnAir n status s = _
    simp only [endOnAir, held, air]
    rfl
  rw [done]
  split
  next =>
    have gone : FMap.del (FMap.adj s.txcs n (fun d => { d with active := none })) n = FMap.del s.txcs n := FMap.del_adj ..
    rw [← gone, only]
    rfl
  next =>
    rw [← put, only]
    rfl

/-- The end of an item writes its last descriptor. -/
theorem ring?_endPtx {m : Nat} {i : BitVec 32} {s : State} {r : Ring} (time status : Nat) (at_ : ring? s m = some r) :
    ∃ g, ring? (endPtx (some (m, i)) time status s) m = some g ∧ FMap.get? g.written (r.pos i) = some (ptxBack time status) := by
  simp only [endPtx, at_]
  refine ⟨_, (ring?_msixRing ..).trans (ring?_withRing_same at_), ?_⟩
  exact FMap.get?_set_same ..

theorem ring?_endTx {n m : Nat} {i : BitVec 32} {s : State} {q : TxReq} {r : Ring} (time status : Nat) (of : q.ring = some (m, i))
    (at_ : ring? s m = some r) :
    ∃ g, ring? (endTx n q time status s) m = some g ∧ FMap.get? g.written (r.pos i) = some (ptxBack time status) := by
  have counts (c : Ctr) (o u k : Nat) (v : State) : ring? (bumpN c o u k v) m = ring? v m := by
    unfold bumpN
    split <;> rfl
  unfold endTx
  dsimp only
  rw [of]
  refine ring?_endPtx time status ?_
  have missed : ring? (if status = St.txLate then missRadio (txFlowKey n) s else s) m = some r := by
    split
    · rw [missRadio, counts, bump, counts, at_]
    · exact at_
  split
  · rw [bump, counts, missed]
  · exact missed

/-- Settles O34: requests by their checks, launches by whether they may start, ends by their cause. -/
theorem transmissionsRunInOrder : Obligations.TransmissionsRunInOrder := by
  unfold Obligations.TransmissionsRunInOrder
  intro s t up s1
  refine ⟨fun r ring i item at_ ptx target => ?request, fun n c q held next => ⟨fun secured none => ?nokey, fun k f key secured has =>
    buildEnd_secured held next secured has⟩, fun n c q rest ready standing held live active head => ?launch,
    fun n c o underrun held air past => ?ends, fun n c o held air early live => ?runs, fun n g id last held talks hung => ?hang⟩
  case request =>
    intro q queued
    have runs := radioTxRequest_runs i item t up at_ ptx target
    refine ⟨fun bad => ?_, fun ok plain => ?_, fun ok secured slot s2 found => ⟨fun none => ?_, fun some => ?_⟩⟩
    · rw [runs, radioRequest_refused bad]
    · rw [runs, radioRequest_passes ok, queueRequest_plain _ plain]
    · rw [runs, radioRequest_passes ok, queueRequest_secured secured found, if_pos none]
    · rw [runs, radioRequest_passes ok, queueRequest_secured secured found, if_neg some]
  case nokey =>
    refine ⟨withTxc n (fun d => { d with waiting := d.waiting.eraseP (fun w => !w.built) }) s, ?_, rfl⟩
    simp only [buildEnd, held, next, secured, none]
    rfl
  case launch =>
    intro lead after startable near
    obtain ⟨u, sent⟩ : ∃ u, u = sendSamples c.link t s1 := ⟨_, rfl⟩
    have runs := txLaunch_runs t ready standing up held live active
    have frame : u = { s1 with links := u.links, counters := u.counters } := by
      rw [sent]
      exact sendSamples_frame ..
    obtain ⟨found, dev, delay, fs, blocks, data⟩ := launch_reads n t c.link c s
    rw [← sent] at runs found dev delay fs blocks data
    have held' : txc? u n = some c := found.trans held
    have may : Startable u c q ready standing ↔ startable := by
      rw [Startable, blocks, data]
    have timely (l : Nat) : NearLaunch u c t l ↔ near l := by
      rw [NearLaunch, dev, delay, fs]
    have changed (f : Txc → Txc) : FMap.adj u.txcs n f = FMap.set s.txcs n (f c) := by
      have same : u.txcs = s.txcs := by
        rw [frame]
        rfl
      rw [FMap.adj_of_get? (m := u.txcs) f held', same]
    refine ⟨fun l timed can => ⟨_, runs, ?_⟩, fun l at_ past no => ⟨_, runs, ?_⟩, fun l at_ early no => ?_⟩
    · have starts : launch n t ready standing u = startTx n c q rest t u := by
        rcases timed with none | ⟨at_, near⟩
        · exact launch_untimed held' head none (may.mpr can)
        · exact launch_near held' head at_ (may.mpr can) ((timely l).mpr near)
      rw [starts, startTx, withTxc, changed, delay, frame]
    · rw [launch_late held' head at_ (by rw [dev, delay]; exact past) (by rw [may, timely]; exact no),
        (endTx_hifOnly ..).eq, withTxc, changed, frame]
    · rw [runs, launch_early held' head at_ (by rw [dev, delay]; exact early) (by rw [may, timely]; exact no), sent]
  case ends =>
    have found : txc? (sendSamples c.link t s1) n = some c := (launch_reads n t c.link c s).1.trans held
    have done : txEnds n t underrun s1 = endOnAir n St.ok (sendSamples c.link t s1) := by
      have looked : txc? s1 n = some c := held
      simp [txEnds, looked, air, Nat.not_lt.mpr past, past]
    have ended := endOnAir_spec St.ok found air
    refine ⟨_, txComplete_runs n t underrun up, ?_⟩
    rw [done]
    refine ⟨?_, ?_, fun m i r of at_ => ?_⟩
    · rw [ended, sendSamples_frame]
    · rw [ended, sendSamples_frame]
      rfl
    · have at_' : ring? (withTxc n (fun d => { d with active := none }) (sendSamples c.link t s1)) m = some r := by
        rw [sendSamples_frame]
        exact at_
      obtain ⟨g, now, wrote⟩ := ring?_endTx (o.antenna (sendSamples c.link t s1)) St.ok of at_'
      refine ⟨g, ?_, ?_⟩
      · rw [ended]
        exact now
      · have dev : devOf (sendSamples c.link t s1) o.start = devOf s o.start := by rw [sendSamples_frame]; rfl
        rw [wrote, OnAir.antenna, dev]
  case runs =>
    have found : txc? (sendSamples c.link t s1) n = some c := (launch_reads n t c.link c s).1.trans held
    have looked : txc? s1 n = some c := held
    refine ⟨?_, _, txComplete_runs n t true up, ?_⟩
    · have waits : txEnds n t false s1 = sendSamples c.link t s1 := by
        simp [txEnds, looked, air, live, Nat.not_le.mpr early]
      rw [txComplete_runs n t false up, waits]
    · have counted := bump_hifOnly .portUnderrun (1024 + c.link) (sendSamples c.link t s1)
      have found' : txc? (bump .portUnderrun (1024 + c.link) (sendSamples c.link t s1)) n = some c := by
        rw [counted.field (fun u => txc? u n), found]
      have aborts : txEnds n t true s1 = endOnAir n St.txAborted (bump .portUnderrun (1024 + c.link) (sendSamples c.link t s1)) := by
        simp [txEnds, looked, air, early]
      rw [aborts, endOnAir_spec St.txAborted found' air, live, counted.eq, sendSamples_frame]
      rfl
  case hang =>
    have looked : FMap.get? (advance t s).groups n = some g := held
    have go : (alive (advance t s) && decide (last + g.hangMs * 1000000 ≤ t)) = true := by
      have same : alive (advance t s) = true := up
      simp [same, hung]
    change execPttHangExpiry n t s = _
    rw [execPttHangExpiry]
    simp only [looked, talks, go]
    rfl

end Sys2Proof.Machine
end

section
/-! SUPPORT. Queues: what moves one queue, and what it leaves of every other (R297 to R315). -/

namespace Sys2Proof.Machine

open Sys2Proof

set_option Elab.async false

/-! ### The reach of the queue manager's operations -/

/-- `t` is `s` but for the queue manager, the host interface and the counters; rings keep their contexts, no sweep begins or ends,
and every queue but `n` is as it was. -/
structure QueueReach (n : Nat) (s t : State) : Prop where
  frame : t = { s with qmg := t.qmg, hif := t.hif, counters := t.counters }
  rings : ∀ k, (ring? t k).map Ring.ctx = (ring? s k).map Ring.ctx
  sweep : t.qmg.sweep = s.qmg.sweep
  others : ∀ m, m ≠ n → queue? t m = queue? s m

theorem QueueReach.refl (n : Nat) (s : State) : QueueReach n s s := ⟨rfl, fun _ => rfl, rfl, fun _ _ => rfl⟩

theorem QueueReach.trans {n : Nat} {s t u : State} (h : QueueReach n s t) (k : QueueReach n t u) : QueueReach n s u where
  frame := by
    have first := h.frame
    have second := k.frame
    rw [first] at second
    exact second
  rings i := (k.rings i).trans (h.rings i)
  sweep := k.sweep.trans h.sweep
  others m ne := (k.others m ne).trans (h.others m ne)

theorem QueueReach.ite {n : Nat} {s t u : State} {c : Prop} [Decidable c] (h : QueueReach n s t) (k : QueueReach n s u) :
    QueueReach n s (if c then t else u) := by
  split <;> assumption

theorem QueueReach.foldl {α : Type} {n : Nat} {f : State → α → State} (reach : ∀ t a, QueueReach n t (f t a)) (l : List α)
    (s : State) : QueueReach n s (l.foldl f s) := by
  induction l generalizing s with
  | nil => exact .refl n s
  | cons a r ih => exact (reach s a).trans (ih _)

theorem QueueReach.field {α : Type} {n : Nat} {s t : State} (reach : QueueReach n s t) (f : State → α)
    (same : ∀ q h c, f { s with qmg := q, hif := h, counters := c } = f s := by intros; rfl) : f t = f s := by
  rw [reach.frame]
  exact same ..

/-- What only tells the host reaches no queue. -/
theorem Told.queueReach {s t : State} (told : Told s t) (n : Nat) : QueueReach n s t where
  frame := by
    rw [told.frame]
  rings k := by
    have ctx := congrArg (Option.map Ring.ctx) (told.rings k)
    rw [Option.map_map, Option.map_map] at ctx
    exact ctx
  sweep := told.field (fun u => u.qmg.sweep)
  others m _ := told.field (fun u => queue? u m)

theorem withNotices_reach (n : Nat) (f : List Notice → List Notice) (s : State) : QueueReach n s (withNotices f s) :=
  ⟨rfl, fun _ => rfl, rfl, fun _ _ => rfl⟩

theorem crossing_reach (n c o : Nat) (m : Bool) (e : Nat) (v : Int) (b : Bytes) (r : Option Nat) (l : Bool) (s : State) :
    QueueReach n s (crossing c o m e v b r l s) := by
  obtain ⟨f, told⟩ := crossing_told c o m e v b r l s
  exact (withNotices_reach n f s).trans (told.queueReach n)

theorem noticeLive_reach (n c o : Nat) (m : Bool) (v : Option Int) (l : Bool) (s : State) :
    QueueReach n s (noticeLive c o m v l s) := withNotices_reach ..

theorem bumpN_reach (n : Nat) (c : Ctr) (o u k : Nat) (s : State) : QueueReach n s (bumpN c o u k s) := by
  unfold bumpN
  exact .ite (.refl n s) ⟨rfl, fun _ => rfl, rfl, fun _ _ => rfl⟩

theorem withQueue_reach (n : Nat) (f : Queue → Queue) (s : State) : QueueReach n s (withQueue n f s) where
  frame := rfl
  rings _ := rfl
  sweep := rfl
  others m ne := FMap.get?_adj_other _ _ _ _ ne

theorem queue?_withQueue (n : Nat) (f : Queue → Queue) (s : State) : queue? (withQueue n f s) n = (queue? s n).map f :=
  FMap.get?_adj_same ..

theorem returnCells_reach (n c k : Nat) (ext tether : Bool) (s : State) : QueueReach n s (returnCells c k ext tether s) where
  frame := rfl
  rings _ := rfl
  sweep := by
    unfold returnCells
    simp only [withQmg]
    split
    · rfl
    · split <;> rfl
  others m _ := by
    unfold returnCells queue?
    simp only [withQmg]
    split
    · rfl
    · split <;> rfl

theorem queue?_returnCells (n c k : Nat) (ext tether : Bool) (s : State) : queue? (returnCells c k ext tether s) n = queue? s n :=
  (returnCells_reach (n + 1) c k ext tether s).others n (Nat.ne_of_lt (Nat.lt_succ_self n))

theorem withRing_reach {n r : Nat} {f : Ring → Ring} (kept : ∀ g, (f g).ctx = g.ctx) (s : State) :
    QueueReach n s (withRing r f s) where
  frame := rfl
  rings k := by
    by_cases at_ : k = r
    · subst at_
      rw [ring?, withRing_hif_rings, FMap.get?_adj_same, ← ring?]
      cases ring? s k with
      | none => rfl
      | some g => exact congrArg some (kept g)
    · rw [ring?_withRing_other at_]
  sweep := rfl
  others _ _ := rfl

theorem starvedLive_reach (n r : Nat) (s : State) : QueueReach n s (starvedLive r s) := by
  unfold starvedLive
  split
  · exact .refl n s
  · exact noticeLive_reach ..

theorem deliverItem_reach (n r : Nat) (i : PrxItem) (s : State) : QueueReach n s (deliverItem r i s) := by
  unfold deliverItem
  split
  · exact bumpN_reach ..
  · exact .ite (bumpN_reach ..) (.ite (bumpN_reach ..) ((withRing_reach (by intro; rfl) s).trans (starvedLive_reach ..)))

theorem unofferQueue_reach (n m : Nat) (s : State) : QueueReach n s (unofferQueue m s) := by
  unfold unofferQueue
  split
  · exact .refl n s
  · exact (withRing_reach (by intro; rfl) s).trans (starvedLive_reach ..)

/-- What reaches neither queue `n` nor any other leaves every queue. -/
theorem QueueReach.here {s t : State} (reach : ∀ n, QueueReach n s t) (n : Nat) : queue? t n = queue? s n :=
  (reach (n + 1)).others n (Nat.ne_of_lt (Nat.lt_succ_self n))

/-! ### Marks (R313, R314) -/

/-- The queue is as it was but for its marks. -/
def MarksMoved (q : Queue) (r : Option Queue) : Prop := ∃ u, r = some u ∧ u = { q with high := u.high, low := u.low }

theorem MarksMoved.refl (q : Queue) : MarksMoved q (some q) := ⟨q, rfl, rfl⟩

theorem MarksMoved.trans {q r : Queue} {u : Option Queue} (h : MarksMoved q (some r)) (k : MarksMoved r u) : MarksMoved q u := by
  obtain ⟨_, same, marks⟩ := h
  cases same
  obtain ⟨v, now, moved⟩ := k
  refine ⟨v, now, ?_⟩
  rw [marks] at moved
  exact moved

theorem setMark_moved (q : Queue) (low : Bool) (m : Mark) : MarksMoved q (some (q.setMark low m)) := by
  cases low
  · exact ⟨_, rfl, rfl⟩
  · exact ⟨_, rfl, rfl⟩

theorem evalMark_moved {n : Nat} {s : State} {q : Queue} (low : Bool) (old new : Nat) (held : queue? s n = some q) :
    QueueReach n s (evalMark n low old new s) ∧ MarksMoved q (queue? (evalMark n low old new s) n) := by
  have set (m : Mark) : queue? (withQueue n (fun r => r.setMark low m) s) n = some (q.setMark low m) := by
    rw [queue?_withQueue, held]
    rfl
  simp only [evalMark, held]
  split
  · refine ⟨(withQueue_reach ..).trans (crossing_reach ..), ?_⟩
    rw [QueueReach.here (fun k => crossing_reach k ..), set]
    exact setMark_moved ..
  · refine ⟨(withQueue_reach ..).trans (noticeLive_reach ..), ?_⟩
    rw [QueueReach.here (fun k => noticeLive_reach k ..), set]
    exact setMark_moved ..

theorem levelMoved_moved {n : Nat} {s : State} {q : Queue} (old : Nat) (held : queue? s n = some q) :
    QueueReach n s (levelMoved n old s) ∧ MarksMoved q (queue? (levelMoved n old s) n) := by
  simp only [levelMoved, held]
  split
  · rw [held]
    exact ⟨.refl n s, .refl q⟩
  · obtain ⟨reach, marks⟩ := evalMark_moved false old q.level held
    obtain ⟨r, now, same⟩ := marks
    obtain ⟨reach', marks'⟩ := evalMark_moved true old q.level now
    exact ⟨reach.trans reach', MarksMoved.trans ⟨r, rfl, same⟩ marks'⟩

/-- A queue changes and its marks are evaluated: no other queue moves. -/
theorem moveQueue_moved {n : Nat} {s : State} {q : Queue} (f : Queue → Queue) (held : queue? s n = some q) :
    QueueReach n s (moveQueue n f s) ∧ MarksMoved (f q) (queue? (moveQueue n f s) n) := by
  have set : queue? (withQueue n f s) n = some (f q) := by
    rw [queue?_withQueue, held]
    rfl
  obtain ⟨reach, marks⟩ := levelMoved_moved q.level set
  simp only [moveQueue, held]
  exact ⟨(withQueue_reach ..).trans reach, marks⟩

/-! ### Flush, severing and removal (R298, R303, R305) -/

/-- The item in progress is severed. -/
theorem sever_moved {n : Nat} {s : State} {q : Queue} (held : queue? s n = some q) :
    QueueReach n s (sever n s) ∧ ∃ r, queue? (sever n s) n = some r ∧ r.items = q.items ∧ r.inProg = none ∧ r.taken = q.taken := by
  simp only [sever, held]
  split
  next none => exact ⟨.refl n s, q, held, rfl, none, rfl⟩
  next =>
    refine ⟨((withQueue_reach ..).trans (returnCells_reach ..)).trans (bumpN_reach ..),
      { q with inProg := none, discarding := true }, ?_, rfl, rfl, rfl⟩
    rw [bump, QueueReach.here (fun k => bumpN_reach k ..), queue?_returnCells, queue?_withQueue, held]
    rfl

/-- A queue whose linked items go and whose item in progress is severed. -/
def Emptied (n : Nat) (q : Queue) (t : State) : Prop :=
  ∃ r, queue? t n = some r ∧ r.items = [] ∧ r.inProg = none ∧ r.taken = q.taken

/-- The linked items are let go by any means that reaches no queue, and the item in progress is severed. -/
theorem emptied_of_cells {n : Nat} {s t : State} {q : Queue} (held : queue? s n = some q) (cells : ∀ k, QueueReach k s t) :
    let u := sever n (unofferQueue n (moveQueue n (fun r => { r with items := [] }) t))
    QueueReach n s u ∧ Emptied n q u := by
  have held' : queue? t n = some q := (QueueReach.here cells n).trans held
  obtain ⟨reach, r, now, same⟩ := moveQueue_moved (fun r => { r with items := [] }) held'
  have offered : queue? (unofferQueue n (moveQueue n (fun r => { r with items := [] }) t)) n = some r := by
    rw [QueueReach.here (fun k => unofferQueue_reach k ..), now]
  obtain ⟨severs, u, done, items, prog, taken⟩ := sever_moved offered
  refine ⟨(((cells n).trans reach).trans (unofferQueue_reach ..)).trans severs, u, done, ?_, prog, ?_⟩
  · rw [items, same]
  · rw [taken, same]

theorem foldReturn_reach (n c : Nat) (l : List Item) (s : State) :
    QueueReach n s (l.foldl (fun t i => returnCells c i.cells i.ext i.tether t) s) :=
  .foldl (fun t i => returnCells_reach n c i.cells i.ext i.tether t) l s

/-- A flush takes the linked items and severs the item in progress. -/
theorem flushQueue_emptied {n : Nat} {s : State} {q : Queue} (held : queue? s n = some q) :
    QueueReach n s (flushQueue n s) ∧ Emptied n q (flushQueue n s) := by
  have held' : queue? (q.items.foldl (fun t i => returnCells q.cls i.cells i.ext i.tether t) s) n = some q :=
    (QueueReach.here (fun k => foldReturn_reach k ..) n).trans held
  obtain ⟨reach, r, now, same⟩ := moveQueue_moved (fun r => { r with items := [] }) held'
  have counted := fun k => (unofferQueue_reach k n (moveQueue n (fun r => { r with items := [] })
    (q.items.foldl (fun t i => returnCells q.cls i.cells i.ext i.tether t) s))).trans (bumpN_reach k .qFlushed n 0 q.items.length _)
  obtain ⟨severs, u, done, items, prog, taken⟩ := sever_moved ((QueueReach.here counted n).trans now)
  simp only [flushQueue, held]
  refine ⟨(((foldReturn_reach ..).trans reach).trans (counted n)).trans severs, u, done, ?_, prog, ?_⟩
  · rw [items, same]
  · rw [taken, same]

theorem removeQueue_reach (n : Nat) (s : State) : QueueReach n s (removeQueue n s) where
  frame := rfl
  rings _ := rfl
  sweep := rfl
  others m ne := FMap.get?_del_other _ _ _ ne

theorem queue?_removeQueue (n : Nat) (s : State) : queue? (removeQueue n s) n = none := FMap.get?_del_same ..

end Sys2Proof.Machine
end

section
/-! SUPPORT. The commands of host queues, producers and consumers (R297 to R305, R312, R314). -/

namespace Sys2Proof.Machine

open Sys2Proof

set_option Elab.async false

/-! ### Commands (R298, R305, R312, R314) -/

theorem modifyQueue_spec {b : Bytes} {s : State} {q : Queue} (held : queue? s (queueBlock b).queue = some q) :
    let k := queueBlock b
    let moved : Bool := q.hyst != k.hyst
    let r := { q with
      maxCells := k.maxCells, hyst := k.hyst, high := q.high.modify k.high k.highEn moved, low := q.low.modify k.low k.lowEn moved }
    HostOnly { s with qmg := { s.qmg with queues := FMap.set s.qmg.queues k.queue r } } (modifyQueue b s) := by
  intro k moved r
  have put : withQueue k.queue (fun q => { q with
      maxCells := k.maxCells, hyst := k.hyst, high := q.high.modify k.high k.highEn (q.hyst != k.hyst),
      low := q.low.modify k.low k.lowEn (q.hyst != k.hyst) }) s =
      { s with qmg := { s.qmg with queues := FMap.set s.qmg.queues k.queue r } } :=
    congrArg (fun m => { s with qmg := { s.qmg with queues := m } }) (FMap.adj_of_get? (m := s.qmg.queues) _ held)
  unfold modifyQueue
  dsimp only
  rw [put]
  split
  · exact .refl _
  · exact (noticeLive_hostOnly ..).trans (noticeLive_hostOnly ..)

theorem finish_queue? (c : CmdSpec) (h : CmdHdr) (s : State) (st : Nat) (b : Bytes) (u : State) (m : Nat) :
    queue? (finish c h s st b u) m = queue? u m := (finish_hostOnly ..).field (fun t => queue? t m)

theorem waits_queue? (c : CmdSpec) (h : CmdHdr) (s u : State) (m : Nat) : queue? (waits c h s u) m = queue? u m :=
  (waits_hostOnly ..).field (fun t => queue? t m)

/-- QUEUE_RELEASE's own part flushes the queue, and then removes it or waits for the taken item. -/
theorem queueReleaseOwn_of_ok {h : CmdHdr} {n : Nat} {s : State} {r : Queue} (ok : queueReleaseStatus s n = St.ok)
    (flushed : queue? (flushQueue n s) n = some r) :
    queueReleaseOwn h n s = if r.taken.isNone then .done St.ok [] (removeQueue n (flushQueue n s))
      else .wait (withQueue n (fun r => { r with releasing := some (h.ring, heldOf 0x0163 h s) }) (flushQueue n s)) := by
  simp [queueReleaseOwn, ok, flushed]

/-- Settles O35: each command by its own part. -/
theorem queueCommands : Obligations.QueueCommands := by
  unfold Obligations.QueueCommands
  intro h s s1 k others
  have reaches {n : Nat} {t : State} (reach : QueueReach n s1 t) : others n t :=
    ⟨reach.field State.fsc, reach.field State.regs, fun m ne => reach.others m ne⟩
  have told {n : Nat} {t u : State} (host : HostOnly t u) (old : others n t) : others n u := by
    obtain ⟨fsc, regs, queues⟩ := old
    exact ⟨(host.field State.fsc).trans fsc, (host.field State.regs).trans regs,
      fun m ne => (host.field (fun v => queue? v m)).trans (queues m ne)⟩
  refine ⟨fun ready ok => ?_, fun q ready ok held => ?modify, fun n q ready ok held => ?release, fun n q ready ok held => ?flush,
    fun n q ready live => ?_, fun ready idle room => ?sweep⟩
  · exact answers_done rfl ready (checked_of_ok _ _ ok)
  case modify =>
    obtain ⟨t, runs, host⟩ := answers_checked (i := .queueModify h) rfl ready ok
    have reached := (modifyQueue_spec (s := s1) held).trans host
    exact ⟨t, runs, HostOnly.trans (.of _ s1.hif s1.sec s1.counters) reached⟩
  case release =>
    obtain ⟨reach, r, flushed, items, prog, taken⟩ := flushQueue_emptied (s := s1) held
    have own := queueReleaseOwn_of_ok (h := h) ok flushed
    cases holds : r.taken with
    | none =>
      rw [holds, if_pos Option.isNone_none] at own
      refine ⟨_, answers_done rfl ready own, told (finish_hostOnly ..) (reaches (reach.trans (removeQueue_reach ..))), fun _ => ?_,
        fun some => ?_⟩
      · rw [finish_queue?, queue?_removeQueue]
      · rw [← taken, holds] at some
        cases some
    | some i =>
      rw [holds, if_neg (by simp)] at own
      refine ⟨_, answers_wait rfl ready own, told (waits_hostOnly ..) (reaches (reach.trans (withQueue_reach ..))), fun none => ?_,
        fun _ => ⟨{ r with releasing := some (h.ring, heldOf 0x0163 h s1) }, ?_, items, prog, taken, rfl⟩⟩
      · rw [← taken, holds] at none
        cases none
      · rw [waits_queue?, queue?_withQueue, flushed]
        rfl
  case flush =>
    obtain ⟨reach, emptied⟩ := flushQueue_emptied (s := s1) held
    refine ⟨flushQueue n s1, answers_done (i := .queueFlush h n) rfl ready ?_, reaches reach, emptied⟩
    have held' : queue? (take h.ring s) n = some q := held
    simp only [queueFlushOwn, held']
    exact if_pos ok
  · refine answers_done (i := .queueQuery h n) rfl ready ?_
    have live' : liveQueue (take h.ring s) n = some q := live
    simp only [queueQueryOwn, live']
    rfl
  case sweep =>
    have none : ¬ 256 ≤ s1.hif.longOps.length := Nat.not_le.mpr room
    have ok : ¬ qmgSweepStatus s1 ≠ St.ok := by
      have idle' : s1.qmg.sweep = false := idle
      simp [qmgSweepStatus, idle']
    refine answers_done (i := .qmgSweep h) rfl ready ?_
    rw [acceptLong, if_neg ok, beginLong, if_neg none]
    rfl

/-! ### Producers (R301, R303) -/

/-- An item offered to a ring that it fits only waits there. -/
theorem offerItem_reach {n r i : Nat} {s : State} {q : Queue} {x : Item} (held : queue? s n = some q) (at_ : q.items[i]? = some x)
    (fits : ∀ g, ring? s r = some g → needed g.ctx.bufSize x.data.length ≤ g.size) (m : Nat) :
    QueueReach m s (offerItem r n i s) := by
  unfold offerItem
  cases found : ring? s r with
  | none => rw [held]; exact .refl m s
  | some g =>
    rw [held]
    dsimp only
    rw [at_]
    dsimp only
    rw [if_neg (Nat.not_lt.mpr (fits g found))]
    exact deliverItem_reach ..

/-- An item is linked at the tail and its arrival is presented; a ring that names the queue has room for it. -/
theorem linkItem_spec {n : Nat} {s : State} {q : Queue} (i : Item) (held : queue? s n = some q)
    (fits : ∀ r g, ring? s r = some g → needed g.ctx.bufSize i.data.length ≤ g.size) :
    let t := linkItem n i s
    t = { s with qmg := t.qmg, fsc := t.fsc, hif := t.hif, counters := t.counters } ∧ (∀ m, m ≠ n → queue? t m = queue? s m) ∧
      t.fsc = { s.fsc with presented := s.fsc.presented ++ [.arrival n] } ∧
      MarksMoved { q with items := q.items ++ [i] } (queue? t n) := by
  intro t
  obtain ⟨reach, marks⟩ := moveQueue_moved (fun q => { q with items := q.items ++ [i] }) held
  obtain ⟨u, moved⟩ : ∃ u, u = moveQueue n (fun q => { q with items := q.items ++ [i] }) s := ⟨_, rfl⟩
  rw [← moved] at reach marks
  obtain ⟨v, presented⟩ : ∃ v : State, v = { u with fsc := { u.fsc with presented := u.fsc.presented ++ [.arrival n] } } := ⟨_, rfl⟩
  have offered (m : Nat) : QueueReach m v t := by
    have links : t = match prxOf v n, queue? v n with
        | some r, some q => offerItem r n (q.items.length - 1) v
        | _, _ => v := by
      rw [presented, moved]
      rfl
    obtain ⟨r, now, same⟩ := marks
    have now' : queue? v n = some r := by
      rw [presented]
      exact now
    rw [links, now']
    split
    next _ ring _ named eq =>
      cases eq
      refine offerItem_reach (x := i) now' ?_ (fun g found => ?_) m
      · rw [same]
        simp
      · have ctx := reach.rings ring
        have found' : ring? u ring = some g := by
          rw [presented] at found
          exact found
        rw [found'] at ctx
        cases old : ring? s ring with
        | none => rw [old] at ctx; cases ctx
        | some g0 =>
          rw [old] at ctx
          have same : g.ctx = g0.ctx := Option.some.inj ctx
          rw [Ring.size, same]
          exact fits ring g0 old
    · exact .refl m v
  have fsc : u.fsc = s.fsc := reach.field State.fsc
  refine ⟨?_, fun m ne => ?_, ?_, ?_⟩
  · have first := reach.frame
    rw [(offered n).frame, presented]
    rw [first]
  · rw [(offered n).others m ne, presented]
    exact reach.others m ne
  · rw [(offered n).field State.fsc, presented]
    dsimp only
    rw [fsc]
  · rw [QueueReach.here offered, presented]
    exact marks

/-- Cells that the item in progress of a queue holds. -/
def Queue.reserved (q : Queue) : Nat := match q.inProg with | some p => p.1 | none => 0

/-- A reservation that is not refused at once. -/
theorem cellReserve_runs {n cells : Nat} {streaming : Bool} {s : State} {q : Queue} (held : queue? s n = some q)
    (taking : q.discarding = false) (wants : 0 < cells) (step : streaming = false ∨ cells ≤ 64)
    (fits : q.reserved + cells ≤ 1024) :
    cellReserve n cells streaming s = if overLimit s n cells then bump .qLimit n s
      else match reserveAt s n cells with
        | none => s
        | some ext => allocCells q.cls cells ext false (withQueue n (fun r => { r with
            inProg := some (q.reserved + cells, ext) }) s) := by
  have goes : (q.discarding || decide (cells = 0) || (streaming && decide (64 < cells))) = false := by
    rcases step with plain | small
    · simp [taking, plain, Nat.ne_of_gt wants]
    · simp [taking, Nat.not_lt.mpr small, Nat.ne_of_gt wants]
  simp only [cellReserve, held]
  rw [goes, if_neg Bool.false_ne_true]
  exact if_neg (Nat.not_lt.mpr fits)

/-- Cells that a reservation takes are counted in their pool, and no queue moves. -/
theorem allocCells_spec (c k : Nat) (ext : Bool) (s : State) :
    let t := allocCells c k ext false s
    t = { s with qmg := t.qmg } ∧ (∀ m, queue? t m = queue? s m) ∧
      t.qmg.extUsed = (if ext then s.qmg.extUsed + k else s.qmg.extUsed) ∧
      FMap.getD t.qmg.occ c 0 = (if ext then FMap.getD s.qmg.occ c 0 else FMap.getD s.qmg.occ c 0 + k) := by
  cases ext with
  | true => exact ⟨rfl, fun _ => rfl, rfl, rfl⟩
  | false =>
    refine ⟨rfl, fun _ => rfl, rfl, ?_⟩
    change FMap.getD (FMap.set s.qmg.occ c _) c 0 = _
    rw [FMap.getD, FMap.get?_set_same]
    rfl

/-! ### Consumers (R302) -/

/-- Cells that go back change the queue manager alone. -/
theorem returnCells_frame (c k : Nat) (ext tether : Bool) (s : State) :
    returnCells c k ext tether s = { s with qmg := (returnCells c k ext tether s).qmg } := rfl

theorem endTaken_runs {n : Nat} {s : State} {q : Queue} {t : Item × Nat} (held : queue? s n = some q) (taken : q.taken = some t) :
    endTaken n s = finishRelease n (returnCells q.cls (takenLeft t) t.1.ext false
      (withQueue n (fun r => { r with taken := none }) s)) := by
  simp only [endTaken, held, taken]

/-- The taken item of a queue that is not released goes. -/
theorem endTaken_live {n : Nat} {s : State} {q : Queue} {t : Item × Nat} (held : queue? s n = some q) (taken : q.taken = some t)
    (live : q.releasing = none) :
    endTaken n s = { s with qmg := (endTaken n s).qmg } ∧ (∀ m, m ≠ n → queue? (endTaken n s) m = queue? s m) ∧
      queue? (endTaken n s) n = some { q with taken := none } := by
  obtain ⟨u, gone⟩ : ∃ u, u = returnCells q.cls (takenLeft t) t.1.ext false (withQueue n (fun r => { r with taken := none }) s) :=
    ⟨_, rfl⟩
  have now : queue? u n = some { q with taken := none } := by
    rw [gone, queue?_returnCells, queue?_withQueue, held]
    rfl
  have stays : finishRelease n u = u := by simp [finishRelease, now, live]
  rw [endTaken_runs held taken, ← gone, stays]
  refine ⟨?_, fun m ne => ?_, now⟩
  · rw [gone]
    rfl
  · rw [gone, queue?_returnCells]
    exact (withQueue_reach ..).others m ne

theorem finishRelease_gone {n : Nat} {s : State} {q : Queue} (held : queue? s n = some q) (ended : q.taken = none)
    (releasing : q.releasing.isSome = true) :
    QueueReach n s (finishRelease n s) ∧ queue? (finishRelease n s) n = none := by
  obtain ⟨⟨r, h⟩, of⟩ := Option.isSome_iff_exists.mp releasing
  have runs : finishRelease n s = completeHeld r h St.ok [] (removeQueue n (flushQueue n s)) := by
    simp only [finishRelease, held, ended, of]
  have completes (m : Nat) : QueueReach m (removeQueue n (flushQueue n s))
      (completeHeld r h St.ok [] (removeQueue n (flushQueue n s))) :=
    (withRing_reach (by intro; rfl) _).trans ((putEntry_told ..).queueReach m)
  rw [runs]
  refine ⟨((flushQueue_emptied held).1.trans (removeQueue_reach ..)).trans (completes n), ?_⟩
  rw [QueueReach.here completes, queue?_removeQueue]

/-- The taken item of a queue whose release waits for it goes, and the queue with it. -/
theorem endTaken_releasing {n : Nat} {s : State} {q : Queue} {t : Item × Nat} (held : queue? s n = some q)
    (taken : q.taken = some t) (releasing : q.releasing.isSome = true) :
    QueueReach n s (endTaken n s) ∧ queue? (endTaken n s) n = none := by
  have now : queue? (returnCells q.cls (takenLeft t) t.1.ext false (withQueue n (fun r => { r with taken := none }) s)) n =
      some { q with taken := none } := by
    rw [queue?_returnCells, queue?_withQueue, held]
    rfl
  obtain ⟨reach, gone⟩ := finishRelease_gone now rfl releasing
  rw [endTaken_runs held taken]
  exact ⟨((withQueue_reach ..).trans (returnCells_reach ..)).trans reach, gone⟩

/-- Settles O36: each operation by the branch of its rule. -/
theorem queueProducersAndConsumers : Obligations.QueueProducersAndConsumers := by
  unfold Obligations.QueueProducersAndConsumers
  intro s n q held only
  refine ⟨fun cells streaming taking wants step => ?reserve, fun c ext data taking prog filled small fits => ?mark,
    fun severed data => ?_, fun i rest free head linked => ?take, fun i w words taken => ?read, fun i w taken => ?ended⟩
  case reserve =>
    intro count fits
    have runs := cellReserve_runs held taking wants step fits
    refine ⟨fun ended => ?_, fun under none => ?_, fun ext under grants => ⟨_, rfl, ?_⟩⟩
    · refine congrArg Host.Outcome.next (runs.trans ?_)
      rw [if_pos ended]
    · refine congrArg Host.Outcome.next (runs.trans ?_)
      rw [under, none]
      rfl
    · rw [runs, under, if_neg Bool.false_ne_true, grants]
      dsimp only
      obtain ⟨frame, queues, extra, occ⟩ := allocCells_spec q.cls cells ext (withQueue n (fun r => { r with
        inProg := some (count + cells, ext) }) s)
      refine ⟨frame, fun m ne => (queues m).trans ((withQueue_reach ..).others m ne), ?_, extra, occ⟩
      refine (queues n).trans ?_
      rw [queue?_withQueue, held]
      rfl
  case mark =>
    obtain ⟨u, back⟩ : ∃ u, u = returnCells q.cls (c - cellsOf data.length) ext false
      (withQueue n (fun r => { r with inProg := none }) s) := ⟨_, rfl⟩
    have runs : itemEndMark n data s = linkItem n ⟨data, ext, false⟩ u := by
      rw [back]
      simp [itemEndMark, held, taking, prog, filled, Nat.not_lt.mpr small]
    have now : queue? u n = some { q with inProg := none } := by
      rw [back, queue?_returnCells, queue?_withQueue, held]
      rfl
    obtain ⟨frame, others, fsc, marks⟩ := linkItem_spec ⟨data, ext, false⟩ now (fun r g found => by
      rw [back] at found
      exact fits r g found)
    refine ⟨_, congrArg Host.Outcome.next runs, ?_, fun m ne => ?_, ?_, marks⟩
    · rw [frame, back]
      rfl
    · rw [others m ne, back, queue?_returnCells]
      exact (withQueue_reach ..).others m ne
    · rw [fsc, back]
      rfl
  · refine congrArg Host.Outcome.next ?_
    simp [itemEndMark, held, severed]
  case take =>
    have runs : takeItem n s = moveQueue n (fun r => { r with items := rest, taken := some (i, 0) }) s := by
      simp [takeItem, held, free, head, linked]
    obtain ⟨reach, marks⟩ := moveQueue_moved (fun r => { r with items := rest, taken := some (i, 0) }) held
    refine ⟨_, congrArg Host.Outcome.next runs, ?_, fun m ne => reach.others m ne, marks⟩
    exact reach.frame
  case read =>
    have runs : readWords n words s = returnCells q.cls
        (takenLeft (i, w) - takenLeft (i, min (cdiv i.data.length 4) (w + words))) i.ext false
        (withQueue n (fun r => { r with taken := some (i, min (cdiv i.data.length 4) (w + words)) }) s) := by
      simp only [readWords, held, taken]
    refine ⟨_, congrArg Host.Outcome.next runs, rfl, fun m ne => ?_, ?_⟩
    · rw [queue?_returnCells]
      exact (withQueue_reach ..).others m ne
    · rw [queue?_returnCells, queue?_withQueue, held]
      rfl
  case ended =>
    have ends (ended : takenLeft (i, w) = 0) : finishItem n s = endTaken n s := by simp [finishItem, held, taken, ended]
    refine ⟨fun ended live => ?_, fun ended releasing => ?_, fun left => ?_, fun live => ?_⟩
    · exact ⟨_, congrArg Host.Outcome.next (ends ended), endTaken_live held taken live⟩
    · obtain ⟨reach, gone⟩ := endTaken_releasing held taken releasing
      exact ⟨_, congrArg Host.Outcome.next (ends ended), fun m ne => reach.others m ne, gone⟩
    · refine congrArg Host.Outcome.next ?_
      simp [finishItem, held, taken, left]
    · have held' : queue? (bump .dropRest n s) n = some q := held
      obtain ⟨frame, others, now⟩ := endTaken_live held' taken live
      have runs : dropRest n s = endTaken n (bump .dropRest n s) := by simp [dropRest, held, taken]
      exact ⟨_, congrArg Host.Outcome.next runs, frame, others, now⟩

end Sys2Proof.Machine
end

section
/-! SUPPORT. Integrity of queues and the sweep (R311, R312). -/

namespace Sys2Proof.Machine

open Sys2Proof

set_option Elab.async false

/-- Cells that become orphans are counted for the sweep that reclaims them, and nothing else changes (R312). -/
theorem orphanCells_frame (c k : Nat) (ext : Bool) (s : State) :
    let t := (orphanCells c k ext s).qmg
    orphanCells c k ext s = { s with
      qmg := { s.qmg with orphans := t.orphans, orphansExt := t.orphansExt, late := t.late, lateExt := t.lateExt } } := by
  unfold orphanCells withQmg
  dsimp only
  split <;> rfl

theorem orphanCells_reach (n c k : Nat) (ext : Bool) (s : State) : QueueReach n s (orphanCells c k ext s) := by
  rw [orphanCells_frame]
  exact ⟨rfl, fun _ => rfl, rfl, fun _ _ => rfl⟩

theorem foldOrphan_reach (n c : Nat) (l : List Item) (s : State) :
    QueueReach n s (l.foldl (fun t i => orphanCells c i.cells i.ext t) s) :=
  .foldl (fun t i => orphanCells_reach n c i.cells i.ext t) l s

/-- A reset of a queue takes its linked items and severs the item in progress (R311). -/
theorem resetQueue_emptied {n : Nat} {s : State} {q : Queue} (held : queue? s n = some q) :
    QueueReach n s (resetQueue n s) ∧ Emptied n q (resetQueue n s) := by
  simp only [resetQueue, held]
  exact emptied_of_cells held (fun k => foldOrphan_reach k q.cls q.items s)

theorem integrityEvent_reach (m n w c l v : Nat) (s : State) : QueueReach m s (integrityEvent n w c l v s) :=
  (bumpN_reach ..).trans ((raise_told ..).queueReach m)

/-- Integrity asks for a sweep, after the one that runs. -/
def AsksSweep (s t : State) : Prop :=
  (s.qmg.sweep = true → t.qmg.sweepQueued = true) ∧ (s.qmg.sweep = false → t.qmg.sweepDue = true)

theorem wantSweep_asks {s t : State} (same : t.qmg.sweep = s.qmg.sweep) : AsksSweep s (wantSweep t) := by
  refine ⟨fun runs => ?_, fun idle => ?_⟩
  · simp [wantSweep, withQmg, same, runs]
  · simp [wantSweep, withQmg, same, idle]

theorem wantSweep_frame (s : State) : wantSweep s = { s with
    qmg := { s.qmg with sweepQueued := (wantSweep s).qmg.sweepQueued, sweepDue := (wantSweep s).qmg.sweepDue } } := by
  unfold wantSweep withQmg
  dsimp only
  split <;> rfl

/-- Asking for a sweep reaches no queue. -/
theorem wantSweep_reach (n : Nat) (s : State) : QueueReach n s (wantSweep s) := by
  rw [wantSweep_frame]
  exact ⟨rfl, fun _ => rfl, rfl, fun _ _ => rfl⟩

/-- A pointer of the list of a queue disagrees. -/
theorem queueIntegrity_list {n w cell : Nat} {place : IntegWhere} {s : State} {q : Queue} (held : queue? s n = some q)
    (runs : queueIntegrity n place cell s = wantSweep (integrityEvent n w cell q.items.length q.level (resetQueue n s))) :
    let t := queueIntegrity n place cell s
    AsksSweep s t ∧ t.fsc = s.fsc ∧ (∀ m, m ≠ n → queue? t m = queue? s m) ∧ Emptied n q t := by
  obtain ⟨reach, r, now, gone⟩ := resetQueue_emptied held
  have event := reach.trans (integrityEvent_reach n n w cell q.items.length q.level (resetQueue n s))
  intro t
  have all := event.trans (wantSweep_reach ..)
  change AsksSweep s (queueIntegrity n place cell s) ∧ (queueIntegrity n place cell s).fsc = s.fsc ∧
    (∀ m, m ≠ n → queue? (queueIntegrity n place cell s) m = queue? s m) ∧ Emptied n q (queueIntegrity n place cell s)
  rw [runs]
  refine ⟨wantSweep_asks event.sweep, all.field State.fsc, fun m ne => all.others m ne, r, ?_, gone⟩
  rw [QueueReach.here (fun k => wantSweep_reach k _), QueueReach.here (fun k => integrityEvent_reach k ..), now]

/-- Items that become orphans leave what is staged as it was. -/
theorem foldOrphan_staged (l : List Staged) (s : State) :
    (l.foldl (fun t e => orphanCells (queueClass s e.queue) e.item.cells e.item.ext t) s).qmg.staged = s.qmg.staged := by
  have keeps (u : State) : (l.foldl (fun t e => orphanCells (queueClass s e.queue) e.item.cells e.item.ext t) u).qmg.staged =
      u.qmg.staged := by
    induction l generalizing u with
    | nil => rfl
    | cons e r ih => rw [List.foldl_cons, ih, orphanCells_frame]
  exact keeps s

/-- The staged item of an op is abandoned: no queue moves. -/
theorem abandonStaged_spec (f i d : Nat) (s : State) :
    let t := abandonStaged f i d s
    t.qmg.sweep = s.qmg.sweep ∧ (∀ m, queue? t m = queue? s m) ∧
      t.qmg.staged = s.qmg.staged.filter (fun e => !(e.flow == f && e.inst == i && e.node == d)) := by
  have reach (m : Nat) := QueueReach.foldl (n := m)
    (fun t (e : Staged) => orphanCells_reach m (queueClass s e.queue) e.item.cells e.item.ext t)
    (s.qmg.staged.filter (fun e => e.flow == f && e.inst == i && e.node == d)) s
  refine ⟨(reach 0).sweep, fun m => QueueReach.here reach m, ?_⟩
  exact congrArg (List.filter _) (foldOrphan_staged _ s)

/-- The free list is discarded: no queue moves, and allocation is refused. -/
theorem discardFreeList_spec (s : State) :
    let t := discardFreeList s
    t.qmg.sweep = s.qmg.sweep ∧ (∀ m, queue? t m = queue? s m) ∧ (t.qmg.freeRebuild = true ∨ t.qmg.freeLate = true) ∧
      t.qmg.extUsed = s.qmg.extSize := by
  have reach (m : Nat) := (orphanCells_reach m 9 (freeCells s) false s).trans
    (orphanCells_reach m 9 (freeExt s) true (orphanCells 9 (freeCells s) false s))
  have sweep := (reach 0).sweep
  refine ⟨sweep, fun m => QueueReach.here reach m, ?_, ?_⟩
  · simp only [discardFreeList, withQmg]
    cases (orphanCells 9 (freeExt s) true (orphanCells 9 (freeCells s) false s)).qmg.sweep <;> simp
  · simp only [discardFreeList, withQmg]
    rw [orphanCells_frame, orphanCells_frame]

/-- An event of integrity and the sweep that it asks for come after what the place's own action has done. -/
theorem queueIntegrity_after {n w cell lost : Nat} {s u : State} (lvl : Nat) (v : State)
    (sweep : u.qmg.sweep = s.qmg.sweep) (queues : ∀ m, queue? u m = queue? s m) (P : Qmg → Prop)
    (blind : ∀ (q : Qmg) a b, P q → P { q with sweepQueued := a, sweepDue := b }) (own : P u.qmg)
    (runs : v = wantSweep (integrityEvent n w cell lost lvl u) := by rfl) :
    AsksSweep s v ∧ (∀ m, queue? v m = queue? s m) ∧ P v.qmg := by
  have event (m : Nat) := integrityEvent_reach m n w cell lost lvl u
  have same : (integrityEvent n w cell lost lvl u).qmg = u.qmg :=
    ((bumpN_hifOnly ..).trans (raise_hifOnly ..)).field State.qmg
  rw [runs]
  refine ⟨wantSweep_asks ((event n).sweep.trans sweep), fun m => ?_, ?_⟩
  · rw [QueueReach.here (fun k => (event k).trans (wantSweep_reach k _)), queues]
  · rw [wantSweep_frame]
    rw [← same] at own
    exact blind _ _ _ own

/-- A taken item disagrees: its cells are orphans, and the event tells of it. -/
theorem queueIntegrity_taken_eq {n : Nat} (cell : Nat) {s : State} {q : Queue} {t : Item × Nat} (held : queue? s n = some q)
    (taken : q.taken = some t) (live : q.releasing = none) :
    queueIntegrity n .taken cell s = wantSweep (integrityEvent n 4 cell 1 q.level (orphanCells q.cls (takenLeft t) t.1.ext
      (withQueue n (fun r => { r with taken := none }) s))) ∧
    queue? (integrityEvent n 4 cell 1 q.level (orphanCells q.cls (takenLeft t) t.1.ext
      (withQueue n (fun r => { r with taken := none }) s))) n = some { q with taken := none } := by
  have event (m : Nat) (v : State) := (orphanCells_reach m q.cls (takenLeft t) t.1.ext v).trans
    (integrityEvent_reach m n 4 cell 1 q.level _)
  have now : queue? (integrityEvent n 4 cell 1 q.level (orphanCells q.cls (takenLeft t) t.1.ext
      (withQueue n (fun r => { r with taken := none }) s))) n = some { q with taken := none } := by
    rw [QueueReach.here (fun m => event m _), queue?_withQueue, held]
    rfl
  refine ⟨?_, now⟩
  simp only [queueIntegrity, held, taken]
  rw [finishRelease, now]
  simp only [live]

/-- A taken item disagrees: it is gone. -/
theorem queueIntegrity_taken {n cell : Nat} {s : State} {q : Queue} {t : Item × Nat} (held : queue? s n = some q)
    (taken : q.taken = some t) (live : q.releasing = none) :
    let u := queueIntegrity n .taken cell s
    AsksSweep s u ∧ (∀ m, m ≠ n → queue? u m = queue? s m) ∧ queue? u n = some { q with taken := none } := by
  obtain ⟨runs, now⟩ := queueIntegrity_taken_eq cell held taken live
  have reach := (withQueue_reach n (fun r => { r with taken := none }) s).trans
    ((orphanCells_reach n q.cls (takenLeft t) t.1.ext _).trans (integrityEvent_reach n n 4 cell 1 q.level _))
  intro u
  change AsksSweep s (queueIntegrity n .taken cell s) ∧ (∀ m, m ≠ n → queue? (queueIntegrity n .taken cell s) m = queue? s m) ∧
    queue? (queueIntegrity n .taken cell s) n = _
  rw [runs]
  refine ⟨wantSweep_asks reach.sweep, fun m ne => (reach.trans (wantSweep_reach ..)).others m ne, ?_⟩
  rw [QueueReach.here (fun k => wantSweep_reach k _), now]

/-! ### The sweep (R312) -/

theorem sweepDone_spec {s : State} (runs : s.qmg.sweep = true) :
    HifOnly { s with qmg := { s.qmg with
      occ := FMap.mapV s.qmg.occ (fun c v => v - FMap.getD s.qmg.orphans c 0), extUsed := s.qmg.extUsed - s.qmg.orphansExt
      orphans := s.qmg.late, orphansExt := s.qmg.lateExt, late := [], lateExt := 0, freeRebuild := s.qmg.freeLate
      freeLate := false, sweep := false, sweepDue := s.qmg.sweepDue || s.qmg.sweepQueued, sweepQueued := false
      sweepOp := none } } (sweepDone s) := by
  unfold sweepDone
  rw [runs]
  cases s.qmg.sweepOp with
  | none => exact .refl _
  | some id => exact HifOnly.trans (.of _ _ _) (endLong_hifOnly ..)

/-- Settles O37: each place by its action, then the sweep. -/
theorem integrityAndSweep : Obligations.IntegrityAndSweep := by
  unfold Obligations.IntegrityAndSweep
  intro s n cell asks
  refine ⟨fun q place held list => ⟨_, rfl, ?_⟩, fun f i d => ⟨_, rfl, ?_⟩, fun q t0 held taken live =>
    ⟨_, rfl, queueIntegrity_taken held taken live⟩, ⟨_, rfl, ?_⟩, fun idle due => ?start, fun runs => ?done⟩
  · rcases list with rfl | rfl | rfl
    · exact queueIntegrity_list held (w := 0) (by simp only [queueIntegrity, held])
    · exact queueIntegrity_list held (w := 1) (by simp only [queueIntegrity, held])
    · exact queueIntegrity_list held (w := 2) (by simp only [queueIntegrity, held])
  · obtain ⟨sweep, queues, staged⟩ := abandonStaged_spec f i d s
    exact queueIntegrity_after _ _ sweep queues (fun qmg => qmg.staged = s.qmg.staged.filter _) (fun _ _ _ => id) staged
  · obtain ⟨sweep, queues, free⟩ := discardFreeList_spec s
    exact queueIntegrity_after _ _ sweep queues
      (fun qmg => (qmg.freeRebuild = true ∨ qmg.freeLate = true) ∧ qmg.extUsed = s.qmg.extSize) (fun _ _ _ => id) free
  case start =>
    have starts : sweepStart s = match beginLong 0x0166 0 0xFFFF (sweepTotal s) s with
        | none => withQmg (fun q => { q with sweep := true, sweepDue := false, sweepOp := none }) s
        | some (id, t) => withQmg (fun q => { q with sweep := true, sweepDue := false, sweepOp := some id }) t := by
      simp only [sweepStart, idle, due]
      rfl
    refine ⟨_, congrArg Host.Outcome.next starts, ?_⟩
    by_cases full : 256 ≤ s.hif.longOps.length
    · rw [beginLong, if_pos full]
      exact ⟨rfl, rfl, fun room => absurd full (Nat.not_le.mpr room)⟩
    · rw [beginLong, if_neg full]
      exact ⟨rfl, rfl, fun _ => rfl⟩
  case done =>
    have only := sweepDone_spec runs
    have qmg := only.field State.qmg
    refine ⟨_, rfl, ?_, ?_⟩
    · rw [only.eq]
    · rw [qmg]
      exact ⟨rfl, rfl, rfl, rfl, rfl, rfl, rfl, rfl, rfl, rfl, fun m => only.field (fun t => queue? t m)⟩

end Sys2Proof.Machine
end

section
/-! SUPPORT. Compression jobs and the recorder (R331 to R341). -/

namespace Sys2Proof.Machine

open Sys2Proof

set_option Elab.async false

/-! ### Jobs (R331, R332) -/

theorem completeHeld_hifOnly (n : Nat) (h : Held) (c : Nat) (b : Bytes) (s : State) : HifOnly s (completeHeld n h c b s) :=
  (withRing_hifOnly ..).trans (putEntry_told ..).hifOnly

/-- A long operation that has ended is no longer listed. -/
theorem longOp?_endLong (i c : Nat) (b : Bytes) (s : State) : longOp? (endLong i c b s) i = none := by
  have raised (code : Nat) (r : Option Nat) (d : Bytes) (u : State) : longOp? (raise code r d u) i = longOp? u i := by
    unfold longOp?
    rw [(raise_told code r d u).hif Hif.longOps]
  have gone : (s.hif.longOps.filter (fun p => p.opId != i)).find? (fun o => o.opId == i) = none := by
    simp [List.find?_eq_none]
  unfold endLong
  cases found : longOp? s i with
  | none => exact found
  | some o =>
    dsimp only
    split
    · rw [raised]
      exact gone
    · rw [raised, raised]
      exact gone

theorem endLong_wrote (i c : Nat) (b : Bytes) (s : State) : (endLong i c b s).hif.wrote = s.hif.wrote := by
  unfold endLong
  split
  · rfl
  · dsimp only
    split
    · exact (raise_told ..).hif Hif.wrote
    · exact ((raise_told ..).trans (raise_told ..)).hif Hif.wrote

/-- How the end of a job counts, and the status of its operation. -/
def endCount (r : BceRun) : Ctr × Nat :=
  if r.result = Br.ok then (Ctr.bceJobOk, St.ok)
  else if r.result = Br.outShort then (Ctr.bceJobShort, St.ok)
  else (Ctr.bceJobFail, if r.result = Br.aborted then St.aborted else St.failed)

/-- The state of a job's end in which the job is gone and a resume state is kept where its output was short. -/
def jobGone (j : BceJob) (r : BceRun) (s : State) : Nat × State :=
  let s1 := withBce (fun b => { b with jobs := b.jobs.filter (fun k => k.opId != j.opId) }) s
  if r.result = Br.outShort then keepResume j r (now s) s1 else (0, s1)

theorem jobGone_spec (j : BceJob) (r : BceRun) (s : State) :
    let t := (jobGone j r s).2
    t = { s with bce := t.bce } ∧ t.bce.jobs = s.bce.jobs.filter (fun k => k.opId != j.opId) ∧
      (r.result ≠ Br.outShort → t.bce.resumes = s.bce.resumes) := by
  unfold jobGone
  dsimp only
  split
  next short => exact ⟨rfl, rfl, fun no => absurd short no⟩
  next => exact ⟨rfl, rfl, fun _ => rfl⟩

/-- The end of a job, by its run. -/
theorem endJob_eq (j : BceJob) (s : State) :
    let s0 := if j.abort then (drawNat s).2 else s
    let r := bceRun j (if j.abort then some (drawNat s).1 else none)
    let g := jobGone j r s0
    endJob j s = endLong j.opId (endCount r).2 (bceResult r g.1)
      (withLong j.opId (fun o => { o with position := max o.position r.consumed })
        (bump (endCount r).1 0 { g.2 with hif := { g.2.hif with wrote := r.out } })) := by
  intro s0 r g
  have time : now s = now s0 := by
    change now s = now (if j.abort then (drawNat s).2 else s)
    split <;> rfl
  unfold endJob endCount
  dsimp only
  rw [time]
  rfl

/-- What is left when a job has ended. -/
theorem endJob_spec (j : BceJob) (s : State) :
    let t := endJob j s
    t = { s with bce := t.bce, hif := t.hif, counters := t.counters, free := t.free } ∧
      t.bce.jobs = s.bce.jobs.filter (fun k => k.opId != j.opId) ∧ longOp? t j.opId = none ∧
      (j.abort = false → t.hif.wrote = (bceRun j none).out ∧
        ((bceRun j none).result ≠ Br.outShort → t.bce.resumes = s.bce.resumes)) := by
  intro t
  obtain ⟨s0, drawn⟩ : ∃ s0, s0 = if j.abort then (drawNat s).2 else s := ⟨_, rfl⟩
  obtain ⟨r, run⟩ : ∃ r, r = bceRun j (if j.abort then some (drawNat s).1 else none) := ⟨_, rfl⟩
  obtain ⟨frame, jobs, resumes⟩ := jobGone_spec j r s0
  have ends : t = _ := endJob_eq j s
  dsimp only at ends
  rw [← drawn, ← run] at ends
  have bce : s0.bce = s.bce := by
    rw [drawn]
    split <;> rfl
  have only : HifOnly (jobGone j r s0).2 t := by
    rw [ends]
    exact HifOnly.trans (.trans (.trans (.of _ _ _) (bump_hifOnly ..)) (.of _ _ _)) (endLong_hifOnly ..)
  have first : s0 = { s with free := s0.free } := by
    rw [drawn]
    split <;> rfl
  obtain ⟨g, left⟩ : ∃ g, g = (jobGone j r s0).2 := ⟨_, rfl⟩
  rw [← left] at frame jobs resumes only
  refine ⟨?_, ?_, ?_, fun live => ⟨?_, fun long => ?_⟩⟩
  · rw [only.eq, frame, first]
  · rw [only.field State.bce, jobs, bce]
  · rw [ends]
    exact longOp?_endLong ..
  · have whole : r = bceRun j none := by rw [run, live]; rfl
    rw [ends, endLong_wrote, whole]
    exact congrArg Hif.wrote (rfl : (bump _ _ _).hif = _)
  · have whole : r = bceRun j none := by rw [run, live]; rfl
    rw [← whole] at long
    rw [only.field State.bce, resumes long, bce]

/-! ### The backlog (R338, R341) -/

theorem keepHigh_frame (f : Fig) (v : Nat) (s : State) : keepHigh f v s = { s with figs := (keepHigh f v s).figs } := by
  unfold keepHigh
  split <;> rfl

theorem writeItem_hifOnly (n : Nat) (i : PrxItem) (s : State) : HifOnly s (writeItem n i s) := by
  unfold writeItem
  split
  · exact .refl s
  · exact (withRing_hifOnly ..).trans (.foldl (fun t _ => msixRing_hifOnly _ t) _ _)

/-- The backlog, the jobs and the channels stay. -/
def KeepsBacklog (s t : State) : Prop := t.bce.backlog = s.bce.backlog ∧ t.chans = s.chans ∧ t.bce.jobs = s.bce.jobs

theorem KeepsBacklog.trans {s t u : State} (h : KeepsBacklog s t) (k : KeepsBacklog t u) : KeepsBacklog s u := by
  obtain ⟨b, c, j⟩ := h
  obtain ⟨b', c', j'⟩ := k
  exact ⟨b'.trans b, c'.trans c, j'.trans j⟩

theorem HifOnly.keepsBacklog {s t : State} (only : HifOnly s t) : KeepsBacklog s t :=
  ⟨only.field (fun u => u.bce.backlog), only.field State.chans, only.field (fun u => u.bce.jobs)⟩

theorem backlogMoved_keepsBacklog (old : Nat) (s : State) : KeepsBacklog s (backlogMoved old s) := by
  have high : KeepsBacklog s (keepHigh .backlogHigh (backlogBytes s) s) := by
    rw [keepHigh_frame]
    exact ⟨rfl, rfl, rfl⟩
  unfold backlogMoved
  dsimp only
  split
  · exact high.trans (crossed_hifOnly ..).keepsBacklog
  · exact high.trans (noticeLive_hifOnly ..).keepsBacklog

theorem finishFlushes_keepsBacklog (s : State) : KeepsBacklog s (finishFlushes s) := by
  unfold finishFlushes
  exact KeepsBacklog.trans (t := withBce _ s) ⟨rfl, rfl, rfl⟩
    (HifOnly.foldl (fun t f => completeHeld_hifOnly _ _ _ _ t) _ _).keepsBacklog

theorem writeSegment_spec (n : Nat) (e : BacklogSeg) (s : State) :
    KeepsBacklog { s with bce := { s.bce with backlog := s.bce.backlog.erase e } } (writeSegment n e s) := by
  unfold writeSegment
  have item := ((withRing_hifOnly n (fun r => { r with waitSince := now s, starved := false })
    (withBce (fun b => { b with backlog := dropFirst b.backlog e }) s)).trans (writeItem_hifOnly n ⟨3, 0, e.data, false, 0, 0, false⟩ _)).keepsBacklog
  exact ((item.trans (backlogMoved_keepsBacklog ..)).trans ((bump_hifOnly ..).trans (starvedLive_hifOnly ..)).keepsBacklog).trans
    (finishFlushes_keepsBacklog ..)

/-- Settles O38: commands by their own parts, then the end of a job, of a handle and of a segment. -/
theorem compressionJobsAndRecorder : Obligations.CompressionJobsAndRecorder := by
  unfold Obligations.CompressionJobsAndRecorder
  intro h s s1
  refine ⟨fun input ready ok room => ?job, fun i ready ok => ?abort, fun i j up found => ?ends, fun n t => rfl,
    fun ok t up => ⟨fun none => ?_, fun n e some => ⟨fun fails => ?_, fun writes => ?_⟩⟩, fun ready => ⟨fun none closed => ?_,
    fun held => ?_⟩⟩
  case job =>
    have free : ¬ 256 ≤ s1.hif.longOps.length := Nat.not_le.mpr room
    intro again cont job left
    refine answers_done (i := .bceJob h input) rfl ready ?_
    rw [acceptLong, if_neg (fun bad => bad ok), beginLong, if_neg free]
    rfl
  case abort =>
    intro marked
    exact answers_done (i := .bceAbort h i) rfl ready (checked_of_ok _ _ ok)
  case ends =>
    have of : j.opId = i := beq_iff_eq.mp (List.find?_some (p := fun k : BceJob => k.opId == i) found)
    have runs : exec (.bceJobDone i) s = .next (endJob j s) := by
      change execBceJobDone i s = _
      rw [execBceJobDone, found]
      simp only [onlyIf, up, if_true]
    subst of
    exact ⟨_, runs, endJob_spec j s⟩
  · change execRecSegmentWrite ok t s = _
    rw [execRecSegmentWrite]
    simp only [none]
  · change execRecSegmentWrite ok t s = _
    have up' : alive (advance t s) = true := up
    rw [execRecSegmentWrite]
    simp only [some, onlyIf, up', fails]
    rfl
  · have up' : alive (advance t s) = true := up
    have runs : exec (.recSegmentWrite ok t) s = .next (writeSegment n e (advance t s)) := by
      change execRecSegmentWrite ok t s = _
      rw [execRecSegmentWrite]
      simp only [some, onlyIf, up', writes]
      rfl
    exact ⟨_, runs, writeSegment_spec n e (advance t s)⟩
  · refine answers_done (i := .recFlush h) rfl ready (if_pos ?_)
    rw [Bool.and_eq_true]
    exact ⟨List.isEmpty_iff.mpr none, closed⟩
  · intro f kept
    refine answers_wait (i := .recFlush h) rfl ready (if_neg ?_)
    rw [Bool.and_eq_true]
    rintro ⟨none, closed⟩
    rcases held with some | opened
    · exact some (List.isEmpty_iff.mp none)
    · exact absurd (closed.symm.trans opened) (by decide)

end Sys2Proof.Machine
end

section
/-! SUPPORT. The commands of voice channels (R4, R5, R49 to R51). -/

namespace Sys2Proof.Machine

open Sys2Proof

set_option Elab.async false

theorem limitOf_le (s : State) (full : Nat) : limitOf s full ≤ full := by
  unfold limitOf
  split
  · exact le_rfl
  · exact Nat.div_le_of_le_mul (by rw [Nat.mul_comm 16]; exact Nat.mul_le_mul_left _ (by omega))

/-- More channel units than the device has are refused. -/
theorem capacityOk_false_of_units {s : State} {p : ChanParams}
    (many : 32768 < (((s.chans.filter (fun e => e.1 != p.channel)).map (fun e => e.2.units)).sum + unitsOf p)) :
    capacityOk s p = false := by
  have limit := limitOf_le s 32768
  unfold capacityOk
  dsimp only
  rw [decide_eq_false (by omega), Bool.false_and, Bool.false_and]

/-- A channel is established with its flow. -/
theorem setupChan_spec (ring : Nat) (b : Bytes) (s : State) :
    let p := chanParams b
    let t := setupChan ring b s
    t = { s with chans := t.chans, fsc := t.fsc, free := t.free, counters := t.counters } ∧
      (∃ due, FMap.get? t.chans p.channel = some (Chan.fresh p ring due)) ∧
      (∀ n, n ≠ p.channel → FMap.get? t.chans n = FMap.get? s.chans n) ∧
      ∃ fl, flow? t p.channel = some fl ∧ fl.cls = 1 ∧ fl.period = frameTicks s ∧ fl.ring = ring ∧ fl.insts = [] := by
  intro p t
  obtain ⟨home, chosen⟩ : ∃ home, home = (chooseHome s 31).1 := ⟨_, rfl⟩
  obtain ⟨due, first⟩ : ∃ due, due = cdiv (s.clk.tick + 1) (frameTicks s) * frameTicks s := ⟨_, rfl⟩
  obtain ⟨u, before⟩ : ∃ u : State, u = { dropCounters [.recSeg, .recDrop] p.channel s with
    free := s.free + 1, chans := FMap.set s.chans p.channel (Chan.fresh p ring due) } := ⟨_, rfl⟩
  have set : t = addFlow p.channel (voiceFlow s p ring home) u := by
    rw [before, chosen, first]
    rfl
  have chans : t.chans = FMap.set s.chans p.channel (Chan.fresh p ring due) := by
    rw [set, addFlow_frame, before]
  rw [chans]
  refine ⟨?_, ⟨due, FMap.get?_set_same ..⟩, fun n ne => FMap.get?_set_other _ _ _ _ ne, ?_⟩
  · rw [set, addFlow_frame, before]
    rfl
  · rw [set]
    refine ⟨_, flow?_addFlow_same .., ?_⟩
    split
    · exact ⟨rfl, rfl, rfl, rfl⟩
    · exact ⟨rfl, rfl, rfl, rfl⟩

/-- Settles O21: each command by its own part. -/
theorem channelCommandsEstablishAndRelease : Obligations.ChannelCommandsEstablishAndRelease := by
  unfold Obligations.ChannelCommandsEstablishAndRelease
  intro h s s1 p
  refine ⟨fun ready ok => ?setup, fun ready taken => ?taken, fun ready fits free many => ?many, fun ready ok => ?modify,
    fun n c ready held live => ?release⟩
  case setup =>
    obtain ⟨t, runs, host⟩ := answers_checked (i := .chanSetup h) rfl ready ok
    obtain ⟨frame, ⟨due, put⟩, others, fl, flow⟩ := setupChan_spec h.ring (blk h) s1
    have chans : t.chans = (setupChan h.ring (blk h) s1).chans := host.field State.chans
    refine ⟨t, runs, ?_, ⟨Chan.fresh p h.ring due, ?_, rfl, rfl, rfl, rfl, rfl, rfl⟩, fun n ne => ?_, fl, ?_, flow.2⟩
    · rw [host.eq, frame]
      rfl
    · rw [chans]
      exact put
    · rw [chans]
      exact others n ne
    · exact (host.field (fun u => flow? u p.channel)).trans flow.1
  case taken =>
    have bad : chanSetupStatus s1 (blk h) = St.badParam := by
      have held : FMap.has s1.chans (chanParams (blk h)).channel = true := taken
      simp [chanSetupStatus, held]
    refine answers_done (i := .chanSetup h) rfl ready ?_
    rw [checked_of_ne _ _ (by rw [bad]; decide), bad]
  case many =>
    have bad : chanSetupStatus s1 (blk h) = St.noCapacity := by
      have free' : FMap.has s1.chans (chanParams (blk h)).channel = false := free
      have full : capacityOk s1 (chanParams (blk h)) = false := capacityOk_false_of_units (s := s1) many
      simp [chanSetupStatus, free', fits, full]
    refine answers_done (i := .chanSetup h) rfl ready ?_
    rw [checked_of_ne _ _ (by rw [bad]; decide), bad]
  case modify =>
    intro u
    have done : exec (.chanModify h) s = .next (holdFreed (cplOf s h.ring) s u) := by
      have runs : runCmd (blockCmd 0x0102 2 64 true) h
          (fun s1 => checked (chanModifyStatus s1 (blk h)) (modifyChan (blk h) s1) s1) s = u :=
        runCmd_done ready (checked_of_ok _ _ ok)
      exact congrArg (fun v => Host.Outcome.next (holdFreed (cplOf s h.ring) s v)) runs
    refine ⟨done, fun same => ?_⟩
    rw [done, holdFreed, same]
    simp
  case release =>
    refine answers_wait (i := .chanRelease h n) rfl ready ?_
    have held' : FMap.get? (take h.ring s).chans n = some c := held
    simp only [chanReleaseOwn, held', live]
    rfl

end Sys2Proof.Machine
end

section
/-! SUPPORT. States that agree but for some of their fields, and the reach of what is sent on a port (R367, R375). -/

namespace Sys2Proof.Machine

open Sys2Proof

set_option Elab.async false

/-! ### Agreement -/

/-- Two states agree where they are the same once `blank` has put fixed values into the fields that may differ. -/
def Agree (blank : State → State) (s t : State) : Prop := blank t = blank s

section
variable {blank : State → State}

theorem Agree.refl (s : State) : Agree blank s s := rfl

theorem Agree.symm {s t : State} (h : Agree blank s t) : Agree blank t s := Eq.symm h

theorem Agree.trans {s t u : State} (h : Agree blank s t) (k : Agree blank t u) : Agree blank s u := Eq.trans k h

theorem Agree.ite {s t u : State} {c : Prop} [Decidable c] (h : Agree blank s t) (k : Agree blank s u) :
    Agree blank s (if c then t else u) := by
  split <;> assumption

theorem Agree.foldl {α : Type} {f : State → α → State} (agree : ∀ t a, Agree blank t (f t a)) (l : List α) (s : State) :
    Agree blank s (l.foldl f s) := by
  induction l generalizing s with
  | nil => exact .refl s
  | cons a r ih => exact (agree s a).trans (ih _)

/-- What does not read the fields that may differ reads the same. -/
theorem Agree.field {α : Type} {s t : State} (agree : Agree blank s t) (f : State → α)
    (blind : ∀ u, f (blank u) = f u := by intro; rfl) : f t = f s := by
  rw [← blind t, ← blind s]
  exact congrArg f agree

/-- States that agree but for fewer fields agree but for more. -/
theorem Agree.weaken {coarse : State → State} {s t : State} (agree : Agree blank s t)
    (covers : ∀ u, coarse (blank u) = coarse u := by intro; rfl) : Agree coarse s t := agree.field coarse covers

/-- A state is the one that it agrees with, but for the fields that `restore` puts back. -/
theorem Agree.frame {s t : State} (agree : Agree blank s t) (restore : State → State) (back : restore (blank t) = t := by rfl)
    (covers : restore (blank s) = restore s := by rfl) : t = restore s := by
  rw [← covers, ← back]
  exact congrArg restore (agree : blank t = blank s) ▸ rfl

end

theorem HifOnly.agree {blank : State → State} {s t : State} (only : HifOnly s t)
    (covers : ∀ (u : State) h c, blank { u with hif := h, counters := c } = blank u := by intros; rfl) : Agree blank s t := by
  rw [only.eq]
  exact covers ..

theorem HostOnly.agree {blank : State → State} {s t : State} (only : HostOnly s t)
    (covers : ∀ (u : State) h x c, blank { u with hif := h, sec := x, counters := c } = blank u := by intros; rfl) :
    Agree blank s t := by
  rw [only.eq]
  exact covers ..

/-! ### Sending on a port -/

/-- But for ports, pairs, figures, the host interface and the counters. -/
def sansPorts (s : State) : State := { s with eth := [], prp := [], figs := [], hif := Hif.reset, counters := [] }

theorem withPort_ports (p : Nat) (f : EthPort → EthPort) (s : State) : Agree sansPorts s (withPort p f s) := rfl

theorem withPair_ports (n : Nat) (f : PrpPair → PrpPair) (s : State) : Agree sansPorts s (withPair n f s) := rfl

theorem endPtx_ports (p : Option (Nat × BitVec 32)) (time status : Nat) (s : State) :
    Agree sansPorts s (endPtx p time status s) := (endPtx_hifOnly ..).agree

theorem dropDown_ports (p : Nat) (f : TxFrame) (s : State) : Agree sansPorts s (dropDown p f s) :=
  ((bump_hifOnly ..).trans (endPtx_hifOnly ..)).agree

theorem beginWake_ports (p : Nat) (t : Ns) (s : State) : Agree sansPorts s (beginWake p t s) := by
  unfold beginWake
  exact .ite rfl (.refl s)

theorem enqueue_ports (p tc : Nat) (f : TxFrame) (s : State) : Agree sansPorts s (enqueue p tc f s) := by
  unfold enqueue
  exact .ite (endPtx_ports ..) (.ite (dropDown_ports ..) ((withPort_ports ..).trans (beginWake_ports ..)))

theorem pairSend_ports (n tc : Nat) (d : Bytes) (ptx : Option (Nat × BitVec 32)) (ts : Bool) (s : State) :
    Agree sansPorts s (pairSend n tc d ptx ts s) :=
  ((withPair_ports ..).trans (enqueue_ports ..)).trans (enqueue_ports ..)

theorem portSend_ports (p tc : Nat) (d : Bytes) (s : State) : Agree sansPorts s (portSend p tc d s) := by
  unfold portSend
  split
  · exact pairSend_ports ..
  · exact enqueue_ports ..

end Sys2Proof.Machine
end

section
/-! SUPPORT. RTP contexts: their commands and RTCP (R83 to R85, R106 to R109). -/

namespace Sys2Proof.Machine

open Sys2Proof

set_option Elab.async false

theorem rtp?_withRtp_same (c : Nat) (f : Rtp → Rtp) (s : State) : rtp? (withRtp c f s) c = (rtp? s c).map f :=
  FMap.get?_adj_same ..

theorem rtp?_withRtp_other {c m : Nat} (f : Rtp → Rtp) (s : State) (ne : m ≠ c) : rtp? (withRtp c f s) m = rtp? s m :=
  FMap.get?_adj_other _ _ _ _ ne

/-! ### Reports (R108) -/

/-- The next report falls half an interval to one and a half intervals from now (R108). -/
def ReportDue (s : State) (p : RtpParams) (x : Rtp) : Prop :=
  now s + p.rtcpInterval * 1000000000 / 2 ≤ x.rtcp.nextAt ∧
    x.rtcp.nextAt ≤ now s + p.rtcpInterval * 1000000000 / 2 + p.rtcpInterval * 1000000000

/-- A report is scheduled: the context changes in nothing else. -/
theorem rtcpSchedule_spec {c : Nat} {s : State} {x : Rtp} (held : rtp? s c = some x) :
    let t := rtcpSchedule c s
    t = { s with rtps := t.rtps, free := t.free } ∧ (∀ m, m ≠ c → rtp? t m = rtp? s m) ∧
      ∃ y, rtp? t c = some y ∧ y = { x with rtcp := y.rtcp } ∧ ReportDue s x.p y := by
  obtain ⟨d, drawn⟩ : ∃ d, d = (drawNat s).1 := ⟨_, rfl⟩
  intro t
  have scheduled : t = withRtp c (fun y => { y with rtcp := { y.rtcp with
      nextAt := now s + x.p.rtcpInterval * 1000000000 / 2 + d % (x.p.rtcpInterval * 1000000000 + 1) } })
      { s with free := s.free + 1 } := by
    change rtcpSchedule c s = _
    simp only [rtcpSchedule, held, drawn]
    rfl
  rw [scheduled]
  refine ⟨rfl, fun m ne => rtp?_withRtp_other _ _ ne, _, (rtp?_withRtp_same ..).trans (congrArg _ held), rfl, ?_⟩
  have less := Nat.mod_lt d (Nat.succ_pos (x.p.rtcpInterval * 1000000000))
  constructor
  · exact Nat.le_add_right _ _
  · exact Nat.add_le_add_left (Nat.le_of_lt_succ less) _

/-- A compound packet goes out: the context changes in its RTCP figures and its transmit key. -/
theorem rtcpSend_spec {c : Nat} {s : State} {x : Rtp} (bye : Bool) (held : rtp? s c = some x) :
    let t := rtcpSend c bye s
    Agree sansPorts { s with rtps := t.rtps } t ∧ (∀ m, m ≠ c → rtp? t m = rtp? s m) ∧
      ∃ y, rtp? t c = some y ∧ y = { x with rtcp := y.rtcp, txKey := y.txKey } := by
  have sent (f : Rtp → Rtp) (changes : f x = { x with rtcp := (f x).rtcp, txKey := (f x).txKey }) (a b : Nat) (d : Bytes) :
      let t := rtpEmit x.p a b d (withRtp c f s)
      Agree sansPorts { s with rtps := t.rtps } t ∧ (∀ m, m ≠ c → rtp? t m = rtp? s m) ∧
        ∃ y, rtp? t c = some y ∧ y = { x with rtcp := y.rtcp, txKey := y.txKey } := by
    intro t
    have port : Agree sansPorts (withRtp c f s) t := portSend_ports ..
    have rtps : t.rtps = (withRtp c f s).rtps := port.field State.rtps
    refine ⟨?_, fun m ne => ?_, f x, ?_, changes⟩
    · rw [rtps]
      exact port
    · rw [rtp?, rtps]
      exact rtp?_withRtp_other _ _ ne
    · rw [rtp?, rtps]
      exact (rtp?_withRtp_same ..).trans (congrArg _ held)
  have stays : Agree sansPorts { s with rtps := s.rtps } s ∧ (∀ m, m ≠ c → rtp? s m = rtp? s m) ∧
      ∃ y, rtp? s c = some y ∧ y = { x with rtcp := y.rtcp, txKey := y.txKey } := ⟨.refl s, fun _ _ => rfl, x, held, rfl⟩
  intro t
  change Agree sansPorts { s with rtps := (rtcpSend c bye s).rtps } (rtcpSend c bye s) ∧
    (∀ m, m ≠ c → rtp? (rtcpSend c bye s) m = rtp? s m) ∧ ∃ y, rtp? (rtcpSend c bye s) c = some y ∧ _
  simp only [rtcpSend, held]
  split
  · split
    · exact stays
    · split
      · exact stays
      · exact sent _ rfl _ _ _
  · exact sent _ rfl _ _ _

/-! ### Commands (R83, R84, R106) -/

theorem modifyRtp_spec {b : Bytes} {s : State} {x : Rtp} (held : rtp? s (rtpParams b).context = some x) :
    let p := rtpParams b
    let t := modifyRtp b s
    (∀ n, n ≠ p.context → rtp? t n = rtp? s n) ∧ t.chans = s.chans ∧ t.fsc = s.fsc ∧
      ∃ y, rtp? t p.context = some y ∧ y.p = p ∧ y.jb = x.jb ∧ y.txSeq = x.txSeq ∧ y.txTs = x.txTs ∧ y.rxKey = x.rxKey ∧
        y.delay = x.delay := by
  intro p t
  obtain ⟨u, said⟩ : ∃ u, u = if x.p.txSsrc ≠ p.txSsrc && (chanOf s p.context).isSome then rtcpSend p.context true s else s :=
    ⟨_, rfl⟩
  have bye : u.chans = s.chans ∧ u.fsc = s.fsc ∧ (∀ n, n ≠ p.context → rtp? u n = rtp? s n) ∧
      ∃ y, rtp? u p.context = some y ∧ y = { x with rtcp := y.rtcp, txKey := y.txKey } := by
    rw [said]
    split
    · obtain ⟨agree, others, here⟩ := rtcpSend_spec true held
      exact ⟨agree.field State.chans, agree.field State.fsc, others, here⟩
    · exact ⟨rfl, rfl, fun _ _ => rfl, x, held, rfl⟩
  obtain ⟨chans, fsc, others, y, here, same⟩ := bye
  have done : t = withRtp p.context (fun y => { y with
      p, lastRx := if x.p.rxTimeout ≠ p.rxTimeout then now s else y.lastRx
      timedOut := if x.p.rxTimeout ≠ p.rxTimeout then false else y.timedOut }) u := by
    rw [said]
    change modifyRtp b s = _
    simp only [modifyRtp, held]
    rfl
  rw [done]
  refine ⟨fun n ne => (rtp?_withRtp_other _ _ ne).trans (others n ne), chans, fsc, _,
    (rtp?_withRtp_same ..).trans (congrArg _ here), rfl, ?_⟩
  rw [same]
  exact ⟨rfl, rfl, rfl, rfl, rfl⟩

/-- Settles O22: each command by its own part. -/
theorem rtpContextCommands : Obligations.RtpContextCommands := by
  unfold Obligations.RtpContextCommands
  intro h s s1 p
  refine ⟨fun ready ok => ?setup, fun ready ok => ?modify, fun n ready held free => ?release, fun n ready named => ?busy,
    fun ready good held => ?key⟩
  case setup =>
    obtain ⟨t, runs, host⟩ := answers_checked (i := .rtpSetup h) rfl ready ok
    obtain ⟨u, put⟩ : ∃ u : State, u = { s1 with rtps := FMap.set s1.rtps p.context (Rtp.fresh p h.ring (now s1)) } := ⟨_, rfl⟩
    have held : rtp? u p.context = some (Rtp.fresh p h.ring (now s1)) := by
      rw [put]
      exact FMap.get?_set_same ..
    obtain ⟨frame, others, y, here, same, due⟩ := rtcpSchedule_spec held
    have set : setupRtp h.ring (blk h) s1 = rtcpSchedule p.context u := by rw [put]; rfl
    rw [set] at host
    have time : now u = now s := by rw [put]; rfl
    rw [ReportDue, time] at due
    refine ⟨t, runs, ?_, fun n ne => ?_, y, (host.field (fun v => rtp? v p.context)).trans here, ?_⟩
    · rw [host.eq, frame, put]
      rfl
    · refine (host.field (fun v => rtp? v n)).trans ((others n ne).trans ?_)
      rw [put]
      exact FMap.get?_set_other _ _ _ _ ne
    · have fields : y.p = p ∧ y.ring = h.ring ∧ y.txSeq = p.txSeqInit ∧ y.jb = [] ∧ y.delay = p.jbNom ∧ y.txKey = none ∧
          y.txNext = none ∧ y.rxKey = none ∧ y.rxNext = none := by
        rw [same]
        exact ⟨rfl, rfl, rfl, rfl, rfl, rfl, rfl, rfl, rfl⟩
      obtain ⟨h1, h2, h3, h4, h5, h6, h7, h8, h9⟩ := fields
      exact ⟨h1, h2, h3, h4, h5, h6, h7, h8, h9, due⟩
  case modify =>
    obtain ⟨t, runs, host⟩ := answers_checked (i := .rtpModify h) rfl ready ok
    have held : ∃ x, rtp? s1 p.context = some x := by
      cases found : rtp? s1 p.context with
      | none =>
        have bad : rtpModifyStatus s1 (blk h) = St.badParam := by
          have found' : rtp? s1 (rtpParams (blk h)).context = none := found
          simp only [rtpModifyStatus, found']
        exact absurd (bad.symm.trans ok) (by decide)
      | some x => exact ⟨x, rfl⟩
    obtain ⟨x, held⟩ := held
    obtain ⟨others, chans, fsc, y, here, fields⟩ := modifyRtp_spec held
    exact ⟨t, runs, fun n ne => (host.field (fun v => rtp? v n)).trans (others n ne), (host.field State.chans).trans chans,
      (host.field State.fsc).trans fsc, x, y, held, (host.field (fun v => rtp? v p.context)).trans here, fields⟩
  case release =>
    have ok : rtpReleaseStatus s1 n = St.ok := if_pos (by
      have none : chanOf s1 n = none := free
      have some : (rtp? s1 n).isSome = true := held
      rw [none, some]
      rfl)
    obtain ⟨t, runs, host⟩ := answers_checked (i := .rtpRelease h n) rfl ready ok
    exact ⟨t, runs, HostOnly.trans (.of _ s1.hif s1.sec _) host⟩
  case busy =>
    have bad : rtpReleaseStatus s1 n = St.badParam := if_neg (by
      have some : (chanOf s1 n).isNone = false := Option.isNone_eq_false_iff.mpr named
      rw [some, Bool.and_false]
      exact Bool.false_ne_true)
    refine answers_done (i := .rtpRelease h n) rfl ready ?_
    rw [checked_of_ne _ _ (by rw [bad]; decide), bad]
  case key =>
    intro k rx next
    have ok : srtpKeyStatus s1 (blk h) = St.ok := if_pos (by
      have some : (rtp? s1 (leAt (blk h) 0 2)).isSome = true := held
      rw [good, some]
      rfl)
    have loads : loadSrtpKey (blk h) s1 = { s1 with
        rtps := FMap.adj s.rtps (leAt (blk h) 0 2) (fun x =>
          if rx then (if next then { x with rxNext := some { k with atSeq := none } } else { x with rxKey := some { k with atSeq := none } })
          else (if next then { x with txNext := some k } else { x with txKey := some { k with atSeq := none } })) } := by
      refine congrArg (fun f => { s1 with rtps := FMap.adj s.rtps (leAt (blk h) 0 2) f }) (funext fun x => ?_)
      change (match rx, next with
        | false, false => { x with txKey := some { k with atSeq := none } }
        | false, true => { x with txNext := some k }
        | true, false => { x with rxKey := some { k with atSeq := none } }
        | true, true => { x with rxNext := some { k with atSeq := none } }) = _
      cases rx <;> cases next <;> rfl
    refine answers_done (i := .srtpKey h) rfl ready ?_
    rw [checked_of_ok _ _ ok, loads]

end Sys2Proof.Machine
end

section
/-! SUPPORT. Received packets of RTP contexts, RTCP, and the timers of voice channels (R65, R78, R87 to R109). -/

namespace Sys2Proof.Machine

open Sys2Proof

set_option Elab.async false

/-! ### What reaches one context -/

/-- But for contexts, the host interface and the counters. -/
def sansRtps (s : State) : State := { s with rtps := [], hif := Hif.reset, counters := [] }

/-- `t` is `s` but for context `c`, the host interface and the counters. -/
structure RtpReach (c : Nat) (s t : State) : Prop where
  agree : Agree sansRtps s t
  others : ∀ m, m ≠ c → rtp? t m = rtp? s m

theorem RtpReach.refl (c : Nat) (s : State) : RtpReach c s s := ⟨.refl s, fun _ _ => rfl⟩

theorem RtpReach.trans {c : Nat} {s t u : State} (h : RtpReach c s t) (k : RtpReach c t u) : RtpReach c s u :=
  ⟨h.agree.trans k.agree, fun m ne => (k.others m ne).trans (h.others m ne)⟩

theorem HifOnly.rtpReach {s t : State} (only : HifOnly s t) (c : Nat) : RtpReach c s t :=
  ⟨only.agree, fun m _ => only.field (fun u => rtp? u m)⟩

theorem withRtp_reach (c : Nat) (f : Rtp → Rtp) (s : State) : RtpReach c s (withRtp c f s) :=
  ⟨rfl, fun _ ne => rtp?_withRtp_other _ _ ne⟩

theorem HifOnly.rtp? {s t : State} (only : HifOnly s t) (c : Nat) : Machine.rtp? t c = Machine.rtp? s c :=
  only.field (fun u => Machine.rtp? u c)

theorem rtpEvent_hifOnly (code c : Nat) (s : State) : HifOnly s (rtpEvent code c s) := raise_hifOnly ..

/-! ### RTCP (R108, R109) -/

/-- `t` is `s` but for the RTCP figures and receive keys of context `c`, the host interface and the counters. -/
structure RtcpReach (c : Nat) (s t : State) : Prop where
  reach : RtpReach c s t
  here : ∀ x, rtp? s c = some x → ∃ y, rtp? t c = some y ∧ y = { x with rtcp := y.rtcp, rxKey := y.rxKey, rxNext := y.rxNext }

theorem RtcpReach.refl (c : Nat) (s : State) : RtcpReach c s s := ⟨.refl c s, fun x held => ⟨x, held, rfl⟩⟩

theorem RtcpReach.trans {c : Nat} {s t u : State} (h : RtcpReach c s t) (k : RtcpReach c t u) : RtcpReach c s u where
  reach := h.reach.trans k.reach
  here x held := by
    obtain ⟨y, now, same⟩ := h.here x held
    obtain ⟨z, now', same'⟩ := k.here y now
    rw [same] at same'
    exact ⟨z, now', same'⟩

theorem RtcpReach.foldl {α : Type} {c : Nat} {f : State → α → State} (reach : ∀ t a, RtcpReach c t (f t a)) (l : List α)
    (s : State) : RtcpReach c s (l.foldl f s) := by
  induction l generalizing s with
  | nil => exact .refl c s
  | cons a r ih => exact (reach s a).trans (ih _)

theorem RtcpReach.ite {c : Nat} {s t u : State} {b : Prop} [Decidable b] (h : RtcpReach c s t) (k : RtcpReach c s u) :
    RtcpReach c s (if b then t else u) := by
  split <;> assumption

theorem HifOnly.rtcpReach {s t : State} (only : HifOnly s t) (c : Nat) : RtcpReach c s t :=
  ⟨only.rtpReach c, fun x held => ⟨x, (only.rtp? c).trans held, rfl⟩⟩

theorem withRtp_rtcp {c : Nat} {f : Rtp → Rtp} (s : State)
    (figures : ∀ y, f y = { y with rtcp := (f y).rtcp, rxKey := (f y).rxKey, rxNext := (f y).rxNext }) :
    RtcpReach c s (withRtp c f s) :=
  ⟨withRtp_reach .., fun x held => ⟨f x, (rtp?_withRtp_same ..).trans (congrArg _ held), figures x⟩⟩

theorem rtcpBlock_reach (c : Nat) (b : Bytes) (s : State) : RtcpReach c s (rtcpBlock c b s) := by
  unfold rtcpBlock
  split
  · exact .refl c s
  · split
    · dsimp only
      split
      · exact .refl c s
      · exact withRtp_rtcp s (fun _ => rfl)
    · exact (bump_hifOnly ..).rtcpReach c

theorem rtcpPart_reach (c : Nat) (e : Nat × Nat × Bytes) (s : State) : RtcpReach c s (rtcpPart c e s) := by
  unfold rtcpPart
  split
  · exact .refl c s
  · dsimp only
    split
    · refine RtcpReach.trans ?_ (.foldl (fun t i => rtcpBlock_reach c _ t) _ _)
      split
      · exact withRtp_rtcp s (fun _ => rfl)
      · exact .refl c s
    · exact .foldl (fun t i => rtcpBlock_reach c _ t) _ _
    · split
      · exact (rtpEvent_hifOnly ..).rtcpReach c
      · exact (bump_hifOnly ..).rtcpReach c
    · exact (bump_hifOnly ..).rtcpReach c

/-- A received RTCP packet reaches nothing but the figures and receive keys of its context. -/
theorem rtcpReceive_reach (c : Nat) (src : Bytes) (sport : Nat) (d : Bytes) (s : State) :
    RtcpReach c s (rtcpReceive c src sport d s) := by
  have run (pkt : Bytes) (t : State) : RtcpReach c t ((rtcpParts 64 pkt).foldl (fun u e => rtcpPart c e u) t) :=
    .foldl (fun u e => rtcpPart_reach c e u) _ _
  unfold rtcpReceive
  split
  · exact .refl c s
  · refine .ite ((bump_hifOnly ..).rtcpReach c) (.ite ((bump_hifOnly ..).rtcpReach c) (.ite (run d s) ?_))
    split
    · exact (bump_hifOnly ..).rtcpReach c
    next k promoted pkt _ =>
      have keyed := withRtp_rtcp (c := c) (f := fun y => { y with
        rxKey := some k, rxNext := if promoted then none else y.rxNext }) s (fun _ => rfl)
      exact RtcpReach.trans (.ite (keyed.trans ((rtpEvent_hifOnly ..).rtcpReach c)) keyed) (run pkt _)

/-- A BYE alone raises its event where it is of the remote source, and is counted otherwise. -/
theorem rtcpReceive_bye {c sport : Nat} {src d part : Bytes} {s : State} {x : Rtp} (held : rtp? s c = some x)
    (open_ : x.p.srcCheck = false) (used : (chanOf s c).isSome = true) (plain : x.p.srtp = false)
    (bye : rtcpParts 64 d = [(203, 1, part)]) :
    rtcpReceive c src sport d s = if x.remote = some (BitVec.ofNat 32 (beAt part 4 4)) then rtpEvent Ev.rtcpBye c s
      else bump .rtcpOther c s := by
  have passes (k : Nat) : srcOk x.p src sport k = true := by simp [srcOk, open_]
  have named : (chanOf s c).isNone = false := Option.isNone_eq_false_iff.mpr used
  simp [rtcpReceive, held, passes, named, plain, bye, rtcpPart]

theorem rtcpRx_runs {s : State} (c t sport : Nat) (src d : Bytes) (up : alive s = true) :
    exec (.rtcpRx c src sport d t) s = .next (rtcpReceive c src sport d (advance t s)) := by
  have go : alive (advance t s) = true := up
  change Host.Outcome.next (onlyIf _ _ _) = _
  rw [go]
  rfl

theorem reportTimer_runs {s : State} {c t : Nat} {x : Rtp} (up : alive s = true) (held : rtp? s c = some x)
    (used : (chanOf s c).isSome = true) (due : x.rtcp.nextAt ≤ t) :
    exec (.rtcpReportTimer c t) s = .next (rtcpSchedule c (rtcpSend c false (advance t s))) := by
  have held' : rtp? (advance t s) c = some x := held
  have used' : (chanOf (advance t s) c).isSome = true := used
  have go : alive (advance t s) = true := up
  change execRtcpReportTimer c t s = _
  rw [execRtcpReportTimer]
  simp only [held', used', go, decide_eq_true due]
  rfl

/-- Settles O24: a packet by the reach of its parts, a report by its sending and its schedule. -/
theorem rtcpNeverTouchesPlayout : Obligations.RtcpNeverTouchesPlayout := by
  unfold Obligations.RtcpNeverTouchesPlayout
  intro s c t x up held
  have held' : rtp? (advance t s) c = some x := held
  refine ⟨fun src d sport => ?_, fun src d part sport open_ used plain bye => ?_, fun used due => ?_⟩
  · obtain ⟨reach, here⟩ := rtcpReceive_reach c src sport d (advance t s)
    refine ⟨_, rtcpRx_runs c t sport src d up, ?_, fun m ne => reach.others m ne, here x held'⟩
    exact reach.agree.frame (fun v => { v with
      rtps := (rtcpReceive c src sport d (advance t s)).rtps, hif := (rtcpReceive c src sport d (advance t s)).hif
      sec := (rtcpReceive c src sport d (advance t s)).sec, counters := (rtcpReceive c src sport d (advance t s)).counters })
  · rw [rtcpRx_runs c t sport src d up, rtcpReceive_bye held' open_ used plain bye]
  · obtain ⟨agree, others, y, here, same⟩ := rtcpSend_spec false held'
    obtain ⟨frame, others', z, here', same', due'⟩ := rtcpSchedule_spec here
    have fields : y.p = x.p := by rw [same]
    have time : now (rtcpSend c false (advance t s)) = now (advance t s) := agree.field now
    rw [ReportDue, fields, time] at due'
    refine ⟨_, reportTimer_runs up held used due, ?_, ?_, fun m ne => (others' m ne).trans (others m ne), z, here', ?_, due'⟩
    · rw [frame]
      exact agree.field State.chans
    · rw [frame]
      exact agree.field State.fsc
    · rw [same', same]

/-! ### Received RTP packets (R87 to R97) -/

theorem rtpRxPacket_runs {s : State} (c t sport : Nat) (src d : Bytes) (up : alive s = true) :
    exec (.rtpRxPacket c src sport d t) s = .next (rtpReceive c src sport d (advance t s)) := by
  have go : alive (advance t s) = true := up
  change Host.Outcome.next (onlyIf _ _ _) = _
  rw [go]
  rfl

theorem srcOk_iff (p : RtpParams) (src : Bytes) (sport : Nat) :
    srcOk p src sport p.remotePort = true ↔ ¬ (p.srcCheck = true ∧ ¬ (src = addrOf p.ipv6 p.remoteAddr ∧ sport = p.remotePort)) := by
  cases check : p.srcCheck <;> simp [srcOk, check]

/-- A packet that passes check 1 on a context with a channel and without protection comes to check 4. -/
theorem rtpReceive_plain {c sport n : Nat} {src d : Bytes} {s : State} {x : Rtp} {ch : Chan} (held : rtp? s c = some x)
    (passes : srcOk x.p src sport x.p.remotePort = true) (used : chanOf s c = some (n, ch)) (plain : x.p.srtp = false) :
    rtpReceive c src sport d s = plainRtp c n ch d s := by
  simp [rtpReceive, held, passes, used, plain]

/-- The first four checks that drop a packet on a plain context, or one whose key is not loaded. -/
theorem rtpDrops {c sport : Nat} {src d : Bytes} {s : State} {x : Rtp} (held : rtp? s c = some x) :
    let passes := srcOk x.p src sport x.p.remotePort
    (passes = false → rtpReceive c src sport d s = bump .rtpSrc c s) ∧
    (passes = true → chanOf s c = none → rtpReceive c src sport d s = bump .rtpNochan c s) ∧
    (passes = true → (chanOf s c).isSome = true → x.p.srtp = true → x.rxKey = none →
      rtpReceive c src sport d s = bump .srtpAuth c s) ∧
    (passes = true → (chanOf s c).isSome = true → x.p.srtp = false → rtpHeadLen d = none →
      rtpReceive c src sport d s = bump .rtpHdr c s) := by
  refine ⟨fun fails => ?_, fun passes none => ?_, fun passes used srtp unkeyed => ?_, fun passes used plain short => ?_⟩
  · simp [rtpReceive, held, fails]
  · simp [rtpReceive, held, passes, none]
  · obtain ⟨⟨n, ch⟩, used⟩ := Option.isSome_iff_exists.mp used
    have closed : openRtp x d = .error .srtpAuth := by simp [openRtp, unkeyed]
    simp [rtpReceive, held, passes, used, srtp, closed]
  · obtain ⟨⟨n, ch⟩, used⟩ := Option.isSome_iff_exists.mp used
    rw [rtpReceive_plain held passes used plain]
    simp [plainRtp, held, short]

/-- A packet with a header of version 2 and no padding comes to check 5. -/
theorem plainRtp_headed {c n hl : Nat} {ch : Chan} {d : Bytes} {s : State} {x : Rtp} (held : rtp? s c = some x)
    (head : rtpHeadLen d = some hl) (version : byteAt d 0 / 64 = 2) (unpadded : bit (byteAt d 0) 5 = false) :
    plainRtp c n ch d s =
      let r := ssrcCheck c x (BitVec.ofNat 32 (beAt d 8 4)) (BitVec.ofNat 16 (beAt d 2 2)) s
      if r.1 then
        match payloadOf x ch (byteAt d 1 % 128) (d.drop hl) with
        | .error k => bump k c r.2
        | .ok p => sequenceRtp c n ch (BitVec.ofNat 16 (beAt d 2 2)) (BitVec.ofNat 32 (beAt d 4 4)) (bit (byteAt d 1) 7) p (d.drop hl) r.2
      else r.2 := by
  simp only [plainRtp, held, head, version, unpadded, ne_eq, not_true_eq_false, decide_false, Bool.false_and, Bool.or_self,
    Bool.false_eq_true, if_false, Nat.sub_zero, List.take_length]
  cases (ssrcCheck c x (BitVec.ofNat 32 (beAt d 8 4)) (BitVec.ofNat 16 (beAt d 2 2)) s).1 <;> rfl

/-- A context keeps what the acceptance of a packet notes. -/
def Noted (c : Nat) (x : Rtp) (t : State) : Prop :=
  ∃ y, rtp? t c = some y ∧ y.remote = x.remote ∧ y.highSeq = x.highSeq ∧ y.lastRx = x.lastRx ∧
    y.timedOut = x.timedOut ∧ y.p = x.p ∧ y.txSeq = x.txSeq

/-- A packet that enters the buffer, or is late, leaves what its acceptance noted. -/
theorem bufferPacket_spec {c ext frames : Nat} {ch : Chan} {ts : BitVec 32} {marker noise : Bool} {d : Bytes} {s : State} {x : Rtp}
    (held : rtp? s c = some x) :
    let t := bufferPacket c ch ext ts marker frames noise d s
    RtpReach c s t ∧ Noted c x t := by
  have put {y : Rtp} (kept : y.remote = x.remote ∧ y.highSeq = x.highSeq ∧ y.lastRx = x.lastRx ∧ y.timedOut = x.timedOut ∧
      y.p = x.p ∧ y.txSeq = x.txSeq) : RtpReach c s (withRtp c (fun _ => y) s) ∧ Noted c x (withRtp c (fun _ => y) s) :=
    ⟨withRtp_reach .., y, (rtp?_withRtp_same ..).trans (by rw [held]; rfl), kept⟩
  have late {u : State} (k : Ctr) (done : RtpReach c s u ∧ Noted c x u) : RtpReach c s (bump k c u) ∧ Noted c x (bump k c u) := by
    obtain ⟨reach, z, now, kept⟩ := done
    exact ⟨reach.trans ((bump_hifOnly ..).rtpReach c), z, ((bump_hifOnly ..).rtp? c).trans now, kept⟩
  have choose {b : Prop} [Decidable b] {u v : State} (h : RtpReach c s u ∧ Noted c x u) (k : RtpReach c s v ∧ Noted c x v) :
      RtpReach c s (if b then u else v) ∧ Noted c x (if b then u else v) := by
    split <;> assumption
  simp only [bufferPacket, held]
  refine choose (put ⟨rfl, rfl, rfl, rfl, rfl, rfl⟩) ?_
  split
  · exact choose (late _ (put ⟨rfl, rfl, rfl, rfl, rfl, rfl⟩)) (put ⟨rfl, rfl, rfl, rfl, rfl, rfl⟩)
  · exact late _ (put ⟨rfl, rfl, rfl, rfl, rfl, rfl⟩)

/-- An accepted packet ends the silence and raises the highest number. -/
theorem acceptRtp_spec {c ext clock : Nat} {ts : BitVec 32} {s : State} {x : Rtp} (held : rtp? s c = some x) (first : x.highSeq = none) :
    let t := acceptRtp c ext ts clock s
    RtpReach c s t ∧ ∃ y, rtp? t c = some y ∧ y.remote = x.remote ∧ y.highSeq = some ext ∧ y.lastRx = now s ∧
      y.timedOut = false ∧ y.p = x.p ∧ y.txSeq = x.txSeq := by
  intro t
  have live := noticeLive_hifOnly (s := withRtp c (fun y => { y with
    lastRx := now s, timedOut := false, highSeq := some (max ext (y.highSeq.getD 0)), restart := none
    recent := y.recent.filter (fun e => max ext (y.highSeq.getD 0) ≤ e + 16)
    evSeqs := y.evSeqs.filter (fun e => max ext (y.highSeq.getD 0) ≤ e + 64)
    rtcp := jitterStep { y.rtcp with received := y.rtcp.received + 1, baseSeq := if y.highSeq.isNone then ext else y.rtcp.baseSeq }
      ((now s * clock / 1000000000 : Nat) : Int) ts }) s) Ev.rxTimeout c false none true
  refine ⟨(withRtp_reach ..).trans (live.rtpReach c), _, (live.rtp? c).trans ((rtp?_withRtp_same ..).trans (congrArg _ held)),
    rfl, ?_, rfl, rfl, rfl, rfl⟩
  simp [first]

/-- Settles O23: the checks in their order, then the first packet of a source. -/
theorem rtpPacketsAreCheckedAndAccepted : Obligations.RtpPacketsAreCheckedAndAccepted := by
  unfold Obligations.RtpPacketsAreCheckedAndAccepted
  refine ⟨fun s c t sport src d x up held => ?drops, fun s c t sport hl n f src d x ch noise up held used open_ plain head version
    unpadded any first fresh typed => ?accepts⟩
  case drops =>
    intro s1 dropped srcFails
    have held' : rtp? s1 c = some x := held
    have passes (ok : ¬ srcFails) : srcOk x.p src sport x.p.remotePort = true := (srcOk_iff ..).mpr ok
    have by_ {k : Ctr} (drops : rtpReceive c src sport d s1 = bump k c s1) : dropped k :=
      (rtpRxPacket_runs c t sport src d up).trans (congrArg Host.Outcome.next drops)
    obtain ⟨source, unused, unkeyed, short⟩ := rtpDrops (src := src) (sport := sport) (d := d) held'
    refine ⟨fun fails => by_ (source ?_), fun ok none => by_ (unused (passes ok) none),
      fun ok used srtp none => by_ (unkeyed (passes ok) used srtp none),
      fun ok used plain none => by_ (short (passes ok) used plain none), fun hl ok used plain head version => by_ ?_,
      fun hl ok used plain head version unpadded fixed other => by_ ?_⟩
    · exact Bool.eq_false_iff.mpr (fun ok => (srcOk_iff ..).mp ok fails)
    · obtain ⟨⟨n, ch⟩, used⟩ := Option.isSome_iff_exists.mp used
      rw [rtpReceive_plain held' (passes ok) used plain]
      simp [plainRtp, held', head, version]
    · obtain ⟨⟨n, ch⟩, used⟩ := Option.isSome_iff_exists.mp used
      rw [rtpReceive_plain held' (passes ok) used plain, plainRtp_headed held' head version unpadded]
      simp [ssrcCheck, fixed, other]
  case accepts =>
    obtain ⟨s1, moved⟩ : ∃ s1, s1 = advance t s := ⟨_, rfl⟩
    have held' : rtp? s1 c = some x := by rw [moved]; exact held
    have used' : chanOf s1 c = some (n, ch) := by rw [moved]; exact used
    have passes : srcOk x.p src sport x.p.remotePort = true := by simp [srcOk, open_]
    obtain ⟨s2, noted⟩ : ∃ s2, s2 = withRtp c (fun y => { y with remote := some (BitVec.ofNat 32 (beAt d 8 4)) }) s1 := ⟨_, rfl⟩
    have held2 : rtp? s2 c = some { x with remote := some (BitVec.ofNat 32 (beAt d 8 4)) } := by
      rw [noted, rtp?_withRtp_same, held']
      rfl
    have checked : ssrcCheck c x (BitVec.ofNat 32 (beAt d 8 4)) (BitVec.ofNat 16 (beAt d 2 2)) s1 = (true, s2) := by
      simp [ssrcCheck, any, first, noted]
    obtain ⟨clock, rate⟩ : ∃ clock, clock = if ch.codecNow = 5 then 48000 else 8000 := ⟨_, rfl⟩
    have goes : rtpReceive c src sport d s1 = bufferPacket c ch (extendSeq none (BitVec.ofNat 16 (beAt d 2 2)))
        (BitVec.ofNat 32 (beAt d 4 4)) (bit (byteAt d 1) 7) f noise (d.drop hl)
        (acceptRtp c (extendSeq none (BitVec.ofNat 16 (beAt d 2 2))) (BitVec.ofNat 32 (beAt d 4 4)) clock s2) := by
      rw [rtpReceive_plain held' passes used' plain, plainRtp_headed held' head version unpadded, checked, rate]
      simp [typed, sequenceRtp, held2, fresh]
    obtain ⟨reach, y, here, remote, high, last, quiet, params, seq⟩ := acceptRtp_spec (ext := extendSeq none (BitVec.ofNat 16 (beAt d 2 2)))
      (clock := clock) (ts := BitVec.ofNat 32 (beAt d 4 4)) held2 fresh
    obtain ⟨reach', z, here', remote', high', last', quiet', params', seq'⟩ := bufferPacket_spec (ch := ch)
      (ext := extendSeq none (BitVec.ofNat 16 (beAt d 2 2))) (ts := BitVec.ofNat 32 (beAt d 4 4)) (marker := bit (byteAt d 1) 7)
      (frames := f) (noise := noise) (d := d.drop hl) here
    rw [← goes] at reach' here'
    have all := ((noted ▸ withRtp_reach c _ s1 : RtpReach c s1 s2).trans reach).trans reach'
    have time : now s2 = now s1 := by rw [noted]; rfl
    refine ⟨_, rtpRxPacket_runs c t sport src d up, ?_⟩
    rw [← moved]
    refine ⟨all.agree.frame (fun v => { v with
        rtps := (rtpReceive c src sport d s1).rtps, hif := (rtpReceive c src sport d s1).hif
        sec := (rtpReceive c src sport d s1).sec, counters := (rtpReceive c src sport d s1).counters
        free := (rtpReceive c src sport d s1).free }), fun m ne => ?_, z, here', remote'.trans remote, high'.trans high,
      last'.trans (last.trans time), quiet'.trans quiet, params'.trans params, seq'.trans seq⟩
    have old : FMap.get? s.rtps m = rtp? s1 m := by rw [moved]; rfl
    rw [old]
    exact all.others m ne

/-! ### Timers (R65, R78, R99, R103) -/

theorem chanEvent_hifOnly (code n : Nat) (s : State) : HifOnly s (chanEvent code n s) := by
  unfold chanEvent
  split
  · exact .refl s
  · exact raise_hifOnly ..

theorem rtpCrossed_hifOnly (code c reason : Nat) (v : Int) (l : Bool) (s : State) : HifOnly s (rtpCrossed code c reason v l s) :=
  crossing_hifOnly ..

theorem clampI_eq {lo hi : Int} (v : Int) (order : lo ≤ hi) : clampI lo hi v = max lo (min hi v) := by
  unfold clampI
  split
  · omega
  · split <;> omega

/-- A drift estimate follows the mean buffer delay (R103). -/
theorem driftStep_spec {c t : Nat} {s : State} {x : Rtp} {m : Int} (held : rtp? s c = some x) (before : x.prevMean = some m) :
    ∃ y, HifOnly (withRtp c (fun _ => y) s) (driftStep c t s) ∧
      y = { x with prevMean := some (meanDelay x), driftAt := t + 10000000000, raw := y.raw, eps := y.eps, excess := y.excess
                   delaySum := 0, delayNum := 0 } ∧
      y.raw = x.raw + Int.tdiv (Int.tdiv (meanDelay x - m) 100 - x.raw) 4 ∧
      y.eps = if 200 < y.raw.natAbs then clampI (-30000) 30000 y.raw else 0 := by
  simp only [driftStep, held, before]
  refine ⟨_, HifOnly.ite (rtpCrossed_hifOnly ..) (noticeLive_hifOnly ..), ?_⟩
  exact ⟨rfl, rfl, rfl⟩

/-- Settles O25: each timer where it is due. -/
theorem voiceTimers : Obligations.VoiceTimers := by
  unfold Obligations.VoiceTimers
  refine ⟨fun s n t c up held => ⟨fun r rings live past => ⟨?regen, rfl⟩, fun quiet off => ?disabler⟩,
    fun s c t x up held used => ⟨fun on silent past => ?silence, fun n ch m due named before => ?drift⟩⟩
  case regen =>
    have held' : FMap.get? (advance t s).chans n = some c := held
    have go : alive (advance t s) = true := up
    change execDtmfRegenTimeout n t s = _
    rw [execDtmfRegenTimeout]
    simp [held, rings, live, past, go, onlyIf]
  case disabler =>
    have held' : FMap.get? (advance t s).chans n = some c := held
    have go : alive (advance t s) = true := up
    have any : (c.ansSeen || c.ecOff || c.suspended) = true := by
      rcases off with h | h | h <;> simp [h]
    have runs : exec (.toneDisablerRelease n t) s = .next (releaseDisabler n (advance t s)) := by
      change execToneDisablerRelease n t s = _
      rw [execToneDisablerRelease]
      simp only [held', any, go, onlyIf, decide_eq_true quiet]
      rfl
    refine ⟨_, runs, ?_⟩
    exact HostOnly.ite (chanEvent_hifOnly ..).hostOnly (.refl _)
  case silence =>
    have held' : rtp? (advance t s) c = some x := held
    have used' : (chanOf (advance t s) c).isSome = true := used
    have go : alive (advance t s) = true := up
    have runs : exec (.rxTimeoutExpiry c t) s = .next (rtpCrossed Ev.rxTimeout c 0 (((t - x.lastRx) / 1000000 : Nat) : Int) false
        (withRtp c (fun x => { x with timedOut := true }) (advance t s))) := by
      change execRxTimeoutExpiry c t s = _
      rw [execRxTimeoutExpiry]
      simp [held', used', go, on, silent, past, onlyIf]
    exact ⟨_, runs, (rtpCrossed_hifOnly ..).hostOnly⟩
  case drift =>
    have held' : rtp? (advance t s) c = some x := held
    have named' : chanOf (advance t s) c = some (n, ch) := named
    have go : alive (advance t s) = true := up
    have runs : exec (.driftEstimate c n t) s = .next (driftStep c t (advance t s)) := by
      change execDriftEstimate c n t s = _
      rw [execDriftEstimate]
      simp [held', named', go, due, onlyIf]
    obtain ⟨y, only, same, raw, eps⟩ := driftStep_spec (t := t) held' before
    refine ⟨_, runs, y, ?_, same, fun some => ?_, raw, fun low => ?_, fun high => ?_⟩
    · rw [only.eq]
    · rw [meanDelay, if_neg some]
    · rw [eps, if_neg (Nat.not_lt.mpr low)]
    · rw [eps, if_pos high, clampI_eq _ (by decide)]

end Sys2Proof.Machine
end

section
/-! SUPPORT. What the frames of a teleprotection channel reach: the channel's own numbers, its flow, and the ports (R123 to R128). -/

namespace Sys2Proof.Machine

open Sys2Proof

set_option Elab.async false

/-! ### One channel -/

theorem tp?_withTp_same (n : Nat) (f : Tp → Tp) (s : State) : tp? (withTp n f s) n = (tp? s n).map f := FMap.get?_adj_same ..

theorem tp?_withTp_other {n m : Nat} (f : Tp → Tp) (s : State) (ne : m ≠ n) : tp? (withTp n f s) m = tp? s m :=
  FMap.get?_adj_other _ _ _ _ ne

theorem flow?_withFlow_other {n f : Nat} (g : Flow → Flow) (s : State) (ne : f ≠ n) : flow? (withFlow n g s) f = flow? s f :=
  FMap.get?_adj_other _ _ _ _ ne

/-- A channel but for what sending a frame changes of it: its next sequence number, the set sent last and the frame held. -/
def Tp.core (x : Tp) : Tp := { x with seq := 0, sentCmd := 0, held := none }

/-! ### The reach of a frame -/

/-- But for what a frame reaches beyond its channel: channels, flows, ports, pairs, figures, the host interface and the
counters. -/
def sansFrames (s : State) : State := { sansPorts s with tps := [], fsc := State.reset.fsc }

/-- `t` is `s` but for a frame that channel `n` sent: of the channels only `n` has changed, in what `Tp.core` leaves out, and of
the flows only its own. -/
structure FrameReach (n : Nat) (s t : State) : Prop where
  frame : Agree sansFrames s t
  others : FMap.del t.tps n = FMap.del s.tps n
  flows : ∀ f, f ≠ tpFlowKey n → flow? t f = flow? s f
  core : (tp? t n).map Tp.core = (tp? s n).map Tp.core

section
variable {n : Nat} {s t u : State}

theorem FrameReach.refl (n : Nat) (s : State) : FrameReach n s s := ⟨rfl, rfl, fun _ _ => rfl, rfl⟩

theorem FrameReach.trans (h : FrameReach n s t) (k : FrameReach n t u) : FrameReach n s u where
  frame := h.frame.trans k.frame
  others := k.others.trans h.others
  flows f ne := (k.flows f ne).trans (h.flows f ne)
  core := k.core.trans h.core

theorem FrameReach.ite {c : Prop} [Decidable c] (h : FrameReach n s t) (k : FrameReach n s u) :
    FrameReach n s (if c then t else u) := by
  split <;> assumption

theorem FrameReach.foldl {α : Type} {f : State → α → State} (reach : ∀ t a, FrameReach n t (f t a)) (l : List α) (s : State) :
    FrameReach n s (l.foldl f s) := by
  induction l generalizing s with
  | nil => exact .refl n s
  | cons a r ih => exact (reach s a).trans (ih _)

/-- What sends on ports reaches no channel and no flow. -/
theorem Agree.frameReach (agree : Agree sansPorts s t) (n : Nat) : FrameReach n s t where
  frame := agree.weaken
  others := agree.field (fun u => FMap.del u.tps n)
  flows f _ := agree.field (fun u => flow? u f)
  core := agree.field (fun u => (tp? u n).map Tp.core)

theorem HifOnly.frameReach (only : HifOnly s t) (n : Nat) : FrameReach n s t := (only.agree (blank := sansPorts)).frameReach n

/-- The channel after a frame is the one before, but for its next number, the set sent last and the frame held. -/
theorem FrameReach.channel (reach : FrameReach n s t) {x : Tp} (held : tp? s n = some x) :
    ∃ y, tp? t n = some y ∧ y = { x with seq := y.seq, sentCmd := y.sentCmd, held := y.held } := by
  have core := reach.core
  rw [held, Option.map_some] at core
  obtain ⟨y, found, same⟩ := Option.map_eq_some_iff.mp core
  refine ⟨y, found, ?_⟩
  have back := congrArg (fun c : Tp => { c with seq := y.seq, sentCmd := y.sentCmd, held := y.held }) same
  exact back

theorem FrameReach.other (reach : FrameReach n s t) {m : Nat} (ne : m ≠ n) : tp? t m = tp? s m := by
  rw [tp?, tp?, ← FMap.get?_del_other _ n m ne, reach.others, FMap.get?_del_other _ n m ne]

end

theorem withTp_frameReach (n : Nat) {f : Tp → Tp} (kept : ∀ x, (f x).core = x.core) (s : State) : FrameReach n s (withTp n f s) where
  frame := rfl
  others := FMap.del_adj ..
  flows _ _ := rfl
  core := by
    rw [tp?_withTp_same]
    cases tp? s n with
    | none => rfl
    | some x => exact congrArg some (kept x)

theorem withFlow_frameReach (n : Nat) (g : Flow → Flow) (s : State) : FrameReach n s (withFlow (tpFlowKey n) g s) where
  frame := rfl
  others := rfl
  flows _ ne := flow?_withFlow_other _ _ ne
  core := rfl

/-! ### Sending -/

theorem tpInstance_reach (n : Nat) (s : State) : FrameReach n s (tpInstance n s) :=
  (withFlow_frameReach ..).trans ((bump_hifOnly ..).frameReach n)

theorem tpTransmit_ports (p : TpParams) (d : Bytes) (s : State) : Agree sansPorts s (tpTransmit p d s) :=
  .ite (enqueue_ports ..) (.ite (pairSend_ports ..) (.refl s))

/-- A channel that does not send leaves everything as it is. -/
theorem tpSend_of_silent {n : Nat} {s : State} {x : Tp} (held : tp? s n = some x) (silent : x.sends = false) (c : BitVec 4) (b : Bool)
    (w : BitVec 64) : tpSend n c b w s = s := by
  rw [tpSend, held]
  simp [silent]

/-- What sending a frame leaves of its channel. -/
def Tp.afterSend (x : Tp) (c : BitVec 4) (y : Tp) : Tp :=
  { y with seq := x.seq + 1, sentCmd := c, held := y.held.map (fun q => { q with seq := x.seq + 1 }) }

/-- Sending a frame changes the channel's numbers, and then only what lies beyond the channels. -/
theorem tpSend_of_sends {n : Nat} {s : State} {x : Tp} (held : tp? s n = some x) (sends : x.sends = true) (c : BitVec 4) (b : Bool)
    (w : BitVec 64) : ∃ u, FrameReach n (withTp n (x.afterSend c) s) u ∧ u.tps = (withTp n (x.afterSend c) s).tps ∧
      tpSend n c b w s = u := by
  rw [tpSend, held]
  dsimp only
  rw [if_neg (by simp [sends])]
  have sent := tpTransmit_ports x.p (tpPayload x.p x.txKey x.testing (x.st = .alarm) b x.seq c x.changes w)
    (tpInstance n (withTp n (x.afterSend c) s))
  have counted (l : List Nat) (v : State) : HifOnly v (l.foldl (fun t i => bumpSub .tpCmdTx n i t) v) :=
    .foldl (fun t i => bumpN_hifOnly ..) l v
  refine ⟨_, ?_, ?_, rfl⟩
  · exact (tpInstance_reach ..).trans ((sent.frameReach n).trans (.ite (.refl ..) ((counted ..).frameReach n)))
  · have same := sent.field State.tps
    have own : (tpInstance n (withTp n (x.afterSend c) s)).tps = (withTp n (x.afterSend c) s).tps :=
      (bump_hifOnly ..).field State.tps
    split
    · exact same.trans own
    · exact ((counted ..).field State.tps).trans (same.trans own)

theorem tpSend_reach (n : Nat) (c : BitVec 4) (b : Bool) (w : BitVec 64) (s : State) : FrameReach n s (tpSend n c b w s) := by
  cases held : tp? s n with
  | none =>
    rw [tpSend, held]
    exact .refl n s
  | some x =>
    cases sends : x.sends with
    | false =>
      rw [tpSend_of_silent held sends]
      exact .refl n s
    | true =>
      obtain ⟨u, reach, -, sent⟩ := tpSend_of_sends held sends c b w
      rw [sent]
      exact (withTp_frameReach n (by intro; rfl) s).trans reach

/-- The channel that sent a frame. -/
theorem tp?_tpSend {n : Nat} {s : State} {x : Tp} (held : tp? s n = some x) (sends : x.sends = true) (c : BitVec 4) (b : Bool)
    (w : BitVec 64) : tp? (tpSend n c b w s) n = some (x.afterSend c x) := by
  obtain ⟨u, -, tps, sent⟩ := tpSend_of_sends held sends c b w
  rw [sent, tp?, tps, ← tp?, tp?_withTp_same, held, Option.map_some]

/-- A change frame sends one frame, after at most one draw, and then only tells the host. -/
theorem tpChange_spec (n : Nat) (t : Ns) (q : Option TpHeld) (s : State) :
    ∃ k c w, HifOnly (tpSend n c false w { s with free := k }) (tpChange n t q s) := by
  unfold tpChange
  cases held : tp? s n with
  | none =>
    refine ⟨s.free, 0, 0, ?_⟩
    rw [tpSend, show tp? { s with free := s.free } n = none from held]
    exact .refl s
  | some x =>
    dsimp only
    cases sends : x.sends with
    | false =>
      refine ⟨s.free, 0, 0, ?_⟩
      rw [tpSend_of_silent held sends]
      exact .refl s
    | true =>
      rw [if_neg (by simp)]
      have counted (v : State) : HifOnly v (bump .tpLate n (bumpN .deadlineMiss (tpFlowKey n) 1 1 (bump .deadlineMiss 0 v))) :=
        ((bump_hifOnly ..).trans (bumpN_hifOnly ..)).trans (bump_hifOnly ..)
      cases q with
      | none =>
        exact ⟨s.free + 1, x.frameCmd, BitVec.ofNat 64 (devOf s t),
          .ite (.ite (counted _) (.refl _)) (HifOnly.trans (.ite (counted _) (.refl _)) (raise_hifOnly ..))⟩
      | some q =>
        exact ⟨s.free + 1, x.frameCmd, q.txTime,
          .ite (.ite (counted _) (.refl _)) (HifOnly.trans (.ite (counted _) (.refl _)) (raise_hifOnly ..))⟩

theorem tpChange_reach (n : Nat) (t : Ns) (q : Option TpHeld) (s : State) :
    ∃ k, FrameReach n { s with free := k } (tpChange n t q s) := by
  obtain ⟨k, c, w, only⟩ := tpChange_spec n t q s
  exact ⟨k, (tpSend_reach ..).trans (only.frameReach n)⟩

/-- The channel that sent a change frame has the next sequence number. -/
theorem tp?_tpChange {n : Nat} {s : State} {x : Tp} (held : tp? s n = some x) (sends : x.sends = true) (t : Ns) (q : Option TpHeld) :
    ∃ c, tp? (tpChange n t q s) n = some (x.afterSend c x) := by
  obtain ⟨k, c, w, only⟩ := tpChange_spec n t q s
  refine ⟨c, ?_⟩
  rw [only.field (fun u => tp? u n)]
  exact tp?_tpSend (s := { s with free := k }) held sends c false w

/-! ### Discarding a held frame -/

theorem unhold_reach (n : Nat) (s : State) : ∃ q, FrameReach n { s with qmg := q } (unhold n s) := by
  rw [unhold]
  cases (tp? s n).bind (·.held) with
  | none => exact ⟨s.qmg, .refl n s⟩
  | some h =>
    exact ⟨_, (withTp_frameReach n (f := fun y => { y with held := none }) (by intro; rfl) { s with qmg :=
      (returnCells 0 h.cells false true (withTp n (fun y => { y with held := none }) s)).qmg }).trans (withFlow_frameReach ..)⟩

theorem tpDiscard_reach (n : Nat) (s : State) : ∃ q, FrameReach n { s with qmg := q } (tpDiscard n s) := by
  obtain ⟨q, reach⟩ := unhold_reach n s
  rw [tpDiscard]
  split
  · exact ⟨q, reach.trans (((bump_hifOnly ..).trans (bump_hifOnly ..)).frameReach n)⟩
  · exact ⟨s.qmg, .refl n s⟩

end Sys2Proof.Machine
end

section
/-! SUPPORT. The commands of teleprotection channels (R112 to R132). -/

namespace Sys2Proof.Machine

open Sys2Proof

set_option Elab.async false

theorem driveBalls_frame (s : State) : driveBalls s = { s with tpio := (driveBalls s).tpio } := rfl

/-- A channel as TP_SETUP leaves it, with its flow. -/
theorem setupTp_spec (ring : Nat) (b : Bytes) (s : State) :
    let p := tpParams b
    let u := setupTp ring b s
    u = { s with tps := u.tps, tpio := u.tpio, fsc := u.fsc, free := u.free } ∧ (∀ n, n ≠ p.tp → tp? u n = tp? s n) ∧
      (∃ q, tp? u p.tp = some (Tp.fresh p ring q (now s))) ∧ (∀ f, f ≠ tpFlowKey p.tp → flow? u f = flow? s f) ∧
      (∃ fl, flow? u (tpFlowKey p.tp) = some fl ∧ fl.cls = 0 ∧ fl.lateRelease = true ∧ fl.ring = ring ∧ fl.insts = []) ∧
      u.tpio = (driveBalls { s with tps := u.tps }).tpio := by
  intro p u
  obtain ⟨v, made⟩ : ∃ v, v = driveBalls { s with
    tps := FMap.set s.tps p.tp (Tp.fresh p ring (BitVec.ofNat 32 (leNat (padTo 4 (Config.random (s.free + 1) 4)))) (now s))
    free := s.free + 2 } := ⟨_, rfl⟩
  have set : u = addFlow (tpFlowKey p.tp) (tpFlow s ring (chooseHome s 31).1) v := by
    rw [made]
    rfl
  have frame := addFlow_frame (tpFlowKey p.tp) (tpFlow s ring (chooseHome s 31).1) v
  rw [← set] at frame
  have tps : u.tps = v.tps := by rw [frame]
  have held : v.tps =
      FMap.set s.tps p.tp (Tp.fresh p ring (BitVec.ofNat 32 (leNat (padTo 4 (Config.random (s.free + 1) 4)))) (now s)) := by
    rw [made]
    rfl
  refine ⟨?_, fun n ne => ?_,
    ⟨BitVec.ofNat 32 (leNat (padTo 4 (Config.random (s.free + 1) 4))), ?_⟩, fun f ne => ?_, ?_, ?_⟩
  · rw [frame, made]
    rfl
  · rw [tp?, tps, held, FMap.get?_set_other _ _ _ _ ne, tp?]
  · rw [tp?, tps, held, FMap.get?_set_same]
  · rw [set, flow?_addFlow_other _ _ ne, made]
    rfl
  · rw [set, flow?_addFlow_same]
    exact ⟨_, rfl, rfl, rfl, rfl, rfl⟩
  · rw [tps, frame, made]
    rfl

/-- A channel's end takes it and its flow away, and its balls are no longer driven. -/
theorem releaseTp_spec (n : Nat) (s : State) :
    let u := releaseTp n s
    u = { s with tps := FMap.del s.tps n, tpio := u.tpio, fsc := u.fsc, qmg := u.qmg, eth := u.eth, prp := u.prp, figs := u.figs
                 hif := u.hif, counters := u.counters } ∧
      flow? u (tpFlowKey n) = none ∧ (∀ f, f ≠ tpFlowKey n → flow? u f = flow? s f) ∧
      u.tpio = (driveBalls { s with tps := FMap.del s.tps n }).tpio := by
  intro u
  obtain ⟨q, discarded⟩ := tpDiscard_reach n s
  obtain ⟨v, made⟩ : ∃ v, v = withTp n (fun y => { y with test := none }) (tpDiscard n s) := ⟨_, rfl⟩
  obtain ⟨w, sent⟩ : ∃ w, w = tpSend n (match tp? v n with | some x => x.cmd | none => 0) true (BitVec.ofNat 64 (devTime v)) v :=
    ⟨_, rfl⟩
  have reach : FrameReach n v w := sent ▸ tpSend_reach ..
  have frame : Agree sansFrames { s with qmg := q } w := discarded.frame.trans (.trans (made ▸ rfl) reach.frame)
  have others : FMap.del w.tps n = FMap.del s.tps n := by
    rw [reach.others, made, withTp, FMap.del_adj, discarded.others]
  have released : u = driveBalls (withFsc (fun c => { c with flows := FMap.del c.flows (tpFlowKey n) }) (dropMisses (tpFlowKey n)
      (dropCounters [.specDiscard] (tpFlowKey n) (dropCounters tpCtrs n { w with tps := FMap.del w.tps n })))) := by
    rw [sent, made]
    rfl
  rw [others] at released
  have whole : w = { s with
      tps := w.tps, fsc := w.fsc, qmg := q, eth := w.eth, prp := w.prp, figs := w.figs, hif := w.hif, counters := w.counters } :=
    frame.frame (fun v => { v with
      tps := w.tps, fsc := w.fsc, eth := w.eth, prp := w.prp, figs := w.figs, hif := w.hif, counters := w.counters })
  refine ⟨?_, ?_, fun f ne => ?_, ?_⟩
  · have shape : u = { w with tps := FMap.del s.tps n, tpio := u.tpio, fsc := u.fsc, counters := u.counters } := by
      rw [released]
      rfl
    rw [whole] at shape
    rw [shape]
  · rw [released]
    exact FMap.get?_del_same ..
  · rw [released]
    refine (FMap.get?_del_other _ _ _ ne).trans ?_
    have before : flow? v f = flow? s f := by
      rw [made]
      exact discarded.flows f ne
    exact (reach.flows f ne).trans before
  · rw [released]
    exact frame.field (fun v => (driveBalls { v with tps := FMap.del s.tps n }).tpio)

end Sys2Proof.Machine
end

section
namespace Sys2Proof.Machine

open Sys2Proof

set_option Elab.async false

/-- A series of test frames begins at once; its first frame changes nothing else of the channel. -/
theorem startTest_spec {n : Nat} {s : State} {x : Tp} (held : tp? s n = some x) (cmd : BitVec 4) (ms k : Nat) :
    let u := startTest n cmd ms k s
    (∀ m, m ≠ n → tp? u m = tp? s m) ∧ u.tpio = s.tpio ∧ u.regs = s.regs ∧ u.chans = s.chans ∧ u.rtps = s.rtps ∧
      ∃ y, tp? u n = some y ∧ y.st = x.st ∧ y.cmd = x.cmd ∧
        y.test = some { cmd, durNs := 1000000 * ms, left := k - 1, on := true, endsAt := now s + 1000000 * ms } := by
  intro u
  obtain ⟨f, begun⟩ : ∃ f : Tp → Tp, f = fun x =>
    { x with test := some { cmd, durNs := msNs ms, left := k - 1, on := true, endsAt := now s + msNs ms } } := ⟨_, rfl⟩
  obtain ⟨free, reach⟩ := tpChange_reach n (now s) none (withTp n f s)
  have set : u = tpChange n (now s) none (withTp n f s) := by rw [begun]; rfl
  rw [← set] at reach
  refine ⟨fun m ne => (reach.other ne).trans (tp?_withTp_other f s ne), reach.frame.field State.tpio, reach.frame.field State.regs,
    reach.frame.field State.chans, reach.frame.field State.rtps, ?_⟩
  obtain ⟨y, found, same⟩ := reach.channel (x := f x) (by exact (tp?_withTp_same n f s).trans (by rw [held]; rfl))
  refine ⟨y, found, ?_⟩
  rw [same, begun]
  exact ⟨rfl, rfl, rfl⟩

/-- Settles O26: each command by its own part. -/
theorem teleprotectionCommands : Obligations.TeleprotectionCommands := by
  unfold Obligations.TeleprotectionCommands
  intro h s s1 p
  have taken := take_hostOnly h.ring s
  have tp (n : Nat) : tp? s1 n = tp? s n := taken.field (fun u => tp? u n)
  have named {n : Nat} (held : (tp? s n).isSome = true) : tpNamed s1 n = St.ok := by
    unfold tpNamed
    rw [tp, if_pos held]
  refine ⟨fun ready ok => ?setup, fun ready ok => ?modify, fun n ready live => ?release, fun n rx k ready live => ?key,
    fun n cmd x ready held host => ?command, fun n cmd ms k x ready held ok => ?test⟩
  case setup =>
    obtain ⟨t, runs, host⟩ := answers_checked (i := .tpSetup h) rfl ready ok
    obtain ⟨frame, others, ⟨q, new⟩, flows, flow, balls⟩ := setupTp_spec h.ring (blk h) s1
    have tps : t.tps = (setupTp h.ring (blk h) s1).tps := host.field State.tps
    refine ⟨t, runs, ?_, fun n ne => ?_, ⟨q, ?_⟩, fun f ne => ?_, ?_, ?_⟩
    · rw [host.eq, frame]
      rfl
    · exact (host.field (fun u => tp? u n)).trans (others n ne)
    · exact (host.field (fun u => tp? u p.tp)).trans new
    · exact (host.field (fun u => flow? u f)).trans (flows f ne)
    · rw [host.field (fun u => flow? u (tpFlowKey p.tp))]
      exact flow
    · rw [host.field State.tpio, balls, tps]
      rfl
  case modify => exact answers_done rfl ready (checked_of_ok _ _ ok)
  case release =>
    obtain ⟨t, runs, host⟩ := answers_checked (i := .tpRelease h n) (status := (tpNamed · n)) rfl ready (named live)
    obtain ⟨frame, gone, flows, balls⟩ := releaseTp_spec n s1
    have tps : t.tps = FMap.del s.tps n := by
      rw [host.field State.tps, frame]
      rfl
    refine ⟨t, runs, ?_, ?_, fun f ne => ?_, ?_⟩
    · rw [host.eq, frame]
      rfl
    · exact (host.field (fun u => flow? u (tpFlowKey n))).trans gone
    · exact (host.field (fun u => flow? u f)).trans (flows f ne)
    · rw [host.field State.tpio, balls, tps]
      rfl
  case key => exact answers_done rfl ready (checked_of_ok _ _ (named live))
  case command =>
    refine answers_done rfl ready (checked_of_ok _ _ ?_)
    unfold tpCommandStatus
    rw [tp, held]
    simp [host]
  case test =>
    obtain ⟨t, runs, host⟩ := answers_checked (i := .tpTest h n cmd ms k) (status := (tpTestStatus · n ms k)) rfl ready ok
    obtain ⟨others, balls, regs, chans, rtps, channel⟩ := startTest_spec ((tp n).trans held) cmd ms k
    refine ⟨t, runs, fun m ne => ?_, ?_, ?_, ?_, ?_, ?_⟩
    · exact (host.field (fun u => tp? u m)).trans (others m ne)
    · exact (host.field State.tpio).trans balls
    · exact (host.field State.regs).trans regs
    · exact (host.field State.chans).trans chans
    · exact (host.field State.rtps).trans rtps
    · rw [host.field (fun u => tp? u n)]
      exact channel

end Sys2Proof.Machine
end

section
/-! SUPPORT. The sink of a teleprotection channel: what a frame, a release and a silence make of it (R130 to R134). -/

namespace Sys2Proof.Machine

open Sys2Proof

set_option Elab.async false

/-! ### The reach of the receive side -/

/-- But for the channels, their balls, the free values, the host interface and the counters. -/
def sansSink (s : State) : State :=
  { s with tps := [], tpio := State.reset.tpio, free := 0, hif := Hif.reset, counters := [] }

/-- `t` is `s` but for what channel `n` has received, whose state is now `y`. -/
structure SinkReach (n : Nat) (y : Tp) (s t : State) : Prop where
  frame : Agree sansSink s t
  others : ∀ m, m ≠ n → tp? t m = tp? s m
  own : tp? t n = some y

section
variable {n : Nat} {x y : Tp} {s t u : State}

theorem SinkReach.refl (held : tp? s n = some x) : SinkReach n x s s := ⟨rfl, fun _ _ => rfl, held⟩

theorem SinkReach.trans (h : SinkReach n x s t) (k : SinkReach n y t u) : SinkReach n y s u where
  frame := h.frame.trans k.frame
  others m ne := (k.others m ne).trans (h.others m ne)
  own := k.own

theorem SinkReach.hif (h : SinkReach n x s t) (only : HifOnly t u) : SinkReach n x s u where
  frame := h.frame.trans only.agree
  others m ne := (only.field (fun v => tp? v m)).trans (h.others m ne)
  own := (only.field (fun v => tp? v n)).trans h.own

theorem SinkReach.withTp (held : tp? s n = some x) (f : Tp → Tp) : SinkReach n (f x) s (withTp n f s) where
  frame := rfl
  others _ ne := tp?_withTp_other f s ne
  own := by rw [tp?_withTp_same, held, Option.map_some]

/-- The state is the one before, but for the fields that the receive side may change. -/
theorem SinkReach.eq (h : SinkReach n x s t) :
    t = { s with tps := t.tps, tpio := t.tpio, free := t.free, hif := t.hif, counters := t.counters } :=
  h.frame.frame (fun v => { v with tps := t.tps, tpio := t.tpio, free := t.free, hif := t.hif, counters := t.counters })

end

/-- The balls and the free values belong to no channel. -/
theorem SinkReach.aside {n : Nat} {x : Tp} {s t : State} (h : SinkReach n x s t) (io : TpIo) (k : Nat) :
    SinkReach n x s { t with tpio := io, free := k } := ⟨h.frame, h.others, h.own⟩

/-! ### A new command set -/

theorem tpSink_spec {n : Nat} {s : State} {x : Tp} (held : tp? s n = some x) (cmd : BitVec 4) (info : Option TpInfo) (t : Ns) :
    ∃ r f, SinkReach n { x with sinkCmd := cmd, riseAt := r, pendFall := f } s (tpSink n cmd info t s) := by
  unfold tpSink
  rw [held]
  dsimp only
  split
  next same =>
    refine ⟨x.riseAt, x.pendFall, ?_⟩
    rw [same]
    exact .refl held
  next =>
    obtain ⟨f, changes⟩ : ∃ f : Tp → Tp, f = fun y => { y with
      sinkCmd := cmd, riseAt := (cmdsOf (cmd &&& ~~~ x.sinkCmd)).foldl (fun m i => FMap.set m i t) y.riseAt
      pendFall := y.pendFall &&& cmd } := ⟨_, rfl⟩
    refine ⟨(cmdsOf (cmd &&& ~~~ x.sinkCmd)).foldl (fun m i => FMap.set m i t) x.riseAt, x.pendFall &&& cmd, ?_⟩
    have counted (v : State) : HifOnly v ((cmdsOf (cmd &&& ~~~ x.sinkCmd)).foldl (fun u i => bumpSub .tpCmdRx n i u) v) :=
      .foldl (fun _ _ => bumpN_hifOnly ..) _ _
    have driven : SinkReach n (f x) s (driveBalls (withTp n f s)) := (SinkReach.withTp held f).aside _ s.free
    rw [changes] at driven
    cases info with
    | some i => exact (driven.hif (counted _)).hif (raise_hifOnly ..)
    | none => exact ((driven.hif (counted _)).aside _ _).hif (raise_hifOnly ..)

theorem foldl_withTimes (l : List Nat) (tt : Int) (x : Tp) :
    ∃ a b, l.foldl (fun (z : Tp) i => { z with
      ttLast := FMap.set z.ttLast i tt
      ttMax := FMap.set z.ttMax i (match FMap.get? z.ttMax i with | some m => if m < tt then tt else m | none => tt) }) x =
        { x with ttLast := a, ttMax := b } := by
  induction l generalizing x with
  | nil => exact ⟨_, _, rfl⟩
  | cons i r ih =>
    obtain ⟨a, b, rest⟩ := ih { x with
      ttLast := FMap.set x.ttLast i tt
      ttMax := FMap.set x.ttMax i (match FMap.get? x.ttMax i with | some m => if m < tt then tt else m | none => tt) }
    exact ⟨a, b, rest⟩

theorem tpTimed_spec {n : Nat} {s : State} {x : Tp} (held : tp? s n = some x) (old cmd : BitVec 4) (w : BitVec 64) (t : Ns) :
    ∃ a b, SinkReach n { x with ttLast := a, ttMax := b } s (tpTimed n old cmd w t s) := by
  unfold tpTimed
  rw [held]
  dsimp only
  split
  · exact ⟨_, _, .refl held⟩
  · obtain ⟨a, b, times⟩ := foldl_withTimes (cmdsOf (old ^^^ cmd)) ((devOf s t : Int) - (w.toNat : Int)) x
    have set := SinkReach.withTp held (fun y => (cmdsOf (old ^^^ cmd)).foldl (fun (z : Tp) i => { z with
      ttLast := FMap.set z.ttLast i ((devOf s t : Int) - (w.toNat : Int))
      ttMax := FMap.set z.ttMax i (match FMap.get? z.ttMax i with
        | some m => if m < (devOf s t : Int) - (w.toNat : Int) then (devOf s t : Int) - (w.toNat : Int) else m
        | none => (devOf s t : Int) - (w.toNat : Int)) }) y)
    rw [times] at set
    refine ⟨a, b, ?_⟩
    split
    · exact set.hif (bump_hifOnly ..)
    · exact set

/-! ### Bits of a command set -/

theorem getLsbD_twoPow4 (i j : Nat) (small : j < 4) : (BitVec.ofNat 4 (2 ^ i)).getLsbD j = decide (i = j) := by
  rw [BitVec.getLsbD_ofNat, Nat.testBit_two_pow]
  simp [small]

theorem getLsbD_orAll (l : List Nat) (w : BitVec 4) {j : Nat} (small : j < 4) :
    (l.foldl (fun (w : BitVec 4) i => w ||| BitVec.ofNat 4 (2 ^ i)) w).getLsbD j = (w.getLsbD j || decide (j ∈ l)) := by
  induction l generalizing w with
  | nil => simp
  | cons i r ih =>
    rw [List.foldl_cons, ih, BitVec.getLsbD_or, getLsbD_twoPow4 i j small]
    by_cases at_ : i = j
    · simp [at_]
    · simp [at_, Ne.symm at_]

theorem mem_cmdsOf (w : BitVec 4) (i : Nat) : i ∈ cmdsOf w ↔ i < 4 ∧ w.getLsbD i = true := by
  simp [cmdsOf]

/-- What the fail state of a command makes of its bit (R133). -/
def TpParams.failBit (p : TpParams) (i : Nat) (b : Bool) : Bool :=
  match p.fail.getD i 0 with
  | 0 => false
  | 1 => if p.toned && p.cmdHz.getD i 0 = 0 then b else true
  | _ => b

theorem failBit_of_zero {p : TpParams} {i : Nat} (low : p.fail.getD i 0 = 0) (b : Bool) : p.failBit i b = false := by
  simp only [TpParams.failBit, low]

theorem failBit_of_one {p : TpParams} {i : Nat} (high : p.fail.getD i 0 = 1) (toned : p.toned = false ∨ p.cmdHz.getD i 0 ≠ 0)
    (b : Bool) : p.failBit i b = true := by
  simp only [TpParams.failBit, high]
  rcases toned with no | tone
  · simp only [no, Bool.false_and, Bool.false_eq_true, if_false]
  · simp only [decide_eq_false tone, Bool.and_false, Bool.false_eq_true, if_false]

theorem failBit_of_hold {p : TpParams} {i : Nat} (hold : 2 ≤ p.fail.getD i 0) (b : Bool) : p.failBit i b = b := by
  unfold TpParams.failBit
  split
  · omega
  · omega
  · rfl

/-- One command goes to its fail state. -/
def TpParams.failOne (p : TpParams) (w : BitVec 4) (i : Nat) : BitVec 4 :=
  match p.fail.getD i 0 with
  | 0 => w &&& ~~~ BitVec.ofNat 4 (2 ^ i)
  | 1 => if p.toned && p.cmdHz.getD i 0 = 0 then w else w ||| BitVec.ofNat 4 (2 ^ i)
  | _ => w

theorem getLsbD_failOne (p : TpParams) (w : BitVec 4) (i : Nat) {j : Nat} (small : j < 4) :
    (p.failOne w i).getLsbD j = if i = j then p.failBit i (w.getLsbD j) else w.getLsbD j := by
  unfold TpParams.failOne TpParams.failBit
  by_cases at_ : i = j
  · rw [if_pos at_]
    split
    · rw [BitVec.getLsbD_and, BitVec.getLsbD_not, getLsbD_twoPow4 _ _ small, decide_eq_true at_]
      simp
    · split
      · rfl
      · rw [BitVec.getLsbD_or, getLsbD_twoPow4 _ _ small, decide_eq_true at_, Bool.or_true]
    · rfl
  · rw [if_neg at_]
    split
    · rw [BitVec.getLsbD_and, BitVec.getLsbD_not, getLsbD_twoPow4 _ _ small, decide_eq_false at_, decide_eq_true small]
      simp
    · split
      · rfl
      · rw [BitVec.getLsbD_or, getLsbD_twoPow4 _ _ small, decide_eq_false at_, Bool.or_false]
    · rfl

/-- The set after every command has gone to its fail state. -/
def TpParams.failAll (p : TpParams) (w : BitVec 4) : BitVec 4 := (List.range 4).foldl p.failOne w

theorem getLsbD_failAll (p : TpParams) (w : BitVec 4) {j : Nat} (small : j < 4) :
    (p.failAll w).getLsbD j = p.failBit j (w.getLsbD j) := by
  simp only [TpParams.failAll, List.range_succ, List.range_zero, List.nil_append, List.cons_append, List.foldl_cons, List.foldl_nil,
    getLsbD_failOne p _ _ small]
  interval_cases j <;> simp

theorem tpFail_spec {n : Nat} {s : State} {x : Tp} (held : tp? s n = some x) (info : Option TpInfo) (t : Ns) :
    ∃ r f, SinkReach n { x with sinkCmd := x.p.failAll x.sinkCmd, riseAt := r, pendFall := f } s (tpFail n info t s) := by
  have unfolded : tpFail n info t s = tpSink n (x.p.failAll x.sinkCmd) info t
      (withTp n (fun y => { y with pendFall := y.pendFall &&& x.p.failAll x.sinkCmd }) s) := by
    unfold tpFail
    rw [held]
    rfl
  have cut := SinkReach.withTp held (fun y => { y with pendFall := y.pendFall &&& x.p.failAll x.sinkCmd })
  obtain ⟨r, f, sunk⟩ := tpSink_spec cut.own (x.p.failAll x.sinkCmd) info t
  rw [unfolded]
  exact ⟨r, f, cut.trans sunk⟩

/-- The commands that a frame no longer names but out_min still holds (R131). -/
def Tp.kept (x : Tp) (cmd : BitVec 4) (t : Ns) : BitVec 4 :=
  ((cmdsOf (x.sinkCmd &&& ~~~ cmd)).filter (fun i => t < FMap.getD x.riseAt i 0 + msNs x.p.outMin)).foldl
    (fun (w : BitVec 4) i => w ||| BitVec.ofNat 4 (2 ^ i)) 0

theorem getLsbD_kept (x : Tp) (cmd : BitVec 4) (t : Ns) {i : Nat} (small : i < 4) :
    (cmd ||| x.kept cmd t).getLsbD i =
      (cmd.getLsbD i || (x.sinkCmd.getLsbD i && decide (t < FMap.getD x.riseAt i 0 + 1000000 * x.p.outMin))) := by
  rw [BitVec.getLsbD_or, Tp.kept, getLsbD_orAll _ _ small]
  simp only [List.mem_filter, mem_cmdsOf, msNs, BitVec.getLsbD_and, BitVec.getLsbD_not, small]
  cases cmd.getLsbD i with
  | true => simp
  | false => simp <;> rfl

theorem tpDrive_spec {n : Nat} {s : State} {x : Tp} (held : tp? s n = some x) (cmd : BitVec 4) (info : TpInfo) (t : Ns) :
    ∃ r f i a b, SinkReach n { x with
      sinkCmd := cmd ||| x.kept cmd t, riseAt := r, pendFall := f, fallInfo := i, ttLast := a, ttMax := b } s
        (tpDrive n cmd info t s) := by
  have unfolded : tpDrive n cmd info t s = tpTimed n x.sinkCmd (cmd ||| x.kept cmd t) info.txTime t
      (tpSink n (cmd ||| x.kept cmd t) (some info) t (withTp n (fun y =>
        { y with pendFall := x.kept cmd t, fallInfo := if x.kept cmd t = 0 then y.fallInfo else some info }) s)) := by
    unfold tpDrive
    rw [held]
    rfl
  have pends := SinkReach.withTp held (fun y =>
    { y with pendFall := x.kept cmd t, fallInfo := if x.kept cmd t = 0 then y.fallInfo else some info })
  obtain ⟨r, f, sunk⟩ := tpSink_spec pends.own (cmd ||| x.kept cmd t) (some info) t
  obtain ⟨a, b, timed⟩ := tpTimed_spec sunk.own x.sinkCmd (cmd ||| x.kept cmd t) info.txTime t
  rw [unfolded]
  exact ⟨r, f, _, a, b, pends.trans (sunk.trans timed)⟩

/-! ### A frame that passes the checks -/

/-- The channel once a frame has passed the checks (R130, R133). -/
def Tp.heard (x : Tp) (d : Bytes) (t : Ns) : Tp :=
  { x with rxSeq := some (BitVec.ofNat 32 (beAt d 4 4)), lastRx := t, linkFail := false, closed := bit (byteAt d 1) 2
           failNs := if x.linkFail then x.failNs + (t - x.failSince) else x.failNs }

theorem tpReceive_spec {n : Nat} {s : State} {x : Tp} {d : Bytes} {lost : Nat} (held : tp? s n = some x)
    (passes : tpCheck x d = .ok lost) (t : Ns) :
    ∃ c r f i a b, SinkReach n { x.heard d t with
      sinkCmd := c, riseAt := r, pendFall := f, fallInfo := i, ttLast := a, ttMax := b } s (tpReceive n d t s) ∧
      (bit (byteAt d 1) 0 = true → c = x.sinkCmd) ∧
      (bit (byteAt d 1) 0 = false → bit (byteAt d 1) 2 = false →
        c = BitVec.ofNat 4 (byteAt d 8) ||| x.kept (BitVec.ofNat 4 (byteAt d 8)) t) := by
  obtain ⟨info, made⟩ : ∃ i : TpInfo,
    i = ⟨BitVec.ofNat 32 (beAt d 4 4), BitVec.ofNat 64 (beAt d 12 8), bit (byteAt d 1) 1, BitVec.ofNat 8 (byteAt d 9)⟩ := ⟨_, rfl⟩
  obtain ⟨u, heard⟩ : ∃ u, u = noticeLive Ev.linkFail n false none true (bumpN .tpLost n 0 lost (withTp n (fun y => y.heard d t) s)) :=
    ⟨_, rfl⟩
  have reach : SinkReach n (x.heard d t) s u := by
    rw [heard]
    exact ((SinkReach.withTp held (fun y => y.heard d t)).hif (bumpN_hifOnly ..)).hif (noticeLive_hifOnly ..)
  have unfolded : tpReceive n d t s =
      if bit (byteAt d 1) 0 then (cmdsOf (BitVec.ofNat 4 (byteAt d 8))).foldl (fun v i => bumpSub .tpTestRx n i v) u
      else if bit (byteAt d 1) 2 then
        raise Ev.linkClosed (some x.ring) (linkClosedBody n (BitVec.ofNat 32 (beAt d 4 4)) info.txTime
          (match tp? (tpFail n (some info) t u) n with | some y => y.sinkCmd | none => 0)) (tpFail n (some info) t u)
      else tpDrive n (BitVec.ofNat 4 (byteAt d 8)) info t u := by
    unfold tpReceive
    rw [held]
    dsimp only
    rw [passes, heard, made]
    rfl
  rw [unfolded]
  by_cases test : bit (byteAt d 1) 0 = true
  · rw [if_pos test]
    refine ⟨x.sinkCmd, x.riseAt, x.pendFall, x.fallInfo, x.ttLast, x.ttMax, ?_, fun _ => rfl, fun no => ?_⟩
    · exact reach.hif (.foldl (fun _ _ => bumpN_hifOnly ..) _ _)
    · rw [test] at no
      contradiction
  · rw [if_neg test]
    by_cases closing : bit (byteAt d 1) 2 = true
    · rw [if_pos closing]
      obtain ⟨r, f, failed⟩ := tpFail_spec reach.own (some info) t
      refine ⟨x.p.failAll x.sinkCmd, r, f, x.fallInfo, x.ttLast, x.ttMax, (reach.trans failed).hif (raise_hifOnly ..),
        fun yes => absurd yes test, fun _ no => ?_⟩
      rw [closing] at no
      contradiction
    · rw [if_neg closing]
      obtain ⟨r, f, i, a, b, driven⟩ := tpDrive_spec reach.own (BitVec.ofNat 4 (byteAt d 8)) info t
      exact ⟨_, r, f, i, a, b, reach.trans driven, fun yes => absurd yes test, fun _ _ => rfl⟩

/-! ### Releases and silences -/

theorem outMin_spec {n i : Nat} {s : State} {x : Tp} (held : tp? s n = some x) (t : Ns) :
    ∃ r f a b, SinkReach n { x with
      sinkCmd := x.sinkCmd &&& ~~~ BitVec.ofNat 4 (2 ^ i), riseAt := r, pendFall := f, ttLast := a, ttMax := b } s
        (outMin n i t s) := by
  unfold outMin
  rw [held]
  obtain ⟨r, f, sunk⟩ := tpSink_spec held (x.sinkCmd &&& ~~~ BitVec.ofNat 4 (2 ^ i)) x.fallInfo t
  obtain ⟨a, b, timed⟩ := tpTimed_spec sunk.own x.sinkCmd (x.sinkCmd &&& ~~~ BitVec.ofNat 4 (2 ^ i))
    (match x.fallInfo with | some f => f.txTime | none => 0) t
  exact ⟨r, f, a, b, sunk.trans timed⟩

/-- Going to the fail states raises no notice and ends none. -/
theorem notice?_tpFail (n : Nat) (info : Option TpInfo) (t : Ns) (s : State) (c o : Nat) :
    notice? (tpFail n info t s) c o = notice? s c o := by
  have counted (l : List Nat) (v : State) : notice? (l.foldl (fun u i => bumpSub .tpCmdRx n i u) v) c o = notice? v c o := by
    induction l generalizing v with
    | nil => rfl
    | cons i r ih => exact ih _
  have sunk (cmd : BitVec 4) (v : State) : notice? (tpSink n cmd info t v) c o = notice? v c o := by
    unfold tpSink
    split
    · rfl
    · split
      · rfl
      · dsimp only
        rw [(raise_told ..).notice?]
        cases info with
        | some i => exact counted ..
        | none => exact counted ..
  unfold tpFail
  split
  · rfl
  · exact sunk ..

theorem notice?_linkFailed {n : Nat} {s : State} {x : Tp} (held : tp? s n = some x) (t : Ns) :
    (notice? (linkFailed n t s) Ev.linkFail n).isSome = true := by
  unfold linkFailed
  rw [held]
  dsimp only
  rw [notice?_tpFail, notice?_crossed]
  rfl

theorem linkFailed_spec {n : Nat} {s : State} {x : Tp} (held : tp? s n = some x) (t : Ns) :
    ∃ r f, SinkReach n { x with
      linkFail := true, failSince := t, rxSeq := none, sinkCmd := x.p.failAll x.sinkCmd, riseAt := r, pendFall := f } s
        (linkFailed n t s) := by
  unfold linkFailed
  rw [held]
  have failing := ((SinkReach.withTp held (fun y => { y with linkFail := true, failSince := t, rxSeq := none })).hif
    (bump_hifOnly .tpLinkFail n _)).hif (crossed_hifOnly Ev.linkFail n 0 (((t - x.lastRx) / 1000 : Nat) : Int) (some x.ring) false _)
  obtain ⟨r, f, failed⟩ := tpFail_spec failing.own none t
  exact ⟨r, f, failing.trans failed⟩

/-! ### O28 -/

/-- Settles O28: a frame, a release and a silence leave the channel that their lemmas name. -/
theorem teleprotectionReceiveSide : Obligations.TeleprotectionReceiveSide := by
  unfold Obligations.TeleprotectionReceiveSide
  intro s n t x up held changed
  have now : tp? (advance t s) n = some x := held
  have live : alive (advance t s) = true := up
  refine ⟨fun d c fails => ?bad, fun d lost passes => ?good, fun i pends past => ?release, fun linked opened silent => ?silence⟩
  case bad =>
    change Host.Outcome.next (onlyIf (alive (advance t s)) (tpReceive n d t (advance t s)) (advance t s)) = _
    rw [live, tpReceive, now]
    dsimp only
    rw [fails]
    rfl
  case good =>
    have runs : exec (.tpRxFrame n d t) s = .next (tpReceive n d t (advance t s)) := by
      change Host.Outcome.next (onlyIf (alive (advance t s)) (tpReceive n d t (advance t s)) (advance t s)) = _
      rw [live]
      rfl
    obtain ⟨c, r, f, i, a, b, reach, test, drives⟩ := tpReceive_spec now passes t
    refine ⟨_, runs, ⟨reach.eq, reach.others⟩, _, reach.own, rfl, rfl, rfl, rfl, rfl, rfl, rfl, test, fun normal stays i small => ?_⟩
    have set : c = _ := drives normal stays
    change c.getLsbD i = _
    rw [set, getLsbD_kept x _ t small, BitVec.getLsbD_ofNat]
    simp [small, bit]
  case release =>
    have runs : exec (.tpOutMinExpiry n i t) s = .next (outMin n i t (advance t s)) := by
      change Host.Outcome.next (onlyIf (alive (advance t s) && (tp? (advance t s) n).any (fun x =>
        x.pendFall.getLsbD i && FMap.getD x.riseAt i 0 + msNs x.p.outMin ≤ t)) (outMin n i t (advance t s)) (advance t s)) = _
      rw [now]
      simp [live, onlyIf, pends, msNs, past]
    obtain ⟨r, f, a, b, reach⟩ := outMin_spec (i := i) now t
    refine ⟨_, runs, ⟨reach.eq, reach.others⟩, _, reach.own, rfl, rfl, ?_, fun j ne => ?_⟩
    · by_cases small : i < 4
      · change (x.sinkCmd &&& ~~~ BitVec.ofNat 4 (2 ^ i)).getLsbD i = false
        rw [BitVec.getLsbD_and, BitVec.getLsbD_not, getLsbD_twoPow4 _ _ small]
        simp
      · exact BitVec.getLsbD_of_ge _ _ (by omega)
    · change (x.sinkCmd &&& ~~~ BitVec.ofNat 4 (2 ^ i)).getLsbD j = _
      by_cases small : j < 4
      · rw [BitVec.getLsbD_and, BitVec.getLsbD_not, getLsbD_twoPow4 _ _ small, decide_eq_false (Ne.symm ne)]
        simp [small]
      · rw [BitVec.getLsbD_of_ge _ _ (by omega), BitVec.getLsbD_of_ge _ _ (by omega)]
  case silence =>
    have runs : exec (.tpLinkTimeout n t) s = .next (linkFailed n t (advance t s)) := by
      change Host.Outcome.next (onlyIf (alive (advance t s) && (tp? (advance t s) n).any (fun x =>
        !x.linkFail && !x.closed && x.lastRx + msNs x.p.hbTimeout ≤ t)) (linkFailed n t (advance t s)) (advance t s)) = _
      rw [now]
      simp [live, onlyIf, linked, opened, msNs, silent]
    obtain ⟨r, f, reach⟩ := linkFailed_spec now t
    refine ⟨_, runs, ⟨reach.eq, reach.others⟩, ?_, _, reach.own, rfl, rfl, rfl, fun i small => ?_⟩
    · exact notice?_linkFailed now t
    · change (x.p.fail.getD i 0 = 0 → (x.p.failAll x.sinkCmd).getLsbD i = false) ∧
        (x.p.fail.getD i 0 = 1 → x.p.toned = false ∨ x.p.cmdHz.getD i 0 ≠ 0 → (x.p.failAll x.sinkCmd).getLsbD i = true) ∧
        (2 ≤ x.p.fail.getD i 0 → (x.p.failAll x.sinkCmd).getLsbD i = x.sinkCmd.getLsbD i)
      rw [getLsbD_failAll _ _ small]
      exact ⟨fun low => failBit_of_zero low _, fun high toned => failBit_of_one high toned _, fun hold => failBit_of_hold hold _⟩

end Sys2Proof.Machine
end

section
/-! SUPPORT. A dwell that a test meets: the decision ends the test with a frame of its own before the pre-arm holds one (R123, R132). -/

namespace Sys2Proof.Machine

open Sys2Proof Sys2Proof.Tests

set_option Elab.async false

/-- A channel with a source on ball 0 that dwells for command 0 while a test series is in its on phase. -/
def dwellTested : Tp :=
  { tp3 with
    p := { tp3.p with src := 2, dwell := 2, prearm := true, inBall := [0, 255, 255, 255] }
    st := .dwell, dwellSet := 1, test := some { cmd := 0, durNs := 1000000, left := 1, on := true, endsAt := 2000000 } }

/-- The device with that channel, whose ball is active. -/
def dwellTestedS : State := { up with tps := [(3, dwellTested)], tpio := { up.tpio with active := 1 } }

/-- The decision at half dwell, once the frame that ends the test is on its way: whether that frame was late is a free value. -/
def afterTestFrame (late : Bool) : State :=
  let s := advance 1000000 dwellTestedS
  let f := ballDecision dwellTested.p 1
  let s2 := noticeLive Ev.guardFail 3 false none f.guardOn (withTp 3 (fun y =>
    { y with absentSince := sinceOf (f.guardOff && f.cand.isNone) y.absentSince 1000000
             presentSince := sinceOf f.guardOn y.presentSince 1000000
             toneGone := sinceOf (y.st = .command && (y.cmd &&& f.present) = 0) y.toneGone 1000000 }) s)
  let s3 := tpSend 3 0 false (BitVec.ofNat 64 1000000) { withTp 3 (fun y => { y with test := none }) s2 with free := 1 }
  if late then bump .tpLate 3 (bumpN .deadlineMiss (tpFlowKey 3) 1 1 (bump .deadlineMiss 0 s3)) else s3

/-- The decision ends the test before it moves the states. -/
theorem ttuStep_dwellTested : ∃ late, ttuStep 3 1000000 (advance 1000000 dwellTestedS) =
    sendStep 3 (ballDecision dwellTested.p 1) 1000000 (afterTestFrame late) :=
  ⟨decide (tpDeadline dwellTestedS 1000000 < 1000000 + Config.freeNat 0 % 135001), rfl⟩

/-- The frame held follows the one that ended the test, so it carries the number after the channel's. -/
theorem held_afterTestFrame (late : Bool) :
    (tp? (sendStep 3 (ballDecision dwellTested.p 1) 1000000 (afterTestFrame late)) 3).any
      (fun y => y.held.any (fun q => q.seq == dwellTested.seq + 1)) = true := by
  cases late with
  | false => decide +kernel
  | true => decide +kernel

/-- Refutes O27: a decision that pre-arms in a dwell ends a test series first, whose last frame takes the channel's sequence
number, so the frame held carries the next one. -/
theorem not_teleprotectionSendSide : ¬ Obligations.TeleprotectionSendSide := by
  unfold Obligations.TeleprotectionSendSide
  intro holds
  obtain ⟨decision, -⟩ := holds dwellTestedS 3 1000000 dwellTested (by decide +kernel) (by decide +kernel)
  obtain ⟨u, runs, -, -, y, f, own, -, -, -, balls, -, -, -, -, prearm, -⟩ :=
    decision 8 dwellTested (by decide +kernel) (by decide +kernel) (.inr (by decide +kernel))
  have found : f = ballDecision dwellTested.p 1 := balls (by decide +kernel)
  have cand : f.cand = some dwellTested.dwellSet := by
    rw [found]
    decide +kernel
  have held := prearm (by decide +kernel) cand (by decide +kernel) (by decide +kernel) (by decide +kernel) (by decide +kernel)
    (by decide +kernel)
  obtain ⟨late, step⟩ := ttuStep_dwellTested
  have follows := held_afterTestFrame late
  have went : exec (.ttuDecision 3 8 1000000) dwellTestedS = .next (ttuStep 3 1000000 (advance 1000000 dwellTestedS)) := by
    change Host.Outcome.next (onlyIf (alive (advance 1000000 dwellTestedS) &&
      devOf (advance 1000000 dwellTestedS) 1000000 % 1000000000 = 125000 * 8) _ _) = _
    rw [show (alive (advance 1000000 dwellTestedS) && devOf (advance 1000000 dwellTestedS) 1000000 % 1000000000 = 125000 * 8) = true
      by decide +kernel]
    rfl
  rw [went] at runs
  injection runs with same
  rw [← step, same, own] at follows
  rcases held with none_ | ⟨q, held, -, seq, -⟩
  · rw [Option.any_some, none_] at follows
    contradiction
  · rw [Option.any_some, held, Option.any_some, seq] at follows
    exact absurd follows (by decide +kernel)

end Sys2Proof.Machine
end

section
/-! SUPPORT. Links, antennas, and what moves the receptions of one receive channel (R147, R173 to R178). -/

namespace Sys2Proof.Machine

open Sys2Proof

set_option Elab.async false

/-! ### Links -/

theorem linkAt_withLink (n m : Nat) (f : Link → Link) (s : State) :
    linkAt (withLink n f s) m = if m = n then f (linkAt s n) else linkAt s m := by
  simp only [linkAt, withLink, FMap.getD, FMap.get?_set]
  split <;> rfl

theorem linkAt_withLink_same (n : Nat) (f : Link → Link) (s : State) : linkAt (withLink n f s) n = f (linkAt s n) := by
  rw [linkAt_withLink, if_pos rfl]

theorem linkAt_withLink_other {n m : Nat} (f : Link → Link) (s : State) (ne : m ≠ n) : linkAt (withLink n f s) m = linkAt s m := by
  rw [linkAt_withLink, if_neg ne]

/-- A link but for its antennas. -/
def Link.sansAnts (l : Link) : Link := { l with ants := [] }

theorem Link.eq_of_sansAnts {l m : Link} (same : l.sansAnts = m.sansAnts) : l = { m with ants := l.ants } :=
  congrArg (fun k : Link => { k with ants := l.ants }) same

theorem sansAnts_withAnt (n a m : Nat) (f : Antenna → Antenna) (s : State) :
    (linkAt (withAnt n a f s) m).sansAnts = (linkAt s m).sansAnts := by
  rw [withAnt, linkAt_withLink]
  split
  next at_ => rw [at_]; rfl
  · rfl

/-! ### Freezing (R173) -/

/-- Freezing settles antennas and nothing else. -/
theorem refreeze_frame (l a : Nat) (s : State) : refreeze l a s = { s with links := (refreeze l a s).links } := by
  unfold refreeze
  dsimp only
  split
  · rfl
  · split <;> rfl

theorem sansAnts_refreeze (l a m : Nat) (s : State) : (linkAt (refreeze l a s) m).sansAnts = (linkAt s m).sansAnts := by
  unfold refreeze
  dsimp only
  split
  · exact sansAnts_withAnt ..
  · split
    · exact sansAnts_withAnt ..
    · rfl

/-! ### The receptions of one channel -/

theorem rxc?_withRxc_same (n : Nat) (f : Rxc → Rxc) (s : State) : rxc? (withRxc n f s) n = (rxc? s n).map f := FMap.get?_adj_same ..

theorem rxc?_withRxc_other {n m : Nat} (f : Rxc → Rxc) (s : State) (ne : m ≠ n) : rxc? (withRxc n f s) m = rxc? s m :=
  FMap.get?_adj_other _ _ _ _ ne

/-- But for the receive channels, the links' antennas and the counters. -/
def sansRecs (s : State) : State :=
  { s with rxcs := [], counters := [], links := [] }

/-- `t` is `s` but for channel `n`, which `f` has changed, with the antennas and the counters. -/
structure RecsReach (n : Nat) (f : Rxc → Rxc) (s t : State) : Prop where
  frame : Agree sansRecs s t
  ants : ∀ m, (linkAt t m).sansAnts = (linkAt s m).sansAnts
  others : FMap.del t.rxcs n = FMap.del s.rxcs n
  own : rxc? t n = (rxc? s n).map f

section
variable {n : Nat} {f g : Rxc → Rxc} {s t u : State}

theorem RecsReach.refl (n : Nat) (s : State) : RecsReach n id s s := ⟨rfl, fun _ => rfl, rfl, by simp⟩

theorem RecsReach.trans (h : RecsReach n f s t) (k : RecsReach n g t u) : RecsReach n (g ∘ f) s u where
  frame := h.frame.trans k.frame
  ants m := (k.ants m).trans (h.ants m)
  others := k.others.trans h.others
  own := by rw [k.own, h.own, Option.map_map]

theorem RecsReach.other (h : RecsReach n f s t) {m : Nat} (ne : m ≠ n) : rxc? t m = rxc? s m := by
  rw [rxc?, rxc?, ← FMap.get?_del_other _ n m ne, h.others, FMap.get?_del_other _ n m ne]

theorem RecsReach.eq (h : RecsReach n f s t) : t = { s with rxcs := t.rxcs, links := t.links, counters := t.counters } :=
  h.frame.frame (fun v => { v with rxcs := t.rxcs, links := t.links, counters := t.counters })

/-- Changes of a channel that come to the same are one. -/
theorem RecsReach.of_map_eq (h : RecsReach n f s t) (same : (rxc? s n).map f = (rxc? s n).map g) : RecsReach n g s t :=
  ⟨h.frame, h.ants, h.others, h.own.trans same⟩

end

theorem withRxc_reach (n : Nat) (f : Rxc → Rxc) (s : State) : RecsReach n f s (withRxc n f s) :=
  ⟨rfl, fun _ => rfl, FMap.del_adj .., rxc?_withRxc_same ..⟩

theorem bumpN_recsReach (n : Nat) (c : Ctr) (o u k : Nat) (s : State) : RecsReach n id s (bumpN c o u k s) := by
  unfold bumpN
  split
  · exact .refl n s
  · exact ⟨rfl, fun _ => rfl, rfl, by rw [Option.map_id]; rfl⟩

theorem countAbandon_reach (n sf m : Nat) (r : Abandon) (s : State) : RecsReach m id s (countAbandon n sf r s) := by
  unfold countAbandon
  split
  case h_2 => exact bumpN_recsReach m .detSyncMismatch n sf 1 s
  case h_3 => exact bumpN_recsReach m .detAbandonLink n 0 1 s
  case h_7 => exact bumpN_recsReach m .ovlSwitch n 0 1 s
  case h_1 => exact bumpN_recsReach m .detPreLost n sf 1 s
  case h_4 => exact bumpN_recsReach m .detHdrCrc n sf 1 s
  case h_5 => exact bumpN_recsReach m .detHdrBad n sf 1 s
  case h_6 => exact bumpN_recsReach m .detFalse n sf 1 s
  case h_8 => exact .refl m s
  case h_9 => exact .refl m s

/-- A channel with other receptions. -/
def Rxc.mapRecs (f : List Reception → List Reception) (c : Rxc) : Rxc := { c with recs := f c.recs }

theorem withRecs_reach (n : Nat) (f : List Reception → List Reception) (s : State) : RecsReach n (Rxc.mapRecs f) s (withRecs n f s) := by
  unfold withRecs
  cases held : rxc? s n with
  | none => exact ⟨rfl, fun _ => rfl, rfl, by rw [held]; rfl⟩
  | some c =>
    dsimp only
    have set := withRxc_reach n (Rxc.mapRecs f) s
    have frozen := refreeze_frame c.p.link c.p.antenna (withRxc n (Rxc.mapRecs f) s)
    refine ⟨?_, fun m => (sansAnts_refreeze ..).trans (set.ants m), ?_, ?_⟩
    · change Agree sansRecs s (refreeze c.p.link c.p.antenna (withRxc n (Rxc.mapRecs f) s))
      rw [frozen]
      exact set.frame
    · change FMap.del (refreeze c.p.link c.p.antenna (withRxc n (Rxc.mapRecs f) s)).rxcs n = _
      rw [frozen]
      exact set.others
    · change rxc? (refreeze c.p.link c.p.antenna (withRxc n (Rxc.mapRecs f) s)) n = _
      rw [frozen]
      exact set.own

/-- The channel without one of its receptions. -/
def Rxc.drop (i : Nat) (c : Rxc) : Rxc := c.mapRecs (fun l => l.filter (fun x => x.id != i))

theorem abandon_reach (n i : Nat) (r : Abandon) (s : State) : RecsReach n (Rxc.drop i) s (abandon n i r s) := by
  unfold abandon
  cases found : (rxc? s n).bind (fun c => c.recs.find? (fun e => e.id == i)) with
  | none =>
    refine (RecsReach.refl n s).of_map_eq ?_
    cases held : rxc? s n with
    | none => rfl
    | some c =>
      rw [held, Option.bind_some, List.find?_eq_none] at found
      have all : c.recs.filter (fun x => x.id != i) = c.recs := List.filter_eq_self.mpr (fun e in_ => by
        simpa using found e in_)
      simp [Rxc.drop, Rxc.mapRecs, all]
  | some e => exact ((withRecs_reach ..).trans (countAbandon_reach ..)).of_map_eq (by rfl)

/-- Every reception of the channel is abandoned. -/
theorem abandonAll_reach (n : Nat) (r : Abandon) (s : State) : RecsReach n (Rxc.mapRecs (fun _ => [])) s (abandonAll n r s) := by
  have folded (l : List Reception) (u : State) : RecsReach n (Rxc.mapRecs (fun k => k.filter (fun x => !(l.map (·.id)).contains x.id)))
      u (l.foldl (fun t e => abandon n e.id r t) u) := by
    induction l generalizing u with
    | nil =>
      refine (RecsReach.refl n u).of_map_eq ?_
      cases rxc? u n <;> simp [Rxc.mapRecs]
    | cons e l ih =>
      refine ((abandon_reach n e.id r u).trans (ih _)).of_map_eq ?_
      cases rxc? u n with
      | none => rfl
      | some c =>
        simp only [Option.map_some, Function.comp_apply, Rxc.drop, Rxc.mapRecs, List.filter_filter]
        refine congrArg (fun k => some { c with recs := k }) (List.filter_congr (fun x _ => ?_))
        by_cases same : x.id = e.id
        · simp [same]
        · simp [same]
  unfold abandonAll
  cases held : rxc? s n with
  | none => exact (RecsReach.refl n s).of_map_eq (by rw [held]; rfl)
  | some c =>
    refine (folded c.recs s).of_map_eq ?_
    rw [held, Option.map_some, Option.map_some]
    have gone : c.recs.filter (fun x => !(c.recs.map (·.id)).contains x.id) = [] :=
      List.filter_eq_nil_iff.mpr (fun x in_ => by simpa using ⟨x, in_, rfl⟩)
    exact congrArg (fun k => some { c with recs := k }) gone

end Sys2Proof.Machine
end

section
/-! SUPPORT. The commands of receive channels (R153 to R158, R343). -/

namespace Sys2Proof.Machine

open Sys2Proof

set_option Elab.async false

/-- The search of a channel begins anew. -/
def Rxc.anew (c : Rxc) : Rxc := { c with runs := c.runs.map (fun r => { r with wins := [], done := false }) }

theorem restartRuns_spec (n : Nat) (s : State) : ∃ radio, RecsReach n Rxc.anew { s with radio := radio } (restartRuns n s) :=
  ⟨_, withRxc_reach n Rxc.anew _⟩

/-- A chain that restarts: its search begins anew, and the samples of the new chain have still to settle (R158). -/
def Rxc.rechained (fs : Nat) (c : Rxc) : Rxc :=
  { c.anew with chain := Chain.start fs c.p, unsettled := (presetTaps c.p.preset).2.2 }

theorem restartChain_spec {n : Nat} {s : State} {c : Rxc} (held : rxc? s n = some c) :
    ∃ radio, RecsReach n (Rxc.rechained (fsHz s c.p.link)) { s with radio := radio } (restartChain n s) := by
  obtain ⟨radio, runs⟩ := restartRuns_spec n s
  have chains := withRxc_reach n (fun d =>
    { d with chain := Chain.start (fsHz s d.p.link) d.p, unsettled := (presetTaps d.p.preset).2.2 }) (restartRuns n s)
  have both : RecsReach n _ { s with radio := radio } (restartChain n s) := runs.trans chains
  refine ⟨radio, both.of_map_eq ?_⟩
  have same : rxc? { s with radio := radio } n = some c := held
  rw [same]
  simp only [Option.map_some, Function.comp_apply, Rxc.rechained, Rxc.anew]

/-- What RXC_MODIFY leaves of a channel. -/
theorem modifyRxc_spec {s : State} {b : Bytes} {c : Rxc} (held : rxc? s (rxcParams b).rx = some c) :
    let p := rxcParams b
    let t := modifyRxc b s
    t = { s with rxcs := t.rxcs, radio := t.radio, links := t.links, counters := t.counters } ∧
      (∀ n, n ≠ p.rx → rxc? t n = rxc? s n) ∧
      ∃ d, rxc? t p.rx = some d ∧ d.p = p ∧ d.gain = c.gain ∧
        (c.p.centreHz = p.centreHz ∧ c.p.preset = p.preset → d = { c with p := p } ∧ t.links = s.links) ∧
        (c.p.centreHz ≠ p.centreHz ∨ c.p.preset ≠ p.preset → d.recs = [] ∧ (∀ r, r ∈ d.runs → r.wins = []) ∧
          d.chain = Chain.start (fsHz s p.link) p ∧ d.unsettled = (presetTaps p.preset).2.2) := by
  intro p t
  have put := withRxc_reach p.rx (fun d => { d with p := p }) s
  have made : t = if c.p.centreHz ≠ p.centreHz ∨ c.p.preset ≠ p.preset then
      restartChain p.rx (abandonAll p.rx .modify (withRxc p.rx (fun d => { d with p := p }) s))
    else withRxc p.rx (fun d => { d with p := p }) s := by
    change modifyRxc b s = _
    unfold modifyRxc
    dsimp only
    rw [held]
  by_cases moves : c.p.centreHz ≠ p.centreHz ∨ c.p.preset ≠ p.preset
  · rw [if_pos moves] at made
    have gone := put.trans (abandonAll_reach p.rx .modify _)
    have now : rxc? (abandonAll p.rx .modify (withRxc p.rx (fun d => { d with p := p }) s)) p.rx =
        some { c with p := p, recs := [] } := by
      rw [gone.own, held]
      rfl
    obtain ⟨radio, chained⟩ := restartChain_spec now
    rw [← made] at chained
    have own : rxc? t p.rx = some (Rxc.rechained (fsHz s p.link) { c with p := p, recs := [] }) := by
      have rate := gone.frame.field (fun v => fsHz v p.link)
      rw [chained.own]
      change (rxc? (abandonAll p.rx .modify _) p.rx).map _ = _
      rw [now, Option.map_some]
      exact congrArg (fun k => some (Rxc.rechained k { c with p := p, recs := [] })) rate
    refine ⟨?_, fun n ne => (chained.other ne).trans (gone.other ne), _, own, rfl, rfl, fun same => ?_, fun _ => ⟨rfl, fun r in_ => ?_, rfl, rfl⟩⟩
    · have first := chained.eq
      have second := gone.eq
      rw [second] at first
      have whole := congrArg (fun v => { v with radio := t.radio }) first
      exact whole
    · rcases moves with no | no
      · exact absurd same.1 no
      · exact absurd same.2 no
    · obtain ⟨q, -, rfl⟩ := List.mem_map.mp in_
      rfl
  · rw [if_neg moves] at made
    rw [made]
    exact ⟨rfl, fun n ne => put.other ne, _, put.own.trans (congrArg (Option.map _) held), rfl, rfl, fun _ => ⟨rfl, rfl⟩, fun yes => absurd yes moves⟩

/-- What RXC_RELEASE leaves. -/
theorem releaseRxc_spec (n : Nat) (s : State) :
    let t := releaseRxc n s
    t = { s with rxcs := FMap.del s.rxcs n, radio := s.radio.filter (fun e => e.channel? != some n), links := t.links, bce := t.bce
                 counters := t.counters } ∧
      t.bce = { s.bce with captures := FMap.adj s.bce.captures n (fun k => { k with ending := true }) } := by
  intro t
  have gone := abandonAll_reach n .release s
  have made : t = dropCounters [.recSeg, .recDrop] (65536 + n) (dropCounters rxcCtrs n { abandonAll n .release s with
      rxcs := FMap.del (abandonAll n .release s).rxcs n
      radio := (abandonAll n .release s).radio.filter (fun e => e.channel? != some n)
      bce := { (abandonAll n .release s).bce with
        captures := FMap.adj (abandonAll n .release s).bce.captures n (fun k => { k with ending := true }) } }) := rfl
  rw [gone.others, gone.frame.field State.radio, gone.frame.field State.bce] at made
  have whole := gone.eq
  obtain ⟨u, hu⟩ : ∃ u, u = abandonAll n .release s := ⟨_, rfl⟩
  rw [← hu] at made whole
  rw [whole] at made
  rw [made]
  exact ⟨rfl, rfl⟩

/-- Settles O31: each command by its own part. -/
theorem receiveChannelCommands : Obligations.ReceiveChannelCommands := by
  unfold Obligations.ReceiveChannelCommands
  intro h s s1 p
  refine ⟨fun ready ok => ?setup, fun c ready ok held => ?modify, fun n ready live => ?release, fun n ring ratio k ready ok room => ?capture⟩
  case setup =>
    refine ⟨rfl, rfl, rfl, rfl, rfl, ?_, ?_⟩
    · exact List.length_replicate ..
    · exact answers_done rfl ready (checked_of_ok _ _ ok)
  case modify =>
    obtain ⟨t, runs, host⟩ := answers_checked (i := .rxcModify h) rfl ready ok
    obtain ⟨frame, others, d, own, params, gain, keeps, moves⟩ := modifyRxc_spec (s := s1) (b := blk h) held
    refine ⟨t, runs, ?_, fun n ne => ?_, d, ?_, params, gain, fun same => ?_, moves⟩
    · rw [host.eq, frame]
      rfl
    · exact (host.field (fun u => rxc? u n)).trans (others n ne)
    · exact (host.field (fun u => rxc? u p.rx)).trans own
    · exact ⟨(keeps same).1, (host.field State.links).trans (keeps same).2⟩
  case release =>
    have ok : (if FMap.has s1.rxcs n then St.ok else St.badParam) = St.ok := if_pos live
    obtain ⟨t, runs, host⟩ := answers_checked (i := .rxcRelease h n)
      (status := fun u => if FMap.has u.rxcs n then St.ok else St.badParam) rfl ready ok
    obtain ⟨frame, bce⟩ := releaseRxc_spec n s1
    refine ⟨t, runs, ?_, (host.field State.bce).trans bce⟩
    rw [host.eq, frame]
    rfl
  case capture =>
    have free : ¬ 256 ≤ s1.hif.longOps.length := Nat.not_le.mpr room
    refine answers_done rfl ready ?_
    rw [acceptLong, if_neg (fun bad => bad ok), beginLong, if_neg free]
    rfl

end Sys2Proof.Machine
end

section
/-! SUPPORT. Stored registers: what a store leaves of every other register, and fields after one field is put (R518, R520). -/

namespace Sys2Proof.Machine

open Sys2Proof

set_option Elab.async false

theorem regIn_regPut_same (m : FMap (BitVec 32)) (r : RegName) (i : Nat) (v : BitVec 32) : regIn (regPut m r i v) r i = v := by
  unfold regIn regPut FMap.getD
  split
  next dflt => rw [FMap.get?_del_same, Option.getD_none, dflt]
  next => rw [FMap.get?_set_same, Option.getD_some]

theorem regIn_regPut_other (m : FMap (BitVec 32)) {r q : RegName} {i j : Nat} (v : BitVec 32) (ne : regOff q j ≠ regOff r i) :
    regIn (regPut m r i v) q j = regIn m q j := by
  unfold regIn regPut FMap.getD
  split
  · rw [FMap.get?_del_other _ _ _ ne]
  · rw [FMap.get?_set_other _ _ _ _ ne]

theorem regVal_setReg_same (s : State) (r : RegName) (i : Nat) (v : BitVec 32) : regVal (setReg s r i v) r i = v :=
  regIn_regPut_same ..

theorem regVal_setReg_other (s : State) {r q : RegName} {i j : Nat} (v : BitVec 32) (ne : regOff q j ≠ regOff r i) :
    regVal (setReg s r i v) q j = regVal s q j := regIn_regPut_other _ _ ne

theorem regVal_putFld_other (s : State) {r q : RegName} {i j : Nat} (hi lo v : Nat) (ne : regOff q j ≠ regOff r i) :
    regVal (putFld s r i hi lo v) q j = regVal s q j := regVal_setReg_other _ _ ne

theorem fld_putFld_other (s : State) {r q : RegName} {i j : Nat} (hi lo v h l : Nat) (ne : regOff q j ≠ regOff r i) :
    fld (putFld s r i hi lo v) q j h l = fld s q j h l := by
  rw [fld, regVal_putFld_other s hi lo v ne, fld]

theorem flag_putFld_other (s : State) {r q : RegName} {i j : Nat} (hi lo v b : Nat) (ne : regOff q j ≠ regOff r i) :
    flag (putFld s r i hi lo v) q j b = flag s q j b := by
  rw [flag, regVal_putFld_other s hi lo v ne, flag]

/-- A single bit that is put into a register. -/
theorem flag_putFld_bit (s : State) (r : RegName) (i b : Nat) (v : Bool) (small : b < 32) :
    flag (putFld s r i b b (b2n v)) r i b = v := by
  have mask : (BitVec.ofNat 32 ((2 ^ (b + 1 - b) - 1) * 2 ^ b)).getLsbD b = true := by
    rw [Nat.add_sub_cancel_left, BitVec.getLsbD_ofNat, Nat.pow_one, Nat.one_mul, Nat.testBit_two_pow_self]
    simp [small]
  unfold flag putFld
  rw [regVal_setReg_same, BitVec.getLsbD_or, BitVec.getLsbD_and, BitVec.getLsbD_and, BitVec.getLsbD_not, mask]
  cases v with
  | false => simp [b2n]
  | true =>
    rw [b2n, if_pos rfl, Nat.one_mul, BitVec.getLsbD_ofNat, Nat.testBit_two_pow_self, decide_eq_true small]
    simp

end Sys2Proof.Machine
end

section
/-! SUPPORT. What a radio link leaves when it leaves DATA, and the notices of its falls (R146, R147, R178). -/

namespace Sys2Proof.Machine

open Sys2Proof

set_option Elab.async false

/-! ### Notices of other kinds -/

/-- A crossing leaves the notices of every other code. -/
theorem notice?_crossing_other {c k : Nat} (o p : Nat) (m q : Bool) (e : Nat) (v : Int) (b : Bytes) (r : Option Nat) (l : Bool)
    (s : State) (ne : k ≠ c) : notice? (crossing c o m e v b r l s) k p q = notice? s k p q := by
  have elsewhere (n : Notice) (is : n.is c o m = true) : n.is k p q = false := by
    simp only [Notice.is, Bool.and_eq_true, beq_iff_eq] at is
    simp [Notice.is, is.1.1, ne.symm]
  unfold crossing
  cases found : notice? s c o m with
  | some n =>
    dsimp only
    have marked (x : Notice) : (if x.code == c && x.object == o && x.mark == m then
        { x with count := x.count + 1, extreme := noticeExtreme c m x.extreme v, live := l, reason := e } else x).is k p q =
          x.is k p q := by
      split
      · rfl
      · rfl
    rw [notice?_withNotices_map s marked]
    cases here : notice? s k p q with
    | none => rfl
    | some x =>
      have is : x.is k p q = true := List.find?_some here
      rw [Option.map_some]
      congr 1
      refine if_neg (fun bad => ?_)
      rw [elsewhere x bad] at is
      contradiction
  | none =>
    dsimp only
    have added (n : Notice) (is : n.is c o m = true) : notice? (withNotices (fun l => l ++ [n]) s) k p q = notice? s k p q := by
      unfold notice?
      rw [withNotices_hif_notices, List.find?_append, List.find?_cons_of_neg (by
        have no := elsewhere n is
        unfold Notice.is at no
        rw [no]
        simp), List.find?_nil, Option.or_none]
    split
    · rw [(raiseAt_told ..).notice?]
      exact added _ (by simp [Notice.is])
    · rw [(raiseNowhere_told ..).notice?]
      exact added _ (by simp [Notice.is])

/-! ### Leaving DATA -/

/-- But for what a link that leaves DATA takes along: receptions, transmissions, captures, waiting transactions. -/
def sansLink (s : State) : State :=
  { s with rxcs := [], radio := [], txcs := [], links := [], bce := State.reset.bce, hif := Hif.reset, counters := [] }

/-- `t` is `s` after something of link `n` has ended: other links keep all but their antennas, and no reception has begun. -/
structure LinkReach (n : Nat) (s t : State) : Prop where
  frame : Agree sansLink s t
  ants : ∀ m, m ≠ n → (linkAt t m).sansAnts = (linkAt s m).sansAnts
  recs : ∀ c x, rxc? t c = some x → ∃ y, rxc? s c = some y ∧ x.p = y.p ∧ (y.recs = [] → x.recs = [])

section
variable {n : Nat} {s t u : State}

theorem LinkReach.refl (n : Nat) (s : State) : LinkReach n s s := ⟨rfl, fun _ _ => rfl, fun _ x held => ⟨x, held, rfl, fun h => h⟩⟩

theorem LinkReach.trans (h : LinkReach n s t) (k : LinkReach n t u) : LinkReach n s u where
  frame := h.frame.trans k.frame
  ants m ne := (k.ants m ne).trans (h.ants m ne)
  recs c x held := by
    obtain ⟨y, mid, p, none⟩ := k.recs c x held
    obtain ⟨z, first, q, gone⟩ := h.recs c y mid
    exact ⟨z, first, p.trans q, fun nil => none (gone nil)⟩

theorem LinkReach.foldl {α : Type} {f : State → α → State} (reach : ∀ t a, LinkReach n t (f t a)) (l : List α) (s : State) :
    LinkReach n s (l.foldl f s) := by
  induction l generalizing s with
  | nil => exact .refl n s
  | cons a r ih => exact (reach s a).trans (ih _)

/-- What leaves the receive channels and the links as they are. -/
theorem LinkReach.of_agree (frame : Agree sansLink s t) (links : t.links = s.links) (rxcs : t.rxcs = s.rxcs) (n : Nat) :
    LinkReach n s t where
  frame := frame
  ants m _ := by rw [linkAt, links, ← linkAt]
  recs c x held := ⟨x, by rw [rxc?, ← rxcs]; exact held, rfl, fun h => h⟩

theorem HifOnly.linkReach (only : HifOnly s t) (n : Nat) : LinkReach n s t :=
  .of_agree only.agree (only.field State.links) (only.field State.rxcs) n

end

theorem withLink_linkReach (n : Nat) (f : Link → Link) (s : State) : LinkReach n s (withLink n f s) where
  frame := rfl
  ants m ne := by rw [linkAt_withLink_other f s ne]
  recs _ x held := ⟨x, held, rfl, fun h => h⟩

/-- The channel that is emptied has no reception, and every other one keeps its own. -/
theorem RecsReach.linkReach {n c : Nat} {f : Rxc → Rxc} {s t : State} (reach : RecsReach c f s t) (params : ∀ x, (f x).p = x.p)
    (empties : ∀ x : Rxc, x.recs = [] → (f x).recs = []) : LinkReach n s t where
  frame := reach.frame.weaken
  ants m _ := reach.ants m
  recs k x held := by
    by_cases at_ : k = c
    · subst at_
      rw [reach.own] at held
      obtain ⟨y, first, rfl⟩ := Option.map_eq_some_iff.mp held
      exact ⟨y, first, params y, empties y⟩
    · exact ⟨x, (reach.other at_).symm.trans held, rfl, fun h => h⟩

/-- One channel of a link loses its receptions and starts its search anew. -/
theorem silence_linkReach (n c : Nat) (s : State) : LinkReach n s (restartRuns c (abandonAll c .link s)) ∧
    ∀ x, rxc? (restartRuns c (abandonAll c .link s)) c = some x → x.recs = [] := by
  have gone := abandonAll_reach c .link s
  obtain ⟨radio, anew⟩ := restartRuns_spec c (abandonAll c .link s)
  have aside : LinkReach n (abandonAll c .link s) { abandonAll c .link s with radio := radio } := .of_agree (by rfl) (by rfl) (by rfl) n
  refine ⟨(gone.linkReach (by intro; rfl) (by intro _ _; rfl)).trans (aside.trans (anew.linkReach (by intro; rfl) (by intro _ h; exact h))), ?_⟩
  intro x held
  rw [anew.own] at held
  obtain ⟨y, first, rfl⟩ := Option.map_eq_some_iff.mp held
  have before : rxc? (abandonAll c .link s) c = some y := first
  rw [gone.own] at before
  obtain ⟨z, -, rfl⟩ := Option.map_eq_some_iff.mp before
  rfl

/-- Every channel of a list loses its receptions. -/
theorem silenceAll_linkReach (n : Nat) (l : List Nat) (s : State) :
    LinkReach n s (l.foldl (fun t c => restartRuns c (abandonAll c .link t)) s) ∧
      ∀ c, c ∈ l → ∀ x, rxc? (l.foldl (fun t c => restartRuns c (abandonAll c .link t)) s) c = some x → x.recs = [] := by
  induction l generalizing s with
  | nil => exact ⟨.refl n s, fun c none => absurd none List.not_mem_nil⟩
  | cons k r ih =>
    obtain ⟨reach, emptied⟩ := silence_linkReach n k s
    obtain ⟨rest, later⟩ := ih (restartRuns k (abandonAll k .link s))
    refine ⟨reach.trans rest, fun c in_ x held => ?_⟩
    rcases List.mem_cons.mp in_ with rfl | tail
    · obtain ⟨y, first, -, keeps⟩ := rest.recs c x held
      exact keeps (emptied y first)
    · exact later c tail x held

theorem endOnAir_linkReach (n c status : Nat) (s : State) : LinkReach n s (endOnAir c status s) := by
  unfold endOnAir
  split
  · exact .refl n s
  · split
    · exact .refl n s
    · rename_i d _ o _
      have ended : LinkReach n s (endTx c o.req (o.antenna s) status (withTxc c (fun d => { d with active := none }) s)) :=
        .trans (.of_agree (by rfl) (by rfl) (by rfl) n) ((endTx_hifOnly ..).linkReach n)
      dsimp only
      split
      · exact ended.trans (.of_agree (by rfl) (by rfl) (by rfl) n)
      · exact ended

theorem sendSamples_linkReach (n : Nat) (t : Ns) (s : State) : LinkReach n s (sendSamples n t s) := by
  unfold sendSamples
  exact ((bumpN_hifOnly ..).linkReach n).trans (withLink_linkReach ..)

theorem runSpi_linkReach (n : Nat) (w : SpiWait) (s : State) : LinkReach n s (runSpi n w s) :=
  (withLink_linkReach ..).trans ((completeHeld_hifOnly ..).linkReach n)

theorem spiWait_runSpi (n : Nat) (w : SpiWait) (s : State) : (linkAt (runSpi n w s) n).spiWait = (linkAt s n).spiWait := by
  unfold runSpi
  rw [(completeHeld_hifOnly ..).field (fun v => linkAt v n), spiSend, linkAt_withLink_same]

/-- Every transaction that waited has run. -/
theorem spiFree_spec (n : Nat) (s : State) : LinkReach n s (spiFree n s) ∧ (linkAt (spiFree n s) n).spiWait = [] := by
  have kept (l : List SpiWait) (u : State) : (linkAt (l.foldl (fun t w => runSpi n w t) u) n).spiWait = (linkAt u n).spiWait := by
    induction l generalizing u with
    | nil => rfl
    | cons w r ih => exact (ih _).trans (spiWait_runSpi ..)
  unfold spiFree
  exact ⟨(withLink_linkReach ..).trans (.foldl (fun _ _ => runSpi_linkReach ..) _ _), (kept ..).trans (by rw [linkAt_withLink_same])⟩

theorem FMap.mem_of_get? {α : Type} {m : FMap α} {k : Nat} {v : α} (held : FMap.get? m k = some v) : (k, v) ∈ m := by
  induction m with
  | nil => cases held
  | cons e r ih =>
    obtain ⟨j, w⟩ := e
    rw [FMap.get?_cons] at held
    split at held
    next at_ =>
      cases held
      rw [at_]
      exact List.mem_cons_self
    next => exact List.mem_cons_of_mem _ (ih held)

theorem mem_rxcsOf {s : State} {c n : Nat} {x : Rxc} (held : rxc? s c = some x) (link : x.p.link = n) : c ∈ rxcsOf s n := by
  unfold rxcsOf
  exact List.mem_map.mpr ⟨(c, x), List.mem_filter.mpr ⟨FMap.mem_of_get? held, by simpa using link⟩, rfl⟩

/-- A link that has left DATA has no reception, and no transaction that waits. -/
theorem leaveData_spec (n : Nat) (s : State) : LinkReach n s (leaveData n s) ∧ (linkAt (leaveData n s) n).spiWait = [] ∧
    ∀ c x, rxc? (leaveData n s) c = some x → x.p.link = n → x.recs = [] := by
  obtain ⟨s0, down⟩ : ∃ s0, s0 = if inData s n then bump .rlDown n s else s := ⟨_, rfl⟩
  obtain ⟨s1, silent⟩ : ∃ s1, s1 = (rxcsOf s n).foldl (fun t c => restartRuns c (abandonAll c .link t)) s0 := ⟨_, rfl⟩
  obtain ⟨s2, ended⟩ : ∃ s2, s2 =
    (s1.txcs.filter (fun e => e.2.link == n)).foldl (fun t e => endOnAir e.1 St.txAborted t) (sendSamples n (now s1) s1) := ⟨_, rfl⟩
  obtain ⟨s3, captured⟩ : ∃ s3, s3 = { s2 with bce := { s2.bce with captures := FMap.mapV s2.bce.captures (fun c k =>
      if (rxcsOf s n).contains c then { k with ending := true } else k) } } := ⟨_, rfl⟩
  have left : leaveData n s = spiFree n s3 := by
    rw [captured, ended, silent, down]
    rfl
  obtain ⟨silence, emptied⟩ := silenceAll_linkReach n (rxcsOf s n) s0
  rw [← silent] at silence emptied
  have first : LinkReach n s s0 := by
    rw [down]
    split
    · exact (bump_hifOnly ..).linkReach n
    · exact .refl n s
  have later : LinkReach n s1 s3 := by
    have sent : LinkReach n s1 s2 := ended ▸ (sendSamples_linkReach ..).trans (.foldl (fun _ _ => endOnAir_linkReach ..) _ _)
    exact sent.trans (captured ▸ .of_agree (by rfl) (by rfl) (by rfl) n)
  obtain ⟨freed, none⟩ := spiFree_spec n s3
  rw [left]
  refine ⟨(first.trans silence).trans (later.trans freed), none, fun c x held link => ?_⟩
  obtain ⟨y, mid, params, keeps⟩ := (later.trans freed).recs c x held
  obtain ⟨z, start, same, -⟩ := (first.trans silence).recs c y mid
  have in_ : c ∈ rxcsOf s n := mem_rxcsOf start (by rw [← same, ← params, link])
  exact keeps (emptied c in_ y mid)

end Sys2Proof.Machine
end

section
/-! SUPPORT. Radio links: start, end, SYSREF and states (R139 to R150). -/

namespace Sys2Proof.Machine

open Sys2Proof

set_option Elab.async false

/-! ### The start of a link (R140, R168) -/

/-- `t` is `s` but for the links, of which only `n` has changed, and that one keeps its state and its pairs. -/
structure StartReach (n : Nat) (s t : State) : Prop where
  frame : t = { s with links := t.links }
  others : ∀ m, m ≠ n → linkAt t m = linkAt s m
  own : (linkAt t n).state = (linkAt s n).state ∧ (linkAt t n).rxPairs = (linkAt s n).rxPairs ∧
    (linkAt t n).txPairs = (linkAt s n).txPairs

theorem StartReach.refl (n : Nat) (s : State) : StartReach n s s := ⟨rfl, fun _ _ => rfl, rfl, rfl, rfl⟩

theorem StartReach.trans {n : Nat} {s t u : State} (h : StartReach n s t) (k : StartReach n t u) : StartReach n s u where
  frame := by
    have first := h.frame
    have second := k.frame
    rw [first] at second
    exact second
  others m ne := (k.others m ne).trans (h.others m ne)
  own := ⟨k.own.1.trans h.own.1, k.own.2.1.trans h.own.2.1, k.own.2.2.trans h.own.2.2⟩

theorem StartReach.foldl {α : Type} {n : Nat} {f : State → α → State} (reach : ∀ t a, StartReach n t (f t a)) (l : List α) (s : State) :
    StartReach n s (l.foldl f s) := by
  induction l generalizing s with
  | nil => exact .refl n s
  | cons a r ih => exact (reach s a).trans (ih _)

theorem withLink_startReach (n : Nat) {f : Link → Link} (s : State)
    (kept : ∀ l, (f l).state = l.state ∧ (f l).rxPairs = l.rxPairs ∧ (f l).txPairs = l.txPairs) : StartReach n s (withLink n f s) where
  frame := rfl
  others m ne := linkAt_withLink_other f s ne
  own := by rw [linkAt_withLink_same]; exact kept _

theorem startLink_spec (n : Nat) (s : State) :
    let u := startLink n s
    u = { s with links := u.links } ∧ (∀ m, m ≠ n → linkAt u m = linkAt s m) ∧ (linkAt u n).state = 1 ∧
      (linkAt u n).rxPairs = rxPairsUsed s n ∧ (linkAt u n).txPairs = txPairsUsed s n := by
  intro u
  have entry (a : Nat) (f : Antenna → Antenna) (t : State) : StartReach n t (withAnt n a f t) :=
    withLink_startReach n t (fun _ => ⟨rfl, rfl, rfl⟩)
  have word (b v : Nat) (t : State) : StartReach n t (spiSend n b v t) := withLink_startReach n t (fun _ => ⟨rfl, rfl, rfl⟩)
  have antennas : StartReach n (withLink n (fun l =>
    { l with state := 1, periodic := false, sysrefAt := none, rate := none, rxPairs := rxPairsUsed s n, txPairs := txPairsUsed s n }) s) u := by
    refine .foldl (fun t a => ?_) _ _
    dsimp only
    split
    · exact (entry ..).trans (word ..)
    · exact entry ..
  obtain ⟨state, rx, tx⟩ := antennas.own
  rw [linkAt_withLink_same] at state rx tx
  refine ⟨?_, fun m ne => (antennas.others m ne).trans (linkAt_withLink_other _ s ne), state, rx, tx⟩
  have frame := antennas.frame
  exact frame

theorem linkConfig_putCtrl (s : State) (n m v : Nat) : rxPairsUsed (putFld s .rlCtrl n 0 0 v) m = rxPairsUsed s m ∧
    txPairsUsed (putFld s .rlCtrl n 0 0 v) m = txPairsUsed s m := by
  have cfg : regOff .rlCfg m ≠ regOff .rlCtrl n := by simp only [regOff, regRow]; omega
  have lane : regOff .rlLane m ≠ regOff .rlCtrl n := by simp only [regOff, regRow]; omega
  unfold rxPairsUsed txPairsUsed rxAntennas txEnable
  rw [fld_putFld_other s 0 0 v _ _ cfg, fld_putFld_other s 0 0 v _ _ cfg, fld_putFld_other s 0 0 v _ _ lane,
    fld_putFld_other s 0 0 v _ _ cfg, fld_putFld_other s 0 0 v _ _ lane, flag_putFld_other s 0 0 v _ cfg]
  exact ⟨rfl, rfl⟩

theorem linkEnabled_putCtrl (s : State) (n : Nat) (b : Bool) : linkEnabled (putFld s .rlCtrl n 0 0 (b2n b)) n = b :=
  flag_putFld_bit s .rlCtrl n 0 b (by decide)

/-! ### The measure of Fs (R144) -/

theorem measuredRate_spec (fs : Nat) (l : Link) (t : Nat) :
    (∀ p, p = false ∨ l.periodic = false → measuredRate fs l p t = none) ∧
    (∀ a : Nat, l.periodic = true → l.sysrefAt = some a → a < t → t ≤ a + 1000000 → 500000000 ≤ (t - a) * fs →
      ∃ k : Nat, measuredRate fs l true t = some (t - a, k) ∧
        2 * ((k * 1000000000 : Int) - ((t - a) * fs : Nat)).natAbs ≤ 1000000000) := by
  refine ⟨fun p no => ?_, fun a periodic dated after_ near enough => ?_⟩
  · unfold measuredRate
    cases l.sysrefAt with
    | none => rfl
    | some a => rcases no with rfl | no <;> simp [*]
  · refine ⟨((t - a) * fs + 500000000) / 1000000000, ?_, ?_⟩
    · have some_ : 0 < ((t - a) * fs + 500000000) / 1000000000 := Nat.div_pos (by omega) (by decide)
      unfold measuredRate
      rw [dated]
      simp [periodic, after_, near, some_]
    · generalize (t - a) * fs = x
      omega

/-! ### Restarting chains (R147) -/

/-- A link that reaches DATA restarts the chains of its channels, and nothing else. -/
theorem reachData_frame (n : Nat) (s : State) :
    reachData n s = { s with rxcs := (reachData n s).rxcs, radio := (reachData n s).radio } := by
  have folded (l : List Nat) (u : State) : ∃ x r, l.foldl (fun t c => restartChain c t) u = { u with rxcs := x, radio := r } := by
    induction l generalizing u with
    | nil => exact ⟨_, _, rfl⟩
    | cons c l ih =>
      obtain ⟨x, r, rest⟩ := ih (restartChain c u)
      exact ⟨x, r, rest⟩
  obtain ⟨x, r, all⟩ := folded (rxcsOf s n) s
  unfold reachData
  rw [all]

/-! ### The fall of a link (R146) -/

theorem linkAt_reachData (n m : Nat) (s : State) : linkAt (reachData n s) m = linkAt s m := by
  rw [reachData_frame]
  rfl

theorem linkDown_spec (n reason : Nat) (value : Int) (s : State) :
    let u := linkDown n reason value s
    LinkReach n s u ∧ (linkAt u n).state = 1 ∧ (notice? u Ev.rlLinkDown n).any (fun x => x.reason == reason) = true := by
  intro u
  obtain ⟨s1, left⟩ : ∃ s1, s1 = if inData s n then leaveData n s else s := ⟨_, rfl⟩
  obtain ⟨s2, down⟩ : ∃ s2, s2 = crossed Ev.rlLinkDown n reason 0 none false (withLink n (fun l => { l with state := 1 }) s1) := ⟨_, rfl⟩
  have falls : u = if reason = 4 then crossed Ev.linkSkew n 0 value none false s2 else s2 := by
    rw [down, left]
    rfl
  have first : LinkReach n s s1 := by
    rw [left]
    split
    · exact (leaveData_spec n s).1
    · exact .refl n s
  have second : LinkReach n s1 s2 := down ▸ (withLink_linkReach ..).trans ((crossed_hifOnly ..).linkReach n)
  have state : (linkAt s2 n).state = 1 := by
    rw [down, (crossed_hifOnly ..).field (fun v => linkAt v n), linkAt_withLink_same]
  have told : (notice? s2 Ev.rlLinkDown n).any (fun x => x.reason == reason) = true := by
    rw [down, notice?_crossed]
    cases notice? (withLink n (fun l => { l with state := 1 }) s1) Ev.rlLinkDown n with
    | none => simp [crossedNotice]
    | some x => simp [crossedNotice]
  rw [falls]
  split
  · refine ⟨(first.trans second).trans ((crossed_hifOnly ..).linkReach n), ?_, ?_⟩
    · rw [(crossed_hifOnly ..).field (fun v => linkAt v n), state]
    · rw [crossed, notice?_crossing_other _ _ _ _ _ _ _ _ _ _ (by decide)]
      exact told
  · exact ⟨first.trans second, state, told⟩

/-! ### Writes to retained settings (R522) -/

theorem lockedWrite_of_locked {s : State} (c : Bool) (f : State → State) (open_ : barOpen s = true) (locked : setupLocked s = true) :
    lockedWrite c f s = if c then bump .setupLockedWr 0 s else s := by
  unfold lockedWrite
  rw [open_, locked]
  rfl

theorem lockedWrite_of_unlocked {s : State} (c : Bool) (f : State → State) (open_ : barOpen s = true)
    (unlocked : setupLocked s = false) : lockedWrite c f s = f s := by
  unfold lockedWrite
  rw [open_, unlocked]
  rfl

theorem exec_rlEnable {n : Nat} (small : n < 8) (s : State) :
    exec (.rlEnable n) s = .next (lockedWrite (!linkEnabled s n) (linkEnable n) s) := by
  change Host.Outcome.next (onlyIf (decide (n < 8)) _ s) = _
  rw [decide_eq_true small]
  rfl

theorem exec_rlDisable {n : Nat} (small : n < 8) (s : State) :
    exec (.rlDisable n) s = .next (lockedWrite (linkEnabled s n) (linkDisable n) s) := by
  change Host.Outcome.next (onlyIf (decide (n < 8)) _ s) = _
  rw [decide_eq_true small]
  rfl

/-! ### O29 -/

theorem linkEnabled_of_agree {n : Nat} {s t : State} (h : LinkReach n s t) : linkEnabled t n = linkEnabled s n :=
  h.frame.field (fun v => linkEnabled v n)

/-- Settles O29: each command and each event of a link. -/
theorem radioLinks : Obligations.RadioLinks := by
  unfold Obligations.RadioLinks
  intro h s n small s1 tableCmd others stay
  have enable (open_ : barOpen s = true) (unlocked : setupLocked s = false) : exec (.rlEnable n) s = .next (linkEnable n s) := by
    rw [exec_rlEnable small, lockedWrite_of_unlocked _ _ open_ unlocked]
  have disable (open_ : barOpen s = true) (unlocked : setupLocked s = false) : exec (.rlDisable n) s = .next (linkDisable n s) := by
    rw [exec_rlDisable small, lockedWrite_of_unlocked _ _ open_ unlocked]
  have stays {u : State} (reach : LinkReach n s u) : stay u := fun m ne => Link.eq_of_sansAnts (reach.ants m ne)
  refine ⟨fun open_ unlocked off => ⟨fun bad => ?bad, fun good => ?start⟩, fun open_ unlocked on_ => ⟨?twice, ?disable⟩,
    fun open_ locked => ⟨?lockedOn, ?lockedOff⟩, fun ready => ?realign, fun wlen rlen wbytes answer ready ok => ?spi,
    fun ready ok => ?table, fun a e ready ok => ?manual, fun t off p up awake => ?sysref, fun state reason value up => ?moves⟩
  case bad =>
    rw [enable open_ unlocked, linkEnable, if_neg (by simp [off]), if_neg (by simp [bad])]
  case start =>
    have runs : exec (.rlEnable n) s = .next (startLink n (putFld s .rlCtrl n 0 0 1)) := by
      rw [enable open_ unlocked, linkEnable, if_neg (by simp [off]), if_pos good]
    obtain ⟨frame, rest, state, rx, tx⟩ := startLink_spec n (putFld s .rlCtrl n 0 0 1)
    obtain ⟨rxSame, txSame⟩ := linkConfig_putCtrl s n n 1
    refine ⟨_, runs, ?_, rest, ?_, state, rx.trans rxSame, tx.trans txSame⟩
    · rw [frame]
      rfl
    · rw [frame]
      exact linkEnabled_putCtrl s n true
  case twice => rw [enable open_ unlocked, linkEnable, if_pos on_]
  case disable =>
    obtain ⟨reach, quiet, silent⟩ := leaveData_spec n (putFld s .rlCtrl n 0 0 0)
    obtain ⟨v, left⟩ : ∃ v, v = leaveData n (putFld s .rlCtrl n 0 0 0) := ⟨_, rfl⟩
    obtain ⟨u, ended⟩ : ∃ u, u = withLink n (fun l =>
      { l with state := 0, periodic := false, sysrefAt := none, rate := none, rxPairs := [], txPairs := [] })
      (noticeLive Ev.rlLinkDown n false none false v) := ⟨_, rfl⟩
    rw [← left] at reach quiet silent
    have runs : exec (.rlDisable n) s = .next u := by
      rw [disable open_ unlocked, linkDisable, if_pos on_, ended, left]
    have own : linkAt u n = { linkAt v n with
        state := 0, periodic := false, sysrefAt := none, rate := none, rxPairs := [], txPairs := [] } := by
      rw [ended, linkAt_withLink_same]
      rfl
    have off : linkEnabled u n = false := by
      rw [ended]
      exact (linkEnabled_of_agree reach).trans (linkEnabled_putCtrl s n false)
    refine ⟨u, runs, fun m ne => ?_, off, ?_, ?_, ?_, ?_, fun c x held link => ?_⟩
    · refine Link.eq_of_sansAnts ?_
      rw [ended, linkAt_withLink_other _ _ ne]
      exact reach.ants m ne
    · rw [own]
    · rw [own]
      exact quiet
    · rw [own]
    · rw [own]
    · rw [ended] at held
      exact silent c x held link
  case lockedOn =>
    rw [exec_rlEnable small, lockedWrite_of_locked _ _ open_ locked]
    cases linkEnabled s n <;> rfl
  case lockedOff =>
    rw [exec_rlDisable small, lockedWrite_of_locked _ _ open_ locked]
  case realign =>
    obtain ⟨t, runs, host⟩ := answers_checked (i := .rlRealign h n) (status := fun _ => if n < 8 then St.ok else St.badParam) rfl ready
      (if_pos small)
    have link (m : Nat) : linkAt t m = linkAt (realign n s1) m := host.field (fun u => linkAt u m)
    by_cases off : (linkAt s n).state = 0
    · have same : realign n s1 = s1 := if_pos off
      refine ⟨t, runs, fun m ne => ?_, ?_, ?_, fun on_ => absurd off on_⟩
      · rw [link, same]
        rfl
      · rw [host.field State.regs, same]
        rfl
      · rw [link, same, if_pos off]
        exact off
    · obtain ⟨reach, -, silent⟩ := leaveData_spec n s1
      obtain ⟨v, left⟩ : ∃ v, v = leaveData n s1 := ⟨_, rfl⟩
      rw [← left] at reach silent
      obtain ⟨u, ended⟩ : ∃ u, u = withLink n (fun l => { l with state := 1 }) (noticeLive Ev.rlLinkDown n false none false v) :=
        ⟨_, rfl⟩
      have again : realign n s1 = u := by
        rw [ended, left]
        exact if_neg off
      rw [again] at host link
      refine ⟨t, runs, fun m ne => ?_, ?_, ?_, fun _ c x held at_ => ?_⟩
      · refine Link.eq_of_sansAnts ?_
        rw [link, ended, linkAt_withLink_other _ _ ne]
        exact reach.ants m ne
      · rw [host.field State.regs, ended]
        exact reach.frame.field State.regs
      · rw [link, ended, linkAt_withLink_same, if_neg off]
      · have before : rxc? v c = some x := by
          rw [host.field (fun u => rxc? u c), ended] at held
          exact held
        exact silent c x before at_
  case spi =>
    intro value back sent kept
    have ok' : rlSpiStatus s1 n wlen rlen = St.ok := ok
    by_cases slotted : spiSlotted s n = true
    · rw [if_pos slotted]
      refine answers_wait (i := .rlSpi h n wlen rlen wbytes answer) rfl ready ?_
      rw [rlSpiOwn, if_neg (fun bad => bad ok'), if_pos (show spiSlotted s1 n = true from slotted)]
      rfl
    · rw [if_neg slotted]
      refine answers_done (i := .rlSpi h n wlen rlen wbytes answer) rfl ready ?_
      rw [rlSpiOwn, if_neg (fun bad => bad ok'), if_neg (show ¬ spiSlotted s1 n = true from slotted)]
      rfl
  case table => exact answers_done (i := .rlGainTable h) rfl ready (checked_of_ok _ _ ok)
  case manual => exact answers_done (i := .rlGainSet h n a e) rfl ready (checked_of_ok _ _ ok)
  case sysref =>
    intro at_
    obtain ⟨s2, dated⟩ : ∃ s2, s2 = withLink n (fun l =>
      { l with sysrefAt := some at_, periodic := p, rate := measuredRate (fsHz s n) l p at_ }) (advance t s) := ⟨_, rfl⟩
    obtain ⟨u, made⟩ : ∃ u, u = if (p && decide (2 ^ fld s .rlCfg n 22 21 * 10 ^ 12 / fsHz s n < off.natAbs)) = true then
      crossed Ev.sysrefSlip n 0 off none false (bump .rlSysrefSlip n s2) else s2 := ⟨_, rfl⟩
    have runs : exec (.sysrefEdge n t off p) s = .next u := by
      change execSysrefEdge n t off p s = _
      have cond : (alive (advance t s) && decide (n < 8) && decide ((linkAt (advance t s) n).state ≠ 0)) = true := by
        rw [show alive (advance t s) = true from up]
        simp only [Bool.true_and, Bool.and_eq_true, decide_eq_true_eq]
        exact ⟨small, awake⟩
      unfold execSysrefEdge
      dsimp only
      rw [if_pos cond, made, dated]
      exact (apply_ite Host.Outcome.next _ _ _).symm
    have only : HifOnly s2 u := by
      rw [made]
      exact .ite ((bump_hifOnly ..).trans (crossed_hifOnly ..)) (.refl s2)
    have own : linkAt u n = { linkAt s n with sysrefAt := some at_, periodic := p, rate := measuredRate (fsHz s n) (linkAt s n) p at_ } := by
      rw [only.field (fun v => linkAt v n), dated, linkAt_withLink_same]
      rfl
    obtain ⟨unmeasured, measured⟩ := measuredRate_spec (fsHz s n) (linkAt s n) at_
    refine ⟨u, runs, ?_, fun m ne => ?_, ?_, fun no => ?_, fun a yes was first after_ near enough => ?_, fun yes far => ?_⟩
    · rw [only.eq, dated]
      rfl
    · rw [only.field (fun v => linkAt v m), dated, linkAt_withLink_other _ _ ne]
      rfl
    · rw [own]
    · rw [own]
      exact unmeasured p no
    · rw [own, yes]
      exact measured a was first after_ near enough
    · have slips : (p && decide (2 ^ fld s .rlCfg n 22 21 * 10 ^ 12 / fsHz s n < off.natAbs)) = true := by
        rw [yes, decide_eq_true far]
        rfl
      rw [made, if_pos slips, notice?_crossed]
      rfl
  case moves =>
    have runs : exec (.rlLinkState n state reason value) s = .next (linkMove n state reason value s) := by
      change Host.Outcome.next (onlyIf (alive s && decide (n < 8)) (linkMove n state reason value s) s) = _
      simp [onlyIf, up, small]
    refine ⟨fun step => ?_, fun was now => ?_, fun was now ok => ?_⟩
    · rcases step with ⟨was, now⟩ | ⟨was, now⟩
      · have goes : linkMove n state reason value s = withLink n (fun l => { l with state := 2 }) s := by
          unfold linkMove
          rw [was, now] <;> rfl
        rw [now]
        rw [now] at runs goes
        exact ⟨_, runs.trans (congrArg Host.Outcome.next goes), rfl, fun m ne => linkAt_withLink_other _ _ ne, linkAt_withLink_same ..⟩
      · have goes : linkMove n state reason value s =
            reachData n (noticeLive Ev.rlLinkDown n false none true (withLink n (fun l => { l with state := 3 }) s)) := by
          unfold linkMove
          rw [was, now] <;> rfl
        have frame := reachData_frame n (noticeLive Ev.rlLinkDown n false none true (withLink n (fun l => { l with state := 3 }) s))
        rw [now]
        rw [now] at runs goes
        refine ⟨_, runs.trans (congrArg Host.Outcome.next goes), ?_, fun m ne => ?_, ?_⟩
        · rw [frame]
          rfl
        · rw [linkAt_reachData, (noticeLive_hifOnly ..).field (fun v => linkAt v m), linkAt_withLink_other _ _ ne]
        · rw [linkAt_reachData, (noticeLive_hifOnly ..).field (fun v => linkAt v n), linkAt_withLink_same]
    · rw [runs]
      unfold linkMove
      rw [was, now] <;> rfl
    · have goes : linkMove n state reason value s = linkDown n reason value s := by
        unfold linkMove
        rcases was with was | was
        · rw [was, now]
          exact if_pos ok
        · rw [was, now]
          exact if_pos ok
      obtain ⟨reach, fallen, told⟩ := linkDown_spec n reason value s
      exact ⟨_, runs.trans (congrArg Host.Outcome.next goes), stays reach, reach.frame.field State.regs, fallen, told⟩

end Sys2Proof.Machine
end

section
/-! SUPPORT. Gain control (R169 to R172): what the decision of a window makes of its antenna. -/

namespace Sys2Proof.Machine

open Sys2Proof

set_option Elab.async false

/-! ### One antenna -/

/-- `t` is `s` but for link `n` and the counters; the antenna is now `y`. -/
structure AntReach (n a : Nat) (y : Antenna) (s t : State) : Prop where
  frame : t = { s with links := t.links, counters := t.counters }
  others : ∀ m, m ≠ n → linkAt t m = linkAt s m
  own : (linkAt t n).ants[a]? = some y

section
variable {n a : Nat} {x y : Antenna} {s t u : State}

theorem AntReach.refl (held : (linkAt s n).ants[a]? = some x) : AntReach n a x s s := ⟨rfl, fun _ _ => rfl, held⟩

theorem AntReach.trans (h : AntReach n a x s t) (k : AntReach n a y t u) : AntReach n a y s u where
  frame := by
    have first := h.frame
    have second := k.frame
    rw [first] at second
    exact second
  others m ne := (k.others m ne).trans (h.others m ne)
  own := k.own

theorem AntReach.withAnt (h : AntReach n a x s t) (f : Antenna → Antenna) : AntReach n a (f x) s (withAnt n a f t) where
  frame := by
    have first := h.frame
    exact congrArg (fun v => { v with links := (Machine.withAnt n a f t).links }) first
  others m ne := (linkAt_withLink_other _ _ ne).trans (h.others m ne)
  own := by
    rw [Machine.withAnt, linkAt_withLink_same, List.getElem?_modify, h.own]
    simp

theorem AntReach.bump (h : AntReach n a x s t) (c : Ctr) (o : Nat) : AntReach n a x s (bump c o t) where
  frame := by
    have first := h.frame
    exact congrArg (fun v => { v with counters := (Machine.bump c o t).counters }) first
  others m ne := h.others m ne
  own := h.own

theorem AntReach.spi (h : AntReach n a x s t) (b v : Nat) : AntReach n a x s (spiSend n b v t) where
  frame := by
    have first := h.frame
    exact congrArg (fun w => { w with links := (spiSend n b v t).links }) first
  others m ne := (linkAt_withLink_other _ _ ne).trans (h.others m ne)
  own := by
    rw [spiSend, linkAt_withLink_same]
    exact h.own

theorem antAt_eq (held : (linkAt s n).ants[a]? = some x) : antAt s n a = x := by
  rw [antAt, List.getD_eq_getElem?_getD, held, Option.getD_some]

end

/-- An antenna once a gain write to an entry has begun (R170). -/
def Antenna.written (x : Antenna) (e : Nat) : Antenna :=
  match x.table.bind (fun g => g.entries[e]?) with
  | none => x
  | some w => if e = x.entry then x else { x with writing := some ⟨e, w.1 - x.gain, none⟩ }

theorem writeGain_reach {n a e : Nat} {x : Antenna} {s t : State} (h : AntReach n a x s t) :
    AntReach n a (x.written e) s (writeGain n a e t) := by
  unfold writeGain Antenna.written
  rw [antAt_eq h.own]
  dsimp only
  cases x.table.bind (fun g => g.entries[e]?) with
  | none => exact h
  | some w =>
    dsimp only
    by_cases same : e = x.entry
    · rw [if_pos same, if_pos same]
      exact h
    · rw [if_neg same, if_neg same]
      exact ((h.withAnt (fun y => { y with writing := some ⟨e, w.1 - x.gain, none⟩ })).spi _ _).bump _ _

/-! ### The decision -/

/-- An antenna whose gain write has reached the FDC by an instant. -/
def Antenna.settled (t : Ns) (x : Antenna) : Antenna :=
  match x.writing with
  | some ⟨e, _, some r⟩ => if r ≤ t then { x with entry := e, writing := none } else x
  | _ => x

/-- The decision in MANUAL. -/
def Antenna.manually (x : Antenna) : Antenna :=
  match x.manual, x.writing with
  | some e, none => ({ x with manual := none } : Antenna).written e
  | _, _ => x

/-- The decision in AUTO, by the settings of an antenna: the first row of the table of R170 that applies. -/
def Antenna.automatically (s : State) (r peak : Nat) (clipped unsettled : Bool) (x : Antenna) : Antenna :=
  let low := entryAtMost x (x.gain - 4 * (fld s .rlAgc r 15 11 : Nat))
  let high := entryAtMost x (x.gain + 4 * (fld s .rlAgc r 19 16 : Nat))
  let quiet := { x with lowRun := 0 }
  if x.writing.isSome || unsettled then quiet
  else if x.frozen then if clipped && x.lastClip then quiet.written low else quiet
  else if -100 * (fld s .rlAgc r 4 1 : Nat) ≤ peakDb peak || clipped then quiet.written low
  else if peakDb peak < -100 * (fld s .rlAgc r 10 5 : Nat) then
    if fld s .rlAgc r 27 20 ≤ x.lowRun + 1 then if x.entry < high then quiet.written high else quiet
    else { x with lowRun := x.lowRun + 1 }
  else quiet

theorem AntReach.pick {n a : Nat} {x y : Antenna} {s t u : State} {c : Prop} [Decidable c] (h : AntReach n a x s t)
    (k : AntReach n a y s u) : AntReach n a (if c then x else y) s (if c then t else u) := by
  by_cases yes : c
  · rw [if_pos yes, if_pos yes]
    exact h
  · rw [if_neg yes, if_neg yes]
    exact k

theorem settleGain_reach {n a : Nat} {x : Antenna} {s : State} (held : (linkAt s n).ants[a]? = some x) :
    AntReach n a (x.settled (now s)) s (settleGain n a s) := by
  have keeps := AntReach.refl held
  unfold settleGain Antenna.settled
  rw [antAt_eq held]
  cases x.writing with
  | none => exact keeps
  | some w =>
    obtain ⟨e, d, r⟩ := w
    cases r with
    | none => exact keeps
    | some r => exact (keeps.withAnt (fun y => { y with entry := e, writing := none })).pick keeps

theorem manualGain_reach {n a : Nat} {x : Antenna} {s t : State} (h : AntReach n a x s t) :
    AntReach n a x.manually s (manualGain n a t) := by
  unfold manualGain Antenna.manually
  rw [antAt_eq h.own]
  dsimp only
  cases x.manual with
  | none => exact h
  | some e =>
    cases held : x.writing with
    | none =>
      have cleared := writeGain_reach (e := e) (h.withAnt (fun y => { y with manual := none }))
      rw [held] at cleared
      exact cleared
    | some w => exact h

theorem autoGain_reach {n a peak : Nat} {clipped unsettled : Bool} {x : Antenna} {s t : State} (h : AntReach n a x s t) :
    AntReach n a (x.automatically t (2 * n + a) peak clipped unsettled) s (autoGain n a peak clipped unsettled t) := by
  unfold autoGain Antenna.automatically
  rw [antAt_eq h.own]
  have quiet := h.withAnt (fun y => { y with lowRun := 0 })
  have counted := h.withAnt (fun y => { y with lowRun := y.lowRun + 1 })
  exact .pick quiet (.pick (.pick ((writeGain_reach quiet).bump _ _) quiet) (.pick (writeGain_reach quiet)
    (.pick (.pick (.pick (writeGain_reach quiet) quiet) counted) quiet)))

/-- The antenna that the decision of a window leaves. -/
def Antenna.decided (s : State) (r peak : Nat) (clipped unsettled : Bool) (x : Antenna) : Antenna :=
  let y := x.settled (now s)
  { (if flag s .rlAgc r 0 then y.manually else y.automatically s r peak clipped unsettled) with lastClip := clipped }

theorem gainDecision_reach {n a peak : Nat} {clipped unsettled : Bool} {x : Antenna} {s : State}
    (held : (linkAt s n).ants[a]? = some x) :
    AntReach n a (x.decided s (2 * n + a) peak clipped unsettled) s (gainDecision n a peak clipped unsettled s) := by
  have settled := settleGain_reach held
  have frame := settled.frame
  obtain ⟨s1, made⟩ : ∃ s1, s1 = settleGain n a s := ⟨_, rfl⟩
  have goes : gainDecision n a peak clipped unsettled s = withAnt n a (fun y => { y with lastClip := clipped })
      (if flag s1 .rlAgc (2 * n + a) 0 then manualGain n a s1 else autoGain n a peak clipped unsettled s1) := by
    rw [made]
    rfl
  rw [← made] at settled frame
  have row : flag s1 .rlAgc (2 * n + a) 0 = flag s .rlAgc (2 * n + a) 0 := by
    rw [frame]
    rfl
  have same : (x.settled (now s)).automatically s1 (2 * n + a) peak clipped unsettled =
      (x.settled (now s)).automatically s (2 * n + a) peak clipped unsettled := by
    rw [frame]
    rfl
  have auto := autoGain_reach (peak := peak) (clipped := clipped) (unsettled := unsettled) settled
  rw [same] at auto
  rw [goes, row]
  have picked := AntReach.pick (c := flag s .rlAgc (2 * n + a) 0 = true) (manualGain_reach settled) auto
  exact picked.withAnt (fun y => { y with lastClip := clipped })

/-! ### What the rows of the table say -/

theorem written_fields (x : Antenna) (e : Nat) : x.written e = { x with writing := (x.written e).writing } := by
  unfold Antenna.written
  split
  · rfl
  · split <;> rfl

theorem written_of_entry {x : Antenna} {e : Nat} {w : Int × BitVec 32} (none_ : x.writing = none)
    (found : x.table.bind (fun g => g.entries[e]?) = some w) :
    (x.written e).writing = if e = x.entry then none else some ⟨e, w.1 - x.gain, none⟩ := by
  unfold Antenna.written
  rw [found]
  dsimp only
  split
  · exact none_
  · rfl

theorem settled_of_none {t : Ns} {x : Antenna} (none_ : x.writing = none) : x.settled t = x := by
  unfold Antenna.settled
  rw [none_]

theorem settled_fields (t : Ns) (x : Antenna) :
    x.settled t = { x with entry := (x.settled t).entry, writing := (x.settled t).writing } := by
  unfold Antenna.settled
  split
  · split <;> rfl
  · rfl

theorem manually_fields (x : Antenna) : x.manually = { x with writing := x.manually.writing, manual := x.manually.manual } := by
  unfold Antenna.manually
  split
  · rw [written_fields]
  · rfl

theorem automatically_fields (s : State) (r peak : Nat) (clipped unsettled : Bool) (x : Antenna) :
    let y := x.automatically s r peak clipped unsettled
    y = { x with lowRun := y.lowRun, writing := y.writing } := by
  have wrote (e : Nat) : let y := ({ x with lowRun := 0 } : Antenna).written e
      y = { x with lowRun := y.lowRun, writing := y.writing } := by
    intro y
    have fields : y = _ := written_fields { x with lowRun := 0 } e
    rw [fields]
  have pick {c : Prop} [Decidable c] {y z : Antenna} (h : y = { x with lowRun := y.lowRun, writing := y.writing })
      (k : z = { x with lowRun := z.lowRun, writing := z.writing }) :
      (if c then y else z) = { x with lowRun := (if c then y else z).lowRun, writing := (if c then y else z).writing } := by
    split <;> assumption
  unfold Antenna.automatically
  exact pick rfl (pick (pick (wrote _) rfl) (pick (wrote _) (pick (pick (pick (wrote _) rfl) rfl) rfl)))

theorem decided_fields (s : State) (r peak : Nat) (clipped unsettled : Bool) (x : Antenna) :
    let y := x.decided s r peak clipped unsettled
    y = { x with entry := y.entry, lowRun := y.lowRun, writing := y.writing, manual := y.manual, lastClip := clipped } := by
  have settled := settled_fields (now s) x
  unfold Antenna.decided
  dsimp only
  split
  · rw [manually_fields, settled]
  · rw [automatically_fields, settled]

end Sys2Proof.Machine
end

section
namespace Sys2Proof.Machine

open Sys2Proof

set_option Elab.async false

theorem FMap.get?_mapV {α β : Type} (m : FMap α) (f : Nat → α → β) (k : Nat) :
    FMap.get? (FMap.mapV m f) k = (FMap.get? m k).map (f k) := by
  induction m with
  | nil => rfl
  | cons e r ih =>
    obtain ⟨j, v⟩ := e
    change FMap.get? ((j, f j v) :: FMap.mapV r f) k = _
    rw [FMap.get?_cons, FMap.get?_cons, ih]
    split
    next at_ => rw [at_]; rfl
    · rfl

/-- Feeding an antenna changes its channels and their captures. -/
theorem feedAntenna_spec (n a first : Nat) (unsettled : Bool) (l : List Cx) (s : State) :
    let u := feedAntenna n a first unsettled l s
    u = { s with rxcs := u.rxcs, bce := u.bce } ∧
      (∀ m c, rxc? s m = some c → c.p.link ≠ n ∨ c.p.antenna ≠ a → rxc? u m = some c) ∧
      (∀ m c d, rxc? s m = some c → c.p.link = n → c.p.antenna = a → linkDate? s n = some d →
        rxc? u m = some (c.feed d (fsHz s n) first unsettled l).1) := by
  unfold feedAntenna
  cases dated : linkDate? s n with
  | none =>
    exact ⟨rfl, fun m c held _ => held, fun m c d _ _ _ some_ => nomatch some_⟩
  | some d =>
    refine ⟨rfl, fun m c held apart => ?_, fun m c g held link antenna some_ => ?_⟩
    · change FMap.get? (FMap.mapV s.rxcs (fun _ c => if c.hears n a then (c.feed d (fsHz s n) first unsettled l).1 else c)) m = _
      have deaf : c.hears n a = false := by
        rcases apart with no | no <;> simp [Rxc.hears, no]
      rw [FMap.get?_mapV, ← rxc?, held, Option.map_some, deaf]
      rfl
    · change FMap.get? (FMap.mapV s.rxcs (fun _ c => if c.hears n a then (c.feed d (fsHz s n) first unsettled l).1 else c)) m = _
      have hears : c.hears n a = true := by simp [Rxc.hears, link, antenna]
      rw [FMap.get?_mapV, ← rxc?, held, Option.map_some, hears, Option.some.inj some_]
      rfl

/-- The decision of a window, row by row (R170). -/
theorem decided_rows (s : State) (r peak : Nat) (clipped unsettled : Bool) (x : Antenna) :
    let hi : Int := -100 * (fld s .rlAgc r 4 1 : Nat)
    let lo : Int := -100 * (fld s .rlAgc r 10 5 : Nat)
    let low := entryAtMost x (x.gain - 4 * (fld s .rlAgc r 15 11 : Nat))
    let auto : Prop := flag s .rlAgc r 0 = false
    let y := x.decided s r peak clipped unsettled
    (∀ e d v, x.writing = some ⟨e, d, some v⟩ → v ≤ now s → flag s .rlAgc r 0 = true → x.manual = none →
      y.entry = e ∧ y.writing = none) ∧
    (∀ e d v, auto → x.writing = some ⟨e, d, v⟩ → (∀ w, v = some w → now s < w) →
      y.lowRun = 0 ∧ y.writing = x.writing ∧ y.entry = x.entry) ∧
    (auto → x.writing = none → unsettled = true → y.lowRun = 0 ∧ y.writing = none) ∧
    (∀ w, auto → x.writing = none → unsettled = false → x.frozen = false → hi ≤ peakDb peak ∨ clipped = true →
      x.table.bind (fun g => g.entries[low]?) = some w →
      y.lowRun = 0 ∧ y.writing = if low = x.entry then none else some ⟨low, w.1 - x.gain, none⟩) ∧
    (auto → x.writing = none → unsettled = false → x.frozen = false → peakDb peak < hi → clipped = false → peakDb peak < lo →
      x.lowRun + 1 < fld s .rlAgc r 27 20 → y.lowRun = x.lowRun + 1 ∧ y.writing = none) ∧
    (∀ e w, flag s .rlAgc r 0 = true → x.manual = some e → x.writing = none →
      x.table.bind (fun g => g.entries[e]?) = some w →
      y.manual = none ∧ y.writing = if e = x.entry then none else some ⟨e, w.1 - x.gain, none⟩) := by
  intro hi lo low auto y
  have decided : y = { (if flag s .rlAgc r 0 then (x.settled (now s)).manually
      else (x.settled (now s)).automatically s r peak clipped unsettled) with lastClip := clipped } := rfl
  refine ⟨fun e d v held past manual none_ => ?done, fun e d v auto_ held open_ => ?writing, fun auto_ none_ uns => ?unsettled,
    fun w auto_ none_ settled free high found => ?high, fun auto_ none_ settled free quiet clean faint short => ?low,
    fun e w manual named none_ found => ?manual⟩
  case done =>
    have settled : x.settled (now s) = { x with entry := e, writing := none } := by
      unfold Antenna.settled
      rw [held]
      exact if_pos past
    rw [decided, manual, settled, if_pos rfl]
    unfold Antenna.manually
    rw [none_]
    exact ⟨rfl, rfl⟩
  case writing =>
    have stays : x.settled (now s) = x := by
      unfold Antenna.settled
      rw [held]
      cases v with
      | none => rfl
      | some w => exact if_neg (Nat.not_le.mpr (open_ w rfl))
    have auto__ : flag s .rlAgc r 0 = false := auto_
    rw [decided, stays, auto__, if_neg (by decide)]
    unfold Antenna.automatically
    dsimp only
    rw [if_pos (by rw [held]; rfl)]
    exact ⟨rfl, rfl, rfl⟩
  case unsettled =>
    have auto__ : flag s .rlAgc r 0 = false := auto_
    rw [decided, settled_of_none none_, auto__, if_neg (by decide)]
    unfold Antenna.automatically
    dsimp only
    rw [if_pos (by rw [uns, Bool.or_true])]
    exact ⟨rfl, none_⟩
  case high =>
    have auto__ : flag s .rlAgc r 0 = false := auto_
    have chosen : x.automatically s r peak clipped unsettled = ({ x with lowRun := 0 } : Antenna).written low := by
      have loud_ : (decide (-100 * (fld s .rlAgc r 4 1 : Int) ≤ peakDb peak) || clipped) = true := by
        rcases high with loud | clips
        · rw [decide_eq_true loud, Bool.true_or]
        · rw [clips, Bool.or_true]
      unfold Antenna.automatically
      dsimp only
      rw [if_neg (by rw [none_, settled]; decide), if_neg (by rw [free]; decide), if_pos loud_]
    rw [decided, settled_of_none none_, auto__, if_neg (by decide), chosen]
    refine ⟨?_, written_of_entry (x := { x with lowRun := 0 }) none_ found⟩
    rw [written_fields]
  case low =>
    have auto__ : flag s .rlAgc r 0 = false := auto_
    have chosen : x.automatically s r peak clipped unsettled = { x with lowRun := x.lowRun + 1 } := by
      have below : ¬ (decide (-100 * (fld s .rlAgc r 4 1 : Int) ≤ peakDb peak) || clipped) = true := by
        rw [decide_eq_false (Int.not_le.mpr quiet), clean]
        decide
      unfold Antenna.automatically
      dsimp only
      rw [if_neg (by rw [none_, settled]; decide), if_neg (by rw [free]; decide), if_neg below, if_pos faint,
        if_neg (Nat.not_le.mpr short)]
    rw [decided, settled_of_none none_, auto__, if_neg (by decide), chosen]
    exact ⟨rfl, none_⟩
  case manual =>
    have chosen : x.manually = ({ x with manual := none } : Antenna).written e := by
      unfold Antenna.manually
      rw [named, none_]
    rw [decided, settled_of_none none_, manual, if_pos rfl, chosen]
    refine ⟨?_, written_of_entry (x := { x with manual := none }) none_ found⟩
    rw [written_fields]

/-- But for what link samples that reach the FDC change. -/
def sansFeed (s : State) : State := { s with radio := [], rxcs := [], bce := State.reset.bce, counters := [] }

/-- Settles O30: windows, decisions, written gains, compensation and the channel gain, each by its lemma. -/
theorem gainControl : Obligations.GainControl := by
  unfold Obligations.GainControl
  intro s n a t x up small held s1
  have live : alive s1 = true := up
  refine ⟨fun iq first unsettled within => ?window, fun peak clipped unsettled => ?decision, fun e d within writing => ?written,
    fun c at_ stamp d due => ⟨fun early => ?early, fun late => ?late⟩, fun rx c held none_ full => ?channel⟩
  case window =>
    have cond : (alive s1 && decide (n < 8) && decide (a < rxAntennas s1 n)) = true := by
      rw [live, decide_eq_true small, decide_eq_true (show a < rxAntennas s1 n from within)]
      rfl
    by_cases data : inData s n = true
    · obtain ⟨v, fed⟩ : ∃ v, v = feedAntenna n a first unsettled (iq.map linkSample) s1 := ⟨_, rfl⟩
      obtain ⟨frame, deaf, hears⟩ := feedAntenna_spec n a first unsettled (iq.map linkSample) s1
      rw [← fed] at frame deaf hears
      have counted := bumpN_hifOnly .rlClip (2 * n + a) 0 (windowClipped iq) v
      have agree : Agree sansFeed s1 (presentRadio (.window n a (windowPeak iq) (windowClipped iq != 0) unsettled)
          (bumpN .rlClip (2 * n + a) 0 (windowClipped iq) v)) := by
        have fedOnly : Agree sansFeed s1 v := by
          rw [frame]
          rfl
        refine fedOnly.trans ?_
        unfold bumpN
        split <;> rfl
      obtain ⟨w, bumped⟩ : ∃ w, w = bumpN .rlClip (2 * n + a) 0 (windowClipped iq) v := ⟨_, rfl⟩
      rw [← bumped] at counted agree
      have runs : exec (.gainWindowDecision n a t iq first unsettled) s =
          .next (presentRadio (.window n a (windowPeak iq) (windowClipped iq != 0) unsettled) w) := by
        change execGainWindowDecision n a t iq first unsettled s = _
        unfold execGainWindowDecision
        dsimp only
        rw [if_pos cond, if_pos (show inData s1 n = true from data), bumped, fed]
      refine ⟨_, runs, ?_, ?_, fun m c held apart => ?_, fun m c d held link antenna dated => ?_⟩
      · exact agree.frame (fun q => { q with
          radio := w.radio ++ [.window n a (windowPeak iq) (windowClipped iq != 0) unsettled], rxcs := w.rxcs, bce := w.bce
          counters := w.counters })
      · rw [if_pos data]
        change w.radio ++ _ = _
        rw [counted.field State.radio, frame]
        rfl
      · exact (counted.field (fun u => rxc? u m)).trans (deaf m c held apart)
      · rw [data, Bool.not_true, Bool.or_false, if_pos rfl]
        exact (counted.field (fun u => rxc? u m)).trans (hears m c d held link antenna dated)
    · obtain ⟨frame, deaf, hears⟩ := feedAntenna_spec n a first true (iq.map (fun _ => (0, 0))) s1
      have runs : exec (.gainWindowDecision n a t iq first unsettled) s =
          .next (feedAntenna n a first true (iq.map (fun _ => (0, 0))) s1) := by
        change execGainWindowDecision n a t iq first unsettled s = _
        unfold execGainWindowDecision
        dsimp only
        rw [if_pos cond, if_neg (show ¬ inData s1 n = true from data)]
      refine ⟨_, runs, ?_, ?_, deaf, fun m c d held link antenna dated => ?_⟩
      · rw [frame]
      · rw [if_neg data, frame]
        rfl
      · rw [Bool.not_eq_true] at data
        rw [data, Bool.not_false, Bool.or_true, if_neg (by decide)]
        exact hears m c d held link antenna dated
  case decision =>
    have reach := gainDecision_reach (peak := peak) (clipped := clipped) (unsettled := unsettled) held
    exact ⟨reach.frame, reach.others, _, reach.own, decided_fields .., decided_rows ..⟩
  case written =>
    intro reach
    have runs : exec (.gainWriteDone n a t) s = .next (gainWritten n a t s1) := by
      change Host.Outcome.next (onlyIf (alive s1 && decide (n < 8) && decide (a < 2)) _ s1) = _
      rw [live, decide_eq_true small, decide_eq_true within]
      rfl
    have ant : antAt s1 n a = x := antAt_eq held
    obtain ⟨from_, place⟩ : ∃ f : Int, f = match linkDate? s1 n with
      | some g => g.antenna (releasedFrom s1 n g (devOf s1 reach)) 1
      | none => 65536 * (devOf s1 reach : Int) := ⟨_, rfl⟩
    have made : gainWritten n a t s1 = { withAnt n a (fun y => { y with writing := some ⟨e, d, some reach⟩ }) s1 with
        rxcs := FMap.mapV s.rxcs (fun _ c => if c.hears n a then { c with comp := c.comp ++ [(from_, d)] } else c) } := by
      rw [place]
      unfold gainWritten
      rw [ant, writing]
      rfl
    refine ⟨_, runs, ?_, ?_, from_, fun g dated => ?_, ?_⟩
    · rw [made]
      rfl
    · rw [made]
      exact ((AntReach.refl (show (linkAt s1 n).ants[a]? = some x from held)).withAnt
        (fun y => { y with writing := some ⟨e, d, some reach⟩ })).own
    · rw [place, show linkDate? s1 n = some g from dated]
      rfl
    · rw [made]
  case early =>
    have none_ : ([(at_, d)] : List (Int × Int)).filter (fun e => e.1 ≤ stamp) = [] := by simp [early]
    have all : ([(at_, d)] : List (Int × Int)).filter (fun e => stamp < e.1) = [(at_, d)] := by simp [early]
    have same : c.recs.map (fun r => { r with gainStep := r.gainStep || ([] : List (Int × Int)).any (fun e => r.detectAt < e.1) }) =
        c.recs := by
      refine (List.map_congr_left (fun r _ => ?_)).trans (List.map_id _)
      simp
    unfold Rxc.compensate
    dsimp only
    rw [due, none_, all, same, ← due]
    rfl
  case late =>
    have all : ([(at_, d)] : List (Int × Int)).filter (fun e => e.1 ≤ stamp) = [(at_, d)] := by simp [late]
    have none_ : ([(at_, d)] : List (Int × Int)).filter (fun e => stamp < e.1) = [] := by simp [late]
    unfold Rxc.compensate
    dsimp only
    rw [due, none_, all]
    simp
  case channel =>
    intro d
    change execChannelGainUpdate rx t s = _
    unfold execChannelGainUpdate
    dsimp only
    rw [show rxc? s1 rx = some c from held]
    have ready : (alive s1 && c.recs.isEmpty && decide (c.recent.length = 64)) = true := by
      rw [live, none_, decide_eq_true full]
      rfl
    dsimp only
    rw [ready]
    exact congrArg (fun m => Host.Outcome.next { s1 with rxcs := m }) (FMap.adj_of_get? _ held)

end Sys2Proof.Machine
end

section
/-! SUPPORT. The search of a receive channel and the windows of its receptions (R162, R164). -/

namespace Sys2Proof.Machine

open Sys2Proof

set_option Elab.async false

/-! ### Runs of hits (R162) -/

/-- Whether a window is a hit of a channel's search. -/
def Rxc.hit (c : Rxc) (data : Bool) (sf : Nat) (w : List OutSample) : Bool :=
  data && w.all (fun o => !o.unsettled) && c.armed sf (runOf c sf).next &&
    reaches (peakRatio (searchBins sf false (w.map (·.iq)))) c.p.pkThr

/-- The hit that a window is. -/
def Rxc.hitWin (c : Rxc) (sf : Nat) (w : List OutSample) : HitWin :=
  let bins := searchBins sf false (w.map (·.iq))
  ⟨peakOf bins, peakRatio bins, powerSum w, (runOf c sf).next⟩

theorem runNext_of_miss {c : Rxc} {data : Bool} {sf : Nat} {w : List OutSample} (miss : c.hit data sf w = false) :
    runNext c data sf w = ⟨sf, (runOf c sf).next + winLen sf, [], false⟩ := by
  unfold runNext
  unfold Rxc.hit at miss
  dsimp only
  rw [miss]
  rfl

theorem runNext_of_hit {c : Rxc} {data : Bool} {sf : Nat} {w : List OutSample} (hit : c.hit data sf w = true) :
    runNext c data sf w = match (runOf c sf).wins with
      | [] => ⟨sf, (runOf c sf).next + winLen sf, [c.hitWin sf w], false⟩
      | v :: _ =>
        if binsAgree sf v.bin (c.hitWin sf w).bin then
          ⟨sf, (runOf c sf).next + winLen sf, (c.hitWin sf w :: (runOf c sf).wins).take 8, (runOf c sf).done⟩
        else ⟨sf, (runOf c sf).next + winLen sf, [c.hitWin sf w], false⟩ := by
  unfold runNext
  unfold Rxc.hit at hit
  dsimp only
  rw [hit] <;> rfl

theorem runNext_spec (c : Rxc) (data : Bool) (sf : Nat) (w : List OutSample) :
    let bins := searchBins sf false (w.map (·.iq))
    let r := runNext c data sf w
    r.sf = sf ∧ r.next = (runOf c sf).next + winLen sf ∧ (c.hit data sf w = false → r.wins = []) ∧
      (c.hit data sf w = true → r.wins.head? = some ⟨peakOf bins, peakRatio bins, powerSum w, (runOf c sf).next⟩ ∧
        (∀ v rest, (runOf c sf).wins = v :: rest → binsAgree sf v.bin (peakOf bins) = true → r.wins.tail = (v :: rest).take 7)) := by
  intro bins r
  cases hit : c.hit data sf w with
  | false =>
    have made : r = _ := runNext_of_miss hit
    rw [made]
    exact ⟨rfl, rfl, fun _ => rfl, fun no => absurd no (by decide)⟩
  | true =>
    have made : r = _ := runNext_of_hit hit
    rw [made]
    cases held : (runOf c sf).wins with
    | nil => exact ⟨rfl, rfl, fun no => absurd no (by decide), fun _ => ⟨rfl, fun v rest no => absurd no (by simp)⟩⟩
    | cons v rest =>
      dsimp only
      by_cases agree : binsAgree sf v.bin (c.hitWin sf w).bin = true
      · rw [if_pos agree]
        refine ⟨rfl, rfl, fun no => absurd no (by decide), fun _ => ⟨rfl, fun v' rest' same _ => ?_⟩⟩
        cases same
        rfl
      · rw [if_neg agree]
        refine ⟨rfl, rfl, fun no => absurd no (by decide), fun _ => ⟨rfl, fun v' rest' same yes => ?_⟩⟩
        cases same
        exact absurd yes agree

theorem qualifies_iff (r : HitRun) (k : Nat) : r.qualifies k = true ↔ r.done = false ∧ k ≤ r.wins.length ∧
    ∀ x y, x ∈ r.wins.take k → y ∈ r.wins.take k → binsAgree r.sf x.bin y.bin = true := by
  simp only [HitRun.qualifies, Bool.and_eq_true, Bool.not_eq_true', decide_eq_true_eq, List.all_eq_true, List.length_take,
    min_eq_left_iff, and_assoc]
  refine and_congr_right (fun _ => and_congr_right (fun _ => ⟨fun all x y hx hy => all x hx y hy, fun all x hx y hy => all x y hx hy⟩))

/-! ### The reach of a window -/

/-- But for the receive channels and the events presented. -/
def sansSearch (s : State) : State := { s with rxcs := [], radio := [] }

/-- A channel but for its search and the windows of its receptions. -/
def Rxc.searchCore (c : Rxc) : Rxc × List Nat := ({ c with runs := [], trig := none, recs := [] }, c.recs.map (·.id))

/-- `t` is `s` after windows of channel `n`: only its search and its receptions have moved, and no reception has begun or ended. -/
structure SearchReach (n : Nat) (s t : State) : Prop where
  frame : Agree sansSearch s t
  others : ∀ m, m ≠ n → rxc? t m = rxc? s m
  core : (rxc? t n).map Rxc.searchCore = (rxc? s n).map Rxc.searchCore

section
variable {n : Nat} {s t u : State}

theorem SearchReach.refl (n : Nat) (s : State) : SearchReach n s s := ⟨rfl, fun _ _ => rfl, rfl⟩

theorem SearchReach.trans (h : SearchReach n s t) (k : SearchReach n t u) : SearchReach n s u where
  frame := h.frame.trans k.frame
  others m ne := (k.others m ne).trans (h.others m ne)
  core := k.core.trans h.core

theorem SearchReach.foldl {α : Type} {f : State → α → State} (reach : ∀ t a, SearchReach n t (f t a)) (l : List α) (s : State) :
    SearchReach n s (l.foldl f s) := by
  induction l generalizing s with
  | nil => exact .refl n s
  | cons a r ih => exact (reach s a).trans (ih _)

theorem SearchReach.channel (reach : SearchReach n s t) {c : Rxc} (held : rxc? s n = some c) :
    ∃ d, rxc? t n = some d ∧ d = { c with runs := d.runs, trig := d.trig, recs := d.recs } ∧ d.recs.map (·.id) = c.recs.map (·.id) := by
  have core := reach.core
  rw [held, Option.map_some] at core
  obtain ⟨d, found, same⟩ := Option.map_eq_some_iff.mp core
  obtain ⟨rest, ids⟩ := Prod.mk.inj same
  exact ⟨d, found, congrArg (fun k : Rxc => { k with runs := d.runs, trig := d.trig, recs := d.recs }) rest, ids⟩

end

theorem presentRadio_searchReach (n : Nat) (e : RadioEvt) (s : State) : SearchReach n s (presentRadio e s) := ⟨rfl, fun _ _ => rfl, rfl⟩

theorem withRxc_searchReach {n : Nat} {f : Rxc → Rxc} {s : State} {c : Rxc} (held : rxc? s n = some c)
    (kept : (f c).searchCore = c.searchCore) : SearchReach n s (withRxc n f s) where
  frame := rfl
  others _ ne := rxc?_withRxc_other f s ne
  core := by
    rw [rxc?_withRxc_same, held]
    exact congrArg some kept

theorem searchSf_reach (n sf : Nat) (s : State) : SearchReach n s (searchSf n sf s) := by
  unfold searchSf
  cases held : rxc? s n with
  | none => exact .refl n s
  | some c =>
    dsimp only
    split
    · exact .refl n s
    · have set (f : Rxc → Rxc) (kept : (f c).searchCore = c.searchCore) : SearchReach n s (withRxc n f s) := withRxc_searchReach held kept
      split
      · exact (set _ (by rfl)).trans (presentRadio_searchReach ..)
      · exact set _ (by rfl)

/-! ### Windows of receptions -/

theorem preambleStep_id (c : Rxc) (g : Int) (e : Reception) (seen misses : Nat) (w : List OutSample) :
    (preambleStep c g e seen misses w).1.id = e.id := by
  unfold preambleStep
  dsimp only
  split
  · split
    · split <;> rfl
    · split <;> rfl
  · split <;> rfl

theorem symbolStep_id (e : Reception) (w : List OutSample) : (symbolStep e w).1.id = e.id := by
  unfold symbolStep
  dsimp only
  split
  · split
    · rfl
    · split <;> rfl
  · rfl

theorem takeWindow_id {c : Rxc} {g : Int} {e f : Reception} {r : Option Abandon} (took : c.takeWindow g e = some (f, r)) : f.id = e.id := by
  unfold Rxc.takeWindow at took
  split at took
  · exact absurd took (by simp)
  · split at took
    · obtain ⟨w, -, made⟩ := Option.map_eq_some_iff.mp took
      rw [← preambleStep_id c (c.gain + g) e _ _ w, made]
    · obtain ⟨w, -, made⟩ := Option.map_eq_some_iff.mp took
      rw [← symbolStep_id e w, made]

theorem stepReception_reach (n i : Nat) (s : State) : SearchReach n s (stepReception n i s) := by
  unfold stepReception
  cases held : rxc? s n with
  | none => exact .refl n s
  | some c =>
    dsimp only
    cases took : (c.recs.find? (fun e => e.id == i)).bind (c.takeWindow (antAt s c.p.link c.p.antenna).gain) with
    | none => exact .refl n s
    | some x =>
      obtain ⟨e1, r⟩ := x
      obtain ⟨e, found, window⟩ := Option.bind_eq_some_iff.mp took
      have of : e1.id = i := (takeWindow_id window).trans (by simpa using List.find?_some found)
      have set (g : Reception) (same : g.id = i) : SearchReach n s
          (withRxc n (fun d => { d with recs := d.recs.map (fun x => if x.id = i then g else x) }) s) := by
        refine withRxc_searchReach held ?_
        refine Prod.ext rfl ?_
        change (c.recs.map (fun x => if x.id = i then g else x)).map (·.id) = c.recs.map (·.id)
        rw [List.map_map]
        refine List.map_congr_left (fun x _ => ?_)
        change (if x.id = i then g else x).id = x.id
        split
        next at_ => rw [same, at_]
        · rfl
      cases r with
      | none => exact set _ of
      | some a =>
        obtain ⟨u, put⟩ : ∃ u, u = withRxc n (fun d => { d with recs := d.recs.map (fun x =>
          if x.id = i then { e1 with phase := .over, sent := e1.sent.filter (fun y => c.base ≤ y.1 + winLen e1.sf) } else x) }) s :=
          ⟨_, rfl⟩
        have reach : SearchReach n s u := put ▸ set _ of
        have both := reach.trans (presentRadio_searchReach n (.lost n i a) u)
        rw [put] at both
        exact both

theorem stepReceptions_reach (n : Nat) (s : State) : SearchReach n s (stepReceptions n s) := by
  refine .foldl (fun t _ => ?_) _ _
  cases rxc? t n with
  | none => exact .refl n t
  | some c => exact .foldl (fun u (e : Reception) => stepReception_reach n e.id u) _ _

theorem detect_reach (n : Nat) (sfs : List Nat) (s : State) : SearchReach n s (detect n sfs s) :=
  (SearchReach.foldl (fun t sf => searchSf_reach n sf t) sfs s).trans (stepReceptions_reach ..)

/-- Where nothing is received no window of a reception is taken. -/
theorem stepReceptions_of_nil {n : Nat} {s : State} {c : Rxc} (held : rxc? s n = some c) (nil : c.recs = []) :
    stepReceptions n s = s := by
  have stays (l : List Nat) : l.foldl (fun t _ =>
      match rxc? t n with
      | none => t
      | some c => ((c.recs.filter (fun e => !e.weak)) ++ (c.recs.filter (·.weak))).foldl (fun u e => stepReception n e.id u) t) s = s := by
    induction l with
    | nil => rfl
    | cons a r ih =>
      rw [List.foldl_cons, held]
      simp only [nil, List.filter_nil, List.append_nil, List.foldl_nil]
      exact ih
  exact stays _

/-- The search takes a window at one SF where nothing is received. -/
theorem detect_single {n sf : Nat} {s : State} {c : Rxc} {w : List OutSample} (held : rxc? s n = some c) (nil : c.recs = [])
    (low : 5 ≤ sf) (high : sf ≤ 12) (on_ : c.p.sfMask.testBit (sf - 5) = true)
    (window : c.samples (runOf c sf).next (winLen sf) = some w) :
    let r := runNext c (inData s c.p.link) sf w
    (detect n [sf] s).radio = if r.qualifies c.p.pq then s.radio ++ [.qualified n (r.qualified c.p.pq)] else s.radio := by
  intro r
  obtain ⟨d, found, -, ids⟩ := (searchSf_reach n sf s).channel held
  have none_ : d.recs = [] := by
    rw [nil] at ids
    exact List.map_eq_nil_iff.mp ids
  have stays : detect n [sf] s = searchSf n sf s := stepReceptions_of_nil found none_
  have cond : (decide (5 ≤ sf) && decide (sf ≤ 12) && c.p.sfMask.testBit (sf - 5)) = true := by
    rw [decide_eq_true low, decide_eq_true high, on_]
    rfl
  rw [stays]
  unfold searchSf
  rw [held]
  dsimp only
  rw [if_pos cond, window]
  dsimp only
  split <;> rfl

end Sys2Proof.Machine
end

section
/-! SUPPORT. The interleaver of the chirp frame and what takes it back (R188). -/

namespace Sys2Proof.Machine

open Sys2Proof

set_option Elab.async false

/-! ### Lists of blocks -/

section
variable {α : Type} (f : Nat → Nat → α) (n : Nat)

/-- The entries of `k` blocks of `n`. -/
def blocksOf (k : Nat) : List α := (List.range k).flatMap (fun i => (List.range n).map (f i))

theorem length_blocksOf (k : Nat) : (blocksOf f n k).length = k * n := by
  induction k with
  | zero => simp [blocksOf]
  | succ k ih =>
    unfold blocksOf at ih ⊢
    rw [List.range_succ, List.flatMap_append, List.length_append, ih]
    simp [Nat.succ_mul]

theorem getElem?_blocksOf {k i j : Nat} (hi : i < k) (hj : j < n) : (blocksOf f n k)[i * n + j]? = some (f i j) := by
  induction k with
  | zero => exact absurd hi (Nat.not_lt_zero i)
  | succ k ih =>
    have split : blocksOf f n (k + 1) = blocksOf f n k ++ (List.range n).map (f k) := by
      unfold blocksOf
      rw [List.range_succ, List.flatMap_append]
      simp
    rw [split]
    by_cases low : i < k
    · have within : i * n + j < (blocksOf f n k).length := by
        rw [length_blocksOf]
        have := Nat.mul_le_mul_right n (Nat.succ_le_of_lt low)
        rw [Nat.succ_mul] at this
        omega
      rw [List.getElem?_append_left within, ih low]
    · have last : i = k := by omega
      rw [List.getElem?_append_right (by rw [length_blocksOf, last]; omega), length_blocksOf, last, Nat.add_sub_cancel_left]
      simp [hj]

end

/-- A list whose entries are those of blocks. -/
theorem eq_blocksOf {α : Type} {f : Nat → Nat → α} {n k : Nat} {l : List α} (size : l.length = k * n)
    (entries : ∀ i j, i < k → j < n → l[i * n + j]? = some (f i j)) : l = blocksOf f n k := by
  refine List.ext_getElem? (fun x => ?_)
  by_cases within : x < k * n
  · have some_ : 0 < n := Nat.pos_of_ne_zero (by rintro rfl; omega)
    have hi : x / n < k := Nat.div_lt_of_lt_mul (by rwa [Nat.mul_comm])
    have hj : x % n < n := Nat.mod_lt _ some_
    have at_ : x / n * n + x % n = x := Nat.div_add_mod' x n
    have left := entries _ _ hi hj
    have right := getElem?_blocksOf f n hi hj
    rw [at_] at left right
    rw [left, right]
  · rw [List.getElem?_eq_none (by omega), List.getElem?_eq_none (by rw [length_blocksOf]; omega)]

theorem getD_blocksOf {α : Type} (f : Nat → Nat → α) {n k i j : Nat} (d : α) (hi : i < k) (hj : j < n) :
    (blocksOf f n k).getD (i * n + j) d = f i j := by
  rw [List.getD_eq_getElem?_getD, getElem?_blocksOf f n hi hj, Option.getD_some]

/-! ### The interleaver -/

/-- The column of a bit, found again from the symbol that carries it. -/
theorem column_of_diagonal {sf r c : Nat} (hr : r < sf) (hc : c < sf) : ((r + c) % sf + sf - r % sf) % sf = c := by
  rw [Nat.mod_eq_of_lt hr]
  by_cases wraps : r + c < sf
  · rw [Nat.mod_eq_of_lt wraps, show r + c + sf - r = c + sf by omega, Nat.add_mod_right, Nat.mod_eq_of_lt hc]
  · have over_ : (r + c) % sf = r + c - sf := by
      rw [Nat.mod_eq_sub_mod (by omega), Nat.mod_eq_of_lt (by omega)]
    rw [over_, show r + c - sf + sf - r = c by omega, Nat.mod_eq_of_lt hc]

/-- The metric of a hard decision. -/
def hardMetric (b : Bool) : Int := if b then -1 else 1

theorem metric6_hardMetric (b : Bool) : metric6 1 (hardMetric b) = hardMetric b := by cases b <;> decide

/-- Bit `r` of symbol `j` of block `k`. -/
def symbolBit (sf : Nat) (l : List Bool) (k j r : Nat) : Bool := l.getD (k * sf * sf + r * sf + (j + sf - r % sf) % sf) false

theorem interleave_eq (sf : Nat) (l : List Bool) :
    interleave sf l = blocksOf (fun k j => (List.range sf).map (symbolBit sf l k j)) sf (cdiv l.length (sf * sf)) := rfl

theorem deinterleave_interleave {sf : Nat} {l : List Bool} (low : 5 ≤ sf) (whole : l.length % (sf * sf) = 0) :
    deinterleave sf 1 ((interleave sf l).map (fun v => (v.map hardMetric).reverse)) = l.map hardMetric := by
  obtain ⟨k, size⟩ : ∃ k, l.length = k * (sf * sf) := ⟨l.length / (sf * sf), (Nat.div_mul_cancel (Nat.dvd_of_mod_eq_zero whole)).symm⟩
  have pos : 0 < sf := by omega
  have square : 0 < sf * sf := Nat.mul_pos pos pos
  have blocks : cdiv l.length (sf * sf) = k := by
    unfold cdiv
    rw [size]
    refine (Nat.div_eq_of_lt_le ?_ ?_)
    · omega
    · rw [Nat.succ_mul]
      omega
  obtain ⟨sent, made⟩ : ∃ v, v = (interleave sf l).map (fun v => (v.map hardMetric).reverse) := ⟨_, rfl⟩
  have symbol {i j : Nat} (hi : i < k) (hj : j < sf) :
      sent.getD (i * sf + j) [] = (((List.range sf).map (symbolBit sf l i j)).map hardMetric).reverse := by
    rw [made, interleave_eq, blocks, List.getD_eq_getElem?_getD, List.getElem?_map, getElem?_blocksOf _ _ hi hj]
    rfl
  have count : sent.length / sf = k := by
    rw [made, List.length_map, interleave_eq, blocks, length_blocksOf, Nat.mul_div_cancel _ pos]
  have bit {i r c : Nat} (hi : i < k) (hr : r < sf) (hc : c < sf) :
      (sent.getD (i * sf + (r + c) % sf) []).getD (sf - 1 - r) 0 = hardMetric (l.getD (i * (sf * sf) + (r * sf + c)) false) := by
    have place : i * sf * sf + r * sf + c = i * (sf * sf) + (r * sf + c) := by rw [Nat.mul_assoc, Nat.add_assoc]
    rw [symbol hi (Nat.mod_lt _ pos), List.getD_eq_getElem?_getD, List.getElem?_reverse (by simp; omega)]
    have back : ((List.range sf).map (symbolBit sf l i ((r + c) % sf))).length - 1 - (sf - 1 - r) = r := by
      simp
      omega
    rw [List.length_map, back, List.getElem?_map, List.getElem?_map, List.getElem?_range hr]
    change hardMetric (symbolBit sf l i ((r + c) % sf) r) = _
    rw [symbolBit, column_of_diagonal hr hc, place]
  rw [← made]
  have unfolded : deinterleave sf 1 sent = blocksOf (fun i m =>
      metric6 1 ((sent.getD (i * sf + (m / sf + m % sf) % sf) []).getD (sf - 1 - m / sf) 0)) (sf * sf) k := by
    unfold deinterleave
    rw [count]
    rfl
  rw [unfolded]
  symm
  refine eq_blocksOf (by rw [List.length_map, size]) (fun i m hi hm => ?_)
  have hr : m / sf < sf := Nat.div_lt_of_lt_mul hm
  have hc : m % sf < sf := Nat.mod_lt _ pos
  have at_ : m / sf * sf + m % sf = m := Nat.div_add_mod' m sf
  have within : i * (sf * sf) + m < l.length := by
    rw [size]
    have := Nat.mul_le_mul_right (sf * sf) (Nat.succ_le_of_lt hi)
    rw [Nat.succ_mul] at this
    omega
  rw [bit hi hr hc, at_, metric6_hardMetric, List.getElem?_map, List.getD_eq_getElem?_getD, List.getElem?_eq_getElem within]
  rfl

end Sys2Proof.Machine
end

section
/-! SUPPORT. The ordering point of the receive channels (R172, R175, R191, R195, R197), and capture segments (R343). -/

namespace Sys2Proof.Machine

open Sys2Proof

set_option Elab.async false

/-! ### Counters of what moves receptions -/

theorem withRecs_counters (n : Nat) (f : List Reception → List Reception) (s : State) :
    (withRecs n f s).counters = s.counters := by
  unfold withRecs
  split
  · rfl
  · rw [refreeze_frame]
    rfl

theorem inData_of_recsReach {n : Nat} {f : Rxc → Rxc} {s t : State} (reach : RecsReach n f s t) (l : Nat) : inData t l = inData s l := by
  have same := congrArg Link.state (reach.ants l)
  change (linkAt t l).state = (linkAt s l).state at same
  rw [inData, same, ← inData]

/-! ### Keys in turn -/

/-- What acts at one key only, over the keys of a map in order, acts once. -/
theorem foldl_keys {α β : Type} {m : FMap α} {k : Nat} {v : α} (wf : FMap.wf m = true) (held : FMap.get? m k = some v)
    {f : β → Nat → β} (idle : ∀ b j, j ≠ k → f b j = b) (b : β) : (FMap.keys m).foldl f b = f b k := by
  have absent (r : FMap α) (none_ : ∀ e, e ∈ r → e.1 ≠ k) (b : β) : (FMap.keys r).foldl f b = b := by
    induction r generalizing b with
    | nil => rfl
    | cons e r ih =>
      change (FMap.keys r).foldl f (f b e.1) = b
      rw [idle b e.1 (none_ e List.mem_cons_self)]
      exact ih (fun x in_ => none_ x (List.mem_cons_of_mem _ in_)) b
  induction m generalizing b with
  | nil => cases held
  | cons e r ih =>
    obtain ⟨j, w⟩ := e
    obtain ⟨later, rest⟩ := (FMap.wf_cons j w r).mp wf
    change (FMap.keys r).foldl f (f b j) = f b k
    rw [FMap.get?_cons] at held
    by_cases at_ : j = k
    · subst at_
      exact absent r (fun x in_ => Nat.ne_of_gt (later x in_)) _
    · rw [if_neg at_] at held
      rw [idle b j at_]
      exact ih rest held b

/-! ### Rounds of two events -/

theorem detection_nil (n : Nat) (s : State) : detection n [] s = s := rfl

/-- Headers are taken before detections. -/
theorem radioRound_header {n i : Nat} {q : Qualified} {h : Bytes} {s : State} {c : Rxc} (held : rxc? s n = some c)
    (wf : FMap.wf s.rxcs = true) (events : s.radio = [.qualified n q, .header n i h]) :
    radioRound s = detection n [q] (headerStep n i h { s with radio := [] }) := by
  unfold radioRound
  dsimp only
  rw [events]
  simp only [List.foldl_cons, List.foldl_nil]
  rw [foldl_keys wf held (fun t m ne => by simp [Ne.symm ne, detection_nil])]
  simp

/-- Detections are taken before the decisions of gain windows, and then the link's slot comes. -/
theorem radioRound_window {n l a peak : Nat} {clip uns : Bool} {q : Qualified} {s : State} {c : Rxc} (held : rxc? s n = some c)
    (wf : FMap.wf s.rxcs = true) (events : s.radio = [.window l a peak clip uns, .qualified n q]) (small : l < 8)
    (data : inData (detection n [q] { s with radio := [] }) l = true) :
    radioRound s = spiSlot l (gainDecision l a peak clip uns (detection n [q] { s with radio := [] })) := by
  unfold radioRound
  dsimp only
  rw [events]
  simp only [List.foldl_cons, List.foldl_nil]
  rw [foldl_keys wf held (fun t m ne => by simp [Ne.symm ne, detection_nil])]
  simp only [List.filterMap_cons, List.filterMap_nil, if_true, data]
  have slot (u : State) : (List.range 8).foldl (fun t m => if l == m then spiSlot m t else t) u = spiSlot l u := by
    interval_cases l <;> rfl
  simpa using slot _

end Sys2Proof.Machine
end

section
/-! SUPPORT. Headers, detections, energy windows and captures (R166, R172, R186, R343). -/

namespace Sys2Proof.Machine

open Sys2Proof

set_option Elab.async false

/-! ### Headers (R186) -/

/-- A reception whose header has passed. -/
def Reception.passed (e : Reception) (h : Bytes) : Reception :=
  { e with phase := .payload, len := byteAt h 0, cr := bits (byteAt h 1) 1 0, sec := bit (byteAt h 1) 2
           ptt := bit (byteAt h 1) 3, stream := beAt h 2 2, header := h }

/-- The receptions after the result of a header. -/
def afterHeader (i : Nat) (h : Bytes) (l : List Reception) : List Reception :=
  if headerVerdict h = 0 then l.map (fun e => if e.id = i then e.passed h else e) else l.filter (fun x => x.id != i)

theorem headerStep_reach {n i : Nat} {h : Bytes} {s : State} {c : Rxc} {e : Reception} (held : rxc? s n = some c)
    (found : c.recs.find? (fun x => x.id == i && x.phase = .header) = some e) :
    RecsReach n (Rxc.mapRecs (afterHeader i h)) s (headerStep n i h s) ∧
      (headerVerdict h = 0 → (headerStep n i h s).counters = s.counters) := by
  have at_ : (rxc? s n).bind (fun c => c.recs.find? (fun x => x.id == i && x.phase = .header)) = some e := by
    rw [held]
    exact found
  have drops : headerVerdict h ≠ 0 → Rxc.drop i c = Rxc.mapRecs (afterHeader i h) c := fun bad => by
    simp [Rxc.drop, Rxc.mapRecs, afterHeader, bad]
  unfold headerStep
  rw [at_]
  dsimp only
  split
  next good =>
    refine ⟨(withRecs_reach ..).of_map_eq ?_, fun _ => withRecs_counters ..⟩
    have passes : afterHeader i h c.recs = c.recs.map (fun e => if e.id = i then e.passed h else e) := if_pos good
    rw [held, Option.map_some, Option.map_some]
    exact congrArg (fun l => some { c with recs := l }) passes.symm
  next bad =>
    refine ⟨(abandon_reach ..).of_map_eq ?_, fun good => absurd (bad.symm.trans good) (by decide)⟩
    rw [held, Option.map_some, Option.map_some, drops (by rw [bad]; decide)]
  next bad _ =>
    refine ⟨(abandon_reach ..).of_map_eq ?_, fun good => absurd good bad⟩
    rw [held, Option.map_some, Option.map_some, drops bad]

/-! ### Detections (R172) -/

/-- A newcomer on a channel that receives nothing. -/
theorem beginReception_spec {n : Nat} {q : Qualified} {s : State} {c : Rxc} (held : rxc? s n = some c) (nil : c.recs = []) :
    let u := beginReception n q false false false true s
    u = { s with rxcs := u.rxcs, links := u.links, counters := u.counters, free := s.free + 1 } ∧
      ∃ d e, rxc? u n = some d ∧ d = { c with recs := [e], nextId := c.nextId + 1, gain := finalStep c.gain q, recent := [] } ∧
        e.id = c.nextId ∧ e.sf = q.sf ∧ e.phase = .delimiter 0 0 ∧ e.overlap = false ∧ e.old = c.p ∧ e.next = shifted q := by
  intro u
  obtain ⟨e, made⟩ : ∃ e : Reception, e =
    { id := c.nextId, sf := q.sf, phase := .delimiter 0 0, next := shifted q, windows := 0, preEnd := q.stop
      detectAt := c.stampAt (q.stop - 1), preSum := q.power, preN := q.len
      preGain := c.gain + (antAt s c.p.link c.p.antenna).gain, snr := sint 16 (drawNat s).1, kd := 0, freqHz := 0, eq_ := Equaliser.none
      sent := preambleSent q, soft := [], syncWord := 0, len := 0, cr := 0, sec := false, ptt := false, stream := 0, header := []
      overlap := false, weak := false, onPool := false, subFrom := q.start, gainStep := false, sat := false, rxTime := 0, dataAt := 0
      old := c.p } := ⟨_, rfl⟩
  obtain ⟨f, changes⟩ : ∃ f : Rxc → Rxc, f = fun x =>
    { x with nextId := x.nextId + 1, gain := finalStep c.gain q, recent := [] } := ⟨_, rfl⟩
  have begins : u = withRecs n (fun l => l ++ [e]) (withRxc n f { s with free := s.free + 1 }) := by
    change beginReception n q false false false true s = _
    unfold beginReception
    rw [held, made, changes]
    rfl
  have reach := (withRxc_reach n f { s with free := s.free + 1 }).trans (withRecs_reach n (fun l => l ++ [e]) _)
  rw [← begins] at reach
  refine ⟨reach.eq, { c with recs := [e], nextId := c.nextId + 1, gain := finalStep c.gain q, recent := [] }, e, ?_, rfl, ?_⟩
  · rw [reach.own]
    change (rxc? s n).map _ = _
    rw [held, Option.map_some, changes]
    simp only [Function.comp_apply, Rxc.mapRecs, nil, List.nil_append]
  · rw [made]
    exact ⟨rfl, rfl, rfl, rfl, rfl, rfl⟩

/-- A preamble that qualifies where nothing is received, or where only a header is, becomes a reception. -/
theorem preambleQualified_spec {n : Nat} {q : Qualified} {s : State} {c : Rxc} (held : rxc? s n = some c)
    (free : c.recs = [] ∨ (∃ e, c.recs = [e] ∧ e.phase = .header ∧ e.sf ≠ q.sf)) :
    let u := preambleQualified n q s
    u = { s with rxcs := u.rxcs, links := u.links, counters := u.counters, free := s.free + 1 } ∧
      ∃ d e, rxc? u n = some d ∧ d = { c with recs := [e], nextId := c.nextId + 1, gain := finalStep c.gain q, recent := [] } ∧
        e.id = c.nextId ∧ e.sf = q.sf ∧ e.phase = .delimiter 0 0 ∧ e.overlap = false ∧ e.old = c.p ∧ e.next = shifted q := by
  intro u
  rcases free with nil | ⟨e, one, header, other⟩
  · have begins : u = beginReception n q false false false true s := by
      change preambleQualified n q s = _
      unfold preambleQualified
      rw [held]
      dsimp only
      rw [nil]
    rw [begins]
    exact beginReception_spec held nil
  · obtain ⟨v, abandoned⟩ : ∃ v, v = abandon n e.id .falsePreamble s := ⟨_, rfl⟩
    have begins : u = beginReception n q false false false true v := by
      have apart : ¬ (decide (q.sf = e.sf) && decide (q.start < e.preEnd)) = true := by
        rw [decide_eq_false (fun same => other same.symm), Bool.false_and]
        decide
      change preambleQualified n q s = _
      unfold preambleQualified
      rw [held]
      dsimp only
      rw [one]
      dsimp only
      rw [if_neg apart, if_pos (by rw [header]; decide), abandoned]
    have reach := abandon_reach n e.id .falsePreamble s
    rw [← abandoned] at reach
    have own : rxc? v n = some { c with recs := [] } := by
      rw [reach.own, held, Option.map_some]
      simp [Rxc.drop, Rxc.mapRecs, one]
    obtain ⟨frame, d, e', found, shape, rest⟩ := beginReception_spec (q := q) own rfl
    rw [begins]
    refine ⟨?_, d, e', found, shape, rest⟩
    have both := reach.eq
    have free_ : v.free = s.free := reach.frame.field State.free
    rw [free_] at frame
    obtain ⟨w, made⟩ : ∃ w, w = beginReception n q false false false true v := ⟨_, rfl⟩
    rw [← made] at frame ⊢
    rw [both] at frame
    exact frame

theorem detection_single (n : Nat) (q : Qualified) (s : State) :
    detection n [q] s = preambleQualified n q (bumpSub .detQual n q.sf s) := rfl

/-- A detection leaves every link in its state. -/
theorem inData_detection {n l : Nat} {q : Qualified} (s : State) : inData (detection n [q] s) l = inData s l := by
  have counted : inData (bumpSub .detQual n q.sf s) l = inData s l := (bumpN_hifOnly ..).field (fun v => inData v l)
  rw [detection_single, ← counted]
  generalize bumpSub .detQual n q.sf s = v
  have bumped (c : Ctr) (o : Nat) (w : State) : inData (bump c o w) l = inData w l := (bump_hifOnly ..).field (fun v => inData v l)
  have begins (o p r b : Bool) (w : State) : inData (beginReception n q o p r b w) l = inData w l := by
    unfold beginReception
    split
    · rfl
    · exact inData_of_recsReach (withRecs_reach ..) l
  have abandons (i : Nat) (r : Abandon) (w : State) : inData (abandon n i r w) l = inData w l := inData_of_recsReach (abandon_reach ..) l
  unfold preambleQualified
  split
  · rfl
  · split
    · exact begins ..
    · split
      · rfl
      · split
        · exact (begins ..).trans (abandons ..)
        · dsimp only
          split
          · exact bumped ..
          · split
            · exact (begins ..).trans (abandons ..)
            · exact bumped ..
          · split
            · unfold recover
              dsimp only
              rw [keepHigh_frame]
              exact ((begins ..).trans (bumped ..)).trans (inData_of_recsReach (withRecs_reach ..) l)
            · exact bumped ..
    · exact bumped ..

/-! ### Energy windows (R166) -/

theorem energy_spec {n : Nat} {s : State} {c : Rxc} {f : Int} {w : List OutSample} (held : rxc? s n = some c)
    (data : inData s c.p.link = true) (floor : c.noiseFloor = some f) (settled : ∀ o, o ∈ w → o.unsettled = false) :
    let len := winLen (lowSf c.p.sfMask)
    let p := meanDb (powerSum w) w.length - 25 * (c.gain + (antAt s c.p.link c.p.antenna).gain)
    let u := energy n w s
    u = { s with rxcs := u.rxcs, counters := u.counters } ∧ (∀ m, m ≠ n → rxc? u m = rxc? s m) ∧
      rxc? u n = some { c with
        eNext := c.energyAt + len
        trig := if f + 25 * c.p.eThr ≤ p then some ((c.trig.elim [] (·.1)) ++ [c.energyAt], c.trig.any (·.2)) else c.trig
        powers := if c.recs = [] then (p :: c.powers).take c.floorWindows else c.powers } ∧
      u.counters = (if f + 25 * c.p.eThr ≤ p then bump .detETrig n s else s).counters := by
  intro len p u
  obtain ⟨f0, nexts⟩ : ∃ f0 : Rxc → Rxc, f0 = fun d => { d with eNext := c.energyAt + len } := ⟨_, rfl⟩
  obtain ⟨f1, trigs⟩ : ∃ f1 : Rxc → Rxc, f1 = fun d =>
    { d with trig := some ((d.trig.elim [] (·.1)) ++ [c.energyAt], d.trig.any (·.2)) } := ⟨_, rfl⟩
  obtain ⟨f2, noise⟩ : ∃ f2 : Rxc → Rxc, f2 = fun d => { d with powers := (p :: d.powers).take c.floorWindows } := ⟨_, rfl⟩
  obtain ⟨s1, made⟩ : ∃ s1, s1 = if f + 25 * c.p.eThr ≤ p then bump .detETrig n (withRxc n f1 (withRxc n f0 s)) else withRxc n f0 s :=
    ⟨_, rfl⟩
  have goes : u = if c.recs.isEmpty then withRxc n f2 s1 else s1 := by
    have within : ¬ (w.any (·.unsettled) || !inData s c.p.link) = true := by
      rw [data, List.any_eq_false.mpr (fun o in_ => by rw [settled o in_]; decide)]
      decide
    change energy n w s = _
    unfold energy
    rw [held]
    dsimp only
    rw [if_neg within, floor, made, noise, trigs, nexts]
  have counted (v : State) : v.rxcs = (bump .detETrig n v).rxcs := rfl
  by_cases loud : f + 25 * c.p.eThr ≤ p
  · rw [if_pos loud] at made
    have own1 : rxc? s1 n = some (f1 (f0 c)) := by
      rw [made]
      change rxc? (withRxc n f1 (withRxc n f0 s)) n = _
      rw [rxc?_withRxc_same, rxc?_withRxc_same, held]
      rfl
    have others1 (m : Nat) (ne : m ≠ n) : rxc? s1 m = rxc? s m := by
      rw [made]
      exact (rxc?_withRxc_other f1 _ ne).trans (rxc?_withRxc_other f0 s ne)
    have frame1 : s1 = { s with rxcs := s1.rxcs, counters := (bump .detETrig n s).counters } := by
      rw [made]
      rfl
    rw [goes, if_pos loud, if_pos loud]
    by_cases nil : c.recs = []
    · rw [if_pos (by rw [nil]; rfl), if_pos nil]
      refine ⟨congrArg (fun v => withRxc n f2 v) frame1 ▸ ?_, fun m ne => (rxc?_withRxc_other f2 s1 ne).trans (others1 m ne), ?_, ?_⟩
      · rw [frame1]
        rfl
      · rw [rxc?_withRxc_same, own1, Option.map_some, noise, trigs, nexts]
      · rw [frame1]
        rfl
    · rw [if_neg (by rw [List.isEmpty_iff]; exact nil), if_neg nil]
      refine ⟨?_, others1, ?_, ?_⟩
      · rw [frame1]
      · rw [own1, trigs, nexts]
      · rw [frame1]
  · rw [if_neg loud] at made
    have own1 : rxc? s1 n = some (f0 c) := by
      rw [made, rxc?_withRxc_same, held]
      rfl
    have others1 (m : Nat) (ne : m ≠ n) : rxc? s1 m = rxc? s m := by
      rw [made]
      exact rxc?_withRxc_other f0 s ne
    have frame1 : s1 = { s with rxcs := s1.rxcs } := by
      rw [made]
      rfl
    rw [goes, if_neg loud, if_neg loud]
    by_cases nil : c.recs = []
    · rw [if_pos (by rw [nil]; rfl), if_pos nil]
      refine ⟨?_, fun m ne => (rxc?_withRxc_other f2 s1 ne).trans (others1 m ne), ?_, ?_⟩
      · rw [frame1]
        rfl
      · rw [rxc?_withRxc_same, own1, Option.map_some, noise, nexts]
      · rw [frame1]
        rfl
    · rw [if_neg (by rw [List.isEmpty_iff]; exact nil), if_neg nil]
      refine ⟨?_, others1, ?_, ?_⟩
      · rw [frame1]
      · rw [own1, nexts]
      · rw [frame1]

end Sys2Proof.Machine
end

section
/-! SUPPORT. The segments of a capture (R343), and the reception of one channel (R162 to R199). -/

namespace Sys2Proof.Machine

open Sys2Proof

set_option Elab.async false

/-! ### Captures (R343) -/

/-- But for the backlog and the flushes, the figures, the host interface and the counters. -/
def sansBacklog (s : State) : State :=
  { s with figs := [], hif := Hif.reset, counters := [], bce := { s.bce with backlog := [], flushes := [] } }

theorem backlogMoved_agree (old : Nat) (s : State) : Agree sansBacklog s (backlogMoved old s) := by
  have high : Agree sansBacklog s (keepHigh .backlogHigh (backlogBytes s) s) := by
    rw [keepHigh_frame]
    rfl
  unfold backlogMoved
  exact .ite (high.trans (crossed_hifOnly ..).agree) (high.trans (noticeLive_hifOnly ..).agree)

theorem finishFlushes_agree (s : State) : Agree sansBacklog s (finishFlushes s) :=
  Agree.trans (t := withBce _ s) (by rfl) (.foldl (fun _ _ => (completeHeld_hifOnly ..).agree) _ _)

theorem countRecDrop_agree (e : BacklogSeg) (s : State) : Agree sansBacklog s (countRecDrop e s) :=
  Agree.trans (t := withBce _ s) (by rfl) (bump_hifOnly ..).agree

theorem Agree.pick {blank : State → State} {s : State} {c : Prop} [Decidable c] {x y : State × Bool} (h : Agree blank s x.1)
    (k : Agree blank s y.1) : Agree blank s (if c then x else y).1 := by
  split <;> assumption

theorem enterBacklog_agree (e : BacklogSeg) (s : State) : Agree sansBacklog s (enterBacklog e s).1 := by
  have dropped (u : State) : Agree sansBacklog u (finishFlushes (countRecDrop e u)) :=
    (countRecDrop_agree e u).trans (finishFlushes_agree _)
  obtain ⟨v, entered⟩ : ∃ v, v = withBce (fun b => { b with backlog := b.backlog ++ [e] }) s := ⟨_, rfl⟩
  have first : Agree sansBacklog s v := entered ▸ by rfl
  unfold enterBacklog
  rw [← entered]
  refine .pick ?_ (.pick (dropped s) ?_)
  · cases segRing s e with
    | none => exact dropped s
    | some n => exact (bump_hifOnly .rxRingToobig n s).agree.trans (dropped _)
  · refine Agree.trans ?_ (backlogMoved_agree ..)
    cases segRing s e with
    | none => exact first
    | some n => exact Agree.trans (.ite (first.trans (withRing_hifOnly ..).agree) first) (starvedLive_hifOnly ..).agree

theorem progress_hifOnly (i p : Nat) (s : State) : HifOnly s (progress i p s) := by
  have moved : HifOnly s (withLong i (fun o => { o with position := max o.position p }) s) := .of _ _ _
  unfold progress
  dsimp only
  split
  · exact moved
  · refine .ite (moved.trans ?_) moved
    unfold raiseProgress
    split
    · exact .refl _
    · exact HifOnly.trans (.of _ _ _) (raise_hifOnly ..)

/-- The capture of a channel after a segment of it has closed. -/
theorem captureSegment_spec (n count : Nat) (k : Capture) (s : State) :
    let u := captureSegment n count k s
    (∀ m, m ≠ n → FMap.get? u.bce.captures m = FMap.get? s.bce.captures m) ∧ u.rxcs = s.rxcs ∧ u.links = s.links ∧
      (k.ending = true ∨ k.left ≤ count → FMap.get? u.bce.captures n = none ∧ longOp? u k.opId = none) ∧
      (k.ending = false → count < k.left → ∃ g stamp, FMap.get? u.bce.captures n =
        some { k with left := k.left - count, done := k.done + count, segNo := k.segNo + 1, first := false, gap := g,
                      stamp := stamp, buf := k.buf.drop count }) := by
  intro u
  obtain ⟨e, segment⟩ : ∃ e : BacklogSeg, e =
    ⟨k.ring, n, radioSegment n k (k.ending || decide (k.left ≤ count)) (k.buf.take count), []⟩ := ⟨_, rfl⟩
  obtain ⟨s2, moved⟩ : ∃ s2, s2 = progress k.opId (k.done + count) (enterBacklog e s).1 := ⟨_, rfl⟩
  have agree : Agree sansBacklog s s2 := moved ▸ (enterBacklog_agree e s).trans (progress_hifOnly ..).agree
  have captures : s2.bce.captures = s.bce.captures := agree.field (fun v => v.bce.captures)
  by_cases last : k.ending = true ∨ k.left ≤ count
  · have cond : (k.ending || decide (k.left ≤ count)) = true := by simpa using last
    have ends : u = endLong k.opId (if k.left ≤ count then St.ok else St.aborted) []
        (withBce (fun b => { b with captures := FMap.del b.captures n }) s2) := by
      rw [moved, segment]
      exact if_pos cond
    have only := endLong_hifOnly k.opId (if k.left ≤ count then St.ok else St.aborted) []
      (withBce (fun b => { b with captures := FMap.del b.captures n }) s2)
    rw [← ends] at only
    have left : u.bce.captures = FMap.del s.bce.captures n := by
      rw [only.field (fun v => v.bce.captures), ← captures]
      rfl
    refine ⟨fun m ne => ?_, ?_, ?_, fun _ => ⟨?_, ?_⟩, fun goes short => ?_⟩
    · rw [left, FMap.get?_del_other _ _ _ ne]
    · exact (only.field State.rxcs).trans (agree.field State.rxcs)
    · exact (only.field State.links).trans (agree.field State.links)
    · rw [left, FMap.get?_del_same]
    · rw [ends]
      exact longOp?_endLong ..
    · rcases last with ending | low
      · exact absurd (goes.symm.trans ending) (by decide)
      · exact absurd short (Nat.not_lt.mpr low)
  · have cond : ¬ (k.ending || decide (k.left ≤ count)) = true := by simpa using last
    obtain ⟨g, gap⟩ : ∃ g, g = if (enterBacklog e s).2 then k.gap + 1 else 0 := ⟨_, rfl⟩
    obtain ⟨per, period⟩ : ∃ p : Int, p = match rxc? s n with | some c => 65536 * sampleNs c.p.bw | none => 0 := ⟨_, rfl⟩
    obtain ⟨k1, next⟩ : ∃ k1 : Capture, k1 = { k with
      left := k.left - count, done := k.done + count, segNo := k.segNo + 1, first := false, gap := g, stamp := k.stamp + per * count
      buf := k.buf.drop count } := ⟨_, rfl⟩
    have goes : u = withBce (fun b => { b with captures := FMap.set b.captures n k1 }) s2 := by
      rw [moved, next, gap, period, segment]
      exact if_neg cond
    have left : u.bce.captures = FMap.set s.bce.captures n k1 := by
      rw [goes, ← captures]
      rfl
    refine ⟨fun m ne => ?_, ?_, ?_, fun yes => absurd yes last, fun _ _ => ⟨g, k.stamp + per * count, ?_⟩⟩
    · rw [left, FMap.get?_set_other _ _ _ _ ne]
    · rw [goes]
      exact agree.field State.rxcs
    · rw [goes]
      exact agree.field State.links
    · rw [left, FMap.get?_set_same, next]

/-! ### O32 -/

/-- Settles O32: windows, rounds, headers, ends and segments, each by its lemma. -/
theorem receptionGoesByItsWindows : Obligations.ReceptionGoesByItsWindows := by
  unfold Obligations.ReceptionGoesByItsWindows
  intro s n t up s1
  have live : alive s1 = true := up
  refine ⟨fun c sfs held => ?detect, fun c data sf w => ?run, fun c q held wf => ⟨fun i h events => ?header, fun l a peak clip uns events small
    data => ?window, fun free => ?newcomer⟩, fun c f w held modeE data floor => ?energy, fun c l b held trig past => ?span,
    fun i e scale found header enough => ?decode, fun c e i header held found first => ?step,
    fun c e i scale q lag held found payload taken near => ?frameEnd, fun c e i d q corr held found bad clean => ?crc,
    fun k count held fits full => ?segment, fun sf l low high whole => ?interleaver⟩
  case detect =>
    have runs : exec (.detectWindow n sfs t) s = .next (detect n sfs s1) := by
      change Host.Outcome.next (onlyIf (alive s1) (detect n sfs s1) s1) = _
      rw [live]
      rfl
    have reach := detect_reach n sfs s1
    have single {c : Rxc} {sf : Nat} {w : List OutSample} := detect_single (n := n) (sf := sf) (s := s1) (c := c) (w := w)
    obtain ⟨u, found⟩ : ∃ u, u = detect n sfs s1 := ⟨_, rfl⟩
    rw [← found] at reach runs
    obtain ⟨d, own, shape, ids⟩ := reach.channel (show rxc? s1 n = some c from held)
    refine ⟨_, runs, ?_, reach.others, d, own, shape, ids, fun sf w nil one low high on_ window => ?_⟩
    · exact reach.frame.frame (fun v => { v with rxcs := u.rxcs, radio := u.radio })
    · rw [found, one]
      exact single held nil low high on_ window
  case run =>
    intro bins r hit
    obtain ⟨sf_, next, miss, joined⟩ := runNext_spec c data sf w
    have iff : hit ↔ c.hit data sf w = true := by
      simp only [hit, Rxc.hit, Bool.and_eq_true, List.all_eq_true, Bool.not_eq_true', and_assoc]
      rfl
    refine ⟨next, fun no => miss (by simpa using fun yes => no (iff.mpr yes)), fun yes => joined (iff.mp yes), fun k => ?_⟩
    have same : r.sf = sf := sf_
    rw [qualifies_iff, same]
  case header => exact radioRound_header held wf events
  case window =>
    refine radioRound_window held wf events small ?_
    rw [inData_detection]
    exact data
  case newcomer => exact preambleQualified_spec held free
  case energy =>
    intro len window settled p
    have runs : exec (.energyWindow n c.energyAt len t) s = .next (energy n w s1) := by
      change execEnergyWindow n c.energyAt len t s = _
      unfold execEnergyWindow
      dsimp only
      rw [show rxc? s1 n = some c from held]
      dsimp only
      rw [window]
      dsimp only
      rw [live, modeE, decide_eq_true (rfl : c.energyAt = c.energyAt), decide_eq_true (rfl : len = winLen (lowSf c.p.sfMask))]
      rfl
    obtain ⟨frame, others, own, counters⟩ := energy_spec (s := s1) held data floor settled
    refine ⟨_, runs, frame, others, own, ?_⟩
    rw [counters, show antAt s1 c.p.link c.p.antenna = antAt s c.p.link c.p.antenna from rfl]
    split <;> rfl
  case span =>
    intro s2
    obtain ⟨u, made⟩ : ∃ u, u = if b then s1 else bump .detENoconfirm n s1 := ⟨_, rfl⟩
    have same : FMap.get? u.rxcs n = some c := by
      rw [made]
      split <;> exact held
    have rxcs : u.rxcs = s.rxcs := by
      rw [made]
      split <;> rfl
    have runs : exec (.energySpanExpiry n t) s = .next (withRxc n (fun d => { d with trig := none }) u) := by
      change execEnergySpanExpiry n t s = _
      unfold execEnergySpanExpiry
      dsimp only
      rw [show rxc? s1 n = some c from held]
      dsimp only
      rw [trig]
      dsimp only
      rw [live, decide_eq_true past, made]
      rfl
    rw [runs]
    change Host.Outcome.next { u with rxcs := FMap.adj u.rxcs n (fun d => { d with trig := none }) } = _
    rw [FMap.adj_of_get? _ same, rxcs, made]
  case decode =>
    change execHeaderResult n i scale t s = _
    unfold execHeaderResult
    dsimp only
    rw [show reception? s1 n i = some e from found]
    dsimp only
    rw [live, decide_eq_true header, decide_eq_true enough]
    rfl
  case step =>
    intro u
    obtain ⟨reach, silent⟩ := headerStep_reach (h := header) held found
    have in_ : e ∈ c.recs := List.mem_of_find?_eq_some first
    have of : e.id = i := by simpa using List.find?_some first
    refine ⟨reach.eq, fun m ne => reach.other ne, { c with recs := afterHeader i header c.recs }, ?_, rfl, fun bad => ?_, fun good => ?_⟩
    · rw [reach.own, held]
      rfl
    · exact if_neg bad
    · have passes : afterHeader i header c.recs = c.recs.map (fun e => if e.id = i then e.passed header else e) := if_pos good
      refine ⟨silent good, ?_, e.passed header, ?_, rfl, rfl, rfl⟩
      · rw [passes, List.length_map]
      · rw [passes]
        exact List.mem_map.mpr ⟨e, in_, if_pos of⟩
  case frameEnd =>
    have rec_ : reception? s1 n i = some e := by
      change (rxc? s n).bind _ = _
      rw [held]
      exact found
    obtain ⟨corr, late, runs⟩ : ∃ corr late, exec (.rxFrameEnd n i scale e.sf q e.len lag t) s =
        .next (presentRadio (.frameEnd n i (decodeBlock e.sf e.cr scale (e.len + 4)
          ((e.soft.drop (headerSymbols e.sf)).take (payloadSymbols e.sf e.cr e.len))) q corr late t)
          (withRxc n (fun c => { c with recs := c.recs.map (fun x => if x.id = i then { x with phase := .over } else x) }) s1)) := by
      refine ⟨corrected e.sf 0 e.header (e.soft.take (headerSymbols e.sf)) + corrected e.sf e.cr (decodeBlock e.sf e.cr scale (e.len + 4)
          ((e.soft.drop (headerSymbols e.sf)).take (payloadSymbols e.sf e.cr e.len)))
          ((e.soft.drop (headerSymbols e.sf)).take (payloadSymbols e.sf e.cr e.len)),
        decide (c.stampAt e.next + 65536 * ((chainDelayPs (fsHz s1 c.p.link) c.p.bw c.p.preset / 1000 + (2 + lag) * symbolNs e.sf c.p.bw
          + 200000 : Nat) : Int) < 65536 * (devOf s1 t : Int)), ?_⟩
      · change execRxFrameEnd n i scale e.sf q e.len lag t s = _
        unfold execRxFrameEnd
        dsimp only
        rw [rec_, show rxc? s1 n = some c from held]
        dsimp only
        rw [live, decide_eq_true payload, taken, decide_eq_true (rfl : e.sf = e.sf),
          decide_eq_true (rfl : e.len = e.len), decide_eq_true near]
        rfl
    refine ⟨_, runs, rfl, ?_, corr, late, rfl⟩
    change rxc? (withRxc n _ s1) n = _
    rw [rxc?_withRxc_same, show rxc? s1 n = some c from held]
    rfl
  case crc =>
    unfold endReception
    rw [held]
    dsimp only [Option.bind_some]
    rw [found]
    dsimp only
    rw [if_neg bad, if_pos (by rw [clean, Bool.not_false, Bool.or_true]), if_neg Bool.false_ne_true]
  case segment =>
    have runs : exec (.captureSegment n k.segNo count t) s = .next (captureSegment n count k s1) := by
      have ok : (decide (k.segNo = k.segNo) && decide (count ≤ k.buf.length) &&
          (if k.ending = true then decide (count = min (min 2048 k.left) k.buf.length) else decide (count = min 2048 k.left))) = true := by
        rw [decide_eq_true (rfl : k.segNo = k.segNo), decide_eq_true fits]
        cases ending : k.ending with
        | true =>
          rw [ending] at full
          rw [if_pos rfl, decide_eq_true (full.trans (if_pos rfl))]
          rfl
        | false =>
          rw [ending] at full
          rw [if_neg (by decide), decide_eq_true (full.trans (if_neg (by decide)))]
          rfl
      change execCaptureSegment n k.segNo count t s = _
      unfold execCaptureSegment
      dsimp only
      rw [show FMap.get? s1.bce.captures n = some k from held]
      dsimp only
      rw [live]
      exact congrArg Host.Outcome.next (if_pos (by simpa using ok))
    exact ⟨_, runs, captureSegment_spec n count k s1⟩
  case interleaver =>
    intro value
    exact deinterleave_interleave low whole

end Sys2Proof.Machine
end

section
/-! SUPPORT. One Ethernet port (R362 to R374): what each step of a port leaves of the other ports and of the device, and the
reach of a new choice of references (R381). -/

namespace Sys2Proof.Machine

open Sys2Proof

set_option Elab.async false

/-! ### The timebase's references -/

/-- The clock but for the references it follows. -/
def Clock.sansRefs (c : Clock) : Clock :=
  { c with phaseRef := 0, freqRef := 0, tbuState := 0, everLocked := false, freqCorr := 0, refGone := none, refSince := [] }

/-- But for the references, the free choices, the host interface and the counters. -/
def sansRefs (s : State) : State := { s with clk := s.clk.sansRefs, free := 0, hif := Hif.reset, counters := [] }

theorem withClk_refs {f : Clock → Clock} (s : State) (only : (f s.clk).sansRefs = s.clk.sansRefs) : Agree sansRefs s (withClk f s) := by
  unfold Agree sansRefs withClk
  rw [only]

theorem refChanged_hifOnly (kind old new : Nat) (s : State) : HifOnly s (refChanged kind old new s) := by
  unfold refChanged
  exact .ite (.refl s) (raise_hifOnly ..)

/-- Following two references changes the clock and tells of it. -/
theorem followRefs_cases (ph fr : Nat) (s : State) : ∃ u, (∃ f k, (f s.clk).sansRefs = s.clk.sansRefs ∧ withClk f { s with free := k } = u) ∧
    ∃ a b v, ∃ w, w = refChanged 1 s.clk.freqRef fr (refChanged 0 a b u) ∧
      (followRefs ph fr s = crossed Ev.timeHoldover 0 0 v none false w ∨
        ∃ x l, followRefs ph fr s = noticeLive Ev.timeHoldover 0 false x l w) := by
  have drawn (b : Bool) : ∃ k, (if b = true then (drawNat s).2 else s) = { s with free := k } := by
    cases b
    · exact ⟨_, rfl⟩
    · exact ⟨_, rfl⟩
  obtain ⟨k, draw⟩ := drawn (decide (ph ≠ 0) || decide (fr ≠ 0))
  obtain ⟨x, hx⟩ : ∃ x, x = followRefs ph fr s := ⟨_, rfl⟩
  rw [← hx]
  unfold followRefs at hx
  dsimp only at hx
  rw [draw] at hx
  generalize hu : withClk _ _ = u at hx
  refine ⟨u, ⟨_, k, ?_, hu⟩, ?_⟩
  · rfl
  rcases eq_ite_iff.mp hx with ⟨-, eq⟩ | ⟨-, eq⟩
  · exact ⟨_, _, _, _, rfl, .inl eq⟩
  · exact ⟨_, _, 0, _, rfl, .inr ⟨_, _, eq⟩⟩

theorem followRefs_refs (ph fr : Nat) (s : State) : Agree sansRefs s (followRefs ph fr s) := by
  obtain ⟨u, ⟨f, k, only, hu⟩, a, b, v, w, hw, tells⟩ := followRefs_cases ph fr s
  have start : Agree sansRefs s u := hu ▸ withClk_refs { s with free := k } only
  have told : Agree sansRefs s w := start.trans (hw ▸ ((refChanged_hifOnly ..).trans (refChanged_hifOnly ..)).agree)
  rcases tells with eq | ⟨x, l, eq⟩
  · exact told.trans (eq ▸ (crossed_hifOnly ..).agree)
  · exact told.trans (eq ▸ (noticeLive_hifOnly ..).agree)

theorem settleRefs_refs (s : State) : Agree sansRefs s (settleRefs s) := by
  unfold settleRefs
  exact .ite ((withClk_refs s rfl).trans (followRefs_refs ..)) (.refl s)

/-- Choosing the references anew changes the clock only, or follows the two that are chosen. -/
theorem updateRefs_cases (s : State) : ∃ u, (u = settleRefs s ∨ u = s) ∧
    ∃ v, Agree sansRefs u v ∧ v.hif = u.hif ∧ (updateRefs s = v ∨ ∃ ph fr, updateRefs s = followRefs ph fr v) := by
  obtain ⟨x, hx⟩ : ∃ x, x = updateRefs s := ⟨_, rfl⟩
  rw [← hx]
  unfold updateRefs at hx
  dsimp only at hx
  obtain ⟨u, hu⟩ : ∃ u, u = if s.clk.refGone.any (fun t => decide (t < now s)) = true then settleRefs s else s := ⟨_, rfl⟩
  rw [← hu] at hx
  refine ⟨u, ?_, ?_⟩
  · rw [hu]
    split
    · exact .inl rfl
    · exact .inr rfl
  · rcases eq_ite_iff.mp hx with ⟨-, eq⟩ | ⟨-, eq⟩
    · exact ⟨x, by rw [eq]; rfl, by rw [eq]; rfl, .inl rfl⟩
    · exact ⟨_, by rfl, by rfl, .inr ⟨_, _, eq⟩⟩

theorem updateRefs_refs (s : State) : Agree sansRefs s (updateRefs s) := by
  obtain ⟨u, start, v, only, told, ends⟩ := updateRefs_cases s
  have first : Agree sansRefs s u := by
    rcases start with eq | eq
    · exact eq ▸ settleRefs_refs s
    · rw [eq]
      exact .refl s
  rcases ends with eq | ⟨ph, fr, eq⟩
  · rw [eq]
    exact first.trans only
  · rw [eq]
    exact (first.trans only).trans (followRefs_refs ..)

/-- The notices of every code but that of the loss of the last reference stand. -/
theorem notice?_noticeLive_other {c k : Nat} (o p : Nat) (m q : Bool) (v : Option Int) (l : Bool) (s : State) (ne : k ≠ c) :
    notice? (noticeLive c o m v l s) k p q = notice? s k p q := by
  unfold noticeLive
  rw [notice?_withNotices_map]
  · cases here : notice? s k p q with
    | none => rfl
    | some x =>
      have is := List.find?_some here
      simp only [Bool.and_eq_true, beq_iff_eq] at is
      rw [Option.map_some, if_neg]
      simp [is.1.1, ne]
  · intro n
    split
    · rfl
    · rfl

theorem notice?_refChanged (kind old new k p : Nat) (q : Bool) (s : State) :
    notice? (refChanged kind old new s) k p q = notice? s k p q := by
  unfold refChanged
  split
  · rfl
  · exact (raise_told ..).notice? ..

theorem notice?_followRefs {k : Nat} (ph fr p : Nat) (q : Bool) (s : State) (ne : k ≠ Ev.timeHoldover) :
    notice? (followRefs ph fr s) k p q = notice? s k p q := by
  obtain ⟨u, ⟨f, m, -, hu⟩, a, b, v, w, hw, tells⟩ := followRefs_cases ph fr s
  have told : notice? w k p q = notice? s k p q := by
    rw [hw, notice?_refChanged, notice?_refChanged, ← hu]
    rfl
  rw [← told]
  rcases tells with eq | ⟨x, l, eq⟩
  · rw [eq, crossed, notice?_crossing_other _ _ _ _ _ _ _ _ _ _ ne]
  · rw [eq, notice?_noticeLive_other _ _ _ _ _ _ _ ne]

theorem notice?_updateRefs {k : Nat} (p : Nat) (q : Bool) (s : State) (ne : k ≠ Ev.timeHoldover) :
    notice? (updateRefs s) k p q = notice? s k p q := by
  have settled : notice? (settleRefs s) k p q = notice? s k p q := by
    unfold settleRefs
    split
    · exact notice?_followRefs _ _ _ _ _ ne
    · rfl
  obtain ⟨u, start, v, only, told, ends⟩ := updateRefs_cases s
  have first : notice? u k p q = notice? s k p q := by
    rcases start with eq | eq
    · rw [eq, settled]
    · rw [eq]
  rw [← first]
  have same : notice? v k p q = notice? u k p q := by rw [notice?, told, notice?]
  rcases ends with eq | ⟨ph, fr, eq⟩
  · rw [eq, same]
  · rw [eq, notice?_followRefs _ _ _ _ _ ne, same]

/-! ### Access to a port -/

theorem ethPort_withPort_same (n : Nat) (f : EthPort → EthPort) (s : State) : ethPort (withPort n f s) n = f (ethPort s n) := by
  rw [ethPort, withPort, FMap.getD, FMap.get?_set_same, Option.getD_some]

theorem ethPort_withPort_other {n m : Nat} (f : EthPort → EthPort) (s : State) (ne : m ≠ n) :
    ethPort (withPort n f s) m = ethPort s m := by
  rw [ethPort, withPort, FMap.getD, FMap.get?_set_other _ _ _ _ ne]
  rfl

/-! ### The reach of a port -/

/-- But for the ports, the figures, the clock, the free choices, the host interface and the counters. -/
def sansPort (s : State) : State :=
  { s with eth := [], figs := [], clk := Clock.reset, free := 0, hif := Hif.reset, counters := [] }

/-- `t` is `s` but for port `n`, figures, clock, free choices, the host interface and the counters. -/
structure PortReach (n : Nat) (s t : State) : Prop where
  agree : Agree sansPort s t
  others : ∀ m, m ≠ n → ethPort t m = ethPort s m

section
variable {n : Nat} {s t u : State}

theorem PortReach.refl (n : Nat) (s : State) : PortReach n s s := ⟨rfl, fun _ _ => rfl⟩

theorem PortReach.trans (h : PortReach n s t) (k : PortReach n t u) : PortReach n s u :=
  ⟨h.agree.trans k.agree, fun m ne => (k.others m ne).trans (h.others m ne)⟩

theorem PortReach.ite {c : Prop} [Decidable c] (h : PortReach n s t) (k : PortReach n s u) : PortReach n s (if c then t else u) := by
  split <;> assumption

theorem PortReach.foldl {α : Type} {f : State → α → State} (reach : ∀ t a, PortReach n t (f t a)) (l : List α) (s : State) :
    PortReach n s (l.foldl f s) := by
  induction l generalizing s with
  | nil => exact .refl n s
  | cons a r ih => exact (reach s a).trans (ih _)

theorem PortReach.withPort (n : Nat) (f : EthPort → EthPort) (s : State) : PortReach n s (withPort n f s) :=
  ⟨rfl, fun _ ne => ethPort_withPort_other f s ne⟩

/-- Where the ports stay, only the rest need agree. -/
theorem PortReach.of_agree (n : Nat) (agree : Agree sansPort s t) (eth : t.eth = s.eth) : PortReach n s t :=
  ⟨agree, fun _ _ => by rw [ethPort, eth, ethPort]⟩

theorem HifOnly.portReach (only : HifOnly s t) (n : Nat) : PortReach n s t := .of_agree n only.agree (only.field (·.eth))

theorem updateRefs_portReach (n : Nat) (s : State) : PortReach n s (updateRefs s) :=
  .of_agree n ((updateRefs_refs s).weaken) ((updateRefs_refs s).field (·.eth))

theorem addFig_portReach (n : Nat) (f : Fig) (o k : Nat) (v : Int) (s : State) : PortReach n s (addFig f o k v s) :=
  .of_agree n rfl rfl

end

theorem HifOnly.ethPort {s t : State} (only : HifOnly s t) (n : Nat) : ethPort t n = ethPort s n := only.field (Machine.ethPort · n)

/-! ### Frames that leave a port -/

theorem dropDown_hifOnly (p : Nat) (f : TxFrame) (s : State) : HifOnly s (dropDown p f s) :=
  (bump_hifOnly ..).trans (endPtx_hifOnly ..)

theorem dropQueued_spec (n : Nat) (s : State) :
    PortReach n s (dropQueued n s) ∧ ethPort (dropQueued n s) n = { ethPort s n with fifos := [] } := by
  have only (l : List (List TxFrame)) (u : State) : HifOnly u (l.foldl (fun t l => l.foldl (fun u f => dropDown n f u) t) u) :=
    .foldl (fun t l => .foldl (fun u f => dropDown_hifOnly n f u) l t) l u
  unfold dropQueued
  refine ⟨(PortReach.withPort ..).trans ((only ..).portReach n), ?_⟩
  rw [(only ..).ethPort, ethPort_withPort_same]

theorem beginWake_spec (n : Nat) (t : Ns) (s : State) :
    PortReach n s (beginWake n t s) ∧ ethPort (beginWake n t s) n =
      if (ethPort s n).lpiTx then { ethPort s n with lpiTx := false, wakeAt := some (t + (ethPort s n).lpiTw) } else ethPort s n := by
  unfold beginWake
  dsimp only
  split
  · exact ⟨(PortReach.withPort ..).trans (addFig_portReach ..),
      ethPort_withPort_same n (fun e => { e with lpiTx := false, wakeAt := some (t + e.lpiTw) }) s⟩
  · exact ⟨.refl n s, rfl⟩

/-- The port once what it was sending, and the gap, have ended. -/
def wireEnded (w : OnWire) (e : EthPort) : EthPort :=
  { e with onWire := none, lastTx := w.stop, sent := (w.start, w.tc, w.frame.data) :: e.sent }

theorem wireDone_of_free {n : Nat} {s : State} (t : Ns) (free : (ethPort s n).onWire = none) : wireDone n t s = s := by
  unfold wireDone
  rw [free]

theorem wireDone_of_sending {n : Nat} {t : Ns} {s : State} {w : OnWire} (sending : (ethPort s n).onWire = some w) (early : t < w.stop) :
    wireDone n t s = s := by
  unfold wireDone
  rw [sending]
  exact if_pos early

theorem wireDone_of_sent {n : Nat} {t : Ns} {s : State} {w : OnWire} (sending : (ethPort s n).onWire = some w) (late : w.stop ≤ t) :
    PortReach n s (wireDone n t s) ∧ ethPort (wireDone n t s) n = wireEnded w (ethPort s n) := by
  unfold wireDone
  rw [sending]
  dsimp only
  rw [if_neg (Nat.not_lt.mpr late)]
  obtain ⟨u, hu⟩ : ∃ u, u = addFig .ethTxOctets n w.tc (w.frame.data.length + 4) (addFig .ethTxFrames n w.tc 1
      (withPort n (wireEnded w) s)) := ⟨_, rfl⟩
  have reach : PortReach n s u := hu ▸ ((PortReach.withPort ..).trans (addFig_portReach ..)).trans (addFig_portReach ..)
  have own : ethPort u n = wireEnded w (ethPort s n) := hu ▸ ethPort_withPort_same n (wireEnded w) s
  unfold wireEnded at hu
  rw [← hu]
  have stamped : PortReach n s (if w.frame.ts then txStamp u n w.octet w.start else (0, u)).2 ∧
      ethPort (if w.frame.ts then txStamp u n w.octet w.start else (0, u)).2 n = wireEnded w (ethPort s n) := by
    split
    · exact ⟨reach.trans (.of_agree n (by rfl) (by rfl)), own⟩
    · exact ⟨reach, own⟩
  refine ⟨stamped.1.trans ((endPtx_hifOnly ..).portReach n), ?_⟩
  rw [(endPtx_hifOnly ..).ethPort]
  exact stamped.2

theorem wireDone_portReach (n : Nat) (t : Ns) (s : State) : PortReach n s (wireDone n t s) := by
  cases sending : (ethPort s n).onWire with
  | none =>
    rw [wireDone_of_free t sending]
    exact .refl n s
  | some w =>
    rcases Nat.lt_or_ge t w.stop with early | late
    · rw [wireDone_of_sending sending early]
      exact .refl n s
    · exact (wireDone_of_sent sending late).1

end Sys2Proof.Machine
end

section
/-! OBLIGATION. Settings of Ethernet ports (O40). -/

namespace Sys2Proof.Machine

open Sys2Proof

set_option Elab.async false

/-! ### A write of ETH_PORT_CFG -/

theorem regAt_ethPortCfg {n : Nat} (small : n < 32) : regAt (regOff .ethPortCfg n) = some (.ethPortCfg, n) := by
  have all : ∀ k, k < 32 → regAt (regOff .ethPortCfg k) = some (.ethPortCfg, k) := by decide +kernel
  exact all n small

/-- The mode that an unlocked write gives a port is the mode of the value written. -/
theorem mode_mergeWrite_zero (old v : BitVec 32) (off : bits v.toNat 2 0 = 0) :
    bits (mergeWrite .ethPortCfg false old v).toNat 2 0 = 0 := by
  have clear (i : Nat) (low : i < 3) : v.getLsbD i = false := by
    have tested := Nat.testBit_mod_two_pow v.toNat 3 i
    have off : v.toNat % 2 ^ 3 = 0 := by simpa [bits] using off
    rw [off, Nat.zero_testBit, decide_eq_true low, Bool.true_and] at tested
    exact tested.symm
  have covered (i : Nat) (low : i < 3) : (writeMask .ethPortCfg false).getLsbD i = true := by
    have all : ∀ k, k < 3 → (writeMask .ethPortCfg false).getLsbD k = true := by decide +kernel
    exact all i low
  have zero : (mergeWrite .ethPortCfg false old v).toNat % 2 ^ 3 = 0 := by
    refine Nat.eq_of_testBit_eq (fun i => ?_)
    rw [Nat.testBit_mod_two_pow, Nat.zero_testBit, Bool.and_eq_false_iff, decide_eq_false_iff_not]
    by_cases low : i < 3
    · refine .inr ?_
      change (mergeWrite .ethPortCfg false old v).getLsbD i = false
      unfold mergeWrite
      simp only [BitVec.getLsbD_and, BitVec.getLsbD_or, BitVec.getLsbD_not, clear i low, covered i low]
      simp
    · exact .inl low
  simpa [bits] using zero

/-- A write of ETH_PORT_CFG that is served, unlocked and in range is taken. -/
theorem barWrite_ethPortCfg {n : Nat} {v : BitVec 32} {s : State} (small : n < 32) (served : barOpen s = true)
    (unlocked : setupLocked s = false)
    (fits : inRange .ethPortCfg (mergeWrite .ethPortCfg false (regVal s .ethPortCfg n) v) = true)
    (passes : regCondOk s .ethPortCfg n (regVal s .ethPortCfg n) (mergeWrite .ethPortCfg false (regVal s .ethPortCfg n) v) = true) :
    barWrite (regOff .ethPortCfg n) v s = regAfter .ethPortCfg n (regVal s .ethPortCfg n)
      (mergeWrite .ethPortCfg false (regVal s .ethPortCfg n) v)
      (setReg s .ethPortCfg n (mergeWrite .ethPortCfg false (regVal s .ethPortCfg n) v)) := by
  have low : ¬ 0xF0000 ≤ regOff .ethPortCfg n := by
    simp only [regOff, regRow]
    omega
  have plain : accMask .ethPortCfg .wo = 0#32 := by decide +kernel
  have stored : ¬ (accMask .ethPortCfg .rw ||| accMask .ethPortCfg .rwl ||| accMask .ethPortCfg .w1c) = 0 := by decide +kernel
  have taken : checkedWrite .ethPortCfg n false v s = regAfter .ethPortCfg n (regVal s .ethPortCfg n)
      (mergeWrite .ethPortCfg false (regVal s .ethPortCfg n) v)
      (setReg s .ethPortCfg n (mergeWrite .ethPortCfg false (regVal s .ethPortCfg n) v)) := by
    unfold checkedWrite
    dsimp only
    rw [plain, BitVec.and_zero, BitVec.or_zero, fits, passes]
    rfl
  unfold barWrite
  rw [if_neg low, regAt_ethPortCfg small]
  dsimp only
  rw [regServed, served, Bool.true_or, if_pos rfl]
  change (if (accMask .ethPortCfg .rw ||| accMask .ethPortCfg .rwl ||| accMask .ethPortCfg .w1c) = 0 then s
    else storedWrite .ethPortCfg n v s) = _
  rw [if_neg stored, ← taken]
  unfold storedWrite
  rw [unlocked, Bool.false_and]
  rfl

/-- A port that goes to mode DISABLED. -/
theorem stopPort_spec (n : Nat) (s : State) :
    PortReach n s (stopPort n s) ∧ (ethPort (stopPort n s) n).linkUp = false ∧ (ethPort (stopPort n s) n).fifos = [] := by
  unfold stopPort
  dsimp only
  generalize hu : beginWake n (now s) (wireDone n (now s) s) = u
  have waked : PortReach n s u := hu ▸ (wireDone_portReach ..).trans (beginWake_spec ..).1
  obtain ⟨v, hv⟩ : ∃ v, v = withPort n (fun e => { e with linkUp := false, wakeAt := none }) u := ⟨_, rfl⟩
  rw [← hv]
  obtain ⟨dropped, own⟩ := dropQueued_spec n v
  have told := noticeLive_hifOnly Ev.ethLinkDown n false none false (dropQueued n v)
  have downs : ethPort v n = { ethPort u n with linkUp := false, wakeAt := none } := hv ▸ ethPort_withPort_same ..
  have last : ethPort (updateRefs (noticeLive Ev.ethLinkDown n false none false (dropQueued n v))) n =
      { ethPort v n with fifos := [] } := by
    rw [(updateRefs_refs _).field (Machine.ethPort · n), told.ethPort, own]
  refine ⟨((waked.trans (hv ▸ .withPort ..)).trans dropped).trans ((told.portReach n).trans (updateRefs_portReach ..)), ?_, ?_⟩
  · rw [last, downs]
  · rw [last]

theorem ethMode_setReg (n : Nat) (v : BitVec 32) (s : State) : ethMode (setReg s .ethPortCfg n v) n = bits v.toNat 2 0 := by
  rw [ethMode, fld, regVal_setReg_same]

/-! ### The commands and steps -/

/-- Settles O40: each command leaves its port changed; a switch follows its instant; the write that disables a port stops it. -/
theorem ethernetSettings : Obligations.EthernetSettings := by
  unfold Obligations.EthernetSettings
  refine ⟨fun h s => ⟨fun ready ok => ?_, fun ready ok => ?_⟩, fun s n => ⟨fun t g at_ up held due => ?_,
    fun v small served unlocked on off fits passes => ?_, fun f i standby held hit => ?_⟩⟩
  · refine (answers_done rfl ready (checked_of_ok _ _ ok)).trans ?_
    have empty (l : List (BitVec 8 × Nat)) (x : Option GateList) :
        (if l.isEmpty = true then none else x) = if l = [] then none else x := by
      cases l <;> rfl
    unfold setGates
    dsimp only
    rw [empty]
    rfl
  · exact answers_done rfl ready (checked_of_ok _ _ ok)
  · have held' : (ethPort (advance t s) n).pending = some (g, at_) := held
    have runs : exec (.gateListSwitch n t) s = .next (raise Ev.gateListActive none (gateActiveBody n g (devOf (advance t s) at_))
        (withPort n (fun e => { e with gates := g, gateBase := at_, pending := none }) (advance t s))) := by
      change execGateListSwitch n t s = _
      unfold execGateListSwitch
      dsimp only
      rw [held']
      dsimp only
      rw [show alive (advance t s) = true from up, decide_eq_true due]
      rfl
    exact ⟨_, runs, (raise_hifOnly ..).hostOnly⟩
  · have runs : exec (.ethPortDisable n v) s = .next (stopPort n
        (setReg s .ethPortCfg n (mergeWrite .ethPortCfg false (regVal s .ethPortCfg n) v))) := by
      change Host.Outcome.next (onlyIf _ _ _) = _
      rw [decide_eq_true small, decide_eq_true off, barWrite_ethPortCfg small served unlocked fits passes]
      unfold regAfter
      dsimp only
      have stops : (decide (bits (mergeWrite .ethPortCfg false (regVal s .ethPortCfg n) v).toNat 2 0 = 0) &&
          decide (bits (regVal s .ethPortCfg n).toNat 2 0 ≠ 0)) = true := by
        rw [decide_eq_true (mode_mergeWrite_zero _ _ off), decide_eq_true (show bits (regVal s .ethPortCfg n).toNat 2 0 ≠ 0 from on)]
        rfl
      rw [if_pos stops]
      rfl
    refine ⟨_, runs, ?_⟩
    obtain ⟨w, hw⟩ : ∃ w, w = setReg s .ethPortCfg n (mergeWrite .ethPortCfg false (regVal s .ethPortCfg n) v) := ⟨_, rfl⟩
    rw [← hw]
    obtain ⟨reach, down, empty⟩ := stopPort_spec n w
    refine ⟨?_, down, empty, fun m ne => ?_, ?_, ?_⟩
    · rw [reach.agree.field (ethMode · n), hw, ethMode_setReg]
      exact mode_mergeWrite_zero _ _ off
    · rw [reach.others m ne, hw]
      rfl
    · rw [reach.agree.field (·.chans), hw]
      rfl
    · rw [reach.agree.field (·.prp), hw]
      rfl
  · have runs : exec (.wakeMatch n f) s = .next (wakeUp n i f (advance f.time s)) := by
      change execWakeMatch n f s = _
      unfold execWakeMatch
      rw [hit, held, decide_eq_true standby]
      rfl
    exact ⟨_, runs, rfl, rfl⟩

end Sys2Proof.Machine
end

section
/-! SUPPORT. The reach of a received frame of an Ethernet port (R364 to R366, R376): streams, channels and pairs, but no port. -/

namespace Sys2Proof.Machine

open Sys2Proof

set_option Elab.async false

theorem Agree.after {blank : State → State} {s t u : State} (h : Agree blank t u) (k : Agree blank s t) : Agree blank s u := k.trans h

theorem Agree.ite_snd {α : Type} {blank : State → State} {s : State} {a b : α × State} {c : Prop} [Decidable c]
    (h : Agree blank s a.2) (k : Agree blank s b.2) : Agree blank s (if c then a else b).2 := by
  split <;> assumption

theorem Agree.foldl_snd {α β : Type} {blank : State → State} {f : α × State → β → α × State}
    (agree : ∀ a b, Agree blank a.2 (f a b).2) (l : List β) (a : α × State) : Agree blank a.2 (l.foldl f a).2 := by
  induction l generalizing a with
  | nil => exact .refl _
  | cons b r ih => exact (agree a b).trans (ih _)

/-- But for contexts, voice and teleprotection channels, balls, pairs, figures, free choices, the host interface and the counters. -/
def sansStreams (s : State) : State :=
  { s with rtps := [], chans := [], tps := [], tpio := TpIo.reset, prp := [], figs := [], free := 0, hif := Hif.reset, counters := [] }

theorem HifOnly.streams {s t : State} (only : HifOnly s t) : Agree sansStreams s t := only.agree

theorem withRtp_streams (c : Nat) (f : Rtp → Rtp) (s : State) : Agree sansStreams s (withRtp c f s) := rfl

theorem withChan_streams (c : Nat) (f : Chan → Chan) (s : State) : Agree sansStreams s (withChan c f s) := rfl

/-! ### RTP (R87 to R97) -/

theorem flowEvent_streams (code c : Nat) (s : State) : Agree sansStreams s (flowEvent code c s) := by
  unfold flowEvent
  split
  · exact (rtpEvent_hifOnly ..).streams
  · exact withChan_streams ..

theorem keyAge_streams (c dir used : Nat) (s : State) : Agree sansStreams s (keyAge c dir used s) :=
  .ite (crossing_hifOnly ..).streams (.refl s)

theorem restartStream_streams (c : Nat) (s : State) : Agree sansStreams s (restartStream c s) := by
  unfold restartStream
  split
  · exact .refl s
  · exact (bumpN_hifOnly ..).streams.after rfl

theorem dropCandidate_streams (c : Nat) (s : State) : Agree sansStreams s (dropCandidate c s) := by
  unfold dropCandidate
  split
  · exact .refl s
  · exact (bump_hifOnly ..).streams.after rfl

theorem bufferPacket_streams (c : Nat) (ch : Chan) (ext : Nat) (ts : BitVec 32) (marker : Bool) (frames : Nat) (noise : Bool)
    (d : Bytes) (s : State) : Agree sansStreams s (bufferPacket c ch ext ts marker frames noise d s) := by
  unfold bufferPacket
  dsimp only
  split
  · exact .refl s
  · refine .ite rfl ?_
    split
    · exact .ite ((bump_hifOnly ..).streams.after rfl) rfl
    · exact (bump_hifOnly ..).streams.after rfl

theorem telephoneBlock_streams (n : Nat) (ts : BitVec 32) (b : Bytes) (s : State) : Agree sansStreams s (telephoneBlock n ts b s) := by
  unfold telephoneBlock
  dsimp only
  split
  · exact .refl s
  · split
    · exact .ite (.refl s) (.ite rfl rfl)
    · exact .ite (.refl s) (.ite rfl rfl)
    · exact .ite rfl rfl

theorem telephoneEvent_streams (n : Nat) (ts : BitVec 32) (d : Bytes) (s : State) : Agree sansStreams s (telephoneEvent n ts d s) :=
  Agree.foldl_snd (fun _ _ => telephoneBlock_streams ..) (chunksOf 4 d) (ts, s)

theorem acceptRtp_streams (c ext : Nat) (ts : BitVec 32) (clock : Nat) (s : State) : Agree sansStreams s (acceptRtp c ext ts clock s) :=
  (noticeLive_hifOnly ..).streams.after rfl

theorem sequenceRtp_streams (c n : Nat) (ch : Chan) (seq : BitVec 16) (ts : BitVec 32) (marker : Bool) (p : Payload) (d : Bytes)
    (s : State) : Agree sansStreams s (sequenceRtp c n ch seq ts marker p d s) := by
  have go (ext clock : Nat) (mk : Bool) (t : State) : Agree sansStreams t (match p with
      | .audio f noise => bufferPacket c ch ext ts mk f noise d (acceptRtp c ext ts clock t)
      | .events => telephoneEvent n ts d (withRtp c (fun y =>
          { y with recent := ext :: y.recent, evSeqs := ext :: y.evSeqs, repairs := y.repairs.filter (fun r => r.seq != ext) })
          (acceptRtp c ext ts clock t))) := by
    cases p with
    | audio f noise => exact (acceptRtp_streams ..).trans (bufferPacket_streams ..)
    | events => exact ((acceptRtp_streams ..).trans (withRtp_streams ..)).trans (telephoneEvent_streams ..)
  unfold sequenceRtp
  dsimp only
  split
  · exact .refl s
  · split
    · exact go ..
    · refine .ite ?_ (.ite ?_ ?_)
      · split
        · exact .ite (((restartStream_streams ..).trans (flowEvent_streams ..)).trans (go ..))
            ((dropCandidate_streams ..).trans (withRtp_streams ..))
        · exact withRtp_streams ..
      · exact ((dropCandidate_streams ..).trans (withRtp_streams ..)).trans (bump_hifOnly ..).streams
      · exact (dropCandidate_streams ..).trans (go ..)

theorem ssrcCheck_streams (c : Nat) (x : Rtp) (ssrc : BitVec 32) (seq : BitVec 16) (s : State) :
    Agree sansStreams s (ssrcCheck c x ssrc seq s).2 := by
  unfold ssrcCheck
  dsimp only
  refine .ite_snd (.ite_snd rfl (bump_hifOnly ..).streams) ?_
  split
  · rfl
  · exact .ite_snd rfl (.ite_snd (bump_hifOnly ..).streams (.ite_snd ((((dropCandidate_streams ..).trans
      (restartStream_streams ..)).trans (withRtp_streams ..)).trans (flowEvent_streams ..)) ((bump_hifOnly ..).streams.after rfl)))

theorem plainRtp_streams (c n : Nat) (ch : Chan) (d : Bytes) (s : State) : Agree sansStreams s (plainRtp c n ch d s) := by
  unfold plainRtp
  dsimp only
  split
  · refine .ite (bump_hifOnly ..).streams (.ite (ssrcCheck_streams ..) ?_)
    split
    · exact (ssrcCheck_streams ..).trans (bump_hifOnly ..).streams
    · exact (ssrcCheck_streams ..).trans (sequenceRtp_streams ..)
  · exact (bump_hifOnly ..).streams
  · exact .refl s

theorem rtpReceive_streams (c : Nat) (src : Bytes) (sport : Nat) (d : Bytes) (s : State) :
    Agree sansStreams s (rtpReceive c src sport d s) := by
  unfold rtpReceive
  split
  · exact .refl s
  · refine .ite (bump_hifOnly ..).streams ?_
    split
    · exact (bump_hifOnly ..).streams
    · refine .ite (plainRtp_streams ..) ?_
      split
      · exact (bump_hifOnly ..).streams
      · exact (plainRtp_streams ..).after ((keyAge_streams ..).after (.ite ((flowEvent_streams ..).after rfl) rfl))

/-! ### Delivery (R366) -/

theorem tpReceive_streams (n : Nat) (d : Bytes) (t : Ns) (s : State) : Agree sansStreams s (tpReceive n d t s) := by
  cases held : tp? s n with
  | none =>
    unfold tpReceive
    rw [held]
    exact .refl s
  | some x =>
    cases passes : tpCheck x d with
    | error k =>
      unfold tpReceive
      rw [held]
      dsimp only
      rw [passes]
      exact (bump_hifOnly ..).streams
    | ok lost =>
      obtain ⟨c, r, f, i, a, b, reach, -⟩ := tpReceive_spec held passes t
      exact reach.frame.weaken

theorem deliverItem_hifOnly (n : Nat) (i : PrxItem) (s : State) : HifOnly s (deliverItem n i s) := by
  unfold deliverItem
  split
  · exact bump_hifOnly ..
  · exact .ite (bump_hifOnly ..) (.ite (bump_hifOnly ..) ((withRing_hifOnly ..).trans (starvedLive_hifOnly ..)))

theorem deliverDefault_streams (p : Nat) (d : Bytes) (fr : EthFrame) (s : State) : Agree sansStreams s (deliverDefault p d fr s) :=
  .ite (deliverItem_hifOnly ..).streams (bump_hifOnly ..).streams

theorem deliverFrame_streams (p : Nat) (d : Bytes) (fr : EthFrame) (s : State) : Agree sansStreams s (deliverFrame p d fr s) := by
  unfold deliverFrame
  dsimp only
  refine .ite (.refl s) (.ite (bump_hifOnly ..).streams ?_)
  split
  · exact tpReceive_streams ..
  · split
    · exact deliverDefault_streams ..
    · split
      · exact .ite (tpReceive_streams ..) (bump_hifOnly ..).streams
      · exact .ite (bump_hifOnly ..).streams (.ite ((rtcpReceive_reach ..).reach.agree.weaken) (rtpReceive_streams ..))
      · exact deliverDefault_streams ..

theorem withPrp_streams (x : FMap PrpPair) (s : State) : Agree sansStreams s { s with prp := x } := rfl

theorem prpCheck_streams (n p : Nat) (d : Bytes) (t : Ns) (s : State) : Agree sansStreams s (prpCheck n p d t s).2 := by
  have named (c : Prop) [Decidable c] : Agree sansStreams s (if c then s else bump .prpWrongLan p s) :=
    .ite (.refl s) (bump_hifOnly ..).streams
  unfold prpCheck
  dsimp only
  split
  · exact (named _).trans (withPrp_streams ..)
  · exact .ite_snd ((named _).trans (withPrp_streams ..)) (.ite_snd (.ite_snd ((bump_hifOnly ..).streams.after ((named _).trans (withPrp_streams ..))) ((named _).trans (withPrp_streams ..)))
      ((bump_hifOnly ..).streams.after ((named _).trans (withPrp_streams ..))))

/-- A received frame leaves every port as it is. -/
theorem receiveFrame_streams (p : Nat) (fr : EthFrame) (s : State) : Agree sansStreams s (receiveFrame p fr s) := by
  unfold receiveFrame
  split
  · exact (bump_hifOnly ..).streams
  · dsimp only
    split
    · exact (deliverFrame_streams ..).after rfl
    · refine .ite ((deliverFrame_streams ..).after ((bump_hifOnly ..).streams.after rfl))
        (.ite ((deliverFrame_streams ..).after ((prpCheck_streams ..).after rfl)) ((prpCheck_streams ..).after rfl))

end Sys2Proof.Machine
end

section
/-! OBLIGATION. Ethernet traffic (O41). -/

namespace Sys2Proof.Machine

open Sys2Proof

set_option Elab.async false

/-! ### Heads that fit no span (R371) -/

/-- Without gates every frame fits, and the FIFOs read as before. -/
theorem dropTooLong_of_open {n : Nat} {s : State} (ungated : (ethPort s n).gates = none) :
    PortReach n s (dropTooLong n s) ∧ ∃ m, ethPort (dropTooLong n s) n = { ethPort s n with fifos := m } ∧
      ∀ k, FMap.getD m k [] = FMap.getD (ethPort s n).fifos k [] := by
  have run (l : List Nat) (u : State) (free : (ethPort u n).gates = none) :
      let step := fun (t : State) (c : Nat) =>
        let e := ethPort t n
        let l := FMap.getD e.fifos c []
        let bad := l.takeWhile (fun f => !fits (longestSpan e c) (framePs t n f.data.length))
        bad.foldl (fun u f => endPtx f.ptx 0 St.noWindow (bump .txNoWindow n u))
          (withPort n (fun e => { e with fifos := FMap.set e.fifos c (l.drop bad.length) }) t)
      PortReach n u (l.foldl step u) ∧ ∃ m, ethPort (l.foldl step u) n = { ethPort u n with fifos := m } ∧
        ∀ k, FMap.getD m k [] = FMap.getD (ethPort u n).fifos k [] := by
    intro step
    induction l generalizing u with
    | nil => exact ⟨.refl n u, _, rfl, fun _ => rfl⟩
    | cons c r ih =>
      have fitting (t : State) (f : TxFrame) : (!fits (longestSpan (ethPort u n) c) (framePs t n f.data.length)) = false := by
        rw [longestSpan, free]
        rfl
      have here : step u c = withPort n (fun e => { e with fifos := FMap.set e.fifos c (FMap.getD (ethPort u n).fifos c []) }) u := by
        have empty (l : List TxFrame) : l.takeWhile (fun f => !fits (longestSpan (ethPort u n) c) (framePs u n f.data.length)) = [] := by
          cases l with
          | nil => rfl
          | cons f r => exact List.takeWhile_cons_of_neg (by rw [fitting]; simp)
        change List.foldl _ _ (List.takeWhile _ _) = _
        rw [empty]
        rfl
      have own : ethPort (step u c) n =
          { ethPort u n with fifos := FMap.set (ethPort u n).fifos c (FMap.getD (ethPort u n).fifos c []) } := by
        rw [here, ethPort_withPort_same]
      obtain ⟨reach, m, is, reads⟩ := ih (step u c) (by rw [own]; exact free)
      refine ⟨PortReach.trans (here ▸ .withPort ..) reach, m, ?_, fun k => ?_⟩
      · rw [List.foldl_cons, is, own]
      · rw [reads k, own]
        rcases eq_or_ne k c with rfl | ne
        · rw [FMap.getD, FMap.get?_set_same, Option.getD_some]
        · rw [FMap.getD, FMap.get?_set_other _ _ _ _ ne, FMap.getD]
  exact run _ s ungated

/-- Dropping heads changes no more than the FIFOs of the port. -/
theorem dropTooLong_spec (n : Nat) (s : State) :
    PortReach n s (dropTooLong n s) ∧ ∃ m, ethPort (dropTooLong n s) n = { ethPort s n with fifos := m } := by
  have ends (l : List TxFrame) (u : State) :
      HifOnly u (l.foldl (fun u f => endPtx f.ptx 0 St.noWindow (bump .txNoWindow n u)) u) :=
    .foldl (fun t f => (bump_hifOnly ..).trans (endPtx_hifOnly ..)) l u
  have run (l : List Nat) (u : State) :
      let step := fun (t : State) (c : Nat) =>
        let e := ethPort t n
        let l := FMap.getD e.fifos c []
        let bad := l.takeWhile (fun f => !fits (longestSpan e c) (framePs t n f.data.length))
        bad.foldl (fun u f => endPtx f.ptx 0 St.noWindow (bump .txNoWindow n u))
          (withPort n (fun e => { e with fifos := FMap.set e.fifos c (l.drop bad.length) }) t)
      PortReach n u (l.foldl step u) ∧ ∃ m, ethPort (l.foldl step u) n = { ethPort u n with fifos := m } := by
    intro step
    induction l generalizing u with
    | nil => exact ⟨.refl n u, _, rfl⟩
    | cons c r ih =>
      obtain ⟨reach, m, is⟩ := ih (step u c)
      refine ⟨((PortReach.withPort ..).trans ((ends ..).portReach n)).trans reach, m, ?_⟩
      rw [List.foldl_cons, is, (ends ..).ethPort, ethPort_withPort_same]
  exact run _ s

/-! ### Starting a frame (R368) -/

/-- The highest class of which something holds. -/
theorem find?_highest {p : Nat → Bool} {c : Nat} (small : c < 8) (holds : p c = true) (above : ∀ k, c < k → k < 8 → p k = false) :
    [7, 6, 5, 4, 3, 2, 1, 0].find? p = some c := by
  have split : [7, 6, 5, 4, 3, 2, 1, 0] = (List.range' (c + 1) (7 - c)).reverse ++ c :: (List.range c).reverse := by
    interval_cases c <;> rfl
  rw [split, List.find?_append, List.find?_eq_none.mpr, Option.none_or, List.find?_cons_of_pos holds]
  intro k inside
  rw [List.mem_reverse, List.mem_range'_1] at inside
  rw [above k (by omega) (by omega)]
  exact Bool.false_ne_true

/-- Whether the head of a class fits its open span. -/
def EthPort.starts (e : EthPort) (ps : TxFrame → Nat) (t : Ns) (c : Nat) : Bool :=
  match FMap.getD e.fifos c [] with
  | [] => false
  | f :: _ => fits (openSpan e c t) (ps f) && openSpan e c t ≠ some 0

theorem nextClass_eq (s : State) (n : Nat) (t : Ns) :
    nextClass s n t = [7, 6, 5, 4, 3, 2, 1, 0].find? ((ethPort s n).starts (fun f => framePs s n f.data.length) t) := rfl

/-- The highest class with a frame starts where no gate stands. -/
theorem nextClass_of_open {s : State} {n c : Nat} {f : TxFrame} {r : List TxFrame} (t : Ns) (ungated : (ethPort s n).gates = none)
    (small : c < 8) (head : FMap.getD (ethPort s n).fifos c [] = f :: r)
    (above : ∀ k, c < k → k < 8 → FMap.getD (ethPort s n).fifos k [] = []) : nextClass s n t = some c := by
  rw [nextClass_eq]
  refine find?_highest small ?_ (fun k higher low => ?_)
  · unfold EthPort.starts
    rw [head]
    dsimp only
    rw [openSpan, ungated]
    rfl
  · unfold EthPort.starts
    rw [above k higher low]

/-- A started frame only takes the port and leaves its FIFO. -/
theorem startFrame_spec (n : Nat) (t : Ns) (s : State) :
    PortReach n s (startFrame n t s) ∧ ∃ m w, ethPort (startFrame n t s) n = { ethPort s n with fifos := m, onWire := w } := by
  unfold startFrame
  split
  · exact ⟨.refl n s, _, _, rfl⟩
  · split
    · exact ⟨.refl n s, _, _, rfl⟩
    · exact ⟨.withPort .., _, _, ethPort_withPort_same ..⟩

/-- The part of a start that follows the end of the wire. -/
def portBegin (n : Nat) (t : Ns) (s : State) : State :=
  let e := ethPort s n
  if e.linkUp && e.onWire.isNone && !e.lpiTx && (match e.wakeAt with | some w => decide (w ≤ t) | none => true) then
    startFrame n t (withPort n (fun q => { q with wakeAt := none }) s)
  else s

theorem portStart_eq (n : Nat) (t : Ns) (s : State) : portStart n t s = portBegin n t (dropTooLong n (wireDone n t s)) := by
  unfold portStart
  dsimp only
  generalize dropTooLong n (wireDone n t s) = u
  rfl

theorem portBegin_of_sending {n : Nat} {s : State} {w : OnWire} (t : Ns) (sending : (ethPort s n).onWire = some w) :
    portBegin n t s = s := by
  unfold portBegin
  dsimp only
  rw [sending, Option.isNone_some, Bool.and_false, Bool.false_and, Bool.false_and]
  exact if_neg Bool.false_ne_true

theorem portBegin_spec (n : Nat) (t : Ns) (s : State) : PortReach n s (portBegin n t s) ∧
    ∃ m w k, ethPort (portBegin n t s) n = { ethPort s n with fifos := m, onWire := w, wakeAt := k } := by
  obtain ⟨x, hx⟩ : ∃ x, x = portBegin n t s := ⟨_, rfl⟩
  rw [← hx]
  unfold portBegin at hx
  rcases eq_ite_iff.mp hx with ⟨-, eq⟩ | ⟨-, eq⟩
  · obtain ⟨reach, m, w, is⟩ := startFrame_spec n t (withPort n (fun q => { q with wakeAt := none }) s)
    rw [eq]
    exact ⟨(PortReach.withPort ..).trans reach, m, w, none, by rw [is, ethPort_withPort_same]⟩
  · rw [eq]
    exact ⟨.refl n s, _, _, _, rfl⟩

/-! ### The link (R362, R384) -/

theorem loseLink_spec (n : Nat) (s : State) : PortReach n s (loseLink n s) ∧
    (ethPort (loseLink n s) n).linkUp = false ∧ (ethPort (loseLink n s) n).fifos = [] ∧ (ethPort (loseLink n s) n).onWire = none := by
  unfold loseLink
  dsimp only
  obtain ⟨v, hv⟩ : ∃ v, v = withPort n (fun e => { e with linkUp := false, onWire := none, wakeAt := none }) (beginWake n (now s) s) :=
    ⟨_, rfl⟩
  have first : PortReach n s v := hv ▸ (beginWake_spec ..).1.trans (.withPort ..)
  have own : ethPort v n = { ethPort (beginWake n (now s) s) n with linkUp := false, onWire := none, wakeAt := none } :=
    hv ▸ ethPort_withPort_same ..
  rw [← hv]
  have dropped : ∃ w, HifOnly v w ∧ (match (ethPort s n).onWire with | some w => dropDown n w.frame v | none => v) = w := by
    split
    · exact ⟨_, dropDown_hifOnly .., rfl⟩
    · exact ⟨_, .refl v, rfl⟩
  obtain ⟨w, only, eq⟩ := dropped
  have rest : PortReach n s (dropQueued n w) ∧ (ethPort (dropQueued n w) n).linkUp = false ∧ (ethPort (dropQueued n w) n).fifos = [] ∧
      (ethPort (dropQueued n w) n).onWire = none := by
    obtain ⟨reach, is⟩ := dropQueued_spec n w
    rw [is, only.ethPort, own]
    exact ⟨(first.trans (only.portReach n)).trans reach, rfl, rfl, rfl⟩
  rw [← eq] at rest
  exact rest

/-- A change of a link: the port's link is as told; one that falls takes its frames along and is told. -/
theorem changeLink_spec (n : Nat) (up : Bool) (s : State) : PortReach n s (changeLink n up s) ∧
    (ethPort (changeLink n up s) n).linkUp = up ∧ ((ethPort s n).linkUp = true → up = false →
      (ethPort (changeLink n up s) n).fifos = [] ∧ (ethPort (changeLink n up s) n).onWire = none ∧
        (notice? (changeLink n up s) Ev.ethLinkDown n).isSome = true) := by
  have wired := wireDone_portReach n (now s) s
  have kept : (ethPort (wireDone n (now s) s) n).linkUp = (ethPort s n).linkUp := by
    cases sending : (ethPort s n).onWire with
    | none => rw [wireDone_of_free _ sending]
    | some w =>
      rcases Nat.lt_or_ge (now s) w.stop with early | late
      · rw [wireDone_of_sending sending early]
      · rw [(wireDone_of_sent sending late).2]
        rfl
  unfold changeLink
  dsimp only
  obtain ⟨v, hv⟩ : ∃ v, v = wireDone n (now s) s := ⟨_, rfl⟩
  rw [← hv] at wired kept ⊢
  have port (u : State) : ethPort (updateRefs u) n = ethPort u n := (updateRefs_refs u).field (ethPort · n)
  by_cases same : up = (ethPort v n).linkUp
  · rw [if_pos same]
    refine ⟨wired, same.symm, fun was down => ?_⟩
    rw [kept, was, down] at same
    contradiction
  · rw [if_neg same]
    cases up with
    | true =>
      rw [if_pos rfl]
      refine ⟨(wired.trans (.withPort ..)).trans (((noticeLive_hifOnly ..).portReach n).trans (updateRefs_portReach ..)), ?_,
        fun _ down => absurd down (by decide)⟩
      rw [port, (noticeLive_hifOnly ..).ethPort, ethPort_withPort_same]
    | false =>
      rw [if_neg Bool.false_ne_true]
      obtain ⟨lost, down, empty, free⟩ := loseLink_spec n v
      have own : ethPort (updateRefs (crossed Ev.ethLinkDown n 0 0 none false (loseLink n v))) n = ethPort (loseLink n v) n := by
        rw [port, (crossed_hifOnly ..).ethPort]
      rw [own]
      refine ⟨(wired.trans lost).trans (((crossed_hifOnly ..).portReach n).trans (updateRefs_portReach ..)), down,
        fun _ _ => ⟨empty, free, ?_⟩⟩
      rw [notice?_updateRefs n false _ (by decide), notice?_crossed]
      rfl

/-! ### The obligation -/

theorem ethRxFrame_runs {s : State} {n : Nat} (f : EthFrame) (up : alive s = true) (small : n < 32) (on : ethMode s n ≠ 0)
    (link : (ethPort s n).linkUp = true) : exec (.ethRxFrame n f) s = .next (receiveFrame n f (advance f.time s)) := by
  change Host.Outcome.next (onlyIf _ _ _) = _
  rw [show alive (advance f.time s) = true from up, decide_eq_true small, decide_eq_true (show ethMode (advance f.time s) n ≠ 0 from on),
    show (ethPort (advance f.time s) n).linkUp = true from link]
  rfl

theorem ethTxStart_runs {s : State} {n : Nat} (t : Ns) (up : alive s = true) (small : n < 32) :
    exec (.ethTxStart n t) s = .next (portBegin n t (dropTooLong n (wireDone n t (advance t s)))) := by
  change execEthTxStart n t s = _
  unfold execEthTxStart
  dsimp only
  rw [show alive (advance t s) = true from up, decide_eq_true small, portStart_eq, Bool.and_self, onlyIf, if_pos rfl]

/-- A frame that nothing takes, on a port without a default ring. -/
theorem deliverFrame_unclaimed {n : Nat} {fr : EthFrame} {s : State}
    (notPtp : (parseFrame fr.data).etherType ≠ 0x88F7) (notPrp : (parseFrame fr.data).etherType ≠ 0x88FB)
    (noTp : tpForEth s (parseFrame fr.data) = none) (noIp : parseIp (parseFrame fr.data) = none) (noRing : flag s .ethRxCfg n 9 = false) :
    deliverFrame n fr.data fr s = bump .rxUnclaimed n s := by
  unfold deliverFrame
  dsimp only
  rw [decide_eq_false notPtp, decide_eq_false notPrp, Bool.false_and, Bool.false_and, Bool.false_and, if_neg Bool.false_ne_true,
    if_neg Bool.false_ne_true, noTp]
  dsimp only
  rw [noIp]
  dsimp only
  rw [deliverDefault, noRing, if_neg Bool.false_ne_true]

/-- Settles O41: each step by what it leaves of its port, and of every other. -/
theorem ethernetTraffic : Obligations.EthernetTraffic := by
  unfold Obligations.EthernetTraffic
  intro s n t up small
  refine ⟨fun f on link => ⟨fun c fails => ?_, fun passes => ?_⟩, fun c f r low link awake ready free ungated head above => ?_,
    fun w sending => ⟨fun early => ?_, fun late => ?_⟩, fun b on => ?_, fun idles => ?_, fun d asleep next soon => ?_⟩
  · rw [ethRxFrame_runs f up small on link]
    unfold receiveFrame
    rw [fails]
  · refine ⟨_, ethRxFrame_runs f up small on link, ?_⟩
    have reach := receiveFrame_streams n f (advance f.time s)
    refine ⟨reach.field (·.eth), reach.field (·.regs), reach.field (·.fsc), fun single notPtp notPrp noTp noIp noRing => ?_⟩
    obtain ⟨u, hu⟩ : ∃ u, u = addFig .ethRxOctets n ((drawNat (advance f.time s)).1 % 8) (f.data.length + 4)
        (addFig .ethRxFrames n ((drawNat (advance f.time s)).1 % 8) 1 (drawNat (advance f.time s)).2) := ⟨_, rfl⟩
    have eq : receiveFrame n f (advance f.time s) = deliverFrame n f.data f u := by
      unfold receiveFrame
      rw [passes]
      dsimp only
      rw [← hu, show pairOf (advance f.time s) n = none from single]
    rw [eq, deliverFrame_unclaimed notPtp notPrp (hu ▸ noTp) noIp (hu ▸ noRing), hu]
    exact ⟨rfl, rfl, rfl, rfl⟩
  · refine ⟨_, ethTxStart_runs t up small, ?_⟩
    obtain ⟨u, hu⟩ : ∃ u, u = advance t s := ⟨_, rfl⟩
    have same : ethPort u n = ethPort s n := by rw [hu]; rfl
    have regs : framePs u n = framePs s n := by rw [hu]; rfl
    have others (m : Nat) : ethPort u m = ethPort s m := by rw [hu]; rfl
    rw [← hu, wireDone_of_free t (same ▸ free)]
    obtain ⟨reach, m, own, reads⟩ := dropTooLong_of_open (n := n) (s := u) (same ▸ ungated)
    obtain ⟨v, hv⟩ : ∃ v, v = dropTooLong n u := ⟨_, rfl⟩
    rw [← hv] at reach own ⊢
    rw [same] at own reads
    obtain ⟨w, hw⟩ : ∃ w, w = withPort n (fun q => { q with wakeAt := none }) v := ⟨_, rfl⟩
    have wOwn : ethPort w n = { ethPort s n with fifos := m, wakeAt := none } := by rw [hw, ethPort_withPort_same, own]
    have goes : portBegin n t v = startFrame n t w := by
      unfold portBegin
      dsimp only
      rw [own]
      dsimp only
      rw [link, free, awake, ready, hw]
      rfl
    have starts : startFrame n t w = withPort n (fun e => { e with
        fifos := FMap.set e.fifos c r
        onWire := some {
          frame := f, tc := c, octet := octetPs w n, start := t
          stop := t + cdiv (framePs w n f.data.length) 1000 } }) w := by
      unfold startFrame
      rw [nextClass_of_open t (by rw [wOwn]; exact ungated) low (by rw [wOwn]; exact (reads c).trans head)
        (fun k higher low => by rw [wOwn]; exact (reads k).trans (above k higher low))]
      dsimp only
      rw [wOwn]
      dsimp only
      rw [reads c, head]
    have times : framePs w n = framePs s n := by
      rw [← regs, ← reach.agree.field (framePs · n), hw]
      rfl
    rw [goes, starts, times]
    refine ⟨fun k ne => ?_, ⟨_, by rw [ethPort_withPort_same], rfl, rfl, rfl, rfl⟩, ?_, fun k low ne => ?_⟩
    · rw [ethPort_withPort_other _ _ ne, hw, ethPort_withPort_other _ _ ne, reach.others k ne, others]
    · rw [ethPort_withPort_same, FMap.getD, FMap.get?_set_same, Option.getD_some]
    · rw [ethPort_withPort_same, wOwn]
      dsimp only
      rw [FMap.getD, FMap.get?_set_other _ _ _ _ ne]
      exact reads k
  · refine ⟨_, ethTxStart_runs t up small, ?_⟩
    have held : (ethPort (advance t s) n).onWire = some w := sending
    rw [wireDone_of_sending held early]
    obtain ⟨reach, m, own⟩ := dropTooLong_spec n (advance t s)
    rw [portBegin_of_sending t (by rw [own]; exact held)]
    refine ⟨fun k ne => reach.others k ne, ?_⟩
    rw [own]
    exact ⟨held, rfl⟩
  · refine ⟨_, ethTxStart_runs t up small, ?_⟩
    obtain ⟨u, hu⟩ : ∃ u, u = advance t s := ⟨_, rfl⟩
    have same (m : Nat) : ethPort u m = ethPort s m := by rw [hu]; rfl
    rw [← hu]
    obtain ⟨ended, first⟩ := wireDone_of_sent (same n ▸ sending : (ethPort u n).onWire = some w) late
    obtain ⟨dropped, m, second⟩ := dropTooLong_spec n (wireDone n t u)
    obtain ⟨began, m', w', k, third⟩ := portBegin_spec n t (dropTooLong n (wireDone n t u))
    refine ⟨fun j ne => (((ended.trans dropped).trans began).others j ne).trans (same j), ?_, ?_⟩
    · rw [third, second, first]
      rfl
    · rw [third, second, first, same]
      rfl
  · have runs : exec (.ethLinkChange n b) s = .next (changeLink n b s) := by
      change execEthLinkChange n b s = _
      unfold execEthLinkChange
      rw [up, decide_eq_true small, decide_eq_true on]
      rfl
    obtain ⟨reach, own, falls⟩ := changeLink_spec n b s
    exact ⟨_, runs, reach.others, reach.agree.field (·.regs), own, falls⟩
  · have reach := wireDone_portReach n t (advance t s)
    change Host.Outcome.next (onlyIf _ _ _) = _
    rw [show alive (advance t s) = true from up, decide_eq_true small, idles, reach.agree.field (wakeTime · n)]
    rfl
  · have runs : exec (.lpiWake n t) s = .next (beginWake n t (advance t s)) := by
      have asleep' : (ethPort (advance t s) n).lpiTx = true := asleep
      have next' : untilOpen (ethPort (advance t s) n) 7 t = some d := next
      have soon' : decide (d ≤ (ethPort (advance t s) n).lpiTw) = true := decide_eq_true soon
      change Host.Outcome.next (onlyIf _ _ _) = _
      rw [show alive (advance t s) = true from up, decide_eq_true small, asleep', next']
      change Host.Outcome.next (onlyIf (true && true && (true && decide (d ≤ (ethPort (advance t s) n).lpiTw))) _ _) = _
      rw [soon']
      rfl
    obtain ⟨reach, own⟩ := beginWake_spec n t (advance t s)
    refine ⟨_, runs, reach.others, own.trans ?_⟩
    rw [show (ethPort (advance t s) n).lpiTx = true from asleep]
    rfl

end Sys2Proof.Machine
end

section
/-! OBLIGATION. PRP and time (O42). -/

namespace Sys2Proof.Machine

open Sys2Proof

set_option Elab.async false

/-! ### Pairs -/

theorem prpPair_withPair_same (n : Nat) (f : PrpPair → PrpPair) (s : State) : prpPair (withPair n f s) n = f (prpPair s n) := by
  rw [prpPair, withPair, FMap.getD, FMap.get?_set_same, Option.getD_some]

theorem prpPair_withPair_other {n m : Nat} (f : PrpPair → PrpPair) (s : State) (ne : m ≠ n) :
    prpPair (withPair n f s) m = prpPair s m := by
  rw [prpPair, withPair, FMap.getD, FMap.get?_set_other _ _ _ _ ne]
  rfl

/-- But for the ports, figures, free choices, the host interface and the counters. -/
def sansWire (s : State) : State := { s with eth := [], figs := [], free := 0, hif := Hif.reset, counters := [] }

theorem beginWake_wire (p : Nat) (t : Ns) (s : State) : Agree sansWire s (beginWake p t s) := by
  unfold beginWake
  exact .ite rfl (.refl s)

theorem enqueue_wire (p tc : Nat) (f : TxFrame) (s : State) : Agree sansWire s (enqueue p tc f s) := by
  unfold enqueue
  exact .ite (endPtx_hifOnly ..).agree (.ite (dropDown_hifOnly ..).agree ((show Agree sansWire s (withPort p _ s) from rfl).trans (beginWake_wire ..)))

/-- What is sent on a port reaches no other port. -/
theorem enqueue_portReach (p tc : Nat) (f : TxFrame) (s : State) : PortReach p s (enqueue p tc f s) := by
  unfold enqueue
  exact .ite ((endPtx_hifOnly ..).portReach p) (.ite ((dropDown_hifOnly ..).portReach p)
    ((PortReach.withPort ..).trans (beginWake_spec ..).1))

theorem pairSend_spec (n tc : Nat) (d : Bytes) (ptx : Option (Nat × BitVec 32)) (ts : Bool) (s : State) :
    (∀ m, m ≠ n → prpPair (pairSend n tc d ptx ts s) m = prpPair s m) ∧
    prpPair (pairSend n tc d ptx ts s) n = { prpPair s n with seq := (prpPair s n).seq + 1 } ∧
    (pairSend n tc d ptx ts s).regs = s.regs := by
  obtain ⟨u, hu⟩ : ∃ u, u = withPair n (fun e => { e with seq := e.seq + 1 }) s := ⟨_, rfl⟩
  have sent : Agree sansWire u (pairSend n tc d ptx ts s) := by
    unfold pairSend
    dsimp only
    rw [← hu]
    exact (enqueue_wire ..).trans (enqueue_wire ..)
  have pair (m : Nat) : prpPair (pairSend n tc d ptx ts s) m = prpPair u m := sent.field (prpPair · m)
  refine ⟨fun m ne => ?_, ?_, ?_⟩
  · rw [pair, hu, prpPair_withPair_other _ _ ne]
  · rw [pair, hu, prpPair_withPair_same]
  · rw [sent.field (·.regs), hu]
    rfl

/-! ### PTP -/

theorem ptpOne_spec (p k : Nat) (s : State) : PortReach p s (ptpOne p k s) ∧ (ptpOne p k s).clk = s.clk :=
  ⟨(PortReach.of_agree p (by rfl) (by rfl)).trans (enqueue_portReach p 6 _ (drawBytes (ptpLen k) s).2),
    (enqueue_wire p 6 _ (drawBytes (ptpLen k) s).2).field (·.clk)⟩

theorem ptpSend_spec (p k : Nat) (s : State) : PortReach p s (ptpSend p k s) ∧ (ptpSend p k s).clk = s.clk := by
  have one := ptpOne_spec p k s
  have two (j : Nat) : PortReach p s (ptpOne p j (ptpOne p k s)) ∧ (ptpOne p j (ptpOne p k s)).clk = s.clk :=
    ⟨one.1.trans (ptpOne_spec ..).1, (ptpOne_spec ..).2.trans one.2⟩
  unfold ptpSend
  dsimp only
  split
  · exact one
  · split
    · exact two 8
    · split
      · exact two 0xA
      · exact one

theorem updateRefs_ptpMaster (s : State) : (updateRefs s).clk.ptpMaster = s.clk.ptpMaster := (updateRefs_refs s).field (·.clk.ptpMaster)

/-- A correction changes the clock as told, and is told where it is a step. -/
theorem correctTime_spec (off : Int) (s : State) :
    correctTime off s = { s with clk := (correctTime off s).clk, hif := (correctTime off s).hif, counters := (correctTime off s).counters } ∧
    (correctTime off s).clk = if off.natAbs < 1000000 then { s.clk with slewLeft := off }
      else { s.clk with offset := s.clk.offset + off, slewLeft := 0 } := by
  unfold correctTime
  split
  · exact ⟨rfl, rfl⟩
  · obtain ⟨u, hu⟩ : ∃ u, u = withClk (fun c => { c with offset := c.offset + off, slewLeft := 0 }) s := ⟨_, rfl⟩
    rw [← hu]
    have only := raise_hifOnly Ev.timeStep none (padTo 48 (Config.eventBody Ev.timeStep [off])) u
    refine ⟨?_, ?_⟩
    · rw [only.eq, hu]
      rfl
    · rw [only.field (·.clk), hu]
      rfl

/-! ### The table of a pair (R376) -/

theorem bump_counters (c : Ctr) (o : Nat) (s : State) : Agree (fun u => { u with counters := [] }) s (bump c o s) := rfl

theorem prpTimeout_spec {n mac t : Nat} {s : State} {x : PrpEntry} (held : FMap.get? (prpPair s n).table mac = some x) :
    prpTimeout n mac t s = { s with prp := (prpTimeout n mac t s).prp, counters := (prpTimeout n mac t s).counters } ∧
    prpPair (prpTimeout n mac t s) n = { prpPair s n with
      table := if x.last + 400000000 ≤ t then FMap.del (prpPair s n).table mac
        else FMap.set (prpPair s n).table mac { x with lone := x.lone.filter (fun y => decide (t < y.2.2 + 400000000)) } } := by
  unfold prpTimeout
  rw [held]
  dsimp only
  obtain ⟨u, hu⟩ : ∃ u, u = withPair n (fun q => { q with
    table := if x.last + 400000000 ≤ t then FMap.del q.table mac
      else FMap.set q.table mac { x with lone := x.lone.filter (fun y => decide (t < y.2.2 + 400000000)) } }) s := ⟨_, rfl⟩
  rw [← hu]
  have counted (l : List (BitVec 16 × Nat × Ns)) (v : State) :
      Agree (fun u => { u with counters := [] }) v (l.foldl (fun u y => bump .prpUnique y.2.1 u) v) :=
    .foldl (fun v y => bump_counters ..) l v
  generalize hw : List.foldl _ u _ = w
  have only : Agree (fun u => { u with counters := [] }) u w := hw ▸ counted _ u
  refine ⟨?_, ?_⟩
  · refine (only.frame (fun v => { v with counters := w.counters })).trans ?_
    rw [hu]
    rw [only.field (·.prp), hu]
    rfl
  · rw [only.field (prpPair · n), hu, prpPair_withPair_same]

/-! ### The obligation -/

theorem ptpMessageRx_runs {s : State} {n : Nat} (m : PtpMsg) (t : Ns) (up : alive s = true) (runs : ptpPort s n = true) :
    exec (.ptpMessageRx n m t) s = .next (ptpMessage n m (advance t s)) := by
  change execPtpMessageRx n m t s = _
  unfold execPtpMessageRx
  dsimp only
  rw [show alive (advance t s) = true from up, show ptpPort (advance t s) n = true from runs, Bool.and_self, onlyIf, if_pos rfl]

/-- A better Announce is followed (R379). -/
theorem announced_of_best {n : Nat} {rank : List Nat} {s : State}
    (fit : flag s .ptpCfg 0 8 = true ∨ rankBefore rank (ownRank s) = true)
    (best : ∀ r, s.clk.ptpMaster = some r → rankBefore rank r.2 = true) :
    announced n rank s = updateRefs (withClk (fun c => { c with ptpMaster := some (n, rank) }) s) := by
  have fits : (flag s .ptpCfg 0 8 || rankBefore rank (ownRank s)) = true := by
    rcases fit with fit | fit
    · rw [fit, Bool.true_or]
    · rw [fit, Bool.or_true]
  unfold announced
  dsimp only
  rw [fits]
  cases held : s.clk.ptpMaster with
  | none => exact if_pos rfl
  | some r =>
    obtain ⟨q, l⟩ := r
    dsimp only
    rw [best _ held]
    split
    · rfl
    · rfl

theorem Agree.refsOnly {s t : State} (agree : Agree sansRefs s t) : t = { s with clk := t.clk, hif := t.hif, counters := t.counters, free := t.free } :=
  agree.frame (fun w => { w with clk := t.clk, hif := t.hif, counters := t.counters, free := t.free })

theorem withClk_rest (f : Clock → Clock) (s : State) (a : Clock) (b : Hif) (c : List (CtrKey × BitVec 64)) (d : Nat) :
    { withClk f s with clk := a, hif := b, counters := c, free := d } = { s with clk := a, hif := b, counters := c, free := d } := rfl

/-- Settles O42: each step by its reach and by what it leaves of its pair or of the clock. -/
theorem prpAndTime : Obligations.PrpAndTime := by
  unfold Obligations.PrpAndTime
  refine ⟨fun h s v ready => answers_done rfl ready rfl, fun s n t up => ?_⟩
  intro s1 corrected
  have live : alive s1 = true := up
  refine ⟨fun on supervised due => ?_, fun mac x on held => ?_, fun m port => ⟨fun kind domain slave phase => ?_,
    fun kind domain fit best => ?_, fun domain => ?_, fun kind => ?_, fun k0 k2 k3 => ?_⟩, fun k port small due => ?_,
    fun off phase => ?_, fun k v low high => ?_⟩
  · have runs : exec (.prpSvSend n t) s = .next (pairSend n 6 (supervision s1 n (drawNat s1).1) none false
        (withPair n (fun q => { q with svAt := t }) (drawNat s1).2)) := by
      change execPrpSvSend n t s = _
      unfold execPrpSvSend
      dsimp only
      rw [show alive (advance t s) = true from up, show prpEnabled (advance t s) n = true from on,
        show flag (advance t s) .prpPairCfg n 17 = true from supervised,
        decide_eq_true (show (prpPair (advance t s) n).svAt + 2000000000 ≤ t from due), Bool.and_self, Bool.and_self, Bool.and_self, onlyIf, if_pos rfl]
    obtain ⟨others, own, regs⟩ := pairSend_spec n 6 (supervision s1 n (drawNat s1).1) none false
      (withPair n (fun q => { q with svAt := t }) (drawNat s1).2)
    refine ⟨_, runs, regs, fun m ne => ?_, own.trans ?_⟩
    · rw [others m ne, prpPair_withPair_other _ _ ne]
      rfl
    · rw [prpPair_withPair_same]
      rfl
  · have runs : exec (.prpEntryTimeout n mac t) s = .next (prpTimeout n mac t s1) := by
      change execPrpEntryTimeout n mac t s = _
      unfold execPrpEntryTimeout
      dsimp only
      rw [show alive (advance t s) = true from up, show prpEnabled (advance t s) n = true from on, Bool.and_self, onlyIf, if_pos rfl]
    have held' : FMap.get? (prpPair s1 n).table mac = some x := held
    obtain ⟨frame, own⟩ := prpTimeout_spec (t := t) held'
    refine ⟨_, runs, frame, fun old => ?_, fun young => ?_, fun k ne => ?_⟩
    · rw [own]
      dsimp only
      rw [if_pos old, FMap.get?_del_same]
    · rw [own]
      dsimp only
      rw [if_neg (Nat.not_le.mpr young), FMap.get?_set_same]
    · rw [own]
      dsimp only
      split
      · exact FMap.get?_del_other _ _ _ ne
      · exact FMap.get?_set_other _ _ _ _ ne
  · have goes : ptpMessage n m s1 = correctTime m.offset s1 := by
      unfold ptpMessage
      rw [if_neg (fun bad => bad domain), kind]
      change (if ptpSlaveOn s1 n && s1.clk.phaseRef = 1 then correctTime m.offset s1 else s1) = _
      rw [show ptpSlaveOn s1 n = true from slave, show s1.clk.phaseRef = 1 from phase]
      rfl
    exact ⟨_, (ptpMessageRx_runs m t up port).trans (congrArg _ goes), correctTime_spec m.offset s1⟩
  · have goes : ptpMessage n m s1 = updateRefs (withClk (fun c => { c with ptpMaster := some (n, m.rank) }) s1) := by
      unfold ptpMessage
      rw [if_neg (fun bad => bad domain), kind]
      exact announced_of_best fit best
    have refs := updateRefs_refs (withClk (fun c => { c with ptpMaster := some (n, m.rank) }) s1)
    exact ⟨_, (ptpMessageRx_runs m t up port).trans (congrArg _ goes), refs.field (·.clk.ptpMaster), refs.field (·.clk.localNs),
      refs.field (·.clk.offset), refs.field (·.eth)⟩
  · rw [ptpMessageRx_runs m t up port]
    unfold ptpMessage
    rw [if_pos (show m.domain ≠ fld (advance t s) .ptpCfg 0 7 0 from domain)]
  · by_cases domain : m.domain = fld s .ptpCfg 0 7 0
    · have goes : ptpMessage n m s1 = ptpSend n 3 s1 := by
        unfold ptpMessage
        rw [if_neg (fun bad => bad domain), kind]
        rfl
      obtain ⟨reach, clk⟩ := ptpSend_spec n 3 s1
      exact ⟨_, (ptpMessageRx_runs m t up port).trans (congrArg _ goes), clk, reach.others⟩
    · refine ⟨s1, (ptpMessageRx_runs m t up port).trans ?_, rfl, fun _ _ => rfl⟩
      unfold ptpMessage
      rw [if_pos (show m.domain ≠ fld (advance t s) .ptpCfg 0 7 0 from domain)]
  · rw [ptpMessageRx_runs m t up port]
    unfold ptpMessage
    split
    · rfl
    · split
      next h => exact absurd h k0
      next h => exact absurd h k2
      next h => exact absurd h k3
      next => rfl
  · have runs : exec (.ptpInterval n k t) s = .next (ptpInterval n k t s1) := by
      change execPtpInterval n k t s = _
      unfold execPtpInterval
      dsimp only
      rw [show alive (advance t s) = true from up, show ptpPort (advance t s) n = true from port, decide_eq_true small,
        decide_eq_true (show FMap.getD (advance t s).clk.ptpSent (4 * n + k) 0 + (if k = 3 then 3000000000 else 1000000000) ≤ t from due),
        Bool.and_self, Bool.and_self, Bool.and_self, onlyIf, if_pos rfl]
    refine ⟨_, runs, ?_⟩
    obtain ⟨u, hu⟩ : ∃ u, u = withClk (fun c => { c with ptpSent := FMap.set c.ptpSent (4 * n + k) t }) s1 := ⟨_, rfl⟩
    have plain : u.clk.ptpSent = FMap.set s.clk.ptpSent (4 * n + k) t ∧ u.clk.offset = s.clk.offset ∧
        u.clk.ptpMaster = s.clk.ptpMaster ∧ (∀ m, ethPort u m = ethPort s m) := by
      rw [hu]
      exact ⟨rfl, rfl, rfl, fun _ => rfl⟩
    obtain ⟨sent, offset, master, ports⟩ := plain
    have sends (j : Nat) : (ptpSend n j u).clk.ptpSent = FMap.set s.clk.ptpSent (4 * n + k) t ∧ (ptpSend n j u).clk.offset = s.clk.offset ∧
        (ptpSend n j u).clk.ptpMaster = s.clk.ptpMaster ∧ ∀ m, m ≠ n → ethPort (ptpSend n j u) m = ethPort s m := by
      obtain ⟨reach, clk⟩ := ptpSend_spec n j u
      rw [clk]
      exact ⟨sent, offset, master, fun m ne => (reach.others m ne).trans (ports m)⟩
    unfold ptpInterval
    dsimp only
    rw [← hu]
    have rests : u.clk.ptpSent = FMap.set s.clk.ptpSent (4 * n + k) t ∧ u.clk.offset = s.clk.offset ∧ u.clk.ptpMaster = s.clk.ptpMaster ∧
        ∀ m, m ≠ n → ethPort u m = ethPort s m := ⟨sent, offset, master, fun m _ => ports m⟩
    have alternates (j : Nat) (c : Bool) (not3 : k ≠ 3) :
        (if c then u else ptpSend n j u).clk.ptpSent = FMap.set s.clk.ptpSent (4 * n + k) t ∧
        (if c then u else ptpSend n j u).clk.offset = s.clk.offset ∧
        (if c then u else ptpSend n j u).clk.ptpMaster = (if k = 3 ∧ ptpSlaveOn s n = true then none else s.clk.ptpMaster) ∧
        ∀ m, m ≠ n → ethPort (if c then u else ptpSend n j u) m = ethPort s m := by
      rw [if_neg (c := k = 3 ∧ ptpSlaveOn s n = true) (fun both => not3 both.1)]
      cases c
      · exact sends j
      · exact rests
    match k, small with
    | 1, _ => exact alternates 2 false (by decide)
    | 3, _ =>
      have slave : ptpSlaveOn s1 n = ptpSlaveOn s n := rfl
      cases is : ptpSlaveOn s n with
      | false =>
        rw [is] at slave
        rw [slave]
        exact rests
      | true =>
        rw [is] at slave
        rw [slave]
        have refs := updateRefs_refs (withClk (fun c => { c with ptpMaster := none }) u)
        exact ⟨(refs.field (·.clk.ptpSent)).trans sent, (refs.field (·.clk.offset)).trans offset, refs.field (·.clk.ptpMaster),
          fun m _ => (refs.field (ethPort · m)).trans (ports m)⟩
    | 0, _ => exact alternates 0 _ (by decide)
    | 2, _ => exact alternates 0xB _ (by decide)
  · have runs : exec (.ppsEdge t off) s = .next (correctTime off s1) := by
      change execPpsEdge t off s = _
      unfold execPpsEdge
      dsimp only
      rw [show alive (advance t s) = true from up, decide_eq_true (show (advance t s).clk.phaseRef = 2 from phase), Bool.and_self, onlyIf,
        if_pos rfl]
    exact ⟨_, runs, correctTime_spec off s1⟩
  · obtain ⟨u, hu⟩ : ∃ u, u = withClk (fun c => { c with avail := if v then insNat k c.avail else c.avail.filter (· != k) }) s := ⟨_, rfl⟩
    have runs : exec (.tbuRefUpdate k v) s = .next (updateRefs u) := by
      change execTbuRefUpdate k v s = _
      unfold execTbuRefUpdate
      rw [up, decide_eq_true low, decide_eq_true high, hu]
      rfl
    have refs := updateRefs_refs u
    refine ⟨_, runs, ?_, ?_, ?_, ?_, ?_⟩
    · refine refs.refsOnly.trans ?_
      generalize updateRefs u = w
      rw [hu]
      exact withClk_rest ..
    · rw [refs.field (·.clk.localNs), hu]
      rfl
    · rw [refs.field (·.clk.offset), hu]
      rfl
    · rw [refs.field (·.clk.tick), hu]
      rfl
    · rw [refs.field (·.clk.avail), hu]
      rfl

end Sys2Proof.Machine
end

section
/-! SUPPORT. Rings that come and go (R389, R394, R395): what removing, putting and offering leave of the rings. -/

namespace Sys2Proof.Machine

open Sys2Proof

set_option Elab.async false

/-! ### What identifies a ring -/

/-- The context of a ring, the host's index, and whether it stands. -/
def Ring.core (r : Ring) : RingCtx × BitVec 32 × Bool := (r.ctx, r.hostIdx, r.stopped)

/-- But for the queue manager, the host interface, the counters, sessions, and the items of the ports and transmit channels. -/
def sansQueues (s : State) : State :=
  { s with
    qmg := Qmg.reset, hif := Hif.reset, counters := [], eth := [], txcs := []
    sec := { s.sec with sessions := [], nonces := [], unlock := none } }

/-- `t` is `s` but for what `sansQueues` names, and every ring keeps its context, host index and stop. -/
structure CoreReach (s t : State) : Prop where
  agree : Agree sansQueues s t
  cores : ∀ k, (ring? t k).map Ring.core = (ring? s k).map Ring.core

section
variable {s t u : State}

theorem CoreReach.refl (s : State) : CoreReach s s := ⟨rfl, fun _ => rfl⟩

theorem CoreReach.trans (h : CoreReach s t) (k : CoreReach t u) : CoreReach s u :=
  ⟨h.agree.trans k.agree, fun n => (k.cores n).trans (h.cores n)⟩

theorem CoreReach.ite {c : Prop} [Decidable c] (h : CoreReach s t) (k : CoreReach s u) : CoreReach s (if c then t else u) := by
  split <;> assumption

/-- Where the rings stay, only the rest need agree. -/
theorem CoreReach.of_rings (agree : Agree sansQueues s t) (rings : t.hif.rings = s.hif.rings) : CoreReach s t :=
  ⟨agree, fun k => by rw [ring?, rings, ring?]⟩

theorem Told.coreReach (told : Told s t) : CoreReach s t := by
  refine ⟨told.hifOnly.agree, fun k => ?_⟩
  have core := congrArg (Option.map Ring.core) (told.rings k)
  rw [Option.map_map, Option.map_map] at core
  exact core

theorem withRing_coreReach (n : Nat) {f : Ring → Ring} (kept : ∀ r, (f r).core = r.core) (s : State) : CoreReach s (withRing n f s) := by
  refine ⟨rfl, fun k => ?_⟩
  by_cases at_ : k = n
  · subst at_
    rw [ring?, withRing_hif_rings, FMap.get?_adj_same, ← ring?]
    cases ring? s k with
    | none => rfl
    | some r => exact congrArg some (kept r)
  · rw [ring?_withRing_other at_]

theorem CoreReach.has (h : CoreReach s t) (n : Nat) : FMap.has t.hif.rings n = FMap.has s.hif.rings n := by
  have same := congrArg Option.isSome (h.cores n)
  rw [Option.isSome_map, Option.isSome_map] at same
  exact same

theorem CoreReach.globalRing (h : CoreReach s t) : globalRing t = globalRing s := by
  unfold Machine.globalRing
  rw [h.agree.field (fld · .evtGlobal 0 8 0), h.agree.field (flag · .evtGlobal 0 9)]
  dsimp only
  rw [h.has]

end

/-! ### Items offered to a ring -/

theorem bumpN_coreReach (c : Ctr) (o u n : Nat) (s : State) : CoreReach s (bumpN c o u n s) := by
  refine .of_rings (bumpN_hifOnly ..).agree ?_
  unfold bumpN
  split
  · rfl
  · rfl

theorem withNotices_coreReach (f : List Notice → List Notice) (s : State) : CoreReach s (withNotices f s) := .of_rings rfl rfl

theorem withQueue_coreReach (n : Nat) (f : Queue → Queue) (s : State) : CoreReach s (withQueue n f s) := .of_rings rfl rfl

theorem crossing_coreReach (c o : Nat) (m : Bool) (e : Nat) (v : Int) (b : Bytes) (r : Option Nat) (l : Bool) (s : State) :
    CoreReach s (crossing c o m e v b r l s) := by
  obtain ⟨f, told⟩ := crossing_told c o m e v b r l s
  exact (withNotices_coreReach f s).trans told.coreReach

theorem noticeLive_coreReach (c o : Nat) (m : Bool) (v : Option Int) (l : Bool) (s : State) :
    CoreReach s (noticeLive c o m v l s) := .of_rings rfl rfl

theorem starvedLive_coreReach (n : Nat) (s : State) : CoreReach s (starvedLive n s) := by
  unfold starvedLive
  split
  · exact .refl s
  · exact noticeLive_coreReach ..

theorem deliverItem_coreReach (n : Nat) (i : PrxItem) (s : State) : CoreReach s (deliverItem n i s) := by
  unfold deliverItem
  split
  · exact bumpN_coreReach ..
  · exact .ite (bumpN_coreReach ..) (.ite (bumpN_coreReach ..) ((withRing_coreReach n (by intro; rfl) s).trans (starvedLive_coreReach ..)))

theorem evalMark_coreReach (n : Nat) (low : Bool) (old new : Nat) (s : State) : CoreReach s (evalMark n low old new s) := by
  unfold evalMark
  split
  · exact .refl s
  · dsimp only
    split
    · exact (withQueue_coreReach ..).trans (crossing_coreReach ..)
    · exact (withQueue_coreReach ..).trans (noticeLive_coreReach ..)

theorem levelMoved_coreReach (n old : Nat) (s : State) : CoreReach s (levelMoved n old s) := by
  unfold levelMoved
  split
  · exact .refl s
  · split
    · exact .refl s
    · exact (evalMark_coreReach ..).trans (evalMark_coreReach ..)

theorem moveQueue_coreReach (n : Nat) (f : Queue → Queue) (s : State) : CoreReach s (moveQueue n f s) := by
  unfold moveQueue
  split
  · exact .refl s
  · exact (withQueue_coreReach ..).trans (levelMoved_coreReach ..)

theorem returnCells_coreReach (c k : Nat) (ext tether : Bool) (s : State) : CoreReach s (returnCells c k ext tether s) :=
  .of_rings rfl rfl

theorem pullItem_coreReach (n i : Nat) (s : State) : CoreReach s (pullItem n i s) := by
  unfold pullItem
  split
  · exact .refl s
  · split
    · exact .refl s
    · exact (moveQueue_coreReach ..).trans (returnCells_coreReach ..)

theorem offerItem_coreReach (r n i : Nat) (s : State) : CoreReach s (offerItem r n i s) := by
  unfold offerItem
  split
  · split
    · exact .refl s
    · exact .ite (((pullItem_coreReach ..).trans (bumpN_coreReach ..)).trans (bumpN_coreReach ..)) (deliverItem_coreReach ..)
  · exact .refl s

theorem offerQueue_coreReach (n : Nat) (c : RingCtx) (s : State) : CoreReach s (offerQueue n c s) := by
  have run {f : Nat × State → Nat → Nat × State} (step : ∀ a k, CoreReach a.2 (f a k).2) (l : List Nat) (a : Nat × State) :
      CoreReach a.2 (l.foldl f a).2 := by
    induction l generalizing a with
    | nil => exact .refl _
    | cons k r ih => exact (step a k).trans (ih _)
  unfold offerQueue
  split
  · exact run (fun _ _ => offerItem_coreReach ..) _ (0, s)
  · exact .refl s

theorem offerQueue_of_other {c : RingCtx} (n : Nat) (s : State) (other : c.ty ≠ .prx) : offerQueue n c s = s := by
  unfold offerQueue
  split
  next h _ => exact absurd h other
  next => rfl

theorem flushGlobal_coreReach (s : State) : CoreReach s (flushGlobal s) := by
  unfold flushGlobal
  split
  · exact .refl s
  · have first : CoreReach s { s with hif := { s.hif with waitGlobal := [] } } := .of_rings rfl rfl
    exact first.trans (Told.foldl (fun t e => raiseAt_told ..) _ _).coreReach

/-! ### Events on one ring leave the others -/

theorem ring?_bump (c : Ctr) (o : Nat) (s : State) (m : Nat) : ring? (bump c o s) m = ring? s m := by
  unfold bump bumpN
  split
  · rfl
  · rfl

theorem ring?_writeEntry_other {n m : Nat} (d : Bytes) (s : State) (ne : m ≠ n) : ring? (writeEntry n d s) m = ring? s m := by
  unfold writeEntry
  split
  · rfl
  · rw [ring?_msixRing, ring?_withRing_other ne]

theorem ring?_raiseAt_other {n m : Nat} (code : Nat) (q : Bool) (t : BitVec 64) (b : Bytes) (s : State) (ne : m ≠ n) :
    ring? (raiseAt n code q t b s) m = ring? s m := by
  unfold raiseAt
  split
  · rfl
  · dsimp only
    split
    · rw [ring?_bump, ring?_withRing_other ne]
    · split
      · rw [ring?_writeEntry_other _ _ ne, ring?_withRing_other ne]
      · rw [ring?_withRing_other ne, ring?_withRing_other ne]

end Sys2Proof.Machine
end

section
/-! OBLIGATION. Rings come and go (O43). -/

namespace Sys2Proof.Machine

open Sys2Proof

set_option Elab.async false

/-! ### Taking a ring away (R395) -/

/-- A key that is not held is not there to be taken. -/
theorem FMap.del_of_get?_none {α : Type} {m : FMap α} {k : Nat} (absent : FMap.get? m k = none) : FMap.del m k = m := by
  induction m with
  | nil => rfl
  | cons e r ih =>
    rw [FMap.get?_cons] at absent
    split at absent
    · cases absent
    next ne =>
      have other : (!(e.1 == k)) = true := by simpa using ne
      have rest := ih absent
      unfold FMap.del at rest ⊢
      rw [List.filter_cons_of_pos (by exact other), rest]

theorem relock_coreReach (n c : Nat) (s : State) : CoreReach s (relock n c s) := by
  unfold relock
  split
  · next r _ _ =>
    have cleared : CoreReach s { s with sec := { s.sec with unlock := none } } := .of_rings rfl rfl
    exact .ite (cleared.trans (raise_told ..).coreReach) (.refl s)
  · exact .refl s

theorem endSession_coreReach (n c : Nat) (s : State) : CoreReach s (endSession n c s) := by
  unfold endSession
  split
  · exact .refl s
  · have ended : CoreReach s { s with sec := { s.sec with sessions := FMap.del s.sec.sessions n } } := .of_rings rfl rfl
    exact (ended.trans (raise_told ..).coreReach).trans (relock_coreReach ..)

/-- A ring is taken away: what follows keeps the other rings. -/
theorem removeRing_spec (n : Nat) (s : State) :
    CoreReach { s with hif := { s.hif with rings := FMap.del s.hif.rings n } } (removeRing n s) := by
  obtain ⟨u, hu⟩ : ∃ u, u = { s with hif := { s.hif with rings := FMap.del s.hif.rings n } } := ⟨_, rfl⟩
  unfold removeRing
  split
  next absent =>
    refine .of_rings rfl ?_
    change s.hif.rings = FMap.del s.hif.rings n
    exact (FMap.del_of_get?_none absent).symm
  next r held =>
    dsimp only
    rw [← hu]
    split
    · refine CoreReach.trans ?_ (endSession_coreReach ..)
      exact .of_rings (by rw [hu]; rfl) (by rw [hu])
    · exact .of_rings (by rw [hu]; rfl) (by rw [hu]; rfl)
    · exact bumpN_coreReach ..
    · refine (Told.foldl (fun t e => ?_) _ _).coreReach
      split
      · exact raiseAt_told ..
      · exact raiseNowhere_told ..
    · exact .refl u

theorem ring?_removeRing (n : Nat) (s : State) : ring? (removeRing n s) n = none := by
  have core := (removeRing_spec n s).cores n
  rw [show ring? { s with hif := { s.hif with rings := FMap.del s.hif.rings n } } n = none from FMap.get?_del_same ..] at core
  exact Option.map_eq_none_iff.mp core

theorem removeRing_agree (n : Nat) (s : State) : Agree sansQueues s (removeRing n s) :=
  (show Agree sansQueues s { s with hif := { s.hif with rings := FMap.del s.hif.rings n } } from rfl).trans (removeRing_spec n s).agree

theorem nonces_endSession (n c : Nat) (s : State) : (endSession n c s).sec.nonces = s.sec.nonces := by
  have locked (m k : Nat) (t : State) : (relock m k t).sec.nonces = t.sec.nonces := by
    unfold relock
    split
    · split
      · exact (raise_hifOnly ..).field (·.sec.nonces)
      · rfl
    · rfl
  unfold endSession
  split
  · rfl
  · exact (locked ..).trans ((raise_hifOnly ..).field (·.sec.nonces))

theorem nonces_removeRing (n : Nat) {s : State} (empty : s.sec.nonces = []) : (removeRing n s).sec.nonces = [] := by
  unfold removeRing
  split
  · exact empty
  · dsimp only
    split
    · refine (nonces_endSession ..).trans ?_
      dsimp only
      rw [empty]
      rfl
    · exact empty
    · exact ((bumpN_hifOnly ..).field (·.sec.nonces)).trans empty
    · refine ((HifOnly.foldl (fun t e => ?_) _ _).field (·.sec.nonces)).trans empty
      split
      · exact (raiseAt_told ..).hifOnly
      · exact (raiseNowhere_told ..).hifOnly
    · exact empty

/-! ### Making a ring (R394) -/

/-- A made ring has the context given and nothing in it but what was offered to it. -/
theorem makeRing_spec {n : Nat} {b : Option Bytes} {c : RingCtx} (s : State) (parsed : b.bind (parseCtx n) = some c) :
    Agree sansQueues s (makeRing n b s) ∧ ∃ r, ring? (makeRing n b s) n = some r ∧ r.ctx = c ∧ r.hostIdx = 0 ∧ r.stopped = false ∧
      (c.ty ≠ .prx → globalRing (makeRing n b s) ≠ some n → r.devIdx = 0) := by
  obtain ⟨u, hu⟩ : ∃ u, u = putRing n c s := ⟨_, rfl⟩
  have made : makeRing n b s = flushGlobal (offerQueue n c u) := by
    unfold makeRing
    rw [parsed, hu]
  have fresh : ring? u n = some (Ring.fresh c) := hu ▸ FMap.get?_set_same ..
  have reach : CoreReach u (flushGlobal (offerQueue n c u)) := (offerQueue_coreReach ..).trans (flushGlobal_coreReach ..)
  rw [made]
  refine ⟨(show Agree sansQueues s u from hu ▸ rfl).trans reach.agree, ?_⟩
  have core := reach.cores n
  rw [fresh] at core
  obtain ⟨r, here, same⟩ := Option.map_eq_some_iff.mp core
  simp only [Ring.core, Prod.mk.injEq] at same
  obtain ⟨ctx, host, stands⟩ := same
  refine ⟨r, here, ctx, host, stands, fun other elsewhere => ?_⟩
  rw [reach.globalRing] at elsewhere
  rw [offerQueue_of_other n u other] at here
  have kept : ring? (flushGlobal u) n = ring? u n := by
    unfold flushGlobal
    split
    · rfl
    next m at_ =>
      have ne : n ≠ m := fun same => elsewhere (same ▸ at_)
      have run (l : List Event) (v : State) : ring? (l.foldl (fun t e => raiseAt m e.code e.notice e.time e.body t) v) n = ring? v n := by
        induction l generalizing v with
        | nil => rfl
        | cons e r ih => rw [List.foldl_cons, ih, ring?_raiseAt_other _ _ _ _ _ ne]
      exact run ..
  rw [kept, fresh] at here
  rw [← Option.some.inj here]
  rfl

/-! ### The DOMAIN reset of the interface (R389) -/

/-- Without rings an event is only counted. -/
theorem raise_of_noRings {s : State} (code : Nat) (r : Option Nat) (b : Bytes) (noRings : s.hif.rings = []) :
    raise code r b s = bump .evtDropDevice 0 s := by
  have nowhere : globalRing s = none := by
    unfold globalRing
    dsimp only
    rw [noRings, FMap.has, FMap.get?_nil, Option.isSome_none, Bool.and_false]
    rfl
  have dest : evtDest s r = none := by
    unfold evtDest
    rw [nowhere]
    split
    next q held =>
      obtain ⟨k, -, at_⟩ := Option.bind_eq_some_iff.mp held
      rw [ring?, noRings, FMap.get?_nil] at at_
      cases at_
    next => rfl
  unfold raise
  rw [dest]
  rfl

/-- Without rings the end of a session takes the session and the unlock, and counts events. -/
theorem endSession_of_noRings {s : State} (n c : Nat) (noRings : s.hif.rings = []) :
    ∃ l k, endSession n c s = { s with sec := { s.sec with sessions := FMap.del s.sec.sessions n, unlock := l }, counters := k } := by
  unfold endSession
  split
  next absent =>
    refine ⟨s.sec.unlock, s.counters, ?_⟩
    rw [FMap.del_of_get?_none absent]
  next ses held =>
    dsimp only
    obtain ⟨u, hu⟩ : ∃ u, u = { s with sec := { s.sec with sessions := FMap.del s.sec.sessions n } } := ⟨_, rfl⟩
    have none' : u.hif.rings = [] := by rw [hu]; exact noRings
    rw [← hu, raise_of_noRings _ _ _ none']
    obtain ⟨v, hv⟩ : ∃ v, v = bump .evtDropDevice 0 u := ⟨_, rfl⟩
    have none'' : v.hif.rings = [] := by rw [hv]; exact none'
    have rest : ∃ l k, relock n 3 v = { v with sec := { v.sec with unlock := l }, counters := k } := by
      unfold relock
      split
      · split
        · obtain ⟨w, hw⟩ : ∃ w, w = { v with sec := { v.sec with unlock := none } } := ⟨_, rfl⟩
          rw [← hw]
          refine ⟨none, (bump .evtDropDevice 0 w).counters, (raise_of_noRings _ _ _ (by rw [hw]; exact none'')).trans ?_⟩
          rw [hw]
          rfl
        · exact ⟨_, _, rfl⟩
      · exact ⟨_, _, rfl⟩
    obtain ⟨l, k, eq⟩ := rest
    refine ⟨l, k, ?_⟩
    rw [← hv, eq, hv, hu]
    rfl

/-- Every session ends, one after the other. -/
theorem endSessions_of_noRings (l : List Nat) {s : State} (c : Nat) (noRings : s.hif.rings = []) :
    ∃ x k, l.foldl (fun t n => endSession n c t) s =
      { s with sec := { s.sec with sessions := s.sec.sessions.filter (fun e => !l.contains e.1), unlock := x }, counters := k } := by
  induction l generalizing s with
  | nil =>
    refine ⟨s.sec.unlock, s.counters, ?_⟩
    rw [List.filter_eq_self.mpr (fun _ _ => by simp)]
    rfl
  | cons n r ih =>
    obtain ⟨x, k, first⟩ := endSession_of_noRings n c noRings
    obtain ⟨y, j, rest⟩ := ih (s := endSession n c s) (by rw [first]; exact noRings)
    refine ⟨y, j, ?_⟩
    rw [List.foldl_cons, rest, first]
    have both : (FMap.del s.sec.sessions n).filter (fun e => !r.contains e.1) = s.sec.sessions.filter (fun e => !(n :: r).contains e.1) := by
      unfold FMap.del
      rw [List.filter_filter]
      congr 1
      funext e
      rw [List.contains_cons, Bool.not_or, Bool.and_comm]
    rw [← both]

/-- The interface once its rings have been taken away (R389). -/
def hifCleared (s : State) : State :=
  { s with hif := { s.hif with
      rings := [], busy := false, result := 0, pollNs := 500, pollAt := now s, msix := [], msixTable := []
      statsBuf := false, mbxStatus := 0, loHeld := [], hiCapture := []
      notices := s.hif.notices.filter (fun n => n.code != Ev.ringStarved && n.code != Ev.statsTruncated) } }

theorem hifDomainReset_spec (s : State) : ∃ u, Agree sansQueues (resetHifRegs { s with sec := { s.sec with sessions := [], nonces := [] } }) u ∧
    u.sec.nonces = [] ∧ u.hif.rings = [] ∧ u.hif.pollNs = 500 ∧ u.hif.msix = [] ∧ u.hif.msixTable = [] ∧
    hifDomainReset s = (FMap.keys s.sec.sessions).foldl (fun t n => endSession n 3 t) { u with sec := { u.sec with sessions := s.sec.sessions } } := by
  obtain ⟨v, hv⟩ : ∃ v, v = resetHifRegs { s with sec := { s.sec with sessions := [], nonces := [] } } := ⟨_, rfl⟩
  have removed (l : List Nat) (w : State) (none' : w.sec.nonces = []) :
      Agree sansQueues w (l.foldl (fun t n => removeRing n t) w) ∧ (l.foldl (fun t n => removeRing n t) w).sec.nonces = [] := by
    induction l generalizing w with
    | nil => exact ⟨.refl w, none'⟩
    | cons n r ih =>
      obtain ⟨agree, empty⟩ := ih (removeRing n w) (nonces_removeRing n none')
      exact ⟨(removeRing_agree n w).trans agree, empty⟩
  obtain ⟨agree, empty⟩ := removed (FMap.keys v.hif.rings) v (by rw [hv]; rfl)
  obtain ⟨w, hw⟩ : ∃ w, w = (FMap.keys v.hif.rings).foldl (fun t n => removeRing n t) v := ⟨_, rfl⟩
  rw [← hw] at agree empty
  refine ⟨hifCleared w, hv ▸ agree, empty, rfl, rfl, rfl, rfl, ?_⟩
  unfold hifDomainReset
  dsimp only
  rw [← hv, ← hw]
  rfl

/-! ### The obligation -/

theorem answers_ringOp {n : Nat} {s : State} (op : State → State) (served : barOpen s = true) (small : n < 512) :
    onlyIf (barOpen s && decide (n < 512)) (op s) s = op s := by
  rw [served, decide_eq_true small]
  rfl

/-- Settles O43: each operation by its check, its removal and its making. -/
theorem ringsComeAndGo : Obligations.RingsComeAndGo := by
  unfold Obligations.RingsComeAndGo
  intro s n b
  refine ⟨fun served small => ?ops, ?reset, fun v served => ?kick⟩
  case kick =>
    change Host.Outcome.next (onlyIf _ _ _) = _
    rw [served]
    rfl
  case ops =>
    intro made
    have made_of {u v : State} {c : RingCtx} (from_ : Agree sansQueues s v) (parsed : b.bind (parseCtx n) = some c)
        (is : u = ringResult Rr.ok (makeRing n b v)) : made c u := by
      obtain ⟨agree, r, here, ctx, host, stands, index⟩ := makeRing_spec v parsed
      have all := from_.trans agree
      rw [is]
      exact ⟨rfl, rfl, all.field (·.regs), all.field (·.chans), r, here, ctx, host, stands, index⟩
    refine ⟨fun bad => ?_, fun c ok parsed => ?_, fun bad => ?_, fun c ok parsed => ?_, fun bad => ?_, fun ok => ?_⟩
    · refine congrArg Host.Outcome.next ((answers_ringOp (ringCreate n b) served small).trans ?_)
      unfold ringCreate
      dsimp only
      rw [beq_eq_false_iff_ne.mpr bad]
      rfl
    · refine ⟨_, congrArg Host.Outcome.next (answers_ringOp (ringCreate n b) served small), made_of (.refl s) parsed ?_⟩
      unfold ringCreate
      dsimp only
      rw [ok]
      rfl
    · refine congrArg Host.Outcome.next ((answers_ringOp (ringReset n b) served small).trans ?_)
      unfold ringReset
      dsimp only
      rw [beq_eq_false_iff_ne.mpr bad]
      rfl
    · refine ⟨_, congrArg Host.Outcome.next (answers_ringOp (ringReset n b) served small), made_of (removeRing_agree n s) parsed ?_⟩
      unfold ringReset
      dsimp only
      rw [ok]
      rfl
    · refine congrArg Host.Outcome.next ((answers_ringOp (ringDestroy n) served small).trans ?_)
      unfold ringDestroy
      dsimp only
      rw [beq_eq_false_iff_ne.mpr bad]
      rfl
    · have goes : ringDestroy n s = ringResult Rr.ok (removeRing n s) := by
        unfold ringDestroy
        dsimp only
        rw [ok]
        rfl
      have agree := removeRing_agree n s
      refine ⟨_, congrArg Host.Outcome.next ((answers_ringOp (ringDestroy n) served small).trans goes), ?_, rfl,
        agree.field (·.regs), agree.field (·.chans)⟩
      exact ring?_removeRing n s
  case reset =>
    obtain ⟨u, agree, nonces, rings, poll, msix, table, goes⟩ := hifDomainReset_spec s
    obtain ⟨x, k, ends⟩ := endSessions_of_noRings (s := { u with sec := { u.sec with sessions := s.sec.sessions } })
      (FMap.keys s.sec.sessions) 3 rings
    refine ⟨_, congrArg Host.Outcome.next (goes.trans ends), rings, ?_, nonces, poll, msix, table, agree.field (·.chans),
      agree.field (·.fsc), agree.field (·.endp), agree.field (·.avl), agree.field (·.sec.enrolled), agree.field (·.sec.identity)⟩
    refine List.filter_eq_nil_iff.mpr (fun e inside => ?_)
    have key : e.1 ∈ FMap.keys s.sec.sessions := List.mem_map_of_mem inside
    simp [key]

end Sys2Proof.Machine
end

section
/-! OBLIGATION. Transfers between rings and the device (O44), refuted: where the rings are not listed in rising order, a change of a
ring lists it twice, and the cells of the items that wait for it count twice against the pool that an item was promised (R308, R413). -/

namespace Sys2Proof.Machine

open Sys2Proof Sys2Proof.Tests

set_option Elab.async false

/-- A PTX ring to queue 16383 for which a received item in the extension still waits. -/
def crowdedPtx : Ring := { ptxR with waiting := [{ prxI 0 with ext := true }] }

/-- The device with that ring listed behind ring 10, an extension of two cells, and a queue of class 1 that lies in it. -/
def crowdedS : State :=
  { up with
    hif := { up.hif with rings := [(10, Ring.fresh (ctxOf .evt)), (9, crowdedPtx)] }
    qmg := { up.qmg with extSize := 2, queues := [(16383, { qu1 with cls := 1, placement := 2 })] } }

/-- The item is taken from its ring, but no cell is left for it: nothing is presented. -/
theorem presented_crowdedS :
    (ptxItem 9 [dsc [1]] (advance 5 crowdedS)).fsc.presented = crowdedS.fsc.presented := by decide +kernel

/-- Refutes O44: an item for a queue that need not wait is lost without its arrival, because taking it lists its ring a second time
and with it the cells of the item that waits for that ring. -/
theorem not_ringTransfers : ¬ Obligations.RingTransfers := by
  unfold Obligations.RingTransfers
  intro holds
  obtain ⟨-, transmit, -⟩ := holds crowdedS 9 5 crowdedPtx (by decide +kernel)
  obtain ⟨-, -, queued⟩ := transmit [dsc [1]] (by decide +kernel)
  obtain ⟨linked, -⟩ := queued [1] (by decide +kernel) (by decide +kernel) (by decide +kernel) (by decide +kernel)
  obtain ⟨u, runs, -, fsc⟩ := linked (by decide +kernel) (by decide +kernel)
  have went : exec (.ptxItem 9 [dsc [1]] 5) crowdedS = .next (ptxItem 9 [dsc [1]] (advance 5 crowdedS)) := by
    change Host.Outcome.next (onlyIf (ptxReady (advance 5 crowdedS) 9 [dsc [1]]) _ _) = _
    rw [show ptxReady (advance 5 crowdedS) 9 [dsc [1]] = true by decide +kernel]
    rfl
  rw [went] at runs
  injection runs with same
  have stuck := presented_crowdedS
  rw [same, fsc] at stuck
  simp at stuck

end Sys2Proof.Machine
end

section
/-! OBLIGATION. What the device writes on its own (O45). -/

namespace Sys2Proof.Machine

open Sys2Proof

set_option Elab.async false

/-! ### The host interface alone -/

/-- But for the host interface. -/
def sansHif (s : State) : State := { s with hif := Hif.reset }

theorem Agree.hifAlone {s t : State} (agree : Agree sansHif s t) : t = { s with hif := t.hif } :=
  agree.frame (fun v => { v with hif := t.hif })

theorem writeEntry_hif (n : Nat) (d : Bytes) (s : State) : Agree sansHif s (writeEntry n d s) := by
  unfold writeEntry
  split
  · exact .refl s
  · exact (show Agree sansHif s (withRing n _ s) from rfl).trans (.ite rfl (.refl _))

theorem ring?_writeEntry_same {n : Nat} {s : State} {r : Ring} (d : Bytes) (held : ring? s n = some r) :
    ring? (writeEntry n d s) n = some { r with
      written := FMap.set r.written (r.pos r.devIdx) (setPhase (phaseBit r.ctx.log2 r.devIdx) d), devIdx := r.devIdx + 1 } := by
  simp only [writeEntry, held]
  exact (ring?_msixRing ..).trans (ring?_withRing_same held)

/-! ### Long operations (R406) -/

theorem longOp?_withLong (n : Nat) {f : LongOp → LongOp} (s : State) (kept : ∀ o, (f o).opId = o.opId) :
    longOp? (withLong n f s) n = (longOp? s n).map f := by
  have same : ((fun o : LongOp => o.opId == n) ∘ fun o => if o.opId == n then f o else o) = fun o => o.opId == n := by
    funext o
    simp only [Function.comp]
    split
    · rw [kept]
    · rfl
  unfold longOp? withLong
  dsimp only
  rw [List.find?_map, same]
  cases found : s.hif.longOps.find? (fun o => o.opId == n) with
  | none => rfl
  | some o =>
    have is := List.find?_some found
    rw [Option.map_some, Option.map_some, if_pos is]

/-- What an operation's position may move. -/
theorem progress_spec {n : Nat} {s : State} {o : LongOp} (pos : Nat) (held : longOp? s n = some o) :
    ∃ p, longOp? (progress n pos s) n = some p ∧ p.position = max o.position pos ∧ p.total = o.total ∧ p.tag = o.tag := by
  obtain ⟨u, hu⟩ : ∃ u, u = withLong n (fun o => { o with position := max o.position pos }) s := ⟨_, rfl⟩
  have now_ : longOp? u n = some { o with position := max o.position pos } := by
    rw [hu, longOp?_withLong _ _ (by intro; rfl), held]
    rfl
  unfold progress
  dsimp only
  rw [← hu, now_]
  dsimp only
  split
  · have told (c : Nat) (r : Option Nat) (b : Bytes) (v : State) : longOp? (raise c r b v) n = longOp? v n := by
      unfold longOp?
      rw [(raise_told c r b v).hif Hif.longOps]
    unfold raiseProgress
    rw [now_]
    dsimp only
    rw [told, longOp?_withLong _ _ (by intro; rfl), now_]
    exact ⟨_, rfl, rfl, rfl, rfl⟩
  · exact ⟨_, now_, rfl, rfl, rfl⟩

/-! ### Statistics blocks (R419) -/

/-- The figures of the interface that a block moves stand while it is told and its extremes begin again. -/
theorem writeStats_spec (s : State) :
    (writeStats s).hif.statsSeq = s.hif.statsSeq + 1 ∧ (writeStats s).hif.statsBuf = !s.hif.statsBuf ∧
    (writeStats s).hif.statsAt = s.hif.statsAt ∧ (writeStats s).hif.stats = some (b2n s.hif.statsBuf, statsBlock s (s.hif.statsSeq + 1)) ∧
    (writeStats s).regs = s.regs := by
  obtain ⟨g, hg⟩ : ∃ g : State → Nat × Bool × Ns × Option (Nat × Bytes) × FMap (BitVec 32),
      g = fun u => (u.hif.statsSeq, u.hif.statsBuf, u.hif.statsAt, u.hif.stats, u.regs) := ⟨_, rfl⟩
  have tells (u v : State) (told : Told u v) : g v = g u := by
    rw [hg]
    dsimp only
    rw [told.hif Hif.statsSeq, told.hif Hif.statsBuf, told.hif Hif.statsAt, told.hif Hif.stats, told.field (·.regs)]
  have cut (u : State) : g (truncated u) = g u := by
    obtain ⟨v, hv⟩ : ∃ v, v = { u with hif := { u.hif with statsFit := !decide (statsSize u < statsNeed u) } } := ⟨_, rfl⟩
    have first : g v = g u := by rw [hv, hg]
    unfold truncated
    dsimp only
    rw [← hv]
    split
    · obtain ⟨f, told⟩ := crossing_told Ev.statsTruncated 0 false 0 (statsNeed u) (noticeBody 0 0 (statsNeed u)) none false v
      refine (tells _ _ told).trans (Eq.trans ?_ first)
      rw [hg]
      rfl
    · rw [← first, hg]
      rfl
  have high (f : Fig) (k : Nat) (u : State) : g (keepHigh f k u) = g u := by
    rw [keepHigh_frame, hg]
  have extremes (u : State) : g (resetHighs u) = g u := by
    unfold resetHighs
    dsimp only
    rw [show ∀ v, g (putFig .tempLow 0 0 u.avl.tempDeciC (putFig .tempHigh 0 0 u.avl.tempDeciC v)) = g v by intro v; rw [hg]; rfl,
      high, high, high, high, high, hg]
  obtain ⟨v, hv⟩ : ∃ v, v = { s with hif := { s.hif with
      statsSeq := s.hif.statsSeq + 1, statsBuf := !s.hif.statsBuf, stats := some (b2n s.hif.statsBuf, statsBlock s (s.hif.statsSeq + 1)) } } :=
    ⟨_, rfl⟩
  have counted : g (if flag s .statsCtrl 0 8 then msixCount (fld s .statsCtrl 0 14 9) v else v) = g v := by
    rw [hg]
    split
    · rfl
    · rfl
  have all : g (writeStats s) = g v := by
    unfold writeStats
    dsimp only
    rw [extremes, cut, ← hv, counted]
  rw [hg, hv] at all
  simp only [Prod.mk.injEq] at all
  exact all

/-! ### The obligation -/

/-- Settles O45: each write by its own rule. -/
theorem deviceWrites : Obligations.DeviceWrites := by
  unfold Obligations.DeviceWrites
  intro s n t s1
  refine ⟨fun r e rest held waits ready => ⟨?_, ?_⟩, fun r held due => ⟨?_, ?_⟩, fun m small shown due held => ?_, fun due => ⟨?_, ?_⟩,
    fun o pos held => ?_, fun h code mark obj x ready held => ?_⟩
  · change Host.Outcome.next (onlyIf _ _ _) = _
    rw [ready]
    rfl
  · obtain ⟨u, hu⟩ : ∃ u, u = withRing n (fun q => { q with backlog := rest }) s := ⟨_, rfl⟩
    have goes : exec (.eventWrite n true) s = .next (writeEntry n (eventEntry e) u) := by
      change Host.Outcome.next (onlyIf _ _ _) = _
      rw [ready, onlyIf, if_pos rfl, if_pos rfl]
      unfold writeBacklog
      rw [held]
      dsimp only
      rw [waits, hu]
    have now_ : ring? u n = some { r with backlog := rest } := hu ▸ ring?_withRing_same held
    refine ⟨_, goes, ?_, _, ring?_writeEntry_same _ now_, rfl, rfl, rfl, FMap.get?_set_same ..⟩
    exact ((show Agree sansHif s u by rw [hu]; rfl).trans (writeEntry_hif ..)).hifAlone
  · change Host.Outcome.next (onlyIf _ _ _) = _
    rw [show slotDue (advance t s) n (now (advance t s)) = true from due]
    rfl
  · change Host.Outcome.next (onlyIf _ _ _) = _
    rw [show slotDue (advance t s) n (now (advance t s)) = true from due]
    rfl
  · change Host.Outcome.next (onlyIf _ _ _) = _
    rw [decide_eq_true small, show slotsWritten (advance t s) n = true from shown,
      show msixDue (advance t s) n (now (advance t s)) = true from due]
    rw [Bool.and_self, Bool.and_self, onlyIf, if_pos rfl]
    unfold msixFire
    dsimp only
    rw [FMap.adj_of_get? (m := (advance t s).hif.msix) _ held]
    rfl
  · change Host.Outcome.next (onlyIf _ _ _) = _
    rw [show statsDue (advance t s) = true from due]
    rfl
  · have goes : exec (.statsBlock t true) s = .next (writeStats { s1 with hif := { s1.hif with statsAt := now s1 } }) := by
      change Host.Outcome.next (onlyIf _ _ _) = _
      rw [show statsDue (advance t s) = true from due, onlyIf, if_pos rfl]
      exact congrArg _ (if_pos rfl)
    exact ⟨_, goes, writeStats_spec _⟩
  · exact ⟨_, rfl, (progress_hifOnly n pos s1).eq, progress_spec pos (show longOp? s1 n = some o from held)⟩
  · intro left
    refine answers_done (i := .noticeAck h code mark obj) rfl ready ?_
    have held' : notice? (take h.ring s) code obj mark = some x := held
    unfold noticeAckOwn
    rw [held']
    rfl

end Sys2Proof.Machine
end

section
/-! OBLIGATION. The endpoint directory (O49). -/

namespace Sys2Proof.Machine

open Sys2Proof

set_option Elab.async false

theorem length_padTo (n : Nat) (d : Bytes) : (padTo n d).length = n := by
  unfold padTo zeros
  rw [List.length_take, List.length_append, List.length_replicate]
  omega

/-- The end of a long operation leaves what the host interface holds beside rings, events and operations. -/
theorem endLong_hif {α : Type} (f : Hif → α) (blind : ∀ h r w m l, f { h with rings := r, waitGlobal := w, msix := m, longOps := l } = f h)
    (i c : Nat) (b : Bytes) (s : State) : f (endLong i c b s).hif = f s.hif := by
  have told {t u : State} (h : Told t u) : f u.hif = f t.hif := h.hif f (fun r w m => blind t.hif r w m t.hif.longOps)
  unfold endLong
  split
  · rfl
  · dsimp only
    have first := blind s.hif s.hif.rings s.hif.waitGlobal s.hif.msix (s.hif.longOps.filter (fun p => p.opId != i))
    split
    · exact (told (raise_told ..)).trans first
    · exact (told (raise_told ..)).trans ((told (raise_told ..)).trans first)

/-- Accepting a long operation whose check passes. -/
theorem acceptLong_of_ok {opcode st total : Nat} {h : CmdHdr} {effect : Nat → State → State} {s : State} (ok : st = St.ok)
    (room : s.hif.longOps.length < 256) :
    acceptLong opcode h total st effect (take h.ring s) =
      .done St.accepted (toLE 4 s.hif.nextOpId) (effect s.hif.nextOpId (begun opcode total h s)) := by
  have free : ¬ 256 ≤ (take h.ring s).hif.longOps.length := Nat.not_le.mpr room
  rw [acceptLong, if_neg (fun bad => bad ok), beginLong, if_neg free]
  rfl

/-- The entry of a slot that is put, and the reference of one that is new (R469, R472). -/
theorem putBlock_spec (b : Bytes) (g : Nat) (s : State) :
    putBlock b g s = { s with epd := { s.epd with entries := (putBlock b g s).epd.entries, refs := (putBlock b g s).epd.refs } } ∧
    (∀ n, slotOf s (epdAddr b) = some n →
      (putBlock b g s).epd.entries = FMap.adj s.epd.entries n (putEntryBlock b g) ∧ (putBlock b g s).epd.refs = s.epd.refs) ∧
    (slotOf s (epdAddr b) = none →
      (putBlock b g s).epd.entries = FMap.set s.epd.entries (putSlot s b) (putEntryBlock b g (EpdEntry.fresh (epdAddr b))) ∧
      (putBlock b g s).epd.refs = (placeRef s.epd.kIdx s.epd.refs (epdAddr b) (putSlot s b)).getD s.epd.refs) := by
  unfold putBlock
  dsimp only
  cases found : slotOf s (epdAddr b) with
  | none => exact ⟨rfl, fun _ bad => (by cases bad), fun _ => ⟨rfl, rfl⟩⟩
  | some n =>
    refine ⟨rfl, fun m same => ?_, fun bad => by cases bad⟩
    cases same
    exact ⟨rfl, rfl⟩

/-- Whether a reference finds a place does not turn on its slot. -/
theorem placeRef_isSome (k : Bytes) (l : List EpdRef) (a : BitVec 64) (n m : Nat) :
    (placeRef k l a n).isSome = (placeRef k l a m).isSome := by
  unfold placeRef
  dsimp only
  split
  · rfl
  · split
    · rfl
    · split
      · rfl
      · rfl

/-- A new entry that the checks let pass has its reference. -/
theorem placed_of_status {s : State} {b : Bytes} (ok : epdPutStatus s b = St.ok) (new : slotOf s (epdAddr b) = none) (n : Nat) :
    (placeRef s.epd.kIdx s.epd.refs (epdAddr b) n).isSome = true := by
  rw [placeRef_isSome _ _ _ n 0]
  by_contra bad
  rw [Bool.not_eq_true, Option.isSome_eq_false_iff] at bad
  unfold epdPutStatus at ok
  rw [new, bad] at ok
  simp only [Option.isSome_none, Bool.false_eq_true, if_false, if_true] at ok
  split at ok
  · cases ok
  · split at ok
    · cases ok
    · cases ok

theorem loadEntries_load (n i : Nat) (b : Bytes) (s : State) : (loadEntries n i b s).2.2.epd.load = s.epd.load := by
  induction n generalizing i b s with
  | zero => rfl
  | succ n ih =>
    unfold loadEntries
    dsimp only
    split
    · rw [ih, (putBlock_spec ..).1]
    · rfl

/-- Settles O49: the commands by their own parts, the ends by what they leave of the directory and of their operation. -/
theorem endpointDirectory : Obligations.EndpointDirectory := by
  unfold Obligations.EndpointDirectory
  intro h s s1 b
  refine ⟨fun ready ok => ?put, fun a n ready found => ?delete, fun a ready absent => ?_, fun a n e ready found held => ?_,
    fun k => ?load, fun k => ?export_, fun ready idle room => ?rebuild, fun ready => ?clear, fun up => ⟨fun i d rest waits => ?loaded,
    fun i k rest waits => ?exported, fun op k runs => ?switch⟩⟩
  case put =>
    obtain ⟨frame, old, new⟩ := putBlock_spec b 0 s1
    refine ⟨putBlock b 0 s1, answers_done (i := .epdPut h) rfl ready ?_, frame, old, fun absent => ?_⟩
    · unfold epdPutOwn
      rw [show epdPutStatus (take h.ring s) (blk h) = St.ok from ok, if_pos rfl]
      rfl
    · obtain ⟨entries, refs⟩ := new absent
      refine ⟨entries, ?_⟩
      obtain ⟨l, placed⟩ := Option.isSome_iff_exists.mp (placed_of_status ok absent (putSlot s b))
      rw [refs]
      have placed' : placeRef s.epd.kIdx s.epd.refs (epdAddr b) (putSlot s b) = some l := placed
      change some ((placeRef s.epd.kIdx s.epd.refs (epdAddr b) (putSlot s b)).getD s.epd.refs) = _
      rw [placed', Option.getD_some]
  case delete =>
    refine ⟨deleteEntry n s1, answers_done (i := .epdDelete h a) rfl ready ?_, ?_, ?_⟩
    · unfold epdDeleteOwn
      rw [show slotOf (take h.ring s) a = some n from found]
    · unfold deleteEntry
      dsimp only
      split
      next empty => exact (List.isEmpty_iff.mp empty).symm
      next => rfl
    · unfold deleteEntry
      dsimp only
      split
      · intro bad
        exact absurd rfl bad
      · exact fun _ => ⟨rfl, rfl⟩
  · refine answers_done (i := .epdDelete h a) rfl ready ?_
    unfold epdDeleteOwn
    rw [show slotOf (take h.ring s) a = none from absent]
  · refine answers_done (i := .epdGet h a) rfl ready ?_
    unfold epdGetOwn
    rw [show slotOf (take h.ring s) a = some n from found, Option.bind_some, show epdEntry? (take h.ring s) n = some e from held]
    rfl
  case load =>
    intro c ready low high room
    refine answers_done (i := .epdLoad h k) rfl ready ((acceptLong_of_ok ?_ room).trans rfl)
    rw [countStatus, decide_eq_true low, decide_eq_true high]
    rfl
  case export_ =>
    intro c ready low high room
    refine answers_done (i := .epdExport h k) rfl ready ((acceptLong_of_ok ?_ room).trans rfl)
    rw [countStatus, decide_eq_true low, decide_eq_true high]
    rfl
  case rebuild =>
    refine ⟨(drawBytes 16 s).1, length_padTo .., answers_done (i := .epdRebuild h) rfl ready ((acceptLong_of_ok ?_ room).trans rfl)⟩
    rw [rebuildStatus, show (take h.ring s).epd.rebuild = none from idle]
    rfl
  case clear => exact ⟨(drawBytes 16 s).1, length_padTo .., answers_done (i := .epdClear h) rfl ready rfl⟩
  case loaded =>
    obtain ⟨u, hu⟩ : ∃ u, u = loadEntries (d.length / 128) 0 d { s with epd := { s.epd with load := rest } } := ⟨_, rfl⟩
    have runs : exec .epdLoadDone s = .next (endLong i u.1 [] (withLong i (fun o => { o with position := u.2.1 }) u.2.2)) := by
      change Host.Outcome.next (onlyIf _ _ _) = _
      rw [up, onlyIf, if_pos rfl]
      unfold loadDone
      rw [waits, hu]
      rfl
    have epd : (endLong i u.1 [] (withLong i (fun o => { o with position := u.2.1 }) u.2.2)).epd = u.2.2.epd :=
      (endLong_hifOnly ..).field (·.epd)
    refine ⟨_, runs, longOp?_endLong .., ?_, ?_⟩
    · rw [epd, hu, loadEntries_load]
    · rw [epd, hu]
  case exported =>
    obtain ⟨u, hu⟩ : ∃ u, u = withLong i (fun o => { o with position := ((FMap.vals s.epd.entries).take k).length })
        (writeBlock (((FMap.vals s.epd.entries).take k).flatMap entryBytes) (withEpd (fun e => { e with export_ := rest }) s)) := ⟨_, rfl⟩
    have runs : exec .epdExportDone s = .next (endLong i St.ok (toLE 4 ((FMap.vals s.epd.entries).take k).length) u) := by
      change Host.Outcome.next (onlyIf _ _ _) = _
      rw [up, onlyIf, if_pos rfl]
      unfold exportDone
      rw [waits, hu]
    refine ⟨_, runs, longOp?_endLong .., ?_, ?_⟩
    · rw [(endLong_hifOnly ..).field (·.epd), hu]
      rfl
    · rw [endLong_hif Hif.wrote (by intros; rfl), hu]
      rfl
  case switch =>
    have goes : exec .epdRebuildSwitch s = .next (rebuildSwitch s) := by
      change Host.Outcome.next (onlyIf _ _ _) = _
      rw [up]
      rfl
    refine ⟨_, goes, ?_⟩
    unfold rebuildSwitch
    rw [runs]
    dsimp only
    cases op with
    | none => exact ⟨rfl, fun i bad => by cases bad⟩
    | some j =>
      refine ⟨(endLong_hifOnly ..).field (·.epd), fun i same => ?_⟩
      cases same
      exact longOp?_endLong ..

end Sys2Proof.Machine
end

section
/-! OBLIGATION. Identity, attestation, the mailbox and user kernels (O48). -/

namespace Sys2Proof.Machine

open Sys2Proof

set_option Elab.async false

/-- An enrolment leaves the keys of its block and touches Endpaper and the host interface beside them (R435, R436). -/
theorem enrol_spec (n : Nat) (b : Bytes) (s : State) : ∃ e f,
    HifOnly { s with endp := e, free := f, sec := { s.sec with
      enrolled := true, viewKey := sub b 0x10 32, operKey := sub b 0x30 32, ownerKey := sub b 0x50 32
      signHash := sub b 0x70 32, fails := [], backoff := [], unlock := none } } (enrol n b s) :=
  ⟨(endpWrite s).endp, (endpWrite s).free, raise_hifOnly ..⟩

/-- Settles O48: the answers by their own parts, the ends of a load by what the end of an operation leaves. -/
theorem attestationAndUserKernels : Obligations.AttestationAndUserKernels := by
  unfold Obligations.AttestationAndUserKernels
  intro h s s1
  refine ⟨fun ready => answers_done (i := .idKeys h) rfl ready rfl, fun c ready => answers_done (i := .attest h c) rfl ready rfl,
    fun open_ => ⟨?_, ?_⟩, fun b open_ => ⟨fun bad => ?refused, fun d given ok => ?enrolled⟩, fun ready ok room => ?load,
    fun i raw rest waits => ⟨fun e bad => ?failed, fun k good => ?loaded⟩, fun ready ok => ?clear⟩
  · change Host.Outcome.next (onlyIf (mbxTakeable s) _ _) = _
    rw [open_]
    rfl
  · change Host.Outcome.next (onlyIf (mbxTakeable s) _ _) = _
    rw [open_]
    rfl
  case refused =>
    change Host.Outcome.next (onlyIf (mbxTakeable s) _ _) = _
    rw [open_, beq_eq_false_iff_ne.mpr bad]
    rfl
  case enrolled =>
    have runs : exec (.mbxOwnerEnrol b) s = .next (mbxEnd (mbxEnrolStatus s b) (enrol 0xFFFF (b.getD []) s)) := by
      change Host.Outcome.next (onlyIf (mbxTakeable s) _ _) = _
      rw [open_, beq_iff_eq.mpr ok]
      rfl
    obtain ⟨e, f, only⟩ := enrol_spec 0xFFFF (b.getD []) s
    rw [given, Option.getD_some] at only
    refine ⟨_, runs, ok, ?_⟩
    rw [given, Option.getD_some]
    exact ⟨only.field (·.sec.enrolled), only.field (·.sec.viewKey), only.field (·.sec.operKey), only.field (·.sec.ownerKey),
      only.field (·.sec.signHash), only.field (·.chans), only.field (·.regs)⟩
  case load =>
    exact answers_done (i := .userKernelsLoad h) rfl ready ((acceptLong_of_ok ok room).trans rfl)
  case failed =>
    have runs : exec .userKernelsLoadDone s =
        .next (endLong i e.1 (imageDetail e.1 e.2) { s with avl := { s.avl with ukLoading := rest } }) := by
      change Host.Outcome.next (userLoadDone s) = _
      unfold userLoadDone
      rw [waits]
      dsimp only
      rw [bad]
    exact ⟨_, runs, (endLong_hifOnly ..).field (·.code), (endLong_hifOnly ..).field (·.avl), longOp?_endLong ..⟩
  case loaded =>
    have runs : exec .userKernelsLoadDone s = .next (endLong i St.ok [] (withLong i (fun o => { o with position := o.total })
        (putUser (some k) { s with avl := { s.avl with ukLoading := rest, userStored := some k } }))) := by
      change Host.Outcome.next (userLoadDone s) = _
      unfold userLoadDone
      rw [waits]
      dsimp only
      rw [good]
    exact ⟨_, runs, longOp?_endLong .., (endLong_hifOnly ..).field (·.avl), (endLong_hifOnly ..).field (·.code)⟩
  case clear =>
    exact answers_done (i := .userKernelsClear h) rfl ready (checked_of_ok _ _ ok)

end Sys2Proof.Machine
end

section
/-! OBLIGATION. Sessions, keys and the setup lock (O47). -/

namespace Sys2Proof.Machine

open Sys2Proof

set_option Elab.async false

/-! ### What the end of a session leaves (R434, R437) -/

/-- An unlock, unless it is of a ring. -/
def unlockBut (n : Nat) (u : Option (Nat × Ns)) : Option (Nat × Ns) := u.filter (fun e => e.1 != n)

theorem unlockBut_ne (n : Nat) (u : Option (Nat × Ns)) (e : Ns) : unlockBut n u ≠ some (n, e) := by
  intro same
  simpa using (Option.filter_eq_some_iff.mp same).2

theorem relock_spec (n c : Nat) (s : State) :
    HifOnly { s with sec := { s.sec with unlock := unlockBut n s.sec.unlock } } (relock n c s) := by
  unfold relock
  split
  next r e held =>
    rw [held]
    split
    next own =>
      have gone : unlockBut n (some (r, e)) = none := by simp [unlockBut, own]
      rw [gone]
      exact raise_hifOnly ..
    next other =>
      have stays : unlockBut n (some (r, e)) = s.sec.unlock := by simp [unlockBut, other, held]
      rw [stays]
      exact .refl s
  next free =>
    have none' : unlockBut n s.sec.unlock = s.sec.unlock := by rw [free]; rfl
    rw [none']
    exact .refl s

theorem endSession_spec {n : Nat} {s : State} (c : Nat) (held : FMap.has s.sec.sessions n = true) :
    HifOnly { s with sec := { s.sec with sessions := FMap.del s.sec.sessions n, unlock := unlockBut n s.sec.unlock } }
      (endSession n c s) := by
  obtain ⟨ses, at_⟩ := Option.isSome_iff_exists.mp held
  unfold endSession
  rw [at_]
  dsimp only
  obtain ⟨u, hu⟩ : ∃ u, u = raise Ev.sessionEnd (some n) (sessionEndBody n ses.privilege c)
      { s with sec := { s.sec with sessions := FMap.del s.sec.sessions n } } := ⟨_, rfl⟩
  have raised : HifOnly { s with sec := { s.sec with sessions := FMap.del s.sec.sessions n } } u := hu ▸ raise_hifOnly ..
  have ended := relock_spec n 3 u
  rw [← hu]
  rw [raised.eq] at ended ⊢
  exact ended

/-- But for sessions, the unlock, the host interface and the counters. -/
def sansEnds (s : State) : State :=
  { s with sec := { s.sec with sessions := [], unlock := none }, hif := Hif.reset, counters := [] }

theorem endSession_ends (n c : Nat) (s : State) : Agree sansEnds s (endSession n c s) := by
  cases held : FMap.has s.sec.sessions n with
  | true => exact (show Agree sansEnds s { s with sec := _ } from rfl).trans (endSession_spec c held).agree
  | false =>
    have none' : FMap.get? s.sec.sessions n = none := Option.isNone_iff_eq_none.mp (by simpa [FMap.has] using held)
    unfold endSession
    rw [none']
    exact .refl s

theorem countOut_ends (n : Nat) (s : State) : Agree sansEnds s (countOut n s) := by
  unfold countOut
  split
  · exact .ite (endSession_ends ..) (.refl s)
  · exact .refl s

theorem finish_ends (c : CmdSpec) (h : CmdHdr) (s : State) (st : Nat) (b : Bytes) (u : State) : Agree sansEnds u (finish c h s st b u) :=
  (complete_told ..).hifOnly.agree.trans (countOut_ends ..)

/-- A session that has not reached its last command is not ended by its completion. -/
theorem finish_hifOnly {c : CmdSpec} {h : CmdHdr} {s u : State} (st : Nat) (b : Bytes)
    (few : ∀ x, FMap.get? u.sec.sessions h.ring = some x → x.commands < 2 ^ 32) : HifOnly u (finish c h s st b u) := by
  obtain ⟨v, hv⟩ : ∃ v, v = complete h.ring c.opcode h.tag (headIndex s h.ring) st b u := ⟨_, rfl⟩
  have told : HifOnly u v := hv ▸ (complete_told ..).hifOnly
  have same : finish c h s st b u = v := by
    unfold finish countOut
    rw [← hv, told.field (·.sec)]
    split
    next x at_ => rw [if_neg (Nat.not_le.mpr (few x at_))]
    next => rfl
  rw [same]
  exact told

/-- A completion sets no unlock. -/
theorem unlock_finish (c : CmdSpec) (h : CmdHdr) (s : State) (st : Nat) (b : Bytes) (u : State) :
    (finish c h s st b u).sec.unlock = u.sec.unlock ∨ (finish c h s st b u).sec.unlock = unlockBut h.ring u.sec.unlock := by
  obtain ⟨v, hv⟩ : ∃ v, v = complete h.ring c.opcode h.tag (headIndex s h.ring) st b u := ⟨_, rfl⟩
  have told : HifOnly u v := hv ▸ (complete_told ..).hifOnly
  have eq : finish c h s st b u = countOut h.ring v := hv ▸ rfl
  rw [eq, ← told.field (·.sec)]
  unfold countOut
  split
  next x at_ =>
    split
    · refine .inr ((endSession_spec 5 ?_).field (·.sec.unlock))
      rw [FMap.has, at_]
      rfl
    · exact .inl rfl
  · exact .inl rfl

/-- A completion leaves an unlock that is not there as it is. -/
theorem unlock_finish_none {c : CmdSpec} {h : CmdHdr} {s : State} {st : Nat} {b : Bytes} {u : State} (locked : u.sec.unlock = none) :
    (finish c h s st b u).sec.unlock = none := by
  obtain same | same := unlock_finish c h s st b u
  · exact same.trans locked
  · rw [same, locked]
    rfl

/-! ### The commands' own parts -/

/-- But for the Security Unit, the host interface, the counters, Endpaper and the free choices. -/
def sansSec (s : State) : State := { s with sec := Sec.reset, hif := Hif.reset, counters := [], endp := Endp.reset, free := 0 }

theorem finish_sec (c : CmdSpec) (h : CmdHdr) (s : State) (st : Nat) (b : Bytes) (u : State) : Agree sansSec u (finish c h s st b u) :=
  (finish_ends ..).weaken

/-- The whole state where only what `sansSec` leaves out has changed. -/
theorem Agree.secOnly {s u : State} (agree : Agree sansSec s u) :
    u = { s with sec := u.sec, hif := u.hif, counters := u.counters, endp := u.endp, free := u.free } :=
  agree.frame (fun v => { v with sec := u.sec, hif := u.hif, counters := u.counters, endp := u.endp, free := u.free })

theorem openSession_spec (n p : Nat) (k : Bytes) (s : State) : ∃ e f, openSession n p k s = { s with endp := e, free := f, sec := { s.sec with
    fails := FMap.del s.sec.fails p
    sessions := FMap.set s.sec.sessions n { privilege := p, key := k, lastCmd := now s, commands := 0, ivHigh := 0, ivUsed := false } } } := by
  unfold openSession
  dsimp only
  split
  · exact ⟨_, _, rfl⟩
  · exact ⟨_, _, rfl⟩

theorem take_session (n : Nat) (s : State) : FMap.get? (take n s).sec.sessions n =
    (FMap.get? s.sec.sessions n).map (fun c => { c with commands := c.commands + 1, lastCmd := now s }) := FMap.get?_adj_same ..

/-- A ring whose commands have a privilege after enrolment has a session. -/
theorem session_of_ready {c : CmdSpec} {h : CmdHdr} {s : State} (ready : Ready c h s) (some : c.priv ≠ 0) (owner : c.priv ≠ 5)
    (enrolled : s.sec.enrolled = true) : FMap.has s.sec.sessions h.ring = true := by
  obtain ⟨-, passes⟩ := ready
  cases held : FMap.get? s.sec.sessions h.ring with
  | some x => rw [FMap.has, held]; rfl
  | none =>
    have none' : privOf s h.ring = none := by rw [privOf, enrolled, held]; rfl
    rw [preStatus_noSession some owner none'] at passes
    cases passes

theorem has_take (n : Nat) (s : State) : FMap.has (take n s).sec.sessions n = FMap.has s.sec.sessions n := by
  rw [FMap.has, take_session, Option.isSome_map, ← FMap.has]

/-- What replacing a key changes lies beside sessions, the enrolment and the identity. -/
theorem withKey_sessions (c : Sec) (x : FMap Session) (w : Nat) (v : Bytes) :
    { c with sessions := x }.withKey w v = { c.withKey w v with sessions := x } := by
  unfold Sec.withKey
  split <;> rfl

theorem withKey_kept (c : Sec) (w : Nat) (v : Bytes) : (c.withKey w v).enrolled = c.enrolled ∧ (c.withKey w v).identity = c.identity := by
  unfold Sec.withKey
  split <;> exact ⟨rfl, rfl⟩

/-- Replacing a key leaves the enrolment, the identity and the other keys, whichever sessions end (R438). -/
theorem setKey_spec {n : Nat} {ses : Session} {s : State} (b : Bytes) (at_ : FMap.get? s.sec.sessions n = some ses) : ∃ e f x d k,
    Agree sansEnds { s with endp := e, free := f, sec := { s.sec.withKey (byteAt b 0) (keySetValue ses.key b) with
      sessions := x, fails := d, backoff := k } } (setKey n b s) := by
  unfold setKey
  rw [at_]
  dsimp only
  obtain ⟨u, hu⟩ : ∃ u, u = withSec (fun c => { c.withKey (byteAt b 0) (keySetValue ses.key b) with
      sessions := FMap.set c.sessions n { ses with ivHigh := beAt b 8 8, ivUsed := true }
      fails := if byteAt b 0 ≤ 2 then FMap.del c.fails (byteAt b 0 + 1) else c.fails
      backoff := if byteAt b 0 ≤ 2 then FMap.del c.backoff (byteAt b 0 + 1) else c.backoff }) (endpWrite s) := ⟨_, rfl⟩
  rw [← hu]
  have same : Agree sansEnds { s with endp := u.endp, free := u.free, sec := u.sec } u := by rw [hu]; rfl
  have after : Agree sansEnds u (if byteAt b 0 ≤ 2 then
      ((s.sec.sessions.filter (fun e => e.1 != n && e.2.privilege == byteAt b 0 + 1)).map (·.1)).foldl (fun t r => endSession r 6 t)
        (noticeLive Ev.authFail (byteAt b 0 + 1) false none true u) else u) :=
    .ite ((noticeLive_hifOnly ..).agree.trans (.foldl (fun t r => endSession_ends r 6 t) _ _)) (.refl u)
  have whole := same.trans after
  have sec := congrArg State.sec hu
  rw [sec] at whole
  exact ⟨_, _, _, _, _, whole⟩

theorem notice?_endSession (n r : Nat) (s : State) (c o : Nat) (m : Bool) : notice? (endSession n r s) c o m = notice? s c o m := by
  unfold endSession
  split
  · rfl
  · dsimp only
    unfold relock
    split
    · split
      · exact ((raise_told ..).notice? ..).trans ((raise_told ..).notice? ..)
      · exact (raise_told ..).notice? ..
    · exact (raise_told ..).notice? ..

theorem notice?_finish (c : CmdSpec) (h : CmdHdr) (s : State) (st : Nat) (b : Bytes) (u : State) (k o : Nat) (m : Bool) :
    notice? (finish c h s st b u) k o m = notice? u k o m := by
  unfold finish countOut
  refine Eq.trans ?_ ((complete_told h.ring c.opcode h.tag (headIndex s h.ring) st b u).notice? k o m)
  split
  · split
    · exact notice?_endSession ..
    · rfl
  · rfl

/-- A wrong proof is counted, in its privilege and in Endpaper, and noticed (R433). -/
theorem proofFailed_spec (p : Nat) (s : State) : ∃ k v f,
    HifOnly { s with endp := v, free := f, sec := { s.sec with fails := FMap.set s.sec.fails p (FMap.getD s.sec.fails p 0 + 1), backoff := k } }
      (proofFailed p s) ∧ v.life.authFail = s.endp.life.authFail + 1 ∧ (notice? (proofFailed p s) Ev.authFail p).isSome = true := by
  unfold proofFailed
  dsimp only
  refine ⟨_, _, _, crossed_hifOnly .., rfl, ?_⟩
  rw [notice?_crossed]
  rfl

/-- An unlock that a ring holds is free to be locked again by it. -/
theorem expireUnlock_own {n : Nat} {e : Ns} {s : State} (enrolled : s.sec.enrolled = true) (own : s.sec.unlock = some (n, e)) :
    unlockStatus (expireUnlock s) n = St.ok ∧ HifOnly { s with sec := { s.sec with unlock := none } } (relock n 2 (expireUnlock s)) := by
  have gone : unlockBut n s.sec.unlock = none := by rw [own]; simp [unlockBut]
  have locked (c : Nat) : HifOnly { s with sec := { s.sec with unlock := none } } (relock n c s) := gone ▸ relock_spec n c s
  unfold expireUnlock onlyIf
  rw [own]
  dsimp only
  split
  · have first := locked 4
    have free : (relock n 4 s).sec.unlock = none := first.field (·.sec.unlock)
    constructor
    · unfold unlockStatus
      rw [first.field (·.sec.enrolled), enrolled, free]
      rfl
    · obtain ⟨u, hu⟩ : ∃ u, u = relock n 4 s := ⟨_, rfl⟩
      rw [← hu] at first free ⊢
      unfold relock
      rw [free]
      exact first
  · refine ⟨?_, locked 2⟩
    unfold unlockStatus
    rw [enrolled, own]
    simp

/-- Settles O47: each command by its own part, and what its completion can still end is a session with its unlock. -/
theorem sessionsAndKeys : Obligations.SessionsAndKeys := by
  unfold Obligations.SessionsAndKeys
  intro h s p t s1 secOnly
  have whole {c : CmdSpec} {st : Nat} {b : Bytes} {u v : State}
      (reach : Agree sansSec s1 u) (same : v = finish c h s st b u) : secOnly v :=
    same ▸ ((show Agree sansSec s s1 from rfl).trans (reach.trans (finish_sec ..))).secOnly
  refine ⟨fun ready ok => ?opens, fun ready ok => ?proved, fun ready bad => ?failed, fun ready enrolled => ?closed,
    fun ready ok => ?enrolled, fun c ready ok at_ => ?keySet, fun ready enrolled free => ?unlocked, fun e ready enrolled own => ?locked,
    fun c at_ idle => ?idle, fun x at_ late => ?nonce, fun e at_ late => ?backoff, fun e own late => ?expired⟩
  case opens =>
    refine ⟨(drawBytes 16 s1).1, length_padTo .., answers_done (i := .sessionOpen h p) rfl ready ?_⟩
    unfold sessionOpenOwn
    rw [show sessionOpenStatus (take h.ring s) h.ring p = St.ok from ok]
    rfl
  case proved =>
    obtain ⟨ks, hks⟩ : ∃ ks, ks = hmacSha256 (s1.sec.key (byteAt (blk h) 0)) (proofInput
        ((usableNonce s1 h.ring (byteAt (blk h) 0)).getD []) (sub (blk h) 0x10 16) h.ring (byteAt (blk h) 0) ++ [0x4B]) := ⟨_, rfl⟩
    obtain ⟨u, hu⟩ : ∃ u, u = openSession h.ring (byteAt (blk h) 0) ks (useNonce h.ring s1) := ⟨_, rfl⟩
    obtain ⟨k, eq⟩ : ∃ k, sessionProveOwn h.ring (blk h) s1 = .done St.ok k u := by
      unfold sessionProveOwn
      rw [ok, hu, hks]
      exact ⟨_, rfl⟩
    obtain ⟨e, f, spec⟩ := openSession_spec h.ring (byteAt (blk h) 0) ks (useNonce h.ring s1)
    have opened := hu.trans spec
    have session : FMap.get? u.sec.sessions h.ring = some
        { privilege := byteAt (blk h) 0, key := ks, lastCmd := now s, commands := 0, ivHigh := 0, ivUsed := false } := by
      rw [opened]
      exact FMap.get?_set_same ..
    have only : HifOnly u (finish (blockCmd 0x0402 0 64) h s St.ok k u) := finish_hifOnly St.ok k (fun x at_ => by
      rw [session] at at_
      rw [← Option.some.inj at_]
      exact Nat.two_pow_pos 32)
    refine ⟨_, answers_done (i := .sessionProve h) rfl ready eq, whole (opened ▸ rfl) rfl, ?_, ?_, ?_⟩
    · rw [only.field (·.sec.nonces), opened]
      exact FMap.get?_del_same ..
    · rw [only.field (·.sec.fails), opened]
      exact FMap.get?_del_same ..
    · rw [only.field (·.sec.sessions)]
      exact ⟨_, session, rfl, rfl, rfl⟩
  case failed =>
    have eq : sessionProveOwn h.ring (blk h) s1 = .done St.badProof [] (proofFailed (byteAt (blk h) 0) (useNonce h.ring s1)) := by
      unfold sessionProveOwn
      rw [bad]
      rfl
    obtain ⟨k, v, f, only, counted, noticed⟩ := proofFailed_spec (byteAt (blk h) 0) (useNonce h.ring s1)
    have reach : Agree sansSec s1 (proofFailed (byteAt (blk h) 0) (useNonce h.ring s1)) :=
      (show Agree sansSec s1 { useNonce h.ring s1 with endp := v, free := f, sec := _ } from rfl).trans only.agree
    have ends := finish_ends (blockCmd 0x0402 0 64) h s St.badProof [] (proofFailed (byteAt (blk h) 0) (useNonce h.ring s1))
    refine ⟨_, answers_done (i := .sessionProve h) rfl ready eq, whole reach rfl, ?_, ?_, ?_, ?_⟩
    · rw [ends.field (·.sec.nonces), only.field (·.sec.nonces)]
      exact FMap.get?_del_same ..
    · rw [ends.field (·.sec.fails), only.field (·.sec.fails), FMap.getD, FMap.get?_set_same]
      rfl
    · rw [notice?_finish]
      exact noticed
    · rw [ends.field (·.endp), only.field (·.endp)]
      exact counted
  case closed =>
    have held : FMap.has s1.sec.sessions h.ring = true :=
      (has_take ..).trans (session_of_ready ready (by decide) (by decide) enrolled)
    have ended := endSession_spec 1 held
    have eq : (fun s1 => checked (if s1.sec.enrolled then St.ok else St.notEnrolled) (endSession h.ring 1 s1) s1) s1 =
        .done St.ok [] (endSession h.ring 1 s1) := by
      refine checked_of_ok _ _ ?_
      rw [show s1.sec.enrolled = true from enrolled]
      rfl
    have none' : FMap.get? (endSession h.ring 1 s1).sec.sessions h.ring = none := by
      rw [ended.field (·.sec.sessions)]
      exact FMap.get?_del_same ..
    have only : HifOnly (endSession h.ring 1 s1) (finish (plainCmd 0x0403 4) h s St.ok [] (endSession h.ring 1 s1)) :=
      finish_hifOnly St.ok [] (fun x at_ => by rw [none'] at at_; cases at_)
    refine ⟨_, answers_done (i := .sessionClose h) rfl ready eq, whole (endSession_ends ..).weaken rfl, ?_, fun e => ?_⟩
    · rw [only.field (·.sec.sessions)]
      exact none'
    · rw [only.field (·.sec.unlock), ended.field (·.sec.unlock)]
      exact unlockBut_ne h.ring _ e
  case enrolled =>
    obtain ⟨e, f, only⟩ := enrol_spec h.ring (blk h) s1
    have ends := finish_ends (blockCmd 0x0410 5 144) h s St.ok [] (enrol h.ring (blk h) s1)
    have sec : Agree sansEnds { s1 with endp := e, free := f, sec := { s1.sec with
        enrolled := true, viewKey := sub (blk h) 0x10 32, operKey := sub (blk h) 0x30 32, ownerKey := sub (blk h) 0x50 32
        signHash := sub (blk h) 0x70 32, fails := [], backoff := [], unlock := none } }
        (finish (blockCmd 0x0410 5 144) h s St.ok [] (enrol h.ring (blk h) s1)) := only.agree.trans ends
    have locked := unlock_finish_none (c := blockCmd 0x0410 5 144) (h := h) (s := s) (st := St.ok) (b := []) (u := enrol h.ring (blk h) s1)
      (only.field (·.sec.unlock))
    refine ⟨_, answers_done (i := .ownerEnrol h) rfl ready (checked_of_ok _ _ ok), whole ?_ rfl, ?_⟩
    · exact (show Agree sansSec s1 { s1 with endp := e, free := f, sec := _ } from rfl).trans only.agree
    · obtain ⟨v, hv⟩ : ∃ v, v = finish (blockCmd 0x0410 5 144) h s St.ok [] (enrol h.ring (blk h) s1) := ⟨_, rfl⟩
      rw [← hv] at sec locked ⊢
      have same := sec.field (fun u => { u.sec with sessions := v.sec.sessions, nonces := v.sec.nonces, unlock := none })
      have itself : { v.sec with unlock := none } = v.sec := by rw [← locked]
      exact itself.symm.trans same
  case keySet =>
    obtain ⟨e, f, x, d, k, reach⟩ := setKey_spec (blk h) at_
    have ends := reach.trans (finish_ends (blockCmd 0x0411 3 64) h s St.ok [] (setKey h.ring (blk h) s1))
    have sec : s1.sec.withKey (byteAt (blk h) 0) (keySetValue c.key (blk h)) =
        { s.sec.withKey (byteAt (blk h) 0) (keySetValue c.key (blk h)) with sessions := s1.sec.sessions } := withKey_sessions s.sec ..
    rw [sec] at reach ends
    obtain ⟨enrolled, identity⟩ := withKey_kept s.sec (byteAt (blk h) 0) (keySetValue c.key (blk h))
    refine ⟨_, answers_done (i := .keySet h) rfl ready (checked_of_ok _ _ ok), whole ?_ rfl, ?_, ?_, ?_⟩
    · exact (show Agree sansSec s1 { s1 with endp := e, free := f, sec := _ } from rfl).trans reach.weaken
    · exact (ends.field (·.sec.enrolled)).trans enrolled
    · exact (ends.field (·.sec.identity)).trans identity
    · exact ⟨ends.field (·.sec.viewKey), ends.field (·.sec.operKey), ends.field (·.sec.ownerKey), ends.field (·.sec.signHash)⟩
  case unlocked =>
    have eq : setupUnlockOwn h.ring s1 = .done St.ok (toLE 8 (devTime s1 + unlockMaxNs s1)) (unlockSetup h.ring s1) := by
      have free1 : expireUnlock s1 = s1 := by
        unfold expireUnlock
        rw [show s1.sec.unlock = none from free]
      have status : unlockStatus s1 h.ring = St.ok := by
        unfold unlockStatus
        rw [show s1.sec.unlock = none from free, show s1.sec.enrolled = true from enrolled]
        rfl
      unfold setupUnlockOwn
      dsimp only
      rw [free1, status]
      rfl
    have only : HifOnly { s1 with sec := { s1.sec with unlock := some (h.ring, now s + unlockMaxNs s) } } (unlockSetup h.ring s1) := by
      unfold unlockSetup
      rw [show s1.sec.unlock = none from free]
      exact raise_hifOnly ..
    have ends := finish_ends (plainCmd 0x0412 3) h s St.ok (toLE 8 (devTime s1 + unlockMaxNs s1)) (unlockSetup h.ring s1)
    refine ⟨_, answers_done (i := .setupUnlock h) rfl ready eq, whole ?_ rfl, ?_, fun c at_ few => ?_⟩
    · exact (show Agree sansSec s1 { s1 with sec := _ } from rfl).trans only.agree
    · exact (ends.field (·.endp)).trans (only.field (·.endp))
    · have stays : HifOnly (unlockSetup h.ring s1) (finish (plainCmd 0x0412 3) h s St.ok (toLE 8 (devTime s1 + unlockMaxNs s1))
          (unlockSetup h.ring s1)) := finish_hifOnly _ _ (fun x here => by
        rw [only.field (·.sec.sessions)] at here
        have counted := (take_session h.ring s).symm.trans here
        rw [at_, Option.map_some] at counted
        rw [← Option.some.inj counted]
        exact few)
      exact (stays.field (·.sec.unlock)).trans (only.field (·.sec.unlock))
  case locked =>
    obtain ⟨status, only⟩ := expireUnlock_own (s := s1) enrolled own
    have ends := finish_ends (plainCmd 0x0413 3) h s St.ok [] (relock h.ring 2 (expireUnlock s1))
    refine ⟨_, answers_done (i := .setupLock h) rfl ready (checked_of_ok _ _ status), whole ?_ rfl, ?_, ?_⟩
    · exact (show Agree sansSec s1 { s1 with sec := _ } from rfl).trans only.agree
    · exact unlock_finish_none (only.field (·.sec.unlock))
    · exact (ends.field (·.endp)).trans (only.field (·.endp))
  case idle =>
    have runs : exec (.sessionIdleTimeout p t) s = .next (endSession p 4 (advance t s)) := by
      change execSessionIdleTimeout p t s = _
      unfold execSessionIdleTimeout
      dsimp only
      rw [show FMap.get? (advance t s).sec.sessions p = some c from at_]
      dsimp only
      rw [show (decide (c.lastCmd + idleNs (advance t s) ≤ now (advance t s))) = true from decide_eq_true idle]
      rfl
    have held : FMap.has (advance t s).sec.sessions p = true := by
      rw [FMap.has, show FMap.get? (advance t s).sec.sessions p = some c from at_]
      rfl
    have only := endSession_spec 4 held
    refine ⟨_, runs, ?_, ?_, fun e => ?_⟩
    · rw [only.eq]
    · rw [only.field (·.sec)]
      rfl
    · rw [only.field (·.sec.unlock)]
      exact unlockBut_ne p _ e
  case nonce =>
    change execNonceExpiry p t s = _
    unfold execNonceExpiry
    dsimp only
    rw [show FMap.get? (advance t s).sec.nonces p = some x from at_]
    dsimp only
    rw [decide_eq_true late]
    rfl
  case backoff =>
    have runs : exec (.backoffExpiry p t) s = .next (noticeLive Ev.authFail p false none true
        (withSec (fun c => { c with backoff := FMap.del c.backoff p }) (advance t s))) := by
      change execBackoffExpiry p t s = _
      unfold execBackoffExpiry
      dsimp only
      rw [show FMap.get? (advance t s).sec.backoff p = some e from at_]
      dsimp only
      rw [decide_eq_true late]
      rfl
    exact ⟨_, runs, rfl⟩
  case expired =>
    have runs : exec (.unlockExpiry t) s = .next (relock p 4 (advance t s)) := by
      change Host.Outcome.next (expireUnlock (advance t s)) = _
      unfold expireUnlock
      rw [show (advance t s).sec.unlock = some (p, e) from own]
      dsimp only
      rw [decide_eq_true late]
      rfl
    have only := relock_spec p 4 (advance t s)
    rw [show (advance t s).sec.unlock = some (p, e) from own, show unlockBut p (some (p, e)) = none by simp [unlockBut]] at only
    refine ⟨_, runs, ?_, ?_⟩
    · rw [only.eq]
    · rw [only.field (·.sec)]
      rfl

end Sys2Proof.Machine
end

section
/-! OBLIGATION. Migration, rotation and self-test (O54). -/

namespace Sys2Proof.Machine

open Sys2Proof

set_option Elab.async false

/-- A long operation whose check fails ends with its status. -/
theorem acceptLong_of_ne {opcode st k total : Nat} {h : CmdHdr} {effect : Nat → State → State} {s : State} (is : st = k)
    (bad : k ≠ St.ok) : acceptLong opcode h total st effect s = .done k [] s := by
  rw [acceptLong, is, if_pos bad]

/-! ### Migration (R501) -/

/-- The availability unit once a migration out of a cluster is done (R501, R502). -/
def Avail.moved (a : Avail) (src : Nat) : Avail :=
  { a with
    migrating := none, migrateOp := none, spare := some src
    selfTesting := if a.migrateOp.isNone && a.rolling.isNone then some none else a.selfTesting }

theorem moveDone_spec {src dst : Nat} {s : State} (moves : s.avl.migrating = some (src, dst)) :
    HifOnly { s with avl := s.avl.moved src } (moveDone s) := by
  unfold moveDone
  rw [moves]
  dsimp only
  split
  · exact (show HifOnly { s with avl := s.avl.moved src } (withLong _ _ { s with avl := s.avl.moved src }) from .of _ _ _).trans
      (endLong_hifOnly ..)
  · exact .refl _

theorem startMove_of_flows {src : Nat} {s : State} (dst : Nat) (op : Option Nat) (some_ : flowsOf s src ≠ []) :
    startMove src dst op s = { s with avl := { s.avl with migrating := some (src, dst), migrateOp := op } } := by
  have full : (flowsOf s src).isEmpty = false :=
    Bool.eq_false_iff.mpr (fun empty => some_ (List.isEmpty_iff.mp empty))
  unfold startMove
  dsimp only
  rw [full]
  rfl

theorem startMove_of_none {src : Nat} {s : State} (dst : Nat) (op : Option Nat) (none_ : flowsOf s src = []) :
    HifOnly { s with avl := { s.avl with migrating := some (src, dst), migrateOp := op }.moved src } (startMove src dst op s) := by
  have empty : (flowsOf s src).isEmpty = true := List.isEmpty_iff.mpr none_
  unfold startMove
  dsimp only
  rw [empty, if_pos rfl]
  exact moveDone_spec (s := withAvl (fun a => { a with migrating := some (src, dst), migrateOp := op }) s) rfl

/-- A flow that moves has another home, and its ops are listed there. -/
theorem flow?_moveFlow {f src dst : Nat} {s : State} {fl : Flow} (held : flow? s f = some fl) :
    ∃ l, flow? (moveFlow f src dst s) f = some { fl with cluster := dst, homeVpe := 16 * dst + fl.homeVpe % 16, insts := l } := by
  refine ⟨fl.insts.map (fun x => { x with ops := x.ops.map (fun o => { o with loc := o.loc.moved src dst }) }), ?_⟩
  change FMap.get? (FMap.adj (FMap.adj s.fsc.flows f _) f _) f = _
  rw [FMap.get?_adj_same, FMap.get?_adj_same, show FMap.get? s.fsc.flows f = some fl from held]
  rfl

theorem flow?_moveFlow_other {f g : Nat} (src dst : Nat) (s : State) (ne : g ≠ f) : flow? (moveFlow f src dst s) g = flow? s g := by
  change FMap.get? (FMap.adj (FMap.adj s.fsc.flows f _) f _) g = _
  rw [FMap.get?_adj_other _ _ _ _ ne, FMap.get?_adj_other _ _ _ _ ne]
  rfl

/-- A flow at rest moves; with the last one of its cluster the migration is done. -/
theorem flowMigrate_spec {f src dst : Nat} {s : State} {fl : Flow} (moves : s.avl.migrating = some (src, dst))
    (held : flow? s f = some fl) (home : fl.cluster = src) (rests : flowAtRest fl = true) :
    HifOnly { moveFlow f src dst s with avl := if flowsOf (moveFlow f src dst s) src = [] then s.avl.moved src else s.avl }
      (flowMigrate f s) := by
  obtain ⟨u, hu⟩ : ∃ u, u = moveFlow f src dst s := ⟨_, rfl⟩
  obtain ⟨v, hv⟩ : ∃ v, v = (match s.avl.migrateOp with
      | some id => progress id ((match longOp? s id with | some o => o.position | none => 0) + 1) u
      | none => u) := ⟨_, rfl⟩
  have only : HifOnly u v := by
    rw [hv]
    split
    · exact progress_hifOnly ..
    · exact .refl u
  have migrated : flowMigrate f s = if (flowsOf v src).isEmpty then moveDone v else v := by
    unfold flowMigrate
    rw [moves, held]
    dsimp only
    rw [if_neg (by simp [home, rests]), hv, hu] <;> rfl
  have avl : v.avl = s.avl := (only.field (·.avl)).trans (hu ▸ rfl)
  have flows : flowsOf v src = flowsOf u src := only.field (flowsOf · src)
  rw [migrated, flows, ← hu]
  by_cases last : flowsOf u src = []
  · rw [if_pos (List.isEmpty_iff.mpr last), if_pos last]
    have first : HifOnly { u with avl := s.avl.moved src } { v with avl := v.avl.moved src } := by
      rw [avl, only.eq]
      exact .of _ _ _
    exact first.trans (moveDone_spec (avl ▸ moves))
  · rw [if_neg (fun empty => last (List.isEmpty_iff.mp empty)), if_neg last]
    rw [show { u with avl := s.avl } = u by rw [hu]; rfl]
    exact only

/-! ### Self-test (R503) -/

/-- A cluster that is retired is noted in Endpaper, and the device has no spare. -/
theorem retire_spec (c f : Nat) (s : State) : ∃ e n,
    HifOnly { s with avl := { s.avl with retired := insNat c s.avl.retired, spare := none }, endp := e, free := n } (retire c f s) ∧
    e.life.clusterRetire = s.endp.life.clusterRetire + 1 ∧ e.epoch = s.endp.epoch ∧ e.committed = s.endp.committed :=
  ⟨_, _, raise_hifOnly .., rfl, rfl, rfl⟩

/-- The end of an operation that there may be. -/
theorem endTest_spec (op : Option Nat) (st : Nat) (u : State) {v : State} (ends : v = match op with
      | none => u
      | some i => endLong i st [] (withLong i (fun o => { o with position := o.total }) u)) :
    HifOnly u v ∧ ∀ i, op = some i → longOp? v i = none := by
  cases op with
  | none => exact ⟨ends ▸ .refl u, fun i bad => by cases bad⟩
  | some n =>
    have moved : HifOnly u (withLong n (fun o => { o with position := o.total }) u) := .of _ _ _
    refine ⟨ends ▸ moved.trans (endLong_hifOnly ..), fun i same => ?_⟩
    rw [← Option.some.inj same, ends]
    exact longOp?_endLong ..

/-- Settles O54: the checks in their order, the move of one flow, and the end of a migration or a self-test. -/
theorem migrationAndSelfTest : Obligations.MigrationAndSelfTest := by
  unfold Obligations.MigrationAndSelfTest
  intro h s s1 m tst
  refine ⟨fun c ready => ⟨fun idle => ?inactive, fun active none' => ?noSpare, fun active spare busy => ?busy,
      fun d active spare free room => ⟨fun some_ => ?begins, fun none_ => ?atOnce⟩⟩,
    fun f src dst fl up moves held home => ⟨fun runs => ?running, fun rests => ?moved⟩,
    fun t c up stage due next => ?rotates, fun ready ok room => ?selfTest,
    fun op c up testing spare => ⟨?passed, fun f => ?failed⟩⟩
  case inactive =>
    refine answers_done (i := .clusterMigrate h c) rfl ready (acceptLong_of_ne ?_ (by decide))
    rw [migrateStatus, show clusterActive (take h.ring s) c = false from idle]
    rfl
  case noSpare =>
    refine answers_done (i := .clusterMigrate h c) rfl ready (acceptLong_of_ne ?_ (by decide))
    rw [migrateStatus, show clusterActive (take h.ring s) c = true from active, show (take h.ring s).avl.spare = none from none']
    rfl
  case busy =>
    have some_ : (take h.ring s).avl.spare.isNone = false := Option.isNone_eq_false_iff.mpr (Option.isSome_iff_ne_none.mpr spare)
    refine answers_done (i := .clusterMigrate h c) rfl ready (acceptLong_of_ne ?_ (by decide))
    rw [migrateStatus, show clusterActive (take h.ring s) c = true from active, some_, show spareBusy (take h.ring s) = true from busy]
    rfl
  case begins =>
    have ok : migrateStatus s1 c = St.ok := by
      rw [migrateStatus, show clusterActive s1 c = true from active, show s1.avl.spare = some d from spare,
        show spareBusy s1 = false from free]
      rfl
    refine answers_done (i := .clusterMigrate h c) rfl ready ((acceptLong_of_ok ok room).trans (congrArg (CmdRes.done _ _) ?_))
    rw [show s1.avl.spare = some d from spare]
    exact startMove_of_flows _ _ some_
  case atOnce =>
    have ok : migrateStatus s1 c = St.ok := by
      rw [migrateStatus, show clusterActive s1 c = true from active, show s1.avl.spare = some d from spare,
        show spareBusy s1 = false from free]
      rfl
    have idle : s.avl.migrating = none := by
      unfold spareBusy at free
      simp only [Bool.or_eq_false_iff, Option.isSome_eq_false_iff, Option.isNone_iff_eq_none] at free
      exact free.1.1
    have only := startMove_of_none (s := begun 0x0607 (flowsOf s c).length h s) d (some s.hif.nextOpId) none_
    have host : HostOnly _ (finish m h s St.accepted (toLE 4 s.hif.nextOpId)
        (startMove c d (some s.hif.nextOpId) (begun 0x0607 (flowsOf s c).length h s))) := only.hostOnly.trans (finish_hostOnly ..)
    have own : startMove c (s1.avl.spare.getD 16) (some s.hif.nextOpId) (begun 0x0607 (flowsOf s1 c).length h s) =
        startMove c d (some s.hif.nextOpId) (begun 0x0607 (flowsOf s c).length h s) := by
      rw [show s1.avl.spare = some d from spare]
      rfl
    refine ⟨_, answers_done (i := .clusterMigrate h c) rfl ready ((acceptLong_of_ok ok room).trans (congrArg (CmdRes.done _ _) own)), ?_⟩
    · refine ⟨(host.field (·.avl)).trans ?_, host.field (·.fsc)⟩
      change { s.avl with migrating := none, migrateOp := none, spare := some c } = { s.avl with spare := some c, migrateOp := none }
      rw [← idle]
  case running =>
    change Host.Outcome.next (onlyIf (serving s) (flowMigrate f s) s) = _
    have stays : flowMigrate f s = s := by
      unfold flowMigrate
      rw [moves, held]
      dsimp only
      rw [runs]
      simp
    rw [stays, onlyIf, ite_self]
  case moved =>
    have only := flowMigrate_spec moves held home rests
    obtain ⟨l, there⟩ := flow?_moveFlow (src := src) (dst := dst) held
    have flows : flowsOf (flowMigrate f s) src = flowsOf (moveFlow f src dst s) src := only.field (flowsOf · src)
    refine ⟨flowMigrate f s, ?_, ?_, fun g ne => ?_, ⟨_, (only.field (flow? · f)).trans there, rfl⟩, fun none_ => ?_, fun some_ => ?_⟩
    · change Host.Outcome.next (onlyIf (serving s) (flowMigrate f s) s) = _
      rw [up]
      rfl
    · rw [only.eq]
      rfl
    · exact (only.field (flow? · g)).trans (flow?_moveFlow_other src dst s ne)
    · rw [flows] at none_
      rw [only.field (·.avl), if_pos none_]
      exact ⟨rfl, rfl⟩
    · rw [flows] at some_
      rw [only.field (·.avl), if_neg some_]
  case rotates =>
    obtain ⟨u, hu⟩ : ∃ u, u = withAvl (fun a => { a with rotateAt := now (advance t s) }) (advance t s) := ⟨_, rfl⟩
    have runs : exec (.rotationTimer t) s = .next (startMove c (s.avl.spare.getD 16) none u) := by
      change execRotationTimer t s = _
      unfold execRotationTimer
      dsimp only
      rw [next]
      dsimp only
      rw [show serving (advance t s) = true from up, due, show (advance t s).avl.stage = 7 from stage, hu]
      rfl
    have idle : s.avl.rolling = none := by
      unfold rotationDue spareBusy at due
      simp only [Bool.and_eq_true, Bool.not_eq_true', Bool.or_eq_false_iff, Option.isSome_eq_false_iff, Option.isNone_iff_eq_none] at due
      exact due.1.1.2.2
    have same : flowsOf u c = flowsOf s c := hu ▸ rfl
    by_cases none_ : flowsOf s c = []
    · have only := startMove_of_none (s := u) (s.avl.spare.getD 16) none (same.trans none_)
      have plain : startMove c (s.avl.spare.getD 16) none u =
          { u with avl := { u.avl with migrating := some (c, s.avl.spare.getD 16), migrateOp := none }.moved c } := by
        unfold startMove
        dsimp only
        rw [same.trans none_]
        rfl
      refine ⟨_, runs, ?_, ?_, fun bad => absurd none_ bad, fun _ => ?_⟩
      · rw [plain, hu]
        rfl
      · rw [plain, hu]
        rfl
      · rw [plain, hu]
        refine ⟨rfl, rfl, ?_⟩
        change (if true && s.avl.rolling.isNone then some none else s.avl.selfTesting) = some none
        rw [idle]
        rfl
    · have plain := startMove_of_flows (s := u) (s.avl.spare.getD 16) none (same ▸ none_)
      refine ⟨_, runs, ?_, ?_, fun _ => ?_, fun bad => absurd bad none_⟩
      · rw [plain, hu]
        rfl
      · rw [plain, hu]
        rfl
      · rw [plain, hu]
        exact ⟨rfl, rfl⟩
  case selfTest =>
    exact answers_done (i := .selfTest h) rfl ready ((acceptLong_of_ok ok room).trans rfl)
  case passed =>
    obtain ⟨u, hu⟩ : ∃ u, u = withAvl (fun a => { a with selfTesting := none, lastTested := c, nextTest := a.nextTest.filter (· != c) }) s :=
      ⟨_, rfl⟩
    obtain ⟨only, ended⟩ := endTest_spec op St.ok u rfl
    refine ⟨_, ?_, ?_, ?_, ended⟩
    · change Host.Outcome.next (onlyIf (serving s) (selfTestDone none s) s) = _
      rw [up, onlyIf, if_pos rfl]
      unfold selfTestDone
      rw [testing, spare, hu]
      rfl
    · rw [only.eq, hu]
      rfl
    · rw [only.field (·.avl), hu]
      rfl
  case failed =>
    obtain ⟨u, hu⟩ : ∃ u, u = withAvl (fun a => { a with selfTesting := none, lastTested := c, nextTest := a.nextTest.filter (· != c) }) s :=
      ⟨_, rfl⟩
    obtain ⟨e, n, retired, counted, epoch, committed⟩ := retire_spec c f u
    obtain ⟨ends, ended⟩ := endTest_spec op St.failed (retire c f u) rfl
    have only := retired.trans ends
    refine ⟨_, ?_, ⟨?_, ?_, ?_⟩, ?_, ?_, ?_, ended⟩
    · change Host.Outcome.next (onlyIf (serving s) (selfTestDone (some f) s) s) = _
      rw [up, onlyIf, if_pos rfl]
      unfold selfTestDone
      rw [testing, spare, hu]
      rfl
    · rw [only.eq, hu]
      rfl
    · rw [only.field (·.endp.epoch), epoch, hu]
      rfl
    · rw [only.field (·.endp.committed), committed, hu]
      rfl
    · rw [only.field (·.code), hu]
      rfl
    · rw [only.field (·.avl), hu]
      rfl
    · rw [only.field (·.endp.life.clusterRetire), counted, hu]
      rfl

end Sys2Proof.Machine
end

section
/-! OBLIGATION. Images in service (O53). -/

namespace Sys2Proof.Machine

open Sys2Proof

set_option Elab.async false

/-- But for the availability unit, the code, Endpaper's life, and what a completion and an event touch. -/
def sansAvl (s : State) : State :=
  { s with
    avl := Avail.reset, endp := { Endp.reset with epoch := s.endp.epoch, committed := s.endp.committed }
    code := [], free := 0, hif := Hif.reset, sec := Sec.reset, counters := [] }

theorem take_agreeAvl (n : Nat) (s : State) : Agree sansAvl s (take n s) := rfl

theorem endpWrite_withAvl (f : Avail → Avail) (s : State) : Agree sansAvl s (endpWrite (withAvl f s)) := rfl

theorem Agree.avlOnly {s u : State} (agree : Agree sansAvl s u) : AvlOnly s u :=
  ⟨agree.frame (fun v => { v with
      avl := u.avl, endp := u.endp, code := u.code, free := u.free, hif := u.hif, sec := u.sec, counters := u.counters }), agree.field (·.endp.epoch), agree.field (·.endp.committed)⟩

/-! ### IMG_WRITE (R500) -/

/-- The slots of a kind once its spare one is written. -/
theorem putSpareSlot_spec (k : Nat) (i : Option Image) (s : State) : ∃ a b c d,
    putSpareSlot k i s = { s with avl := { s.avl with cimA := a, cimB := b, mimA := c, mimB := d } } ∧
      slotCim (putSpareSlot k i s) s.avl.cimSlot = slotCim s s.avl.cimSlot ∧
      slotMim (putSpareSlot k i s) s.avl.mimSlot = slotMim s s.avl.mimSlot ∧
      (k = 1 → slotCim (putSpareSlot k i s) (1 - s.avl.cimSlot) = i) ∧
      (k ≠ 1 → slotMim (putSpareSlot k i s) (1 - s.avl.mimSlot) = i) := by
  unfold putSpareSlot withAvl slotCim slotMim
  dsimp only
  by_cases control : k = 1
  · rw [if_pos control]
    by_cases slotA : s.avl.cimSlot = 0
    · rw [if_pos slotA]
      exact ⟨_, _, _, _, rfl, by rw [if_pos slotA, if_pos slotA], rfl, fun _ => if_neg (by omega), fun bad => absurd control bad⟩
    · rw [if_neg slotA]
      exact ⟨_, _, _, _, rfl, by rw [if_neg slotA, if_neg slotA], rfl, fun _ => if_pos (by omega), fun bad => absurd control bad⟩
  · rw [if_neg control]
    by_cases slotA : s.avl.mimSlot = 0
    · rw [if_pos slotA]
      exact ⟨_, _, _, _, rfl, rfl, by rw [if_pos slotA, if_pos slotA], fun bad => absurd bad control, fun _ => if_neg (by omega)⟩
    · rw [if_neg slotA]
      exact ⟨_, _, _, _, rfl, rfl, by rw [if_neg slotA, if_neg slotA], fun bad => absurd bad control, fun _ => if_pos (by omega)⟩

theorem putSpareSlot_agree (k : Nat) (i : Option Image) (s : State) : Agree sansAvl s (putSpareSlot k i s) := rfl

/-- What the end of an image write leaves, whether the image or nothing is put into the slot. -/
theorem wroteImage_spec {s u v : State} {n k : Nat} {i : Option Image} {rest : List (Nat × Nat × Bytes)}
    (hu : u = putSpareSlot k i (withAvl (fun a => { a with imgWriting := rest }) { s with free := s.free + 1 })) (only : HifOnly u v)
    (ended : longOp? v n = none) : AvlOnly s v ∧ longOp? v n = none ∧ v.avl.imgWriting = rest ∧ v.avl.bootCim = s.avl.bootCim ∧
      v.avl.bootMim = s.avl.bootMim ∧ (k = 1 → slotCim v (1 - s.avl.cimSlot) = i) ∧ (k ≠ 1 → slotMim v (1 - s.avl.mimSlot) = i) := by
  obtain ⟨a, b, c, d, put, -, -, control, media⟩ :=
    putSpareSlot_spec k i (withAvl (fun a => { a with imgWriting := rest }) { s with free := s.free + 1 })
  rw [← hu] at put control media
  refine ⟨((show Agree sansAvl s u from put ▸ rfl).trans only.agree).avlOnly, ended, ?_, ?_, ?_, fun is => ?_, fun is => ?_⟩
  · rw [only.field (·.avl), put]
    rfl
  · rw [only.field (·.avl), put]
    rfl
  · rw [only.field (·.avl), put]
    rfl
  · exact (only.field (slotCim · _)).trans (control is)
  · exact (only.field (slotMim · _)).trans (media is)

/-! ### Activation (R497, R505 to R508) -/

theorem eraseAccept_spec (s : State) : ∃ a, eraseAccept s = { s with avl := { s.avl with acceptUntested := a } } := by
  unfold eraseAccept
  split
  · split
    · exact ⟨_, rfl⟩
    · exact ⟨s.avl.acceptUntested, rfl⟩
  · exact ⟨s.avl.acceptUntested, rfl⟩

theorem activated_spec (s : State) : ∃ a e f,
    activated s = { s with avl := { s.avl with runSince := now s, acceptUntested := a }, endp := e, free := f } ∧
      e.life.imageActivate = s.endp.life.imageActivate + 1 ∧ e.epoch = s.endp.epoch ∧ e.committed = s.endp.committed := by
  unfold activated
  obtain ⟨a, erased⟩ := eraseAccept_spec (withAvl (fun a => { a with runSince := now s })
    (endpWrite (withLife (fun l => { l with imageActivate := l.imageActivate + 1 }) s)))
  exact ⟨a, _, _, erased, rfl, rfl, rfl⟩

theorem reloadUser_spec (m : Image) (k : Nat) (s : State) : ∃ a c,
    HifOnly { s with avl := { s.avl with userLoaded := a }, code := c } (reloadUser m k s) := by
  unfold reloadUser
  split
  · exact ⟨_, _, .refl _⟩
  · split
    · exact ⟨_, _, .refl _⟩
    · exact ⟨_, _, (raiseStart_told ..).hifOnly⟩

/-- Every cluster holds the new image (R506). -/
theorem rollingDone_spec (r : Rolling) (s : State) : Agree sansAvl s (rollingDone r s) ∧ longOp? (rollingDone r s) r.opId = none ∧
    ∃ a b, (rollingDone r s).avl = { s.avl with
        rolling := none, mimSlot := r.slot, bootMim := r.slot, clusterMim := [], runSince := now s, acceptUntested := a, userLoaded := b } ∧
      (rollingDone r s).endp.life.imageActivate = s.endp.life.imageActivate + 1 := by
  obtain ⟨u, hu⟩ : ∃ u, u = withAvl (fun a => { a with rolling := none, mimSlot := r.slot, bootMim := r.slot, clusterMim := [] })
      { s with code := FMap.keep s.code (fun k _ => k == r.slot) } := ⟨_, rfl⟩
  obtain ⟨a, e, f, act, counted, epoch, committed⟩ := activated_spec u
  obtain ⟨v, hv⟩ : ∃ v, v = raise Ev.imageActive none (padTo 48 (Config.eventBody Ev.imageActive (runVersions (activated u)))) (activated u) :=
    ⟨_, rfl⟩
  have raised : HifOnly (activated u) v := hv ▸ raise_hifOnly ..
  obtain ⟨w, hw⟩ : ∃ w, w = (match runMim v with | some m => reloadUser m 2 v | none => v) := ⟨_, rfl⟩
  have done : rollingDone r s = endLong r.opId St.ok [] w := by rw [hw, hv, hu]; rfl
  rw [done]
  obtain ⟨b, c, loaded⟩ : ∃ b c, HifOnly { v with avl := { v.avl with userLoaded := b }, code := c } w := by
    rw [hw]
    split
    · exact reloadUser_spec ..
    · exact ⟨v.avl.userLoaded, v.code, .refl v⟩
  have ends := endLong_hifOnly r.opId St.ok [] w
  refine ⟨?_, longOp?_endLong .., a, b, ?_, ?_⟩
  · have started : Agree sansAvl s (activated u) := by
      rw [act]
      unfold Agree sansAvl
      dsimp only
      rw [epoch, committed, hu]
      rfl
    have reloaded : Agree sansAvl v w := (show Agree sansAvl v { v with avl := _, code := c } from rfl).trans loaded.agree
    exact (started.trans raised.agree).trans (reloaded.trans ends.agree)
  · rw [ends.field (·.avl), loaded.field (·.avl)]
    dsimp only
    rw [raised.field (·.avl), act, hu]
    rfl
  · rw [ends.field (·.endp), loaded.field (·.endp)]
    dsimp only
    rw [raised.field (·.endp), act]
    dsimp only
    rw [counted, hu]
    rfl

theorem rollingFailed_spec (r : Rolling) (s : State) : longOp? (rollingFailed r s) r.opId = none ∧
    HifOnly { s with avl := { s.avl with rolling := none, clusterMim := [] }, code := FMap.del s.code r.slot } (rollingFailed r s) :=
  ⟨longOp?_endLong .., endLong_hifOnly ..⟩

/-- The state in which a cluster holds the new image and the next step is chosen. -/
theorem rollForward_spec (c : Nat) (r : Rolling) (s : State) : ∃ u,
    HifOnly { s with avl := { s.avl with
      rolling := some { r with changed := c :: r.changed }, clusterMim := FMap.set s.avl.clusterMim c r.slot } } u ∧
    rollForward c r s = match (activeClusters s).find? (fun k => !(c :: r.changed).contains k) with
      | some k => startMove k c none u
      | none => rollingDone { r with changed := c :: r.changed } u := by
  obtain ⟨v, hv⟩ : ∃ v, v = withAvl (fun a => { a with
      rolling := some { r with changed := c :: r.changed }, clusterMim := FMap.set a.clusterMim c r.slot }) s := ⟨_, rfl⟩
  have step : HifOnly v (raiseProgress r.opId (withLong r.opId (fun o => { o with position := r.changed.length }) v)) := by
    refine HifOnly.trans (.of _ _ _ : HifOnly v (withLong r.opId (fun o => { o with position := r.changed.length }) v)) ?_
    unfold raiseProgress
    split
    · exact .refl _
    · exact HifOnly.trans (.of _ _ _) (raise_hifOnly ..)
  refine ⟨_, hv ▸ step, ?_⟩
  have active : activeClusters (raiseProgress r.opId (withLong r.opId (fun o => { o with position := r.changed.length }) v)) =
      activeClusters s := (step.field activeClusters).trans (hv ▸ rfl)
  unfold rollForward
  dsimp only
  rw [← hv, active] <;> rfl

theorem startMove_agree (c d : Nat) (op : Option Nat) (s : State) : Agree sansAvl s (startMove c d op s) := by
  by_cases none_ : flowsOf s c = []
  · exact (show Agree sansAvl s { s with avl := _ } from rfl).trans (startMove_of_none d op none_).agree
  · rw [startMove_of_flows d op none_]
    rfl

/-- What CLUSTER_MIM_LOADED runs while an update goes on and its cluster is the spare. -/
theorem mimLoaded_of_rolling {c : Nat} {ok : Bool} {r : Rolling} {s : State} (up : serving s = true) (rolls : s.avl.rolling = some r)
    (spare : s.avl.spare = some c) (idle : s.avl.migrating = none) : exec (.clusterMimLoaded c ok) s = .next
      (if r.back then onlyIf ok (rollBack c r s) s else if r.changed.contains c then s else if ok then rollForward c r s
       else if r.changed.isEmpty then rollingFailed r s else withAvl (fun a => { a with rolling := some { r with back := true } }) s) := by
  change Host.Outcome.next (onlyIf (serving s) (mimLoaded c ok s) s) = _
  rw [up, onlyIf, if_pos rfl]
  unfold mimLoaded
  rw [rolls]
  dsimp only
  rw [spare, idle, if_neg (by simp)]

/-- Settles O53: image writes by the slot they name, activations by their checks, and the update by its next cluster. -/
theorem imagesAndUpdates : Obligations.ImagesAndUpdates := by
  unfold Obligations.ImagesAndUpdates
  intro h s s1 w act
  refine ⟨fun k ready ok room => ?write, fun i k b rest up waits => ⟨fun img good rules => ?written, fun e ok bad => ?refused⟩,
    fun c m ready good => ?accept, fun ready => answers_done (i := .imgStatus h) rfl ready rfl, fun ready ok => ?lockSet,
    fun ready good => ?lockClear, fun e ready is => ⟨fun bad => ?mimBad, fun ok room => ?mim⟩,
    fun e ready is => ⟨fun bad => ?cimBad, fun ok room => ?cim⟩, fun up => ⟨fun free => ?standby, fun i runs => ?handover,
      fun r c rolls spare idle forth new => ⟨fun first => ?failed, fun some_ => ?back, fun all => ?whole, fun k next => ?goesOn⟩,
      fun r c rolls spare idle back last => ?takenBack, fun t stage due => ?knownGood⟩⟩
  case write =>
    intro u
    obtain ⟨a, b, c, d, -, control, media, -, -⟩ := putSpareSlot_spec k none (begun 0x0601 (blk h).length h s)
    exact ⟨answers_done (i := .imgWrite h k) rfl ready ((acceptLong_of_ok ok room).trans rfl), control, media⟩
  case written =>
    obtain ⟨u, hu⟩ : ∃ u, u = putSpareSlot k (some img) (withAvl (fun a => { a with imgWriting := rest }) { s with free := s.free + 1 }) :=
      ⟨_, rfl⟩
    have runs : exec (.imgWriteDone true) s = .next (endLong i St.ok [] (withLong i (fun o => { o with position := o.total }) u)) := by
      change Host.Outcome.next (onlyIf (serving s) (imgWriteDone true s) s) = _
      rw [up, onlyIf, if_pos rfl]
      have result : writeResult s k b true = .ok img := by
        unfold writeResult
        rw [good]
        dsimp only
        rw [rules, if_neg (fun bad => bad rfl)]
        rfl
      unfold imgWriteDone
      rw [waits]
      dsimp only
      rw [result, hu]
    exact ⟨_, runs, wroteImage_spec hu (HifOnly.trans (.of _ _ _) (endLong_hifOnly ..)) (longOp?_endLong ..)⟩
  case refused =>
    obtain ⟨u, hu⟩ : ∃ u, u = putSpareSlot k none (withAvl (fun a => { a with imgWriting := rest }) { s with free := s.free + 1 }) :=
      ⟨_, rfl⟩
    have runs : exec (.imgWriteDone ok) s = .next (endLong i e.1 (imageDetail e.1 e.2) u) := by
      change Host.Outcome.next (onlyIf (serving s) (imgWriteDone ok s) s) = _
      rw [up, onlyIf, if_pos rfl]
      have result : writeResult s k b ok = .error e := by
        unfold writeResult
        rw [bad]
      unfold imgWriteDone
      rw [waits]
      dsimp only
      rw [result, hu]
    obtain ⟨only, ended, -, bootC, bootM, control, media⟩ := wroteImage_spec hu (endLong_hifOnly i e.1 (imageDetail e.1 e.2) u) (longOp?_endLong ..)
    exact ⟨_, runs, only, ended, bootC, bootM, control, media⟩
  case accept =>
    have ok : (if s1.endp.degraded then St.endpaperFail else St.ok) = St.ok := if_neg (Bool.eq_false_iff.mp good)
    obtain ⟨u, runs, host⟩ := answers_checked (i := .imgAcceptUntested h c m) rfl ready ok
    exact ⟨u, runs, (((take_agreeAvl h.ring s).trans (endpWrite_withAvl ..)).trans host.agree).avlOnly, host.field (·.avl)⟩
  case lockSet =>
    obtain ⟨u, runs, host⟩ := answers_checked (i := .behaviourLockSet h) rfl ready ok
    exact ⟨u, runs, (((take_agreeAvl h.ring s).trans (endpWrite_withAvl ..)).trans host.agree).avlOnly, host.field (·.avl)⟩
  case lockClear =>
    have ok : (if s1.endp.degraded then St.endpaperFail else St.ok) = St.ok := if_neg (Bool.eq_false_iff.mp good)
    obtain ⟨u, runs, host⟩ := answers_checked (i := .behaviourLockClear h) rfl ready ok
    exact ⟨u, runs, (((take_agreeAvl h.ring s).trans (endpWrite_withAvl ..)).trans host.agree).avlOnly, host.field (·.avl)⟩
  case mimBad =>
    refine answers_done (i := .imgActivateMim h) rfl ready ?_
    dsimp only
    rw [is, if_pos bad]
  case mim =>
    refine answers_done (i := .imgActivateMim h) rfl ready ?_
    dsimp only
    rw [is, if_neg (fun bad => bad ok)]
    exact acceptLong_of_ok rfl room
  case cimBad =>
    refine answers_done (i := .imgActivateCim h) rfl ready ?_
    dsimp only
    rw [is, if_pos bad]
  case cim =>
    refine answers_done (i := .imgActivateCim h) rfl ready ?_
    dsimp only
    rw [is, if_neg (fun bad => bad ok)]
    exact (acceptLong_of_ok rfl room).trans rfl
  case standby =>
    change Host.Outcome.next (onlyIf (serving s && s.avl.handover.isNone) _ s) = _
    rw [up, free]
    rfl
  case handover =>
    obtain ⟨u, hu⟩ : ∃ u, u = withAvl (fun a => { a with handover := none, cimSlot := 1 - s.avl.cimSlot, bootCim := 1 - s.avl.cimSlot })
        (progress i 3 (progress i 2 s)) := ⟨_, rfl⟩
    have moved : HifOnly s (progress i 3 (progress i 2 s)) := (progress_hifOnly ..).trans (progress_hifOnly ..)
    obtain ⟨a, e, f, act, counted, epoch, committed⟩ := activated_spec u
    obtain ⟨v, hv⟩ : ∃ v, v = raise Ev.cimHandover none (padTo 48 (Config.eventBody Ev.cimHandover (runVersions (activated u)))) (activated u) :=
      ⟨_, rfl⟩
    have goes : exec .cimHandover s = .next (endLong i St.ok [] (withLong i (fun o => { o with position := o.total }) v)) := by
      change Host.Outcome.next (onlyIf (serving s) (handover s) s) = _
      rw [up, onlyIf, if_pos rfl]
      unfold handover
      rw [runs, hv, hu]
    have only : HifOnly (activated u) (endLong i St.ok [] (withLong i (fun o => { o with position := o.total }) v)) :=
      HifOnly.trans (hv ▸ raise_hifOnly ..) (HifOnly.trans (.of _ _ _) (endLong_hifOnly ..))
    rw [moved.eq] at hu
    have started : Agree sansAvl s (activated u) := by
      rw [act]
      unfold Agree sansAvl
      dsimp only
      rw [epoch, committed, hu]
      rfl
    refine ⟨_, goes, (started.trans only.agree).avlOnly, ?_, longOp?_endLong .., ?_, ?_⟩
    · rw [only.field (·.sec), act, hu]
      rfl
    · rw [only.field (·.avl), act, hu]
      rfl
    · rw [only.field (·.endp), act]
      dsimp only
      rw [counted, hu]
      rfl
  case failed =>
    obtain ⟨ended, only⟩ := rollingFailed_spec r s
    refine ⟨rollingFailed r s, ?_, ((show Agree sansAvl s { s with avl := _, code := _ } from rfl).trans only.agree).avlOnly, ended,
      only.field (·.avl), only.field (·.code)⟩
    rw [mimLoaded_of_rolling up rolls spare idle, forth, first]
    rfl
  case back =>
    have old : r.changed.contains c = false := by simpa using new
    rw [mimLoaded_of_rolling up rolls spare idle, forth, old, List.isEmpty_eq_false_iff.mpr some_]
    rfl
  case whole =>
    have old : r.changed.contains c = false := by simpa using new
    obtain ⟨u, only, rolled⟩ := rollForward_spec c r s
    have none_ : (activeClusters s).find? (fun k => !(c :: r.changed).contains k) = none := by
      refine List.find?_eq_none.mpr (fun k active => ?_)
      rw [List.contains_iff_mem.mpr (all k active)]
      decide
    rw [none_] at rolled
    obtain ⟨agree, ended, a, b, avl, counted⟩ := rollingDone_spec { r with changed := c :: r.changed } u
    refine ⟨rollForward c r s, ?_, ?_⟩
    · rw [mimLoaded_of_rolling up rolls spare idle, forth, old]
      rfl
    · rw [rolled]
      refine ⟨(((show Agree sansAvl s { s with avl := _ } from rfl).trans only.agree).trans agree).avlOnly, ended, by rw [avl], by rw [avl], by rw [avl],
        by rw [avl], ?_, counted.trans (congrArg (·.life.imageActivate + 1) (only.field (·.endp)))⟩
      rw [avl]
      exact only.field now
  case goesOn =>
    have old : r.changed.contains c = false := by simpa using new
    obtain ⟨u, only, rolled⟩ := rollForward_spec c r s
    rw [next] at rolled
    dsimp only at rolled
    have same : flowsOf u k = flowsOf s k := only.field (flowsOf · k)
    have avl := only.field (·.avl)
    refine ⟨rollForward c r s, ?_, ?_⟩
    · rw [mimLoaded_of_rolling up rolls spare idle, forth, old]
      rfl
    · rw [rolled]
      refine ⟨(((show Agree sansAvl s { s with avl := _ } from rfl).trans only.agree).trans (startMove_agree ..)).avlOnly, ?_⟩
      by_cases none_ : flowsOf s k = []
      · have moved := startMove_of_none (s := u) c none (same.trans none_)
        rw [moved.field (·.avl)]
        dsimp only [Avail.moved]
        rw [avl]
        exact ⟨rfl, FMap.get?_set_same .., rfl, fun bad => absurd none_ bad, fun _ => rfl⟩
      · rw [startMove_of_flows c none (same ▸ none_)]
        dsimp only
        rw [avl]
        exact ⟨rfl, FMap.get?_set_same .., rfl, fun _ => rfl, fun bad => absurd bad none_⟩
  case takenBack =>
    obtain ⟨u, hu⟩ : ∃ u, u = withAvl (fun a => { a with rolling := some { r with changed := [] }, clusterMim := FMap.del a.clusterMim c }) s :=
      ⟨_, rfl⟩
    have runs : exec (.clusterMimLoaded c true) s = .next (rollingFailed r u) := by
      rw [mimLoaded_of_rolling up rolls spare idle, back]
      change Host.Outcome.next (rollBack c r s) = _
      unfold rollBack
      dsimp only
      rw [last, hu]
    obtain ⟨ended, only⟩ := rollingFailed_spec r u
    refine ⟨_, runs, ((show Agree sansAvl s { u with avl := _, code := _ } from hu ▸ rfl).trans only.agree).avlOnly, ended, ?_, ?_⟩
    · rw [only.field (·.avl)]
    · rw [only.field (·.avl), hu]
      rfl
  case knownGood =>
    have runs : exec (.knownGoodTimer t) s = .next (onlyIf (s.avl.knownGood != some (s.avl.cimSlot, s.avl.mimSlot))
        (endpWrite (withAvl (fun a => { a with knownGood := some (s.avl.cimSlot, s.avl.mimSlot) }) (advance t s))) (advance t s)) := by
      change execKnownGoodTimer t s = _
      unfold execKnownGoodTimer
      dsimp only
      rw [show serving (advance t s) = true from up, show (advance t s).avl.stage = 7 from stage,
        decide_eq_true (show (advance t s).avl.runSince + fld (advance t s) .avlCfg 0 22 12 * 60000000000 ≤ now (advance t s) from due)]
      rfl
    refine ⟨_, runs, ?_⟩
    by_cases same : s.avl.knownGood = some (s.avl.cimSlot, s.avl.mimSlot)
    · rw [onlyIf, if_neg (by simp [same])]
      refine ⟨(Agree.refl _).avlOnly, ?_⟩
      rw [← same]
      rfl
    · rw [onlyIf, if_pos (by simpa using same)]
      exact ⟨(endpWrite_withAvl ..).avlOnly, rfl⟩

end Sys2Proof.Machine
end

section
/-! OBLIGATION. The twin link (O55). -/

namespace Sys2Proof.Machine

open Sys2Proof

set_option Elab.async false

/-- What a command leaves whose own part completes and then goes on. -/
theorem answers_then {i : Instr} {c : CmdSpec} {h : CmdHdr} {own : State → CmdRes} {s u : State} {st : Nat} {b : Bytes}
    {post : State → State} (runs : exec i s = .next (runCmd c h own s)) (ready : Ready c h s)
    (ends : own (take h.ring s) = .doneThen st b u post) : exec i s = .next (post (finish c h s st b u)) :=
  runs.trans (congrArg _ (runCmd_doneThen ready ends))

/-- The answer of a command whose check fails is its status and nothing else. -/
theorem answers_refused {i : Instr} {c : CmdSpec} {h : CmdHdr} {status : State → Nat} {effect : State → State} {s : State} {k : Nat}
    (runs : exec i s = .next (runCmd c h (fun s1 => checked (status s1) (effect s1) s1) s)) (ready : Ready c h s)
    (is : status (take h.ring s) = k) (bad : k ≠ St.ok) : exec i s = .next (finish c h s k [] (take h.ring s)) :=
  answers_done runs ready (is ▸ checked_of_ne _ _ (is ▸ bad))

/-! ### Roles and the link (R510, R511) -/

/-- But for the role, what transmits, the balls, the host interface and the counters. -/
def sansOutputs (s : State) : State := { s with twin := Twin.reset, txcs := [], tpio := TpIo.reset, hif := Hif.reset, counters := [] }

theorem endOnAir_outputs (n status : Nat) (s : State) : Agree sansOutputs s (endOnAir n status s) := by
  unfold endOnAir
  split
  · exact .refl s
  · split
    · exact .refl s
    next o _ =>
      have ended : Agree sansOutputs s (endTx n o.req (o.antenna s) status (withTxc n (fun d => { d with active := none }) s)) :=
        .trans (show Agree sansOutputs s (withTxc n _ s) from rfl) (endTx_hifOnly ..).agree
      dsimp only
      exact .ite (ended.trans rfl) ended

theorem twin_endOnAir (n status : Nat) (s : State) : (endOnAir n status s).twin = s.twin := by
  unfold endOnAir
  split
  · rfl
  · split
    · rfl
    next o _ =>
      have ended : (endTx n o.req (o.antenna s) status (withTxc n (fun d => { d with active := none }) s)).twin = s.twin :=
        (endTx_hifOnly ..).field (·.twin)
      dsimp only
      split
      · exact ended
      · exact ended

theorem takeRole_spec (r : Nat) (s : State) : Agree sansOutputs s (takeRole r s) ∧ (takeRole r s).twin = { s.twin with role := r } := by
  obtain ⟨u, hu⟩ : ∃ u, u = withTwin (fun w => { w with role := r }) s := ⟨_, rfl⟩
  have folded : Agree sansOutputs u (u.txcs.foldl (fun t e => endOnAir e.1 St.txAborted t) u) :=
    .foldl (fun t e => endOnAir_outputs ..) _ _
  have twin (l : FMap Txc) (v : State) : (l.foldl (fun t e => endOnAir e.1 St.txAborted t) v).twin = v.twin := by
    induction l generalizing v with
    | nil => rfl
    | cons e r ih => exact (ih _).trans (twin_endOnAir ..)
  have start : Agree sansOutputs s u := hu ▸ rfl
  unfold takeRole
  dsimp only
  rw [← hu]
  split
  · exact ⟨(start.trans folded).trans rfl, (twin ..).trans (hu ▸ rfl)⟩
  · exact ⟨start.trans rfl, hu ▸ rfl⟩

/-- The link takes its state, and the role is decided when it reaches SYNCING. -/
theorem twinLinkState_spec (lanes beat : Bool) (peer : TwinPeer) (synced : Bool) (t : Ns) (s : State) :
    let u := twinLinkState lanes beat peer synced t s
    let o := linkOutcome lanes peer synced
    Agree sansOutputs s u ∧ u.twin.link = o.1 ∧ u.twin.reason = o.2 ∧ u.twin.alive = beat ∧
      u.twin.role = (if s.twin.link < 2 ∧ 2 ≤ o.1 then roleFor s peer else s.twin.role) ∧
      (s.twin.link = 3 → o.1 < 3 → (notice? u Ev.twinLink 0).isSome = true) := by
  intro u o
  obtain ⟨v, hv⟩ : ∃ v, v = (if s.twin.link < 2 && 2 ≤ o.1 then takeRole (roleFor s peer) s else s) := ⟨_, rfl⟩
  have role : v.twin.role = (if s.twin.link < 2 ∧ 2 ≤ o.1 then roleFor s peer else s.twin.role) ∧ Agree sansOutputs s v := by
    rw [hv]
    by_cases rises : s.twin.link < 2 ∧ 2 ≤ o.1
    · rw [if_pos rises, if_pos (by simpa using rises), (takeRole_spec ..).2]
      exact ⟨rfl, (takeRole_spec ..).1⟩
    · rw [if_neg rises, if_neg (by simpa using rises)]
      exact ⟨rfl, .refl s⟩
  obtain ⟨lost, w, hw, made⟩ : ∃ lost w, w = withTwin (fun x => { x with link := o.1, reason := o.2, alive := beat, lostAt := lost }) v ∧
      u = (if (2 ≤ s.twin.link && o.1 = 0) || (s.twin.link = 3 && o.1 < 3)
        then crossed Ev.twinLink 0 o.2 (checkpointAge w : Int) none false w else noticeLive Ev.twinLink 0 false none (o.1 == 3) w) :=
    ⟨_, _, rfl, by rw [hv]; rfl⟩
  have only : HifOnly w u := made ▸ .ite (crossed_hifOnly ..) (noticeLive_hifOnly ..)
  have twin : u.twin = { v.twin with link := o.1, reason := o.2, alive := beat, lostAt := lost } := (only.field (·.twin)).trans (hw ▸ rfl)
  refine ⟨(role.2.trans (hw ▸ rfl)).trans only.agree, by rw [twin], by rw [twin], by rw [twin], by rw [twin]; exact role.1, fun was falls => ?_⟩
  rw [made, if_pos (by simp [was, falls]), notice?_crossed]
  rfl

/-! ### Checkpoints (R512) -/

/-- But for the directory's entries. -/
def sansEntries (s : State) : State := { s with epd := Epd.reset }

theorem applyEntry_entries (s : State) (e : Nat × Option EpdEntry) : Agree sansEntries s (applyEntry s e) := by
  unfold applyEntry
  dsimp only
  split
  · rfl
  · rfl

/-- But for what a checkpoint carries. -/
def sansCarried (s : State) : State :=
  { s with chans := [], rtps := [], tps := [], rxcs := [], txcs := [], radio := [], groups := [], fsc := Fsc.reset, qmg := Qmg.reset
           epd := Epd.reset, tpio := TpIo.reset, hif := Hif.reset, counters := [] }

theorem FMap.keys_mapV {α β : Type} (m : FMap α) (f : Nat → α → β) : FMap.keys (FMap.mapV m f) = FMap.keys m := by
  unfold FMap.keys FMap.mapV
  rw [List.map_map]
  rfl

/-- The objects of a checkpoint stand in the place of the MIRROR's. -/
theorem applyObjects_spec (d : Checkpoint) (s : State) :
    let u := applyObjects d s
    Agree sansCarried s u ∧ u.rtps = d.rtps ∧ u.tps = d.tps ∧ u.rxcs = d.rxcs ∧ u.txcs = d.txcs ∧ u.groups = d.groups ∧
      FMap.keys u.chans = FMap.keys d.chans ∧ FMap.keys u.fsc.flows = FMap.keys d.fsc.flows := by
  obtain ⟨own, fl, made⟩ : ∃ (own : Nat → Chan → Chan) (fl : Nat → Flow → Flow), applyObjects d s =
      driveBalls (d.entries.foldl applyEntry (withNotices (fun l => d.notices.filter (fun n => !(n.code == Ev.twinLink)) ++
        l.filter (fun n => n.code == Ev.twinLink)) { s with
          chans := FMap.mapV d.chans own, rtps := d.rtps, tps := d.tps, rxcs := d.rxcs, txcs := d.txcs, radio := []
          groups := d.groups, fsc := { d.fsc with presented := [], flows := FMap.mapV d.fsc.flows fl }
          qmg := { d.qmg with extSize := s.qmg.extSize } })) := ⟨_, _, rfl⟩
  obtain ⟨v, hv⟩ : ∃ v, v = withNotices (fun l => d.notices.filter (fun n => !(n.code == Ev.twinLink)) ++
        l.filter (fun n => n.code == Ev.twinLink)) { s with
          chans := FMap.mapV d.chans own, rtps := d.rtps, tps := d.tps, rxcs := d.rxcs, txcs := d.txcs, radio := []
          groups := d.groups, fsc := { d.fsc with presented := [], flows := FMap.mapV d.fsc.flows fl }
          qmg := { d.qmg with extSize := s.qmg.extSize } } := ⟨_, rfl⟩
  have entries : Agree sansEntries v (d.entries.foldl applyEntry v) := .foldl applyEntry_entries _ _
  intro u
  have same : u = driveBalls (d.entries.foldl applyEntry v) := made.trans (hv ▸ rfl)
  have first : Agree sansCarried s v := hv ▸ rfl
  have field {α : Type} (f : State → α) (blind : ∀ w, f (sansEntries w) = f w) (still : ∀ w x, f { w with tpio := x } = f w) : f u = f v := by
    rw [same, driveBalls_frame, still]
    exact entries.field f blind
  refine ⟨?_, ?_, ?_, ?_, ?_, ?_, ?_, ?_⟩
  · rw [same]
    exact (first.trans entries.weaken).trans rfl
  · exact (field (·.rtps) (fun _ => rfl) (fun _ _ => rfl)).trans (hv ▸ rfl)
  · exact (field (·.tps) (fun _ => rfl) (fun _ _ => rfl)).trans (hv ▸ rfl)
  · exact (field (·.rxcs) (fun _ => rfl) (fun _ _ => rfl)).trans (hv ▸ rfl)
  · exact (field (·.txcs) (fun _ => rfl) (fun _ _ => rfl)).trans (hv ▸ rfl)
  · exact (field (·.groups) (fun _ => rfl) (fun _ _ => rfl)).trans (hv ▸ rfl)
  · rw [field (·.chans) (fun _ => rfl) (fun _ _ => rfl), hv]
    exact FMap.keys_mapV ..
  · rw [field (·.fsc.flows) (fun _ => rfl) (fun _ _ => rfl), hv]
    exact FMap.keys_mapV ..

/-! ### The unplanned takeover (R513, R514) -/

/-- But for flows and voice channels. -/
def sansPaced (s : State) : State := { s with fsc := Fsc.reset, chans := [] }

theorem resumeEntry_paced (s : State) (e : Nat × Nat × Nat) : Agree sansPaced s (resumeEntry s e) := by
  unfold resumeEntry
  split
  · rfl
  · rfl

/-- But for RTP contexts, the free choices and the counters. -/
def sansResumed (s : State) : State := { s with rtps := [], free := 0, counters := [] }

theorem bumpN_rtps (c : Ctr) (o u n : Nat) (s : State) : Agree sansResumed s (bumpN c o u n s) := by
  unfold bumpN
  exact .ite (.refl s) rfl

theorem restartStream_rtps (c : Nat) (s : State) : Agree sansResumed s (restartStream c s) := by
  unfold restartStream
  split
  · exact .refl s
  · exact (show Agree sansResumed s (withRtp c _ s) from rfl).trans (bumpN_rtps ..)

theorem resumeRtp_rtps (s : State) (c : Nat) : Agree sansResumed s (resumeRtp s c) :=
  (show Agree sansResumed s (withRtp c _ (drawNat (drawNat s).2).2) from rfl).trans (restartStream_rtps ..)

theorem FMap.adj_single {α : Type} (n : Nat) (x : α) (f : α → α) : FMap.adj [(n, x)] n f = [(n, f x)] := by
  simp [FMap.adj, FMap.get?, FMap.set]

/-- The one context resumes with its sequence number advanced by 64. -/
theorem resumeRtp_single {n : Nat} {x : Rtp} {s : State} (one : s.rtps = [(n, x)]) :
    ∃ y, (resumeRtp s n).rtps = [(n, y)] ∧ y.txSeq = x.txSeq + 64 := by
  unfold resumeRtp
  dsimp only
  obtain ⟨u, hu⟩ : ∃ u, u = withRtp n (fun x => { x with
      txSeq := x.txSeq + 64, txTs := BitVec.ofNat 32 (drawNat s).1, evTs := BitVec.ofNat 32 (drawNat (drawNat s).2).1
      txKey := x.txKey.map (fun k => k.resumed x.txSeq), txNext := x.txNext.map (fun k => k.resumed x.txSeq) })
        (drawNat (drawNat s).2).2 := ⟨_, rfl⟩
  rw [← hu]
  obtain ⟨y, single, seq⟩ : ∃ y, u.rtps = [(n, y)] ∧ y.txSeq = x.txSeq + 64 := by
    rw [hu]
    change ∃ y, FMap.adj s.rtps n _ = [(n, y)] ∧ _
    rw [one, FMap.adj_single]
    exact ⟨_, rfl, rfl⟩
  have held : rtp? u n = some y := by
    rw [rtp?, single]
    exact if_pos rfl
  unfold restartStream
  rw [held]
  dsimp only
  rw [(bumpN_hifOnly ..).field (·.rtps)]
  change ∃ z, FMap.adj u.rtps n _ = [(n, z)] ∧ _
  rw [single, FMap.adj_single]
  exact ⟨_, rfl, seq⟩

/-- State after an unplanned takeover, in the order in which it resumes. -/
theorem resumeAll_spec (s : State) : ∃ (c : FMap Chan) (f : Fsc) (v w : State), Agree sansResumed { s with
      fsc := f, chans := FMap.mapV c (fun _ c => { c.noEcho with segFirst := true })
      tps := FMap.mapV s.tps (fun _ x => { x with seq := x.seq + 256 })
      txcs := FMap.mapV s.txcs (fun _ c => { c with waiting := [], active := none }) } v ∧ Agree sansRecs v w ∧
    (∀ n x, s.rtps = [(n, x)] → ∃ y, v.rtps = [(n, y)] ∧ y.txSeq = x.txSeq + 64) ∧
    resumeAll s = { w with epd := { w.epd with
      entries := FMap.mapV w.epd.entries (fun _ e => { e with dlFcnt := guardedFcnt e.dlFcnt (dlGuard s) }) } } := by
  obtain ⟨a, ha⟩ : ∃ a, a = s.fsc.delay.foldl resumeEntry s := ⟨_, rfl⟩
  have paced : Agree sansPaced s a := ha ▸ .foldl resumeEntry_paced _ _
  obtain ⟨u, hu⟩ : ∃ u, u = { s with
      fsc := a.fsc, chans := FMap.mapV a.chans (fun _ c => { c.noEcho with segFirst := true })
      tps := FMap.mapV s.tps (fun _ x => { x with seq := x.seq + 256 })
      txcs := FMap.mapV s.txcs (fun _ c => { c with waiting := [], active := none }) } := ⟨_, rfl⟩
  have frame : a = { s with fsc := a.fsc, chans := a.chans } := paced.frame (fun v => { v with fsc := a.fsc, chans := a.chans })
  have second : u = { a with
      chans := FMap.mapV a.chans (fun _ c => { c.noEcho with segFirst := true })
      tps := FMap.mapV a.tps (fun _ x => { x with seq := x.seq + 256 })
      txcs := FMap.mapV a.txcs (fun _ c => { c with waiting := [], active := none }) } := by
    rw [hu, frame]
  have streams : Agree sansResumed u ((FMap.keys u.rtps).foldl resumeRtp u) := .foldl resumeRtp_rtps _ _
  refine ⟨a.chans, a.fsc, (FMap.keys u.rtps).foldl resumeRtp u, _, (show Agree sansResumed _ u from congrArg sansResumed hu).trans streams,
    .foldl (fun t c => (abandonAll_reach c .link t).frame) (FMap.keys ((FMap.keys u.rtps).foldl resumeRtp u).rxcs) _, fun n x one => ?_, ?_⟩
  · have same : u.rtps = [(n, x)] := hu ▸ one
    rw [same]
    exact resumeRtp_single same
  · unfold resumeAll
    dsimp only
    rw [← ha, ← second, show FMap.keys a.rtps = FMap.keys u.rtps by rw [second]]
    rfl

/-- Settles O55: each TWIN_CTRL by its own part, and the link, the checkpoints and the takeover by what they leave. -/
theorem twinLink : Obligations.TwinLink := by
  unfold Obligations.TwinLink
  refine ⟨fun h s => ?commands,
    fun s t up => ⟨fun lanes beat peer synced used => ?link, fun active synced at_ => ?checkpoint,
      fun b d mirror synced => ⟨fun early => ?partly, ?whole⟩, fun due => ?auto⟩⟩
  case commands =>
    intro s1 c ready
    have paired (good : s.endp.degraded = false) : endpStatusOf s1 = St.ok := if_neg (Bool.eq_false_iff.mp good)
    refine ⟨fun good => ?pair, fun bad => answers_refused (i := .twinPair h) rfl ready (if_pos bad) (by decide), ?unpair,
      fun mirror synced => ?takeover, fun other => ?noTakeover, fun g mirror linked good => ?copy, fun g active => ?noCopy⟩
    case pair =>
      obtain ⟨u, runs, host⟩ := answers_checked (i := .twinPair h) rfl ready (paired good)
      refine ⟨u, runs, ?_, host.field (·.endp.epoch), host.field (·.twin), host.field (·.endp.committed)⟩
      rw [host.field (flag · .twinCfg 0 0)]
      change (regVal (setReg s1 .twinCfg 0 (regVal s1 .twinCfg ||| 1)) .twinCfg 0).getLsbD 0 = true
      rw [regVal_setReg_same, BitVec.getLsbD_or]
      exact Bool.or_true _
    case unpair =>
      have clear : flag (putFld s1 .twinCfg 0 0 0 0) .twinCfg 0 0 = false := flag_putFld_bit s1 .twinCfg 0 0 false (by decide)
      have made : twinUnpair s1 = noticeLive Ev.twinLink 0 false none false
          { putFld s1 .twinCfg 0 0 0 0 with twin := { s.twin with link := 0, reason := 0, role := 0, lostAt := none } } := by
        unfold twinUnpair twinChanged
        rw [clear]
        rfl
      have host : HostOnly (twinUnpair s1) (finish c h s St.ok [] (twinUnpair s1)) := finish_hostOnly ..
      refine ⟨_, answers_done (i := .twinUnpair h) rfl ready rfl, ?_, ?_, ?_⟩
      · rw [host.field (flag · .twinCfg 0 0), made]
        exact clear
      · rw [host.field (·.endp), made]
        rfl
      · rw [host.field (·.twin), made]
        rfl
    case takeover =>
      obtain ⟨u, hu⟩ : ∃ u, u = finish c h s St.ok [] s1 := ⟨_, rfl⟩
      have host : HostOnly s1 u := hu ▸ finish_hostOnly ..
      have runs : exec (.twinTakeover h) s = .next (plannedTakeover u) := by
        refine hu ▸ answers_then (i := .twinTakeover h) rfl ready ?_
        rw [show (take h.ring s).twin.role = 1 from mirror, show (take h.ring s).twin.link = 3 from synced]
        rfl
      have only : HifOnly (driveBalls (withTwin (fun w => { w with role := 0 }) u)) (plannedTakeover u) := raise_hifOnly ..
      refine ⟨_, runs, ?_, ?_⟩
      · rw [only.field (·.twin)]
        change { u.twin with role := 0 } = _
        rw [host.field (·.twin)]
        rfl
      · rw [only.eq, driveBalls_frame, host.eq]
        rfl
    case noTakeover =>
      refine answers_done (i := .twinTakeover h) rfl ready (if_neg (fun both => ?_))
      obtain ⟨mirror, synced⟩ := Bool.and_eq_true_iff.mp both
      exact other.elim (fun no => no (of_decide_eq_true mirror)) (fun no => no (of_decide_eq_true synced))
    case copy =>
      have ok : copyStatus s1 = St.ok := by
        unfold copyStatus
        exact (if_pos (Bool.and_eq_true_iff.mpr ⟨decide_eq_true mirror, decide_eq_true linked⟩)).trans (paired good)
      obtain ⟨u, runs, host⟩ := answers_checked (i := .twinCopyConfig h g) rfl ready ok
      refine ⟨u, runs, ?_, host.field (·.endp.epoch), host.field (·.endp.committed)⟩
      rw [host.eq]
      rfl
    case noCopy =>
      refine answers_refused (i := .twinCopyConfig h g) rfl ready (if_neg (fun both => active ?_)) (by decide)
      exact of_decide_eq_true (Bool.and_eq_true_iff.mp both).1
  case link =>
    obtain ⟨agree, link, reason, alive_, role, falls⟩ := twinLinkState_spec lanes beat peer synced t (advance t s)
    refine ⟨_, ?_, link, reason, alive_, agree.field (·.endp), agree.field (·.chans), role, falls⟩
    change Host.Outcome.next (onlyIf (serving s && flag s .twinCfg 0 0) _ _) = _
    rw [up, used]
    rfl
  case checkpoint =>
    change Host.Outcome.next (onlyIf (serving s && s.twin.role = 0 && s.twin.link = 3 && decide (devOf s t % 10000000 = 0)) _ _) = _
    rw [up, active, synced, at_]
    rfl
  case partly =>
    change Host.Outcome.next (onlyIf (serving s && s.twin.role = 1 && s.twin.link = 3) (checkpointApply b false d t (advance t s)) _) = _
    have idle : checkpointApply b false d t (advance t s) = advance t s := if_neg (Nat.not_lt.mpr early)
    rw [idle, onlyIf, ite_self]
  case whole =>
    obtain ⟨v, hv⟩ : ∃ v, v = withTwin (fun w => { w with applied := some b }) (applyObjects d (advance t s)) := ⟨_, rfl⟩
    obtain ⟨agree, rtps, tps, rxcs, txcs, groups, chans, flows⟩ := applyObjects_spec d (advance t s)
    obtain ⟨u, hu⟩ : ∃ u, u = checkpointApply b true d t (advance t s) := ⟨_, rfl⟩
    have made : u = if b + 20000000 < t then crossed Ev.twinLink 0 v.twin.reason (checkpointAge v : Int) none true v else v := by
      rw [hu]
      unfold checkpointApply
      dsimp only
      rw [if_pos rfl, ← hv]
    have only : HifOnly v u := made ▸ .ite (crossed_hifOnly ..) (.refl v)
    have runs : exec (.twinCheckpointApply b true d t) s = .next u := by
      change Host.Outcome.next (onlyIf (serving s && s.twin.role = 1 && s.twin.link = 3) _ _) = _
      rw [up, mirror, synced, ← hu, onlyIf]
      exact congrArg _ (if_pos rfl)
    have field {α : Type} (f : State → α) (still : ∀ w h k x, f { w with hif := h, counters := k, twin := x } = f w) :
        f u = f (applyObjects d (advance t s)) := by
      rw [only.field f (fun h k => still v h k v.twin), hv]
      exact still _ (applyObjects d (advance t s)).hif (applyObjects d (advance t s)).counters _
    refine ⟨u, runs, ?_, (field (·.rtps) (fun _ _ _ _ => rfl)).trans rtps, (field (·.tps) (fun _ _ _ _ => rfl)).trans tps,
      (field (·.rxcs) (fun _ _ _ _ => rfl)).trans rxcs, (field (·.txcs) (fun _ _ _ _ => rfl)).trans txcs,
      (field (·.groups) (fun _ _ _ _ => rfl)).trans groups, (field (FMap.keys ·.chans) (fun _ _ _ _ => rfl)).trans chans,
      (field (FMap.keys ·.fsc.flows) (fun _ _ _ _ => rfl)).trans flows,
      (field (·.regs) (fun _ _ _ _ => rfl)).trans (agree.field (·.regs)), (field (·.avl) (fun _ _ _ _ => rfl)).trans (agree.field (·.avl)),
      (field (·.endp) (fun _ _ _ _ => rfl)).trans (agree.field (·.endp)), (field (·.sec) (fun _ _ _ _ => rfl)).trans (agree.field (·.sec)),
      fun late => ?_⟩
    · rw [only.field (·.twin), hv]
      change { (applyObjects d (advance t s)).twin with applied := some b } = _
      rw [agree.field (·.twin)]
      rfl
    · rw [made, if_pos late, notice?_crossed]
      rfl
  case auto =>
    obtain ⟨v, hv⟩ : ∃ v, v = withTwin (fun w => { w with role := 0 }) (advance t s) := ⟨_, rfl⟩
    obtain ⟨c, f, x, w, streams, radio, single, made⟩ := resumeAll_spec v
    obtain ⟨u, hu⟩ : ∃ u, u = takeoverEvent 2 (driveBalls (resumeAll v)) := ⟨_, rfl⟩
    have runs : exec (.twinAutoTakeover t) s = .next u := by
      change Host.Outcome.next (onlyIf (serving s && takeoverDue (advance t s) t) _ _) = _
      rw [up, due, hu, hv]
      rfl
    have only : HifOnly (driveBalls (resumeAll v)) u := hu ▸ raise_hifOnly ..
    have frame : driveBalls (resumeAll v) = { w with
        tpio := (driveBalls (resumeAll v)).tpio, epd := { w.epd with
          entries := FMap.mapV w.epd.entries (fun _ e => { e with dlFcnt := guardedFcnt e.dlFcnt (dlGuard s) }) } } := by
      rw [driveBalls_frame, made, hv]
      rfl
    have field {α : Type} (g : State → α) (still : ∀ y a b z e, g { y with hif := a, counters := b, tpio := z, epd := e } = g y)
        (blind : ∀ y, g (sansRecs y) = g y) (deaf : ∀ y, g (sansResumed y) = g y) : g u = g { v with
          fsc := f, chans := FMap.mapV c (fun _ c => { c.noEcho with segFirst := true })
          tps := FMap.mapV v.tps (fun _ x => { x with seq := x.seq + 256 })
          txcs := FMap.mapV v.txcs (fun _ c => { c with waiting := [], active := none }) } := by
      rw [only.eq, frame]
      exact (still w ..).trans ((radio.field g blind).trans (streams.field g deaf))
    refine ⟨u, runs, ?_, fun n y held => ?_, fun n y held => ?_, fun n y held => ?_, fun n y one => ?_, fun n e held => ?_, ?_, ?_, ?_⟩
    · rw [field (·.twin) (fun _ _ _ _ _ => rfl) (fun _ => rfl) (fun _ => rfl), hv]
      rfl
    · rw [field (·.tps) (fun _ _ _ _ _ => rfl) (fun _ => rfl) (fun _ => rfl), hv]
      have seqs : FMap.get? (FMap.mapV s.tps (fun _ x => { x with seq := x.seq + 256 })) n = some { y with seq := y.seq + 256 } := by
        rw [FMap.get?_mapV, held]
        rfl
      exact seqs
    · rw [field (·.txcs) (fun _ _ _ _ _ => rfl) (fun _ => rfl) (fun _ => rfl), FMap.get?_mapV] at held
      obtain ⟨z, -, is⟩ := Option.map_eq_some_iff.mp held
      rw [← is]
      exact ⟨rfl, rfl⟩
    · rw [field (·.chans) (fun _ _ _ _ _ => rfl) (fun _ => rfl) (fun _ => rfl), FMap.get?_mapV] at held
      obtain ⟨z, -, is⟩ := Option.map_eq_some_iff.mp held
      rw [← is]
    · obtain ⟨z, at_, seq⟩ := single n y (hv ▸ one)
      refine ⟨z, ?_, seq⟩
      rw [only.eq, frame]
      exact (radio.field (·.rtps)).trans at_
    · rw [only.eq, frame]
      have same : w.epd = s.epd := (radio.field (·.epd)).trans ((streams.field (·.epd)).trans (hv ▸ rfl))
      have there : FMap.get? w.epd.entries n = some e := same ▸ held
      have counted : FMap.get? (FMap.mapV w.epd.entries (fun _ e => { e with dlFcnt := guardedFcnt e.dlFcnt (dlGuard s) })) n =
          some { e with dlFcnt := guardedFcnt e.dlFcnt (dlGuard s) } := by
        rw [FMap.get?_mapV, there]
        rfl
      rw [hv]
      exact counted
    · exact (field (·.regs) (fun _ _ _ _ _ => rfl) (fun _ => rfl) (fun _ => rfl)).trans (hv ▸ rfl)
    · exact (field (·.endp) (fun _ _ _ _ _ => rfl) (fun _ => rfl) (fun _ => rfl)).trans (hv ▸ rfl)
    · exact (field (·.sec) (fun _ _ _ _ _ => rfl) (fun _ => rfl) (fun _ => rfl)).trans (hv ▸ rfl)

end Sys2Proof.Machine
end

section
/-! OBLIGATION. Register access (O46), refuted: R519 lets the read that follows a captured LO half use the capture up, and the
statement says that it changes nothing but the answer. -/

namespace Sys2Proof.Machine

open Sys2Proof Sys2Proof.Tests

set_option Elab.async false

/-- The device after a read of TBU_TIME_LO, which has captured TBU_TIME_HI. -/
def capturedTime : State := captureHi up (regOff .tbuTimeLo 0)

/-- The capture that the read of TBU_TIME_LO left is gone once TBU_TIME_HI has been read. -/
theorem captureHi_capturedTime : (FMap.get? capturedTime.hif.hiCapture (regOff .tbuTimeHi 0)).isSome = true ∧
    FMap.get? (captureHi capturedTime (regOff .tbuTimeHi 0)).hif.hiCapture (regOff .tbuTimeHi 0) = none := by decide +kernel

/-- Refutes O46: the read of TBU_TIME_HI after one of TBU_TIME_LO takes the captured value away. -/
theorem not_registerAccess : ¬ Obligations.RegisterAccess := by
  unfold Obligations.RegisterAccess
  intro holds
  obtain ⟨-, -, -, -, -, -, -, -, other⟩ := holds capturedTime (regOff .tbuTimeHi 0) 0
  have claim := other .tbuTimeHi 0 (by decide +kernel) (.inl rfl)
  obtain ⟨u, hu⟩ : ∃ u, u = captureHi capturedTime (regOff .tbuTimeHi 0) := ⟨_, rfl⟩
  have runs : exec (.loReadCapture (regOff .tbuTimeHi 0)) capturedTime =
      .next { u with hif := { u.hif with barAnswer := (barRead capturedTime (regOff .tbuTimeHi 0)).setWidth 64 } } := by
    rw [hu]
    rfl
  rw [runs] at claim
  injection claim with same
  obtain ⟨captured, gone⟩ := captureHi_capturedTime
  have kept := congrArg (fun u => FMap.get? u.hif.hiCapture (regOff .tbuTimeHi 0)) same
  rw [show FMap.get? capturedTime.hif.hiCapture (regOff .tbuTimeHi 0) = none from kept.symm.trans (hu ▸ gone)] at captured
  cases captured

end Sys2Proof.Machine
end

section
/-! OBLIGATION. TDM ports (O39): what the framer of a port may change. -/

namespace Sys2Proof.Machine

open Sys2Proof

set_option Elab.async false

theorem tdmPort_withTdm_same (n : Nat) (f : TdmPort → TdmPort) (s : State) : tdmPort (withTdm n f s) n = f (tdmPort s n) := by
  unfold tdmPort withTdm FMap.getD
  dsimp only
  rw [FMap.get?_set_same]
  rfl

theorem tdmPort_withTdm_other {n m : Nat} (f : TdmPort → TdmPort) (s : State) (ne : m ≠ n) : tdmPort (withTdm n f s) m = tdmPort s m := by
  unfold tdmPort withTdm FMap.getD
  dsimp only
  rw [FMap.get?_set_other _ _ _ _ ne]

/-! ### What the framer of one port touches -/

/-- But for TDM ports, references, figures, the free choices, the host interface and the counters. -/
def sansLine (s : State) : State :=
  { s with tdm := [], clk := { s.clk.sansRefs with tdmHold := [] }, free := 0, figs := [], hif := Hif.reset, counters := [] }

/-- A port but for what its framer knows, its alarms and the received signalling. -/
def TdmPort.core (p : TdmPort) : TdmPort :=
  { p with los := false, ais := false, lof := false, lomf := false, rai := false, crc4Off := false, rx := RxFramer.initial
           tx := TxFramer.initial, rxAbcd := [], candAbcd := [], lastAlarm := 0, alarmSince := none, crcSecond := none }

/-- `t` is `s` but for the framer of port `n`, its alarms, and what they tell. -/
structure TdmReach (n : Nat) (s t : State) : Prop where
  frame : Agree sansLine s t
  others : ∀ m, m ≠ n → tdmPort t m = tdmPort s m
  core : (tdmPort t n).core = (tdmPort s n).core

section
variable {n : Nat} {s t u : State}

theorem TdmReach.refl (n : Nat) (s : State) : TdmReach n s s := ⟨rfl, fun _ _ => rfl, rfl⟩

theorem TdmReach.trans (h : TdmReach n s t) (k : TdmReach n t u) : TdmReach n s u :=
  ⟨h.frame.trans k.frame, fun m ne => (k.others m ne).trans (h.others m ne), k.core.trans h.core⟩

theorem TdmReach.ite {c : Prop} [Decidable c] (h : TdmReach n s t) (k : TdmReach n s u) : TdmReach n s (if c then t else u) := by
  split <;> assumption

theorem TdmReach.foldl {α : Type} {f : State → α → State} (reach : ∀ t a, TdmReach n t (f t a)) (l : List α) (s : State) :
    TdmReach n s (l.foldl f s) := by
  induction l generalizing s with
  | nil => exact .refl n s
  | cons a r ih => exact (reach s a).trans (ih _)

theorem TdmReach.of_agree (agree : Agree sansLine s t) (ports : t.tdm = s.tdm) (n : Nat) : TdmReach n s t := by
  have same (m : Nat) : tdmPort t m = tdmPort s m := by rw [tdmPort, ports, ← tdmPort]
  exact ⟨agree, fun m _ => same m, congrArg TdmPort.core (same n)⟩

theorem HifOnly.tdmReach (only : HifOnly s t) (n : Nat) : TdmReach n s t := .of_agree only.agree (only.field (·.tdm)) n

theorem withTdm_reach {f : TdmPort → TdmPort} (n : Nat) (s : State) (kept : (f (tdmPort s n)).core = (tdmPort s n).core := by rfl) :
    TdmReach n s (withTdm n f s) :=
  ⟨rfl, fun _ ne => tdmPort_withTdm_other f s ne, by rw [tdmPort_withTdm_same, kept]⟩

theorem withRx_reach (n : Nat) (f : RxFramer → RxFramer) (s : State) : TdmReach n s (withRx n f s) := withTdm_reach n s

theorem addFig_tdmReach (n : Nat) (f : Fig) (o k : Nat) (v : Int) (s : State) : TdmReach n s (addFig f o k v s) := .of_agree (by rfl) (by rfl) n

theorem updateRefs_tdmReach (n : Nat) (s : State) : TdmReach n s (updateRefs s) :=
  .of_agree (updateRefs_refs s).weaken ((updateRefs_refs s).field (·.tdm)) n

end

/-! ### Alarms (R354, R355) -/

theorem alarmOf_setAlarm (p : TdmPort) (v : Bool) (a b : TdmAlarm) : alarmOf (setAlarm p v a) b = if b = a then v else alarmOf p b := by
  cases a <;> cases b <;> rfl

theorem setAlarm_core (p : TdmPort) (v : Bool) (a : TdmAlarm) : (setAlarm p v a).core = p.core := by cases a <;> rfl

/-- A port with an alarm changed, as the alarm's change keeps it. -/
theorem alarmChange_spec (n : Nat) (a : TdmAlarm) (v : Bool) (t : Ns) (s : State) : TdmReach n s (alarmChange n a v t s) ∧
    (∀ b, alarmOf (tdmPort (alarmChange n a v t s) n) b = if b = a then v else alarmOf (tdmPort s n) b) ∧
    (alarmOf (tdmPort s n) a ≠ v → (notice? (alarmChange n a v t s) Ev.tdmAlarm n).isSome = true) := by
  by_cases same : alarmOf (tdmPort s n) a = v
  · have idle : alarmChange n a v t s = s := if_pos same
    rw [idle]
    refine ⟨.refl n s, fun b => ?_, fun ne => absurd same ne⟩
    split
    next is => rw [is, same]
    next => rfl
  · obtain ⟨u, hu⟩ : ∃ u, u = alarmChange n a v t s := ⟨_, rfl⟩
    have made := hu
    unfold alarmChange at made
    dsimp only at made
    rw [if_neg same] at made
    obtain ⟨q, hq⟩ : ∃ q, q = setAlarm (tdmPort s n) v a := ⟨_, rfl⟩
    rw [← hq] at made
    obtain ⟨r, hr⟩ : ∃ r : TdmPort, r = { q with
        lastAlarm := if v then alarmCode a else q.lastAlarm, candAbcd := []
        rx := if v && a = .lof then RxFramer.initial
              else if v && a = .lomf then { q.rx with place := none, first := none, seen := [], cas := none } else q.rx
        crc4Off := if v && a = .lof then false else q.crc4Off
        alarmSince := if !q.alarmed then none else if (tdmPort s n).alarmed then q.alarmSince else some t } := ⟨_, rfl⟩
    obtain ⟨s1, h1⟩ : ∃ s1, s1 = withTdm n (fun _ => r) s := ⟨_, rfl⟩
    obtain ⟨s2, h2⟩ : ∃ s2, s2 = (match (tdmPort s n).alarmSince with
      | some b => if q.alarmed then s1 else addFig .tdmAlarmS n 0 ((t - b) / 1000000000 : Nat) s1
      | none => s1) := ⟨_, rfl⟩
    obtain ⟨s3, h3⟩ : ∃ s3, s3 = (match v, a with
      | true, .lof => bump .tdmLof n s2
      | true, .los => bump .tdmLos n s2
      | _, _ => s2) := ⟨_, rfl⟩
    obtain ⟨s4, h4⟩ : ∃ s4, s4 = if (tdmPort s n).failed && !q.failed then
        { s3 with clk := { s3.clk with tdmHold := FMap.set s3.clk.tdmHold n (t + 10000000000) } } else s3 := ⟨_, rfl⟩
    have whole : u = updateRefs (crossed Ev.tdmAlarm n r.lastAlarm 0 none (!q.alarmed) s4) := by
      rw [made, h4, h3, h2, h1, hr] <;> rfl
    have core : r.core = (tdmPort s n).core := by
      rw [hr]
      exact (hq ▸ setAlarm_core (tdmPort s n) v a : q.core = (tdmPort s n).core)
    have first : TdmReach n s s1 := h1 ▸ withTdm_reach n s core
    have second : TdmReach n s1 s2 ∧ s2.tdm = s1.tdm := by
      rw [h2]
      split
      · split
        · exact ⟨.refl n s1, rfl⟩
        · exact ⟨addFig_tdmReach .., rfl⟩
      · exact ⟨.refl n s1, rfl⟩
    have third : HifOnly s2 s3 := by
      rw [h3]
      split
      · exact bump_hifOnly ..
      · exact bump_hifOnly ..
      · exact .refl s2
    have fourth : TdmReach n s3 s4 ∧ s4.tdm = s3.tdm := by
      rw [h4]
      split
      · exact ⟨.of_agree (by rfl) (by rfl) n, rfl⟩
      · exact ⟨.refl n s3, rfl⟩
    have tells : HifOnly s4 (crossed Ev.tdmAlarm n r.lastAlarm 0 none (!q.alarmed) s4) := crossed_hifOnly ..
    have tdm : u.tdm = s1.tdm := by
      rw [whole, (updateRefs_refs _).field (·.tdm), tells.field (·.tdm), fourth.2, third.field (·.tdm), second.2]
    have port : tdmPort u n = r := by
      rw [tdmPort, tdm, ← tdmPort, h1, tdmPort_withTdm_same]
    rw [← hu]
    refine ⟨?_, fun b => ?_, fun _ => ?_⟩
    · rw [whole]
      exact (first.trans (second.1.trans ((third.tdmReach n).trans (fourth.1.trans ((tells.tdmReach n).trans (updateRefs_tdmReach ..))))))
    · rw [port, ← alarmOf_setAlarm, ← hq, hr]
      cases b <;> rfl
    · rw [whole, notice?_updateRefs _ _ _ (by decide), notice?_crossed]
      rfl

/-! ### The framer (R352, R353, R356) -/

theorem casStep_reach (n : Nat) (mf : Ns) (e : Nat × Nat) (s : State) : TdmReach n s (casStep n mf e s) := by
  unfold casStep
  dsimp only
  refine .ite (.refl n s) (.ite (withTdm_reach n s) (.ite ?_ (withTdm_reach n s)))
  exact (withTdm_reach n s).trans ((raise_hifOnly ..).tdmReach n)

theorem countCrc_reach (n k : Nat) (s : State) : TdmReach n s (countCrc n k s) := by
  unfold countCrc
  dsimp only
  have counted : TdmReach n s (bumpN .tdmCrc n 0 k s) := (bumpN_hifOnly ..).tdmReach n
  exact .ite (.refl n s) (.ite counted ((counted.trans (withTdm_reach n _)).trans (addFig_tdmReach ..)))

theorem framingRead_reach (n : Nat) (err : Bool) (s : State) : TdmReach n s (framingRead n err s) := by
  unfold framingRead
  dsimp only
  have read : TdmReach n s (bumpN .tdmFasErr n 0 (b2n err) (withRx n (fun r => { r with errs := (err :: (tdmPort s n).rx.errs).take 4 }) s)) :=
    (withRx_reach ..).trans ((bumpN_hifOnly ..).tdmReach n)
  exact .ite (read.trans (alarmChange_spec ..).1) read

theorem blockRead_reach (n k got : Nat) (acc : Option Nat) (s : State) : TdmReach n s (blockRead n k got acc s) := by
  unfold blockRead
  dsimp only
  refine .ite ((withRx_reach ..).trans (countCrc_reach ..)) (.ite ?_ ?_)
  · refine TdmReach.trans ?_ (alarmChange_spec ..).1
    exact ((withRx_reach ..).trans (countCrc_reach ..)).trans (withTdm_reach n _)
  · exact ((withRx_reach ..).trans (countCrc_reach ..)).trans (withTdm_reach n _)

theorem crc4In_reach (n : Nat) (d : Bytes) (fas : Bool) (s : State) : TdmReach n s (crc4In n d fas s) := by
  unfold crc4In
  dsimp only
  split
  · exact withRx_reach ..
  · refine .ite (TdmReach.trans ?_ (blockRead_reach ..)) ?_
    · exact (withRx_reach ..).trans ((bumpN_hifOnly ..).tdmReach n)
    · exact (withRx_reach ..).trans ((bumpN_hifOnly ..).tdmReach n)

theorem ts16In_reach (n : Nat) (f : TdmFrame) (s : State) : TdmReach n s (ts16In n f s) := by
  unfold ts16In
  dsimp only
  split
  · exact .ite (withRx_reach ..) (.refl n s)
  · exact withRx_reach ..
  · exact .ite ((withRx_reach ..).trans (.foldl (fun u e => casStep_reach ..) _ _)) (withRx_reach ..)

theorem t1Body_reach (n k : Nat) (f : TdmFrame) (s : State) : TdmReach n s (t1Body n k f s) := by
  obtain ⟨g, acc, got, rob, made⟩ : ∃ g acc got rob, t1Body n k f s =
      if !decide (k + 1 = mfLen s n) then withRx n g s
      else if t1Rbs s n then (rob : FMap Nat).foldl (fun u e => casStep n (tdmPort s n).rx.start (e.1, if t1Esf s n then e.2 else 5 * e.2) u)
          (if t1Esf s n then blockRead n k got acc (withRx n g s) else withRx n g s)
        else (if t1Esf s n then blockRead n k got acc (withRx n g s) else withRx n g s) := ⟨_, _, _, _, rfl⟩
  have checked : TdmReach n s (if t1Esf s n then blockRead n k got acc (withRx n g s) else withRx n g s) :=
    .ite ((withRx_reach ..).trans (blockRead_reach ..)) (withRx_reach ..)
  rw [made]
  exact .ite (withRx_reach ..) (.ite (checked.trans (.foldl (fun u e => casStep_reach ..) _ _)) checked)

theorem t1In_reach (n : Nat) (f : TdmFrame) (s : State) : TdmReach n s (t1In n f s) := by
  unfold t1In
  dsimp only
  split
  · exact withRx_reach ..
  · split
    · refine .ite ?_ (TdmReach.trans ?_ (t1Body_reach ..))
      · exact (withRx_reach ..).trans (framingRead_reach ..)
      · exact (withRx_reach ..).trans (framingRead_reach ..)
    · exact .ite (withRx_reach ..) ((withRx_reach ..).trans (t1Body_reach ..))

end Sys2Proof.Machine
end

section
/-! OBLIGATION. TDM ports (O39): received frames. -/

namespace Sys2Proof.Machine

open Sys2Proof

set_option Elab.async false

/-- A port with other received Sa bits. -/
def TdmPort.withSa (x : Nat) (p : TdmPort) : TdmPort := { p with saRx := x }

theorem TdmReach.withSa {n : Nat} {s t : State} (x : Nat) (h : TdmReach n s t) :
    TdmReach n (withTdm n (.withSa x) s) (withTdm n (.withSa x) t) where
  frame := h.frame
  others m ne := by rw [tdmPort_withTdm_other _ _ ne, tdmPort_withTdm_other _ _ ne, h.others m ne]
  core := by
    rw [tdmPort_withTdm_same, tdmPort_withTdm_same]
    exact congrArg (fun p : TdmPort => { p with saRx := x }) h.core

/-- The Sa bits that a port holds are the ones it keeps. -/
theorem TdmReach.keptSa {n : Nat} {s t : State} (h : TdmReach n s t) : TdmReach n (withTdm n (.withSa (tdmPort s n).saRx) s) t :=
  TdmReach.trans (t := s) ⟨rfl, fun m ne => (tdmPort_withTdm_other _ _ ne).symm, by rw [tdmPort_withTdm_same]; rfl⟩ h

/-! ### What the framer finds (R352) -/

/-- A third FAS in error in a row loses the alignment. -/
theorem framingRead_lost {n : Nat} {s : State} (e1 : isE1 s n = true) (two : (tdmPort s n).rx.errs.take 2 = [true, true]) :
    (tdmPort (framingRead n true s) n).lof = true := by
  obtain ⟨a, b, r, errs⟩ : ∃ a b r, (tdmPort s n).rx.errs = a :: b :: r := by
    match h : (tdmPort s n).rx.errs, two with
    | a :: b :: r, _ => exact ⟨a, b, r, rfl⟩
  rw [errs] at two
  simp only [List.take_succ_cons, List.take_zero, List.cons.injEq, and_true] at two
  obtain ⟨ha, hb⟩ := two
  obtain ⟨u, hu⟩ : ∃ u, u = bumpN .tdmFasErr n 0 (b2n true) (withRx n (fun r => { r with errs := (true :: (tdmPort s n).rx.errs).take 4 }) s) :=
    ⟨_, rfl⟩
  have lost : framingRead n true s = alarmChange n .lof true (now s) u := by
    unfold framingRead
    dsimp only
    rw [← hu, if_pos]
    unfold alignmentLost
    rw [e1, if_pos rfl, errs, ha, hb]
    rfl
  rw [lost]
  exact ((alarmChange_spec n .lof true (now s) u).2.1 .lof).trans (if_pos rfl)

theorem e1In_spec (n : Nat) (f : TdmFrame) (s : State) : ∃ x, TdmReach n (withTdm n (.withSa x) s) (e1In n f s) ∧
    (isE1 s n = true → (tdmPort s n).rx.fas = some true → byteAt f.slots 0 % 128 ≠ 0x1B → (tdmPort s n).rx.errs.take 2 = [true, true] →
      (tdmPort (e1In n f s) n).lof = true) ∧
    ((tdmPort s n).failed = false → (tdmPort s n).rx.fas = some false → x = byteAt f.slots 0 % 32) := by
  obtain ⟨fas, hfas⟩ : ∃ fas, fas = (tdmPort s n).rx.fas.getD (!(byteAt f.slots 0).testBit 6) := ⟨_, rfl⟩
  obtain ⟨s0, h0⟩ : ∃ s0, s0 = withRx n (fun r => { r with fas := some (!fas) }) s := ⟨_, rfl⟩
  obtain ⟨s1, h1⟩ : ∃ s1, s1 = if fas then framingRead n (byteAt f.slots 0 % 128 != 0x1B) s0 else s0 := ⟨_, rfl⟩
  obtain ⟨s2, h2⟩ : ∃ s2, s2 = if fas then s1 else withTdm n (.withSa (byteAt f.slots 0 % 32)) s1 := ⟨_, rfl⟩
  obtain ⟨s3, h3⟩ : ∃ s3, s3 = if crcChecked s n then crc4In n f.slots fas s2 else s2 := ⟨_, rfl⟩
  have made : e1In n f s = if (tdmPort s1 n).failed then s1 else
      if e1Cas s n && !(tdmPort s3 n).failed then ts16In n f s3 else s3 := by
    rw [h3, h2, h1, h0, hfas]
    rfl
  have begun : TdmReach n s s0 := h0 ▸ withRx_reach ..
  have first : TdmReach n s s1 := by
    rw [h1]
    exact .ite (begun.trans (framingRead_reach ..)) begun
  have rest : TdmReach n s2 (if e1Cas s n && !(tdmPort s3 n).failed then ts16In n f s3 else s3) := by
    have checked : TdmReach n s2 s3 := h3 ▸ .ite (crc4In_reach ..) (.refl n s2)
    exact .ite (checked.trans (ts16In_reach ..)) checked
  have lost (e1 : isE1 s n = true) (is : (tdmPort s n).rx.fas = some true) (bad : byteAt f.slots 0 % 128 ≠ 0x1B)
      (two : (tdmPort s n).rx.errs.take 2 = [true, true]) : (tdmPort (e1In n f s) n).lof = true := by
    have word : fas = true := by rw [hfas, is]; rfl
    have gone : (tdmPort s1 n).lof = true := by
      rw [h1, word, if_pos rfl, bne_iff_ne.mpr bad]
      refine framingRead_lost ?_ ?_
      · rw [h0]
        exact e1
      · rw [h0, withRx, tdmPort_withTdm_same]
        exact two
    rw [made, if_pos]
    · exact gone
    · rw [TdmPort.failed, gone, Bool.or_true]
  by_cases failed : (tdmPort s1 n).failed = true
  · refine ⟨(tdmPort s n).saRx, ?_, lost, fun well is => ?_⟩
    · rw [made, if_pos failed]
      exact first.keptSa
    · have word : fas = false := by rw [hfas, is]; rfl
      have same : (tdmPort s1 n).failed = (tdmPort s n).failed := by
        rw [h1, word, if_neg (by decide), h0, withRx, tdmPort_withTdm_same]
        rfl
      rw [same, well] at failed
      contradiction
  · rw [if_neg failed] at made
    cases word : fas with
    | true =>
      refine ⟨(tdmPort s n).saRx, ?_, lost, fun well is => ?_⟩
      · rw [made]
        rw [word, if_pos rfl] at h2
        exact (first.trans (h2 ▸ rest)).keptSa
      · rw [hfas, is] at word
        contradiction
    | false =>
      refine ⟨byteAt f.slots 0 % 32, ?_, lost, fun _ _ => rfl⟩
      rw [made]
      rw [word, if_neg (by decide)] at h2
      exact (first.withSa _).trans (h2 ▸ rest)

theorem framerIn_spec (n : Nat) (f : TdmFrame) (s : State) : ∃ x, TdmReach n (withTdm n (.withSa x) s) (framerIn n f s) ∧
    (isE1 s n = true → (tdmPort s n).lof = false → (tdmPort s n).rx.fas = some true → byteAt f.slots 0 % 128 ≠ 0x1B →
      (tdmPort s n).rx.errs.take 2 = [true, true] → (tdmPort (framerIn n f s) n).lof = true) ∧
    (isE1 s n = true → (tdmPort s n).failed = false → (tdmPort s n).rx.fas = some false → x = byteAt f.slots 0 % 32) := by
  unfold framerIn
  by_cases idle : (!framed s n || (tdmPort s n).lof) = true
  · rw [if_pos idle]
    have none_ (e1 : isE1 s n = true) (well : (tdmPort s n).lof = false) : False := by
      rw [framed, e1, well] at idle
      contradiction
    refine ⟨(tdmPort s n).saRx, (TdmReach.refl n s).keptSa, fun e1 well => (none_ e1 well).elim, fun e1 well => (none_ e1 ?_).elim⟩
    rw [TdmPort.failed, Bool.or_eq_false_iff] at well
    exact well.2
  · rw [if_neg idle]
    by_cases e1 : isE1 s n = true
    · obtain ⟨x, reach, lost, sa⟩ := e1In_spec n f s
      rw [if_pos e1]
      exact ⟨x, reach, fun e1 _ => lost e1, fun _ => sa⟩
    · rw [if_neg e1]
      exact ⟨(tdmPort s n).saRx, (t1In_reach n f s).keptSa, fun bad => absurd bad e1, fun bad => absurd bad e1⟩

theorem slipLive_hifOnly (n : Nat) (s : State) : HifOnly s (slipLive n s) := by
  unfold slipLive
  split
  · exact .ite (noticeLive_hifOnly ..) (.refl s)
  · exact .refl s

/-! ### The crossing and the slip buffer (R33, R350) -/

/-- A frame at the end of the crossing, unless four wait there. -/
def crossed4 (l : List Bytes) (d : Bytes) : List Bytes := if 4 ≤ l.length then l else l ++ [d]

/-- A frame has entered the crossing of a port, and nothing else has changed there. -/
structure Crossed (n : Nat) (d : Bytes) (s t : State) : Prop where
  frame : t = { s with tdm := t.tdm, counters := t.counters }
  others : ∀ m, m ≠ n → tdmPort t m = tdmPort s m
  port : tdmPort t n = { tdmPort s n with rxFifo := crossed4 (tdmPort s n).rxFifo d }

theorem crossIn_spec (n : Nat) (d : Bytes) (s : State) : Crossed n d s (crossIn n d s) := by
  unfold crossIn
  split
  next full =>
    have counted : bump .xingOverrun n s = { s with counters := (bump .xingOverrun n s).counters } := by
      unfold bump bumpN
      split <;> rfl
    refine ⟨by rw [counted], fun m _ => (bump_hifOnly ..).field (tdmPort · m), ?_⟩
    rw [(bump_hifOnly ..).field (tdmPort · n), crossed4, if_pos full]
  next room =>
    refine ⟨rfl, fun m ne => tdmPort_withTdm_other _ _ ne, ?_⟩
    rw [tdmPort_withTdm_same, crossed4, if_neg room]

theorem slip_spec (n : Nat) (tx del : Bool) (s : State) :
    slip n tx del s = { s with tdm := (slip n tx del s).tdm, hif := (slip n tx del s).hif, counters := (slip n tx del s).counters } ∧
      (∀ m, m ≠ n → tdmPort (slip n tx del s) m = tdmPort s m) ∧
      tdmPort (slip n tx del s) n = { tdmPort s n with slipAt := some (now s) } ∧
      (notice? (slip n tx del s) Ev.tdmSlip n).isSome = true := by
  obtain ⟨c, made⟩ : ∃ c, slip n tx del s = crossed Ev.tdmSlip n (2 * b2n tx + b2n del) 0 none false
      (bump c n (withTdm n (fun p => { p with slipAt := some (now s) }) s)) := ⟨_, rfl⟩
  have only : HifOnly (withTdm n (fun p => { p with slipAt := some (now s) }) s) (slip n tx del s) :=
    made ▸ (bump_hifOnly ..).trans (crossed_hifOnly ..)
  refine ⟨?_, fun m ne => ?_, ?_, ?_⟩
  · have frame := only.eq
    rw [frame]
    rfl
  · exact (only.field (tdmPort · m)).trans (tdmPort_withTdm_other _ _ ne)
  · exact (only.field (tdmPort · n)).trans (tdmPort_withTdm_same ..)
  · rw [made, notice?_crossed]
    rfl

/-! ### A received frame (R350, R355) -/

/-- What a received frame leaves of its port, by what the framer has found and by what the slip buffer does. -/
structure RxOutcome (n : Nat) (whole idle : Bytes) (d : Int) (s t : State) : Prop where
  frame : t = { s with tdm := t.tdm, hif := t.hif, counters := t.counters }
  others : ∀ m, m ≠ n → tdmPort t m = tdmPort s m
  alarms : (tdmPort t n).failed = (tdmPort s n).failed ∧ (tdmPort t n).lof = (tdmPort s n).lof ∧ (tdmPort t n).saRx = (tdmPort s n).saRx
  delay : (tdmPort t n).rxDelay = delayAfter d
  plain : (tdmPort s n).failed = true ∨ slipKind d = none →
    (tdmPort t n).rxSlots = (if (tdmPort s n).failed then idle else whole) ∧
      (tdmPort t n).rxFifo = crossed4 (tdmPort s n).rxFifo (tdmPort t n).rxSlots
  deleted : (tdmPort s n).failed = false → slipKind d = some true → (tdmPort t n).rxSlots = (tdmPort s n).rxSlots ∧
    (tdmPort t n).rxFifo = (tdmPort s n).rxFifo ∧ (tdmPort t n).slipAt = some (now s) ∧ (notice? t Ev.tdmSlip n).isSome = true
  repeated : (tdmPort s n).failed = false → slipKind d = some false → (tdmPort t n).rxSlots = whole ∧
    (tdmPort t n).rxFifo = crossed4 (crossed4 (tdmPort s n).rxFifo (tdmPort s n).rxSlots) whole ∧
    (tdmPort t n).slipAt = some (now s) ∧ (notice? t Ev.tdmSlip n).isSome = true

/-- A frame is presented to the fabric: the port holds it, and it enters the crossing. -/
theorem presented_spec (n : Nat) (x : Bytes) (s : State) : let t := crossIn n x (withTdm n (fun q => { q with rxSlots := x }) s)
    t = { s with tdm := t.tdm, counters := t.counters } ∧ (∀ m, m ≠ n → tdmPort t m = tdmPort s m) ∧
      tdmPort t n = { tdmPort s n with rxSlots := x, rxFifo := crossed4 (tdmPort s n).rxFifo x } := by
  intro t
  have done : Crossed n x (withTdm n (fun q => { q with rxSlots := x }) s) t := crossIn_spec ..
  refine ⟨?_, fun m ne => (done.others m ne).trans (tdmPort_withTdm_other _ _ ne), ?_⟩
  · have frame := done.frame
    rw [frame]
    rfl
  · rw [done.port, tdmPort_withTdm_same]

theorem tdmIn_spec (n : Nat) (f : TdmFrame) (s : State) :
    let s1 := slipLive n (framerIn n f s)
    let p := tdmPort s1 n
    RxOutcome n (padTo (slotCount s n) f.slots) (List.replicate (slotCount s n) (idleByte s n))
      (nextDelay s1 n false p.rxDelay (rxGain s1 p f)) s1 (tdmIn n f s) := by
  intro s1 p
  obtain ⟨d, hd⟩ : ∃ d, d = nextDelay s1 n false p.rxDelay (rxGain s1 p f) := ⟨_, rfl⟩
  obtain ⟨s2, h2⟩ : ∃ s2, s2 = withTdm n (fun q => { q with rxStart := some (devOf s1 f.start : Int), rxDelay := delayAfter d }) s1 := ⟨_, rfl⟩
  have made : tdmIn n f s =
      if p.failed then
        crossIn n (List.replicate (slotCount s n) (idleByte s n)) (withTdm n (fun q => { q with rxSlots := List.replicate (slotCount s n) (idleByte s n) }) s2)
      else match slipKind d with
        | some true => slip n false true s2
        | some false => crossIn n (padTo (slotCount s n) f.slots) (withTdm n (fun q => { q with rxSlots := padTo (slotCount s n) f.slots })
            (crossIn n p.rxSlots (slip n false false s2)))
        | none => crossIn n (padTo (slotCount s n) f.slots) (withTdm n (fun q => { q with rxSlots := padTo (slotCount s n) f.slots }) s2) := by
    rw [h2, hd]
    rfl
  have port : tdmPort s2 n = { p with rxStart := some (devOf s1 f.start : Int), rxDelay := delayAfter d } := by
    rw [h2, tdmPort_withTdm_same]
  have other (m : Nat) (ne : m ≠ n) : tdmPort s2 m = tdmPort s1 m := h2 ▸ tdmPort_withTdm_other _ _ ne
  have frame : s2 = { s1 with tdm := s2.tdm } := by rw [h2]; rfl
  rw [← hd]
  obtain ⟨t, ht⟩ : ∃ t, t = tdmIn n f s := ⟨_, rfl⟩
  rw [← ht] at made ⊢
  by_cases failed : p.failed = true
  · rw [if_pos failed] at made
    obtain ⟨same, others, q⟩ := presented_spec n (List.replicate (slotCount s n) (idleByte s n)) s2
    rw [← made] at same others q
    rw [port] at q
    refine ⟨?_, fun m ne => (others m ne).trans (other m ne), by rw [q]; exact ⟨rfl, rfl, rfl⟩, by rw [q], fun _ => ?_, fun no => ?_, fun no => ?_⟩
    · rw [same, frame]
    · rw [q, if_pos failed]
      exact ⟨rfl, rfl⟩
    · exact absurd failed (Bool.eq_false_iff.mp no)
    · exact absurd failed (Bool.eq_false_iff.mp no)
  · rw [if_neg failed] at made
    cases kind : slipKind d with
    | none =>
      rw [kind] at made
      dsimp only at made
      obtain ⟨same, others, q⟩ := presented_spec n (padTo (slotCount s n) f.slots) s2
      rw [← made] at same others q
      rw [port] at q
      refine ⟨?_, fun m ne => (others m ne).trans (other m ne), by rw [q]; exact ⟨rfl, rfl, rfl⟩, by rw [q], fun _ => ?_, fun _ no => ?_, fun _ no => ?_⟩
      · rw [same, frame]
      · rw [q, if_neg failed]
        exact ⟨rfl, rfl⟩
      · rw [kind] at no
        cases no
      · rw [kind] at no
        cases no
    | some del =>
      rw [kind] at made
      have slips : (tdmPort s1 n).failed = true ∨ slipKind d = none → False := by
        rintro (bad | bad)
        · exact failed bad
        · rw [kind] at bad
          cases bad
      cases del with
      | true =>
        dsimp only at made
        obtain ⟨same, others, q, noticed⟩ := slip_spec n false true s2
        rw [← made] at same others q noticed
        rw [port] at q
        refine ⟨?_, fun m ne => (others m ne).trans (other m ne), by rw [q]; exact ⟨rfl, rfl, rfl⟩, by rw [q], fun bad => (slips bad).elim,
          fun _ _ => ?_, fun _ no => ?_⟩
        · rw [same, frame]
        · refine ⟨by rw [q], by rw [q], ?_, noticed⟩
          rw [q, h2]
          rfl
        · rw [kind] at no
          cases no
      | false =>
        dsimp only at made
        obtain ⟨v, hv⟩ : ∃ v, v = slip n false false s2 := ⟨_, rfl⟩
        obtain ⟨same, others, q, noticed⟩ := slip_spec n false false s2
        rw [← hv] at same others q noticed made
        rw [port] at q
        have again := crossIn_spec n p.rxSlots v
        obtain ⟨w, hw⟩ : ∃ w, w = crossIn n p.rxSlots v := ⟨_, rfl⟩
        rw [← hw] at again made
        obtain ⟨same2, others2, q2⟩ := presented_spec n (padTo (slotCount s n) f.slots) w
        rw [← made] at same2 others2 q2
        have now_ : now s2 = now s1 := by rw [h2]; rfl
        have held := again.port
        rw [q] at held
        rw [held] at q2
        refine ⟨?_, fun m ne => (others2 m ne).trans ((again.others m ne).trans ((others m ne).trans (other m ne))),
          by rw [q2]; exact ⟨rfl, rfl, rfl⟩, by rw [q2], fun bad => (slips bad).elim, fun _ no => ?_, fun _ _ => ?_⟩
        · rw [same2, again.frame, same, frame]
        · rw [kind] at no
          cases no
        · refine ⟨by rw [q2], by rw [q2], by rw [q2, now_], ?_⟩
          rw [same2, again.frame]
          exact noticed

end Sys2Proof.Machine
end

section
/-! OBLIGATION. TDM ports (O39): transmitted frames. -/

namespace Sys2Proof.Machine

open Sys2Proof

set_option Elab.async false

/-! ### A frame on the line (R352, R353, R355) -/

/-- What a frame sent leaves of its port. -/
structure Sent (n : Nat) (pay : List (Option Byte)) (s t : State) : Prop where
  frame : t = { s with tdm := t.tdm }
  others : ∀ m, m ≠ n → tdmPort t m = tdmPort s m
  port : ∃ a b, tdmPort t n = { tdmPort s n with
    txAbcd := a, txAbcdNext := b, txOut := (tdmPort t n).txOut, txBit := (tdmPort t n).txBit, tx := (tdmPort t n).tx }
  slots : (tdmPort t n).txOut.length = pay.length
  mirror : s.twin.role = 1 → ∀ b, b ∈ (tdmPort t n).txOut → b = none
  ais : s.twin.role ≠ 1 → framed s n = true → flag s .tdmFramerCfg n 12 = true → ∀ b, b ∈ (tdmPort t n).txOut → b = some 0xFF
  place : framed s n = true → (tdmPort t n).tx.place = ((tdmPort s n).tx.place + 1) % mfLen s n
  word : isE1 s n = true → s.twin.role ≠ 1 → flag s .tdmFramerCfg n 12 = false → pay ≠ [] →
    (tdmPort t n).txOut.head? = some (some (e1Ts0 s n (tdmPort s n).tx.place))
  bit : isT1 s n = true → s.twin.role ≠ 1 → flag s .tdmFramerCfg n 12 = false → t1Esf s n = false →
    (tdmPort t n).txBit = some (d4Bits.getD (tdmPort s n).tx.place false)

/-- A port as a multiframe begins: the signalling set since the last one goes out in it (R356). -/
def TdmPort.newMultiframe (p : TdmPort) : TdmPort :=
  { p with txAbcd := p.txAbcdNext.foldl (fun m e => FMap.set m e.1 e.2) p.txAbcd, txAbcdNext := [] }

/-- The first octet of an E1 frame does not turn on the signalling of its port. -/
theorem e1Ts0_newMultiframe (n k : Nat) (s : State) : e1Ts0 (withTdm n TdmPort.newMultiframe s) n k = e1Ts0 s n k := by
  have bit1 : e1Bit1 (withTdm n TdmPort.newMultiframe s) n k = e1Bit1 s n k := by
    unfold e1Bit1
    rw [tdmPort_withTdm_same]
    rfl
  have alarm : raiSent (withTdm n TdmPort.newMultiframe s) n = raiSent s n := by
    unfold raiSent
    rw [tdmPort_withTdm_same]
    rfl
  unfold e1Ts0
  rw [bit1, alarm]
  rfl

theorem length_onLine (s : State) (n k : Nat) (pay : List (Option Byte)) : (onLine s n k pay).length = pay.length := by
  unfold onLine
  rw [List.length_map, List.length_zipIdx]

theorem head?_onLine {s : State} {n k : Nat} {pay : List (Option Byte)} (e1 : isE1 s n = true) (some_ : pay ≠ []) :
    (onLine s n k pay).head? = some (some (e1Ts0 s n k)) := by
  obtain ⟨x, r, rfl⟩ := List.exists_cons_of_ne_nil some_
  unfold onLine
  rw [List.zipIdx_cons, List.map_cons, List.head?_cons, e1]
  rfl

theorem sendLine_spec (n : Nat) (pay : List (Option Byte)) (s : State) : Sent n pay s (sendLine n pay s) := by
  obtain ⟨u, hu⟩ : ∃ u, u = if (tdmPort s n).tx.place = 0 then withTdm n TdmPort.newMultiframe s else s := ⟨_, rfl⟩
  obtain ⟨a, b, port, others, frame, words⟩ : ∃ a b, tdmPort u n = { tdmPort s n with txAbcd := a, txAbcdNext := b } ∧
      (∀ m, m ≠ n → tdmPort u m = tdmPort s m) ∧ u = { s with tdm := u.tdm } ∧ ∀ k, e1Ts0 u n k = e1Ts0 s n k := by
    rw [hu]
    split
    · exact ⟨(tdmPort s n).newMultiframe.txAbcd, [], tdmPort_withTdm_same n TdmPort.newMultiframe s,
        fun m ne => tdmPort_withTdm_other _ _ ne, rfl, fun k => e1Ts0_newMultiframe n k s⟩
    · exact ⟨(tdmPort s n).txAbcd, (tdmPort s n).txAbcdNext, rfl, fun _ _ => rfl, rfl, fun _ => rfl⟩
  obtain ⟨l, hl⟩ : ∃ l, l = onLine u n (tdmPort s n).tx.place pay := ⟨_, rfl⟩
  have made : sendLine n pay s = withTdm n (fun p => { p with
      txOut := if u.twin.role = 1 then l.map (fun _ => none) else if framed u n && flag u .tdmFramerCfg n 12 then l.map (fun _ => some 0xFF) else l
      txBit := if u.twin.role = 1 || !isT1 u n then none else some ((framed u n && flag u .tdmFramerCfg n 12) || t1Bit u n (tdmPort s n).tx.place)
      tx := if framed u n then txFramed u n l else p.tx }) u := by
    rw [hl, hu]
    unfold sendLine TdmPort.newMultiframe
    dsimp only
  have after := (congrArg (tdmPort · n) made).trans (tdmPort_withTdm_same ..)
  rw [port] at after
  have role : u.twin.role = s.twin.role := by rw [frame]
  have e1 : isE1 u n = isE1 s n := by rw [frame]; rfl
  have t1 : isT1 u n = isT1 s n := by rw [frame]; rfl
  have esf : t1Esf u n = t1Esf s n := by rw [frame]; rfl
  have fr : framed u n = framed s n := by rw [frame]; rfl
  have fl : flag u .tdmFramerCfg n 12 = flag s .tdmFramerCfg n 12 := by rw [frame]; rfl
  have len : l.length = pay.length := hl ▸ length_onLine ..
  rw [role, fr, fl, t1] at after
  refine ⟨?_, fun m ne => ?_, ⟨a, b, ?_⟩, ?_, fun mirror c => ?_, fun active framed_ all c => ?_, fun framed_ => ?_, fun is active plain some_ => ?_,
    fun is active plain d4 => ?_⟩
  · rw [made, frame]
    rfl
  · rw [made, tdmPort_withTdm_other _ _ ne, others m ne]
  · rw [after]
  · rw [after]
    dsimp only
    split
    · rw [List.length_map, len]
    · split
      · rw [List.length_map, len]
      · exact len
  · rw [after, if_pos mirror]
    intro in_
    obtain ⟨-, -, is⟩ := List.mem_map.mp in_
    exact is.symm
  · rw [after, if_neg active, framed_, all]
    intro in_
    obtain ⟨-, -, is⟩ := List.mem_map.mp in_
    exact is.symm
  · rw [after, framed_, if_pos rfl]
    unfold txFramed mfLen
    dsimp only
    rw [port, e1, esf]
  · rw [after, if_neg active, plain, Bool.and_false, hl]
    refine (head?_onLine (e1.trans is) some_).trans ?_
    rw [words]
  · rw [after, is, plain, Bool.and_false, Bool.false_or]
    dsimp only
    rw [if_neg (by simp [active])]
    unfold t1Bit
    dsimp only
    rw [esf, d4]
    rfl

/-! ### A transmit frame (R348, R350) -/

/-- What a transmit frame leaves of its port. -/
structure TxOutcome (n : Nat) (d : Int) (s t : State) : Prop where
  frame : t = { s with tdm := t.tdm, tps := t.tps, hif := t.hif, counters := t.counters }
  others : ∀ m, m ≠ n → tdmPort t m = tdmPort s m
  tones : t.tps = FMap.mapV s.tps (fun _ x => if x.sinksOn n = true then { x with sinkPhase := (sinkFrame x).2 } else x)
  kept : (tdmPort t n).txFifo = FMap.mapV (tdmPort s n).txFifo (fun _ x => x.drop 1) ∧ (tdmPort t n).rxSlots = (tdmPort s n).rxSlots ∧
    (tdmPort t n).rxFifo = (tdmPort s n).rxFifo ∧ (tdmPort t n).rx = (tdmPort s n).rx ∧ (tdmPort t n).txDelay = delayAfter d
  sent : slipKind d ≠ some true → ∃ pay u, pay.length = slotCount s n ∧ Sent n pay u t ∧ u.twin = s.twin ∧ u.regs = s.regs ∧
    (slipKind d = none → tdmPort u n = { tdmPort s n with
      txFifo := (tdmPort u n).txFifo, txPay := (tdmPort u n).txPay, txDelay := (tdmPort u n).txDelay })
  deleted : slipKind d = some true → (tdmPort t n).txOut = (tdmPort s n).txOut ∧ (tdmPort t n).tx = (tdmPort s n).tx
  noticed : slipKind d ≠ none → (notice? t Ev.tdmSlip n).isSome = true

theorem tdmOut_spec (n : Nat) (drift : Int) (s : State) :
    TxOutcome n (nextDelay s n true (tdmPort s n).txDelay drift) s (tdmOut n drift s) := by
  obtain ⟨d, hd⟩ : ∃ d, d = nextDelay s n true (tdmPort s n).txDelay drift := ⟨_, rfl⟩
  obtain ⟨pay, hp⟩ : ∃ pay, pay = ((List.range (slotCount s n)).map (slotOut s n)).map (·.1) := ⟨_, rfl⟩
  obtain ⟨v, hv⟩ : ∃ v, v = slipLive n (bumpN .portUnderrun n 0 (((List.range (slotCount s n)).map (slotOut s n)).filter (·.2)).length s) := ⟨_, rfl⟩
  obtain ⟨s2, h2⟩ : ∃ s2, s2 = withTdm n (fun q => { q with
      txFifo := FMap.mapV q.txFifo (fun _ x => x.drop 1), txPay := pay, txDelay := delayAfter d }) (tonesSent n v) := ⟨_, rfl⟩
  have made : tdmOut n drift s = match slipKind d with
      | some true => slip n true true s2
      | some false => sendLine n pay (sendLine n (tdmPort s n).txPay (slip n true false s2))
      | none => sendLine n pay s2 := by
    rw [h2, hv, hp, hd]
    rfl
  have len : pay.length = slotCount s n := by rw [hp, List.length_map, List.length_map, List.length_range]
  have only : HifOnly s v := hv ▸ (bumpN_hifOnly ..).trans (slipLive_hifOnly ..)
  have before (m : Nat) : tdmPort (tonesSent n v) m = tdmPort s m := only.field (tdmPort · m)
  have port : tdmPort s2 n = { tdmPort s n with
      txFifo := FMap.mapV (tdmPort s n).txFifo (fun _ x => x.drop 1), txPay := pay, txDelay := delayAfter d } := by
    rw [h2, tdmPort_withTdm_same, before]
  have other (m : Nat) (ne : m ≠ n) : tdmPort s2 m = tdmPort s m := by
    rw [h2, tdmPort_withTdm_other _ _ ne, before]
  have tones : s2.tps = FMap.mapV s.tps (fun _ x => if x.sinksOn n = true then { x with sinkPhase := (sinkFrame x).2 } else x) := by
    rw [h2, ← only.field (·.tps)]
    rfl
  have frame : s2 = { s with tdm := s2.tdm, tps := s2.tps, hif := s2.hif, counters := s2.counters } := by
    rw [h2, only.eq]
    rfl
  have twin : s2.twin = s.twin := by rw [frame]
  have regs : s2.regs = s.regs := by rw [frame]
  rw [← hd]
  obtain ⟨t, ht⟩ : ∃ t, t = tdmOut n drift s := ⟨_, rfl⟩
  rw [← ht] at made ⊢
  cases kind : slipKind d with
  | none =>
    rw [kind] at made
    dsimp only at made
    have out : Sent n pay s2 t := made ▸ sendLine_spec ..
    obtain ⟨a, b, q⟩ := out.port
    have eq := out.frame
    refine ⟨?_, fun m ne => (out.others m ne).trans (other m ne), ?_, ?_, fun _ => ⟨pay, s2, len, out, twin, regs, fun _ => ?_⟩, fun no => ?_, fun no => ?_⟩
    · rw [eq, frame]
    · rw [eq, tones]
    · rw [q, port]
      exact ⟨rfl, rfl, rfl, rfl, rfl⟩
    · rw [port]
    · rw [kind] at no
      cases no
    · exact absurd kind no
  | some del =>
    rw [kind] at made
    cases del with
    | true =>
      dsimp only at made
      obtain ⟨eq, others, q, noticed⟩ := slip_spec n true true s2
      rw [← made] at eq others q noticed
      rw [port] at q
      refine ⟨?_, fun m ne => (others m ne).trans (other m ne), ?_, ?_, fun no => absurd kind no, fun _ => ?_, fun _ => noticed⟩
      · rw [eq, frame]
      · rw [eq, tones]
      · rw [q]
        exact ⟨rfl, rfl, rfl, rfl, rfl⟩
      · rw [q]
        exact ⟨rfl, rfl⟩
    | false =>
      dsimp only at made
      obtain ⟨w, hw⟩ : ∃ w, w = slip n true false s2 := ⟨_, rfl⟩
      obtain ⟨eq, others, q, noticed⟩ := slip_spec n true false s2
      rw [← hw] at eq others q noticed made
      rw [port] at q
      obtain ⟨x, hx⟩ : ∃ x, x = sendLine n (tdmPort s n).txPay w := ⟨_, rfl⟩
      have first : Sent n (tdmPort s n).txPay w x := hx ▸ sendLine_spec ..
      rw [← hx] at made
      have out : Sent n pay x t := made ▸ sendLine_spec ..
      obtain ⟨a, b, q1⟩ := first.port
      obtain ⟨c, e, q2⟩ := out.port
      rw [q] at q1
      rw [q1] at q2
      have eq1 := first.frame
      have eq2 := out.frame
      refine ⟨?_, fun m ne => (out.others m ne).trans ((first.others m ne).trans ((others m ne).trans (other m ne))), ?_, ?_,
        fun _ => ⟨pay, x, len, out, ?_, ?_, fun no => ?_⟩, fun no => ?_, fun _ => ?_⟩
      · rw [eq2, eq1, eq, frame]
      · rw [eq2, eq1, eq, tones]
      · rw [q2]
        exact ⟨rfl, rfl, rfl, rfl, rfl⟩
      · rw [eq1, eq, twin]
      · rw [eq1, eq, regs]
      · rw [kind] at no
        cases no
      · rw [kind] at no
        cases no
      · rw [eq2, eq1]
        exact noticed

end Sys2Proof.Machine
end

section
/-! OBLIGATION. TDM ports (O39). -/

namespace Sys2Proof.Machine

open Sys2Proof

set_option Elab.async false

/-! ### The delay of a slip buffer (R350) -/

theorem slipKind_of_within {d : Int} (low : 15625 ≤ d) (high : d ≤ 234375) : slipKind d = none := by
  rw [slipKind, if_neg (by omega), if_neg (by omega)]

theorem slipKind_of_above {d : Int} (high : 234375 < d) : slipKind d = some true := if_pos high

theorem slipKind_of_below {d : Int} (low : d < 15625) : slipKind d = some false := by
  rw [slipKind, if_neg (by omega), if_pos low]

theorem slipKind_ne_delete {d : Int} (high : d ≤ 234375) : slipKind d ≠ some true := by
  rw [slipKind, if_neg (by omega)]
  split
  · decide
  · decide

theorem nextDelay_idle {s : State} {n : Nat} {tx : Bool} (old gain : Int) (idle : slipBuffer s n tx = false ∨ (tdmPort s n).failed = true) :
    nextDelay s n tx old gain = 125000 := by
  refine if_neg (fun both => ?_)
  rw [Bool.and_eq_true, Bool.not_eq_true'] at both
  rcases idle with no | bad
  · rw [no] at both
    exact absurd both.1 (by decide)
  · rw [bad] at both
    exact absurd both.2 (by decide)

theorem nextDelay_used {s : State} {n : Nat} {tx : Bool} (old gain : Int) (used : slipBuffer s n tx = true)
    (well : (tdmPort s n).failed = false) : nextDelay s n tx old gain = old + gain := by
  rw [nextDelay, used, well]
  rfl

/-- The word of an E1 frame with FAS. -/
theorem e1Ts0_fas {s : State} {n k : Nat} (even : k % 2 = 0) : (e1Ts0 s n k).toNat % 128 = 0x1B := by
  unfold e1Ts0
  rw [if_pos even]
  cases e1Bit1 s n k <;> rfl

/-- What reads only the registers reads the same where they are the same. -/
theorem regs_field {α : Type} {s t : State} (same : t.regs = s.regs) (g : State → α)
    (only : ∀ (w y : State) x, g { w with regs := x } = g { y with regs := x } := by intros; rfl) : g t = g s :=
  (only t s t.regs).trans (by rw [same])

/-! ### The three steps -/

/-- A received frame. -/
theorem rxFrame_spec (n : Nat) (f : TdmFrame) (s : State) :
    let u := tdmIn n f s
    let p := tdmPort s n
    let q := tdmPort u n
    let whole := padTo (slotCount s n) f.slots
    let d := p.rxDelay + rxGain s p f
    let inUse : Prop := q.failed = false ∧ slipBuffer s n false = true
    Agree sansLine s u ∧ (∀ m, m ≠ n → tdmPort u m = tdmPort s m) ∧
    (q.failed = true → q.rxSlots = List.replicate (slotCount s n) (idleByte s n) ∧ q.rxDelay = 125000) ∧
    (q.failed = false → slipBuffer s n false = false → q.rxSlots = whole ∧ q.rxDelay = 125000) ∧
    (q.failed = true ∨ slipBuffer s n false = false ∨ 15625 ≤ d ∧ d ≤ 234375 →
      q.rxFifo = if 4 ≤ p.rxFifo.length then p.rxFifo else p.rxFifo ++ [q.rxSlots]) ∧
    (inUse → 15625 ≤ d ∧ d ≤ 234375 → q.rxSlots = whole ∧ q.rxDelay = d) ∧
    (inUse → 234375 < d → q.rxSlots = p.rxSlots ∧ q.rxFifo = p.rxFifo ∧ q.rxDelay = d - 125000 ∧ q.slipAt = some (now s) ∧
      (notice? u Ev.tdmSlip n).isSome = true) ∧
    (inUse → d < 15625 → q.rxSlots = whole ∧ q.rxDelay = d + 125000 ∧ q.slipAt = some (now s) ∧
      (notice? u Ev.tdmSlip n).isSome = true ∧ (p.rxFifo.length < 3 → q.rxFifo = p.rxFifo ++ [p.rxSlots, whole])) ∧
    (isE1 s n = true → p.lof = false → p.rx.fas = some true → byteAt f.slots 0 % 128 ≠ 0x1B → p.rx.errs.take 2 = [true, true] →
      q.lof = true) ∧
    (isE1 s n = true → p.failed = false → p.rx.fas = some false → q.failed = false → q.saRx = byteAt f.slots 0 % 32) := by
  intro u p q whole d inUse
  obtain ⟨x, framer, lost, sa⟩ := framerIn_spec n f s
  obtain ⟨s1, h1⟩ : ∃ s1, s1 = slipLive n (framerIn n f s) := ⟨_, rfl⟩
  have live : HifOnly (framerIn n f s) s1 := h1 ▸ slipLive_hifOnly ..
  have reach : TdmReach n (withTdm n (.withSa x) s) s1 := framer.trans (live.tdmReach n)
  have agree : Agree sansLine s s1 := (show Agree sansLine s (withTdm n (.withSa x) s) from rfl).trans reach.frame
  have out := tdmIn_spec n f s
  rw [← h1] at out
  dsimp only at out
  have core := reach.core
  rw [tdmPort_withTdm_same] at core
  have rxDelay : (tdmPort s1 n).rxDelay = p.rxDelay := (congrArg TdmPort.rxDelay core :)
  have rxStart : (tdmPort s1 n).rxStart = p.rxStart := (congrArg TdmPort.rxStart core :)
  have rxFifo : (tdmPort s1 n).rxFifo = p.rxFifo := (congrArg TdmPort.rxFifo core :)
  have rxSlots : (tdmPort s1 n).rxSlots = p.rxSlots := (congrArg TdmPort.rxSlots core :)
  have saRx : (tdmPort s1 n).saRx = x := (congrArg TdmPort.saRx core :)
  have gain : rxGain s1 (tdmPort s1 n) f = rxGain s p f := by
    unfold rxGain
    rw [rxStart]
    exact congrArg (fun o => match p.rxStart with
      | some a => Int.emod (frameNs - ((o : Int) - a) + frameNs / 2) frameNs - frameNs / 2
      | none => 0) (agree.field (fun v => devOf v f.start))
  have buffer : slipBuffer s1 n false = slipBuffer s n false := agree.field (slipBuffer · n false)
  have time : now s1 = now s := agree.field now
  obtain ⟨failed, lof, sa1⟩ := out.alarms
  have idle (no : slipBuffer s n false = false ∨ q.failed = true) : nextDelay s1 n false (tdmPort s1 n).rxDelay (rxGain s1 (tdmPort s1 n) f) = 125000 :=
    nextDelay_idle _ _ (no.imp buffer.trans failed.symm.trans)
  have used (is : inUse) : nextDelay s1 n false (tdmPort s1 n).rxDelay (rxGain s1 (tdmPort s1 n) f) = d := by
    rw [nextDelay_used _ _ (buffer.trans is.2) (failed.symm.trans is.1), rxDelay, gain]
  have plain (no : q.failed = true ∨ slipBuffer s n false = false ∨ 15625 ≤ d ∧ d ≤ 234375) :
      q.rxSlots = (if q.failed then List.replicate (slotCount s n) (idleByte s n) else whole) ∧ q.rxFifo = crossed4 p.rxFifo q.rxSlots := by
    have held := out.plain
    rw [← failed, rxFifo] at held
    refine held ?_
    by_cases bad : q.failed = true
    · exact .inl bad
    · refine .inr ?_
      by_cases used_ : slipBuffer s n false = true
      · rw [used ⟨Bool.eq_false_iff.mpr bad, used_⟩]
        obtain ⟨low, high⟩ := (no.resolve_left bad).resolve_left (by simp [used_])
        exact slipKind_of_within low high
      · rw [idle (.inl (Bool.eq_false_iff.mpr used_))]
        rfl
  have frame : Agree sansLine s1 u := by
    have eq : u = { s1 with tdm := u.tdm, hif := u.hif, counters := u.counters } := out.frame
    unfold Agree
    rw [eq]
    rfl
  refine ⟨agree.trans frame, fun m ne => (out.others m ne).trans ((reach.others m ne).trans (tdmPort_withTdm_other _ _ ne)),
    fun bad => ⟨?_, ?_⟩, fun well unused => ⟨?_, ?_⟩, fun no => (plain no).2, fun is within => ⟨?_, ?_⟩, fun is above => ?_, fun is below => ?_,
    fun e1 aligned word bad two => ?_, fun e1 well word _ => ?_⟩
  · rw [(plain (.inl bad)).1, if_pos bad]
  · exact out.delay.trans (by rw [idle (.inr bad)]; rfl)
  · rw [(plain (.inr (.inl unused))).1, if_neg (by simp [well])]
  · exact out.delay.trans (by rw [idle (.inl unused)]; rfl)
  · rw [(plain (.inr (.inr within))).1, if_neg (by simp [is.1])]
  · refine out.delay.trans ?_
    rw [used is, delayAfter, slipKind_of_within within.1 within.2]
  · obtain ⟨slots, fifo, at_, noticed⟩ := out.deleted (failed.symm.trans is.1) (by rw [used is]; exact slipKind_of_above above)
    refine ⟨slots.trans rxSlots, fifo.trans rxFifo, out.delay.trans ?_, at_.trans (by rw [time]), noticed⟩
    rw [used is, delayAfter, slipKind_of_above above]
    rfl
  · obtain ⟨slots, fifo, at_, noticed⟩ := out.repeated (failed.symm.trans is.1) (by rw [used is]; exact slipKind_of_below below)
    refine ⟨slots, out.delay.trans ?_, at_.trans (by rw [time]), noticed, fun room => fifo.trans ?_⟩
    · rw [used is, delayAfter, slipKind_of_below below]
      rfl
    · have first : crossed4 p.rxFifo p.rxSlots = p.rxFifo ++ [p.rxSlots] := if_neg (by omega)
      rw [rxFifo, rxSlots, first, crossed4, if_neg (by rw [List.length_append, List.length_singleton]; omega), List.append_assoc]
      rfl
  · exact lof.trans ((congrArg TdmPort.lof (live.field (tdmPort · n))).trans (lost e1 aligned word bad two))
  · exact sa1.trans (saRx.trans (sa e1 well word))

/-- A transmit frame. -/
theorem txFrame_spec (n : Nat) (drift : Int) (s : State) :
    let u := tdmOut n drift s
    let p := tdmPort s n
    let q := tdmPort u n
    let d := p.txDelay + drift
    let sent : Prop := slipBuffer s n true = false ∨ p.failed = true ∨ d ≤ 234375
    u = { s with tdm := u.tdm, tps := u.tps, hif := u.hif, counters := u.counters } ∧ (∀ m, m ≠ n → tdmPort u m = tdmPort s m) ∧
    u.tps = FMap.mapV s.tps (fun _ x => if x.sinksOn n = true then { x with sinkPhase := (sinkFrame x).2 } else x) ∧
    q.txFifo = FMap.mapV p.txFifo (fun _ x => x.drop 1) ∧ q.rxSlots = p.rxSlots ∧ q.rxFifo = p.rxFifo ∧ q.rx = p.rx ∧
    (sent → q.txOut.length = slotCount s n ∧
      (s.twin.role = 1 → ∀ b, b ∈ q.txOut → b = none) ∧
      (s.twin.role ≠ 1 → framed s n = true → flag s .tdmFramerCfg n 12 = true → ∀ b, b ∈ q.txOut → b = some 0xFF)) ∧
    (slipBuffer s n true = false ∨ p.failed = true ∨ 15625 ≤ d ∧ d ≤ 234375 →
      (framed s n = true → q.tx.place = (p.tx.place + 1) % mfLen s n) ∧
      (isE1 s n = true → s.twin.role ≠ 1 → flag s .tdmFramerCfg n 12 = false →
        q.txOut.head? = some (some (e1Ts0 s n p.tx.place)) ∧
        (p.tx.place % 2 = 0 → (e1Ts0 s n p.tx.place).toNat % 128 = 0x1B)) ∧
      (isT1 s n = true → s.twin.role ≠ 1 → flag s .tdmFramerCfg n 12 = false → t1Esf s n = false →
        q.txBit = some ([true, false, false, false, true, true, false, true, true, true, false, false].getD p.tx.place false))) ∧
    (slipBuffer s n true = true → p.failed = false → 234375 < d →
      q.txOut = p.txOut ∧ q.tx = p.tx ∧ q.txDelay = d - 125000 ∧ (notice? u Ev.tdmSlip n).isSome = true) ∧
    (slipBuffer s n true = true → p.failed = false → d < 15625 →
      q.txDelay = d + 125000 ∧ (notice? u Ev.tdmSlip n).isSome = true) := by
  intro u p q d sent
  have out := tdmOut_spec n drift s
  obtain ⟨fifo, slots, rxFifo, rx, delay⟩ := out.kept
  have unslipped (no : slipBuffer s n true = false ∨ p.failed = true ∨ 15625 ≤ d ∧ d ≤ 234375) :
      slipKind (nextDelay s n true p.txDelay drift) = none := by
    rcases no with no | bad | ⟨low, high⟩
    · rw [nextDelay_idle _ _ (.inl no)]
      rfl
    · rw [nextDelay_idle _ _ (.inr bad)]
      rfl
    · by_cases idle : slipBuffer s n true = false ∨ p.failed = true
      · rw [nextDelay_idle _ _ idle]
        rfl
      · rw [not_or, Bool.not_eq_false, Bool.not_eq_true] at idle
        rw [nextDelay_used _ _ idle.1 idle.2]
        exact slipKind_of_within low high
  refine ⟨out.frame, out.others, out.tones, fifo, slots, rxFifo, rx, fun is => ?_, fun no => ?_, fun used well above => ?_, fun used well below => ?_⟩
  · have goes : slipKind (nextDelay s n true p.txDelay drift) ≠ some true := by
      by_cases idle : slipBuffer s n true = false ∨ p.failed = true
      · rw [nextDelay_idle _ _ idle]
        decide
      · have high := is.resolve_left (fun no => idle (.inl no)) |>.resolve_left (fun bad => idle (.inr bad))
        rw [not_or, Bool.not_eq_false, Bool.not_eq_true] at idle
        rw [nextDelay_used _ _ idle.1 idle.2]
        exact slipKind_ne_delete high
    obtain ⟨pay, v, len, line, twin, regs, -⟩ := out.sent goes
    have fr : framed v n = framed s n := regs_field regs (framed · n)
    have fl : flag v .tdmFramerCfg n 12 = flag s .tdmFramerCfg n 12 := regs_field regs (flag · .tdmFramerCfg n 12)
    have mirror := line.mirror
    have ais := line.ais
    rw [twin] at mirror ais
    rw [fr, fl] at ais
    exact ⟨line.slots.trans len, mirror, ais⟩
  · have none_ := unslipped no
    obtain ⟨pay, v, len, line, twin, regs, port⟩ := out.sent (by rw [none_]; decide)
    have e1 : isE1 v n = isE1 s n := regs_field regs (isE1 · n)
    have t1 : isT1 v n = isT1 s n := regs_field regs (isT1 · n)
    have fr : framed v n = framed s n := regs_field regs (framed · n)
    have reg (k : Nat) : flag v .tdmFramerCfg n k = flag s .tdmFramerCfg n k := regs_field regs (flag · .tdmFramerCfg n k)
    have esf : t1Esf v n = t1Esf s n := regs_field regs (t1Esf · n)
    have tx : (tdmPort v n).tx = p.tx := by rw [port none_]
    have len' : mfLen v n = mfLen s n := by rw [mfLen, e1, esf, ← mfLen]
    have sub (h l : Nat) : fld v .tdmFramerCfg n h l = fld s .tdmFramerCfg n h l := regs_field regs (fld · .tdmFramerCfg n h l)
    have alarm : raiSent v n = raiSent s n := by rw [raiSent, reg, port none_, raiSent]; rfl
    have bit1 : e1Bit1 v n p.tx.place = e1Bit1 s n p.tx.place := by
      unfold e1Bit1
      rw [sub, port none_]
      rfl
    have word : e1Ts0 v n p.tx.place = e1Ts0 s n p.tx.place := by
      unfold e1Ts0
      rw [bit1, alarm, sub]
    have place := line.place
    have first := line.word
    have bit := line.bit
    rw [fr, tx, len'] at place
    rw [e1, twin, reg, tx, word] at first
    rw [t1, twin, reg, esf, tx] at bit
    refine ⟨place, fun is active plain => ⟨first is active plain ?_, fun even => e1Ts0_fas even⟩, bit⟩
    intro empty
    have two : tdmMode s n = 2 := of_decide_eq_true is
    rw [empty, slotCount, two] at len
    cases len
  · have kind := slipKind_of_above above
    have d' := nextDelay_used p.txDelay drift used well
    obtain ⟨outs, tx⟩ := out.deleted (by rw [d']; exact kind)
    refine ⟨outs, tx, delay.trans ?_, out.noticed (by rw [d', kind]; decide)⟩
    rw [d', delayAfter, kind]
    rfl
  · have kind := slipKind_of_below below
    have d' := nextDelay_used p.txDelay drift used well
    refine ⟨delay.trans ?_, out.noticed (by rw [d', kind]; decide)⟩
    rw [d', delayAfter, kind]
    rfl

/-- Settles O39: a received frame by its framer and its slip buffer, a transmit frame by the line, an alarm by its change. -/
theorem tdmPorts : Obligations.TdmPorts := by
  unfold Obligations.TdmPorts
  refine ⟨fun h s n slot abcd ready ok => answers_done (i := .tdmCasSet h n slot abcd) rfl ready (checked_of_ok _ _ ok),
    fun s n up => ?_⟩
  intro only p
  refine ⟨fun f small runs => ?rx, fun drift small runs => ?tx, fun a v t small fr carried => ⟨fun same => ?same, fun ne => ?alarm⟩,
    fun small e1 auto_ aligned => ?crc4⟩
  case rx =>
    obtain ⟨agree, others, rest⟩ := rxFrame_spec n f s
    refine ⟨tdmIn n f s, ?_, ?_, others, rest⟩
    · change Host.Outcome.next (onlyIf (alive s && n < 192 && tdmMode s n ≠ 0) _ _) = _
      rw [up, decide_eq_true small, decide_eq_true runs]
      rfl
    · exact agree.frame (fun v => { v with
        tdm := (tdmIn n f s).tdm, hif := (tdmIn n f s).hif, counters := (tdmIn n f s).counters, figs := (tdmIn n f s).figs
        clk := (tdmIn n f s).clk, free := (tdmIn n f s).free })
  case tx =>
    refine ⟨tdmOut n drift s, ?_, txFrame_spec n drift s⟩
    change Host.Outcome.next (onlyIf (alive s && n < 192 && tdmMode s n ≠ 0) _ _) = _
    rw [up, decide_eq_true small, decide_eq_true runs]
    rfl
  case same =>
    change Host.Outcome.next (onlyIf _ (alarmChange n a v t (advance t s)) _) = _
    rw [show alarmChange n a v t (advance t s) = advance t s from if_pos same, onlyIf, ite_self]
  case alarm =>
    obtain ⟨reach, alarms, noticed⟩ := alarmChange_spec n a v t (advance t s)
    refine ⟨alarmChange n a v t (advance t s), ?_, ?_, reach.others, (alarms a).trans (if_pos rfl), fun b other => (alarms b).trans (if_neg other),
      (congrArg TdmPort.rxSlots reach.core :), noticed ne⟩
    · change Host.Outcome.next (onlyIf (alive s && n < 64 && framed s n && !(a = .lomf && isT1 s n)) _ _) = _
      have served : (!(decide (a = .lomf) && isT1 s n)) = true := by
        rcases carried with no | no
        · rw [decide_eq_false no]
          rfl
        · rw [no, Bool.and_false]
          rfl
      rw [up, decide_eq_true small, fr, served]
      rfl
    · exact reach.frame.frame (fun w => { w with
        tdm := (alarmChange n a v t (advance t s)).tdm, clk := (alarmChange n a v t (advance t s)).clk
        hif := (alarmChange n a v t (advance t s)).hif, counters := (alarmChange n a v t (advance t s)).counters
        figs := (alarmChange n a v t (advance t s)).figs, free := (alarmChange n a v t (advance t s)).free })
  case crc4 =>
    change Host.Outcome.next (onlyIf (alive s && n < 64 && isE1 s n && fld s .tdmFramerCfg n 2 1 = 2 && !(tdmPort s n).lof) _ _) = _
    rw [up, decide_eq_true small, e1, decide_eq_true auto_, aligned]
    rfl

end Sys2Proof.Machine
end

section
/-! OBLIGATION. Memories and the retained configuration (O50). -/

namespace Sys2Proof.Machine

open Sys2Proof

set_option Elab.async false

/-! ### Repair (R464) -/

/-- A repair writes a remap, or tells that none is left. -/
theorem repairRow_spec (k row a : Nat) (s : State) : ∃ m e f,
    HifOnly { s with dmc := { s.dmc with remaps := m }, endp := e, free := f } (repairRow k row a s) ∧
    (e.life.dramUe = s.endp.life.dramUe ∧ e.epoch = s.endp.epoch ∧ e.committed = s.endp.committed) ∧
    (∀ c o u, c ≠ .evtDrop → c ≠ .evtDropDevice → counter (repairRow k row a s) c o u = counter s c o u) ∧
    ((notice? s Ev.dramUe k).isSome = true → (notice? (repairRow k row a s) Ev.dramUe k).isSome = true) := by
  unfold repairRow
  dsimp only
  split
  · exact ⟨s.dmc.remaps, s.endp, s.free, .refl s, ⟨rfl, rfl, rfl⟩, fun _ _ _ _ _ => rfl, id⟩
  · split
    · exact ⟨_, _, _, .refl _, ⟨rfl, rfl, rfl⟩, fun _ _ _ _ _ => rfl, id⟩
    · refine ⟨s.dmc.remaps, s.endp, s.free, crossed_hifOnly .., ⟨rfl, rfl, rfl⟩,
        fun c o u drop device => counter_crossing s c o u drop device, fun _ => ?_⟩
      rw [dramUeNotice, notice?_crossed]
      rfl

/-- But for rows, remaps, what Endpaper and the host hold, and VPEs. -/
def sansRepair (s : State) : State :=
  { s with dmc := { s.dmc with remaps := [], ceRows := [] }, endp := Endp.reset, free := 0, vpes := [], hif := Hif.reset, counters := [] }

theorem repairRow_agree (k row a : Nat) (s : State) : Agree sansRepair s (repairRow k row a s) := by
  obtain ⟨m, e, f, only, -⟩ := repairRow_spec k row a s
  exact (show Agree sansRepair s { s with dmc := { s.dmc with remaps := m }, endp := e, free := f } from rfl).trans only.agree

/-- A corrected error of a row notes it, and may repair it. -/
theorem correctedRow_eq (s : State) (e : Nat × Nat) : ∃ rows,
    correctedRow s e = repairRow e.1 e.2 (rowAddr e.2) (withDmc (fun d => { d with ceRows := rows }) s) ∨
    correctedRow s e = withDmc (fun d => { d with ceRows := rows }) s := by
  obtain ⟨n, rows, made⟩ : ∃ n rows, correctedRow s e =
      if n = 3 then repairRow e.1 e.2 (rowAddr e.2) (withDmc (fun d => { d with ceRows := rows }) s)
      else withDmc (fun d => { d with ceRows := rows }) s := ⟨_, _, rfl⟩
  refine ⟨rows, made ▸ ?_⟩
  split
  · exact .inl rfl
  · exact .inr rfl

theorem correctedRow_agree (s : State) (e : Nat × Nat) : Agree sansRepair s (correctedRow s e) := by
  obtain ⟨rows, eq | eq⟩ := correctedRow_eq s e
  · exact eq ▸ Agree.trans (show Agree sansRepair s (withDmc (fun d => { d with ceRows := rows }) s) from rfl) (repairRow_agree ..)
  · exact eq ▸ (show Agree sansRepair s (withDmc (fun d => { d with ceRows := rows }) s) from rfl)

theorem counter_correctedRow (s : State) (e : Nat × Nat) {c : Ctr} (o : Nat) (drop : c ≠ .evtDrop) (device : c ≠ .evtDropDevice) :
    counter (correctedRow s e) c o = counter s c o := by
  obtain ⟨rows, eq | eq⟩ := correctedRow_eq s e
  · obtain ⟨-, -, -, -, -, counts, -⟩ := repairRow_spec e.1 e.2 (rowAddr e.2) (withDmc (fun d => { d with ceRows := rows }) s)
    rw [eq, counts c o 0 drop device]
    rfl
  · rw [eq]
    rfl

/-! ### Scrub passes (R463) -/

/-- But for VPEs and counters. -/
def sansVpes (s : State) : State := { s with vpes := [], counters := [] }

/-- What a bump changes. -/
theorem bump_eq (c : Ctr) (o : Nat) (s : State) : bump c o s = { s with counters := addCounter s.counters ⟨c, o, 0⟩ 1 } := rfl

theorem bump_vpes (c : Ctr) (o : Nat) (s : State) : Agree sansVpes s (bump c o s) := by
  unfold bump bumpN
  exact .ite (.refl s) rfl

theorem correctedAt_vpes (r : Nat) (s : State) (e : Nat × Nat) : Agree sansVpes s (correctedAt r s e) := by
  unfold correctedAt
  split
  · exact bump_vpes ..
  · exact bump_vpes ..
  · unfold correctedVpe
    exact .ite (.trans (bump_vpes .vpeMemCe e.1 s) rfl) (bump_vpes ..)
  · exact bump_vpes ..
  · exact bump_vpes ..

/-- What rises by one with each entry that satisfies a test rises by their number. -/
theorem foldl_counts {α : Type} {f : State → α → State} {val : State → BitVec 64} {p : α → Bool}
    (one : ∀ t e, val (f t e) = val t + BitVec.ofNat 64 (if p e then 1 else 0)) (l : List α) (s : State) :
    val (l.foldl f s) = val s + BitVec.ofNat 64 (l.countP p) := by
  induction l generalizing s with
  | nil => simp
  | cons e r ih => rw [List.foldl_cons, ih, one, List.countP_cons, BitVec.add_assoc, ← BitVec.ofNat_add, Nat.add_comm]

/-- A bump of a counter of one object. -/
theorem counter_bump_at (c : Ctr) (k o : Nat) (s : State) :
    counter (bump c k s) c o = counter s c o + BitVec.ofNat 64 (if (k == o) = true then 1 else 0) := by
  by_cases same : k = o
  · rw [same, counter_bump_same, if_pos (beq_self_eq_true o)]
    rfl
  · rw [if_neg (by simpa using same)]
    exact (counter_bumpN_other _ _ (fun eq => same (congrArg CtrKey.obj eq).symm)).trans (BitVec.add_zero _).symm

theorem counter_correctedVpe (n o : Nat) (s : State) : counter (correctedVpe n s) .vpeMemCe o =
    counter s .vpeMemCe o + BitVec.ofNat 64 (if (n == o) = true then 1 else 0) := by
  unfold correctedVpe
  dsimp only
  split
  · exact counter_bump_at ..
  · exact counter_bump_at ..

/-- A long operation with 256 others is refused as busy. -/
theorem acceptLong_of_full {opcode st total : Nat} {h : CmdHdr} {effect : Nat → State → State} {s : State} (ok : st = St.ok)
    (full : 256 ≤ s.hif.longOps.length) : acceptLong opcode h total st effect (take h.ring s) = .done St.busy [] (take h.ring s) := by
  have none_ : beginLong opcode h.tag h.ring total (take h.ring s) = none := if_pos full
  rw [acceptLong, if_neg (fun bad => bad ok), none_]

theorem counter_endLong (i k : Nat) (b : Bytes) (s : State) {c : Ctr} (o : Nat) (drop : c ≠ .evtDrop) (device : c ≠ .evtDropDevice) :
    counter (endLong i k b s) c o = counter s c o := by
  have raised (code : Nat) (r : Option Nat) (d : Bytes) (u : State) : counter (raise code r d u) c o = counter u c o :=
    (raise_told code r d u).counts c o 0 drop device
  unfold endLong
  split
  · rfl
  · dsimp only
    split
    · exact raised ..
    · exact (raised ..).trans (raised ..)

/-- A scrub pass, up to the end of the operation that asked for it. -/
def scrubbed (r : Nat) (l : List (Nat × Nat)) (s : State) : State :=
  withDmc (fun d => { d with scrubbing := d.scrubbing.filter (fun e => e.1 != r) })
    (if r = 0 then l.eraseDups.foldl correctedRow (l.foldl (correctedAt r) s) else l.foldl (correctedAt r) s)

theorem scrubPass_eq (r : Nat) (l : List (Nat × Nat)) (s : State) : HifOnly (scrubbed r l s) (scrubPass r l s) ∧
    (∀ c o, c ≠ .evtDrop → c ≠ .evtDropDevice → counter (scrubPass r l s) c o = counter (scrubbed r l s) c o) ∧
    ∀ i, s.dmc.scrubbing.find? (fun e => e.1 == r) = some (r, some i) → longOp? (scrubPass r l s) i = none := by
  have made : scrubPass r l s = match (s.dmc.scrubbing.find? (fun e => e.1 == r)).bind (·.2) with
      | none => scrubbed r l s
      | some i => endLong i St.ok [] (withLong i (fun o => { o with position := o.total }) (scrubbed r l s)) := rfl
  cases mine : (s.dmc.scrubbing.find? (fun e => e.1 == r)).bind (·.2) with
  | none =>
    rw [mine] at made
    rw [show scrubPass r l s = scrubbed r l s from made]
    refine ⟨.refl _, fun _ _ _ _ => rfl, fun i found => ?_⟩
    rw [found] at mine
    cases mine
  | some i =>
    rw [mine] at made
    rw [show scrubPass r l s = endLong i St.ok [] (withLong i (fun o => { o with position := o.total }) (scrubbed r l s)) from made]
    refine ⟨HifOnly.trans (.of _ _ _) (endLong_hifOnly ..), fun c o drop device => ?_, fun j found => ?_⟩
    · exact (counter_endLong _ _ _ _ o drop device).trans rfl
    · rw [found] at mine
      rw [← Option.some.inj mine]
      exact longOp?_endLong ..

end Sys2Proof.Machine
end

section
/-! OBLIGATION. Memories and the retained configuration (O50): commands, scrub passes and uncorrectable errors. -/

namespace Sys2Proof.Machine

open Sys2Proof

set_option Elab.async false

/-! ### What a scrub pass leaves -/

theorem scrubbed_agree (r : Nat) (l : List (Nat × Nat)) (s : State) :
    Agree sansRepair { s with dmc := { s.dmc with scrubbing := (scrubbed r l s).dmc.scrubbing } } (scrubbed r l s) ∧
    (scrubbed r l s).dmc.scrubbing = s.dmc.scrubbing.filter (fun e => e.1 != r) ∧
    (r ≠ 0 → (scrubbed r l s).dmc = { s.dmc with scrubbing := (scrubbed r l s).dmc.scrubbing }) := by
  have counted : Agree sansVpes s (l.foldl (correctedAt r) s) := .foldl (fun t e => correctedAt_vpes r t e) _ _
  obtain ⟨u, hu⟩ : ∃ u, u = if r = 0 then l.eraseDups.foldl correctedRow (l.foldl (correctedAt r) s) else l.foldl (correctedAt r) s :=
    ⟨_, rfl⟩
  have agree : Agree sansRepair s u := hu ▸ .ite
    (.trans (counted.weaken) (.foldl correctedRow_agree _ _)) (counted.weaken)
  have list : u.dmc.scrubbing = s.dmc.scrubbing := agree.field (·.dmc.scrubbing)
  have made : scrubbed r l s = withDmc (fun d => { d with scrubbing := d.scrubbing.filter (fun e => e.1 != r) }) u := hu ▸ rfl
  rw [made]
  refine ⟨?_, congrArg _ list, fun other => ?_⟩
  · change sansRepair _ = sansRepair _
    exact congrArg (fun t : State => { t with dmc := { t.dmc with scrubbing := u.dmc.scrubbing.filter (fun e => e.1 != r) } }) agree
  · rw [if_neg other] at hu
    have same : u.dmc = s.dmc := hu ▸ counted.field (·.dmc)
    exact congrArg (fun d : Dmc => { d with scrubbing := u.dmc.scrubbing.filter (fun e => e.1 != r) }) same

theorem counter_scrubbed (r : Nat) (l : List (Nat × Nat)) (s : State) {c : Ctr} (o : Nat) (drop : c ≠ .evtDrop)
    (device : c ≠ .evtDropDevice) : counter (scrubbed r l s) c o = counter (l.foldl (correctedAt r) s) c o := by
  have rows (k : List (Nat × Nat)) (t : State) : counter (k.foldl correctedRow t) c o = counter t c o := by
    induction k generalizing t with
    | nil => rfl
    | cons e k ih => rw [List.foldl_cons, ih, counter_correctedRow t e o drop device]
  change counter (if r = 0 then _ else _) c o = _
  split
  · exact rows ..
  · rfl

/-- The corrected errors of a pass count at the object of their region. -/
theorem counter_foldl_correctedAt {r o : Nat} {c : Ctr} {p : Nat × Nat → Bool}
    (one : ∀ t e, counter (correctedAt r t e) c o = counter t c o + BitVec.ofNat 64 (if p e then 1 else 0))
    (l : List (Nat × Nat)) (s : State) : counter (l.foldl (correctedAt r) s) c o = counter s c o + BitVec.ofNat 64 (l.countP p) :=
  foldl_counts (f := correctedAt r) (val := fun t => counter t c o) one l s

/-! ### Uncorrectable errors in DRAM (R465) -/

theorem dramUe_spec (k a : Nat) (s : State) : ∃ d e f,
    HifOnly { s with dmc := d, endp := e, free := f } (dramUe k a s) ∧ e.life.dramUe = s.endp.life.dramUe + 1 ∧
    d.lastUe = some (now s) ∧ (notice? (dramUe k a s) Ev.dramUe k).isSome = true ∧
    counter (dramUe k a s) .dramUe k = counter s .dramUe k + 1 := by
  obtain ⟨t, ht⟩ : ∃ t, t = withLife (fun l => { l with dramUe := l.dramUe + 1 })
      (bump .dramUe k (withDmc (fun d => { d with lastUe := some (now s) }) s)) := ⟨_, rfl⟩
  have told : HifOnly t (dramUeNotice k 1 a t) := crossed_hifOnly ..
  obtain ⟨m, e, f, only, ⟨life, -⟩, counts, kept⟩ := repairRow_spec k (rowOf a) a (dramUeNotice k 1 a t)
  have runs : dramUe k a s = repairRow k (rowOf a) a (dramUeNotice k 1 a t) := ht ▸ rfl
  have bumped : HifOnly { s with dmc := { s.dmc with lastUe := some (now s) }, endp := { s.endp with life := { s.endp.life with dramUe := s.endp.life.dramUe + 1 } } } t := by
    rw [ht, (bump_hifOnly .dramUe k _).eq]
    exact .of _ _ _
  have here : HifOnly { s with dmc := { s.dmc with lastUe := some (now s), remaps := m }, endp := e, free := f }
      { dramUeNotice k 1 a t with dmc := { (dramUeNotice k 1 a t).dmc with remaps := m }, endp := e, free := f } := by
    rw [(bumped.trans told).eq]
    exact .of _ _ _
  rw [runs]
  refine ⟨_, e, f, here.trans only, ?_, rfl, kept ?_, ?_⟩
  · rw [life, (bumped.trans told).field (·.endp)]
  · rw [dramUeNotice, notice?_crossed]
    rfl
  · rw [counts _ _ _ (by decide) (by decide)]
    refine (counter_crossing t .dramUe k 0 (by decide) (by decide)).trans ?_
    rw [ht]
    exact counter_bump_same ..

/-! ### What an uncorrectable error takes away (R465) -/

theorem echoLost_spec {n : Nat} {c : Chan} {s : State} (held : FMap.get? s.chans n = some c) (k : Nat) :
    let u := bump .cmemUe k (echoLost n s)
    u = { s with chans := FMap.adj s.chans n Chan.noEcho, counters := u.counters } ∧
      counter u .ecStateLost n = counter s .ecStateLost n + 1 := by
  have has : FMap.has s.chans n = true := by rw [FMap.has, held]; rfl
  have runs : echoLost n s = bump .ecStateLost n { s with chans := FMap.adj s.chans n Chan.noEcho } := if_pos has
  intro u
  refine ⟨?_, (counter_bump_other _ _ _ _ (by decide)).trans (runs ▸ counter_bump_same ..)⟩
  have made : u = { s with chans := FMap.adj s.chans n Chan.noEcho, counters := addCounter (addCounter s.counters ⟨.ecStateLost, n, 0⟩ 1) ⟨.cmemUe, k, 0⟩ 1 } :=
    (bump_eq .cmemUe k _).trans (by rw [runs, bump_eq])
  rw [made]

theorem memoryUe_cellWord {n k : Nat} {q : Queue} {x : Item} {s : State} (held : queue? s n = some q) (taken : q.taken = some (x, k))
    (live : q.releasing = none) : (∃ y, queue? (memoryUe (.cellWord n) s) n = some y ∧ y.taken = none ∧ y.items = q.items) ∧
      counter (memoryUe (.cellWord n) s) .qIntegrity 0 = counter s .qIntegrity 0 + 1 := by
  obtain ⟨runs, now⟩ := queueIntegrity_taken_eq (s := (drawNat s).2) (drawNat s).1 held taken live
  change (∃ y, queue? (queueIntegrity n .taken (drawNat s).1 (drawNat s).2) n = some y ∧ _) ∧
    counter (queueIntegrity n .taken (drawNat s).1 (drawNat s).2) .qIntegrity 0 = _
  rw [runs]
  obtain ⟨u, hu⟩ : ∃ u, u = orphanCells q.cls (takenLeft (x, k)) x.ext (withQueue n (fun r => { r with taken := none }) (drawNat s).2) :=
    ⟨_, rfl⟩
  have same : u.counters = s.counters := by rw [hu, orphanCells_frame]; rfl
  rw [← hu] at now ⊢
  refine ⟨⟨_, (QueueReach.here (fun k => wantSweep_reach k _) n).trans now, rfl, rfl⟩, ?_⟩
  have event : counter (integrityEvent n 4 (drawNat s).1 1 q.level u) .qIntegrity 0 = counter u .qIntegrity 0 + 1 :=
    ((raise_told ..).counts _ _ _ (by decide) (by decide)).trans (counter_bump_same ..)
  rw [wantSweep_frame]
  refine event.trans ?_
  rw [counter, counter, same]

theorem entryLost_spec {n : Nat} {e : EpdEntry} {s : State} (held : epdEntry? s n = some e) :
    epdEntry? (entryLost n s) n = some { e with damaged := true } ∧
    entryLost n s = { s with epd := (entryLost n s).epd, hif := (entryLost n s).hif, counters := (entryLost n s).counters } := by
  obtain ⟨b, runs⟩ : ∃ b, entryLost n s = raise Ev.epdDamaged none b (withEntry n (fun e => { e with damaged := true }) s) := by
    rw [entryLost, held]
    exact ⟨_, rfl⟩
  have only := raise_hifOnly Ev.epdDamaged none b (withEntry n (fun e => { e with damaged := true }) s)
  rw [runs]
  refine ⟨(only.field (epdEntry? · n)).trans ((FMap.get?_adj_same ..).trans (congrArg _ held)), ?_⟩
  rw [only.eq]
  rfl

theorem indexLost_spec (a : Nat) (s : State) : let u := indexLost a s
    u = { s with epd := u.epd, free := u.free } ∧ u.epd.rebuild.isSome = true ∧ u.epd.entries = s.epd.entries ∧
      u.epd.badBuckets.length = s.epd.badBuckets.length + 1 := by
  unfold indexLost
  dsimp only
  split
  next busy => exact ⟨rfl, busy, rfl, rfl⟩
  next => exact ⟨rfl, rfl, rfl, rfl⟩

/-- The next segment of the source of a lost one carries gap (R338). -/
def markGap (e : BacklogSeg) (s : State) : State :=
  if byteAt e.data 0 = 1 then
    { s with chans := FMap.adj s.chans e.source (fun c => { c with gap := c.gap + byteAt e.data 0x14 }) }
  else withBce (fun b => { b with captures := FMap.adj b.captures e.source (fun k => { k with gap := k.gap + 1 }) }) s

theorem markGap_backlog (e : BacklogSeg) (s : State) : (markGap e s).bce.backlog = s.bce.backlog := by
  unfold markGap
  split <;> rfl

theorem backlogLost_of_get {e : BacklogSeg} {s : State}
    (at_ : s.bce.backlog[(drawNat s).1 % max 1 s.bce.backlog.length]? = some e) :
    backlogLost s = finishFlushes (countRecDrop e (backlogMoved (backlogBytes s)
      (markGap e (withBce (fun b => { b with backlog := dropFirst b.backlog e }) (drawNat s).2)))) := by
  rw [backlogLost]
  dsimp only
  rw [at_] <;> rfl

theorem countRecDrop_keepsBacklog (e : BacklogSeg) (s : State) : KeepsBacklog s (countRecDrop e s) :=
  KeepsBacklog.trans (t := withBce (fun b => { b with flushes := b.flushes.map (fun f => { f with dropped := f.dropped + 1 }) }) s)
    ⟨rfl, rfl, rfl⟩ (bump_hifOnly ..).keepsBacklog

theorem backlogLost_spec (s : State) : (s.bce.backlog = [] → backlogLost s = s) ∧
    (s.bce.backlog ≠ [] → ∃ e, e ∈ s.bce.backlog ∧ (backlogLost s).bce.backlog = dropFirst s.bce.backlog e) := by
  constructor
  · intro empty
    rw [backlogLost]
    dsimp only
    rw [empty, List.getElem?_nil] <;> rfl
  · intro some_
    have size : 0 < s.bce.backlog.length := List.length_pos_iff.mpr some_
    have inside : (drawNat s).1 % max 1 s.bce.backlog.length < s.bce.backlog.length := by
      rw [Nat.max_eq_right size]
      exact Nat.mod_lt _ size
    obtain ⟨e, at_⟩ : ∃ e, s.bce.backlog[(drawNat s).1 % max 1 s.bce.backlog.length]? = some e := ⟨_, List.getElem?_eq_getElem inside⟩
    refine ⟨e, List.mem_of_getElem? at_, ?_⟩
    have dropped (t : State) : KeepsBacklog t (finishFlushes (countRecDrop e (backlogMoved (backlogBytes s) t))) :=
      (backlogMoved_keepsBacklog ..).trans ((countRecDrop_keepsBacklog e _).trans
        (finishFlushes_keepsBacklog _))
    rw [backlogLost_of_get at_, (dropped _).1, markGap_backlog]
    rfl

theorem eventLost_spec {n : Nat} {r : Ring} {s : State} (held : ring? s n = some r) : let u := eventLost n s
    (r.backlog = [] → u = s) ∧ (r.backlog ≠ [] → ∃ i q, ring? u n = some q ∧ q.backlog = r.backlog.eraseIdx i ∧ i < r.backlog.length ∧
      q.lostFlag = true ∧ counter u .evtDrop n = counter s .evtDrop n + 1) := by
  dsimp only
  constructor
  · intro empty
    rw [eventLost, held]
    dsimp only
    rw [empty]
    rfl
  · intro some_
    have size : 0 < r.backlog.length := List.length_pos_iff.mpr some_
    obtain ⟨i, hi⟩ : ∃ i, i = (drawNat s).1 % r.backlog.length := ⟨_, rfl⟩
    have runs : eventLost n s =
        bump .evtDrop n (withRing n (fun q => { q with backlog := q.backlog.eraseIdx i, lostFlag := true }) (drawNat s).2) := by
      rw [eventLost, held, hi]
      exact if_neg (fun empty => some_ (List.isEmpty_iff.mp empty))
    rw [runs]
    refine ⟨i, { r with backlog := r.backlog.eraseIdx i, lostFlag := true }, ?_, rfl, hi ▸ Nat.mod_lt _ size, rfl, counter_bump_same ..⟩
    exact ring?_withRing_same (s := (drawNat s).2) held

/-! ### Wear (R483) -/

theorem wearCheck_spec (s : State) : ∃ e f, HifOnly { s with endp := e, free := f } (wearCheck s) ∧ e.life = s.endp.life ∧
    e.lifeStored = s.endp.lifeStored ∧ e.epoch = s.endp.epoch ∧ e.committed = s.endp.committed ∧
    (s.endp.degraded = true → e.degraded = true) := by
  unfold wearCheck
  dsimp only
  split
  · exact ⟨s.endp, _, .refl _, rfl, rfl, rfl, rfl, id⟩
  · refine ⟨_, _, crossed_hifOnly .., rfl, rfl, rfl, rfl, fun was => ?_⟩
    change (s.endp.degraded || _) = true
    rw [was]
    rfl

/-- What the store of the lifetime counters leaves (R482). -/
theorem storeLife_spec (s : State) : let u := storeLife s
    u = { s with endp := u.endp, free := u.free } ∧ u.endp.life.powerOnS = (lifeNow s).powerOnS ∧ u.endp.epoch = s.endp.epoch ∧
    u.endp.committed = s.endp.committed ∧ (s.endp.degraded = false → u.endp.lifeStored = u.endp.life) ∧
    (s.endp.degraded = true → u.endp.lifeStored = s.endp.lifeStored ∧ u.endp.degraded = true) := by
  unfold storeLife
  dsimp only
  split
  next worn => exact ⟨rfl, rfl, rfl, rfl, fun fit => absurd (worn.symm.trans fit) (by decide), fun _ => ⟨rfl, worn⟩⟩
  next fit => exact ⟨rfl, rfl, rfl, rfl, fun _ => rfl, fun worn => absurd worn fit⟩

end Sys2Proof.Machine
end

section
/-! OBLIGATION. Memories and the retained configuration (O50): the statement. -/

namespace Sys2Proof.Machine

open Sys2Proof

set_option Elab.async false

theorem memScrub_spec {h : CmdHdr} {s : State} (r : Nat) (ready : Ready (plainCmd 0x0511 2) h s) :
    exec (.memScrub h r) s = .next (
      if 4 < r then finish (plainCmd 0x0511 2) h s St.badParam [] (take h.ring s)
      else if s.dmc.scrubbing.any (fun e => e.1 == r) = true then finish (plainCmd 0x0511 2) h s St.busy [] (take h.ring s)
      else if 256 ≤ s.hif.longOps.length then finish (plainCmd 0x0511 2) h s St.busy [] (take h.ring s)
      else accepted (plainCmd 0x0511 2) h s { begun 0x0511 (regionBytes s r) h s with
        dmc := { s.dmc with scrubbing := s.dmc.scrubbing ++ [(r, some s.hif.nextOpId)] } }) := by
  have status : memScrubStatus (take h.ring s) r =
      if 4 < r then St.badParam else if s.dmc.scrubbing.any (fun e => e.1 == r) = true then St.busy else St.ok := rfl
  split
  next high => exact answers_done (i := .memScrub h r) rfl ready (acceptLong_of_ne (status.trans (if_pos high)) (by decide))
  next low =>
    rw [if_neg low] at status
    split
    next runs => exact answers_done (i := .memScrub h r) rfl ready (acceptLong_of_ne (status.trans (if_pos runs)) (by decide))
    next idle =>
      have ok := status.trans (if_neg idle)
      split
      next full => exact answers_done (i := .memScrub h r) rfl ready (acceptLong_of_full ok full)
      next room => exact answers_done (i := .memScrub h r) rfl ready ((acceptLong_of_ok ok (Nat.lt_of_not_le room)).trans rfl)

theorem commit_spec {h : CmdHdr} {s : State} (ready : Ready (plainCmd 0x0521 3) h s) :
    (s.endp.degraded = false → exec (.commit h) s = .next (wearCheck (finish (plainCmd 0x0521 3) h s St.ok (toLE 8 (s.endp.epoch + 1))
      (endpWrite { take h.ring s with endp := { s.endp with epoch := s.endp.epoch + 1, committed := snapshot s } })))) ∧
    (s.endp.degraded = true → exec (.commit h) s = .next (finish (plainCmd 0x0521 3) h s St.endpaperFail [] (take h.ring s))) := by
  have own : commitOwn (take h.ring s) = if s.endp.degraded = true then .done St.endpaperFail [] (take h.ring s) else
      .doneThen St.ok (toLE 8 (s.endp.epoch + 1)) (endpWrite { take h.ring s with
        endp := { s.endp with epoch := s.endp.epoch + 1, committed := snapshot s } }) wearCheck := rfl
  exact ⟨fun fit => answers_then (i := .commit h) rfl ready (own.trans (if_neg (Bool.not_eq_true _ ▸ fit))),
    fun worn => answers_done (i := .commit h) rfl ready (own.trans (if_pos worn))⟩

theorem revertReg_of_at {s : State} {off i : Nat} {r : RegName} (at_ : regAt off = some (r, i)) (plain : r ≠ .rlCtrl) :
    let new := (regVal s r i &&& ~~~ accMask r .rwl) ||| committedAt s off
    revertReg s off = if (inRange r new && regCondOk s r i (regVal s r i) new) = true
      then regAfter r i (regVal s r i) new (setReg s r i new) else s := by
  rw [revertReg, at_]
  exact if_neg plain

/-- A scrub pass as the host sees it (R463). -/
theorem scrubPass_spec {r : Nat} (l : List (Nat × Nat)) (s : State) : let u := scrubPass r l s
    u.regs = s.regs ∧ u.epd = s.epd ∧ u.chans = s.chans ∧ u.qmg = s.qmg ∧
      u.dmc.scrubbing = s.dmc.scrubbing.filter (fun e => e.1 != r) ∧ (r ≠ 0 → u.dmc = { s.dmc with scrubbing := u.dmc.scrubbing }) := by
  obtain ⟨only, -, -⟩ := scrubPass_eq r l s
  obtain ⟨agree, list, same⟩ := scrubbed_agree r l s
  intro u
  change (scrubPass r l s).regs = _ ∧ (scrubPass r l s).epd = _ ∧ (scrubPass r l s).chans = _ ∧ (scrubPass r l s).qmg = _ ∧
    (scrubPass r l s).dmc.scrubbing = _ ∧ (_ → (scrubPass r l s).dmc = { s.dmc with scrubbing := (scrubPass r l s).dmc.scrubbing })
  rw [only.field (·.dmc)]
  exact ⟨(only.field State.regs).trans (agree.field State.regs), (only.field State.epd).trans (agree.field State.epd),
    (only.field State.chans).trans (agree.field State.chans), (only.field State.qmg).trans (agree.field State.qmg), list, same⟩

/-- What counts in a scrub pass: each corrected error at the object of its region. -/
theorem scrubPass_counts {r o : Nat} {c : Ctr} {p : Nat × Nat → Bool} (drop : c ≠ .evtDrop) (device : c ≠ .evtDropDevice)
    (one : ∀ t e, counter (correctedAt r t e) c o = counter t c o + BitVec.ofNat 64 (if p e then 1 else 0))
    (l : List (Nat × Nat)) (s : State) : counter (scrubPass r l s) c o = counter s c o + BitVec.ofNat 64 (l.countP p) := by
  obtain ⟨-, counts, -⟩ := scrubPass_eq r l s
  rw [counts c o drop device, counter_scrubbed r l s o drop device, counter_foldl_correctedAt one]

theorem timingCorrect_spec (k : Nat) (c : Int) (s : State) : let u := timingCorrect k c s
    u = { s with dmc := u.dmc, endp := u.endp, free := u.free } ∧ u.dmc = { s.dmc with
      dqs := FMap.set s.dmc.dqs k c
      cached := if 125 < (c - FMap.getD s.dmc.cached k 0).natAbs then FMap.set s.dmc.cached k c else s.dmc.cached } := by
  unfold timingCorrect
  dsimp only
  split
  · exact ⟨rfl, rfl⟩
  · exact ⟨rfl, rfl⟩

theorem memoryUe_runs {s : State} (up : alive s = true) (p : UeWhere) : exec (.memoryUe p) s = .next (memoryUe p s) :=
  congrArg _ (if_pos up)

/-- An uncorrectable error at a place of DRAM (R465). -/
theorem dramUe_places {s : State} (up : alive s = true) (k a : Nat) : let m := dramUe k a s
    m.endp.life.dramUe = s.endp.life.dramUe + 1 ∧ m.dmc.lastUe = some (now s) ∧ (notice? m Ev.dramUe k).isSome = true ∧
      counter m .dramUe k = counter s .dramUe k + 1 ∧ m.chans = s.chans ∧ m.epd = s.epd ∧ m.bce = s.bce ∧
      (∀ n, exec (.memoryUe (.dramEcho k a n)) s = .next (echoLost n m)) ∧
      (∀ n e, epdEntry? s n = some e → Answers (.memoryUe (.dramEntry k a n)) s (fun u =>
        epdEntry? u n = some { e with damaged := true } ∧ u = { m with epd := u.epd, hif := u.hif, counters := u.counters })) ∧
      (∀ n, epdEntry? s n = none → exec (.memoryUe (.dramEntry k a n)) s = .next m) ∧
      Answers (.memoryUe (.dramIndex k a)) s (fun u => u = { m with epd := u.epd, free := u.free } ∧
        u.epd.rebuild.isSome = true ∧ u.epd.entries = s.epd.entries ∧ u.epd.badBuckets.length = s.epd.badBuckets.length + 1) ∧
      Answers (.memoryUe (.dramBacklog k a)) s (fun u => (s.bce.backlog = [] → u.bce = s.bce) ∧
        (s.bce.backlog ≠ [] → ∃ e, e ∈ s.bce.backlog ∧ u.bce.backlog = dropFirst s.bce.backlog e)) ∧
      (∀ n r, ring? m n = some r → Answers (.memoryUe (.dramEvent k a n)) s (fun u =>
        (r.backlog = [] → u = m) ∧ (r.backlog ≠ [] → ∃ i q, ring? u n = some q ∧ q.backlog = r.backlog.eraseIdx i ∧ i < r.backlog.length ∧
          q.lostFlag = true ∧ counter u .evtDrop n = counter m .evtDrop n + 1))) ∧
      (∀ n, exec (.memoryUe (.dramResume k a n)) s = .next
        { m with bce := { m.bce with resumes := m.bce.resumes.filter (fun r => r.handle != n) } }) := by
  have runs := memoryUe_runs up
  obtain ⟨d, e, f, only, life, last, told, counts⟩ := dramUe_spec k a s
  obtain ⟨m, hm⟩ : ∃ m, m = dramUe k a s := ⟨_, rfl⟩
  rw [← hm] at only told counts
  have epd : m.epd = s.epd := only.field State.epd
  have bce : m.bce = s.bce := only.field State.bce
  dsimp only
  rw [← hm]
  refine ⟨(only.field (·.endp.life.dramUe)).trans life, (only.field (·.dmc.lastUe)).trans last, told, counts, only.field State.chans, epd, bce,
    fun n => ?echo, fun n x held => ?entry, fun n free => ?noEntry, ?index, ?backlog, fun n r held => ?event, fun n => ?resume⟩
  case echo => exact hm ▸ runs _
  case entry =>
    have here : epdEntry? m n = some x := (congrArg (fun t : Epd => FMap.get? t.entries n) epd).trans held
    exact ⟨_, (runs _).trans (congrArg _ (congrArg (entryLost n) hm.symm)), entryLost_spec here⟩
  case noEntry =>
    have none_ : entryLost n m = m := by
      have same : epdEntry? m n = none := (congrArg (fun t : Epd => FMap.get? t.entries n) epd).trans free
      rw [entryLost, same]
    exact (runs _).trans (congrArg _ (hm ▸ none_))
  case index =>
    obtain ⟨frame, rebuilds, entries, buckets⟩ := indexLost_spec a m
    refine ⟨_, (runs _).trans (congrArg _ (congrArg (indexLost a) hm.symm)), frame, rebuilds, entries.trans (congrArg _ epd), ?_⟩
    rw [buckets, epd]
  case backlog =>
    obtain ⟨empty, some_⟩ := backlogLost_spec m
    rw [bce] at empty some_
    exact ⟨_, (runs _).trans (congrArg _ (congrArg backlogLost hm.symm)), fun none_ => (congrArg State.bce (empty none_)).trans bce, some_⟩
  case event => exact ⟨_, (runs _).trans (congrArg _ (congrArg (eventLost n) hm.symm)), eventLost_spec held⟩
  case resume => exact hm ▸ runs _

/-- The lifetime counters are written every 60 s (R482). -/
theorem lifetimeWrite_spec {t : Ns} {s : State} (up : alive s = true) (due : s.endp.lifeAt + 60000000000 ≤ now (advance t s)) :
    Answers (.lifetimeWrite t) s (fun u => u = { advance t s with endp := u.endp, hif := u.hif, counters := u.counters, free := u.free } ∧
        u.endp.life.powerOnS = (lifeNow (advance t s)).powerOnS ∧ u.endp.epoch = s.endp.epoch ∧
        u.endp.committed = s.endp.committed ∧
        (s.endp.degraded = false → u.endp.lifeStored = u.endp.life) ∧
        (s.endp.degraded = true → u.endp.lifeStored = s.endp.lifeStored ∧ u.endp.degraded = true)) := by
  obtain ⟨frame, power, epoch, conf, fit, worn⟩ := storeLife_spec (advance t s)
  obtain ⟨v, hv⟩ : ∃ v, v = storeLife (advance t s) := ⟨_, rfl⟩
  obtain ⟨e, f, only, life, stored, epoch', conf', worse⟩ := wearCheck_spec v
  have same : (advance t s).endp = s.endp := rfl
  have now_ : (alive (advance t s) && decide ((advance t s).endp.lifeAt + 60000000000 ≤ now (advance t s))) = true := by
    rw [same, decide_eq_true due, Bool.and_true]
    exact up
  rw [← hv] at frame power epoch conf fit worn
  have endp : (wearCheck v).endp = e := only.field State.endp
  refine ⟨wearCheck v, ?_, ?_, ?_⟩
  · rw [hv]
    change Host.Outcome.next (onlyIf _ _ _) = _
    rw [onlyIf, if_pos now_]
  · rw [only.eq, frame]
  · rw [endp, life, stored, epoch', conf']
    exact ⟨power, epoch, conf, fit, fun was => ⟨(worn was).1, worse (worn was).2⟩⟩

theorem vpeFaulted_busy {s : State} {n : Nat} (busy : (vpeAt s n).op.isSome = true) :
    vpeFaulted n .memUe s = putVpe n ((vpeAt s n).fault .memUe) s ∧
    vpeFaulted n .illegal s = putVpe n { (vpeAt s n).fault .illegal with progBad := true } s := by
  have data : ((vpeAt s n).progBad || decide (FaultKind.memUe = .illegal)) = (vpeAt s n).progBad := Bool.or_false _
  have prog : ((vpeAt s n).progBad || decide (FaultKind.illegal = .illegal)) = true := Bool.or_true _
  constructor
  · rw [vpeFaulted, if_pos busy, data]
    rfl
  · rw [vpeFaulted, if_pos busy, prog]

theorem vpeFaulted_idle {s : State} {n : Nat} (idle : (vpeAt s n).op = none) (k : FaultKind) : vpeFaulted n k s = s :=
  if_neg (by rw [idle]; decide)

theorem flowFault_of_some {f : Nat} {fl : Flow} {s : State} (held : flow? s f = some fl) :
    flowFault f s = round (fl.order.foldl (fun t e => voidOp f e.1.num e.2.node t) (freeVpesOf f s)) := by
  rw [flowFault, held]

theorem flowFault_of_none {f : Nat} {s : State} (free : flow? s f = none) : flowFault f s = s := by
  rw [flowFault, free]

theorem endpaperUe_late {k : Nat} {s : State} (ready : 7 ≤ s.avl.stage) : let u := endpaperUe k true s
    u = { areaLost k s with hif := u.hif, counters := u.counters } := by
  obtain ⟨b, lost⟩ : ∃ b, endpaperUe k true s = raiseStart Ev.endpaperLost b (areaLost k s) := ⟨_, if_neg (Nat.not_lt.mpr ready)⟩
  exact lost ▸ (raiseStart_told Ev.endpaperLost b (areaLost k s)).hifOnly.eq

theorem endpaperUe_early {k : Nat} {s : State} (early : s.avl.stage < 7) : ∃ b,
    endpaperUe k true s = { areaLost k s with avl := { (areaLost k s).avl with atReady := (areaLost k s).avl.atReady ++ [(Ev.endpaperLost, b)] } } :=
  ⟨_, if_pos early⟩

end Sys2Proof.Machine

open Sys2Proof Sys2Proof.Machine in
/-- Settles O50: a command by its checks, a scrub pass by the fold over its corrected errors, and an uncorrectable error by what
its place loses after the error itself has been counted and told. -/
theorem memoriesAndConfiguration : Obligations.MemoriesAndConfiguration := by
  unfold Obligations.MemoriesAndConfiguration
  refine ⟨fun h s => ⟨fun r ready => memScrub_spec r ready, fun ready => (commit_spec ready).1, fun ready => (commit_spec ready).2,
    fun ready => answers_done (i := .revert h) rfl ready rfl⟩, fun s off r i at_ plain => revertReg_of_at at_ plain, fun s up => ?_⟩
  have runs := memoryUe_runs up
  refine ⟨fun r l low => ?scrub, fun k c low on => ?timing, fun n busy => ?vpe, fun n idle => ?noVpe, fun n c held => ?echo,
    fun n k q x held taken live => ⟨_, runs _, memoryUe_cellWord held taken live⟩, fun f fl held => ?flow, fun f free => ?noFlow,
    fun k a => dramUe_places up k a, fun k => runs _, fun k ready => ?lost, fun k early => ?lostEarly, fun t due => lifetimeWrite_spec up due⟩
  case scrub =>
    obtain ⟨regs, epd, chans, qmg, list, dmc⟩ := scrubPass_spec (r := r) l s
    have valid : (alive s && decide (r ≤ 4)) = true := (congrArg (· && _) up).trans (decide_eq_true low)
    refine ⟨scrubPass r l s, congrArg _ (if_pos valid), regs, epd, chans, qmg, list, dmc, ?_, ?_, ?_, ?_, ?_, (scrubPass_eq r l s).2.2⟩
    · rintro c rfl
      exact scrubPass_counts (r := 0) (c := .dramCe) (o := c) (p := fun e => e.1 == c) (by decide) (by decide) (fun t e => counter_bump_at .dramCe e.1 c t) l s
    · rintro c rfl
      exact scrubPass_counts (r := 1) (c := .cmemCe) (o := c) (p := fun e => e.1 == c) (by decide) (by decide) (fun t e => counter_bump_at .cmemCe e.1 c t) l s
    · rintro v rfl
      exact scrubPass_counts (r := 2) (c := .vpeMemCe) (o := v) (p := fun e => e.1 == v) (by decide) (by decide) (fun t e => counter_correctedVpe e.1 v t) l s
    · rintro rfl
      refine (scrubPass_counts (c := .poolCe) (o := 0) (p := fun _ => true) (by decide) (by decide) (fun t e => ?_) l s).trans ?_
      · exact counter_bump_same .poolCe 0 t
      · rw [List.countP_true]
    · rintro rfl
      refine (scrubPass_counts (c := .endpCe) (o := 0) (p := fun _ => true) (by decide) (by decide) (fun t e => ?_) l s).trans ?_
      · exact counter_bump_same .endpCe 0 t
      · rw [List.countP_true]
  case timing =>
    have valid : (alive s && decide (k < 4) && s.dmc.chOk.getLsbD k) = true := by rw [up, decide_eq_true low, on]; rfl
    exact ⟨timingCorrect k c s, congrArg Host.Outcome.next (if_pos valid), timingCorrect_spec k c s⟩
  case vpe =>
    obtain ⟨data, prog⟩ := vpeFaulted_busy busy
    exact ⟨(runs _).trans (congrArg _ data), (runs _).trans (congrArg _ prog)⟩
  case noVpe => exact ⟨(runs _).trans (congrArg _ (vpeFaulted_idle idle _)), (runs _).trans (congrArg _ (vpeFaulted_idle idle _))⟩
  case echo => exact ⟨_, runs _, echoLost_spec held _⟩
  case flow => exact (runs _).trans (congrArg _ (flowFault_of_some held))
  case noFlow => exact (runs _).trans (congrArg _ (flowFault_of_none free))
  case lost => exact ⟨_, runs _, endpaperUe_late ready⟩
  case lostEarly => exact ⟨_, runs _, endpaperUe_early early⟩
end

section
/-! OBLIGATION. Resets, power states and the junction sensor (O51). -/

namespace Sys2Proof.Machine

open Sys2Proof

set_option Elab.async false

/-! ### What a cold state leaves (R485) -/

theorem AllGone.of_cold {a : Avail} (s : State) (c : Clock) (d : Epd) (e : Endp) (b : BitVec 32) (stage : a.stage = 0) (user : a.userLoaded = none) :
    AllGone { coldState s with clk := c, epd := d, endp := e, avl := a, eth := [], hif := { Hif.reset with subsys := b } } :=
  ⟨rfl, rfl, rfl, rfl, rfl, rfl, rfl, rfl, rfl, rfl, rfl, rfl, rfl, rfl, rfl, rfl, rfl, rfl, rfl, rfl, rfl, rfl, rfl, stage, user⟩

/-- A reset of the whole device keeps what R485 names of the state it is done in. -/
theorem Survives.of_cold {a : Avail} {e : Endp} (s : State) (c : Clock) (d : Epd) (p : FMap EthPort) (b : BitVec 32)
    (epoch : e.epoch = s.endp.epoch) (conf : e.committed = s.endp.committed) (held trip factory por clean : Bool) (power : Nat) (st : BitVec 4)
    (wake : Option Bytes) (avl : a = { s.avl.cold with
      porHeld := held, thermTrip := trip, factoryReq := factory, afterPor := por, dirClean := clean, power := power, straps := st, wakeInfo := wake }) :
    Survives s { coldState s with clk := c, epd := d, endp := e, avl := a, eth := p, hif := { Hif.reset with subsys := b } } := by
  subst avl
  exact ⟨rfl, rfl, epoch, conf, rfl, rfl, rfl, rfl, rfl, rfl, rfl, rfl, rfl, rfl, rfl, rfl, rfl, rfl⟩

/-- But for sessions, the host interface, counters, free choices and what Endpaper holds beside its epoch. -/
def sansWritten (s : State) : State :=
  { s with
    sec := { s.sec with sessions := [], unlock := none }
    endp := { Endp.reset with epoch := s.endp.epoch, committed := s.endp.committed }
    hif := Hif.reset, counters := [], free := 0 }

theorem storeLife_written (s : State) : Agree sansWritten s (storeLife s) := by
  obtain ⟨frame, -, epoch, conf, -⟩ := storeLife_spec s
  change sansWritten (storeLife s) = _
  rw [frame, sansWritten, sansWritten]
  dsimp only
  rw [epoch, conf]

/-- What a reset keeps of a state it keeps of any that differs only in what is written meanwhile. -/
theorem Survives.after {s t u : State} (agree : Agree sansWritten s t) (survives : Survives t u) : Survives s u := by
  have sec : { t.sec with sessions := [], nonces := [], unlock := none, backoff := [] } =
      { s.sec with sessions := [], nonces := [], unlock := none, backoff := [] } :=
    agree.field (fun v => { v.sec with sessions := [], nonces := [], unlock := none, backoff := [] })
  unfold Survives at *
  rwa [sec, agree.field (·.pending), agree.field (·.endp.epoch), agree.field (·.endp.committed), agree.field (·.avl),
    agree.field (·.dmc)] at survives

theorem storeLife_soft (s : State) : (storeLife s).endp.life.soft = s.endp.life.soft := by
  unfold storeLife
  dsimp only
  split <;> rfl

/-- A SOFT reset (R498). -/
theorem softReset_spec {s t : State} (agree : Agree sansWritten s t) (life : t.endp = s.endp) : let u := softReset t
    Survives s u ∧ AllGone u ∧ u.clk.localNs = s.clk.localNs ∧ u.clk.offset = s.clk.offset ∧ u.clk.tick = s.clk.tick ∧
      u.epd = { s.epd with rebuild := none, load := [], export_ := [] } ∧ u.avl.dirClean = true ∧
      u.endp.life.soft = s.endp.life.soft + 1 ∧ (s.endp.degraded = false → u.endp.lifeStored = u.endp.life) := by
  obtain ⟨w, hw⟩ : ∃ w, w = storeLife (withLife (fun l => { l with soft := l.soft + 1 }) t) := ⟨_, rfl⟩
  have written : Agree sansWritten s w :=
    (agree.trans (show Agree sansWritten t (withLife (fun l => { l with soft := l.soft + 1 }) t) from rfl)).trans (hw ▸ storeLife_written _)
  obtain ⟨-, -, -, -, fit, -⟩ := storeLife_spec (withLife (fun l => { l with soft := l.soft + 1 }) t)
  have runs : softReset t = { coldState w with
      avl := { (coldState w).avl with dirClean := true }
      epd := { w.epd with rebuild := none, load := [], export_ := [] } } := hw ▸ rfl
  rw [← hw] at fit
  intro u
  change Survives s (softReset t) ∧ AllGone (softReset t) ∧ (softReset t).clk.localNs = _ ∧ (softReset t).clk.offset = _ ∧
    (softReset t).clk.tick = _ ∧ (softReset t).epd = _ ∧ (softReset t).avl.dirClean = true ∧ (softReset t).endp.life.soft = _ ∧
    (_ → (softReset t).endp.lifeStored = (softReset t).endp.life)
  rw [runs]
  refine ⟨Survives.after written (.of_cold w _ _ _ _ rfl rfl _ _ _ _ _ _ _ _ rfl), .of_cold w _ _ _ _ rfl rfl, written.field (·.clk.localNs),
    written.field (·.clk.offset), written.field (·.clk.tick), written.field (fun v => { v.epd with rebuild := none, load := [], export_ := [] }),
    rfl, ?_, fun ok => fit ((congrArg Endp.degraded life).trans ok)⟩
  change w.endp.life.soft = _
  rw [hw, storeLife_soft, ← life]
  rfl

/-- A filter of a map by keys. -/
theorem FMap.get?_filter_key {α : Type} (m : FMap α) (p : Nat → Bool) (k : Nat) :
    FMap.get? (m.filter (fun e => p e.1)) k = if p k then FMap.get? m k else none := by
  induction m with
  | nil => exact (ite_self none).symm
  | cons e r ih =>
    obtain ⟨j, v⟩ := e
    rw [List.filter_cons]
    by_cases here : j = k
    · subst here
      cases kept : p j
      · rw [if_neg (by exact Bool.false_ne_true), ih, kept]
        rfl
      · rw [if_pos (by exact rfl), if_pos rfl]
        exact (if_pos rfl).trans (if_pos rfl).symm
    · have past : FMap.get? ((j, v) :: r) k = FMap.get? r k := if_neg here
      rw [past]
      split
      · exact (if_neg here).trans ih
      · exact ih

/-- STANDBY (R484). -/
theorem enterStandby_spec {s t : State} (agree : Agree sansWritten s t) (life : t.endp = s.endp) : let u := enterStandby t
    Survives s u ∧ AllGone { u with eth := [] } ∧ u.avl.power = 1 ∧
      (∀ p e, FMap.get? u.eth p = some e → wakePort u p = true ∧ e = { EthPort.fresh with linkUp := (ethPort s p).linkUp }) ∧
      u.epd = Epd.reset ∧ u.clk.localNs = s.clk.localNs ∧ u.clk.offset = s.clk.offset ∧
      (s.endp.degraded = false → u.endp.lifeStored = u.endp.life) := by
  obtain ⟨w, hw⟩ : ∃ w, w = storeLife t := ⟨_, rfl⟩
  have written : Agree sansWritten s w := agree.trans (hw ▸ storeLife_written _)
  obtain ⟨-, -, -, -, fit, -⟩ := storeLife_spec t
  rw [← hw] at fit
  have runs : enterStandby t = { coldState w with
      avl := { (coldState w).avl with power := 1 }
      eth := FMap.mapV (t.eth.filter (fun e => wakePort (coldState w) e.1)) (fun _ e => { EthPort.fresh with linkUp := e.linkUp }) } :=
    hw ▸ rfl
  intro u
  change Survives s (enterStandby t) ∧ AllGone { enterStandby t with eth := [] } ∧ (enterStandby t).avl.power = 1 ∧
      (∀ p e, FMap.get? (enterStandby t).eth p = some e → wakePort (enterStandby t) p = true ∧ e = _) ∧ (enterStandby t).epd = _ ∧
      (enterStandby t).clk.localNs = _ ∧ (enterStandby t).clk.offset = _ ∧ (_ → (enterStandby t).endp.lifeStored = (enterStandby t).endp.life)
  rw [runs]
  refine ⟨Survives.after written (.of_cold w _ _ _ _ rfl rfl _ _ _ _ _ _ _ _ rfl), .of_cold w _ _ _ _ rfl rfl, rfl, fun p e held => ?_, rfl,
    written.field (·.clk.localNs), written.field (·.clk.offset), fun ok => fit ((congrArg Endp.degraded life).trans ok)⟩
  rw [FMap.get?_mapV] at held
  obtain ⟨x, at_, rfl⟩ := Option.map_eq_some_iff.mp held
  rw [FMap.get?_filter_key] at at_
  have wakes : wakePort (coldState w) p = true := by
    by_contra off
    rw [if_neg off] at at_
    cases at_
  rw [if_pos wakes] at at_
  refine ⟨wakes, ?_⟩
  have port : ethPort s p = x := by
    rw [← agree.field (ethPort · p), ethPort, FMap.getD, at_]
    rfl
  rw [port]

/-! ### DOMAIN resets (R486, R498) -/

/-- But for ports, figures, free choices, the host interface and the counters. -/
def sansPortWire (s : State) : State := { s with eth := [], figs := [], free := 0, hif := Hif.reset, counters := [] }

theorem wireDone_wire (n : Nat) (t : Ns) (s : State) : Agree sansPortWire s (wireDone n t s) := by
  cases sending : (ethPort s n).onWire with
  | none =>
    rw [wireDone_of_free t sending]
    exact .refl s
  | some w =>
    rcases Nat.lt_or_ge t w.stop with early | late
    · rw [wireDone_of_sending sending early]
      exact .refl s
    · unfold wireDone
      rw [sending]
      dsimp only
      rw [if_neg (Nat.not_lt.mpr late)]
      generalize hu : addFig .ethTxOctets n w.tc (w.frame.data.length + 4) _ = u
      have start : Agree sansPortWire s u := hu ▸ rfl
      have stamped : Agree sansPortWire s (if w.frame.ts then txStamp u n w.octet w.start else (0, u)).2 := by
        split
        · exact start.trans rfl
        · exact start
      exact stamped.trans (endPtx_hifOnly ..).agree

theorem dropQueued_wire (n : Nat) (s : State) : Agree sansPortWire s (dropQueued n s) := by
  have only (l : List (List TxFrame)) (u : State) : HifOnly u (l.foldl (fun t l => l.foldl (fun u f => dropDown n f u) t) u) :=
    .foldl (fun t l => .foldl (fun u f => dropDown_hifOnly n f u) l t) l u
  unfold dropQueued
  exact (show Agree sansPortWire s (withPort n (fun e => { e with fifos := [] }) s) from rfl).trans (only ..).agree

/-- What a frame that has left keeps of its port, and what a port's own reset keeps of it. -/
def EthPort.kept (e : EthPort) : Bool × Option GateList × FMap WakePattern := (e.linkUp, e.gates, e.wake)

theorem wireDone_kept (n : Nat) (t : Ns) (s : State) : (ethPort (wireDone n t s) n).kept = (ethPort s n).kept := by
  cases sending : (ethPort s n).onWire with
  | none => rw [wireDone_of_free t sending]
  | some w =>
    rcases Nat.lt_or_ge t w.stop with early | late
    · rw [wireDone_of_sending sending early]
    · rw [(wireDone_of_sent sending late).2]
      rfl

/-- An Ethernet port's own reset (R486). -/
theorem resetEth_spec (n : Nat) (s : State) : Agree sansPortWire s (resetEth n s) ∧ (ethPort (resetEth n s) n).fifos = [] ∧
    (ethPort (resetEth n s) n).onWire = none ∧ (ethPort (resetEth n s) n).kept = (ethPort s n).kept := by
  obtain ⟨u, hu⟩ : ∃ u, u = wireDone n (now s) s := ⟨_, rfl⟩
  have done : Agree sansPortWire s u := hu ▸ wireDone_wire ..
  have kept : (ethPort u n).kept = (ethPort s n).kept := hu ▸ wireDone_kept ..
  obtain ⟨v, agree, silent, keeps, runs⟩ : ∃ v, Agree sansPortWire u v ∧ (ethPort v n).onWire = none ∧ (ethPort v n).kept = (ethPort u n).kept ∧
      resetEth n s = dropQueued n v := by
    unfold resetEth
    rw [← hu]
    dsimp only
    split
    next w sending =>
      have only := dropDown_hifOnly n w.frame (withPort n (fun e => { e with onWire := none }) u)
      refine ⟨_, (show Agree sansPortWire u (withPort n (fun e => { e with onWire := none }) u) from rfl).trans only.agree, ?_, ?_, rfl⟩
      · rw [only.ethPort, ethPort_withPort_same]
      · rw [only.ethPort, ethPort_withPort_same]
        rfl
    next free => exact ⟨u, .refl u, free, rfl, rfl⟩
  have own := (dropQueued_spec n v).2
  rw [runs, own]
  exact ⟨(done.trans agree).trans (dropQueued_wire ..), rfl, silent, keeps.trans kept⟩

/-- A link's own reset (R486). -/
theorem realign_spec (n : Nat) (s : State) : (linkAt (realign n s) n).state = (if (linkAt s n).state = 0 then 0 else 1) ∧
    (realign n s).regs = s.regs ∧ (realign n s).chans = s.chans := by
  unfold realign
  split
  next off => exact ⟨off, rfl, rfl⟩
  next =>
    obtain ⟨reach, -⟩ := leaveData_spec n s
    obtain ⟨v, left⟩ : ∃ v, v = leaveData n s := ⟨_, rfl⟩
    rw [← left] at reach ⊢
    have regs : v.regs = s.regs := reach.frame.field (·.regs)
    have chans : v.chans = s.chans := reach.frame.field (·.chans)
    exact ⟨by rw [linkAt_withLink_same], regs, chans⟩

/-! ### IMAGE restart (R509) -/

theorem muteHeld_keys (s : State) : FMap.keys (muteHeld s).chans = FMap.keys s.chans ∧
    FMap.keys (muteHeld s).fsc.flows = FMap.keys s.fsc.flows ∧ FMap.keys (muteHeld s).qmg.queues = FMap.keys s.qmg.queues := by
  unfold muteHeld
  dsimp only
  exact ⟨FMap.keys_mapV .., FMap.keys_mapV .., FMap.keys_mapV ..⟩

theorem imageRestart_spec (k : Nat) (s : State) : let u := imageRestart k s
    u.avl = { s.avl with standbyReady := false, runSince := if k = 2 then now s else s.avl.runSince } ∧
    FMap.keys u.chans = FMap.keys s.chans ∧ FMap.keys u.fsc.flows = FMap.keys s.fsc.flows ∧
    FMap.keys u.qmg.queues = FMap.keys s.qmg.queues ∧ u.sec = s.sec ∧ Restarted s u := by
  have ends (e : Nat × Ring) (t : State) : HifOnly t (match e.2.held with
      | some h => completeHeld e.1 h St.restarted [1] t
      | none => t) := by
    split
    · exact completeHeld_hifOnly ..
    · exact .refl t
  have answered := HifOnly.foldl (fun t e => ends e t) s.hif.rings s
  generalize hv : List.foldl _ s s.hif.rings = v at answered
  obtain ⟨w, hw⟩ : ∃ w, w = { muteHeld v with
      avl := { (muteHeld v).avl with standbyReady := false, runSince := if k = 2 then now (muteHeld v) else (muteHeld v).avl.runSince } } := ⟨_, rfl⟩
  obtain ⟨b, runs⟩ : ∃ b, imageRestart k s = raise Ev.imageRestart none b w := ⟨_, by rw [hw, ← hv]; rfl⟩
  have only := raise_hifOnly Ev.imageRestart none b w
  intro u
  change (imageRestart k s).avl = _ ∧ FMap.keys (imageRestart k s).chans = _ ∧ FMap.keys (imageRestart k s).fsc.flows = _ ∧
    FMap.keys (imageRestart k s).qmg.queues = _ ∧ (imageRestart k s).sec = _ ∧ Restarted s (imageRestart k s)
  obtain ⟨chans, flows, queues⟩ := muteHeld_keys v
  have whole : Restarted s w := by
    rw [hw, answered.eq]
    rfl
  rw [runs]
  refine ⟨?_, ?_, ?_, ?_, ?_, ?_⟩
  · rw [only.field (·.avl), hw, answered.eq]
    rfl
  · rw [only.field (·.chans), ← answered.field (·.chans), hw]
    exact chans
  · rw [only.field (·.fsc.flows), ← answered.field (·.fsc.flows), hw]
    exact flows
  · rw [only.field (·.qmg.queues), ← answered.field (·.qmg.queues), hw]
    exact queues
  · rw [only.field (·.sec), hw, answered.eq]
    rfl
  · rw [only.eq, whole]
    rfl

end Sys2Proof.Machine
end

section
/-! OBLIGATION. Resets, power states and the junction sensor (O51): the statement. -/

namespace Sys2Proof.Machine

open Sys2Proof

set_option Elab.async false

/-- A POR (R538). -/
theorem porAssert_spec (s : State) : let u := porAssert s
    Survives s u ∧ AllGone u ∧ u.clk = Clock.reset ∧ u.epd = Epd.reset ∧ u.avl.porHeld = true ∧ u.avl.thermTrip = false ∧ u.avl.power = 0 ∧
      u.endp.life = { s.endp.lifeStored with por := s.endp.lifeStored.por + 1 } :=
  ⟨.of_cold s _ _ _ _ rfl rfl _ _ _ _ _ _ _ _ rfl, .of_cold s _ _ _ _ rfl rfl, rfl, rfl, rfl, rfl, rfl, rfl⟩

/-- A PIN reset (R539). -/
theorem pinReset_spec (st : BitVec 4) (s : State) : let u := pinReset st s
    Survives s u ∧ AllGone u ∧ u.clk = Clock.reset ∧ u.epd = Epd.reset ∧ u.avl.straps = st ∧ u.avl.factoryReq = false ∧ u.avl.power = 0 ∧
      u.endp.life = { s.endp.lifeStored with pin := s.endp.lifeStored.pin + 1 } :=
  ⟨.of_cold s _ _ _ _ rfl rfl _ _ _ _ _ _ _ _ rfl, .of_cold s _ _ _ _ rfl rfl, rfl, rfl, rfl, rfl, rfl, rfl⟩

/-- A command that takes effect after its completion is done on a state in which only sessions, rings and counters have moved. -/
theorem finish_written (c : CmdSpec) (h : CmdHdr) (s : State) (st : Nat) (b : Bytes) :
    Agree sansWritten s (finish c h s st b (take h.ring s)) ∧ (finish c h s st b (take h.ring s)).endp = s.endp :=
  ⟨(show Agree sansWritten s (take h.ring s) from rfl).trans ((finish_ends ..).weaken), (finish_ends c h s st b _).field (·.endp)⟩

theorem resetDomain_ready {h : CmdHdr} {s : State} (d o : Nat) (ready : Ready (plainCmd 0x0606 3) h s) :
    (o < domainRange d → exec (.resetDomain h d o) s =
      .next (resetDomain d o (finish (plainCmd 0x0606 3) h s St.ok [] (take h.ring s)))) ∧
    (domainRange d ≤ o → exec (.resetDomain h d o) s = .next (finish (plainCmd 0x0606 3) h s St.badParam [] (take h.ring s))) :=
  ⟨fun inside => answers_then (i := .resetDomain h d o) rfl ready (if_pos inside),
    fun outside => answers_done (i := .resetDomain h d o) rfl ready (if_neg (Nat.not_lt.mpr outside))⟩

/-- What notices lose touches nothing else. -/
theorem resetDomain_notices (d o : Nat) (s : State) : ∃ t, HifOnly s t ∧ resetDomain d o s =
    match d with
    | 0 => resetCluster o t
    | 1 => resetEth o t
    | 2 => resetTdm o t
    | 3 => realign o t
    | _ => t := ⟨_, .of _ _ _, rfl⟩

/-- Media stop (R484). -/
theorem shutdown_spec (h : CmdHdr) {s : State} (ready : Ready (plainCmd 0x0532 3) h s) : Answers (.shutdown h) s (fun u =>
    u.avl.power = 2 ∧ u.chans = [] ∧ u.rtps = [] ∧ u.tps = [] ∧ u.rxcs = [] ∧ u.txcs = [] ∧ u.groups = [] ∧ u.fsc = Fsc.reset ∧ u.vpes = [] ∧
      ∀ n, takeable u n = false) := by
  obtain ⟨v, ended⟩ : ∃ v, v = endMedia (take h.ring s) := ⟨_, rfl⟩
  obtain ⟨u, hu⟩ : ∃ u, u = finish (plainCmd 0x0532 3) h s St.ok [] (storeLife v) := ⟨_, rfl⟩
  have runs : exec (.shutdown h) s = .next { u with avl := { u.avl with power := 2 } } :=
    hu ▸ ended ▸ answers_then (i := .shutdown h) rfl ready rfl
  have field {α : Type} (f : State → α) (same : ∀ w, f (sansWritten w) = f w) : f u = f v :=
    ((storeLife_written v).trans (hu ▸ (finish_ends ..).weaken)).field f same
  have off (n : Nat) : offered { u with avl := { u.avl with power := 2 } } n = false := by
    unfold offered
    split
    · rfl
    · rw [decide_eq_false (show ¬ (2 : Nat) = 0 by decide), Bool.and_false, Bool.false_and]
  refine ⟨_, runs, rfl, ?_, ?_, ?_, ?_, ?_, ?_, ?_, ?_, fun n => ?_⟩
  · exact (field (·.chans) fun _ => rfl).trans (ended ▸ rfl)
  · exact (field (·.rtps) fun _ => rfl).trans (ended ▸ rfl)
  · exact (field (·.tps) fun _ => rfl).trans (ended ▸ rfl)
  · exact (field (·.rxcs) fun _ => rfl).trans (ended ▸ rfl)
  · exact (field (·.txcs) fun _ => rfl).trans (ended ▸ rfl)
  · exact (field (·.groups) fun _ => rfl).trans (ended ▸ rfl)
  · exact (field (·.fsc) fun _ => rfl).trans (ended ▸ rfl)
  · exact (field (·.vpes) fun _ => rfl).trans (ended ▸ rfl)
  · rw [takeable, off, Bool.false_and]

end Sys2Proof.Machine

open Sys2Proof Sys2Proof.Machine in
/-- Settles O51: a reset of the whole device leaves a cold state of the one it is done in, a DOMAIN reset follows its completion, and
an IMAGE restart answers what waits. -/
theorem resetsAndPowerStates : Obligations.ResetsAndPowerStates := by
  unfold Obligations.ResetsAndPowerStates
  intro h s s1
  have done (c : CmdSpec) (st : Nat) : HostOnly s (finish c h s st [] s1) := by
    refine HostOnly.trans ?_ (finish_hostOnly ..)
    rfl
  refine ⟨fun f st off => ?por, fun f st on => congrArg Host.Outcome.next (if_pos on), fun low st off long => ?pin, fun ready => ?soft,
    fun d o ready => ⟨(resetDomain_ready d o ready).1, (resetDomain_ready d o ready).2, fun small => ?eth, fun small => ?tdm, fun small => ?link⟩,
    fun ready => ?image, fun up => ?watchdog, fun ready => ?standby, fun ready => shutdown_spec h ready, fun t up => ?thermal⟩
  case por =>
    have free : (!s.avl.porHeld) = true := by rw [off]; rfl
    exact ⟨porAssert s, congrArg Host.Outcome.next (if_pos free), porAssert_spec s⟩
  case pin =>
    have free : ¬ s.avl.porHeld = true := by rw [off]; decide
    exact ⟨pinReset st s, congrArg Host.Outcome.next ((if_neg free).trans (if_pos long)), pinReset_spec st s⟩
  case soft =>
    obtain ⟨written, endp⟩ := finish_written (plainCmd 0x0606 3) h s St.ok []
    exact ⟨_, answers_then (i := .resetSoft h) rfl ready rfl, softReset_spec written endp⟩
  case eth =>
    obtain ⟨t, only, runs⟩ := resetDomain_notices 1 o (finish (plainCmd 0x0606 3) h s St.ok [] s1)
    have host := (done (plainCmd 0x0606 3) St.ok).trans only.hostOnly
    obtain ⟨agree, fifos, wire, kept⟩ := resetEth_spec o t
    have port : ethPort t o = ethPort s o := host.field (ethPort · o)
    rw [port] at kept
    have whole : resetEth o t = { s with
        hif := (resetEth o t).hif, sec := (resetEth o t).sec, counters := (resetEth o t).counters, eth := (resetEth o t).eth
        figs := (resetEth o t).figs, free := (resetEth o t).free } := by
      refine (agree.frame (fun v => { v with
        hif := (resetEth o t).hif, counters := (resetEth o t).counters, eth := (resetEth o t).eth
        figs := (resetEth o t).figs, free := (resetEth o t).free })).trans ?_
      rw [agree.field (·.sec), host.eq]
    refine ⟨_, (resetDomain_ready 1 o ready).1 small, ?_⟩
    rw [runs]
    exact ⟨fifos, wire, congrArg (·.1) kept, congrArg (·.2.1) kept, congrArg (·.2.2) kept, whole⟩
  case tdm =>
    obtain ⟨t, only, runs⟩ := resetDomain_notices 2 o (finish (plainCmd 0x0606 3) h s St.ok [] s1)
    have host := (done (plainCmd 0x0606 3) St.ok).trans only.hostOnly
    refine ⟨_, (resetDomain_ready 2 o ready).1 small, ?_⟩
    rw [runs]
    change (tdmPort (resetTdm o t) o).txFifo = [] ∧ (tdmPort (resetTdm o t) o).rxSlots = [] ∧ (tdmPort (resetTdm o t) o).rxFifo = [] ∧ _
    rw [resetTdm, tdmPort_withTdm_same]
    refine ⟨rfl, rfl, rfl, ?_⟩
    rw [host.eq]
    rfl
  case link =>
    obtain ⟨t, only, runs⟩ := resetDomain_notices 3 o (finish (plainCmd 0x0606 3) h s St.ok [] s1)
    have host := (done (plainCmd 0x0606 3) St.ok).trans only.hostOnly
    obtain ⟨state, regs, chans⟩ := realign_spec o t
    rw [host.field (linkAt · o)] at state
    refine ⟨_, (resetDomain_ready 3 o ready).1 small, ?_⟩
    rw [runs]
    exact ⟨state, regs.trans (host.field State.regs), chans.trans (host.field State.chans)⟩
  case image =>
    obtain ⟨u, hu⟩ : ∃ u, u = finish (plainCmd 0x0606 3) h s St.ok [] s1 := ⟨_, rfl⟩
    have host : HostOnly s u := hu ▸ done ..
    obtain ⟨avl, chans, flows, queues, -, frame⟩ := imageRestart_spec 1 u
    rw [host.field (·.avl)] at avl
    rw [host.field (·.chans)] at chans
    rw [host.field (·.fsc)] at flows
    rw [host.field (·.qmg)] at queues
    refine ⟨_, answers_then (i := .resetImage h) rfl ready rfl, ?_⟩
    change (imageRestart 1 (finish (plainCmd 0x0606 3) h s St.ok [] s1)).avl = _ ∧ _
    rw [← hu]
    refine ⟨avl, chans, flows, queues, ?_⟩
    unfold Restarted at *
    rw [frame, host.eq]
  case watchdog =>
    obtain ⟨avl, chans, flows, queues, sec, frame⟩ := imageRestart_spec 2 s
    exact ⟨imageRestart 2 s, congrArg Host.Outcome.next (if_pos up), avl, chans, flows, sec, frame⟩
  case standby =>
    obtain ⟨written, endp⟩ := finish_written (plainCmd 0x0531 3) h s St.ok []
    exact ⟨_, answers_then (i := .standbyEnter h) rfl ready rfl, enterStandby_spec written endp⟩
  case thermal => exact ⟨thermalSample t s, congrArg Host.Outcome.next (if_pos up), rfl⟩
end

section
/-! OBLIGATION. Start-up (O52). -/

namespace Sys2Proof.Machine

open Sys2Proof

set_option Elab.async false

/-! ### Slot selection (R496) -/

/-- The availability unit but for what start-up moves before it chooses slots. -/
def Avail.sansChoice (a : Avail) : Avail := { a with stage := 0, cimSlot := 0, mimSlot := 0, afterPor := false, fallbackFlag := false }

/-- The status of a pair depends on keys and images alone. -/
theorem mimStatus_congr {s t : State} (sec : t.sec = s.sec) (avl : t.avl.sansChoice = s.avl.sansChoice) (c n : Nat) :
    mimStatus t c n = mimStatus s c n := by
  have reads (u : State) : mimStatus u c n = mimStatus { State.reset with sec := u.sec, avl := u.avl.sansChoice } c n := rfl
  rw [reads t, reads s, sec, avl]

theorem pickCim_of_ok {s : State} {c : Nat} (ok : cimStatus s c = St.ok) : pickCim s c = some c := if_pos ok

theorem pickCim_of_none {s : State} {c : Nat} (slot : c ≤ 1) (bad0 : cimStatus s 0 ≠ St.ok) (bad1 : cimStatus s 1 ≠ St.ok) :
    pickCim s c = none := by
  have bad (k : Nat) (le : k ≤ 1) : cimStatus s k ≠ St.ok := by
    interval_cases k
    · exact bad0
    · exact bad1
  rw [pickCim, if_neg (bad c slot), if_neg (bad (1 - c) (Nat.sub_le 1 c))]

/-! ### Steps 4 and 5 (R479, R455) -/

theorem loadPort_eth (p : Nat) (c : Config479) (s : State) : Agree (fun u => { u with eth := [] }) s (loadPort p c s) := rfl

theorem loadGains_links (k : Nat) (c : Config479) (s : State) : Agree (fun u => { u with links := [] }) s (loadGains c s k) := rfl

/-- Step 4 without a factory restore. -/
theorem loadConfig_spec {s : State} (f : Bool) (asks : s.avl.factoryReq = false) : ∃ e l, loadConfig f s = { s with
    regs := s.endp.committed.regs, hif := { s.hif with cfgOpen := true }, avl := { s.avl with afterPor := false }, eth := e, links := l } := by
  have plain : ¬ (s.avl.afterPor && s.avl.factoryReq && f) = true := by rw [asks, Bool.and_false, Bool.false_and]; decide
  unfold loadConfig
  dsimp only
  rw [if_neg plain]
  obtain ⟨u, hu⟩ : ∃ u : State, u = { s with
    regs := s.endp.committed.regs, hif := { s.hif with cfgOpen := true }, avl := { s.avl with afterPor := false } } := ⟨_, rfl⟩
  rw [← hu]
  obtain ⟨v, hv⟩ : ∃ v, v = (FMap.keys s.endp.committed.gates ++ FMap.keys s.endp.committed.wake).eraseDups.foldl
    (fun t p => loadPort p s.endp.committed t) u := ⟨_, rfl⟩
  rw [← hv]
  have ports : v = { u with eth := v.eth } :=
    (hv ▸ Agree.foldl (fun t p => loadPort_eth p _ t) _ _ : Agree (fun w => { w with eth := [] }) u v).frame (fun w => { w with eth := v.eth })
  obtain ⟨w, hw⟩ : ∃ w, w = (FMap.keys s.endp.committed.gains).foldl (fun t k => loadGains s.endp.committed t k) v := ⟨_, rfl⟩
  rw [← hw]
  have gains : w = { v with links := w.links } :=
    (hw ▸ Agree.foldl (fun t k => loadGains_links k _ t) _ _ : Agree (fun x => { x with links := [] }) v w).frame (fun x => { x with links := w.links })
  refine ⟨v.eth, w.links, ?_⟩
  rw [gains, ports, hu]

/-- Whether step 5 brings the DRAM up. -/
def dramUp (env : BootEnv) : Bool :=
  (env.density.length = 4 && env.density.all (fun d => d == env.density.headD 0) && [8, 12, 16, 24, 32].contains env.density.sum) &&
    (env.identOk && env.writeReadOk || env.trainOk)

/-- Step 5 reaches the DRAM controller and Endpaper. -/
theorem bringUpDram_spec (env : BootEnv) (s : State) : ∃ d e f, bringUpDram env s = (dramUp env, { s with dmc := d, endp := e, free := f }) ∧
    e.committed = s.endp.committed ∧ (dramUp env = true → d.chOk = 15) := by
  unfold bringUpDram dramUp
  dsimp only
  split
  next bad =>
    rw [Bool.not_eq_true'] at bad
    rw [bad, Bool.false_and]
    exact ⟨_, _, _, rfl, rfl, nofun⟩
  next good =>
    rw [Bool.not_eq_true', Bool.not_eq_false] at good
    rw [good, Bool.true_and]
    split
    next fails =>
      obtain ⟨cached, train⟩ := Bool.and_eq_true_iff.mp fails
      rw [Bool.not_eq_true'] at cached train
      rw [cached, train]
      exact ⟨_, _, _, rfl, rfl, nofun⟩
    next trains =>
      have up : (env.identOk && env.writeReadOk || env.trainOk) = true := by
        cases cached : env.identOk && env.writeReadOk <;> cases train : env.trainOk <;> simp_all
      rw [up]
      obtain ⟨u, hu⟩ : ∃ u, u = if (env.identOk && env.writeReadOk) = true then s else endpWrite (withDmc (fun d => { d with cached := [] }) s) :=
        ⟨_, rfl⟩
      rw [← hu]
      obtain ⟨d, e, f, cached, conf⟩ : ∃ d e f, u = { s with dmc := d, endp := e, free := f } ∧ e.committed = s.endp.committed := by
        rw [hu]
        split
        · exact ⟨_, _, _, rfl, rfl⟩
        · exact ⟨_, _, _, rfl, rfl⟩
      rw [cached]
      split
      · exact ⟨_, _, _, rfl, conf, fun _ => rfl⟩
      · exact ⟨_, _, _, rfl, conf, fun _ => rfl⟩

/-! ### Steps 6 to 8 (R459, R460, R475, R490) -/

theorem bootEvent_hifOnly (c : Nat) (l : List Int) (s : State) : HifOnly s (bootEvent c l s) := (raiseStart_told ..).hifOnly

/-- But for the note of a refused pair and what an event touches. -/
def sansTried (s : State) : State :=
  { s with avl := { s.avl with comboUntested := false }, hif := { Hif.reset with cfgOpen := s.hif.cfgOpen }, counters := [] }

theorem bootEvent_tried (c : Nat) (l : List Int) (s : State) : Agree sansTried s (bootEvent c l s) := by
  change sansTried (bootEvent c l s) = sansTried s
  have told : Told s (bootEvent c l s) := raiseStart_told ..
  rw [told.frame]
  rfl

/-- The slots that the boot record names are no fallback. -/
theorem slotEvents_named (bad : Nat) (l : List (Nat × Nat)) {s : State} : Agree sansTried s (slotEvents s.avl.bootCim s.avl.bootMim bad l s) := by
  have named : (decide (s.avl.bootCim = s.avl.bootCim) && decide (s.avl.bootMim = s.avl.bootMim)) = true := by
    rw [decide_eq_true rfl, decide_eq_true rfl]
    rfl
  unfold slotEvents
  dsimp only
  rw [if_pos named]
  refine .foldl (fun t p => ?_) l s
  split
  · refine .ite ?_ (.refl t)
    exact (show Agree sansTried t { t with avl := { t.avl with comboUntested := true } } from rfl).trans (bootEvent_tried ..)
  · exact .refl t

/-- The Media Image and its user kernels are loaded. -/
theorem loadMedia_spec (n : Nat) (s : State) : ∃ a c, HifOnly { s with avl := { s.avl with userLoaded := a }, code := c } (loadMedia n s) := by
  unfold loadMedia
  split
  · exact ⟨_, _, .refl s⟩
  next i _ =>
    obtain ⟨a, c, only⟩ := reloadUser_spec i 1 { s with code := [(n, codeOf i none)] }
    exact ⟨a, c, only⟩

/-- But for the map, the directory, the spare, what waits for READY, the host interface and the counters. -/
def sansPlaced (s : State) : State :=
  { s with
    qmg := Qmg.reset, bce := State.reset.bce, dmc := { s.dmc with mapRefused := false }, epd := Epd.reset, free := 0, hif := Hif.reset
    counters := [], avl := { s.avl with spare := none, dirClean := false, atReady := [] } }

/-- Step 7 names the spare. -/
theorem placeMemory_spec (ok : Bool) (s : State) : Agree sansPlaced s (placeMemory ok s) ∧
    (placeMemory ok s).avl.spare = if s.avl.retired.isEmpty then some 16 else none := by
  unfold placeMemory
  dsimp only
  generalize hu : withDmc (fun d => { d with mapRefused := mapRefused s }) _ = u
  generalize hv : (if mapRefused s = true then bootEvent _ _ u else u) = v
  have only : HifOnly u v := hv ▸ .ite (bootEvent_hifOnly ..) (.refl u)
  have placed : Agree sansPlaced s u := hu ▸ rfl
  have spare : u.avl.spare = if s.avl.retired.isEmpty then some 16 else none := hu ▸ rfl
  split
  · exact ⟨(placed.trans only.agree).trans rfl, (only.field (·.avl.spare)).trans spare⟩
  · exact ⟨(placed.trans only.agree).trans rfl, (only.field (·.avl.spare)).trans spare⟩

/-- But for registers, links, pairs, the clock, the host interface and the counters. -/
def sansStarted (s : State) : State := { s with regs := [], links := [], prp := [], clk := Clock.reset, free := 0, hif := Hif.reset, counters := [] }

theorem refuse_regs (r : RegName) (i : Nat) (s : State) : Agree sansStarted s (refuse s r i) := by
  unfold refuse
  split
  · exact .refl s
  · rfl

/-- Step 8 leaves registers alone where no link is enabled. -/
theorem startPorts_spec (s : State) : Agree sansStarted s (startPorts s) ∧
    ((∀ n, n < 8 → linkEnabled s n = false) → (startPorts s).regs = s.regs) := by
  unfold startPorts
  dsimp only
  generalize hu : List.foldl _ s (List.range 8) = u
  have links : Agree sansStarted s u := by
    rw [← hu]
    refine .foldl (fun t n => ?_) _ _
    refine .ite (.ite ?_ ?_) (.refl t)
    · obtain ⟨frame, -⟩ := startLink_spec n t
      rw [frame]
      rfl
    · exact (show Agree sansStarted t (putFld t .rlCtrl n 0 0 0) from rfl).trans (refuse_regs ..)
  generalize hv : List.foldl _ u (List.range 16) = v
  have pairs : Agree sansStarted u v ∧ v.regs = u.regs := by
    have agree : Agree (fun w => { w with prp := [] }) u v := by
      rw [← hv]
      refine .foldl (fun t n => ?_) _ _
      exact .ite rfl (.refl t)
    exact ⟨agree.weaken, agree.field (·.regs)⟩
  generalize hw : List.foldl _ v (List.range 192) = w
  have ports : Agree sansStarted v w ∧ w.regs = v.regs := by
    have agree : Agree (fun x => { x with clk := Clock.reset }) v w := by
      rw [← hw]
      refine .foldl (fun t n => ?_) _ _
      exact .ite rfl (.refl t)
    exact ⟨agree.weaken, agree.field (·.regs)⟩
  have refs := updateRefs_refs w
  refine ⟨((links.trans pairs.1).trans ports.1).trans refs.weaken, fun off => ?_⟩
  rw [refs.field (·.regs), ports.2, pairs.2, ← hu]
  have idle (l : List Nat) (small : ∀ n ∈ l, n < 8) : l.foldl (fun t n =>
      if linkEnabled t n then (if linkConfigOk t n then startLink n t else refuse (putFld t .rlCtrl n 0 0 0) .rlCtrl n) else t) s = s := by
    induction l with
    | nil => rfl
    | cons n r ih =>
      rw [List.foldl_cons, if_neg (by rw [off n (small n List.mem_cons_self)]; decide)]
      exact ih fun m mem => small m (List.mem_cons_of_mem n mem)
  exact congrArg State.regs (idle (List.range 8) fun n mem => List.mem_range.mp mem)

end Sys2Proof.Machine
end

section
/-! OBLIGATION. Start-up (O52): its stages and READY. -/

namespace Sys2Proof.Machine

open Sys2Proof

set_option Elab.async false

/-! ### The media of start-up (R492) -/

/-- But for what steps 6 to 8 reach beside the slots that run. -/
def sansMedia (s : State) : State :=
  { s with
    regs := [], links := [], prp := [], clk := Clock.reset, qmg := Qmg.reset, bce := State.reset.bce, epd := Epd.reset, code := [], free := 0
    hif := Hif.reset, counters := [], dmc := { Dmc.reset with chOk := s.dmc.chOk }
    avl := { s.avl with comboUntested := false, userLoaded := none, spare := none, dirClean := false, atReady := [] } }

/-- No Media Image runs beside the Control Image that the boot record names. -/
theorem bootMedia_none (env : BootEnv) (bad : Nat) (l : List (Nat × Nat)) (s : State) : let u := bootMedia env s.avl.bootCim none bad l s
    u.avl.stage = 8 ∧ u.hif.cfgOpen = s.hif.cfgOpen ∧ u.regs = s.regs ∧ u.code = s.code := by
  obtain ⟨t, ht⟩ : ∃ t : State, t = { s with avl := { s.avl with fallbackFlag := false, cimSlot := s.avl.bootCim, mimSlot := s.avl.bootMim } } :=
    ⟨_, rfl⟩
  have tried : Agree sansTried t (slotEvents t.avl.bootCim t.avl.bootMim bad l t) := slotEvents_named ..
  have runs : bootMedia env s.avl.bootCim none bad l s = restartBackoffs (atStage 8 (slotEvents t.avl.bootCim t.avl.bootMim bad l t)) :=
    ht ▸ rfl
  dsimp only
  rw [runs]
  exact ⟨rfl, (tried.field (·.hif.cfgOpen)).trans (ht ▸ rfl), (tried.field (·.regs)).trans (ht ▸ rfl), (tried.field (·.code)).trans (ht ▸ rfl)⟩

/-- The pair that the boot record names runs. -/
theorem bootMedia_named (env : BootEnv) (bad : Nat) (l : List (Nat × Nat)) (s : State) :
    let u := bootMedia env s.avl.bootCim (some s.avl.bootMim) bad l s
    u.avl.stage = 6 ∧ u.avl.cimSlot = s.avl.bootCim ∧ u.avl.mimSlot = s.avl.bootMim ∧ u.avl.fallback = s.avl.fallback ∧
      u.avl.spare = (if s.avl.retired.isEmpty then some 16 else none) ∧ u.dmc.chOk = s.dmc.chOk ∧ u.endp.committed = s.endp.committed ∧
      ((∀ n, n < 8 → linkEnabled s n = false) → u.regs = s.regs) := by
  obtain ⟨t, ht⟩ : ∃ t : State, t = { s with avl := { s.avl with fallbackFlag := false, cimSlot := s.avl.bootCim, mimSlot := s.avl.bootMim } } :=
    ⟨_, rfl⟩
  obtain ⟨v, hv⟩ : ∃ v, v = slotEvents t.avl.bootCim t.avl.bootMim bad l t := ⟨_, rfl⟩
  obtain ⟨w, hw⟩ : ∃ w, w = loadMedia s.avl.bootMim v := ⟨_, rfl⟩
  obtain ⟨x, hx⟩ : ∃ x, x = placeMemory env.headerOk w := ⟨_, rfl⟩
  have tried : Agree sansTried t v := hv ▸ slotEvents_named ..
  obtain ⟨a, c, loaded⟩ := loadMedia_spec s.avl.bootMim v
  obtain ⟨placed, spare⟩ := placeMemory_spec env.headerOk w
  obtain ⟨started, regs⟩ := startPorts_spec x
  rw [← hw] at loaded
  rw [← hx] at placed spare
  have code : Agree sansMedia v w := (show Agree sansMedia v { v with avl := { v.avl with userLoaded := a }, code := c } from rfl).trans loaded.agree
  have media : Agree sansMedia t x := (tried.weaken.trans code).trans placed.weaken
  have whole : Agree sansMedia t (startPorts x) := media.trans started.weaken
  have same : x.regs = s.regs :=
    ((placed.field (·.regs)).trans (loaded.field (·.regs))).trans ((tried.field (·.regs)).trans (ht ▸ rfl))
  have runs : bootMedia env s.avl.bootCim (some s.avl.bootMim) bad l s = atStage 6 (startPorts x) := by
    rw [hx, hw, hv, ht]
    rfl
  dsimp only
  rw [runs]
  refine ⟨rfl, (whole.field (·.avl.cimSlot)).trans (ht ▸ rfl), (whole.field (·.avl.mimSlot)).trans (ht ▸ rfl),
    (whole.field (·.avl.fallback)).trans (ht ▸ rfl), ?_, (whole.field (·.dmc.chOk)).trans (ht ▸ rfl),
    (whole.field (·.endp.committed)).trans (ht ▸ rfl), fun off => ?_⟩
  · refine (started.field (·.avl.spare)).trans (spare.trans ?_)
    rw [code.field (·.avl.retired), tried.field (·.avl.retired), ht]
  · refine (regs fun n small => ?_).trans same
    have reads (y : State) : linkEnabled y n = linkEnabled { State.reset with regs := y.regs } n := rfl
    rw [reads, same, ← reads]
    exact off n small

/-! ### READY (R490, R491) -/

theorem revokeBy_spec (i : Option Image) (s : State) : ∃ r, HifOnly { s with sec := { s.sec with revoked := r } } (revokeBy i s) := by
  unfold revokeBy
  split
  · exact ⟨_, .refl s⟩
  · dsimp only
    split
    · exact ⟨_, .refl s⟩
    · exact ⟨_, bootEvent_hifOnly ..⟩

theorem readyEvents_spec (s : State) : HifOnly { s with avl := { s.avl with atReady := [], wakeInfo := none } } (readyEvents s) := by
  have start : HifOnly { s with avl := { s.avl with atReady := [] } }
      (s.avl.atReady.foldl (fun t e => raiseStart e.1 e.2 t) { s with avl := { s.avl with atReady := [] } }) :=
    .foldl (fun t e => (raiseStart_told ..).hifOnly) _ _
  obtain ⟨u, hu⟩ : ∃ u, u = s.avl.atReady.foldl (fun t e => raiseStart e.1 e.2 t) { s with avl := { s.avl with atReady := [] } } := ⟨_, rfl⟩
  rw [← hu] at start
  have wakes : HifOnly { s with avl := { s.avl with atReady := [], wakeInfo := none } } (match s.avl.wakeInfo with
      | none => u
      | some d => bootEvent Ev.wake (d.map (fun b => (b.toNat : Int))) { u with avl := { u.avl with wakeInfo := none } }) := by
    cases info : s.avl.wakeInfo with
    | none =>
      have same : { s with avl := { s.avl with atReady := [], wakeInfo := none } } = { s with avl := { s.avl with atReady := [] } } := by
        rw [← info]
      rw [same]
      exact start
    | some d =>
      refine HifOnly.trans ?_ (bootEvent_hifOnly ..)
      rw [start.eq]
      exact .of _ _ _
  unfold readyEvents
  rw [← hu]
  exact HifOnly.ite ((HifOnly.ite (wakes.trans (bootEvent_hifOnly ..)) wakes).trans (bootEvent_hifOnly ..))
    (.ite (wakes.trans (bootEvent_hifOnly ..)) wakes)

/-- Without a fallback that is asked for, the boot record names the Control Image. -/
theorem startUp_named {s : State} (plain : s.avl.fallbackFlag = false) :
    (if s.avl.fallbackFlag = true then (s.avl.knownGood.getD (s.avl.bootCim, s.avl.bootMim)).1 else s.avl.bootCim) = s.avl.bootCim :=
  if_neg (by rw [plain]; decide)

/-- The state in which step 5 has ended: the committed configuration is loaded and the DRAM has been tried. -/
def Loaded (s u : State) : Prop :=
  ∃ e l d n f, u = { s with
    regs := s.endp.committed.regs, hif := { s.hif with cfgOpen := true }, avl := { s.avl with cimSlot := s.avl.bootCim, afterPor := false }
    eth := e, links := l, dmc := d, endp := n, free := f } ∧ n.committed = s.endp.committed

/-- Start-up whose Control Image is the one that the boot record names (R490). -/
theorem startUp_spec {env : BootEnv} {s : State} (plain : s.avl.fallbackFlag = false) (good : cimStatus s s.avl.bootCim = St.ok)
    (asks : s.avl.factoryReq = false) : ∃ u, Loaded s u ∧ (dramUp env = true → u.dmc.chOk = 15) ∧
      startUp env s = if dramUp env then bootChoose env s.avl.bootCim St.ok u
        else restartBackoffs (atStage 10 (slotEvents u.avl.bootCim u.avl.bootMim St.ok [] u)) := by
  obtain ⟨e, l, loaded⟩ := loadConfig_spec (s := { s with avl := { s.avl with cimSlot := s.avl.bootCim } }) env.factoryLow asks
  obtain ⟨d, n, f, brought, conf, ok⟩ := bringUpDram_spec env
    (loadConfig env.factoryLow { s with avl := { s.avl with cimSlot := s.avl.bootCim } })
  have slot : s.avl.bootCim = s.avl.bootCim := rfl
  unfold startUp
  dsimp only
  rw [startUp_named plain, pickCim_of_ok good]
  dsimp only
  rw [brought, good]
  rw [loaded] at conf ⊢
  exact ⟨_, ⟨e, l, d, n, f, rfl, conf⟩, ok, rfl⟩

/-- Step 6 with the pair that the boot record names (R496). -/
theorem bootChoose_spec {env : BootEnv} {s : State} (plain : s.avl.fallbackFlag = false) :
    (mimStatus s s.avl.bootCim s.avl.bootMim = St.ok → ∃ bad l, bootChoose env s.avl.bootCim St.ok s =
      bootMedia env s.avl.bootCim (some s.avl.bootMim) bad l s) ∧
    (mimStatus s s.avl.bootCim s.avl.bootMim ≠ St.ok → s.avl.knownGood = none → ∃ bad l, bootChoose env s.avl.bootCim St.ok s =
      bootMedia env s.avl.bootCim none bad l s) := by
  have named (k : Nat × Nat) : (if s.avl.fallbackFlag = true then k.2 else s.avl.bootMim) = s.avl.bootMim := if_neg (by rw [plain]; decide)
  unfold bootChoose
  dsimp only
  rw [named]
  refine ⟨fun good => ?_, fun bad alone => ?_⟩
  · have picks : pickMim s s.avl.bootCim s.avl.bootMim s.avl.fallbackFlag = some (some s.avl.bootMim) := if_pos good
    rw [picks]
    exact ⟨_, _, rfl⟩
  · have picks : pickMim s s.avl.bootCim s.avl.bootMim s.avl.fallbackFlag = none := by rw [pickMim, if_neg bad, alone]
    rw [picks]
    exact ⟨_, _, rfl⟩

/-- Start-up from the Control Image that the boot record names, by what fails first (R492). -/
theorem startUp_cases {env : BootEnv} {s : State} (plain : s.avl.fallbackFlag = false) (good : cimStatus s s.avl.bootCim = St.ok)
    (asks : s.avl.factoryReq = false) : ∃ u, startUp env s = u ∧
      ((bringUpDram env s).1 = false → u.avl.stage = 10 ∧ u.hif.cfgOpen = true ∧ u.regs = s.endp.committed.regs ∧
        u.endp.committed = s.endp.committed ∧ u.chans = s.chans) ∧
      ((bringUpDram env s).1 = true → s.avl.knownGood = none → mimStatus s s.avl.bootCim s.avl.bootMim ≠ St.ok →
        u.avl.stage = 8 ∧ u.hif.cfgOpen = true ∧ u.regs = s.endp.committed.regs ∧ u.code = s.code) ∧
      ((bringUpDram env s).1 = true → mimStatus s s.avl.bootCim s.avl.bootMim = St.ok →
        u.avl.stage = 6 ∧ u.avl.cimSlot = s.avl.bootCim ∧ u.avl.mimSlot = s.avl.bootMim ∧
          u.avl.fallback = s.avl.fallback ∧ u.avl.spare = (if s.avl.retired.isEmpty then some 16 else none) ∧
          u.dmc.chOk = 15 ∧ u.endp.committed = s.endp.committed ∧
          ((∀ n, n < 8 → linkEnabled { s with regs := s.endp.committed.regs } n = false) → u.regs = s.endp.committed.regs)) := by
  obtain ⟨_, _, _, brought, -⟩ := bringUpDram_spec env s
  obtain ⟨v, ⟨e, l, d, n, f, loaded, conf⟩, ok, runs⟩ := startUp_spec (env := env) plain good asks
  have same (c m : Nat) : mimStatus v c m = mimStatus s c m := mimStatus_congr (by rw [loaded]) (by rw [loaded]; rfl) c m
  have committed : v.endp.committed = s.endp.committed := by rw [loaded]; exact conf
  have regs : v.regs = s.endp.committed.regs := by rw [loaded]
  have cim : v.avl.bootCim = s.avl.bootCim := by rw [loaded]
  have mim : v.avl.bootMim = s.avl.bootMim := by rw [loaded]
  have open_ : v.hif.cfgOpen = true := by rw [loaded]
  obtain ⟨fits, halts⟩ := bootChoose_spec (env := env) (s := v) (by rw [loaded]; exact plain)
  rw [cim, mim, same] at fits halts
  rw [brought]
  refine ⟨_, runs, fun down => ?_, fun up alone bad => ?_, fun up fit => ?_⟩
  · rw [show dramUp env = false from down, if_neg (by decide)]
    have tried : Agree sansTried v (slotEvents v.avl.bootCim v.avl.bootMim St.ok [] v) := slotEvents_named ..
    refine ⟨rfl, (tried.field (·.hif.cfgOpen)).trans open_, (tried.field (·.regs)).trans regs, (tried.field (·.endp.committed)).trans committed,
      (tried.field (·.chans)).trans ?_⟩
    rw [loaded]
  · rw [show dramUp env = true from up, if_pos rfl]
    obtain ⟨b, tries, chosen⟩ := halts bad (by rw [loaded]; exact alone)
    obtain ⟨stage, shown, kept, code⟩ := bootMedia_none env b tries v
    rw [cim] at stage shown kept code
    rw [chosen]
    refine ⟨stage, shown.trans open_, kept.trans regs, code.trans ?_⟩
    rw [loaded]
  · rw [show dramUp env = true from up, if_pos rfl]
    obtain ⟨b, tries, chosen⟩ := fits fit
    obtain ⟨stage, slotC, slotM, back, spare, channels, epoch, kept⟩ := bootMedia_named env b tries v
    rw [cim, mim] at stage slotC slotM back spare channels epoch kept
    rw [chosen]
    refine ⟨stage, slotC, slotM, back.trans ?_, spare.trans ?_, channels.trans (ok up), epoch.trans committed, fun off => (kept fun k small => ?_).trans regs⟩
    · rw [loaded]
    · rw [loaded]
    · have reads (y : State) : linkEnabled y k = linkEnabled { State.reset with regs := y.regs } k := rfl
      rw [reads, regs, ← reads { s with regs := s.endp.committed.regs }]
      exact off k small

/-- READY (R490). -/
theorem ready_spec (s : State) : let u := ready s
    u = { s with avl := u.avl, avs := { s.avs with run := true }, sec := u.sec, hif := u.hif, counters := u.counters } ∧
      u.avl = { s.avl with stage := 7, runSince := now s, rotateAt := now s, atReady := [], wakeInfo := none } ∧
      u.sec = { s.sec with backoff := u.sec.backoff, revoked := u.sec.revoked } := by
  obtain ⟨v, hv⟩ : ∃ v, v = restartBackoffs { s with
    avl := { s.avl with stage := 7, runSince := now s, rotateAt := now s }, avs := { s.avs with run := true } } := ⟨_, rfl⟩
  obtain ⟨r, first⟩ := revokeBy_spec (runCim v) v
  obtain ⟨k, second⟩ := revokeBy_spec (runMim v) (revokeBy (runCim v) v)
  have told := readyEvents_spec (revokeBy (runMim v) (revokeBy (runCim v) v))
  have runs : ready s = readyEvents (revokeBy (runMim v) (revokeBy (runCim v) v)) := hv ▸ rfl
  obtain ⟨w, hw⟩ : ∃ w, w = readyEvents (revokeBy (runMim v) (revokeBy (runCim v) v)) := ⟨_, rfl⟩
  rw [← hw] at told
  have whole : HifOnly { v with sec := { v.sec with revoked := k }, avl := { v.avl with atReady := [], wakeInfo := none } } w := by
    rw [second.eq, first.eq] at told
    exact HifOnly.trans (.of _ _ _) told
  dsimp only
  rw [runs, ← hw, whole.eq, hv]
  exact ⟨rfl, rfl, rfl⟩

end Sys2Proof.Machine

open Sys2Proof Sys2Proof.Machine in
/-- Settles O52: the choice of slots by the statuses of their images, each step of start-up by what it reaches, and READY by its events. -/
theorem startUpReachesItsStages : Obligations.StartUpReachesItsStages := by
  unfold Obligations.StartUpReachesItsStages
  intro s env
  refine ⟨fun idle free power => ⟨fun bad0 bad1 slot plain => ?recovery, fun plain good asks => ?boots⟩, fun t up stage power => ?ready,
    fun img up stage => ?load⟩
  case recovery =>
    have starts : (decide (s.avl.stage = 0) && !s.avl.porHeld && decide (s.avl.power = 0)) = true := by
      rw [decide_eq_true idle, free, decide_eq_true power]; rfl
    refine congrArg Host.Outcome.next ((if_pos starts).trans ?_)
    unfold startUp
    dsimp only
    rw [startUp_named plain, pickCim_of_none slot bad0 bad1] <;> rfl
  case boots =>
    have starts : (decide (s.avl.stage = 0) && !s.avl.porHeld && decide (s.avl.power = 0)) = true := by
      rw [decide_eq_true idle, free, decide_eq_true power]; rfl
    obtain ⟨u, runs, fails, halts, goes⟩ := startUp_cases (env := env) plain good asks
    have begins : exec (.startUp env) s = .next u := congrArg Host.Outcome.next ((if_pos starts).trans runs)
    exact ⟨fun down => ⟨u, begins, fails down⟩, fun up alone bad => ⟨u, begins, halts up alone bad⟩, fun up fits => ⟨u, begins, goes up fits⟩⟩
  case ready =>
    have starts : (decide ((advance t s).avl.stage = 6) && alive (advance t s) && decide ((advance t s).avl.power = 0)) = true := by
      rw [show (advance t s).avl.stage = 6 from stage, show alive (advance t s) = true from up, show (advance t s).avl.power = 0 from power]
      rfl
    exact ⟨ready (advance t s), congrArg Host.Outcome.next (if_pos starts), ready_spec (advance t s)⟩
  case load =>
    have starts : (alive s && decide (s.avl.stage = 9)) = true := by rw [up, decide_eq_true stage]; rfl
    refine ⟨fun e bad => ?_, fun i good => ?_⟩
    · refine congrArg Host.Outcome.next ((if_pos starts).trans ?_)
      unfold recoveryLoad
      rw [bad]
    · refine congrArg Host.Outcome.next ((if_pos starts).trans ?_)
      unfold recoveryLoad
      rw [good]
end

section
/-! SUPPORT. An op on its VPE: what the start of a frame and the load of an op leave of the VPEs (R97, R216, R257, R258). -/

namespace Sys2Proof.Machine

open Sys2Proof

set_option Elab.async false

/-! ### The start of a frame reaches channels, contexts, groups and flows -/

/-- But for what the start of a frame reaches: channels, contexts, groups, flows, figures, the host interface and the counters. -/
def sansPlay (s : State) : State :=
  { s with chans := [], rtps := [], groups := [], fsc := Fsc.reset, figs := [], hif := Hif.reset, counters := [] }

theorem HifOnly.play {s t : State} (only : HifOnly s t) : Agree sansPlay s t := only.agree fun _ _ _ => rfl

theorem withRtp_play (c : Nat) (f : Rtp → Rtp) (s : State) : Agree sansPlay s (withRtp c f s) := rfl

theorem withChan_play (n : Nat) (f : Chan → Chan) (s : State) : Agree sansPlay s (withChan n f s) := rfl

theorem withFsc_play (f : Fsc → Fsc) (s : State) : Agree sansPlay s (withFsc f s) := rfl

theorem withFlow_play (n : Nat) (f : Flow → Flow) (s : State) : Agree sansPlay s (withFlow n f s) := rfl

theorem withOp_play (f i d : Nat) (g : Op → Op) (s : State) : Agree sansPlay s (withOp f i d g s) := rfl

theorem lastFrame_play (n : Nat) (g : VFrame → VFrame) (s : State) : Agree sansPlay s (lastFrame n g s) := rfl

theorem keepHigh_play (f : Fig) (v : Nat) (s : State) : Agree sansPlay s (keepHigh f v s) := by
  rw [keepHigh_frame]
  rfl

theorem closeWindows_play (c : Nat) (s : State) : Agree sansPlay s (closeWindows c s) := by
  unfold closeWindows
  split
  · exact .refl s
  · exact .trans (withRtp_play c _ s) (bumpN_hifOnly ..).play

theorem openWindow_play (c k : Nat) (snap : Decoder) (s : State) : Agree sansPlay s (openWindow c k snap s) := by
  unfold openWindow
  split
  · exact .refl s
  · split
    · exact .ite rfl (.refl s)
    · exact .refl s

theorem judgeWindows_play (c n k : Nat) (s : State) : Agree sansPlay s (judgeWindows c n k s) := by
  unfold judgeWindows
  split
  · exact .refl s
  next x _ =>
    refine .trans (.trans (.trans (.ite ?_ (.refl s)) (bumpN_hifOnly ..).play) (bumpN_hifOnly ..).play) rfl
    exact .trans ((bump_hifOnly .specDiscardClass 1 s).trans (bump_hifOnly .specDiscard n _)).play rfl

theorem playPiece_play (n : Nat) (it : Playout) (s : State) : Agree sansPlay s (playPiece n it s).2 := by
  unfold playPiece
  split
  · exact .refl s
  · split
    · exact .refl s
    · rfl

theorem decideFrame_play (c n k : Nat) (t : Ns) (s : State) : Agree sansPlay s (decideFrame c n k t s).2 := by
  unfold decideFrame
  split
  · split
    · exact .refl s
    · refine .trans (.trans ?_ (withRtp_play ..)) (playPiece_play ..)
      split
      · rfl
      · exact (bump_hifOnly ..).play
      · exact .trans (bump_hifOnly ..).play (openWindow_play ..)
      · exact .refl s
  · exact .refl s

theorem shrinkFrame_play (c n k : Nat) (t : Ns) (got : List Int) (s : State) :
    Agree sansPlay s (shrinkFrame c n k t got s).2 := by
  unfold shrinkFrame
  split
  · exact .ite_snd (.trans (.trans (withRtp_play c _ s) (bump_hifOnly ..).play) (decideFrame_play ..)) (.refl s)
  · exact .refl s

theorem playCodec_play (c n k need : Nat) (t : Ns) (s : State) : Agree sansPlay s (playCodec c n k need t s).2 := by
  unfold playCodec
  split
  · exact .refl s
  next x _ =>
    have first : Agree sansPlay s (if (moveDue s x).1 && x.delay + 10 ≤ (moveDue s x).2 && x.delay + 10 ≤ x.p.jbMax then
        playPiece n .growth (bump .jbGrow n (withRtp c (fun y =>
          { shiftFrames y true with delay := y.delay + 10, lastMove := s.clk.tick }) s))
        else shrinkFrame c n k t (decideFrame c n k t s).1 (decideFrame c n k t s).2).2 :=
      .ite_snd (.trans (.trans (withRtp_play c _ s) (bump_hifOnly ..).play) (playPiece_play ..))
        (.trans (decideFrame_play ..) (shrinkFrame_play ..))
    exact .ite_snd rfl (.ite_snd first (.trans (.trans first (withRtp_play ..)) (decideFrame_play ..)))

theorem pttPiece_play (n k : Nat) (s : State) : Agree sansPlay s (pttPiece n k s).2 := by
  unfold pttPiece
  split
  · exact .refl s
  next ch _ =>
    split
    · exact playPiece_play ..
    next g _ =>
      have taken : Agree sansPlay s
          { s with groups := FMap.set s.groups ch.p.pktRef { g with frames := g.frames.filter (fun e => decide (k < e.1)) } } := rfl
      dsimp only
      split
      · exact .trans taken (playPiece_play ..)
      · exact .ite_snd (.trans (.trans taken (bump_hifOnly ..).play) (playPiece_play ..)) (.trans taken (playPiece_play ..))

theorem decidePlay_play (n : Nat) (s : State) : Agree sansPlay s (decidePlay n s) := by
  unfold decidePlay
  split
  · exact .refl s
  next ch _ =>
    split
    · exact .refl s
    next f _ =>
      refine .ite (.refl s) (.trans (.trans (t := lastFrame n (fun g => { g with before := some (ch.dec, ch.fdcRecv) }) s)
        rfl (.ite_snd ?_ (pttPiece_play ..))) rfl)
      split
      · exact .trans (judgeWindows_play ..) (playCodec_play ..)
      · exact playPiece_play ..

theorem applyParams_play (n : Nat) (q : ChanParams) (s : State) : Agree sansPlay s (applyParams n q s) := by
  unfold applyParams
  split
  · exact .refl s
  · exact .trans (.ite (.trans (withChan_play n _ s) (closeWindows_play ..)) (withChan_play ..)) (withFlow_play ..)

theorem applyVbd_play (n : Nat) (s : State) : Agree sansPlay s (applyVbd n s) := by
  unfold applyVbd
  split
  · exact .refl s
  · exact .ite (.refl s) (.ite (.trans (withChan_play n _ s) (closeWindows_play ..)) rfl)

theorem beginFrame_play (n k : Nat) (decided : Bool) (s : State) : Agree sansPlay s (beginFrame n k decided s) := by
  unfold beginFrame
  split
  · exact .refl s
  · rfl

theorem passFrames_play (n k : Nat) (s : State) : Agree sansPlay s (passFrames n k s) := by
  unfold passFrames
  split
  · exact .foldl (fun t i => beginFrame_play n i true t) _ s
  · exact .refl s

theorem decodeStart_play (n k : Nat) (s : State) : Agree sansPlay s (decodeStart n k s) := by
  have changed : Agree sansPlay s (match (FMap.get? (passFrames n k s).chans n).bind (·.next) with
      | some q => applyParams n q (passFrames n k s) | none => passFrames n k s) := by
    split
    · exact .trans (passFrames_play ..) (applyParams_play ..)
    · exact passFrames_play ..
  have begun := (changed.trans (applyVbd_play n _)).trans (beginFrame_play n k false _)
  exact .ite (begun.trans (decidePlay_play ..)) begun

theorem pressure_play (s : State) : Agree sansPlay s (pressure s) :=
  have kept : Agree sansPlay s (withFsc (fun c => { c with pressed := 3840 ≤ inFlight s || 253952 ≤ readyEntries s })
      (keepHigh .fscSlots (slotsUsed s) (keepHigh .fscReady (readyEntries s) (keepHigh .fscFlight (inFlight s) s)))) :=
    .trans (.trans (.trans (keepHigh_play ..) (keepHigh_play ..)) (keepHigh_play ..)) (withFsc_play ..)
  .ite (kept.trans (crossed_hifOnly ..).play) (kept.trans (noticeLive_hifOnly ..).play)

/-! ### An op found in its flow -/

theorem flow?_withFlow_same (f : Nat) (g : Flow → Flow) (s : State) : flow? (withFlow f g s) f = (flow? s f).map g :=
  FMap.get?_adj_same ..

theorem num_of_inst? {fl : Flow} {i : Nat} {x : Inst} (found : fl.inst? i = some x) : x.num = i := by
  unfold Flow.inst? at found
  simpa using List.find?_some found

theorem node_of_op? {x : Inst} {d : Nat} {o : Op} (found : x.op? d = some o) : o.node = d := by
  unfold Inst.op? at found
  simpa using List.find?_some found

/-- An op is found by its flow, its number and its node. -/
theorem opAt_eq_some {s : State} {f i d : Nat} {o : Op} :
    opAt s f i d = some o ↔ ∃ fl x, flow? s f = some fl ∧ fl.inst? i = some x ∧ x.op? d = some o := by
  simp only [opAt, Option.bind_eq_some_iff]
  constructor
  · rintro ⟨fl, held, x, inst, op⟩
    exact ⟨fl, x, held, inst, op⟩
  · rintro ⟨fl, x, held, inst, op⟩
    exact ⟨fl, held, x, inst, op⟩

theorem opAt_withFlow {f i d : Nat} {g : Flow → Flow} (s : State) (insts : ∀ fl, (g fl).insts = fl.insts) :
    opAt (withFlow f g s) f i d = opAt s f i d := by
  rw [opAt, flow?_withFlow_same, opAt]
  cases flow? s f with
  | none => rfl
  | some fl =>
    change ((g fl).insts.find? _).bind _ = _
    rw [insts]
    rfl

theorem inst?_withOps {fl : Flow} {i d : Nat} (g : Op → Op) :
    Flow.inst? { fl with insts := fl.insts.map (fun x => if x.num = i then
      { x with ops := x.ops.map (fun o => if o.node = d then g o else o) } else x) } i =
    (fl.inst? i).map (fun x => { x with ops := x.ops.map (fun o => if o.node = d then g o else o) }) := by
  unfold Flow.inst?
  have same : (fun y : Inst => y.num == i) ∘ (fun x : Inst => if x.num = i then
      { x with ops := x.ops.map (fun o => if o.node = d then g o else o) } else x) = fun x => x.num == i := by
    funext x
    dsimp only [Function.comp_apply]
    split <;> rfl
  rw [List.find?_map, same]
  cases found : fl.insts.find? (fun x => x.num == i) with
  | none => rfl
  | some x => exact congrArg some (if_pos (num_of_inst? found))

/-- A change of an op that keeps its node leaves it in its place. -/
theorem opAt_withOp {f i d : Nat} {g : Op → Op} {s : State} {o : Op} (node : ∀ o, (g o).node = o.node)
    (at_ : opAt s f i d = some o) : opAt (withOp f i d g s) f i d = some (g o) := by
  obtain ⟨fl, x, held, inst, op⟩ := opAt_eq_some.mp at_
  refine opAt_eq_some.mpr ⟨_, _, (flow?_withFlow_same ..).trans (congrArg _ held),
    (inst?_withOps g).trans (congrArg _ inst), ?_⟩
  have same : (fun o : Op => o.node == d) ∘ (fun o : Op => if o.node = d then g o else o) = fun o => o.node == d := by
    funext o
    dsimp only [Function.comp_apply]
    split
    · rw [node]
    · rfl
  unfold Inst.op? at op ⊢
  rw [List.find?_map, same, op]
  exact congrArg some (if_pos (node_of_op? op))

theorem pullItem_fsc (n i : Nat) (s : State) : (pullItem n i s).fsc = s.fsc :=
  (pullItem_coreReach n i s).agree.field (·.fsc) fun _ => rfl

theorem opAt_congr {s t : State} (fsc : t.fsc = s.fsc) (f i d : Nat) : opAt t f i d = opAt s f i d := by
  rw [opAt, flow?, fsc]
  rfl

/-- The op that takes its item stays in its place. -/
theorem opAt_takeFor {s : State} {f i d : Nat} {o : Op} (at_ : opAt s f i d = some o) :
    ∃ p, opAt (takeFor f i d s) f i d = some p := by
  unfold takeFor
  split
  next fl o' _ _ =>
    dsimp only
    split
    · exact ⟨o, at_⟩
    · split
      · exact ⟨o, at_⟩
      · exact ⟨_, opAt_withOp (fun _ => rfl) ((opAt_congr (pullItem_fsc ..) f i d).trans at_)⟩
  · exact ⟨o, at_⟩

/-! ### A loaded VPE holds its op (R258) -/

theorem vpeAt_putVpe (n : Nat) (w : Vpe) (s : State) : vpeAt (putVpe n w s) n = w := by
  simp [vpeAt, FMap.getD]

theorem loadVpe_op (old : Vpe) (k : Kernel) (w tick f i d word : Nat) (inputs : List (Option Bytes)) (lines : List (BitVec 72)) :
    (loadVpe old k w tick f i d word inputs lines).op = some (f, i, d) := by
  unfold loadVpe
  dsimp only
  split <;> rfl

theorem startVpe_op (n f : Nat) (fl : Flow) (x : Inst) (o : Op) (s : State) :
    (vpeAt (startVpe n f fl x o s) n).op = some (f, x.num, o.node) := by
  unfold startVpe
  dsimp only
  split
  · split
    · rw [vpeAt_putVpe, loadVpe_op]
    · rw [vpeAt_putVpe]
  · rw [vpeAt_putVpe]

theorem countDispatch_hifOnly (n : Nat) (fl : Flow) (spec : Bool) (s : State) : HifOnly s (countDispatch n fl spec s) := by
  have counted : HifOnly s (bump .fscDispatch fl.cls (bumpN .fscSpecDispatch fl.cls 0 (b2n spec) s)) :=
    (bumpN_hifOnly ..).trans (bump_hifOnly ..)
  exact .ite counted (.ite (counted.trans (bump_hifOnly ..)) (counted.trans (bump_hifOnly ..)))

/-- A VPE that takes an op holds it. -/
theorem dispatch_op {n f i d : Nat} {s : State} {o : Op} (at_ : opAt s f i d = some o) :
    (vpeAt (dispatch n f i d s) n).op = some (f, i, d) := by
  obtain ⟨fl, x, held, inst, op⟩ := opAt_eq_some.mp at_
  have counted : opAt (countDispatch n fl (o.open_ (fl.node d)) s) f i d = some o :=
    (opAt_congr ((countDispatch_hifOnly ..).field (·.fsc) fun _ _ => rfl) f i d).trans at_
  obtain ⟨p, taken⟩ := opAt_takeFor counted
  obtain ⟨s2, hs2⟩ : ∃ s2, s2 = withFlow f (fun g => { g with homeVpe := n, cluster := n / 16 })
      (takeFor f i d (countDispatch n fl (o.open_ (fl.node d)) s)) := ⟨_, rfl⟩
  have moved : opAt s2 f i d = some p := by
    rw [hs2, opAt_withFlow _ (by exact fun _ => rfl), taken]
  obtain ⟨g, y, held2, inst2, op2⟩ := opAt_eq_some.mp moved
  have there : ((flow? s2 f).bind fun g => (g.inst? i).bind fun x => (x.op? d).map fun p => (g, x, p)) = some (g, y, p) := by
    simp [held2, inst2, op2]
  unfold dispatch
  rw [held, at_]
  dsimp only
  rw [← hs2, there]
  dsimp only
  obtain ⟨s3, hs3⟩ : ∃ s3, s3 = startVpe n f g y p s2 := ⟨_, rfl⟩
  have loaded : (vpeAt s3 n).op = some (f, i, d) := by
    rw [hs3, startVpe_op, num_of_inst? inst2, node_of_op? op2]
  have same {t : State} (agree : Agree sansPlay s3 t) : (vpeAt t n).op = some (f, i, d) :=
    (agree.field (fun u => (vpeAt u n).op) fun _ => rfl).trans loaded
  rw [← hs3]
  exact same (.trans (.ite (.trans (withOp_play ..) (decodeStart_play ..)) (withOp_play ..)) (pressure_play _))

/-- Settles O19: an op that is found stays in its flow until the VPE is loaded with it, and what follows leaves the VPEs. -/
theorem dispatchLoadsTheVpe : Obligations.DispatchLoadsTheVpe := by
  unfold Obligations.DispatchLoadsTheVpe
  refine fun s n f i d => ⟨fun o up free best at_ => ⟨_, ?runs, rfl, dispatch_op at_⟩,
    fun t o up free steals at_ => ⟨_, ?thief, rfl, dispatch_op (o := o) ?found⟩⟩
  case runs =>
    have go : (alive s && vpeFree (roundIf s) n && bestFor (roundIf s) n f i d) = true := by rw [up, free, best]; rfl
    exact congrArg Host.Outcome.next (if_pos go)
  case thief =>
    change execStealAgeExpiry n t s = _
    have go : (alive (roundIf (advance t s)) && vpeFree (roundIf (advance t s)) n) = true := by rw [up, free]; rfl
    rw [execStealAgeExpiry, steals]
    exact congrArg Host.Outcome.next (if_pos go)
  case found => exact (opAt_congr ((bump_hifOnly ..).field (·.fsc) fun _ _ => rfl) f i d).trans at_

end Sys2Proof.Machine
end

section
/-! OBLIGATION. Rounds, deadlines and ticks (O20): what a tick leaves of the timeline, and the statement. -/

namespace Sys2Proof.Machine

open Sys2Proof

set_option Elab.async false

/-! ### The timeline (R35, R38, R380) -/

/-- The clock but for its references, and nothing else. -/
def timeline (s : State) : State := { State.reset with clk := s.clk.sansRefs }

theorem HifOnly.timeline {s t : State} (only : HifOnly s t) : Agree timeline s t := only.agree fun _ _ _ => rfl

theorem tickRefs_timeline (s : State) : Agree timeline s (tickRefs s) := by
  have settled : Agree timeline s (settleRefs s) := (settleRefs_refs s).weaken fun _ => rfl
  exact .ite settled (settled.trans ((updateRefs_refs _).weaken fun _ => rfl))

theorem wireDone_timeline (n : Nat) (t : Ns) (s : State) : Agree timeline s (wireDone n t s) :=
  (wireDone_wire n t s).weaken fun _ => rfl

theorem takeFrames_timeline (n : Nat) (s : State) : Agree timeline s (takeFrames n s) := .ite (.refl s) rfl

theorem offerInst_timeline (f num due : Nat) (s : State) : Agree timeline s (offerInst f num due s) := by
  unfold offerInst
  split
  · exact .refl s
  next fl _ =>
    have waits : Agree timeline s (withFlow f (fun g => { g with stalled := g.stalled ++ [(num, due)] }) s) := rfl
    exact .ite rfl (.ite (waits.trans (bump_hifOnly ..).timeline) (waits.trans (bump_hifOnly ..).timeline))

theorem issueDue_timeline (e : Nat × Nat × Nat) (s : State) : Agree timeline s (issueDue e s) := by
  unfold issueDue
  split
  · exact .refl s
  · refine .trans ?_ (offerInst_timeline ..)
    exact .ite (.refl s) rfl

theorem issueTick_timeline (t : Nat) (s : State) : Agree timeline s (issueTick t s) :=
  .trans (t := withFsc (fun c => { c with delay := c.delay.filter (fun e => !(e.1 ≤ t)) }) s) rfl
    (.foldl (fun u e => issueDue_timeline e u) _ _)

theorem stopChannels_timeline (s : State) : Agree timeline s (stopChannels s) := by
  unfold stopChannels
  refine .foldl (fun t e => ?_) _ s
  split
  · rfl
  · exact .refl t

theorem closeWindow_timeline (s : State) (c : Nat) : Agree timeline s (closeWindow s c) := by
  unfold closeWindow
  dsimp only
  split
  · refine .trans ?_ (noticeLive_hifOnly ..).timeline
    rfl
  · split
    · refine .trans ?_ (crossed_hifOnly ..).timeline
      rfl
    · refine .trans ?_ (noticeLive_hifOnly ..).timeline
      rfl

/-- The state in which a tick leaves the clock, before it settles the references. -/
def ticked (s : State) : State :=
  slewTick (shiftGates ((nextTickAt s : Int) - ((s.clk.tickAt + tickNs s : Nat) : Int)) { s with
    clk := { s.clk with tick := s.clk.tick + 1, tickAt := nextTickAt s, localNs := max s.clk.localNs (nextTickAt s) } })

/-- With nothing presented, a tick leaves the timeline as its edge has moved it, and every pace-monitor window closed. -/
theorem runTick_timeline {s : State} (quiet : s.fsc.presented = []) :
    Agree timeline (ticked s) (runTick s) ∧ (runTick s).fsc.pace = [] := by
  have calm : roundIf s = s := if_neg (by rw [roundDue, quiet]; decide)
  unfold runTick
  rw [calm]
  dsimp only
  rw [← ticked]
  have settled := tickRefs_timeline (ticked s)
  generalize tickRefs (ticked s) = s3 at settled ⊢
  refine ⟨?_, rfl⟩
  have sent := settled.trans (.foldl (fun t p => wireDone_timeline p (now t) t) (FMap.keys s3.eth) s3)
  generalize (FMap.keys s3.eth).foldl (fun t p => wireDone p (now t) t) s3 = s4 at sent ⊢
  have fed := sent.trans (.foldl (fun t p => takeFrames_timeline p t) (FMap.keys s4.tdm) s4)
  generalize (FMap.keys s4.tdm).foldl (fun t p => takeFrames p t) s4 = s5 at fed ⊢
  have issued := fed.trans (.ite (c := s.twin.role = 1) (.refl s5)
    (.trans (issueTick_timeline (s.clk.tick + 1) s5) (stopChannels_timeline _)))
  generalize (if s.twin.role = 1 then s5 else stopChannels (issueTick (s.clk.tick + 1) s5)) = s6 at issued ⊢
  have closed := issued.trans (.foldl closeWindow_timeline (activeClusters s6) s6)
  exact closed

theorem shiftGates_clk (d : Int) (s : State) : (shiftGates d s).clk = s.clk := by
  unfold shiftGates
  split <;> rfl

/-- The edge of a tick moves the clock; what slews towards the correction is taken from what is left of it. -/
theorem ticked_clk (s : State) :
    (ticked s).clk.tick = s.clk.tick + 1 ∧ (ticked s).clk.tickAt = nextTickAt s ∧
    (ticked s).clk.localNs = max s.clk.localNs (nextTickAt s) ∧
    (ticked s).clk.offset + (ticked s).clk.slewLeft = s.clk.offset + s.clk.slewLeft := by
  unfold ticked
  generalize hu : shiftGates _ _ = u
  have clk : u.clk = { s.clk with tick := s.clk.tick + 1, tickAt := nextTickAt s, localNs := max s.clk.localNs (nextTickAt s) } := by
    rw [← hu, shiftGates_clk]
  unfold slewTick
  dsimp only
  rw [clk]
  refine ⟨rfl, rfl, rfl, ?_⟩
  dsimp only
  omega

/-! ### The edge of a tick (R35, R38) -/

/-- What the edge of the next tick lies before the end of its period. -/
def edgeShift (s : State) : Int :=
  let p : Int := (tickNs s : Nat)
  let e := Int.emod (((s.clk.tickAt + tickNs s : Nat) : Int) + s.clk.offset) p
  clampI (-((tickNs s / 2000 : Nat) : Int)) ((tickNs s / 2000 : Nat) : Int) (if 2 * e ≤ p then e else e - p)

theorem nextTickAt_eq (s : State) : nextTickAt s = (((s.clk.tickAt + tickNs s : Nat) : Int) - edgeShift s).toNat := rfl

theorem edgeShift_bounds (s : State) :
    -((tickNs s / 2000 : Nat) : Int) ≤ edgeShift s ∧ edgeShift s ≤ ((tickNs s / 2000 : Nat) : Int) := by
  unfold edgeShift
  dsimp only
  rw [clampI_eq _ (by omega)]
  omega

theorem edgeShift_aligned {s : State} (aligned : ((s.clk.tickAt : Int) + s.clk.offset) % (tickNs s : Nat) = 0) : edgeShift s = 0 := by
  have next : (((s.clk.tickAt + tickNs s : Nat) : Int) + s.clk.offset) % (tickNs s : Nat) = 0 := by
    rw [show (((s.clk.tickAt + tickNs s : Nat) : Int) + s.clk.offset) = ((s.clk.tickAt : Int) + s.clk.offset) + (tickNs s : Nat) by
      push_cast; ring, Int.add_emod_right, aligned]
  unfold edgeShift
  dsimp only
  rw [show Int.emod (((s.clk.tickAt + tickNs s : Nat) : Int) + s.clk.offset) (tickNs s : Nat) = 0 from next,
    clampI_eq _ (by omega), if_pos (by omega)]
  omega

theorem nextTickAt_aligned {s : State} (aligned : ((s.clk.tickAt : Int) + s.clk.offset) % (tickNs s : Nat) = 0) :
    nextTickAt s = s.clk.tickAt + tickNs s := by
  rw [nextTickAt_eq, edgeShift_aligned aligned, Int.sub_zero, Int.toNat_natCast]

theorem nextTickAt_near (s : State) :
    2000 * ((nextTickAt s : Int) - ((s.clk.tickAt + tickNs s : Nat) : Int)).natAbs ≤ tickNs s := by
  have bounds := edgeShift_bounds s
  rw [nextTickAt_eq]
  omega

/-! ### The timers of a flow (R253, R265) -/

/-- A deadline that a VOID flow misses without open roots counts once, and the ops are void. -/
theorem expire_of_void {f i : Nat} {fl : Flow} {x : Inst} {s : State} (held : flow? s f = some fl) (inst : fl.inst? i = some x)
    (late : fl.lateRelease = false) (settled : openRoots x = []) (first : x.missed = false) :
    expire f i s = withInst f i (fun y => { y with ops := y.ops.map (lateVoid fl.miss) })
      (bumpN .deadlineMiss f 1 1 (bump .deadlineMiss fl.cls (withInst f i (fun y => { y with missed := true }) s))) := by
  have there : ((flow? s f).bind fun fl => (fl.inst? i).map fun x => (fl, x)) = some (fl, x) := by simp [held, inst]
  unfold expire missInstance
  rw [there]
  dsimp only
  rw [settled, late, first]
  rfl

/-- Settles O20: the round is read off, a tick keeps what its edge has moved, and the timers find what is due. -/
theorem roundsDeadlinesAndTicks : Obligations.RoundsDeadlinesAndTicks := by
  unfold Obligations.RoundsDeadlinesAndTicks
  refine fun s up => ⟨congrArg Host.Outcome.next (if_pos up), fun f i fl x dl => ?deadline, fun f i d fl x o => ?predicate,
    fun quiet => ⟨runTick s, congrArg Host.Outcome.next (if_pos up), ?tick⟩, nextTickAt_aligned, nextTickAt_near s⟩
  case deadline =>
    intro s1 held inst due passed late settled first
    change execDeadlineExpiry f i s = _
    have there : ((flow? s1 f).bind fun fl => fl.inst? i) = some x := by rw [held]; exact inst
    have go : (alive s && x.deadline.any fun d => decide (d ≤ s1.clk.tick)) = true := by
      simp [up, due, passed]
    unfold execDeadlineExpiry
    dsimp only
    rw [there]
    exact congrArg Host.Outcome.next ((if_pos go).trans (expire_of_void held inst late settled first))
  case predicate =>
    intro s1 held inst op kind open_ here passed
    change execPredTicksExpiry f i d s = _
    have there : ((flow? s1 f).bind fun fl => (fl.inst? i).bind fun x => (x.op? d).map fun o => (fl, x, o)) = some (fl, x, o) := by
      simp [held, inst, op]
    unfold execPredTicksExpiry
    dsimp only
    rw [there]
    exact congrArg Host.Outcome.next (if_pos (by simpa [up, kind, open_, here] using passed))
  case tick =>
    obtain ⟨kept, closed⟩ := runTick_timeline quiet
    obtain ⟨tick, edge, time, slew⟩ := ticked_clk s
    have offset : (runTick s).clk.offset = (ticked s).clk.offset := kept.field (·.clk.offset) fun _ => rfl
    have left : (runTick s).clk.slewLeft = (ticked s).clk.slewLeft := kept.field (·.clk.slewLeft) fun _ => rfl
    refine ⟨(kept.field (·.clk.tick) fun _ => rfl).trans tick, (kept.field (·.clk.tickAt) fun _ => rfl).trans edge,
      (kept.field (·.clk.localNs) fun _ => rfl).trans time, closed, ?_⟩
    rw [offset, left, slew]

end Sys2Proof.Machine
end
